-- ==== Sys2Proof/Word.lean ====
section
/-! DEFINITION. The word types of the TZ3208 model (R2, R3): registers are 32 bits wide, wire and storage formats
are byte strings, and every digest and vault key is 256 bits. -/

namespace Sys2Proof

/-- A register of the management address space, or a word of RAM (R2). -/
abbrev Word := BitVec 32

/-- A byte of a wire or storage format (R3). -/
abbrev Byte := BitVec 8

/-- A SHA-256 digest, or 256 bits of key material; byte 0 stands in bits 255..248 (R3). -/
abbrev Digest := BitVec 256

/-- A channel number CH0-CH31, also the number of its flash-side port FP0-FP31 and of an HRST_N line. -/
abbrev Ch := Fin 32

/-- A hearth core, 0-3. -/
abbrev Core := Fin 4

/-- A client instance, IN0-IN63. -/
abbrev Inst := Fin 64

/-- A fabric link, FL0-FL3. -/
abbrev Flue := Fin 4

end Sys2Proof
end

