-- ==== Sys2Proof/Syntax.lean ====
section
/-! DEFINITION. The commands of the TZ3208 as a block: one constructor of `Instr` for each row of the operation
table, with the operands the row's rule speaks of. What reaches the device from outside (the bits on a host's bus, the
bytes a flash returns, the frames of a neighbour, the levels of the board's lines) stands in the operands; everything
the device holds itself stands in the state. -/

namespace Sys2Proof

/-- The ten masters of the management address space: the four cores and the six external masters, which are MS0, MS1
and I3C0-I3C3 in that order (R68). -/
inductive Master where
  | core (c : Core)
  | ext (x : Fin 6)
deriving DecidableEq, Repr

/-- The four billet classes of Table 1.3, in dependency order (R26). -/
inductive BilletClass where
  | hs | ver | fill | bg
deriving DecidableEq, Repr

/-- The arbiters of R215: a tier 1-3 of the hash bank, the AES engines, the key-vault unit, a flash-side port, the
own store. -/
inductive Arbiter where
  | hash (tier : Fin 3)
  | aes
  | vault
  | port (p : Ch)
  | ownStore
deriving DecidableEq, Repr

/-- A host transaction as its port sees it from the fall to the rise of H_CS_N (R16, R37, R52-R54). -/
structure HostTxn where
  /-- The opcode byte sampled by the decode edge. -/
  op : Byte
  /-- The second command byte of an 8D command (R35, R37). -/
  ext : Byte
  /-- The address bits sampled; a 3-byte address uses the low 24. -/
  addr : Word
  /-- The time from e0 to the last command or address edge, in ns at the resolution of 1 ns (R54). -/
  cmdNs : Nat
  /-- Whole data units clocked before H_CS_N rose. -/
  units : Nat
  /-- H_CS_N rose on a unit boundary with no further edge (Table 2.7). -/
  whole : Bool
  /-- The bytes the host drove in the data phase. -/
  data : List Byte
  /-- The bytes the flash drives back if the relay carries the read (R46). -/
  relay : List Byte
  /-- The data unit at which a parity error is found in the frame being served, if one is (R147). -/
  parity : Option Nat
  /-- The parity error is in the frame's tag and not in its data (R147). -/
  tagParity : Bool
  /-- Status reads of the channel's committed write that end during the transaction, each with the data unit before which it
  ends and the status it returns (R91, R503). -/
  polls : List (Nat × Byte) := []
deriving DecidableEq, Repr

/-- The reset straps and OTP-independent levels sampled at the release of a device reset. -/
structure Straps where
  /-- The pair strap: which unit of a redundant pair this is. -/
  pairStrap : Bool
  /-- The levels detected on the I/O banks, one bit a bank: 0 1.8 V, 1 3.3 V. -/
  bankLvl : BitVec 15
  /-- OS_MODE is bit 0 (R397, R481). -/
  word : BitVec 8
  /-- The entropy source passes its start-up test at this reset. -/
  entropyOk : Bool
deriving DecidableEq, Repr

/-- The three failures the clock monitor acts on (R293). -/
inductive ClockFault where
  | coreClock | refclk | pllLock
deriving DecidableEq, Repr

/-- A portal frame of Table 2.10, as its target received it. -/
structure PortalFrame where
  /-- Byte address of the first word. -/
  addr : BitVec 24
  /-- COUNT, in words. -/
  count : Nat
  /-- The words of a write burst. -/
  words : List Word
deriving DecidableEq, Repr

/-- How an SMBus transaction ended (R290). -/
inductive SmbResult where
  | ok (data : BitVec 16)
  | noAck
  | timeout
  | pec
deriving DecidableEq, Repr

/-- A unit whose power domain is gated after 10 us idle (Table 9.8). -/
inductive IdleUnit where
  | hash (e : Fin 12)
  | aes (e : Fin 2)
  | lms
  | core (c : Core)
deriving DecidableEq, Repr

/-- A serial link: 0-3 are the flues, 4 is the pair link (R369, R439). -/
abbrev Link := Fin 5

/-- A frame of a flue or of the pair link, as Table 13.1 lays it out; LEN is the length of the payload (R372). -/
structure FabFrame where
  typ : Byte
  flags : Byte
  lseq : Byte
  hops : Byte
  dst : Byte
  src : Byte
  pseq : BitVec 16
  eseq : BitVec 16
  arg : Word
  payload : List Byte
deriving DecidableEq, Repr

/-- Why a received frame is not taken: an error on the link, or a frame that breaks Table 13.2 (R371, R374). -/
inductive BadFrame where
  | crc
  | malformed
deriving DecidableEq, Repr

/-- Content of a pair HELLO (Table 15.6). -/
structure PairHello where
  serial : BitVec 64
  /-- The PAIR_ORD strap of the sender. -/
  ord : Bool
  /-- 0 none, 1 burning, 2 banked. -/
  role : BitVec 2
  /-- 0 ALONE, 1 SYNCING, 2 IN_STEP. -/
  step : BitVec 2
  digest : Digest
deriving DecidableEq, Repr

/-- A verdict block of the partner (R446): `perBind` for a binding's ember verdicts, else a channel's grate verdicts. -/
structure VerdictBlock where
  perBind : Bool
  idx : BitVec 8
  no : Nat
  crc : Word
deriving DecidableEq, Repr

/-- Where H_CS_N rose in a truncated transaction (Table 2.8): before the decode edge, in the address phase, or in the mode or wait
phase, when every command and address edge has been sampled. -/
inductive TruncAt where
  | beforeDecode | address | wait
deriving DecidableEq, Repr

/-- An own-clock access of the burning unit as the banked unit samples it on the flash-side lines (R135, R223): the chip
select, the flash byte address, and whether it is a status read. -/
structure PortSample where
  cs : Bool
  addr : Nat
  status : Bool
deriving DecidableEq, Repr

/-- A grant of a flash-side port: the port, and on the banked unit the access it samples there, if any (R217, R223). -/
structure PortGrant where
  port : Ch
  seen : Option PortSample
deriving DecidableEq, Repr

/-- Content of a NOTICE (Table 15.6). -/
inductive PairNotice where
  /-- A PMB step became DONE, or FAILED (R287). -/
  | pmbStep (i : Fin 128) (done : Bool)
  /-- Quota, prefetch depth and divider of a channel, with the number of the pass that changed them (R173). -/
  | adapt (pass : Nat) (c : Ch) (quota depth div : Nat)
  /-- The PSEQ of a frame towards a node, with the CRC-32 that tells the frame (R448). -/
  | pseq (node : Fin 32) (q : BitVec 16) (crc : Word)
deriving DecidableEq, Repr

/-- A STATE record of the burning unit (R443). -/
inductive PairState where
  | step (i : Fin 128) (done : Bool)
  | bankMap (c : Ch) (set : Fin 15) (activeB goldSel : Bool)
  | subst (c : Ch) (mask : BitVec 64)
  | esc (c : Ch) (held : Bool) (count : Nat)
  | clkHold (mask : BitVec 32)
  | clinker (bind : BitVec 8) (bank : Fin 3) (man : Bool) (idx : Nat)
  | quota (c : Ch) (frames : Nat)
  | instance_ (n : Inst) (active : Bool)
  | queue (n : Inst) (outbound : Bool) (msgs : List (List Word))
  | bulk (n : Inst) (dev : Bool) (ofs : Nat) (bytes : List Byte)
  | lock (k : Fin 16) (owner : Option Inst)
  | seqNo (n : Inst) (outbound : Bool) (sender : BitVec 8) (next : BitVec 8)
  | pseq (node : Fin 32) (q : BitVec 16)
deriving DecidableEq, Repr

/-- Content of a DIAG (Table 15.6): the partner's PR_DIAG and clean time. -/
structure PairDiag where
  diag : BitVec 6
  clean : BitVec 8
deriving DecidableEq, Repr

/-- An access over the TAP's debug transport: a read or write of a debug-module register (R334). -/
inductive DebugOp where
  | dmiRead (a : BitVec 7)
  | dmiWrite (a : BitVec 7) (v : Word)
deriving DecidableEq, Repr

/-- The three recovery sources (R419). -/
inductive RecSrc where
  | ms0 | i3c0 | fl0
deriving DecidableEq, Repr
/-- One command, event or protocol operation: one constructor per row of the operation table. -/
inductive Instr where
  /-- REGISTER_WRITE (R6): A write to a register that has no row of its own acts on its fields as its access codes state, under the alignment and reserved-bit rules. -/
  | registerWrite (m : Master) (addr : BitVec 24) (width : Nat) (v : Word)
  /-- RC_READ (R500): A read of an RC field returns the field and then reduces the count or restarts the extreme it holds. -/
  | rcRead (m : Master) (addr : BitVec 24)
  /-- BCAST_READ (R70): A read with CH_SEL.BCAST set returns the lowest connected channel's value and sets MISMATCH if another connected channel differs. -/
  | bcastRead (m : Master) (addr : BitVec 24)
  /-- DEV_RST_N_ASSERT (R482): A low pulse of 1 µs or more on DEV_RST_N asserts a warm device reset; shorter pulses under 100 ns are ignored. -/
  | devRstNAssert (lowNs : Nat)
  /-- DEVICE_RESET_RELEASE (R31): Release of a device reset samples the straps, zeroes hearth RAM, decodes the life-cycle state and starts the PLL and the master watchdog. -/
  | deviceResetRelease (straps : Straps)
  /-- TINDER_START (R31): Once the PLL has locked, the tinder ROM runs deferred tamper responses, resumes marks and journals, and verifies kindling or enters recovery mode. -/
  | tinderStart
  /-- KINDLING_BOOT (R405): Once the chosen image has been read and verified, TALLY0 is extended, the image is copied to LOAD and core 0 starts at ENTRY. -/
  | kindlingBoot
  /-- CORE_SUPPLY_LOW (R284): The core supply below its range for 1 µs or more holds the device in reset, and the following reset is cold. -/
  | coreSupplyLow (lowNs : Nat)
  /-- CORE_SUPPLY_RESTORED (R284): After the core supply has been in range for 1 ms the device reset caused by its fall ends. -/
  | coreSupplyRestored
  /-- IO_BANK_LOW (R284): An I/O bank supply below its range for 1 µs or more causes a warm reset and leaves that bank's lines undriven until it returns. -/
  | ioBankLow (b : Fin 15) (lowNs : Nat)
  /-- CLOCK_MONITOR_FAULT (R293): A missing core clock, REFCLK outside 25 MHz ±5 % for 10 µs, or PLL lock loss causes a warm reset. -/
  | clockMonitorFault (k : ClockFault)
  /-- READ (R83): A READ-class host transaction is decoded, judged by the grate at the verdict and at each ember boundary, and served from embers, the relay or deny data. -/
  | read (c : Ch) (t : HostTxn)
  /-- PROGRAM (R89): A PROGRAM host transaction is judged at its verdict and, if complete under Table 2.7, takes effect at the rise of H_CS_N that commits it. -/
  | program (c : Ch) (t : HostTxn)
  /-- ERASE (R80): An ERASE host transaction is judged for its 4 KiB or 64 KiB block and takes effect at commit. -/
  | erase (c : Ch) (t : HostTxn)
  /-- WREN (R56): A completed WREN sets emulated WEL. -/
  | wren (c : Ch) (t : HostTxn)
  /-- WRDI (R56): A completed WRDI clears emulated WEL. -/
  | wrdi (c : Ch) (t : HostTxn)
  /-- RDSR (R503): An RDSR transaction serves emulated status register 1 on every data unit until H_CS_N rises. -/
  | rdsr (c : Ch) (t : HostTxn)
  /-- RDREG (R503): An RDREG transaction serves byte REG of the profile's register image repeatedly until H_CS_N rises. -/
  | rdreg (c : Ch) (t : HostTxn)
  /-- WRREG (R502): A completed WRREG writes the writable bits of the register image from byte REG on at commit and clears WEL. -/
  | wrreg (c : Ch) (t : HostTxn)
  /-- SFDP (R55): An SFDP transaction serves the composed SFDP space, with 0xFF past its end, and never reaches a flash. -/
  | sfdp (c : Ch) (t : HostTxn)
  /-- READ_ID (R40): A READ_ID transaction serves the profile's ID string and then 0xFF. -/
  | readId (c : Ch) (t : HostTxn)
  /-- ADDR4_ENTER (R38): A completed ADDR4_ENTER puts the port into 4-byte address mode from the next fall of H_CS_N. -/
  | addr4Enter (c : Ch) (t : HostTxn)
  /-- ADDR4_EXIT (R38): A completed ADDR4_EXIT puts the port into 3-byte address mode from the next fall of H_CS_N. -/
  | addr4Exit (c : Ch) (t : HostTxn)
  /-- PROTO_SWITCH (R38): A completed PROTO_SWITCH toggles between the reset and alternate profiles from the next fall of H_CS_N, keeping the address mode. -/
  | protoSwitch (c : Ch) (t : HostTxn)
  /-- RESET_EN (R39): A completed RESET_EN arms the port soft reset. -/
  | resetEn (c : Ch) (t : HostTxn)
  /-- RESET (R39): A RESET after RESET_EN returns the port to its reset profile and address mode and clears WEL and SUSP. -/
  | reset (c : Ch) (t : HostTxn)
  /-- SUSPEND (R58): SUSPEND while WIP is set sets SUSP so that RDSR shows WIP as 0. -/
  | suspend (c : Ch) (t : HostTxn)
  /-- RESUME (R58): RESUME clears SUSP so that RDSR shows the operation's true state. -/
  | resume (c : Ch) (t : HostTxn)
  /-- UNKNOWN (R53): An unknown or invalid opcode leaves the outputs undriven until H_CS_N rises, is counted, and escalates where GR_CTL.UNK_ESC is 1. -/
  | unknown (c : Ch) (t : HostTxn)
  /-- TRUNCATED_TRANSACTION (R53): H_CS_N rising before decode or during the address, mode or wait phase ends the transaction with no effect and counts TRUNC. -/
  | truncatedTransaction (c : Ch) (at_ : TruncAt) (t : HostTxn)
  /-- FLASH_ACCESS_GRANT (R217): The flash-side port grants its next own-clock access in the order head demand, aged head, status read, weighted queues. -/
  | flashAccessGrant (g : PortGrant)
  /-- FILL_COMPLETE (R140): When a fill's data are complete the frame enters CHECKING and its ember check is queued for a hash engine. -/
  | fillComplete (p : Ch) (data : List Byte)
  /-- WRITE_EXECUTE (R91): A committed ALLOW or STAGE write draws a fill billet and issues WREN and the operation on the flash-side port. -/
  | writeExecute (p : Ch)
  /-- STATUS_POLL (R91): Every 20 µs after the operation, or after a busy status, the billet reads the flash status ahead of fills. -/
  | statusPoll (p : Ch) (status : Byte)
  /-- ESC_HOLD_EXPIRY (R92): Under ESC_MODE REBOOT or GOLDEN the escalation hold clears ESC_HOLD ms after HRST_N went low. -/
  | escHoldExpiry (c : Ch)
  /-- ESC_RELEASE (R93): A write of GR_ESC.RELEASE clears the escalation hold, ESC_HELD and ESC_COUNT. -/
  | escRelease (m : Master)
  /-- RGN_ACT_WRITE (R81): A write to GR_RGN_ACT after the lock is ignored, taken in its adjustable fields, or rejected with ADJ_REJ after an R79 re-check. -/
  | rgnActWrite (m : Master) (i : Fin 64) (v : Word)
  /-- SUBST_CLEAR (R82): Kindling's W1C of GR_SUBST clears a descriptor's substituted state from the next fall of H_CS_N. -/
  | substClear (m : Master) (hi : Bool) (v : Word)
  /-- LOG_DRAIN (R219): A background billet drains the oldest pending log records to an own-store log page and advances the log tail. -/
  | logDrain (failed : Bool)
  /-- PORTAL_READ_BURST (R63): A read-burst frame is checked for alignment, permission and count, then returns its words with read side effects applied at its last byte. -/
  | portalReadBurst (x : Fin 6) (f : PortalFrame)
  /-- PORTAL_WRITE_BURST (R63): A write-burst frame is checked and applied in full, returning its status byte. -/
  | portalWriteBurst (x : Fin 6) (f : PortalFrame)
  /-- PORTAL_READ_STATUS (R63): A read-status frame returns this master's GC_PORTAL_STS at once. -/
  | portalReadStatus (x : Fin 6)
  /-- PORTAL_FRAME_ERROR (R66): A frame whose length does not match, or whose first byte is unknown, is discarded and counted in FRAME_ERR. -/
  | portalFrameError (x : Fin 6) (unknownFirst : Bool)
  /-- PORTAL_BUSY_TIMEOUT (R65): After 256 busy bytes without readiness the device sends 0x5C and ends the frame. -/
  | portalBusyTimeout (x : Fin 6) (f : PortalFrame) (isWrite : Bool)
  /-- OWN_REQ (R60): Writing CH_RAW_CTL.OWN_REQ requests or ends raw ownership of a flash-side port and sets or clears the RAW hold. -/
  | ownReq (m : Master) (v : Bool)
  /-- RAW_OWNERSHIP_GRANT (R60): Raw ownership is granted once every host on the port is held and every fill billet on it has ended. -/
  | rawOwnershipGrant (p : Ch)
  /-- RAW_START (R61): CH_RAW_CTL.START checks ownership, lengths and lanes, then clocks a raw transfer from CH_RAW_BUF. -/
  | rawStart (m : Master)
  /-- RAW_ABORT (R62): CH_RAW_CTL.ABORT ends the raw transfer at the next edge and releases the chip select. -/
  | rawAbort (m : Master) (edges : Nat) (bits : List Bool)
  /-- RAW_TRANSFER_END (R61): The last edge of a raw transfer captures the remaining bits and sets DONE. -/
  | rawTransferEnd (p : Ch) (bits : List Bool)
  /-- ANCHORING (R108): Completion of anchoring checks a bank's header, signature and top page, pins ROOT and extends its tally, or rejects the bank. -/
  | anchoring (e : Fin 12) (parity : Bool)
  /-- EMBER_CHECK (R109): At the end of an ember hash the digest is compared with its leaf, releasing the ember, rereading it or making a clinker. `parity` is an error met
  meanwhile in what was hashed, `entry` one in the node-cache entry of a level (9 ROOT, 10 an expected digest) and index (R113). -/
  | emberCheck (e : Fin 12) (entry : Option (Nat × Nat)) (parity : Bool)
  /-- HASH_PREEMPT (R117): At a running job's block boundary a waiting job of lower tier takes its engine and the state is saved in the billet. -/
  | hashPreempt (e : Fin 12)
  /-- KNOWN_ANSWER_TEST (R118): Every KAT_PERIOD each hash and AES engine runs a known-answer test, and a failing engine goes offline. -/
  | knownAnswerTest (hashFail : BitVec 12) (aesFail : BitVec 2)
  /-- STAGE_CHECK (R129): VE_BIND_CTL.STAGE_CHECK starts the pre-flip check of the binding's inactive bank. -/
  | stageCheck (m : Master)
  /-- CLIST_CLEAR (R128): VE_BIND_CTL.CLIST_CLEAR clears the binding's clinker-list entries. -/
  | clistClear (m : Master)
  /-- CLINKER_HOLD_CLEAR (R127): Kindling's W1C of VE_CLK_HOLD clears a channel's clinker hold and returns FAILED strict descriptors to PENDING. -/
  | clinkerHoldClear (m : Master) (v : Word)
  /-- BIND_FLOOR_WRITE (R105): A write to VE_BIND_FLOOR raises the binding's floor, and a lower value is ignored. -/
  | bindFloorWrite (m : Master) (v : Word)
  /-- SCRUB_STEP (R130): Scrub, paced to its period, reads the next signature, manifest ember, node page or data ember into its buffer for a tier-3 check. -/
  | scrubStep (b : Fin 255)
  /-- FLIP_REQ (R152): EC_BSET_CTL.FLIP_REQ sets FLIP_PEND if the inactive bank is ARMED for every binding, else sets REQ_REJ. -/
  | flipReq (m : Master)
  /-- FLIP_CANCEL (R152): EC_BSET_CTL.FLIP_CANCEL clears FLIP_PEND. -/
  | flipCancel (m : Master)
  /-- GOLD_CLEAR (R154): EC_BSET_CTL.GOLD_CLEAR sets GCLR_PEND unless the channel has a clinker hold. -/
  | goldClear (m : Master)
  /-- STAGE_LOCK_SET (R156): EC_BSET_CTL.STAGE_LOCK_SET freezes staged writes to the bank set. -/
  | stageLockSet (m : Master)
  /-- STAGE_LOCK_CLR (R156): EC_BSET_CTL.STAGE_LOCK_CLR allows staged writes to the bank set again. -/
  | stageLockClr (m : Master)
  /-- FLIP_HOLD_CLEAR (R153): Kindling's W1C of EC_FLIP_HOLD clears a channel's flip hold. -/
  | flipHoldClear (m : Master) (v : Word)
  /-- BSET_MAP_WRITE (R151): Before the lock kindling writes ACTIVE and GOLDEN_SEL of a bank set, a GOLDEN_SEL of 1 without a golden bank being ignored. -/
  | bsetMapWrite (m : Master) (v : Word)
  /-- TRACE_WINDOW_EXPIRY (R158): TRACE_WINDOW seconds after release the channel's trace recording ends. -/
  | traceWindowExpiry (c : Ch)
  /-- TRACE_JOURNAL_WRITE (R159): A trace of at least 1,024 entries is sealed and written to the free journal slot on a background billet. -/
  | traceJournalWrite (c : Ch)
  /-- ADAPTATION_PASS (R166): Every 100 ms the adaptation pass moves quotas, prefetch depths and flash-side clocks within the image's limits and sets scrub order. -/
  | adaptationPass
  /-- LOAD (R190): ST_CTL.LOAD starts reading, verifying and checking a structure image, or is refused with code 0x40. -/
  | load (m : Master)
  /-- LOAD_COMMIT (R192): A load that passes every check applies its sections in TYPE order and becomes LOADED. -/
  | loadCommit
  /-- LOAD_REJECT (R191): A load's first failure ends it, sets ST_ERR and REJECT, and leaves the device in the state of R30. -/
  | loadReject (readFail : Option Nat)
  /-- LOCK (R194): ST_CTL.LOCK locks the loaded structure, applies portal permissions, extends STRUCT_TALLY and starts the sequencer and verification. -/
  | lock (m : Master)
  /-- RESTRUCTURE_START (R196): ST_RS_CTL.START requests a live restructure of one held channel, or refuses it with a code. -/
  | restructureStart (m : Master)
  /-- RESTRUCTURE_COMMIT (R198): Once the target's committed writes complete, its new tables are applied in one step and the restructure hold is set. -/
  | restructureCommit
  /-- RESTRUCTURE_HOLD_CLEAR (R198): Kindling's W1C of ST_RS_HOLD clears a channel's restructure hold. -/
  | restructureHoldClear (m : Master) (v : Word)
  /-- ADVANCE (R202): ST_ARB_CTL.ADVANCE writes the mirror as ADVANCING and starts programming thermometer bits up to the locked image's ROLLBACK. -/
  | advance (m : Master)
  /-- ADVANCE_DONE (R202): After the last thermometer bit the mirror is written STABLE and DONE and ARB_DONE are set. -/
  | advanceDone (otpFail : Bool)
  /-- DEPENDENT_DRAW_GRANT (R212): A waiting dependent draw is granted in order of request once R208 allows it. -/
  | dependentDrawGrant (k : BilletClass)
  /-- HEAD_AGED (R215): A queue head that has waited the arbiter's age limit is appended to the aged list and served first. -/
  | headAged (a : Arbiter)
  /-- TRACKER_PARITY_ERROR (R205): A parity error in a tracker entry squashes its unit and its dependents and counts BT_PARITY. -/
  | trackerParityError (b : Fin 4096)
  /-- CREATE (R225): IN_CTL.CREATE makes a DORMANT instance ACTIVE with empty queues, or is refused. -/
  | create (m : Master)
  /-- RESET_DRAIN (R226): IN_CTL.RESET_DRAIN moves an ACTIVE instance to DRAINING. -/
  | resetDrain (m : Master)
  /-- RESET_SQUASH (R227): IN_CTL.RESET_SQUASH squashes every unit of the instance, empties its queues, frees its locks and makes it ACTIVE again. -/
  | resetSquash (m : Master)
  /-- REMOVE (R228): IN_CTL.REMOVE squashes the instance, revokes its key slots and leaves it DORMANT. -/
  | remove (m : Master)
  /-- DRAIN_COMPLETE (R226): When a draining instance's last billet retires and its outbound queue is empty it returns to ACTIVE. -/
  | drainComplete (n : Inst)
  /-- DRAIN_TIMEOUT (R226): A drain not complete 50 ms after the request becomes a squash and sets DRAIN_TMO. -/
  | drainTimeout (n : Inst)
  /-- CORE_START (R237): HE_CORE_CTL.START starts a HELD core in machine mode at its entry address. -/
  | coreStart (m : Master) (c : Core)
  /-- CORE_INSTRUCTION (R234): A core executes one RV32IMAC instruction, translated and checked by the region unit, taking any fault or trap. -/
  | coreInstruction (c : Core) (parity : Option Word)
  /-- OWN_STORE_WINDOW_READ (R241): A core read of the own-store window completes when its own-store access returns, or faults with OS_BUSY. -/
  | ownStoreWindowRead (c : Core) (failed : Bool)
  /-- RU_INVALIDATE (R246): A write to HE_RU_INV invalidates one page or every translation entry of one requester. -/
  | ruInvalidate (m : Master) (v : Word)
  /-- RU_ROOT_WRITE (R246): A write to HE_RU_ROOT sets a requester's root and invalidates its entries, or is refused for a busy DMA channel. -/
  | ruRootWrite (m : Master) (r : Fin 20) (v : Word)
  /-- DMA_GO (R248): HE_DMA_CTL.GO draws a billet and starts a job-DMA channel, or is refused. -/
  | dmaGo (m : Master) (k : Fin 16)
  /-- DMA_ABORT (R255): HE_DMA_CTL.ABORT squashes the job and returns the channel to IDLE with END ABORTED. -/
  | dmaAbort (m : Master) (k : Fin 16)
  /-- DMA_RESUME (R255): HE_DMA_CTL.RESUME moves a FAULTED channel to WAITING to continue at PROGRESS. -/
  | dmaResume (m : Master) (k : Fin 16)
  /-- DMA_BEAT (R251): A mover reads and writes one beat of at most 64 bytes of the current descriptor. -/
  | dmaBeat (mv : Fin 4) (parity : Option Word)
  /-- DMA_AGING (R253): A channel waiting 1 ms since it last left a mover takes effective priority 4. -/
  | dmaAging (k : Fin 16)
  /-- INT_CLAIM (R259): A write of HE_INT_ACK with CLAIM puts a deliverable source in service for that core. -/
  | intClaim (m : Master) (c : Core) (src : Fin 32)
  /-- INT_COMPLETE (R259): A write of HE_INT_ACK with COMPLETE by the claiming core ends service of the source. -/
  | intComplete (m : Master) (c : Core) (src : Fin 32)
  /-- MTIMECMP_MATCH (R262): When HE_MTIME reaches a core's HE_MTIMECMP its machine timer interrupt becomes pending. -/
  | mtimecmpMatch (c : Core)
  /-- RESET_NOW (R267): HE_NMI_CTL.RESET_NOW from an NMI_ACTIVE core causes a warm reset. -/
  | resetNow (m : Master)
  /-- WAIT_IN_SETTLED (R274): A WAIT_IN step whose line has held its level for FILTER · 10 µs becomes DONE and starts its watch. -/
  | waitInSettled (i : Fin 128)
  /-- DELAY_EXPIRY (R274): A DELAY step becomes DONE when its TIME has passed. -/
  | delayExpiry (i : Fin 128)
  /-- STEP_TIMEOUT (R275): A WAIT_IN or PMB step whose TIME passes first FAILS and is continued or stops its graph. -/
  | stepTimeout (i : Fin 128)
  /-- PMB_TRANSACTION_END (R290): A graph SMBus transaction ends acknowledged, making its step DONE or checking the poll value, or ends in error. -/
  | pmbTransactionEnd (p : Fin 4) (r : SmbResult)
  /-- SMB_RETRY (R290): 100 µs after an error a graph step retries its SMBus transaction. -/
  | smbRetry (i : Fin 128)
  /-- PMB_POLL_INTERVAL (R274): Every POLL_US a running PMB_POLL step issues a new read. -/
  | pmbPollInterval (i : Fin 128)
  /-- RESTART (R278): SQ_CTL.RESTART in OFF or FAULTED resets every step, clears platform-fault holds and starts the power-up graph. -/
  | restart (m : Master)
  /-- SHUTDOWN (R277): SQ_CTL.SHUTDOWN in RUNNING or UP starts the shutdown graph and clears every graph condition. -/
  | shutdown (m : Master)
  /-- PLATFORM_FAULT (R281): A watched line away from its level for FILTER · 10 µs raises a platform fault acting by its PF_ACT. -/
  | platformFault (i : Fin 128)
  /-- WATCH_REARM (R282): A spent watch re-arms once its line has held its level again for its filter time. -/
  | watchRearm (i : Fin 128)
  /-- PF_HOLD_CLEAR (R282): Kindling's W1C of SQ_PF_HOLD clears platform-fault holds and re-arms their watches. -/
  | pfHoldClear (m : Master) (v : Word)
  /-- HEARTH_HOLD_WRITE (R280): A write to SQ_HEARTH_HOLD sets or clears kindling's hold on HRST_N lines. -/
  | hearthHoldWrite (m : Master) (v : Word)
  /-- MIN_HOLD_EXPIRY (R279): MIN_HOLD ms after a line's assertion its graph condition holds again. -/
  | minHoldExpiry (n : Fin 32)
  /-- SMB_START (R505): SQ_SMB_CTL.START queues kindling's SMBus transaction, or refuses it with ERR 4 or CMD_REJ. -/
  | smbStart (m : Master)
  /-- SMB_TRANSACTION_END (R505): Kindling's SMBus transaction ends, setting SMB_DONE and ERR. -/
  | smbTransactionEnd (r : SmbResult)
  /-- ROOT_LOAD (R297): KV_CTL.ROOT_LOAD loads the AWK or enters ash, computes the roots and derives the fixed keys. -/
  | rootLoad (m : Master)
  /-- ZEROISE (R311): KV_CTL.ZEROISE clears every slot, the AWK and operation state, verifies by readback and leaves the vault in ash. -/
  | zeroise (m : Master)
  /-- REKINDLE (R314): KV_CTL.REKINDLE in ash takes a new AWK, clears ASHED and performs a root load, or is refused. -/
  | rekindle (m : Master)
  /-- DERIVE (R302): Vault operation DERIVE fills an EMPTY child slot with HKDF-Expand of its parent over a 128-byte context. -/
  | derive (c : Core)
  /-- GENERATE (R306): Vault operation GENERATE fills a child slot with material from the entropy source. -/
  | generate (c : Core)
  /-- UNWRAP (R307): Vault operation UNWRAP decrypts a wrapped blob into a child slot under a WRAP key. -/
  | unwrap (c : Core)
  /-- WRAP (R307): Vault operation WRAP encrypts a WRAPPABLE slot into a 96-byte blob. -/
  | wrap (c : Core)
  /-- REVOKE (R310): Vault operation REVOKE empties a slot, increments its GEN and invalidates its descendants and bound anchors. -/
  | revoke (c : Core)
  /-- REPLACE (R309): Vault operation REPLACE fills a slot's pending half by derivation or generation and returns its KCV. -/
  | replace (c : Core)
  /-- COMMIT (R310): Vault operation COMMIT makes a matching pending half current once in-flight users end, or discards it on a KCV mismatch. -/
  | commit (c : Core)
  /-- CANCEL (R306): Vault operation CANCEL discards a slot's pending half. -/
  | cancel (c : Core)
  /-- KCV (R306): Vault operation KCV returns the slot's 8-byte key check value. -/
  | kcv (c : Core)
  /-- HMAC (R306): Vault operation HMAC writes HMAC-SHA-256 of memory data under a slot key. -/
  | hmac (c : Core)
  /-- GCM_ENC (R306): Vault operation GCM_ENC encrypts memory data with AES-256-GCM and appends the tag. -/
  | gcmEnc (c : Core)
  /-- GCM_DEC (R306): Vault operation GCM_DEC decrypts memory data, zeroing the destination on a tag mismatch. -/
  | gcmDec (c : Core)
  /-- SIGN (R361): Vault operation SIGN takes the next reserved leaf and writes an HSS signature by the identity or alias key. -/
  | sign (c : Core)
  /-- ALIAS (R362): Vault operation ALIAS, once per reset, derives the alias key for a new epoch, generates its trees and writes its signed record. -/
  | alias_ (c : Core)
  /-- PUBKEY (R361): Vault operation PUBKEY writes a signing key's 60-byte public key. -/
  | pubkey (c : Core)
  /-- KV_OP_END (R305): A vault operation ends, posting its result code and outputs and returning its billet. -/
  | kvOpEnd (c : Core)
  /-- INVALIDATION_SWEEP (R301): Within 256 ns of an invalidation each invalid descendant slot is zeroed, set EMPTY and its GEN incremented. -/
  | invalidationSweep
  /-- ENTROPY_RETEST (R317): 1 ms after a failed health test the start-up test is repeated and ES_FAIL clears on a pass. -/
  | entropyRetest (pass : Bool)
  /-- LEAF_JOURNAL_WRITE (R357): When a leaf-journal record has been programmed and read back equal, the key's reservation limit N rises by 1,024. -/
  | leafJournalWrite (j : Fin 2) (failed : Bool)
  /-- LMS_TREE_GENERATED (R360): Background generation of a key's tree or bottom subtree completes, making the key's trees ready. -/
  | lmsTreeGenerated (j : Fin 2)
  /-- TO_TEST (R327): LC command TO_TEST records its intent and generates the UDS and programs S1. -/
  | toTest (m : Master)
  /-- TO_PRODUCTION (R327): LC command TO_PRODUCTION records its intent, zeroises the test root, closes factory modes and programs S2. -/
  | toProduction (m : Master)
  /-- PROVISION (R327): LC command PROVISION programs an owner generation's seed, key digests, check and PROV flag. -/
  | provision (m : Master)
  /-- REDEEM (R332): LC command REDEEM checks a debug-unlock token and starts the transition of its PURPOSE. -/
  | redeem (m : Master)
  /-- TO_EOL (R327): LC command TO_EOL revokes every generation, zeroises the vault and programs S3. -/
  | toEol (m : Master)
  /-- NONCE (R330): LC command NONCE takes a fresh 256-bit nonce into LC_NONCE0–7. -/
  | nonce (m : Master)
  /-- LC_TRANSITION_END (R327): A life-cycle transition ends by programming DONE, or with OTP_FAIL leaving its mark open. -/
  | lcTransitionEnd (otpFail : Bool)
  /-- TAP_INSTRUCTION (R334): A TAP instruction selects BYPASS, SAMPLE/PRELOAD, EXTEST, the debug transport or a factory register as the state allows. -/
  | tapInstruction (ir : BitVec 5)
  /-- DEBUG_ACCESS (R334): While debug is open the debug module executes an abstract command or system-bus access as core 0 in machine mode. -/
  | debugAccess (a : DebugOp)
  /-- MB_SEND (R339): MB_SEND.GO checks the staged message and enqueues it whole, or refuses it with a result code. -/
  | mbSend (m : Master)
  /-- MB_POP (R340): MB_POP removes the head of the queue this requester receives and raises its acknowledgement count. -/
  | mbPop (m : Master)
  /-- LOCK_READ (R345): A read of MB_LOCK acquires a free lock for the selected instance or returns the owner plus 1. -/
  | lockRead (m : Master) (k : Fin 16)
  /-- LOCK_WRITE (R345): A write of the owner plus 1 to MB_LOCK frees the lock. -/
  | lockWrite (m : Master) (k : Fin 16) (v : Word)
  /-- TALLY_SNAPSHOT_READ (R356): A read of MB_TALLY_VAL0 copies the selected tally and its count into this master's snapshot. -/
  | tallySnapshotRead (m : Master)
  /-- EXTEND (R355): MB_TALLY_CTL.EXTEND requests an extension of the selected tally, refused if it is locked. -/
  | extend (m : Master)
  /-- TALLY_EXTENSION_DONE (R354): A tally extension's hash completes, setting the tally to SHA-256(T ‖ D) and raising its count. -/
  | tallyExtensionDone (t : Fin 64)
  /-- MCTP_PACKET_RX (R350): A received MCTP packet is assembled into an instance's bulk buffer, answered as a control message, NACKed or dropped. -/
  | mctpPacketRx (p : Fin 4) (pkt : List Byte)
  /-- MCTP_PACKET_READ (R349): A controller's private read fetches the next outbound MCTP packet; after the last, the message is popped. -/
  | mctpPacketRead (p : Fin 4)
  /-- I3C_CCC (R348): An I3C target handles a supported common command code such as ENTDAA, SETDASA or GETPID. -/
  | i3cCcc (p : Fin 4) (ccc : Byte) (directed : Bool) (data : List Byte)
  /-- I3C_REPLY_READ (R348): A private read fetches a ready portal reply beginning with its status byte. -/
  | i3cReplyRead (p : Fin 4)
  /-- I3C_REPLY_TIMEOUT (R348): A portal reply not ready 1 ms after its frame ended is answered with 0x5C and the frame ends. -/
  | i3cReplyTimeout (p : Fin 4)
  /-- GET_VERSION (R366): The SPDM responder answers GET_VERSION and resets the instance's connection state. -/
  | getVersion (n : Inst)
  /-- GET_CAPABILITIES (R365): The SPDM responder answers GET_CAPABILITIES with the device's capabilities. -/
  | getCapabilities (n : Inst)
  /-- NEGOTIATE_ALGORITHMS (R365): The SPDM responder answers NEGOTIATE_ALGORITHMS with SHA-256 and its HSS ExtAsym entry. -/
  | negotiateAlgorithms (n : Inst)
  /-- GET_DIGESTS (R365): The SPDM responder answers GET_DIGESTS from the certificate chain. -/
  | getDigests (n : Inst)
  /-- GET_CERTIFICATE (R364): The SPDM responder serves the certificate chain of slot 0. -/
  | getCertificate (n : Inst)
  /-- CHALLENGE (R365): The SPDM responder answers CHALLENGE with CHALLENGE_AUTH signed by the alias key. -/
  | challenge (n : Inst)
  /-- GET_MEASUREMENTS (R365): The SPDM responder snapshots the tallies and answers with the requested measurement blocks, signed if asked. -/
  | getMeasurements (n : Inst)
  /-- CHUNK_GET (R367): The SPDM responder serves the next chunk of a held large response in ChunkSeqNo order. -/
  | chunkGet (n : Inst)
  /-- UNSUPPORTED_REQUEST (R365): Any other SPDM request is answered with ERROR UnsupportedRequest. -/
  | unsupportedRequest (n : Inst)
  /-- SPDM_RESPONSE_READY (R367): When a response's signature completes it is sent, or held in a large-response store with ERROR LargeResponse. -/
  | spdmResponseReady (n : Inst)
  /-- FLUE_SYMBOL_LOCK (R370): Both lanes of a DOWN flue achieve symbol lock and the flue enters TRAINING. -/
  | flueSymbolLock (f : Link)
  /-- FLUE_TRAINED (R370): After the required training sets are sent and acknowledged the flue enters UP. -/
  | flueTrained (f : Link) (swap : Bool) (pol : BitVec 2)
  /-- TRAINING_TIMEOUT (R370): A flue still in TRAINING 5 ms after entering it returns to DOWN. -/
  | trainingTimeout (f : Link)
  /-- FLUE_RETRY (R370): 100 ms after a training timeout, or 1 ms after FAILED, the flue tries again from DOWN. -/
  | flueRetry (f : Link)
  /-- LINK_RX (R371): A LINK frame acknowledges sent frames, returns credits per VC, and on NAK starts a replay. -/
  | linkRx (f : Link) (arg : Word)
  /-- LINK_ACK_TIMER (R371): At least every 1 µs while anything is owed the receiver sends a LINK frame. -/
  | linkAckTimer (f : Link)
  /-- REPLAY_TIMEOUT (R371): A frame unacknowledged for 100 µs is replayed, and eight replays without advance fail the flue. -/
  | replayTimeout (f : Link)
  /-- BAD_FRAME_RX (R374): A frame with a CRC or symbol error, or malformed, is discarded and counted or NAKed. -/
  | badFrameRx (f : Link) (k : BadFrame)
  /-- HELLO_RX (R376): A received HELLO makes its flue NEIGHBOUR or ISOLATED by FABRIC_ID. -/
  | helloRx (f : Flue) (fr : FabFrame)
  /-- HELLO_TIMER (R376): Every 1 ms each UP flue sends HELLO. -/
  | helloTimer (f : Flue)
  /-- HELLO_LOSS (R376): A NEIGHBOUR flue with no HELLO for 3 ms falls back to UP. -/
  | helloLoss (f : Flue)
  /-- TOPO_RX (R377): A newer TOPO frame updates the topology database and is flooded onward. -/
  | topoRx (f : Flue) (fr : FabFrame)
  /-- TOPO_TIMER (R377): At least every 100 ms a node floods a TOPO frame with a new VERSION. -/
  | topoTimer
  /-- TOPO_ENTRY_AGE (R377): A database entry not refreshed for 300 ms is removed. -/
  | topoEntryAge
  /-- SETTLE (R379): After SETTLE_MS without change the node computes levels, routes and tree, becomes RUNNING and increments FGEN. -/
  | settle
  /-- ASSIGN_RX (R378): A received ASSIGN frame gives the named node its ID and is flooded onward. -/
  | assignRx (f : Flue) (fr : FabFrame)
  /-- REDISCOVER (R377): FB_CTL.REDISCOVER restarts the settle count. -/
  | rediscover (m : Master)
  /-- MSG_RX (R383): A MSG frame for a fabric-peer instance is checked as a client send and answered with DLV. -/
  | msgRx (f : Flue) (fr : FabFrame)
  /-- BULKSEG_RX (R383): A BULKSEG frame is written into the peer instance's bulk buffer, or marks the following MSG as failed. -/
  | bulksegRx (f : Flue) (fr : FabFrame)
  /-- DLV_RX (R383): A DLV frame pops the delivered message, schedules a resend on FULL, or records a refusal. -/
  | dlvRx (f : Flue) (fr : FabFrame)
  /-- PEER_RESEND (R383): Without DLV in 1 ms, or 20 µs after FULL, the message is sent again, and popped as PEER_LOST after eight sends. -/
  | peerResend (n : Inst)
  /-- PEER_SEND (R383): The transport takes the head of a fabric-peer instance's outbound queue and sends its BULKSEG and MSG frames. -/
  | peerSend (n : Inst)
  /-- BCAST_GO (R386): FB_BC_CTL.GO on the coordinator sends BCAST down the tree, refused elsewhere. -/
  | bcastGo (m : Master)
  /-- BCAST_RX (R386): A BCAST frame is copied to FB_BC_RX, sets RX_NEW or LOST, and is forwarded to the children. -/
  | bcastRx (f : Flue) (fr : FabFrame)
  /-- ARRIVE (R387): FB_BAR_CTL.ARRIVE marks this node arrived, sending ARRIVE upward once its children have arrived. -/
  | arrive (m : Master)
  /-- ARRIVE_RX (R387): An ARRIVE frame from a child counts towards the node's arrival or the coordinator's release. -/
  | arriveRx (f : Flue) (fr : FabFrame)
  /-- RELEASE_RX (R387): A RELEASE frame sets DONE or ABORTED, advances the barrier number and is forwarded down the tree. -/
  | releaseRx (f : Flue) (fr : FabFrame)
  /-- SNAPSHOT_START (R388): FB_SNAP_CTL.START on the coordinator freezes it for a new epoch, refused elsewhere. -/
  | snapshotStart (m : Master)
  /-- MARKER_RX (R388): The first MARKER of a newer epoch freezes the node, copying tallies and sending MARKER and CLOSE. -/
  | markerRx (f : Flue) (fr : FabFrame)
  /-- CLOSE_RX (R388): A CLOSE frame closes its incoming channel's record, freezing the node first if needed. -/
  | closeRx (f : Flue) (fr : FabFrame)
  /-- CLOSE_TIMEOUT (R388): MARK_TMO after the freeze an unclosed channel is marked timed out. -/
  | closeTimeout
  /-- SNAPSHOT_RECORD_SEND (R388): Once every channel is closed or timed out and its signature completes, the node sends its record as 33 SNAPREC frames. -/
  | snapshotRecordSend
  /-- SNAPREC_RX (R390): The coordinator stores a SNAPREC segment and marks the node's record present when complete. -/
  | snaprecRx (f : Flue) (fr : FabFrame)
  /-- COLLECTION_DEADLINE (R390): When every record has arrived or the collection time passes, the coordinator builds and signs the rack quote. -/
  | collectionDeadline
  /-- QUOTE_READY (R390): The rack quote's signature completes, STATE becomes DONE and QUOTE_READY is set. -/
  | quoteReady
  /-- FRESET (R392): FB_CTL.FRESET on the coordinator sends a tagged RESET frame down the tree. -/
  | freset (m : Master)
  /-- RESET_FRAME_RX (R392): A RESET frame is forwarded, checked and, if accepted, records RSEQ and causes a warm reset. -/
  | resetFrameRx (f : Flue) (fr : FabFrame)
  /-- RELAY_FRAME_RX (R393): A RELAY frame is placed in the relay ring for kindling, or dropped on a full ring or without ACCEPT_RELAY. -/
  | relayFrameRx (f : Flue) (fr : FabFrame)
  /-- RELAY_FRAME_QUEUE (R413): Kindling's advance of FB_RLY_RING.TX_HEAD queues relay frames for sending. -/
  | relayFrameQueue (m : Master) (v : Word)
  /-- SERVE_WRITE (R422): A write to FB_RLY_CTL.SERVE puts a flue into or out of serve mode, a topology change. -/
  | serveWrite (m : Master) (v : Word)
  /-- OS_PROGRAM (R401): GC_OS_CTL with OP PROGRAM queues an own-store page program. -/
  | osProgram (m : Master)
  /-- OS_ERASE_4K (R401): GC_OS_CTL with OP ERASE_4K queues an own-store 4 KiB erase. -/
  | osErase4k (m : Master)
  /-- OS_ERASE_64K (R401): GC_OS_CTL with OP ERASE_64K queues an own-store 64 KiB erase. -/
  | osErase64k (m : Master)
  /-- OWN_STORE_ERASE_ISSUE (R435): An own-store erase issued to the flash suspends every watchdog and armed task set. -/
  | ownStoreEraseIssue
  /-- OS_OPERATION_END (R401): An own-store operation completes, setting DONE and, for an erase, ending the watchdog suspension. -/
  | osOperationEnd (failed : Bool)
  /-- ERASE_MAX_EXPIRY (R401): An erase outstanding for ERASE_MAX ends with ERR 5. -/
  | eraseMaxExpiry
  /-- RECOVERY_STATUS (R420): A recovery STATUS frame returns bytes received and the target slot. -/
  | recoveryStatus (x : RecSrc)
  /-- RECOVERY_PIECE (R421): A recovery PIECE frame is programmed in order, ignored, or refused with SEQ_ERR, LEN_ERR or IMAGE_BAD. -/
  | recoveryPiece (x : RecSrc) (ofs : Nat) (data : List Byte)
  /-- RECOVERY_END (R423): A recovery END, or a complete FL0 image, checks the slot is bootable, writes the boot record and boots it. -/
  | recoveryEnd (x : RecSrc) (total : Nat)
  /-- STOKE (R427): A write to WD_STOKE is judged against the window's token, ending the window or raising a fault. -/
  | stoke (m : Master) (w : Fin 5) (v : Word)
  /-- WINDOW_OPEN (R426): A watchdog's closed phase ends and its open phase begins. -/
  | windowOpen (w : Fin 5)
  /-- WINDOW_EXPIRY (R431): An open phase ending without a correct token expires the watchdog, trapping cores, capturing evidence and starting the hard timer. -/
  | windowExpiry (w : Fin 5)
  /-- WD_ARM (R430): WD_ARM loads the window timing and secret, reseeds the LFSR and starts window 0, or is refused. -/
  | wdArm (m : Master) (w : Fin 5) (v : Word)
  /-- HARD_TIMER_EXPIRY (R431): 1 ms after the first expiry the hard timer causes a warm reset. -/
  | hardTimerExpiry
  /-- TS_ARM (R433): A write to WD_TS_ARM arms task-set slots after the lock. -/
  | tsArm (m : Master) (v : Word)
  /-- CHECKIN (R433): A write to WD_TS_CHECKIN records a task's check-in for the current period. -/
  | checkin (m : Master) (v : Word)
  /-- PERIOD_END (R434): At the end of a task-set period missing or doubled check-ins are recorded and may expire the target watchdog. -/
  | periodEnd (i : Fin 16)
  /-- PAIR_ROLE_TIMER (R440): 1 ms or 10 ms after the lock without a lease, a pair unit becomes burning. -/
  | pairRoleTimer
  /-- PAIR_HELLO_RX (R440): A pair HELLO gives the partner's strap, role, step and digest. -/
  | pairHelloRx (h : PairHello)
  /-- LEASE_TIMER (R441): Every 100 µs the burning unit sends LEASE and toggles LEASE_OUT. -/
  | leaseTimer
  /-- LEASE_RX (R441): A LEASE frame, or a LEASE_IN edge, renews the banked unit's held lease and is answered by LACK. -/
  | leaseRx (no : Option Word)
  /-- LACK_RX (R441): A LACK frame, or a LEASE_IN edge, tells the burning unit its partner is alive. -/
  | lackRx (edge : Bool)
  /-- LACK_LOSS (R441): A burning unit hearing neither LACK nor LEASE_IN for 400 µs sets PARTNER_LOST. -/
  | lackLoss
  /-- LEASE_EXPIRY (R442): With no renewal for 400 µs the banked unit takes over, cutting transactions in progress. -/
  | leaseExpiry (busy : BitVec 32)
  /-- YIELD (R445): PR_CTL.YIELD, or a failing input, makes the burning unit send YIELD and prepare to give up control. -/
  | yield_ (m : Master)
  /-- HANDOVER (R445): At the first cycle with every H_CS_N high, or per channel after HANDOVER_MS, the yielding unit gives up control. -/
  | handover (busy : BitVec 32)
  /-- CLAIM (R447): A preferred banked unit IN_STEP with 10 s clean time sends CLAIM and the burning unit yields. -/
  | claim
  /-- VBLOCK_RX (R446): A verdict block is compared with the unit's own, and a mismatch resolves by self-diagnosis. -/
  | vblockRx (b : VerdictBlock)
  /-- NOTICE_RX (R287): A NOTICE gives the banked unit PMB step outcomes, adaptation changes and PSEQ assignments. -/
  | noticeRx (n : PairNotice)
  /-- STATE_RX (R443): A STATE record is applied by a syncing banked unit. -/
  | stateRx (r : PairState)
  /-- CATCH_UP_PASS (R443): The burning unit reads every manifest area and strict ember for a syncing partner, which then becomes IN_STEP. -/
  | catchUpPass
  /-- PAIR_MSG_SEND (R439): PR_MSG_CTL.SEND sends PR_TX to the partner's single receive slot. -/
  | pairMsgSend (m : Master)
  /-- PAIR_MSG_POP (R439): PR_MSG_CTL.POP removes the message in PR_RX. -/
  | pairMsgPop (m : Master)
  /-- PAIR_MSG_RX (R439): A pair MSG frame fills PR_RX and sets MSG_RX. -/
  | pairMsgRx (ws : List Word)
  /-- TAMPER_EVENT (R454): A tamper event opens or counts in its source's window, raising an alarm at N. -/
  | tamperEvent (src : Fin 8) (det : Nat)
  /-- TAMPER_WINDOW_CLOSE (R454): A source's W ms window closes before N events and its count clears. -/
  | tamperWindowClose (src : Fin 8)
  /-- SOURCE_IDLE (R454): An active source becomes idle after W ms with no event. -/
  | sourceIdle (src : Fin 8)
  /-- HALT_HOLD_EXPIRY (R458): HALT_HOLD ms after a HALT reset began, the device leaves reset. -/
  | haltHoldExpiry
  /-- HOLD_CLEAR (R457): TP_HOLD.CLEAR clears HELD when no HOLD_HOSTS source is active, else sets REJ. -/
  | holdClear (m : Master)
  /-- SOFT_ALARM (R452): TP_CTL.SOFT_ALARM makes a SOFT tamper event. -/
  | softAlarm (m : Master)
  /-- RTC_LOAD (R465): TP_CTL.RTC_LOAD loads the real-time clock and writes an RTC_SET record. -/
  | rtcLoad (m : Master)
  /-- RTC_LO_READ (R465): A read of TP_RTC_LO latches TP_RTC_HI. -/
  | rtcLoRead (m : Master)
  /-- THERM_BIT_PROGRAMMED (R468): A pending thermometer bit finishes programming and PEND falls by 1, saturating at 512 bits. -/
  | thermBitProgrammed
  /-- AO_RESTART (R464): The AO supply returning after passing its retention limit restarts the AO domain at reset values and logs AO_RESTART. -/
  | aoRestart
  /-- IO_BANK_IN_RANGE (R474): An I/O bank supply comes into range, its HRST_N lines are driven low, its other lines take their reset state, and after a cold reset its level is detected into PD_BANK_LVL. -/
  | ioBankInRange (b : Fin 15) (lvl33 : Bool)
  /-- SYMBOL_LOCK_LOSS (R370): A lane of a flue or of the pair link loses symbol lock, the link goes down, a NEIGHBOUR flue falls to DOWN and the topology changes, or a banked unit leaves IN_STEP for SYNCING. -/
  | symbolLockLoss (l : Link)
  /-- FRAME_FORWARD (R379): A VC 0, 1 or 3 frame addressed to another node arrives and is forwarded on its UPHOP or DNHOP with HOPS lowered, or dropped under R374 or R380. -/
  | frameForward (f : Flue) (fr : FabFrame)
  /-- RECOVERY_SEG_RX (R422): In recovery mode a SEG frame of object 0x3FFE arrives on FL0, its bytes are programmed into the target slot, bytes past the total length are discarded, and the next piece is asked for or the image completes. -/
  | recoverySegRx (fr : FabFrame)
  /-- HEALTH_TEST_FAIL (R317): A continuous repetition-count or adaptive-proportion test of the entropy source fails, ES_FAIL is set, output stops and requests end with ENTROPY. -/
  | healthTestFail
  /-- IDLE_GATE (R292): A hash engine, AES engine or the LMS sequencer idle for 10 µs enters GATED. -/
  | idleGate (d : IdleUnit)
  /-- SQ_IO_LEVEL_CHANGE (R281): An SQ_IO input changes level, starting or cancelling the filter count of a WAIT_IN step or of a watched line. -/
  | sqIoLevelChange (l : Fin 96) (v : Bool)
  /-- DIAG_RX (R444): A pair-link DIAG frame gives the partner's PR_DIAG and clean time, used to decide yields and verdict mismatches. -/
  | diagRx (d : PairDiag)
  /-- PAIR_HELLO_DIAG_TIMER (R439): Every 1 ms each pair unit sends HELLO and DIAG over the pair link. -/
  | pairHelloDiagTimer
  /-- TOKEN_CHECK_END (R332): The signature check of a debug-unlock token completes, ending REDEEM with SIG or starting the transition of its PURPOSE. -/
  | tokenCheckEnd
deriving DecidableEq, Repr

end Sys2Proof
end

