-- ==== Sys2Proof/WellFormed.lean ====
section
/-! DEFINITION. When a command's operands are ones its row of the operation table can carry: a flash returns a whole
ember, a frame has a whole number of words, a pair message has 1-16 words. `exec` is defined on every command; these
conditions say which ones a sender can make. -/

namespace Sys2Proof

/-- The bytes of a host transaction's data phase fit the units clocked (R37, R52). -/
def txnOk (t : HostTxn) : Bool := decide (t.data.length ≤ t.units) && decide (t.units ≤ 2 ^ 29)

/-- A portal frame's COUNT is two bytes, and a write burst brings COUNT words (Table 2.10). -/
def portalOk (f : PortalFrame) : Bool := decide (f.count < 65536)

/-- A frame's LEN is a multiple of 4, 0-256 (R372). -/
def frameOk (f : FabFrame) : Bool := decide (f.payload.length ≤ 256) && decide (f.payload.length % 4 = 0)

/-- The operands are ones the row of the operation table can carry. -/
def Instr.wellFormed : Instr → Bool
  | .registerWrite _ _ width _ => decide (width = 8) || decide (width = 16) || decide (width = 32)
  | .rcRead _ _ => true
  | .bcastRead _ _ => true
  | .devRstNAssert _ => true
  | .deviceResetRelease _ => true
  | .tinderStart => true
  | .kindlingBoot => true
  | .coreSupplyLow _ => true
  | .coreSupplyRestored => true
  | .ioBankLow _ _ => true
  | .clockMonitorFault _ => true
  | .read _ t => txnOk t
  | .program _ t => txnOk t
  | .erase _ t => txnOk t
  | .wren _ t => txnOk t
  | .wrdi _ t => txnOk t
  | .rdsr _ t => txnOk t
  | .rdreg _ t => txnOk t
  | .wrreg _ t => txnOk t
  | .sfdp _ t => txnOk t
  | .readId _ t => txnOk t
  | .addr4Enter _ t => txnOk t
  | .addr4Exit _ t => txnOk t
  | .protoSwitch _ t => txnOk t
  | .resetEn _ t => txnOk t
  | .reset _ t => txnOk t
  | .suspend _ t => txnOk t
  | .resume _ t => txnOk t
  | .unknown _ t => txnOk t
  | .truncatedTransaction _ _ t => txnOk t
  | .flashAccessGrant _ => true
  | .fillComplete _ data => decide (data.length = 4096)
  | .writeExecute _ => true
  | .statusPoll _ _ => true
  | .escHoldExpiry _ => true
  | .escRelease _ => true
  | .rgnActWrite _ _ _ => true
  | .substClear _ _ _ => true
  | .logDrain _ => true
  | .portalReadBurst _ f => portalOk f
  | .portalWriteBurst _ f => portalOk f && decide (f.words.length = f.count)
  | .portalReadStatus _ => true
  | .portalFrameError _ _ => true
  | .portalBusyTimeout _ f _ => portalOk f
  | .ownReq _ _ => true
  | .rawOwnershipGrant _ => true
  | .rawStart _ => true
  | .rawAbort _ edges bits => decide (edges ≤ 32768) && decide (bits.length ≤ 8 * edges)
  | .rawTransferEnd _ bits => decide (bits.length ≤ 4096)
  | .anchoring _ _ => true
  | .emberCheck _ x _ => (match x with | some (lv, _) => decide (lv < 11) | none => true)
  | .hashPreempt _ => true
  | .knownAnswerTest _ _ => true
  | .stageCheck _ => true
  | .clistClear _ => true
  | .clinkerHoldClear _ _ => true
  | .bindFloorWrite _ _ => true
  | .scrubStep _ => true
  | .flipReq _ => true
  | .flipCancel _ => true
  | .goldClear _ => true
  | .stageLockSet _ => true
  | .stageLockClr _ => true
  | .flipHoldClear _ _ => true
  | .bsetMapWrite _ _ => true
  | .traceWindowExpiry _ => true
  | .traceJournalWrite _ => true
  | .adaptationPass => true
  | .load _ => true
  | .loadCommit => true
  | .loadReject _ => true
  | .lock _ => true
  | .restructureStart _ => true
  | .restructureCommit => true
  | .restructureHoldClear _ _ => true
  | .advance _ => true
  | .advanceDone _ => true
  | .dependentDrawGrant _ => true
  | .headAged _ => true
  | .trackerParityError _ => true
  | .create _ => true
  | .resetDrain _ => true
  | .resetSquash _ => true
  | .remove _ => true
  | .drainComplete _ => true
  | .drainTimeout _ => true
  | .coreStart _ _ => true
  | .coreInstruction _ _ => true
  | .ownStoreWindowRead _ _ => true
  | .ruInvalidate _ _ => true
  | .ruRootWrite _ _ _ => true
  | .dmaGo _ _ => true
  | .dmaAbort _ _ => true
  | .dmaResume _ _ => true
  | .dmaBeat _ _ => true
  | .dmaAging _ => true
  | .intClaim _ _ _ => true
  | .intComplete _ _ _ => true
  | .mtimecmpMatch _ => true
  | .resetNow _ => true
  | .waitInSettled _ => true
  | .delayExpiry _ => true
  | .stepTimeout _ => true
  | .pmbTransactionEnd _ _ => true
  | .smbRetry _ => true
  | .pmbPollInterval _ => true
  | .restart _ => true
  | .shutdown _ => true
  | .platformFault _ => true
  | .watchRearm _ => true
  | .pfHoldClear _ _ => true
  | .hearthHoldWrite _ _ => true
  | .minHoldExpiry _ => true
  | .smbStart _ => true
  | .smbTransactionEnd _ => true
  | .rootLoad _ => true
  | .zeroise _ => true
  | .rekindle _ => true
  | .derive _ => true
  | .generate _ => true
  | .unwrap _ => true
  | .wrap _ => true
  | .revoke _ => true
  | .replace _ => true
  | .commit _ => true
  | .cancel _ => true
  | .kcv _ => true
  | .hmac _ => true
  | .gcmEnc _ => true
  | .gcmDec _ => true
  | .sign _ => true
  | .alias_ _ => true
  | .pubkey _ => true
  | .kvOpEnd _ => true
  | .invalidationSweep => true
  | .entropyRetest _ => true
  | .leafJournalWrite _ _ => true
  | .lmsTreeGenerated _ => true
  | .toTest _ => true
  | .toProduction _ => true
  | .provision _ => true
  | .redeem _ => true
  | .toEol _ => true
  | .nonce _ => true
  | .lcTransitionEnd _ => true
  | .tapInstruction _ => true
  | .debugAccess _ => true
  | .mbSend _ => true
  | .mbPop _ => true
  | .lockRead _ _ => true
  | .lockWrite _ _ _ => true
  | .tallySnapshotRead _ => true
  | .extend _ => true
  | .tallyExtensionDone _ => true
  | .mctpPacketRx _ pkt => decide (pkt.length ≤ 68)
  | .mctpPacketRead _ => true
  | .i3cCcc _ _ _ _ => true
  | .i3cReplyRead _ => true
  | .i3cReplyTimeout _ => true
  | .getVersion _ => true
  | .getCapabilities _ => true
  | .negotiateAlgorithms _ => true
  | .getDigests _ => true
  | .getCertificate _ => true
  | .challenge _ => true
  | .getMeasurements _ => true
  | .chunkGet _ => true
  | .unsupportedRequest _ => true
  | .spdmResponseReady _ => true
  | .flueSymbolLock _ => true
  | .flueTrained _ _ _ => true
  | .trainingTimeout _ => true
  | .flueRetry _ => true
  | .linkRx _ _ => true
  | .linkAckTimer _ => true
  | .replayTimeout _ => true
  | .badFrameRx _ _ => true
  | .helloRx _ fr => frameOk fr
  | .helloTimer _ => true
  | .helloLoss _ => true
  | .topoRx _ fr => frameOk fr
  | .topoTimer => true
  | .topoEntryAge => true
  | .settle => true
  | .assignRx _ fr => frameOk fr
  | .rediscover _ => true
  | .msgRx _ fr => frameOk fr
  | .bulksegRx _ fr => frameOk fr
  | .dlvRx _ fr => frameOk fr
  | .peerResend _ => true
  | .peerSend _ => true
  | .bcastGo _ => true
  | .bcastRx _ fr => frameOk fr
  | .arrive _ => true
  | .arriveRx _ fr => frameOk fr
  | .releaseRx _ fr => frameOk fr
  | .snapshotStart _ => true
  | .markerRx _ fr => frameOk fr
  | .closeRx _ fr => frameOk fr
  | .closeTimeout => true
  | .snapshotRecordSend => true
  | .snaprecRx _ fr => frameOk fr
  | .collectionDeadline => true
  | .quoteReady => true
  | .freset _ => true
  | .resetFrameRx _ fr => frameOk fr
  | .relayFrameRx _ fr => frameOk fr
  | .relayFrameQueue _ _ => true
  | .serveWrite _ _ => true
  | .osProgram _ => true
  | .osErase4k _ => true
  | .osErase64k _ => true
  | .ownStoreEraseIssue => true
  | .osOperationEnd _ => true
  | .eraseMaxExpiry => true
  | .recoveryStatus _ => true
  | .recoveryPiece _ _ data => decide (data.length < 65536)
  | .recoveryEnd _ _ => true
  | .stoke _ _ _ => true
  | .windowOpen _ => true
  | .windowExpiry _ => true
  | .wdArm _ _ _ => true
  | .hardTimerExpiry => true
  | .tsArm _ _ => true
  | .checkin _ _ => true
  | .periodEnd _ => true
  | .pairRoleTimer => true
  | .pairHelloRx _ => true
  | .leaseTimer => true
  | .leaseRx _ => true
  | .lackRx _ => true
  | .lackLoss => true
  | .leaseExpiry _ => true
  | .yield_ _ => true
  | .handover _ => true
  | .claim => true
  | .vblockRx b => decide (b.no < 2 ^ 32)
  | .noticeRx _ => true
  | .stateRx _ => true
  | .catchUpPass => true
  | .pairMsgSend _ => true
  | .pairMsgPop _ => true
  | .pairMsgRx ws => decide (1 ≤ ws.length) && decide (ws.length ≤ 16)
  | .tamperEvent _ det => decide (det < 65536)
  | .tamperWindowClose _ => true
  | .sourceIdle _ => true
  | .haltHoldExpiry => true
  | .holdClear _ => true
  | .softAlarm _ => true
  | .rtcLoad _ => true
  | .rtcLoRead _ => true
  | .thermBitProgrammed => true
  | .aoRestart => true
  | .ioBankInRange _ _ => true
  | .symbolLockLoss _ => true
  | .frameForward _ fr => frameOk fr
  | .recoverySegRx fr => frameOk fr
  | .healthTestFail => true
  | .idleGate _ => true
  | .sqIoLevelChange _ _ => true
  | .diagRx _ => true
  | .pairHelloDiagTimer => true
  | .tokenCheckEnd => true

end Sys2Proof
end

