-- ==== Sys2Proof/Decode.lean ====
section
/-! DEFINITION. The block has no instruction words: no row of the operation table carries bits, so no word spells a
command. -/

namespace Sys2Proof

/-- The command an `nbits`-bit word spells by the operation table's bits: none, since no row has any. -/
def decodeTableWord (_nbits _w : Nat) : Option Instr := none

end Sys2Proof
end

