-- ==== Sys2Proof/Config.lean ====
section
/-! DEFINITION. What the specification leaves open: one constant without a body for each free value. Nothing in
Lean can evaluate them, so a theorem holds whatever they are. Each is named in the assumption log. -/

namespace Sys2Proof

/-- The n-th 256-bit draw from the entropy source (R317-R319): the specification gives the source, not its bits. -/
opaque Config.entropy : Nat → Digest

/-- Byte `a` of the tinder ROM (512 KiB, R27): its contents are not part of the specification. -/
opaque Config.romByte : Nat → Byte

/-- Byte `k` of the HSS signature that a key's material makes with leaf `q` over a message: the specification names the
scheme but not the generation of its secret chains and randomisers (R357-R361). -/
opaque Config.sigByte : List Byte → Nat → List Byte → Nat → Byte

/-- The bytes of a device public key (60 bytes, by key and generation), derived inside the vault (R361). -/
opaque Config.pubKeyByte : Nat → Nat → Byte

/-- Byte `i` of the tinder ROM's public key `k` (R403): the keys' values are not part of the specification. -/
opaque Config.romKeyByte : Nat → Nat → Byte

/-- Bytes of the flash fitted on OS-port chip select 0 or 1 (R396 requires 32 MiB on 0; the rest is the board designer's). -/
opaque Config.osFlash : Nat → Nat

/-- What a flash drives on a lane the specification gives no value for. -/
opaque Config.freeByte : Nat → Byte

/-- A free 32-bit value, applied to the state's counter of free values. -/
opaque Config.freeWord : Nat → Word

/-- DWORD `n` of a composed SFDP space, outside the bits that Table 2.9 states. -/
opaque Config.sfdpWord : Nat → Word

/-- The TAP's codes of SAMPLE/PRELOAD and EXTEST, and which codes are factory instructions: the specification names the
instructions and not their codes (R334). -/
opaque Config.tapSample : BitVec 5
opaque Config.tapExtest : BitVec 5
opaque Config.tapFactory : BitVec 5 → Bool

end Sys2Proof
end

