-- ==== Sys2Proof/Machine/Bits.lean ====
section
/-! DEFINITION. Bit fields, byte order, byte strings, and the two sparse forms the state uses: association lists with
strictly rising keys, and byte memories in canonical form. -/

namespace Sys2Proof.Machine

/-- Field of `len` bits of a word from bit `lo`, as a number (R2). -/
def bf {n : Nat} (w : BitVec n) (lo len : Nat) : Nat := (w.toNat >>> lo) % 2 ^ len

/-- A register word made of fields, each (lowest bit, value); the fields do not overlap. -/
def pack (fs : List (Nat × Nat)) : Word :=
  BitVec.ofNat 32 (fs.foldl (fun a f => a + f.2 <<< f.1) 0)

/-- 1 for true, as a register bit. -/
def b2n (b : Bool) : Nat := if b then 1 else 0

/-- Set or clear one bit. -/
def putBit {n : Nat} (w : BitVec n) (i : Nat) (v : Bool) : BitVec n :=
  if v then w ||| (1#n <<< i) else w &&& ~~~(1#n <<< i)

/-- Set one bit. -/
def setBit {n : Nat} (w : BitVec n) (i : Nat) : BitVec n := w ||| (1#n <<< i)

/-- Clear one bit. -/
def clrBit {n : Nat} (w : BitVec n) (i : Nat) : BitVec n := w &&& ~~~(1#n <<< i)

/-- A counter that saturates at its top value. -/
def satInc {n : Nat} (x : BitVec n) : BitVec n := if x = BitVec.allOnes n then x else x + 1

/-- A count that saturates at `top`. -/
def satAdd (top x d : Nat) : Nat := min top (x + d)

/-- Ceiling division. -/
def cdiv (a b : Nat) : Nat := (a + b - 1) / b

/-- Big-endian value of a byte string (R3). -/
def beNat (bs : List Byte) : Nat := bs.foldl (fun a b => a * 256 + b.toNat) 0

/-- The `n` bytes of a value, most significant first (R3). -/
def beBytes : Nat → Nat → List Byte
  | 0, _ => []
  | n + 1, v => BitVec.ofNat 8 (v / 256 ^ n) :: beBytes n v

/-- `n` bytes of a value, least significant first (R2). -/
def leBytes : Nat → Nat → List Byte
  | 0, _ => []
  | n + 1, v => BitVec.ofNat 8 v :: leBytes n (v / 256)

/-- Little-endian value of a byte string. -/
def leNat : List Byte → Nat
  | [] => 0
  | b :: bs => b.toNat + 256 * leNat bs

/-- Bytes `ofs` to `ofs + len - 1` of a string, as far as it has them. -/
def slice (l : List Byte) (ofs len : Nat) : List Byte := (l.drop ofs).take len

/-- Byte `i` of a string, 0 past its end. -/
def byteAt (l : List Byte) (i : Nat) : Byte := l.getD i 0

/-- Big-endian fields of a byte string at an offset. -/
def be8 (l : List Byte) (o : Nat) : Nat := (byteAt l o).toNat
def be16 (l : List Byte) (o : Nat) : Nat := beNat (slice l o 2)
def be24 (l : List Byte) (o : Nat) : Nat := beNat (slice l o 3)
def be32 (l : List Byte) (o : Nat) : Nat := beNat (slice l o 4)
def be64 (l : List Byte) (o : Nat) : Nat := beNat (slice l o 8)

/-- A big-endian word. -/
def wordBE (l : List Byte) (o : Nat) : Word := BitVec.ofNat 32 (be32 l o)

/-- The 32 bytes of a digest. -/
def digBytes (d : Digest) : List Byte := beBytes 32 d.toNat

/-- A digest from its 32 bytes. -/
def digOf (l : List Byte) : Digest := BitVec.ofNat 256 (beNat (l.take 32))

/-- Word `i` of a digest as the DIGEST, ROOT and TALLY registers show it: bytes 4i..4i+3, the first in [31:24]. -/
def digWord (d : Digest) (i : Nat) : Word := BitVec.ofNat 32 (d.toNat >>> (32 * (7 - i)))

/-- A digest with word `i` replaced. -/
def digSetWord (d : Digest) (i : Nat) (w : Word) : Digest :=
  let sh := 32 * (7 - i)
  (d &&& ~~~(0xFFFFFFFF#256 <<< sh)) ||| ((w.setWidth 256) <<< sh)

/-- The word with its bytes in the order of a big-endian format. -/
def wordBytes (w : Word) : List Byte := beBytes 4 w.toNat

/-- The four bytes of a 32-bit register or RAM word, least significant first. -/
def wordLE (w : Word) : List Byte := leBytes 4 w.toNat

/-- A byte string of `n` equal bytes. -/
def fillBytes (n : Nat) (b : Byte) : List Byte := List.replicate n b

/-- A byte string padded or cut to `n` bytes. -/
def padTo (n : Nat) (b : Byte) (l : List Byte) : List Byte := (l ++ List.replicate (n - l.length) b).take n

/-- Split a byte string into pieces of `n` bytes; `k` bounds their number. -/
def chunks (n : Nat) : Nat → List Byte → List (List Byte)
  | 0, _ => []
  | k + 1, l => if l = [] then [] else l.take n :: chunks n k (l.drop n)

/-- Smallest index below `n` for which `p` holds. -/
def firstIdx (p : Nat → Bool) : Nat → Nat → Option Nat
  | _, 0 => none
  | i, k + 1 => if p i then some i else firstIdx p (i + 1) k

/-- The values of 0..n-1 for which `p` holds. -/
def idxs (p : Nat → Bool) (n : Nat) : List Nat := (List.range n).filter p

/-! Association lists with strictly rising keys. -/

/-- The value at a key. -/
def aget {β : Type} (l : List (Nat × β)) (k : Nat) : Option β :=
  match l with
  | [] => none
  | (k', v) :: t => if k' = k then some v else if k < k' then none else aget t k

/-- Put a value at a key, keeping the keys strictly rising. -/
def aput {β : Type} (l : List (Nat × β)) (k : Nat) (v : β) : List (Nat × β) :=
  match l with
  | [] => [(k, v)]
  | (k', v') :: t =>
    if k < k' then (k, v) :: (k', v') :: t
    else if k = k' then (k, v) :: t
    else (k', v') :: aput t k v

/-- Remove a key. -/
def adel {β : Type} (l : List (Nat × β)) (k : Nat) : List (Nat × β) := l.filter (fun e => e.1 ≠ k)

/-- The keys rise strictly. -/
def arising {β : Type} : List (Nat × β) → Bool
  | [] => true
  | [_] => true
  | a :: b :: t => decide (a.1 < b.1) && arising (b :: t)

/-! Byte memories: cells by rising address, none equal to what an unlisted address reads as. -/

/-- Read one byte; `d` is what an unlisted address reads as.
Log entry 8 (DESIGN CHOICE). -/
def memGet (d : Byte) (m : List Host.Cell) (a : Nat) : Byte := (aget m a).getD d

/-- Write one byte, keeping the canonical form. -/
def memSet (d : Byte) (m : List Host.Cell) (a : Nat) (b : Byte) : List Host.Cell :=
  if b = d then adel m a else aput m a b

/-- Read `n` bytes from `a` up. -/
def memRead (d : Byte) (m : List Host.Cell) (a : Nat) : Nat → List Byte
  | 0 => []
  | n + 1 => memGet d m a :: memRead d m (a + 1) n

/-- Write a byte string from `a` up. -/
def memWrite (d : Byte) (m : List Host.Cell) (a : Nat) : List Byte → List Host.Cell
  | [] => m
  | b :: bs => memWrite d (memSet d m a b) (a + 1) bs

/-- Remove every listed cell of `a .. a + n - 1`, so that they read as an unlisted address does. -/
def memErase (m : List Host.Cell) (a n : Nat) : List Host.Cell := m.filter (fun e => e.1 < a || a + n ≤ e.1)

/-- Program bits: a programmed flash byte holds the AND of old and new. -/
def memAnd (d : Byte) (m : List Host.Cell) (a : Nat) : List Byte → List Host.Cell
  | [] => m
  | b :: bs => memAnd d (memSet d m a (memGet d m a &&& b)) (a + 1) bs

/-- The canonical form of a byte memory.
Log entry 8 (DESIGN CHOICE). -/
def memWf (d : Byte) (m : List Host.Cell) : Bool := arising m && m.all (fun e => e.2 ≠ d)

end Sys2Proof.Machine
end

