-- ==== Sys2Proof/Machine/Aes.lean ====
section
/-! DEFINITION. AES-256 and its Galois counter mode as SP 800-38D defines them (R306, R307, R411). -/

namespace Sys2Proof.Machine

/-- The S-box, entry 0 most significant, in four parts. -/
def sboxPart0 : Nat := 0x637c777bf26b6fc53001672bfed7ab76ca82c97dfa5947f0add4a2af9ca472c0b7fd9326363ff7cc34a5e5f171d8311504c723c31896059a071280e2eb27b275
def sboxPart1 : Nat := 0x09832c1a1b6e5aa0523bd6b329e32f8453d100ed20fcb15b6acbbe394a4c58cfd0efaafb434d338545f9027f503c9fa851a3408f929d38f5bcb6da2110fff3d2
def sboxPart2 : Nat := 0xcd0c13ec5f974417c4a77e3d645d197360814fdc222a908846eeb814de5e0bdbe0323a0a4906245cc2d3ac629195e479e7c8376d8dd54ea96c56f4ea657aae08
def sboxPart3 : Nat := 0xba78252e1ca6b4c6e8dd741f4bbd8b8a703eb5664803f60e613557b986c11d9ee1f8981169d98e949b1e87e9ce5528df8ca1890dbfe6426841992d0fb054bb16

/-- S-box of a byte. -/
def sbox (b : Byte) : Byte :=
  let i := b.toNat
  let p := if i < 64 then sboxPart0 else if i < 128 then sboxPart1 else if i < 192 then sboxPart2 else sboxPart3
  BitVec.ofNat 8 (p >>> (8 * (63 - i % 64)))

/-- Multiply by x in the field of AES. -/
def xtime (b : Byte) : Byte := (b <<< 1) ^^^ (if b.getLsbD 7 then 0x1B#8 else 0)

/-- Exclusive-or of byte strings, as long as the shorter. -/
def xorBytes (a b : List Byte) : List Byte := List.zipWith (· ^^^ ·) a b

/-- The next word of the key schedule from the eight before it, newest first. -/
def aesNextWord (i : Nat) (ws : List (List Byte)) : List Byte :=
  let last := ws.headD []
  let t :=
    if i % 8 = 0 then
      let r := (last.drop 1 ++ last.take 1).map sbox
      xorBytes r [BitVec.ofNat 8 (2 ^ (i / 8 - 1)), 0, 0, 0]
    else if i % 8 = 4 then last.map sbox else last
  xorBytes t (ws.getD 7 [])

/-- Extend a key schedule, newest word first, by `n` words from word `i`. -/
def aesExtend : Nat → Nat → List (List Byte) → List (List Byte)
  | 0, _, ws => ws
  | n + 1, i, ws => aesExtend n (i + 1) (aesNextWord i ws :: ws)

/-- The fifteen round keys of a 32-byte key. -/
def aesKeys (key : List Byte) : List (List Byte) :=
  chunks 16 15 ((aesExtend 52 8 (chunks 4 8 key).reverse).reverse.flatten)

/-- SubBytes and ShiftRows on a state held column by column. -/
def aesSubShift (x : List Byte) : List Byte := (List.range 16).map (fun i => sbox (byteAt x ((5 * i) % 16)))

/-- MixColumns on one column. -/
def aesMixCol (c : List Byte) : List Byte :=
  (List.range 4).map (fun i =>
    let a := byteAt c i
    let b := byteAt c ((i + 1) % 4)
    xtime a ^^^ (xtime b ^^^ b) ^^^ byteAt c ((i + 2) % 4) ^^^ byteAt c ((i + 3) % 4))

/-- MixColumns. -/
def aesMix (x : List Byte) : List Byte := ((chunks 4 4 x).map aesMixCol).flatten

/-- The rounds after the first key addition. -/
def aesRounds : List (List Byte) → List Byte → List Byte
  | [], x => x
  | [k], x => xorBytes (aesSubShift x) k
  | k :: ks, x => aesRounds ks (xorBytes (aesMix (aesSubShift x)) k)

/-- AES-256 of one block under its round keys. -/
def aesBlock (ks : List (List Byte)) (x : List Byte) : List Byte :=
  aesRounds (ks.drop 1) (xorBytes x (ks.headD []))

/-- One step of the multiplication in GF(2^128) of GCM, bit 127 first. -/
def gfStep (x : BitVec 128) (zv : BitVec 128 × BitVec 128) (i : Nat) : BitVec 128 × BitVec 128 :=
  (if x.getLsbD (127 - i) then zv.1 ^^^ zv.2 else zv.1,
   (zv.2 >>> 1) ^^^ (if zv.2.getLsbD 0 then 0xE1000000000000000000000000000000#128 else 0))

/-- Multiplication in GF(2^128) of GCM. -/
def gfMul (x y : BitVec 128) : BitVec 128 := ((List.range 128).foldl (gfStep x) (0, y)).1

/-- A block of at most 16 bytes, zero-padded, as a field element. -/
def gfOf (b : List Byte) : BitVec 128 := BitVec.ofNat 128 (beNat (padTo 16 0 b))

/-- GHASH over a list of blocks. -/
def ghash (h : BitVec 128) (bs : List (List Byte)) : BitVec 128 := bs.foldl (fun y b => gfMul (y ^^^ gfOf b) h) 0

/-- Blocks of a byte string. -/
def blocks16 (l : List Byte) : List (List Byte) := chunks 16 (l.length / 16 + 1) l

/-- Counter-mode key stream for `n` blocks from counter value `i`. -/
def gcmStream (ks : List (List Byte)) (nonce : List Byte) : Nat → Nat → List Byte
  | _, 0 => []
  | i, n + 1 => aesBlock ks (nonce ++ beBytes 4 i) ++ gcmStream ks nonce (i + 1) n

/-- Encrypt or decrypt data under a 96-bit nonce. -/
def gcmCrypt (key nonce data : List Byte) : List Byte :=
  xorBytes data (gcmStream (aesKeys key) nonce 2 (cdiv data.length 16))

/-- The 16-byte tag over AAD and ciphertext. -/
def gcmTag (key nonce aad ct : List Byte) : List Byte :=
  let ks := aesKeys key
  let h := gfOf (aesBlock ks (fillBytes 16 0))
  let lens := beBytes 8 (8 * aad.length) ++ beBytes 8 (8 * ct.length)
  let g := ghash h (blocks16 aad ++ blocks16 ct ++ [lens])
  xorBytes (beBytes 16 g.toNat) (aesBlock ks (nonce ++ [0, 0, 0, 1]))

end Sys2Proof.Machine
end

