-- ==== Sys2Proof/Machine/Sha256.lean ====
section
/-! DEFINITION. SHA-256 (FIPS 180-4), HMAC-SHA-256 and HKDF-Expand (RFC 5869): the hashing that chapters 04, 06, 10,
12, 13 and 14 name by their standards (Table 0.5). -/

namespace Sys2Proof.Machine

/-- The working variables of one SHA-256 computation. -/
structure ShaSt where
  a : Word
  b : Word
  c : Word
  d : Word
  e : Word
  f : Word
  g : Word
  h : Word
deriving DecidableEq, Repr

def shaK0 : List Word := [
  0x428a2f98#32, 0x71374491#32, 0xb5c0fbcf#32, 0xe9b5dba5#32, 0x3956c25b#32, 0x59f111f1#32, 0x923f82a4#32, 0xab1c5ed5#32,
  0xd807aa98#32, 0x12835b01#32, 0x243185be#32, 0x550c7dc3#32, 0x72be5d74#32, 0x80deb1fe#32, 0x9bdc06a7#32, 0xc19bf174#32,
  0xe49b69c1#32, 0xefbe4786#32, 0x0fc19dc6#32, 0x240ca1cc#32, 0x2de92c6f#32, 0x4a7484aa#32, 0x5cb0a9dc#32, 0x76f988da#32,
  0x983e5152#32, 0xa831c66d#32, 0xb00327c8#32, 0xbf597fc7#32, 0xc6e00bf3#32, 0xd5a79147#32, 0x06ca6351#32, 0x14292967#32]

def shaK1 : List Word := [
  0x27b70a85#32, 0x2e1b2138#32, 0x4d2c6dfc#32, 0x53380d13#32, 0x650a7354#32, 0x766a0abb#32, 0x81c2c92e#32, 0x92722c85#32,
  0xa2bfe8a1#32, 0xa81a664b#32, 0xc24b8b70#32, 0xc76c51a3#32, 0xd192e819#32, 0xd6990624#32, 0xf40e3585#32, 0x106aa070#32,
  0x19a4c116#32, 0x1e376c08#32, 0x2748774c#32, 0x34b0bcb5#32, 0x391c0cb3#32, 0x4ed8aa4a#32, 0x5b9cca4f#32, 0x682e6ff3#32,
  0x748f82ee#32, 0x78a5636f#32, 0x84c87814#32, 0x8cc70208#32, 0x90befffa#32, 0xa4506ceb#32, 0xbef9a3f7#32, 0xc67178f2#32]

/-- The initial hash value. -/
def shaInit : ShaSt :=
  { a := 0x6a09e667#32, b := 0xbb67ae85#32, c := 0x3c6ef372#32, d := 0xa54ff53a#32,
    e := 0x510e527f#32, f := 0x9b05688c#32, g := 0x1f83d9ab#32, h := 0x5be0cd19#32 }

/-- One round with schedule word `w` and constant `k`. -/
def shaRound (s : ShaSt) (k w : Word) : ShaSt :=
  let s1 := s.e.rotateRight 6 ^^^ s.e.rotateRight 11 ^^^ s.e.rotateRight 25
  let ch := (s.e &&& s.f) ^^^ (~~~s.e &&& s.g)
  let t1 := s.h + s1 + ch + k + w
  let s0 := s.a.rotateRight 2 ^^^ s.a.rotateRight 13 ^^^ s.a.rotateRight 22
  let maj := (s.a &&& s.b) ^^^ (s.a &&& s.c) ^^^ (s.b &&& s.c)
  { a := t1 + (s0 + maj), b := s.a, c := s.b, d := s.c, e := s.d + t1, f := s.e, g := s.f, h := s.g }

/-- The schedule word 16 places on from a window of 16 words. -/
def shaNext (w : List Word) : Word :=
  let x := w.getD 1 0
  let y := w.getD 14 0
  let s0 := x.rotateRight 7 ^^^ x.rotateRight 18 ^^^ (x >>> 3)
  let s1 := y.rotateRight 17 ^^^ y.rotateRight 19 ^^^ (y >>> 10)
  w.getD 0 0 + s0 + w.getD 9 0 + s1

/-- The rounds of a list of constants over a rolling window of the schedule. -/
def shaRounds : List Word → List Word → ShaSt → ShaSt
  | [], _, s => s
  | k :: ks, w, s => shaRounds ks (w.tail ++ [shaNext w]) (shaRound s k (w.getD 0 0))

/-- Compress one 64-byte block (R100). -/
def shaBlock (s : ShaSt) (blk : List Byte) : ShaSt :=
  let w := (List.range 16).map (fun i => wordBE blk (4 * i))
  let t := shaRounds (shaK0 ++ shaK1) w s
  { a := s.a + t.a, b := s.b + t.b, c := s.c + t.c, d := s.d + t.d,
    e := s.e + t.e, f := s.f + t.f, g := s.g + t.g, h := s.h + t.h }

/-- The message with its padding: a 1 bit, zeros, and the bit length in 8 bytes. -/
def shaPad (m : List Byte) : List Byte :=
  let n := m.length
  m ++ [0x80#8] ++ List.replicate ((119 - n % 64) % 64) 0 ++ beBytes 8 (8 * n)

/-- Blocks that a message of `n` bytes costs (R100). -/
def shaCost (n : Nat) : Nat := (n + 9 + 63) / 64

/-- SHA-256 of a byte string. -/
def sha256 (m : List Byte) : Digest :=
  let p := shaPad m
  let s := (chunks 64 (p.length / 64) p).foldl shaBlock shaInit
  s.a ++ s.b ++ s.c ++ s.d ++ s.e ++ s.f ++ s.g ++ s.h

/-- HMAC-SHA-256 of a message under a 32-byte key. -/
def hmac (key : Digest) (m : List Byte) : Digest :=
  let k := digBytes key ++ List.replicate 32 0
  sha256 (k.map (· ^^^ 0x5c#8) ++ digBytes (sha256 (k.map (· ^^^ 0x36#8) ++ m)))

/-- HKDF-Expand to 32 bytes: one block, T(1) = HMAC(PRK, info ‖ 0x01). -/
def hkdfExpand (prk : Digest) (info : List Byte) : Digest := hmac prk (info ++ [1#8])

/-- HKDF-Extract. -/
def hkdfExtract (salt : Digest) (ikm : List Byte) : Digest := hmac salt ikm

end Sys2Proof.Machine
end

