-- ==== Sys2Proof/Machine/StateImage.lean ====
section
/-! DEFINITION. The tables a structure image gives the device (chapter 06), as plain data with their values before any
image is loaded. -/

namespace Sys2Proof.Machine

/-- Flash parameters of one chip select (Table 6.5). -/
structure FlashParam where
  present : Bool := false
  fmode : Nat := 0
  faddr : Nat := 0
  extInv : Bool := false
  page512 : Bool := false
  rdOpc : Byte := 0
  rdWait : Nat := 0
  rdMode : Nat := 0
  ppOpc : Byte := 0
  se4Opc : Byte := 0
  be64Opc : Byte := 0
  rdsrOpc : Byte := 0
  wrenOpc : Byte := 0
  wipMask : Byte := 0
  sizeLog2 : Nat := 0
deriving DecidableEq, Repr

/-- A port profile (R36, Table 6.6). -/
structure Profile where
  /-- 0 1S, 1 4S, 2 8S, 3 8D. -/
  proto : Nat := 0
  addr4 : Bool := false
  extInv : Bool := false
  page512 : Bool := false
  /-- HCLK_MAX in units of 100 kHz. -/
  hclk : Nat := 0
  sfdpMajor : Nat := 0
  sfdpMinor : Nat := 0
  /-- The ID string, ID_LEN bytes (R40). -/
  id : List Byte := []
  regImg : Vector Byte 8 := Vector.replicate 8 0
  regWr : Vector Byte 8 := Vector.replicate 8 0
  tppTyp : Nat := 0
  tse4Typ : Nat := 0
  tse64Typ : Nat := 0
  tmaxMul : Nat := 0
  /-- The opcode table, in the layout of Table 2.2. -/
  opc : Vector Word 256 := Vector.replicate 256 0
deriving DecidableEq, Repr

/-- A segment of a spliced virtual flash (R41, R183), in bytes. -/
structure Segment where
  vbase : Nat
  size : Nat
  fbase : Nat
  fp : Ch
  cs : Bool
deriving DecidableEq, Repr

/-- One bank of a bank set (R183). -/
structure Bank where
  fbase : Nat
  fp : Ch
  cs : Bool
deriving DecidableEq, Repr

/-- A bank set (R148, R183). -/
structure BankSet where
  vbase : Nat
  size : Nat
  /-- INIT_ACTIVE: false A, true B. -/
  initB : Bool
  initGold : Bool
  a : Bank
  b : Bank
  g : Option Bank
deriving DecidableEq, Repr

/-- A region descriptor: its four register words (R184). -/
structure Rgn where
  base : Word := 0
  limit : Word := 0
  act : Word := 0xFF000000#32
  aux : Word := 0x0000000F#32
deriving DecidableEq, Repr

/-- The adaptation limits of a channel (Tables 5.2 and 6.7). -/
structure Adapt where
  setOfs : Nat := 0
  onQuota : Bool := false
  onDepth : Bool := false
  onClock : Bool := false
  depthMin : Nat := 0
  depthInit : Nat := 0
  depthMax : Nat := 0
  siDown : Nat := 0
  upPasses : Nat := 0
  traceWindow : Nat := 0
  quotaMin : Nat := 0
  quotaMax : Nat := 0
  quotaInit : Nat := 0
  traceQuota : Nat := 0
  traceLimit : Nat := 0
  traceLead : Nat := 0
  divMin : Nat := 0
  divMax : Nat := 0
  divStep : Nat := 0
deriving DecidableEq, Repr

/-- All of one channel's structure (the CHANNEL, PROFILE, SEGMENTS, BANKSETS, DESCRIPTORS and ADAPT sections). -/
structure ChanCfg where
  /-- A CHANNEL section is present. -/
  hasChannel : Bool := false
  grctl : Word := 0x000000FF#32
  provSlots : Nat := 0
  pairCutReboot : Bool := false
  css : Nat := 0
  csh : Nat := 0
  csgap : Nat := 0
  /-- FP_DIV; 160 before a load (CH_FP_CLK). -/
  fpDiv : Nat := 160
  /-- DIV_MIN as CH_FP_CLK shows it. -/
  divMin : Nat := 160
  cs0 : FlashParam := {}
  cs1 : FlashParam := {}
  rst : Profile := {}
  alt : Option Profile := none
  segs : List Segment := []
  bsets : List BankSet := []
  desc : Vector Rgn 64 := Vector.replicate 64 {}
  adapt : Adapt := {}
  /-- The composed SFDP space (R55). -/
  sfdp : List Byte := []
  /-- The bytes of the segment, bank-set and descriptor sections, headers included (R161). -/
  sections : List Byte := []
deriving DecidableEq, Repr

/-- A manifest binding (Tables 4.1 and 6.9). -/
structure Binding where
  bind : Nat
  ch : Ch
  anchor : Fin 128
  tally : Fin 64
  regionId : Nat
  minVersion : Nat
  vbase : Nat
  blocks : Nat
  manBase : Nat
  manPages : Nat
  scrubPeriod : Nat
  provPin : Bool
deriving DecidableEq, Repr

/-- A step record of the SEQUENCE section (Table 9.2). -/
structure Step where
  op : Nat
  shutdownGraph : Bool
  watch : Bool
  onFailContinue : Bool
  pfAct : Nat
  deps : List Nat
  p0 : Nat
  p1 : Nat
  p2 : Nat
  /-- TIME, in microseconds. -/
  time : Nat
deriving DecidableEq, Repr

/-- One SQ_IO line record (Table 9.1). -/
structure LineCfg where
  /-- 0 input, 1 push-pull output, 2 open-drain output. -/
  dir : Nat := 0
  init : Bool := false
  sw : Bool := false
deriving DecidableEq, Repr

/-- One HRST_N host record (Table 9.1). -/
structure HostCfg where
  ch : Option Ch := none
  minHold : Nat := 0
deriving DecidableEq, Repr

/-- The SEQUENCE section (R270-R276). -/
structure SeqCfg where
  /-- SMB_SPEED per port. -/
  smbSpeed : Vector Nat 4 := Vector.replicate 4 0
  pollUs : Nat := 0
  lines : Vector LineCfg 96 := Vector.replicate 96 {}
  hosts : Vector HostCfg 32 := Vector.replicate 32 {}
  steps : List Step := []
deriving DecidableEq, Repr

/-- A pool-class record (Table 7.7). -/
structure PoolClass where
  cap : Nat := 0
  hashW : Nat := 0
  kvW : Nat := 0
  osW : Nat := 0
  sign : Bool := false
deriving DecidableEq, Repr

/-- An instance record (Table 7.8). -/
structure InstCfg where
  transport : Nat := 0
  addr : Nat := 0
  pool : Fin 8 := 0
  static : Bool := false
deriving DecidableEq, Repr

/-- The ARBITRATION section (Tables 7.9 and 7.10); the values before the lock are those of R232. -/
structure ArbCfg where
  ageMs : Nat := 40
  portAgeMs : Nat := 100
  osAgeMs : Nat := 100
  devFloor : Nat := 0
  devHashW : Nat := 1
  devOsW : Nat := 1
  /-- (POOL_CAP, HASH_W, PORT_W) per channel. -/
  chs : Vector (Nat × Nat × Nat) 32 := Vector.replicate 32 (0, 1, 1)
deriving DecidableEq, Repr

end Sys2Proof.Machine
end

