-- ==== Sys2Proof/Machine/StateChan.lean ====
section
/-! DEFINITION. The run-time state of the interposer ports, the grate, the ember cache and the verification engine
(chapters 02-05). -/

namespace Sys2Proof.Machine

/-- Which physical bank serves or is read: A (also the segment's own mapping where no bank set covers it), B or the
golden bank (R150). -/
inductive BankId where
  | a | b | g
deriving DecidableEq, Repr

/-- The owner on whose behalf a billet is drawn (R205). -/
inductive Owner where
  | ch (c : Ch)
  | inst (i : Inst)
  | hearth
deriving DecidableEq, Repr

/-- Why an ember is being read from a flash. -/
inductive FillWhy where
  | demand | prov | strict | pre | follow | seq | refill | provPin
deriving DecidableEq, Repr

/-- An ember as the cache and the verification engine name it: the virtual ember of a channel in one bank (R138). -/
structure EmberId where
  ch : Ch
  fp : Ch
  cs : Bool
  /-- Flash ember number: flash address bits [31:12]. -/
  fen : Nat
  /-- Virtual ember number. -/
  vem : Nat
  /-- Binding, 255 for none. -/
  bind : Nat
  bank : BankId
deriving DecidableEq, Repr

/-- A unit of work that reads or writes a flash-side port, or is checked by the hash bank (R23). -/
inductive Work where
  /-- An ember fill into frame `frame`. -/
  | fill (id : EmberId) (why : FillWhy) (frame : Nat)
  /-- A check of an ember held in a frame, or in the unit's own buffer where the frame was purged meanwhile (R95, R153); `first` is
  the wrong digest of the first check (R112). -/
  | check (id : EmberId) (why : FillWhy) (frame : Option Nat) (first : Option Digest)
  /-- A provisional-completion billet that its slot holds while it reads nothing: the data came by another fill, or are
  complete (R211). -/
  | slot (id : EmberId)
  /-- Anchoring of a bank; `reanchor` under R113, `stage` as part of the pre-flip check (R129). -/
  | anchor (bind : Nat) (bank : BankId) (reanchor stage : Bool)
  /-- Pre-flip check of object `next` of the inactive bank (R129). -/
  | stage (bind : Nat) (bank : BankId) (next : Nat) (first : Option Digest)
  /-- A flash-side read on behalf of the unit `parent`, which takes the data: a node page, a page of a manifest area, an object of
  a pre-flip check, a reread or a refetch (R109, R112, R113, R129). -/
  | readFor (parent : Nat) (id : EmberId)
  /-- Scrub of object `next` of a bank, which stands at `id` in its flash (R130). -/
  | scrub (bind : Nat) (bank : BankId) (next : Nat) (id : EmberId) (first : Option Digest)
  /-- Loading of the leaf digests of one level-1 node page for provisional embers (R114). -/
  | leaf (bind : Nat) (bank : BankId) (page : Nat)
  /-- Execution of the channel's committed write (R91). -/
  | write (c : Ch)
  /-- A tally extension (R354). -/
  | tally (t : Fin 64) (d : Digest)
  /-- A key-vault operation of a core (R305). -/
  | vault (c : Core)
  /-- A device signature for instance `n`, or 64 for the device itself (R361). -/
  | sign (n : Nat)
  /-- A job-DMA channel (R248). -/
  | dma (k : Fin 16)
  /-- A trace-journal write (R159). -/
  | journal (c : Ch)
  /-- A log drain (R219). -/
  | drain
  /-- An own-store operation of the hearth (R401). -/
  | osOp
  /-- An adaptation pass (R166). -/
  | adapt
  /-- Generation of an LMS tree (R360). -/
  | tree (j : Fin 2)
  /-- The known-answer test of an engine: 0-11 a hash engine, 12 and 13 an AES engine (R118). -/
  | kat (e : Fin 14)
  /-- The check of the structure image's signature (R177, R190). -/
  | image
  /-- The check of a debug-unlock token's signature (R332). -/
  | token
  /-- A mailbox message transfer or a fabric frame reception. -/
  | msg (i : Inst)
deriving DecidableEq, Repr

/-- FREE entries of the tracker are not listed; a listed one is in one of these states (R205). -/
inductive BilletSt where
  | waiting | running | preempted
deriving DecidableEq, Repr

/-- Where a billet was drawn from (R205, R207). -/
inductive BilletSrc where
  | reservation | floor | pool
deriving DecidableEq, Repr

/-- A tracker entry in use (R205). -/
structure Billet where
  st : BilletSt
  cls : BilletClass
  owner : Owner
  src : BilletSrc
  /-- The parent's entry number, for a dependent (R206). -/
  parent : Option Nat
  /-- The core cycle in which it was drawn. -/
  drawn : Nat
  work : Work
  /-- Context: bytes an interrupted flash-side access has taken in, its resume point (R49). -/
  resume : Nat := 0
  /-- Context: blocks a pre-empted hash job has behind it, its length count (R117). -/
  blocks : Nat := 0
  /-- What the unit has read into SRAM for its own checking: the object, and the pages of the manifest area, in the order
  read (R101, R108, R109). -/
  buf : List Byte := []
  pages : List (List Byte) := []
  /-- How far a check has come: 0 its object, 1 the walker reads node pages, 2 the pages are hashed, 3 it waits for its bank to be
  anchored. For an anchoring: 0 reading, 1 the embers below the node pages and the signature, 2 the top page. -/
  phase : Nat := 0
deriving DecidableEq, Repr

/-- A dependent draw waiting in the tracker's queue for its class (R212). -/
structure WaitingDraw where
  parent : Nat
  cls : BilletClass
  owner : Owner
  work : Work
deriving DecidableEq, Repr

/-- An entry of one of the queues an arbiter serves (R215): `q` names the queue, `cost` is in the arbiter's unit. -/
structure QItem where
  id : Nat
  q : Nat
  cost : Nat
  /-- The cycle in which it entered its queue. -/
  enq : Nat
deriving DecidableEq, Repr

/-- The memory of an arbiter under R215: ring position, deficits by queue, and the aged heads in order, each with the cycle
in which it joined them. -/
structure Arb where
  pos : Nat := 0
  defs : List (Nat × Nat) := []
  items : List QItem := []
  aged : List (Nat × Nat) := []
deriving DecidableEq, Repr

/-- A log ring (R96, R136, R174, R295): positions, records by ring index, SEQ, reservations and losses. -/
structure LogRing where
  head : Nat := 0
  tail : Nat := 0
  recs : List (Nat × BitVec 128) := []
  /-- The cycles in which the records not yet drained were written, oldest first (R219). -/
  times : List Nat := []
  seq : Nat := 0
  reserved : Nat := 0
  lost : Nat := 0
  rdidx : Nat := 0
deriving DecidableEq, Repr

/-- Kinds of committed host write (R89, R80). -/
inductive WriteKind where
  /-- A program: each byte with its flash address, in the order sent, wrapped inside its page (R89). -/
  | prog (cells : List (Nat × Byte))
  | erase4
  | erase64
deriving DecidableEq, Repr

/-- How far a committed write has come (R91). -/
inductive WriteSt where
  /-- No fill billet yet: the channel's single pending write. -/
  | pending
  /-- Queued for its port. -/
  | queued
  /-- Issued; the flash was last asked at the cycle given, or the operation ended then. -/
  | polling (since : Nat)
deriving DecidableEq, Repr

/-- A committed ALLOW or STAGE write (R91). -/
structure PendWrite where
  fp : Ch
  cs : Bool
  /-- Flash byte address. -/
  addr : Nat
  kind : WriteKind
  staged : Bool
  st : WriteSt
  billet : Option Nat
deriving DecidableEq, Repr

/-- Run-time state of a bank set (R150-R156, EC_BSET_MAP). -/
structure BsetRt where
  activeB : Bool := false
  goldSel : Bool := false
  flipPend : Bool := false
  gclrPend : Bool := false
  stageLock : Bool := false
  reqRej : Bool := false
  flipFail : Bool := false
deriving DecidableEq, Repr

/-- Strict descriptor states (Table 4.7); `none` for a descriptor that is not strict. -/
inductive StrictSt where
  | none | pending | running | passed | failed
deriving DecidableEq, Repr

/-- Run-time state of one descriptor's strict check: the virtual embers passed (or listed under LOG) so far. -/
structure StrictRt where
  st : StrictSt := .none
  done : List Nat := []
deriving DecidableEq, Repr

/-- The states of a provisional slot (R123). -/
inductive SlotSt where
  | released | completing | queued | hashing
deriving DecidableEq, Repr

/-- An open provisional slot (R122, R123). -/
structure ProvSlot where
  id : EmberId
  st : SlotSt
  /-- Cycle of the first provisional release. -/
  opened : Nat
  desc : Fin 64
  billet : Nat
deriving DecidableEq, Repr

/-- Whether the channel has a valid boot trace (R161). -/
inductive TraceValid where
  | none | undecided | valid
deriving DecidableEq, Repr

/-- An entry of a boot trace (Table 5.1). -/
structure TraceEnt where
  vem : Nat
  miss : Bool
  seqn : Bool
  gap : Nat
deriving DecidableEq, Repr

/-- Boot-trace learning state of a channel (R158-R163). -/
structure Trace where
  recording : Bool := false
  entries : List TraceEnt := []
  /-- Cycle of the release that started the recording, and of the last entry. -/
  startAt : Nat := 0
  lastAt : Nat := 0
  /-- Cycle in which the recording ended (SPAN). -/
  endAt : Nat := 0
  /-- How the recording ended: 0 not, 1 count, 2 window, 3 host reset. -/
  ended : Nat := 0
  /-- Traces that ended with at least 1,024 entries and wait to be sealed and written: each journal up to its SEAL, as it stood
  when its recording ended (R159, R160). -/
  kept : List (List Byte) := []
  valid : TraceValid := .none
  /-- Entries of the journal in force. -/
  journal : List Nat := []
  /-- NEED of the journal in force (R164). -/
  need : Nat := 0
  /-- STRUCT of the journal awaiting its check. -/
  structD : Digest := 0
  newest : Nat := 0
  preIdx : Nat := 0
  preCnt : Nat := 0
  preDone : Bool := false
  follow : Bool := false
  cursor : Nat := 0
  unmatched : Nat := 0
deriving DecidableEq, Repr

/-- Raw transfer state of a channel's flash-side port (CH_RAW_CTL, CH_RAW_LEN, CH_RAW_BUF). -/
structure Raw where
  own : Bool := false
  ownReq : Bool := false
  lanes : BitVec 2 := 0
  ddr : Bool := false
  cs : Bool := false
  holdCs : Bool := false
  busy : Bool := false
  done : Bool := false
  err : Bool := false
  errcode : Nat := 0
  len : BitVec 12 := 0
  out : BitVec 13 := 0
  buf : Vector Word 128 := Vector.replicate 128 0
  /-- The chip select stands asserted after a transfer with HOLD_CS (R61). -/
  held : Bool := false
  /-- Edges clocked in the transfer in progress or the last one (R61), and the bits driven. -/
  edges : Nat := 0
  driven : List Bool := []
deriving DecidableEq, Repr

/-- A change of the port's mode that waits for the next fall of H_CS_N (R38). -/
inductive ModeOp where
  | addr4 (on : Bool)
  | proto
  | reset
deriving DecidableEq, Repr

/-- Run-time state of one channel.
Log entry 4 (DESIGN CHOICE). -/
structure Chan where
  cfg : ChanCfg := {}
  /-- Alternate profile active (R38). -/
  altOn : Bool := false
  /-- 4-byte address mode (R38). -/
  addr4 : Bool := false
  /-- The change of mode that takes effect at the next fall of H_CS_N (R38). -/
  next : Option ModeOp := none
  /-- The alternate profile was active at the last fall of H_CS_N: CH[5] of the transaction's record (Table 3.6). -/
  txnAlt : Bool := false
  /-- Emulated status (R56, R58). -/
  wip : Bool := false
  wel : Bool := false
  susp : Bool := false
  /-- The preceding transaction was RESET_EN (Table 2.3). -/
  rstArmed : Bool := false
  /-- Register images of the reset and alternate profiles as WRREG has left them (R502). -/
  img : Vector Byte 8 := Vector.replicate 8 0
  imgAlt : Vector Byte 8 := Vector.replicate 8 0
  /-- CH_EVENTS. -/
  evTrunc : BitVec 8 := 0
  evWdrop : BitVec 8 := 0
  evUnkop : BitVec 8 := 0
  evOvspd : BitVec 8 := 0
  /-- CH_FP_CLK.DIV. -/
  div : Nat := 160
  raw : Raw := {}
  /-- GR_STATUS. -/
  locked : Bool := false
  adjRej : Bool := false
  escHeld : Bool := false
  /-- The present escalation is held as under HOLD (R93). -/
  escForever : Bool := false
  escCount : Nat := 0
  escDesc : BitVec 6 := 0
  escOpc : Bool := false
  /-- Cycle at which HRST_N went low for the escalation hold (R92). -/
  escAt : Nat := 0
  /-- GR_SUBST. -/
  subst : BitVec 64 := 0
  /-- GR_CNT_* (Table 3.8). -/
  cntHit : Word := 0
  cntMiss : Word := 0
  cntProv : Word := 0
  cntRefused : Word := 0
  cntDeny : Word := 0
  cntWcommit : Word := 0
  cntEsc : Word := 0
  cntLate : Word := 0
  /-- The per-channel SEQ of grate records (R96). -/
  grSeq : Nat := 0
  bset : Vector BsetRt 15 := Vector.replicate 15 {}
  strict : Vector StrictRt 64 := Vector.replicate 64 {}
  /-- The committed write in force (R91). -/
  wr : Option PendWrite := none
  /-- Partition (R144): quota; occupancy is counted from the frames. -/
  quota : Nat := 0
  depth : Nat := 0
  hitPct : Nat := 0
  /-- Counts at the last adaptation pass, and in the present interval (R166). -/
  lastHit : Word := 0
  lastMiss : Word := 0
  lastProv : Word := 0
  siPass : Nat := 0
  pfIssued : Nat := 0
  pfUsed : Nat := 0
  cleanPasses : Nat := 0
  upNeed : Nat := 0
  lastUp : Option Nat := none
  lastDown : Option Nat := none
  trace : Trace := {}
  slots : List ProvSlot := []
  /-- VE_CH_PROV.MAXWIN in units of 10 ns, and VE_CH_STAT. -/
  maxWin : Nat := 0
  statSi : Nat := 0
  statClk : Nat := 0
  statAbn : Nat := 0
  /-- The channel ran from golden after HOLD_REBOOT (R127). -/
  goldReboot : Bool := false
  /-- Which of the channel's two host-service billets is bound (R25). -/
  hsBound : Bool := false
  /-- What the host was last served, byte for byte, and whether the outputs were driven at all. -/
  hostOut : List Byte := []
  hostDriven : Bool := false
deriving DecidableEq, Repr

/-- What a flash-side port is doing on its own clock. -/
inductive AccKind where
  /-- A read of an ember, or of part of one, by the billet. -/
  | read
  /-- WREN and the operation of a committed write (R91). -/
  | write
  /-- A status read of a committed write (R91). -/
  | status
deriving DecidableEq, Repr

/-- The own-clock access in progress on a flash-side port (R217). -/
structure Access where
  /-- Its queue entry, to which a cut returns it (R217). -/
  item : QItem
  kind : AccKind
  /-- A head demand, or aged: not cut by a head demand. -/
  head : Bool
  aged : Bool
  startAt : Nat
  /-- The divider of its clock, which a step of the port's divider does not change (R169). -/
  div : Nat
  /-- Units whose embers the same read goes on with, without a new grant (R48). -/
  chain : List QItem := []
deriving DecidableEq, Repr

/-- A command as a flash-side port drives it on its own clock (R181, Table 6.5): chip select, command lanes, opcode, the 8D
extension byte, the address, and page data. -/
structure FlashCmd where
  cs : Bool
  lanes : Nat
  opc : Byte
  ext : Option Byte
  addr : Option Nat
  data : List Byte
deriving DecidableEq, Repr

/-- A flash-side port (R217): head demands in issue order, status reads in issue order, the sharing channels' fill and
background queues, and the access in progress. -/
structure Port where
  heads : List QItem := []
  status : List Nat := []
  arb : Arb := {}
  cur : Option Access := none
  /-- The billet whose program or erase is outstanding in the flash on chip select 0 and 1 (R88). -/
  busy0 : Option Nat := none
  busy1 : Option Nat := none
  /-- The commands of the own-clock access in progress or the last one, in the order driven. -/
  sent : List FlashCmd := []
deriving DecidableEq, Repr

/-- Frame states (R140); a FREE frame is not listed. -/
inductive FrameSt where
  | filling | checking | valid
deriving DecidableEq, Repr

/-- An ember-cache frame in use (R138). -/
structure Frame where
  st : FrameSt
  id : EmberId
  pin : Bool
  /-- Recency rank within the set, 0 most recent. -/
  rank : Nat
  /-- Filled by a prefetch and not yet fetched by the host (R166). -/
  pf : Bool
  data : List Byte
deriving DecidableEq, Repr

/-- Bank states (VE_BIND_STATE). -/
inductive BindSt where
  | idle | checking | anchored | rejected | revoked | staged | armed | failed
deriving DecidableEq, Repr

/-- Verification state of one bank of one binding (R108, R129, R130). -/
structure BankRt where
  st : BindSt := .idle
  reason : Nat := 0
  depth : Nat := 0
  version : Word := 0
  root : Digest := 0
  sigOfs : Nat := 0
  sigLen : Nat := 0
  nodeOfs : Nat := 0
  /-- A pinned entry of its node cache was lost, and it is anchored anew (R113). -/
  reanchor : Bool := false
  /-- A pre-flip check has been asked for and waits for the flash (R129). -/
  stageReq : Bool := false
  scrubCur : Nat := 0
  scrubPasses : Nat := 0
  /-- Groups hot since the pass began, and at its start (R170). -/
  hot : List Nat := []
  hotStart : List Nat := []
deriving DecidableEq, Repr

/-- An entry of the node cache (R109, R114): keyed by binding, bank, level and index; level 0 holds the leaf digests,
level 9 ROOT and level 10 the expected digests of manifest embers. -/
structure NodeEnt where
  bind : Nat
  bank : BankId
  level : Nat
  idx : Nat
  dig : Digest
  pin : Bool
deriving DecidableEq, Repr

/-- An entry of the clinker list (R128). -/
structure ClinkerEnt where
  bind : Nat
  bank : BankId
  man : Bool
  idx : Nat
deriving DecidableEq, Repr

/-- A job of the hash bank (R116, R117): its billet, tier, the blocks it has to run, and whether it was granted as aged. -/
structure HashJob where
  billet : Nat
  tier : Nat
  cost : Nat
  aged : Bool
  enq : Nat
deriving DecidableEq, Repr

/-- What runs on an engine. -/
structure EngRun where
  job : HashJob
  startAt : Nat
deriving DecidableEq, Repr

/-- The verification engine (VE window). -/
structure Ve where
  scrubEn : Bool := false
  katPeriod : Nat := 10
  engOnline : BitVec 12 := 0xFFF#12
  aesOnline : BitVec 2 := 3#2
  pinFull : Bool := false
  clistFull : Bool := false
  intSts : Word := 0
  intEn : Word := 0
  clkHold : BitVec 32 := 0
  bindings : List Binding := []
  /-- VE_BIND_FLOOR by binding index (RWS). -/
  floors : List (Nat × Word) := []
  /-- Banks by binding · 4 + bank. -/
  banks : List (Nat × BankRt) := []
  nodes : List NodeEnt := []
  clist : List ClinkerEnt := []
  engines : Vector (Option EngRun) 12 := Vector.replicate 12 none
  /-- Tier-0 jobs in the order their input became complete; the rings of tiers 1-3 (R117). -/
  tier0 : List HashJob := []
  tier1 : Arb := {}
  tier2 : Arb := {}
  tier3 : Arb := {}
  /-- The cycle of the last round of known-answer tests (R118). -/
  katAt : Nat := 0
  log : LogRing := {}
deriving DecidableEq, Repr

/-- The ember cache and remap unit (EC window). -/
structure Ec where
  locked : Bool := false
  passes : Nat := 0
  intSts : Word := 0
  intEn : Word := 0
  flipHold : BitVec 32 := 0
  freeze : BitVec 32 := 0
  parity : Nat := 0
  /-- Embers that this banked unit discarded for parity, absent until the burning unit next fills them (R173). -/
  absent : List EmberId := []
  /-- Frames not FREE, by frame number. -/
  frames : List (Nat × Frame) := []
  log : LogRing := {}
deriving DecidableEq, Repr

end Sys2Proof.Machine
end

