-- ==== Sys2Proof/Machine/StateShare.lean ====
section
/-! DEFINITION. The state of the shared services: the device's clock, the requesters' selector copies, the billet
tracker and instances (chapter 07), the structure loader (chapter 06), and the platform sequencer and power block
(chapter 09). -/

namespace Sys2Proof.Machine

/-- Time, and the counter that draws free values. One unit of `now` is a cycle of the 500 MHz core clock, 2 ns.
Log entries 2 (DESIGN CHOICE), 9 (DESIGN CHOICE). -/
structure Clk where
  now : Nat := 0
  /-- Cycle at which the last device reset was released, and at which the structure was locked. -/
  resetAt : Nat := 0
  lockAt : Nat := 0
  /-- How many free values have been drawn; the model's own field. -/
  free : Nat := 0
deriving DecidableEq, Repr

/-- One master's copies of the selector registers (R68, R233, R498). -/
structure Sel where
  ch : Ch := 0
  bcast : Bool := false
  mismatch : Bool := false
  inst : Inst := 0
  bind : BitVec 8 := 0xFF
  bank : BitVec 2 := 0
  bsCh : Ch := 0
  bsSet : BitVec 4 := 15
  dom : BitVec 8 := 0
  tally : Fin 64 := 0
  /-- MB_TALLY_VAL0-7 and MB_TALLY_CNT of this master's snapshot (R356). -/
  snapVal : Digest := 0
  snapCnt : Word := 0
deriving DecidableEq, Repr

/-- One external master's GC_PORTAL_STS, and its portal's last reply.
Log entry 4 (DESIGN CHOICE). -/
structure Portal where
  frameErr : Nat := 0
  overrun : Bool := false
  accessErr : Bool := false
  lenErr : Bool := false
  busyTmo : Bool := false
  lastStatus : Nat := 0
  /-- READ and WRITE masks in force (R189). -/
  readMask : Word := 1
  writeMask : Word := 0
  /-- Status byte and words of the last frame's reply. -/
  outStatus : Nat := 0
  outWords : List Word := []
deriving DecidableEq, Repr

/-- The GC window: identity, portal view, own-store operations (R401). -/
structure Gc where
  rev : BitVec 8 := 0xA0
  view : BitVec 3 := 0
  portals : Vector Portal 6 := Vector.replicate 6 {}
deriving DecidableEq, Repr

/-- The billet tracker (R204-R212, BT window). -/
structure Bt where
  /-- Entries not FREE, by entry number. -/
  units : List (Nat × Billet) := []
  waiting : List WaitingDraw := []
  low : Nat := 3072
  intSts : Word := 0
  intEn : Word := 0
  peakHs : Nat := 0
  peakVer : Nat := 0
  peakFill : Nat := 0
  peakBg : Nat := 0
  maxWaitBg : Nat := 0
  maxWaitDem : Nat := 0
  maxWaitPort : Ch := 0
  parity : Nat := 0
  arb : ArbCfg := {}
  /-- The ARBITRATION section is in force (R232). -/
  arbOn : Bool := false
  pools : Vector PoolClass 8 := Vector.replicate 8 {}
deriving DecidableEq, Repr

/-- Instance states (R224). -/
inductive InstSt where
  | dormant | active | draining | squashing
deriving DecidableEq, Repr

/-- Run-time state of an instance (IN window). -/
structure InstRt where
  cfg : InstCfg := {}
  st : InstSt := .dormant
  /-- IN_ADDR.ADDR. -/
  addr : BitVec 8 := 0
  refused : Bool := false
  refcode : Nat := 0
  /-- Cycle of the RESET_DRAIN in progress (R226). -/
  drainAt : Nat := 0
  /-- The cycle of the last write of IN_CTL that was taken, and its master (R230). -/
  ctlBy : Option (Nat × Master) := none
deriving DecidableEq, Repr

/-- Loader states (ST_STATUS.STATE). -/
inductive LoadSt where
  | empty | loading | loaded | locked | restructuring
deriving DecidableEq, Repr

/-- What a device-wide section of chapters 12-16 gives beyond the tables above is kept in the parts of the state that
use it; here stand the header values of the image in force (Table 6.1, Table 6.8). -/
structure ImageHdr where
  rollback : Nat := 0
  pair : Bool := false
  imageId : Word := 0
  ownerGen : Nat := 0
  signerKey : List Byte := []
  structTally : Fin 64 := 0
  restruct : BitVec 32 := 0
  /-- The signed bytes of the image in force, against which a restructure is compared (R197). -/
  bytes : List Byte := []
deriving DecidableEq, Repr

/-- The structure loader (ST window). -/
structure St where
  state : LoadSt := .empty
  err : Bool := false
  skipped : Nat := 0
  errCode : Nat := 0
  errSection : Nat := 0
  errOfs : Nat := 0
  src : Word := 0
  srcRam : Bool := false
  hdr : ImageHdr := {}
  digest : Digest := 0
  rsCh : Ch := 0
  /-- The target of the restructure in progress. -/
  rsTarget : Ch := 0
  rsBusy : Bool := false
  rsHold : BitVec 32 := 0
  arbTarget : Nat := 0
  advancing : Bool := false
  arbDone : Bool := false
  arbFail : Bool := false
  intSts : Word := 0
  intEn : Word := 0
  /-- The image being loaded: where its load reads it (R190). -/
  stage : List Byte := []
  anchors : List (Nat × List Byte) := []
deriving DecidableEq, Repr

/-- Sequencer graph states (R277). -/
inductive GraphSt where
  | idle | running | up | shutting | off | faulted
deriving DecidableEq, Repr

/-- Run state of one step (R274, R275). -/
inductive StepSt where
  | idle | running | done | failed
deriving DecidableEq, Repr

/-- Run-time record of one step: its state, start, the cycle since which its line holds its level, an SMBus request
waiting or in progress, and its watch (R281, R282). -/
structure StepRt where
  st : StepSt := .idle
  startAt : Nat := 0
  /-- For WAIT_IN: the line has held its level since this cycle. -/
  heldSince : Option Nat := none
  /-- The watch: 0 off, 1 armed, 2 spent. -/
  watch : Nat := 0
  /-- The watched line has been away from its level since this cycle. -/
  awaySince : Option Nat := none
  /-- A PMB step's transaction: 0 none, 1 waiting for its port, 2 on the port, 3 waiting out a retry, 4 waiting out
  POLL_US. -/
  smb : Nat := 0
  smbAt : Nat := 0
  /-- The cycle in which the step became DONE (R274). -/
  doneAt : Nat := 0
deriving DecidableEq, Repr

/-- The platform sequencer (SQ window). -/
structure Sq where
  cfg : SeqCfg := {}
  graph : GraphSt := .idle
  /-- The power-up graph has stopped (R275, R277). -/
  upStopped : Bool := false
  downStopped : Bool := false
  steps : Vector StepRt 128 := Vector.replicate 128 {}
  intSts : Word := 0
  intEn : Word := 0
  hearthHold : BitVec 32 := 0
  pfHold : BitVec 32 := 0
  /-- Line driven low by this unit. -/
  hrst : BitVec 32 := 0xFFFFFFFF#32
  /-- RELEASE step naming the line DONE, before MIN_HOLD (R279). -/
  released : BitVec 32 := 0
  /-- MIN_HOLD runs until this cycle, where it runs. -/
  minHoldTo : Vector (Option Nat) 32 := Vector.replicate 32 none
  faultStep : BitVec 7 := 0
  faultPf : Bool := false
  faultLine : BitVec 7 := 0
  faultSmb : BitVec 2 := 0
  /-- Levels sampled on the lines, levels driven, and the software levels SQ_IO_SW. -/
  ioIn : BitVec 96 := 0
  ioOut : BitVec 96 := 0
  ioSw : BitVec 96 := 0
  /-- Outputs driven (R30 until the lock). -/
  ioDriven : Bool := false
  /-- Kindling's transaction (SQ_SMB_CTL, SQ_SMB_DATA), and the copy of both registers taken at START (R505). -/
  smbAddr : BitVec 7 := 0
  smbRead : Bool := false
  smbCmd : BitVec 8 := 0
  smbPort : Fin 4 := 0
  smbLen : BitVec 2 := 0
  smbPec : Bool := false
  smbBusy : Bool := false
  smbErr : BitVec 3 := 0
  smbData : BitVec 16 := 0
  smbTxn : Option (Word × BitVec 16) := none
  /-- The step whose transaction is on each port, 128 for kindling's. -/
  portBusy : Vector (Option Nat) 4 := Vector.replicate 4 none
  /-- Ports whose bus a target holds, to be recovered before the next transaction (R290). -/
  smbHeld : BitVec 4 := 0
  log : LogRing := {}
deriving DecidableEq, Repr

/-- The device's supplies, clocks and power domains (PD window). -/
structure Pd where
  cause : BitVec 4 := 0
  bank : BitVec 4 := 0
  coreOk : Bool := true
  /-- The core supply has been out of range since the last reset: the next reset is cold (R4). -/
  cold : Bool := true
  bankOk : BitVec 15 := 0x7FFF#15
  vbatOk : Bool := false
  pllLock : Bool := false
  refOk : Bool := false
  bankLvl : BitVec 15 := 0
  /-- Banks whose level has been detected since the last cold reset (R474). -/
  lvlSeen : BitVec 15 := 0
  ret : BitVec 4 := 0
  /-- A device reset is asserted: nothing runs until DEVICE_RESET_RELEASE. -/
  inReset : Bool := true
  /-- The reset has been released, and the tinder ROM may start. -/
  released : Bool := false
  /-- The core supply holds the reset (R284), and tamper HALT holds it (R458). -/
  holdSupply : Bool := false
  holdHalt : Bool := false
  /-- Gated units of Table 9.8. -/
  gatedHash : BitVec 12 := 0
  gatedAes : BitVec 2 := 0
  gatedLms : Bool := false
deriving DecidableEq, Repr

end Sys2Proof.Machine
end

