-- ==== Sys2Proof/Machine/StateServ.lean ====
section
/-! DEFINITION. The state of the hearth (chapter 08), the key vault (chapter 10), the life-cycle engine with its OTP and
debug access (chapter 11), and the mailboxes with attestation (chapter 12). -/

namespace Sys2Proof.Machine

/-- HE_CORE_STS.STATE. -/
inductive CoreSt where
  | held | running | nmi | halted
deriving DecidableEq, Repr

/-- One hearth core (R234-R237): the integer registers, the machine-mode registers of Table 8.1, the reservation and the
fetch buffer of R235.
Log entry 6 (PRESUMED). -/
structure CoreRt where
  st : CoreSt := .held
  pc : Word := 0
  /-- x0 is never written and holds 0. -/
  regs : Vector Word 32 := Vector.replicate 32 0
  /-- User mode; machine mode otherwise. -/
  user : Bool := false
  mstatus : Word := 0
  mie : Word := 0
  mtvec : Word := 0
  mcounteren : Word := 0
  mcountinhibit : Word := 0
  mscratch : Word := 0
  mepc : Word := 0
  mcause : Word := 0
  mtval : Word := 0
  /-- mcycle less the core-clock cycles counted by the device's clock (R234). -/
  mcycleOfs : BitVec 64 := 0
  minstret : BitVec 64 := 0
  /-- The reserved word's physical address (R235). -/
  reserve : Option Nat := none
  /-- The aligned 16 bytes last fetched and their physical address (R235). -/
  fbuf : Option (Nat × List Byte) := none
  wfi : Bool := false
  /-- The next fetch is the first of a trap handler: its fault is a vector fault (R263). -/
  atVector : Bool := false
  /-- A read of the own-store window waits for its data (R241). -/
  osWait : Bool := false
  /-- The core is in debug mode; dpc and dcsr of the RISC-V debug specification (R334). -/
  dbg : Bool := false
  dpc : Word := 0
  dcsr : Word := 0x40000003#32
deriving DecidableEq, Repr

/-- A translation-cache entry: virtual page, physical page, and R, W, X (R245). -/
structure TlbEnt where
  vpn : Nat
  ppn : Nat
  r : Bool
  w : Bool
  x : Bool
deriving DecidableEq, Repr

/-- HE_DMA_STS.STATE. -/
inductive DmaSt where
  | idle | waiting | running | preempted | faulted
deriving DecidableEq, Repr

/-- A job-DMA channel (R248-R257). -/
structure DmaCh where
  prio : BitVec 2 := 0
  cls : BitVec 2 := 0
  owner : BitVec 8 := 0xFF
  st : DmaSt := .idle
  cmdRej : Bool := false
  busy : Bool := false
  /-- END. -/
  ended : BitVec 2 := 0
  /-- First or current descriptor. -/
  desc : Word := 0
  code : BitVec 4 := 0
  /-- PROGRESS as HE_DMA_FAULT shows it, and the bytes of the current descriptor written. -/
  faultProg : Nat := 0
  progress : Nat := 0
  fva : Word := 0
  billet : Option Nat := none
  /-- The descriptor contents the channel holds (R255). -/
  held : Option (Vector Word 8) := none
  /-- The frame its EMBER descriptor uses (R252). -/
  frame : Option Nat := none
  /-- That frame was freed by a parity error (R252). -/
  spoilt : Bool := false
  /-- The cycle in which it last left a mover, or began to wait (R253). -/
  leftAt : Nat := 0
  aged : Bool := false
  /-- The cycle of the last write of HE_DMA_CTL that was taken, and its master (R257). -/
  ctlBy : Option (Nat × Master) := none
deriving DecidableEq, Repr

/-- The hearth control complex (HE window and RAM). -/
structure He where
  cores : Vector CoreRt 4 := (Vector.replicate 4 {}).set 0 { st := .running }
  /-- HE_CORE_ENTRY(1-3), and which cores have been started (R237). -/
  entry : Vector Word 4 := Vector.replicate 4 0
  /-- Tightly coupled RAMs and shared RAM by physical address 0x1100_0000.. and 0x2000_0000.. (R236). -/
  ram : List Host.Cell := []
  /-- Bytes of it whose parity is wrong, rising (R238). -/
  bad : List Nat := []
  root : Vector Word 20 := Vector.replicate 20 0
  tlb : Vector (List TlbEnt) 20 := Vector.replicate 20 []
  fstat : Vector Word 4 := Vector.replicate 4 0
  dma : Vector DmaCh 16 := Vector.replicate 16 {}
  /-- The channel on each mover and the cycle it got it. -/
  movers : Vector (Option (Fin 16 × Nat)) 4 := Vector.replicate 4 none
  dmaInt : Word := 0
  dmaIntEn : Word := 0
  prio : Vector (BitVec 3) 32 := (Vector.replicate 32 0).set 29 7
  tgt : Vector (BitVec 4) 32 := (Vector.replicate 32 0).set 29 0xF
  gr : Word := 0
  grEn : Word := 0
  thr : Vector (BitVec 3) 4 := Vector.replicate 4 0
  /-- Sources in service, with the claiming core (R259). -/
  service : Vector (Option Core) 32 := Vector.replicate 32 none
  mtimecmp : Vector (BitVec 64) 4 := Vector.replicate 4 (BitVec.allOnes 64)
  msip : BitVec 4 := 0
  hookEn : Bool := false
  hookLock : Bool := false
  hookAddr : BitVec 30 := 0
  nmiCause : Vector (BitVec 4) 4 := Vector.replicate 4 0
  nmiEpc : Vector Word 4 := Vector.replicate 4 0
deriving DecidableEq, Repr

/-! Key vault. -/

/-- A vault slot (R298-R300). -/
structure Slot where
  /-- 0 EMPTY, 1 SECRET, 2 HSS_PRIV, 3 HSS_PUB. -/
  typ : Nat := 0
  /-- 0 root, 1 fixed, 2 derived, 3 generated, 4 unwrapped, 5 anchor. -/
  origin : Nat := 0
  lock : Bool := false
  usage : BitVec 8 := 0
  owner : BitVec 8 := 0xFF
  parent : Nat := 0
  isRoot : Bool := false
  depth : Nat := 0
  gen : Nat := 0
  pgen : Nat := 0
  material : List Byte := []
  pend : Option (List Byte) := none
deriving DecidableEq, Repr

/-- A vault operation in flight: what it names, where it writes, and the result it will post (R301, R305). -/
structure KvRun where
  op : Nat
  owner : BitVec 8
  billet : Nat
  /-- Slots it uses. -/
  uses : List Nat
  /-- Destination range in hearth RAM. -/
  dst : Nat
  dstLen : Nat
  code : Nat
  out0 : Word
  out1 : Word
  /-- A COMMIT to be applied, or an operation that waits for one (R310). -/
  commit : Option Nat
  waits : Bool
  /-- The operation unit has taken it from its owner's queue (R220). -/
  taken : Bool := true
  /-- What its end writes: a slot, and bytes of the destination range. -/
  fill : Option (Nat × Slot) := none
  bytes : List Byte := []
deriving DecidableEq, Repr

/-- The command set of one core (KV_CMD to KV_OUT1). -/
structure KvCore where
  op : BitVec 5 := 0
  bg : Bool := false
  owner : BitVec 8 := 0xFF
  arg : Vector Word 4 := Vector.replicate 4 0
  code : BitVec 4 := 0
  done : Bool := false
  rej : Bool := false
  out0 : Word := 0
  out1 : Word := 0
  run : Option KvRun := none
deriving DecidableEq, Repr

/-- The key vault (KV window). -/
structure Kv where
  /-- 0 EMPTY, 1 SERVICE, 2 NO_OWNER, 3 ASH. -/
  state : Nat := 0
  ownerGen : Nat := 0
  testRoot : Bool := false
  awkNew : Bool := false
  esFail : Bool := false
  /-- The cycle of the last failed test (R317). -/
  esAt : Nat := 0
  zfail : Bool := false
  rej : Bool := false
  /-- A root load has completed since the device reset (R297). -/
  loaded : Bool := false
  intSts : Word := 0
  intEn : Word := 0
  sel : Vector (Fin 128) 4 := Vector.replicate 4 0
  slots : Vector Slot 128 := Vector.replicate 128 {}
  cmd : Vector KvCore 4 := Vector.replicate 4 {}
  /-- The arbiters of the operation unit and of the AES engines (R220). -/
  arb : Arb := {}
  aesArb : Arb := {}
  /-- What runs on the AES engines. -/
  aes : Vector (Option EngRun) 2 := Vector.replicate 2 none
deriving DecidableEq, Repr

/-! Life cycle. -/

/-- A step of a transition: bytes programmed into the OTP, or a zeroisation, of slot 3 and its descendants only where `test`
(Table 11.5). -/
inductive LcAct where
  | prog (at_ : Nat) (bytes : List Byte)
  | zeroise (test : Bool)
deriving DecidableEq, Repr

/-- A transition under way: operation code of Table 11.5, generation and intent slot (R327). -/
structure LcRun where
  op : Nat
  gen : Nat
  slot : Nat
  /-- The steps after the intent (Table 11.5). -/
  acts : List LcAct
deriving DecidableEq, Repr

/-- The life-cycle engine (LC window), the TAP and the debug module.
Log entry 6 (PRESUMED). -/
structure Lc where
  cmdOp : BitVec 4 := 0
  code : BitVec 4 := 0
  done : Bool := false
  slot : BitVec 5 := 0
  tokenAddr : Word := 0
  tokenLen : Word := 0
  nonce : Option Digest := none
  prov : Vector Word 24 := Vector.replicate 24 0
  intSts : Word := 0
  intEn : Word := 0
  resumed : Bool := false
  run : Option LcRun := none
  /-- A token whose signature is being checked: the key, the signature, the signed bytes, and its PURPOSE and GEN. -/
  token : Option (List Byte × List Byte × List Byte × Nat × Nat) := none
  /-- The TAP's instruction in effect; BYPASS is all ones. -/
  tapIr : BitVec 5 := 0x1F
  /-- Debug-module registers: dmactive, selected core, abstract data and command error, system bus (R334). -/
  dmActive : Bool := false
  dmSel : Fin 4 := 0
  dmResumeAck : BitVec 4 := 0
  dmHaveReset : BitVec 4 := 0
  dmData : Vector Word 2 := Vector.replicate 2 0
  dmErr : BitVec 3 := 0
  sbcs : Word := 0
  sbAddr : Word := 0
  sbData : Word := 0
  dmiOut : Word := 0
deriving DecidableEq, Repr

/-! Mailboxes. -/

/-- How far SPDM negotiation of an instance has come (R366). -/
inductive SpdmSt where
  | start | version | caps | algs
deriving DecidableEq, Repr

/-- What the responder sends once its unit of work ends (R365). -/
structure SpdmWork where
  billet : Option Nat
  /-- The response. -/
  resp : List Byte
deriving DecidableEq, Repr

/-- A message being assembled from MCTP packets (R350). -/
structure MctpAsm where
  eid : Byte
  tag : Byte
  seq : Nat
  bytes : List Byte
deriving DecidableEq, Repr

/-- Delivery of the head of a peer's outbound queue (R383). -/
structure PeerTx where
  sends : Nat
  eseq : BitVec 16
  at_ : Nat
  /-- FULL was answered: the next send follows after 20 us. -/
  full : Bool
deriving DecidableEq, Repr

/-- The mailbox of one instance (R336-R350). -/
structure Box where
  inq : List (List Word) := []
  outq : List (List Word) := []
  /-- Next sequence number per sender, inbound and outbound. -/
  inSeq : List (Nat × Nat) := []
  outSeq : List (Nat × Nat) := []
  inAck : BitVec 8 := 0
  outAck : BitVec 8 := 0
  bulkDev : Bool := false
  bulk : List Host.Cell := []
  /-- Staged words by 16 · copy + n, copies 0-3 the cores' and 4 the client side's; absent is 0. -/
  tx : List (Nat × Word) := []
  res : Vector (BitVec 3) 5 := Vector.replicate 5 0
  asm : Option MctpAsm := none
  /-- Tag of the last assembled request, and bytes of the outbound message already fetched. -/
  tag : Byte := 0
  outPos : Nat := 0
  spdm : SpdmSt := .start
  /-- Transcript of VCA and of the messages since (SPDM 1.2). -/
  vca : List Byte := []
  msgB : List Byte := []
  msgL : List Byte := []
  work : Option SpdmWork := none
  /-- Delivery of the head of a fabric peer's outbound queue (R383). -/
  peer : Option PeerTx := none
  /-- Bulk bytes from the peer failed for the next MSG (R383). -/
  peerFail : Bool := false
deriving DecidableEq, Repr

/-- A tally extension requested and not applied, in order of request (R354). -/
structure TallyReq where
  t : Fin 64
  d : Digest
  owner : Owner
  billet : Option Nat
  /-- The requesting core, where a core asked (R355). -/
  core : Option Core
deriving DecidableEq, Repr

/-- One of the two signing keys (R357-R361). -/
structure LmsKey where
  p : Nat := 0
  n : Nat := 0
  ready : Bool := false
  jfail : Bool := false
  valid : Bool := false
  slot : Fin 128 := 0
  /-- KEYID: I of the key's top tree. -/
  keyId : BitVec 128 := 0
  seq : Nat := 0
  /-- The reservation of the next block is being written (R357). -/
  jbusy : Bool := false
  /-- The top tree stands, and how many lower trees from the current top leaf on do (R360). -/
  top : Bool := false
  lower : Nat := 0
deriving DecidableEq, Repr

/-- A large-response store in use (R367). -/
structure BigResp where
  n : Inst
  handle : Nat
  bytes : List Byte
  nextSeq : Nat
  sent : Nat
deriving DecidableEq, Repr

/-- A read whose side effects are still to come (R67): the register, the value returned, what the value came from (a channel,
a copy), and whether another connected channel differed then (R70). -/
structure ReadFx where
  addr : Nat
  val : Word
  target : Nat
  differs : Bool
deriving DecidableEq, Repr

/-- An I3C target port (R348-R350).
Log entry 6 (PRESUMED). -/
structure I3c where
  dynAddr : Option (BitVec 7) := none
  /-- In-band interrupts enabled (ENEC, DISEC). -/
  ibi : Bool := true
  /-- A reply waiting for a private read: its bytes and the cycle its frame ended. -/
  reply : Option (List Byte × Nat) := none
  /-- The registers that reply read, with the values returned: their side effects take place once it has been fetched (R67). -/
  fx : List ReadFx := []
  /-- The frame was not answered in 1 ms: the next read returns 0x5C (R348). -/
  late : Bool := false
  eid : Byte := 0
  /-- MCTP control responses waiting, and the last bytes the target drove. -/
  ctl : List (List Byte) := []
  out : List Byte := []
  nacked : Bool := false
deriving DecidableEq, Repr

/-- The mailboxes, tallies and attestation (MB window). -/
structure Mb where
  box : Vector Box 64 := Vector.replicate 64 {}
  inqEn : BitVec 64 := 0
  intSts : Word := 0
  intEn : Word := 0
  mctpDrop : Nat := 0
  locks : Vector (Option Inst) 16 := Vector.replicate 16 none
  tallies : Vector (Digest × Word) 64 := Vector.replicate 64 (0, 0)
  tallyQ : List TallyReq := []
  tallyIn : Vector Digest 4 := Vector.replicate 4 0
  tallyRej : BitVec 4 := 0
  tallyLock : BitVec 64 := 0
  attEn : Bool := false
  chainOk : Bool := false
  attLock : Bool := false
  extAsym : Word := 0
  chainAddr : Word := 0
  chainLen : Word := 0
  lms : Vector LmsKey 2 := Vector.replicate 2 {}
  epoch : Word := 0
  /-- ALIAS has been accepted since the device reset (R362). -/
  aliased : Bool := false
  big : Vector (Option BigResp) 4 := Vector.replicate 4 none
  handle : Nat := 0
  i3c : Vector I3c 4 := Vector.replicate 4 {}
deriving DecidableEq, Repr

end Sys2Proof.Machine
end

