-- ==== Sys2Proof/Machine/StateFab.lean ====
section
/-! DEFINITION. The state of the fabric (chapter 13), the own store and recovery (chapter 14), the watchdogs and the
redundant pair (chapter 15), and tamper monitoring with the always-on domain (chapter 16). -/

namespace Sys2Proof.Machine

/-- FB_FLUE.STATE; the pair link uses the same states (R370, R439). -/
inductive FlueSt where
  | down | training | up | neighbour | isolated | failed | off
deriving DecidableEq, Repr

/-- A serial link: its training, link layer and, for a flue, its neighbour (R369-R371, R376).
Log entry 4 (DESIGN CHOICE). -/
structure FlueRt where
  st : FlueSt := .off
  /-- Cycle in which it entered this state. -/
  since : Nat := 0
  laneSwap : Bool := false
  pol : BitVec 2 := 0
  neigh : BitVec 5 := 0
  neighValid : Bool := false
  serial : BitVec 64 := 0
  /-- After a training timeout the flue waits 100 ms before it tries again (R370). -/
  retry : Bool := false
  errCrc : BitVec 8 := 0
  errReplay : BitVec 8 := 0
  errFail : BitVec 8 := 0
  lastHello : Nat := 0
  /-- Next LSEQ to send and next expected. -/
  txSeq : Byte := 0
  rxSeq : Byte := 0
  /-- Frames sent and not acknowledged, and the cycle of the oldest one's last sending. -/
  replay : List FabFrame := []
  replayAt : Nat := 0
  replays : Nat := 0
  /-- Frames that wait for a credit or for room in the replay buffer. -/
  waiting : List FabFrame := []
  /-- Credits held per VC, and credits owed to the other end with the acknowledgement. -/
  credits : Vector Nat 4 := Vector.replicate 4 8
  owed : Vector Nat 4 := Vector.replicate 4 0
  ackOwed : Bool := false
  nakOwed : Bool := false
  /-- Deficits of VC 0, 1 and 3 and the ring position among 1, 0, 3 (R381). -/
  defs : Vector Nat 3 := Vector.replicate 3 0
  ring : Nat := 0
  /-- The last LINK frame's ARG sent. -/
  lastLink : Word := 0
deriving DecidableEq, Repr

/-- An entry of the topology database (R377). -/
structure TopoEnt where
  serial : BitVec 64
  node : Option (Fin 32)
  pri : Nat
  version : Nat
  rseq : Word
  /-- State code, neighbour node and neighbour SERIAL of each flue. -/
  flues : List (Nat × Nat × BitVec 64)
  at_ : Nat
deriving DecidableEq, Repr

/-- A route entry (R379). -/
structure Route where
  up : Option Flue := none
  dn : Option Flue := none
  dist : Nat := 0
deriving DecidableEq, Repr

/-- The FABRIC section in force (Table 13.3). -/
structure FabCfg where
  present : Bool := false
  fabricId : Word := 0
  nodeId : Option (Fin 32) := none
  coordPri : Nat := 0
  pairNode : Option (Fin 32) := none
  allowReset : Bool := false
  allowSnap : Bool := false
  acceptRelay : Bool := false
  settleMs : Nat := 0
  markTmo : Nat := 0
  fkey : Option (Fin 128) := none
  vc0w : Nat := 1
  vc1w : Nat := 1
  vc3w : Nat := 1
  flueEn : BitVec 4 := 0
deriving DecidableEq, Repr

/-- FB_STATUS.STATE. -/
inductive NodeSt where
  | off | discovering | settling | running | isolated
deriving DecidableEq, Repr

/-- FB_SNAP_STS.STATE. -/
inductive SnapSt where
  | idle | recording | signing | sent | collecting | done | aborted
deriving DecidableEq, Repr

/-- The record of one incoming (flue, VC) channel: 0 not a neighbour, 1 closed, 2 timed out, 3 still open (R388). -/
structure SnapChan where
  state : Nat := 0
  count : Nat := 0
  bytes : List Byte := []
deriving DecidableEq, Repr

/-- A snapshot in progress or the last one (R388-R391). -/
structure Snap where
  st : SnapSt := .idle
  timedOut : Bool := false
  rej : Bool := false
  epoch : Word := 0
  nonceReg : Digest := 0
  nonce : Digest := 0
  buf : Word := 0
  present : BitVec 32 := 0
  tallies : List (Digest × Word) := []
  time : BitVec 64 := 0
  at_ : Nat := 0
  startAt : Nat := 0
  /-- By 3 · flue + (VC 0, 1, 3). -/
  chans : Vector SnapChan 12 := Vector.replicate 12 {}
  /-- The signature being made, and its billet. -/
  sig : Option (List Byte) := none
  billet : Option Nat := none
  /-- The record parts received, by node: segment numbers. -/
  parts : List (Nat × List Nat) := []
  /-- The quote is being signed. -/
  quoting : Bool := false
deriving DecidableEq, Repr

/-- A pair address heard (R448): highest accepted number and the history of the 64 below it. -/
structure PairSeen where
  node : Nat
  s : BitVec 16
  hist : BitVec 64
deriving DecidableEq, Repr

/-- The fabric (FB window). -/
structure Fb where
  cfg : FabCfg := {}
  st : NodeSt := .off
  node : Option (Fin 32) := none
  dup : Bool := false
  /-- The coordinator of the settled topology, its node and whether this node is it. -/
  coord : Bool := false
  coordId : Nat := 0
  diam : Nat := 0
  level : Nat := 0
  parent : Nat := 0
  parentFlue : Option Flue := none
  children : List (Flue × Nat) := []
  present : BitVec 32 := 0
  fgen : BitVec 16 := 0
  intSts : Word := 0
  intEn : Word := 0
  dropTransit : Nat := 0
  dropBad : Nat := 0
  peerIn : BitVec 6 := 0
  peerCode : BitVec 3 := 0
  flue : Vector FlueRt 4 := Vector.replicate 4 {}
  topo : List TopoEnt := []
  version : Nat := 0
  /-- Cycle of the last change of the database (R377). -/
  changedAt : Nat := 0
  rt : Vector Route 32 := Vector.replicate 32 {}
  /-- Bit f: the link of flue f goes down the tree order of R379. -/
  downFlues : BitVec 4 := 0
  eseq : BitVec 16 := 0
  bcTx : Vector Word 16 := Vector.replicate 16 0
  bcRx : Vector Word 16 := Vector.replicate 16 0
  bcTag : Byte := 0
  bcRxTag : Byte := 0
  bcRej : Bool := false
  bcLost : Bool := false
  bcNew : Bool := false
  bseq : BitVec 16 := 0
  /-- This node has arrived, and which children have. -/
  arrived : Bool := false
  sentUp : Bool := false
  childArr : List Nat := []
  barWait : Bool := false
  barDone : Bool := false
  barAborted : Bool := false
  barRej : Bool := false
  /-- The coordinator owes an aborted RELEASE once settled (Table 13.7). -/
  barAbortOwed : Bool := false
  snap : Snap := {}
  seen : List PairSeen := []
  rlyBuf : Word := 0
  rxHead : BitVec 6 := 0
  rxTail : BitVec 6 := 0
  txHead : BitVec 6 := 0
  txTail : BitVec 6 := 0
  serve : BitVec 4 := 0
  rlyDrop : BitVec 8 := 0
deriving DecidableEq, Repr

/-! Own store and recovery. -/

/-- An own-store operation kindling has started (R401): 1 PROGRAM, 2 ERASE_4K, 3 ERASE_64K. -/
structure OsOp where
  op : Nat
  addr : Nat
  data : List Byte
  /-- An erase has been issued to the flash in this cycle. -/
  issued : Option Nat
deriving DecidableEq, Repr

/-- The own store, its port, and the log area's open pages. -/
structure Os where
  /-- Programmed bytes; everything else reads 0xFF. -/
  mem : List Host.Cell := []
  ctlOp : BitVec 2 := 0
  ctlLen : BitVec 9 := 0
  done : Bool := false
  err : BitVec 3 := 0
  addr : BitVec 28 := 0
  src : Word := 0
  op : Option OsOp := none
  /-- The arbiter of the own store (R219), and the access it has granted: it holds the port until its end. -/
  arb : Arb := {}
  cur : Option Nat := none
  /-- OS_MODE as sampled (R397). -/
  mode : Bool := false
  /-- The open page and the records in it, by source 1-6; the next page SEQ. -/
  open_ : List (Nat × (Nat × Nat)) := []
  pageSeq : Nat := 0
deriving DecidableEq, Repr

/-- The tinder ROM's boot and recovery (R31, R405, R417, R419-R423). -/
structure Rec where
  /-- The tinder ROM has run its steps since the device reset. -/
  ran : Bool := false
  /-- Recovery mode. -/
  on : Bool := false
  src : Option RecSrc := none
  slot : Nat := 0
  count : Nat := 0
  total : Option Nat := none
  /-- The slot chosen to boot, once one is. -/
  boot : Option Nat := none
  /-- Kindling runs. -/
  kindling : Bool := false
  /-- The last recovery reply. -/
  reply : List Byte := []
  /-- The piece of object 0x3FFE asked for on FL0, and the bytes of it received. -/
  want : Nat := 0
  got : Nat := 0
deriving DecidableEq, Repr

/-! Watchdogs. -/

/-- A task-set record (Table 15.4). -/
structure TsCfg where
  tasks : Nat := 0
  target : Fin 5 := 0
  doubleFatal : Bool := false
  armAtLock : Bool := false
  cores : BitVec 4 := 0
  period : Nat := 0
  first : Nat := 0
deriving DecidableEq, Repr

/-- WD_STS.STATE. -/
inductive WdSt where
  | stopped | resetTiming | armed | expired
deriving DecidableEq, Repr

/-- One watchdog (R425-R430). -/
structure WdRt where
  st : WdSt := .stopped
  /-- In the open phase. -/
  open_ : Bool := true
  /-- Cycle in which the present phase began. -/
  at_ : Nat := 0
  closedUs : Nat := 0
  openUs : Nat := 1000000
  secretReg : Word := 0
  secret : Word := 0
  win : Word := 0
  lfsr : Word := 0
  /-- The present window is the extended one; it has taken no correct stoke yet (R436). -/
  ext : Bool := false
  extPend : Bool := false
  weak : Bool := false
  dup : Bool := false
  foreign : Bool := false
  suspStoke : Bool := false
  armRej : Bool := false
  fault : BitVec 2 := 0
  wasArmed : Bool := false
  svc : Word := 0
  /-- The cycle of the last stoke that was judged, and its core (R438). -/
  stokeBy : Option (Nat × Core) := none
deriving DecidableEq, Repr

/-- One task set (R433, R434). -/
structure TsRt where
  armed : Bool := false
  /-- The set has expired: it stays armed and begins no further period (R434). -/
  expired : Bool := false
  foreign : Bool := false
  periods : BitVec 16 := 0
  counts : Vector Nat 16 := Vector.replicate 16 0
  double : BitVec 16 := 0
  at_ : Nat := 0
  inFirst : Bool := true
deriving DecidableEq, Repr

/-- The watchdogs and task sets (WD window). -/
structure Wd where
  cfgOn : Bool := false
  timing : Vector (Nat × Nat) 5 := Vector.replicate 5 (0, 1000000)
  tsCfg : Vector TsCfg 16 := Vector.replicate 16 {}
  eraseMax : Nat := 200
  extMs : Nat := 1000
  w : Vector WdRt 5 := Vector.replicate 5 {}
  ts : Vector TsRt 16 := Vector.replicate 16 {}
  /-- Suspended since this cycle (R435). -/
  susp : Option Nat := none
  /-- The hard timer's start. -/
  hardAt : Option Nat := none
  intSts : Word := 0
  intEn : Word := 0
deriving DecidableEq, Repr

/-! The redundant pair. -/

/-- A stream of verdicts folded into blocks of 64 (R446). -/
structure VStream where
  perBind : Bool
  idx : Nat
  /-- Verdicts in the open block, their CRC-32 state, and the number of the block. -/
  count : Nat
  crc : Word
  no : Nat
  /-- CRC-32 of the closed blocks not yet compared, by number; and those of the partner. -/
  mine : List (Nat × Word)
  theirs : List (Nat × Word)
  /-- Closed blocks below this number have been sent. -/
  sent : Nat := 0
deriving DecidableEq, Repr

/-- The redundant pair (PR window). -/
structure Pr where
  /-- A PAIR section is in force. -/
  fitted : Bool := false
  reclaim : Bool := false
  handoverMs : Nat := 0
  parityMax : Nat := 0
  diagEn : Word := 0
  /-- ROLE is burning; ROLE is banked otherwise, once one is taken. -/
  burning : Bool := true
  role : BitVec 2 := 0
  /-- 0 ALONE, 1 SYNCING, 2 IN_STEP. -/
  step : BitVec 2 := 0
  ord : Bool := false
  ordConflict : Bool := false
  partnerLost : Bool := false
  partner : Option PairHello := none
  partnerDiag : Option (PairDiag × Nat) := none
  link : FlueRt := {}
  leaseNo : Word := 0
  /-- LEASE_OUT's level, and the cycle of the last renewal by frame and by edge. -/
  leaseOut : Bool := false
  frameAt : Nat := 0
  edgeAt : Nat := 0
  leaseAt : Nat := 0
  /-- Cycle of the last failing input (R444). -/
  failAt : Nat := 0
  /-- An input has failed since the device reset. -/
  failed : Bool := false
  diag : BitVec 6 := 0
  intSts : Word := 0
  intEn : Word := 0
  cntHand : BitVec 8 := 0
  cntExp : BitVec 8 := 0
  cntMis : BitVec 16 := 0
  dup : Word := 0
  /-- A yield is in progress since this cycle; channels already given up (R445). -/
  yielding : Option Nat := none
  given : BitVec 32 := 0
  handover : Word := 0
  /-- Transactions cut by the takeover: nothing is driven until H_CS_N rises (R442). -/
  cut : BitVec 32 := 0
  streams : List VStream := []
  pseq : List (Nat × BitVec 16) := []
  /-- PSEQ announcements that no copy has taken yet: node, number, CRC-32; and the banked unit's copies that wait for theirs (R448). -/
  announced : List (Nat × BitVec 16 × Word) := []
  copies : List FabFrame := []
  /-- Parity errors and the cycles in which they were counted in the last second (R444). -/
  parityAt : List Nat := []
  /-- Changes of the burning unit's adaptation pass that wait for their pass number here (R173). -/
  adapts : List PairNotice := []
  caughtUp : Bool := false
  stateDone : Bool := false
  tx : Vector Word 16 := Vector.replicate 16 0
  rx : Option (List Word) := none
  full : Bool := false
  /-- Sequence number of the next message to the partner. -/
  txSeq : BitVec 8 := 0
deriving DecidableEq, Repr

/-! Tamper monitoring and the always-on domain. -/

/-- A tamper source's configuration in force and its counting (Tables 16.1 and 16.6, R454). -/
structure TpSrc where
  n : Nat := 16
  resp : BitVec 4 := 0
  sens : BitVec 2 := 0
  en : Bool := true
  w : Nat := 10
  /-- Events in the open window, the cycle it opened, and the cycle of the last event. -/
  cnt : Nat := 0
  openAt : Nat := 0
  lastAt : Nat := 0
  active : Bool := false
deriving DecidableEq, Repr

/-- The AO domain's retained contents (R463): lost only at an AO restart.
Log entry 8 (DESIGN CHOICE). -/
structure Ao where
  awk : Option Digest := none
  ashed : Bool := false
  rseq : Word := 0
  /-- WD_EV_CAUSE and the evidence of Table 15.1. -/
  evCause : Word := 0
  evPc : Vector Word 4 := Vector.replicate 4 0
  evSvc : Vector Word 5 := Vector.replicate 5 0
  evTime : Word := 0
  lost : Bool := true
  cfgImage : Bool := false
  src : Vector TpSrc 8 := ((Vector.replicate 8 {}).set 5 ⟨16, 8, 0, true, 10, 0, 0, 0, false⟩).set 6 ⟨16, 8, 0, true, 10, 0, 0, 0, false⟩
  th : Vector (BitVec 8) 64 := Vector.replicate 64 128
  ldEn : BitVec 64 := BitVec.allOnes 64
  haltHold : Nat := 100
  held : Bool := false
  rej : Bool := false
  deferResp : BitVec 4 := 0
  deferSrc : BitVec 8 := 0
  alarms : Nat := 0
  pend : Nat := 0
  sat : Bool := false
  head : Nat := 0
  tail : Nat := 0
  seq : BitVec 8 := 0
  /-- The cycles in which the records not yet drained were written, oldest first (R219). -/
  times : List Nat := []
  /-- An OVERFLOW record is open (R469). -/
  overflow : Bool := false
  /-- CHAIN of the newest chained record, and the number of records after it that are unchained. -/
  chain : BitVec 128 := 0
  /-- A record has been chained since the AO restart; until then `chain` is the seed of R467. -/
  chained : Bool := false
  unchained : Nat := 0
  sram : List Host.Cell := []
  /-- The clock's value at the cycle from which it counts (R465). -/
  rtcBase : BitVec 48 := 0
  rtcAt : Nat := 0
  /-- TP_RTC_HI, latched by the last read of TP_RTC_LO. -/
  rtcHi : BitVec 16 := 0
deriving DecidableEq, Repr

/-- Tamper monitoring (TP window), beside the AO domain. -/
structure Tp where
  ao : Ao := {}
  intSts : Word := 0
  intEn : Word := 0
  ld : BitVec 64 := 0
  /-- TP_CHAIN: the newest chain value since the device reset, which is not among the AO registers (R467). -/
  chainReg : BitVec 128 := 0
  rtcSet : BitVec 48 := 0
  /-- A HALT's reset began in this cycle: HALT_HOLD runs (R458). -/
  haltAt : Option Nat := none
  /-- A shadow mismatch stands: it lasts until a device reset (R462). -/
  mismatch : Bool := false
  /-- Battery mode (R453). -/
  battery : Bool := false
deriving DecidableEq, Repr

end Sys2Proof.Machine
end

