-- ==== Sys2Proof/Machine/State.lean ====
section
/-! DEFINITION. The state of the TZ3208 as a block: every register, buffer, table and mode the specification gives it,
and the queue of the commands that wait. -/

namespace Sys2Proof.Machine

/-- The block's whole state.
Log entries 1 (DESIGN CHOICE), 7 (DESIGN CHOICE). -/
structure State where
  clk : Clk
  /-- Selector copies: cores 0-3, then MS0, MS1, I3C0-I3C3. -/
  sel : Vector Sel 10
  gc : Gc
  /-- The 32 channels and the 32 flash-side ports. -/
  ch : Vector Chan 32
  port : Vector Port 32
  grLog : LogRing
  ve : Ve
  ec : Ec
  st : St
  bt : Bt
  inst : Vector InstRt 64
  sq : Sq
  pd : Pd
  he : He
  kv : Kv
  lc : Lc
  /-- Programmed OTP bytes; an unprogrammed byte reads 0 (R321). -/
  otp : List Host.Cell
  mb : Mb
  fb : Fb
  os : Os
  boot : Rec
  wd : Wd
  pr : Pr
  tp : Tp
  /-- Commands that wait, first in, first out. -/
  pending : List Instr
deriving DecidableEq, Repr

/-- No command ends in a fault: the specification gives every command of the table an effect. -/
inductive Fault where
deriving DecidableEq, Repr

/-- Why a command has no meaning. -/
inductive Refusal where
  /-- Raised by the dispatcher for a command whose meaning is not written; safe. -/
  | notModelled (mnemonic : String)
deriving DecidableEq, Repr

/-- The machine right after power-on: every part at the reset value its table gives, the device reset still asserted
(R29, R30), nothing pending. -/
def State.reset : State where
  clk := {}
  sel := Vector.replicate 10 {}
  gc := {}
  ch := Vector.replicate 32 {}
  port := Vector.replicate 32 {}
  grLog := {}
  ve := {}
  ec := {}
  st := {}
  bt := {}
  inst := Vector.replicate 64 {}
  sq := {}
  pd := {}
  he := {}
  kv := {}
  lc := {}
  otp := []
  mb := {}
  fb := {}
  os := {}
  boot := {}
  wd := {}
  pr := {}
  tp := {}
  pending := []

end Sys2Proof.Machine
end

