-- ==== Sys2Proof/Machine/Ops.lean ====
section
/-! DEFINITION. The named operations every family uses: the selector copies of the masters, time, free values, updates
of one channel or port, and the log rings with their space rules. -/

namespace Sys2Proof.Machine

/-- A master's place among the ten copies of the selector registers (R68). -/
def mIdx : Master → Fin 10
  | .core c => ⟨c.val, by omega⟩
  | .ext x => ⟨x.val + 4, by omega⟩

/-- The requester is a core of the hearth. -/
def isCore : Master → Bool
  | .core _ => true
  | .ext _ => false

/-- Another requester's write of an object has been taken in this cycle: `x` is the last one taken.
Log entry 2 (DESIGN CHOICE). -/
def takenNow {α : Type} [DecidableEq α] (x : Option (Nat × α)) (now : Nat) (a : α) : Bool :=
  match x with
  | some (t, b) => decide (t = now) && decide (b ≠ a)
  | none => false

/-- This master's selector copies. -/
def selOf (s : State) (m : Master) : Sel := s.sel[mIdx m]

/-- Change this master's selector copies. -/
def modSel (s : State) (m : Master) (f : Sel → Sel) : State :=
  { s with sel := s.sel.set (mIdx m) (f s.sel[mIdx m]) }

/-- Change one channel. -/
def modCh (s : State) (c : Ch) (f : Chan → Chan) : State := { s with ch := s.ch.set c (f s.ch[c]) }

/-- Change the raw-transfer state of a port. -/
def modRaw (s : State) (c : Ch) (f : Raw → Raw) : State := modCh s c (fun k => { k with raw := f k.raw })

/-- Change one flash-side port. -/
def modPort (s : State) (p : Ch) (f : Port → Port) : State := { s with port := s.port.set p (f s.port[p]) }

/-- The channels in ascending order. -/
def allCh : List Ch := List.finRange 32

/-- Do something for every channel in ascending order. -/
def forCh (s : State) (f : State → Ch → State) : State := allCh.foldl f s

/-- Core cycles in a microsecond and in a millisecond (500 MHz, R27). -/
def usCyc (n : Nat) : Nat := 500 * n
def msCyc (n : Nat) : Nat := 500000 * n

/-- Microseconds since the structure lock, low 32 bits: TIME of the records of Tables 3.6, 4.10, 5.3 and 9.9. -/
def usLock (s : State) : Nat := ((s.clk.now - s.clk.lockAt) / 500) % 2 ^ 32

/-- A time-driven event takes place no earlier than its deadline: the clock stands there at the least.
Log entries 3 (DESIGN CHOICE), 59 (DESIGN CHOICE). -/
def reachTime (s : State) (t : Nat) : State := { s with clk := { s.clk with now := max s.clk.now t } }

/-- The counter from which the next free value is drawn, advanced by `n`.
Log entry 9 (DESIGN CHOICE). -/
def useFree (s : State) (n : Nat) : State := { s with clk := { s.clk with free := s.clk.free + n } }

/-- This unit is the banked unit of a pair: its records carry CH[6] (Tables 3.6, 4.10, 5.3). -/
def isBanked (s : State) : Bool := s.pr.fitted && !s.pr.burning

/-- The I/O bank of a channel's pins and of its HRST_N (Table 17.2). -/
def chanBank (c : Nat) : Nat := if c < 8 then c / 2 else c / 4 + 2

/-- An I/O bank's supply is in range: the lines of a bank that is not are undriven (R284). -/
def bankUp (s : State) (b : Nat) : Bool := s.pd.bankOk.getLsbD b

/-! Log rings (R96-R97, R136-R137, R174, R295). -/

/-- Records written and not drained, in a ring of `n` records whose positions count modulo 2n. -/
def ringUsed (n : Nat) (r : LogRing) : Nat := (r.head + 2 * n - r.tail) % (2 * n)

/-- Free records: those neither undrained nor reserved. -/
def ringFree (n : Nat) (r : LogRing) : Nat := n - ringUsed n r - r.reserved

/-- Write a record at HEAD and advance it; the record takes the next SEQ. -/
def ringPut (n now : Nat) (r : LogRing) (rec : BitVec 128) : LogRing :=
  { r with head := (r.head + 1) % (2 * n), recs := aput r.recs (r.head % n) rec
           times := r.times ++ [now], seq := (r.seq + 1) % 256 }

/-- Count a record that is not made; LOST saturates at 0xFFFF. -/
def ringLose (r : LogRing) : LogRing := { r with lost := satAdd 0xFFFF r.lost 1 }

/-- The record shown at an index of the ring. -/
def ringRec (r : LogRing) (i : Nat) : BitVec 128 := (aget r.recs i).getD 0

/-- The record's bytes as a 128-bit value, byte 0 most significant (R3). -/
def recOf (bs : List Byte) : BitVec 128 := BitVec.ofNat 128 (beNat bs)

/-- Word `i` of a record as the REC registers show it. -/
def recWord (r : BitVec 128) (i : Nat) : Word := BitVec.ofNat 32 (r.toNat >>> (32 * (3 - i)))

/-- CH byte of a record: channel, and bit 6 for a banked unit. -/
def chByte (s : State) (c : Nat) (alt : Bool) : Nat := c + 32 * b2n alt + 64 * b2n (isBanked s)

/-- The grate log has more than 32 records free (R97). -/
def grRoom (s : State) : Bool := 32 < ringFree 2048 s.grLog

/-- Write a grate record (Table 3.6) under the space rules of R97: ESC needs one free record, every other kind more than
32. A record not made is counted. CH[5] is the profile under which the transaction ran (R18). -/
def grRecord (s : State) (c : Ch) (kind : Nat) (op : Byte) (desc addr units verdict : Nat) : State :=
  let free := ringFree 2048 s.grLog
  if (kind = 2 ∧ 0 < free) ∨ 32 < free then
    let k := s.ch[c]
    let bs := beBytes 4 (usLock s) ++ [BitVec.ofNat 8 (chByte s c.val k.txnAlt), BitVec.ofNat 8 kind, op,
      BitVec.ofNat 8 desc] ++ beBytes 4 addr ++ beBytes 2 (min units 0xFFFF) ++
      [BitVec.ofNat 8 verdict, BitVec.ofNat 8 k.grSeq]
    modCh { s with grLog := ringPut 2048 s.clk.now s.grLog (recOf bs) } c (fun k => { k with grSeq := (k.grSeq + 1) % 256 })
  else { s with grLog := ringLose s.grLog }

/-- VE_STATUS.EVLOG_LOW (R137). -/
def evLow (s : State) : Bool := ringFree 512 s.ve.log ≤ 16

/-- Set VE_INT_STS.EVLOG_LOW where EVLOG_LOW has become set since `old`. -/
def evLowSet (old : Bool) (s : State) : State :=
  if evLow s && !old then { s with ve := { s.ve with intSts := setBit s.ve.intSts 7 } } else s

/-- A verification event record (Table 4.10).
Log entry 19 (DESIGN CHOICE, DEDUCED). -/
def veRec (s : State) (c kind bind info obj win : Nat) : BitVec 128 :=
  recOf (beBytes 4 (usLock s) ++ [BitVec.ofNat 8 (chByte s c false), BitVec.ofNat 8 kind, BitVec.ofNat 8 bind,
    BitVec.ofNat 8 info] ++ beBytes 4 obj ++ beBytes 2 (min win 0xFFFF) ++ [0, BitVec.ofNat 8 s.ve.log.seq])

/-- Record an event outside reservations: essential kinds while a record is free, others only while EVLOG_LOW is 0
(R137, Table 4.11). -/
def veRecord (s : State) (c kind bind info obj win : Nat) (essential : Bool) : State :=
  let free := ringFree 512 s.ve.log
  if (essential ∧ 0 < free) ∨ 16 < free then
    evLowSet (evLow s) { s with ve := { s.ve with log := ringPut 512 s.clk.now s.ve.log (veRec s c kind bind info obj win) } }
  else { s with ve := { s.ve with log := ringLose s.ve.log } }

/-- Record into a reservation held by a provisional slot, which the record uses up (R137). -/
def veRecordReserved (s : State) (c kind bind info obj win : Nat) : State :=
  let l := { s.ve.log with reserved := s.ve.log.reserved - 1 }
  { s with ve := { s.ve with log := ringPut 512 s.clk.now l (veRec s c kind bind info obj win) } }

/-- Raise VE_INT_STS bit `i`. -/
def veInt (s : State) (i : Nat) : State := { s with ve := { s.ve with intSts := setBit s.ve.intSts i } }

/-- EC_STATUS.LOG_LOW (R171). -/
def ecLow (s : State) : Bool := ringFree 256 s.ec.log ≤ 8

/-- Raise EC_INT_STS bit `i`. -/
def ecInt (s : State) (i : Nat) : State := { s with ec := { s.ec with intSts := setBit s.ec.intSts i } }

/-- Record in the ember-cache log (Tables 5.3 and 5.4): essential kinds while a record is free, others only while
LOG_LOW is 0 (R174). -/
def ecRecord (s : State) (c : Ch) (kind arg old new : Nat) (essential : Bool) : State :=
  let free := ringFree 256 s.ec.log
  if (essential ∧ 0 < free) ∨ 8 < free then
    let low := ecLow s
    let bs := beBytes 4 (usLock s) ++ [BitVec.ofNat 8 (chByte s c.val false), BitVec.ofNat 8 kind, BitVec.ofNat 8 arg,
      BitVec.ofNat 8 s.ec.log.seq] ++ beBytes 4 old ++ beBytes 4 new
    let s := { s with ec := { s.ec with log := ringPut 256 s.clk.now s.ec.log (recOf bs) } }
    if ecLow s && !low then ecInt s 7 else s
  else if essential then { s with ec := { s.ec with log := ringLose s.ec.log } } else s

/-- Record in the sequencer log (Tables 9.9 and 9.10); every record is essential (R295). -/
def sqRecord (s : State) (kind step line mask info : Nat) : State :=
  if 0 < ringFree 64 s.sq.log then
    let bs := beBytes 4 (usLock s) ++ [BitVec.ofNat 8 kind, BitVec.ofNat 8 step, BitVec.ofNat 8 line,
      BitVec.ofNat 8 s.sq.log.seq] ++ beBytes 4 mask ++ beBytes 4 info
    { s with sq := { s.sq with log := ringPut 64 s.clk.now s.sq.log (recOf bs) } }
  else { s with sq := { s.sq with log := ringLose s.sq.log } }

/-- Raise SQ_INT_STS bit `i`. -/
def sqInt (s : State) (i : Nat) : State := { s with sq := { s.sq with intSts := setBit s.sq.intSts i } }

/-- Raise BT_INT_STS bit `i`. -/
def btInt (s : State) (i : Nat) : State := { s with bt := { s.bt with intSts := setBit s.bt.intSts i } }

/-- Raise ST_INT_STS bit `i`. -/
def stInt (s : State) (i : Nat) : State := { s with st := { s.st with intSts := setBit s.st.intSts i } }

/-- A slot is valid under R300: not EMPTY, and every ancestor is the one it was filled under. `n` bounds the chain. -/
def slotValid (s : State) : Nat → Fin 128 → Bool
  | 0, _ => false
  | n + 1, i =>
    let k := s.kv.slots[i]
    decide (k.typ ≠ 0) && (k.isRoot ||
      (if h : k.parent < 128 then slotValid s n ⟨k.parent, h⟩ && decide ((s.kv.slots[k.parent]).gen = k.pgen) else false))

/-- The HSS public key an anchor slot holds, absent where the slot holds none (R187, R133). -/
def anchorPub (s : State) (slot : Fin 128) : Option (List Byte) :=
  let k := s.kv.slots[slot]
  if k.typ = 3 ∧ slotValid s 7 slot then some k.material else none

/-- One byte into the CRC-32 of IEEE 802.3, least significant bit first. -/
def crcBit (c : Word) : Word := (c >>> 1) ^^^ (if c.getLsbD 0 then 0xEDB88320#32 else 0)
def crcByte (c : Word) (b : Byte) : Word :=
  crcBit (crcBit (crcBit (crcBit (crcBit (crcBit (crcBit (crcBit (c ^^^ b.setWidth 32))))))))

/-- A verdict joins the open block of its stream; the 64th closes it (R446). `code` is the verdict as one byte.
Log entry 52 (DEDUCED, DESIGN CHOICE). -/
def foldVerdict (s : State) (perBind : Bool) (idx code : Nat) : State :=
  if !s.pr.fitted then s
  else
    let key := fun (v : VStream) => decide (v.perBind = perBind ∧ v.idx = idx)
    let v : VStream := (s.pr.streams.find? key).getD
      { perBind := perBind, idx := idx, count := 0, crc := BitVec.allOnes 32, no := 0, mine := [], theirs := [] }
    let crc := crcByte v.crc (BitVec.ofNat 8 code)
    let v : VStream := if v.count + 1 = 64 then { v with count := 0, crc := BitVec.allOnes 32, no := v.no + 1, mine := v.mine ++ [(v.no, ~~~crc)] }
      else { v with count := v.count + 1, crc := crc }
    { s with pr := { s.pr with streams := v :: s.pr.streams.filter (fun x => !key x) } }

/-- One byte of the own store, which reads 0xFF where nothing is programmed.
Log entry 8 (DESIGN CHOICE). -/
def osByte (s : State) (a : Nat) : Byte := memGet 0xFF s.os.mem a

/-- Bytes of the own store. -/
def osRead (s : State) (a n : Nat) : List Byte := memRead 0xFF s.os.mem a n

/-- Program own-store bytes: programming clears bits. -/
def osProg (s : State) (a : Nat) (bs : List Byte) : State :=
  { s with os := { s.os with mem := memAnd 0xFF s.os.mem a bs } }

/-- Erase own-store bytes. -/
def osErase (s : State) (a n : Nat) : State := { s with os := { s.os with mem := memErase s.os.mem a n } }

end Sys2Proof.Machine
end

