-- ==== Sys2Proof/Machine/Otp.lean ====
section
/-! DEFINITION. The OTP and what the life-cycle engine decodes from it (R319-R326, R333): every gate and status field of
chapter 11 is a function of the programmed bytes. -/

namespace Sys2Proof.Machine

/-- One OTP byte; unprogrammed bits read 0.
Log entry 8 (DESIGN CHOICE). -/
def otpByte (s : State) (a : Nat) : Byte := memGet 0 s.otp a

/-- OTP bytes. -/
def otpRead (s : State) (a n : Nat) : List Byte := memRead 0 s.otp a n

/-- Program bits: a bit once programmed stays programmed. -/
def memOr (m : List Host.Cell) (a : Nat) : List Byte → List Host.Cell
  | [] => m
  | b :: bs => memOr (memSet 0 m a (memGet 0 m a ||| b)) (a + 1) bs

/-- Program OTP bytes. -/
def otpProg (s : State) (a : Nat) (bs : List Byte) : State := { s with otp := memOr s.otp a bs }

/-- SERIAL as eight bytes, and AOLOSS_ASH and CWD_HW (Table 11.2). -/
def otpSerial (s : State) : List Byte := otpRead s 0x0B0 8
def serialNum (s : State) : BitVec 64 := BitVec.ofNat 64 (beNat (otpSerial s))
def optAolossAsh (s : State) : Bool := (otpByte s 0x0B8).getLsbD 0
def optCwdHw (s : State) : Bool := (otpByte s 0x0B8).getLsbD 1

/-- Programmed bits of a thermometer of `n` bytes. -/
def popByte (b : Byte) : Nat := (List.range 8).foldl (fun a i => a + b2n (b.getLsbD i)) 0
def thermCount (s : State) (a n : Nat) : Nat := (otpRead s a n).foldl (fun c b => c + popByte b) 0

/-- Program the next bit of a thermometer whose count is `c`. -/
def thermBit (s : State) (a c : Nat) : State := otpProg s (a + c / 8) [1#8 <<< (c % 8)]

/-- Program bits of the anti-rollback thermometer from `c` up, `n` of them (R202).
Log entry 26 (DEDUCED, DESIGN CHOICE). -/
def arbProgram (s : State) (c n : Nat) : State := (List.range n).foldl (fun s i => thermBit s 0x300 (c + i)) s

/-- The anti-rollback count C: the highest programmed bit plus 1, which is the first unprogrammed one where no bit above it is
programmed (R200).
Log entry 26 (DEDUCED, DESIGN CHOICE). -/
def arbCount (s : State) : Nat :=
  (List.range 256).foldl (fun c n => if (otpByte s (0x300 + n / 8)).getLsbD (n % 8) then n + 1 else c) 0

/-- The OTP thermometer count of tamper alarms (R468). -/
def tamperCount (s : State) : Nat := thermCount s 0x320 64

/-- A flag reads as set once any of its 32 bits is programmed (R322). -/
def otpFlag (s : State) (a : Nat) : Bool := (otpRead s a 4).any (· ≠ 0)

/-- Base of owner generation block g (Table 11.2). -/
def genBase (g : Nat) : Nat := 0x100 + 0x80 * g

/-- PROV, REV and DBG flags of a generation. -/
def provFlag (s : State) (g : Nat) : Bool := otpFlag s (genBase g + 0x68)
def revFlag (s : State) (g : Nat) : Bool := otpFlag s (genBase g + 0x6C)
def dbgFlag (s : State) (g : Nat) : Bool := otpFlag s (genBase g + 0x70)

/-- The owner seed OS_g, the digests SKEY and DKEY. -/
def genSeed (s : State) (g : Nat) : List Byte := otpRead s (genBase g) 32
def genSkey (s : State) (g : Nat) : List Byte := otpRead s (genBase g + 0x20) 32
def genDkey (s : State) (g : Nat) : List Byte := otpRead s (genBase g + 0x40) 32

/-- ASCII bytes of a string. -/
def ascii (t : String) : List Byte := t.toList.map (fun c => BitVec.ofNat 8 c.toNat)

/-- SEED_CHK of a seed (Table 11.3), and the check of a UDS candidate (R322). -/
def seedChk (seed : List Byte) : List Byte := (digBytes (sha256 (ascii "TZ-SEED" ++ seed))).take 8
def udsChk (uds : List Byte) : List Byte := (digBytes (sha256 (ascii "TZ-UDS" ++ uds))).take 8

/-- The stored check of a generation's seed matches. -/
def seedGood (s : State) (g : Nat) : Bool := otpRead s (genBase g + 0x60) 8 = seedChk (genSeed s g)

/-- A generation counts as revoked (R322, R323). -/
def genRevoked (s : State) (g : Nat) : Bool := revFlag s g || (provFlag s g && !seedGood s g)

/-- The current generation (R323). -/
def curGen (s : State) : Option Nat :=
  [0, 1, 2, 3].find? (fun g => provFlag s g && !revFlag s g && seedGood s g && (List.range g).all (genRevoked s))

/-- The generation a PROVISION would take: the lowest with PROV and REV clear (Table 11.5). -/
def nextGen (s : State) : Option Nat := [0, 1, 2, 3].find? (fun g => !provFlag s g && !revFlag s g)

/-- Where UDS candidate k and its check lie. -/
def udsAt (k : Nat) : Nat := if k = 0 then 0x0C0 else 0x380
def udsGood (s : State) (k : Nat) : Bool := otpRead s (udsAt k + 32) 8 = udsChk (otpRead s (udsAt k) 32)

/-- The UDS (R322). -/
def otpUds (s : State) : Option (List Byte) :=
  if udsGood s 0 then some (otpRead s (udsAt 0) 32) else if udsGood s 1 then some (otpRead s (udsAt 1) 32) else none

/-- The first UDS candidate that is all zero (Table 11.5). -/
def udsFree (s : State) : Option Nat := [0, 1].find? (fun k => (otpRead s (udsAt k) 32).all (· = 0))

/-- Stage codewords S1, S2, S3 (Table 11.4). -/
def stageWord : Nat → Nat
  | 1 => 0x5AC396E14B2D78A50F3CB4D21E876999
  | 2 => 0xC35A1E69D2B4873CA50F2D4B9678E155
  | _ => 0x996633CCAA55F00F3CC35AA569960FF0

/-- The four classes of a codeword (R324). -/
inductive StageCls where
  | clear | full | part | bad
deriving DecidableEq, Repr

/-- Class of codeword k (R324). -/
def stageCls (s : State) (k : Nat) : StageCls :=
  let v := beNat (otpRead s (16 * (k - 1)) 16)
  if v = 0 then .clear
  else if v = stageWord k then .full
  else if v ||| stageWord k = stageWord k then .part
  else .bad

/-- Forms of a transition-intent slot (R326). -/
inductive MarkForm where
  | free | complete | torn
deriving DecidableEq, Repr

/-- Where slot i lies. -/
def markAt (i : Nat) : Nat := 0x030 + 8 * i
def markOp (s : State) (i : Nat) : Nat := (otpByte s (markAt i)).toNat
def markGen (s : State) (i : Nat) : Nat := (otpByte s (markAt i + 1)).toNat
def markDone (s : State) (i : Nat) : Bool := otpFlag s (markAt i + 4)

/-- The form of slot i. -/
def markForm (s : State) (i : Nat) : MarkForm :=
  if (otpRead s (markAt i) 8).all (· = 0) then .free
  else if otpByte s (markAt i + 2) = ~~~(otpByte s (markAt i)) ∧ otpByte s (markAt i + 3) = ~~~(otpByte s (markAt i + 1))
    then .complete
  else .torn

/-- The open marks (R326). -/
def openMarks (s : State) : List Nat := (List.range 16).filter (fun i => markForm s i = .complete && !markDone s i)

/-- Free slots. -/
def freeMarks (s : State) : List Nat := (List.range 16).filter (fun i => markForm s i = .free)

/-- Is the operation and generation of a mark of a form the engine knows (Table 11.5)? -/
def markKnown (op g : Nat) : Bool :=
  ((op = 0x11 || op = 0x22 || op = 0x33) && g = 0) || ((op = 0x66 || op = 0x44 || op = 0x55) && g ≤ 3)

/-- The stages admit a transition that a mark leaves open. -/
def stagesAdmit (s : State) (op : Nat) : Bool :=
  if op = 0x11 then stageCls s 2 = .clear && stageCls s 3 = .clear
  else if op = 0x22 then stageCls s 1 = .full && stageCls s 3 = .clear
  else if op = 0x33 then stageCls s 1 = .full && stageCls s 2 = .full
  else stageCls s 1 = .full && stageCls s 2 = .full && stageCls s 3 = .clear

/-- Life-cycle states; the value is LC_STATUS.STATE. -/
inductive LcState where
  | blank | test | production | eol | invalid
deriving DecidableEq, Repr

/-- LC_STATUS.STATE of a state. -/
def lcCode : LcState → Nat
  | .blank => 0
  | .test => 1
  | .production => 2
  | .eol => 3
  | .invalid => 7

/-- A codeword that is not CLEAR stands above one that is not FULL (R325).
Log entry 43 (DEDUCED, DESIGN CHOICE). -/
def stageOrderBad (s : State) : Bool :=
  [2, 3].any (fun k => stageCls s k ≠ .clear && (List.range (k - 1)).any (fun j => stageCls s (j + 1) ≠ .full))

/-- The life-cycle state (R325); an open TO_TEST mark with no candidate to take is INVALID (R328).
Log entry 43 (DEDUCED, DESIGN CHOICE). -/
def lcState (s : State) : LcState :=
  let om := openMarks s
  if [1, 2, 3].any (fun k => stageCls s k = .bad) || stageOrderBad s || decide (1 < om.length) ||
      om.any (fun i => !markKnown (markOp s i) (markGen s i) || !stagesAdmit s (markOp s i)) ||
      (stageCls s 1 = .full && (otpUds s).isNone && !om.any (fun i => markOp s i = 0x11)) ||
      (om.any (fun i => markOp s i = 0x11) && (otpUds s).isNone && (udsFree s).isNone)
  then .invalid
  else if stageCls s 3 = .full then .eol
  else if stageCls s 2 = .full then .production
  else if stageCls s 1 = .full then .test
  else .blank

/-- The states an open mark joins, or the state alone (R325). -/
def lcStates (s : State) : List LcState :=
  let st := lcState s
  match openMarks s with
  | [i] =>
    if st = .invalid then [st]
    else if markOp s i = 0x11 then [.blank, .test]
    else if markOp s i = 0x22 then [.test, .production]
    else if markOp s i = 0x33 then [.production, .eol]
    else [st]
  | _ => [st]

/-- Debug is reopened (R333). -/
def dbgReopened (s : State) : Bool :=
  lcState s = .production && (curGen s).isNone &&
    (match [3, 2, 1, 0].find? (revFlag s) with | some g => dbgFlag s g | none => false)

/-- Debug is open (R334). -/
def dbgOpen (s : State) : Bool :=
  (lcStates s).all (fun x => match x with
    | .blank | .test | .eol => true
    | .production => dbgReopened s
    | .invalid => false)

/-- Factory test modes are open (Table 11.1). -/
def factoryOpen (s : State) : Bool := (lcStates s).all (fun x => x = .blank || x = .test)

/-- Kindling is started in this state (Table 11.1). -/
def kindlingState (s : State) : Bool := (lcStates s).all (fun x => x = .test || x = .production)

/-- The test root is present (Table 11.1). -/
def testState (s : State) : Bool := (lcStates s).all (· = .test)

/-- A zeroising transition's mark is open (R329).
Log entry 43 (DEDUCED, DESIGN CHOICE). -/
def zeroMark (s : State) : Bool := (openMarks s).any (fun i => [0x22, 0x33, 0x44, 0x55].contains (markOp s i))

/-- END_OF_LIFE or INVALID: external masters read GC and LC only, and the vault is in ash (R320). -/
def lcDead (s : State) : Bool := lcState s = .eol || lcState s = .invalid

/-- An OTP byte as the shadow and the system bus show it: the secret ranges read 0 (R321). -/
def otpSecret (a : Nat) : Bool :=
  (0x0C0 ≤ a && a < 0x0E8) || (0x380 ≤ a && a < 0x3A8) ||
    (0x100 ≤ a && a < 0x300 && (a % 0x80 < 0x20 || (0x60 ≤ a % 0x80 && a % 0x80 < 0x68)))
def otpShadow (s : State) (a : Nat) : Byte := if otpSecret a then 0 else otpByte s a

end Sys2Proof.Machine
end

