-- ==== Sys2Proof/Machine/HearthRam.lean ====
section
/-! DEFINITION. Hearth RAM as its users address it (Table 8.2, R235, R238), and keyed hashes over byte strings. -/

namespace Sys2Proof.Machine

/-- HMAC-SHA-256 under a key of at most 64 bytes. -/
def hmacB (key m : List Byte) : Digest :=
  let k := padTo 64 0 key
  sha256 (k.map (· ^^^ 0x5C#8) ++ digBytes (sha256 (k.map (· ^^^ 0x36#8) ++ m)))

/-- HKDF-Extract and HKDF-Expand of RFC 5869 with SHA-256 over byte strings, up to 64 bytes of output. -/
def extractB (salt ikm : List Byte) : List Byte := digBytes (hmacB salt ikm)
def expandB (prk info : List Byte) (n : Nat) : List Byte :=
  let t1 := digBytes (hmacB prk (info ++ [1]))
  (t1 ++ digBytes (hmacB prk (t1 ++ info ++ [2]))).take n

/-- Bases and sizes of Table 8.2. -/
def tcmOwn : Nat := 0x10000000
def tcmBase : Nat := 0x11000000
def sharedBase : Nat := 0x20000000
def tcmSize : Nat := 0x40000
def sharedSize : Nat := 0x100000

/-- A range lies in the tightly coupled RAMs by their 0x1100_0000 addresses. -/
def inTcm (a n : Nat) : Bool := tcmBase ≤ a && a + n ≤ tcmBase + 4 * tcmSize

/-- A range lies in shared RAM. -/
def inShared (a n : Nat) : Bool := sharedBase ≤ a && a + n ≤ sharedBase + sharedSize

/-- A range lies in RAM that job DMA and the vault reach. -/
def inRam (a n : Nat) : Bool := inTcm a n || inShared a n

/-- Where a core's address lies in RAM: its own tightly coupled RAM has two addresses. -/
def ramAddr (c : Core) (a : Nat) : Option Nat :=
  if tcmOwn ≤ a ∧ a < tcmOwn + tcmSize then some (tcmBase + tcmSize * c.val + (a - tcmOwn))
  else if inRam a 1 then some a else none

/-- Bytes of hearth RAM.
Log entry 8 (DESIGN CHOICE). -/
def ramRead (s : State) (a n : Nat) : List Byte := memRead 0 s.he.ram a n

/-- A byte of the range is in parity error (R238). -/
def ramBad (s : State) (a n : Nat) : Bool := s.he.bad.any (fun b => a ≤ b && b < a + n)

/-- The word a reservation covers meets the range. -/
def meetsWord (w a n : Nat) : Bool := a < w + 4 && w < a + n

/-- Store bytes in hearth RAM: parity becomes right and every other requester's reservation of a word written clears
(R235, R238). `by_` is the core that stores.
Log entry 33 (DEDUCED, PRESUMED). -/
def ramWrite (s : State) (by_ : Option Core) (a : Nat) (bs : List Byte) : State :=
  { s with he := { s.he with
    ram := memWrite 0 s.he.ram a bs
    bad := s.he.bad.filter (fun b => !(a ≤ b && b < a + bs.length))
    cores := Vector.ofFn (fun i => let k := s.he.cores[i]
      match k.reserve with
      | some w => if by_ ≠ some i ∧ meetsWord w a bs.length then { k with reserve := none } else k
      | none => k) } }

/-- Mark a byte of hearth RAM as in parity error. -/
def ramSpoil (s : State) (a : Nat) : State :=
  if inRam a 1 ∧ !s.he.bad.contains a then { s with he := { s.he with bad := a :: s.he.bad } } else s

/-- Change one core, or one DMA channel. -/
def modCore (s : State) (c : Core) (f : CoreRt → CoreRt) : State :=
  { s with he := { s.he with cores := s.he.cores.set c (f s.he.cores[c]) } }
def modDma (s : State) (k : Fin 16) (f : DmaCh → DmaCh) : State :=
  { s with he := { s.he with dma := s.he.dma.set k (f s.he.dma[k]) } }

/-- HE_MTIME: microseconds since the device reset (R262). -/
def mtime (s : State) : Nat := (s.clk.now - s.clk.resetAt) / 500

end Sys2Proof.Machine
end

