-- ==== Sys2Proof/Machine/Record.lean ====
section
/-! DEFINITION. Sealed records in two copies of 32 places (R399), the log area (R400), and the own-store layout of
Table 14.1. -/

namespace Sys2Proof.Machine

/-! Suspension of the watchdogs by an own-store erase (R435, R436). -/

/-- Raise WD_INT_STS bit `i`. -/
def wdInt (s : State) (i : Nat) : State := { s with wd := { s.wd with intSts := setBit s.wd.intSts i } }

/-- One step of the challenge register: a Galois LFSR shifting right (R426). -/
def lfsrStep (x : Word) : Word := (x >>> 1) ^^^ (if x.getLsbD 0 then 0x80200003#32 else 0)
def lfsrRun : Nat → Word → Word
  | 0, x => x
  | n + 1, x => lfsrRun n (lfsrStep x)

/-- A watchdog that runs. -/
def wdRuns (k : WdRt) : Bool := k.st = .resetTiming || k.st = .armed

/-- The first cycle of a window: the challenge advances by 32 steps and the closed phase begins, or the open phase where CLOSED
is 0 (R426). -/
def wdWindow (now : Nat) (n : Word) (ext : Bool) (k : WdRt) : WdRt :=
  { k with win := n, lfsr := lfsrRun 32 k.lfsr, at_ := now, ext := ext, extPend := ext
           open_ := ext || decide (k.closedUs = 0) }

/-- An own-store erase is issued: watchdogs and armed task sets are suspended, unless a running watchdog has not taken a stoke
in its extended window (R435, R436).
Log entry 55 (DEDUCED, DESIGN CHOICE). -/
def wdSuspend (s : State) : State :=
  if s.wd.susp.isSome ∨ (List.finRange 5).any (fun w => wdRuns s.wd.w[w] && (s.wd.w[w]).extPend) then s
  else { s with wd := { s.wd with susp := some s.clk.now } }

/-- A suspension ends: extended windows with new challenges, and every period anew (R436).
Log entry 55 (DEDUCED, DESIGN CHOICE). -/
def wdResume (s : State) : State :=
  if s.wd.susp = none then s
  else wdInt { s with wd := { s.wd with
    susp := none
    w := s.wd.w.map (fun k => if wdRuns k then wdWindow s.clk.now (k.win + 1) true k else k)
    ts := s.wd.ts.map (fun r => if r.armed && !r.expired then { r with at_ := s.clk.now, counts := Vector.replicate 16 0 } else r) } } 1

/-- An erase that the device carries out for itself, from its issue to its end: watchdogs and task sets are suspended and resume with it
(R435, R436).
Log entry 53 (DESIGN CHOICE). -/
def ownErase (s : State) (a n : Nat) : State := wdResume (osErase (wdSuspend s) a n)

/-! Layout (R398). -/

/-- Bases of Table 14.1. -/
def osBootRec : Nat := 0x0000
def osMirror : Nat := 0x2000
def osLeaf (j : Fin 2) : Nat := 0x4000 + 0x2000 * j.val
def osSettings : Nat := 0x8000
def osJournal : Nat := 0x10000
def osFw (slot : Nat) : Nat := 0x100000 + 0x200000 * slot
def osStructSlot (slot : Nat) : Nat := 0x500000 + 0x40000 * slot
def osStaging : Nat := 0x600000
def osTrace (c : Ch) (slot : Nat) : Nat := 0x1000000 + 0x40000 * c.val + 0x20000 * slot
def osLog (page : Nat) : Nat := 0x1800000 + 4096 * page

/-- The 64 places of a record kept at `base` in two copies of 4 KiB. -/
def placesOf (base : Nat) : List Nat := (List.range 64).map (fun i => base + 128 * i)

/-- The record in force: the place of highest SEQ, read at byte 8 or as given, whose contents pass `good` (R399). -/
def inForce (s : State) (base seqOfs : Nat) (good : List Byte → Bool) : Option (Nat × List Byte) :=
  (placesOf base).foldl (fun b a =>
    let r := osRead s a 128
    if good r then
      match b with
      | none => some (a, r)
      | some (_, r0) => if be32 r0 seqOfs < be32 r seqOfs then some (a, r) else b
    else b) none

/-- A place is erased. -/
def placeErased (s : State) (a : Nat) : Bool := (osRead s a 128).all (· = 0xFF)

/-- Write a record into the first erased place of the copy that does not hold the record in force, erasing that copy first
where it has none (R399).
Log entry 53 (DESIGN CHOICE). -/
def recWrite (s : State) (base : Nat) (cur : Option Nat) (rec_ : List Byte) : State :=
  let other := match cur with
    | some a => if a < base + 4096 then base + 4096 else base
    | none => base
  match ((List.range 32).map (fun i => other + 128 * i)).find? (placeErased s) with
  | some a => osProg s a rec_
  | none => osProg (ownErase s other 4096) other rec_

/-- The seal over a record's first `n` bytes under a slot's material. -/
def sealOf (key : List Byte) (r : List Byte) (n : Nat) : List Byte := digBytes (hmacB key (r.take n))

/-- An erase is outstanding in the flash: it is not interrupted (R219). -/
def osErasing (s : State) : Bool := match s.os.op with | some o => o.issued.isSome | none => false

/-! The log area (R400): sources 1-6, each with its own open page. -/

/-- Bytes of a record of a source. -/
def logRecLen (src : Nat) : Nat := if src = 5 ∨ src = 6 then 32 else 16
/-- Records a page holds. -/
def logRecMax (src : Nat) : Nat := if logRecLen src = 32 then 127 else 254

/-- A page of the log area is erased. -/
def pageErased (s : State) (p : Nat) : Bool := (osRead s (osLog p) 32).all (· = 0xFF)

/-- Erased pages of the log area. -/
def erasedPages (s : State) : List Nat := (List.range 2048).filter (pageErased s)

/-- The 64 KiB block that holds the lowest page SEQ. -/
def oldestBlock (s : State) : Nat :=
  (((List.range 2048).filter (fun p => !pageErased s p)).foldl (fun b p =>
    let q := be32 (osRead s (osLog p) 32) 8
    match b with
    | none => some (p, q)
    | some (p0, q0) => if q < q0 then some (p, q) else some (p0, q0)) none).elim 0 (fun x => x.1 / 16)

/-- The block of the lowest page SEQ is erased; a page of it that a source had open is open no more (R400).
Log entry 53 (DESIGN CHOICE). -/
def eraseOldest (s : State) : State :=
  let b := oldestBlock s
  let s := ownErase s (osLog (16 * b)) 65536
  { s with os := { s.os with open_ := s.os.open_.filter (fun x => x.2.1 / 16 ≠ b) } }

/-- Open a page for a source: while fewer than 32 erased pages remain, the oldest block is erased first (R400).
Log entry 53 (DESIGN CHOICE). -/
def openPage (s : State) (src : Nat) : State :=
  let s := if (erasedPages s).length < 32 then eraseOldest s else s
  match (erasedPages s).head? with
  | none => s
  | some p =>
    let hdr := beBytes 4 0x545A4C50 ++ beBytes 2 1 ++ [BitVec.ofNat 8 src, 0] ++ beBytes 4 s.os.pageSeq ++ fillBytes 20 0
    let s := osProg s (osLog p) hdr
    { s with os := { s.os with open_ := aput s.os.open_ src (p, 0), pageSeq := s.os.pageSeq + 1 } }

/-- Append a record to a source's open page. -/
def logAppend (s : State) (src : Nat) (r : List Byte) : State :=
  let s := match aget s.os.open_ src with
    | some (_, n) => if n < logRecMax src then s else openPage s src
    | none => openPage s src
  match aget s.os.open_ src with
  | some (p, n) =>
    let s := osProg s (osLog p + 32 + logRecLen src * n) r
    { s with os := { s.os with open_ := aput s.os.open_ src (p, n + 1) } }
  | none => s

end Sys2Proof.Machine
end

