-- ==== Sys2Proof/Machine/Lms.lean ====
section
/-! DEFINITION. LMS and HSS verification (RFC 8554, NIST SP 800-208) with the types of chapter 04: M32 and N24 heights
5-25, Winternitz parameters 1, 2, 4 and 8, one to three levels. -/

namespace Sys2Proof.Machine

/-- An LMS type: node size n and height (RFC 8554 types 5-9; SP 800-208 types 10-14 for n = 24). -/
def lmsType (t : Nat) : Option (Nat × Nat) :=
  if 5 ≤ t ∧ t ≤ 9 then some (32, 5 * (t - 4))
  else if 10 ≤ t ∧ t ≤ 14 then some (24, 5 * (t - 9))
  else none

/-- An LM-OTS type: n, w, p and the checksum shift ls (RFC 8554 types 1-4; SP 800-208 types 5-8 for n = 24). -/
def otsType (t : Nat) : Option (Nat × Nat × Nat × Nat) :=
  match t with
  | 1 => some (32, 1, 265, 7)
  | 2 => some (32, 2, 133, 6)
  | 3 => some (32, 4, 67, 4)
  | 4 => some (32, 8, 34, 0)
  | 5 => some (24, 1, 200, 8)
  | 6 => some (24, 2, 101, 6)
  | 7 => some (24, 4, 51, 4)
  | 8 => some (24, 8, 26, 0)
  | _ => none

/-- Bytes of one LMS signature of the types given: q, the OTS signature, the type, the path. -/
def lmsSigLen (lt ot : Nat) : Option Nat :=
  match lmsType lt, otsType ot with
  | some (n, h), some (_, _, p, _) => some (12 + n * (p + 1) + n * h)
  | _, _ => none

/-- Bytes of an LMS public key: type, OTS type, I and root. -/
def lmsPubLen (lt : Nat) : Nat := 24 + (match lmsType lt with | some (n, _) => n | none => 32)

/-- Truncated SHA-256: the first n bytes. -/
def hashN (n : Nat) (m : List Byte) : List Byte := (digBytes (sha256 m)).take n

/-- Coefficient i of a string in w-bit digits (RFC 8554 section 3.1.3). -/
def otsCoef (s : List Byte) (i w : Nat) : Nat :=
  ((byteAt s (i * w / 8)).toNat >>> (8 - (w * (i % (8 / w)) + w))) % 2 ^ w

/-- The checksum of the message representative Q (RFC 8554 section 4.4). -/
def otsCksm (q : List Byte) (n w ls : Nat) : Nat :=
  (((List.range (n * 8 / w)).foldl (fun a i => a + (2 ^ w - 1 - otsCoef q i w)) 0) <<< ls) % 65536

/-- Complete one chain from `a` to 2^w - 1; `k` bounds the steps left. -/
def otsChain (n : Nat) (pre : List Byte) (i : Nat) : Nat → Nat → List Byte → List Byte
  | 0, _, x => x
  | k + 1, j, x => otsChain n pre i k (j + 1) (hashN n (pre ++ beBytes 2 i ++ beBytes 1 j ++ x))

/-- The candidate OTS key of a signature (RFC 8554 algorithm 4b). -/
def otsCand (I : List Byte) (q : Nat) (sig msg : List Byte) (n w p ls : Nat) : List Byte :=
  let pre := I ++ beBytes 4 q
  let C := slice sig 4 n
  let Q := hashN n (pre ++ [0x81#8, 0x81#8] ++ C ++ msg)
  let Qc := Q ++ beBytes 2 (otsCksm Q n w ls)
  let z := (List.range p).flatMap (fun i =>
    let a := otsCoef Qc i w
    otsChain n pre i (2 ^ w - 1 - a) a (slice sig (4 + n + i * n) n))
  hashN n (pre ++ [0x80#8, 0x80#8] ++ z)

/-- Climb the path from a node to the root; `r` is the node number (RFC 8554 algorithm 6a). -/
def lmsClimb (n : Nat) (I : List Byte) : List (List Byte) → Nat → List Byte → List Byte
  | [], _, x => x
  | y :: ys, r, x =>
    let pair := if r % 2 = 1 then y ++ x else x ++ y
    lmsClimb n I ys (r / 2) (hashN n (I ++ beBytes 4 (r / 2) ++ [0x83#8, 0x83#8] ++ pair))

/-- Verify one LMS signature: `pub` is type, OTS type, I, root (R115). -/
def lmsVerify (pub sig msg : List Byte) : Bool :=
  let lt := be32 pub 0
  let ot := be32 pub 4
  match lmsType lt, otsType ot with
  | some (n, h), some (n', w, p, ls) =>
    let I := slice pub 8 16
    let root := slice pub 24 n
    let q := be32 sig 0
    let ots := slice sig 4 (4 + n * (p + 1))
    let path := slice sig (12 + n * (p + 1)) (n * h)
    if n = n' ∧ be32 sig 4 = ot ∧ be32 sig (8 + n * (p + 1)) = lt ∧ q < 2 ^ h ∧ sig.length = 12 + n * (p + 1) + n * h then
      let kc := otsCand I q ots msg n w p ls
      let leaf := hashN n (I ++ beBytes 4 (2 ^ h + q) ++ [0x82#8, 0x82#8] ++ kc)
      decide (lmsClimb n I (chunks n h path) (2 ^ h + q) leaf = root)
    else false
  | _, _ => false

/-- The outcome of an HSS check. -/
inductive HssResult where
  /-- Signed by the key. -/
  | pass
  /-- Level count or types not acceptable: rejection reason 6 of Table 4.4. -/
  | types
  /-- Types acceptable, length not the one they give: rejection reason 5. -/
  | length
  /-- Types acceptable, signature invalid: rejection reason 7. -/
  | invalid
deriving DecidableEq, Repr

/-- The two type fields inside one level's LMS signature, the LM-OTS type and the LMS type, are not those of its key (R108, R177). -/
def sigTypesBad (key sig : List Byte) : Bool :=
  match otsType (be32 key 4) with
  | some (n, _, p, _) => be32 sig 4 ≠ be32 key 4 || be32 sig (8 + n * (p + 1)) ≠ be32 key 0
  | none => true

/-- Walk the signed public keys of an HSS signature: (types acceptable, exact length, every level verifies). `same`
demands the anchor's types at every level (R177); otherwise lower levels carry any supported types (R108). The types stand in the
bytes the walk is given; the length declared for what is left of them is `len`. -/
def hssWalk (same : Option (Nat × Nat)) (msg : List Byte) : Nat → List Byte → List Byte → Nat → HssResult
  | 0, key, sig, len =>
    match lmsSigLen (be32 key 0) (be32 key 4) with
    | none => .types
    | some n =>
      if sigTypesBad key sig then .types
      else if len ≠ n then .length
      else if lmsVerify key (sig.take n) msg then .pass else .invalid
  | k + 1, key, sig, len =>
    match lmsSigLen (be32 key 0) (be32 key 4) with
    | none => .types
    | some n =>
      if sigTypesBad key sig then .types
      else
        let rest := sig.drop n
        let lt := be32 rest 0
        let ot := be32 rest 4
        let okT := (match same with
          | some (a, b) => decide (lt = a ∧ ot = b)
          | none => (lmsType lt).isSome && (otsType ot).isSome &&
              decide ((lmsType lt).map (·.1) = (otsType ot).map (·.1)))
        if !okT then .types
        else
          let pk := rest.take (lmsPubLen lt)
          match hssWalk same msg k pk (rest.drop (lmsPubLen lt)) (len - (n + lmsPubLen lt)) with
          | .types => .types
          | .length => .length
          | r => if lmsVerify key (sig.take n) pk then r else .invalid

/-- HSS verification with a 60-byte key: u32 L, LMS type, LM-OTS type, I, root (R175, R187), of a signature that begins `sig` and whose
declared length is `len` (R108). -/
def hssCheck (sameTypes : Bool) (key sig : List Byte) (len : Nat) (msg : List Byte) : HssResult :=
  let L := be32 key 0
  let top := key.drop 4
  if L < 1 ∨ 3 < L then .types
  else if be32 sig 0 ≠ L - 1 then .types
  else hssWalk (if sameTypes then some (be32 key 4, be32 key 8) else none) msg (L - 1)
    (top.take (lmsPubLen (be32 key 4))) (sig.drop 4) (len - 4)

/-- HSS verification of a signature given whole.
Log entry 42 (DESIGN CHOICE). -/
def hssVerify (sameTypes : Bool) (key sig msg : List Byte) : HssResult := hssCheck sameTypes key sig sig.length msg

/-- The LMS and LM-OTS types of each level of an HSS signature, from the top, as far as they are supported. -/
def hssTypes : Nat → List Byte → List Byte → List (Nat × Nat)
  | 0, key, _ => if (lmsSigLen (be32 key 0) (be32 key 4)).isSome then [(be32 key 0, be32 key 4)] else []
  | k + 1, key, sig =>
    match lmsSigLen (be32 key 0) (be32 key 4) with
    | none => []
    | some n =>
      let rest := sig.drop n
      let len := lmsPubLen (be32 rest 0)
      (be32 key 0, be32 key 4) :: hssTypes k (rest.take len) (rest.drop len)

/-- Costs in blocks of the jobs that verify one LMS level over a message of `m` blocks, on at most four engines: the chains are
spread evenly, and the first job also hashes the message, the key, the leaf and the path (R115, Table 4.5). -/
def lmsJobs (lt ot m : Nat) : List Nat :=
  match lmsType lt, otsType ot with
  | some (_, h), some (n, w, p, _) =>
    let share := fun (i : Nat) => (p + 3 - i) / 4 * (2 ^ w - 1)
    (m + share 0 + cdiv (22 + p * n + 9) 64 + 1 + 2 * h) :: [share 1, share 2, share 3]
  | _, _ => []

/-- Costs of the jobs of an HSS check over a message of `len` bytes: every level at once, 2 blocks for a lower level's public key
(R115). -/
def hssJobs (key sig : List Byte) (len : Nat) : List Nat :=
  let L := be32 key 0
  if L < 1 ∨ 3 < L then []
  else
    let ts := hssTypes (L - 1) (key.drop 4) (sig.drop 4)
    (List.range ts.length).flatMap (fun i => match ts[i]? with
      | some (lt, ot) => lmsJobs lt ot (if i + 1 = L then cdiv (22 + 32 + len + 9) 64 else 2)
      | none => [])

/-- The length of an HSS signature whose every level has the given types (R177). -/
def hssLen (L lt ot : Nat) : Option Nat :=
  match lmsSigLen lt ot with
  | some n => some (4 + (L - 1) * (n + lmsPubLen lt) + n)
  | none => none

end Sys2Proof.Machine
end

