-- ==== Sys2Proof/Machine/Arbiter.lean ====
section
/-! DEFINITION. The discipline every arbiter of the device shares: weighted deficit round robin with aging (R215). -/

namespace Sys2Proof.Machine

/-- The head of queue `q`: its first entry. -/
def arbHead (a : Arb) (q : Nat) : Option QItem := a.items.find? (fun i => i.q = q)

/-- Enter a queue at its end. -/
def arbPush (a : Arb) (i : QItem) : Arb := { a with items := a.items ++ [i] }

/-- Return to the head of its own queue, ahead of every entry of it; `aged` keeps its aging (R117, R217). -/
def arbPushFront (a : Arb) (i : QItem) (aged : Bool) : Arb :=
  { a with items := i :: a.items, aged := if aged then (i.id, 0) :: a.aged else a.aged }

/-- Remove an entry wherever it stands. -/
def arbDrop (a : Arb) (id : Nat) : Arb :=
  { a with items := a.items.filter (fun i => i.id ≠ id), aged := a.aged.filter (fun e => e.1 ≠ id) }

/-- Is `i` the head of its queue? -/
def arbIsHead (a : Arb) (i : QItem) : Bool := (arbHead a i.q).map (·.id) = some i.id

/-- Append to the aged list every head that has waited for the age limit and is not in it yet. -/
def arbAge (now age : Nat) (a : Arb) : Arb :=
  { a with aged := a.aged ++ (a.items.filter (fun i =>
      arbIsHead a i && decide (i.enq + age ≤ now) && !a.aged.any (fun e => e.1 == i.id))).map (fun i => (i.id, now)) }

/-- The ring walk of R215: `r` queues, quantum `Q`, weights `w`; `k` bounds the turns. -/
def arbLoop (r Q : Nat) (w : Nat → Nat) : Nat → Arb → Option (QItem × Arb)
  | 0, _ => none
  | k + 1, a =>
    match arbHead a a.pos with
    | none => arbLoop r Q w k { a with defs := adel a.defs a.pos, pos := (a.pos + 1) % r }
    | some h =>
      let d := (aget a.defs a.pos).getD 0
      if h.cost ≤ d then some (h, arbDrop { a with defs := aput a.defs a.pos (d - h.cost) } h.id)
      else arbLoop r Q w k { a with defs := aput a.defs a.pos (d + Q * w a.pos), pos := (a.pos + 1) % r }

/-- pick() of R215: the oldest aged head, else the ring; also whether the entry had aged. -/
def arbPick (now age r Q : Nat) (w : Nat → Nat) (a : Arb) : Option (QItem × Bool × Arb) :=
  let a := arbAge now age a
  match a.aged with
  | (id, _) :: _ =>
    match a.items.find? (fun i => i.id = id) with
    | some h => some (h, true, arbDrop a id)
    | none => none
  | [] =>
    if a.items.isEmpty then none
    else (arbLoop r Q w (r * (a.items.foldl (fun m i => max m i.cost) 0 / Q + 3)) a).map (fun x => (x.1, false, x.2))

end Sys2Proof.Machine
end

