-- ==== Sys2Proof/Machine/Billets.lean ====
section
/-! DEFINITION. The billet tracker: drawing under R204-R212, retirement, and the squash of a unit with its dependents
(R24, R206). -/

namespace Sys2Proof.Machine

/-- The entries of channel `n`'s reservation for a class (Table 7.1); `prov` names the provisional-completion billets
(R211). -/
def resRange (n : Nat) (k : BilletClass) (prov : Bool) : Nat × Nat :=
  match k with
  | .hs => (32 * n, 2)
  | .ver => (32 * n + 2, 8)
  | .fill => if prov then (32 * n + 10, 8) else (32 * n + 18, 8)
  | .bg => (32 * n + 26, 6)

/-- Pool thresholds (Table 7.2). -/
def poolT : BilletClass → Nat
  | .hs => 96
  | .ver => 64
  | .fill => 32
  | .bg => 1

/-- Lowest entry from `a` up that is FREE. -/
def lowestFree (l : List (Nat × Billet)) (a : Nat) : Nat := l.foldl (fun a e => if e.1 = a then a + 1 else a) a

/-- Pool entries in use. -/
def poolUsed (s : State) : Nat := (s.bt.units.filter (fun e => 1024 ≤ e.1)).length

/-- Floor billets drawn (R210). -/
def floorUsed (s : State) : Nat := (s.bt.units.filter (fun e => e.2.src = .floor)).length

/-- F of R208. -/
def poolF (s : State) : Nat := (3072 - poolUsed s) - (s.bt.arb.devFloor - floorUsed s)

/-- Root pool draws of an owner (R209). -/
def rootPool (s : State) (o : Owner) : Nat :=
  (s.bt.units.filter (fun e => e.2.owner = o && e.2.src = .pool && e.2.parent = none)).length

/-- The cap of R209 leaves room for a root draw of this owner. -/
def capRoom (s : State) (o : Owner) : Bool :=
  match o with
  | .ch c => rootPool s o < s.bt.arb.chs[c].1
  | .inst i => rootPool s o < s.bt.pools[s.inst[i].cfg.pool].cap
  | .hearth => true

/-- Billets of a class not FREE. -/
def useOf (s : State) (k : BilletClass) : Nat := (s.bt.units.filter (fun e => e.2.cls = k)).length

/-- Bring LOW, POOL_T1 and the PEAK fields up to date after a draw; `f0` is F before it.
Log entry 21 (DESIGN CHOICE, DEDUCED). -/
def btTrack (f0 : Nat) (s : State) : State :=
  let f := poolF s
  let b := s.bt
  { s with bt := { b with
      low := min b.low f
      intSts := if 96 ≤ f0 ∧ f < 96 then setBit b.intSts 0 else b.intSts
      peakHs := max b.peakHs (useOf s .hs), peakVer := max b.peakVer (useOf s .ver)
      peakFill := max b.peakFill (useOf s .fill), peakBg := max b.peakBg (useOf s .bg) } }

/-- Put a drawn billet into the tracker. -/
def btPlace (s : State) (id : Nat) (b : Billet) : State :=
  btTrack (poolF s) { s with bt := { s.bt with units := aput s.bt.units id b } }

/-- Dependents of a unit. -/
def depsOf (s : State) (id : Nat) : List Nat := (s.bt.units.filter (fun e => e.2.parent = some id)).map (·.1)

/-- A unit that holds three dependents does not cause a further one (R206).
Log entry 28 (DEDUCED). -/
def depsFull (s : State) (parent : Option Nat) : Bool := match parent with | some id => decide (3 ≤ (depsOf s id).length) | none => false

/-- Draw a billet for a unit of class `k` from the first source of R207 that can supply it. The answer is the entry
drawn, or none where the unit does not start; a draw that a cap refuses sets CAP_HIT (R209).
Log entry 28 (DEDUCED). -/
def draw (k : BilletClass) (o : Owner) (parent : Option Nat) (prov : Bool) (w : Work) (s : State) :
    Option Nat × State :=
  let b := { st := .running, cls := k, owner := o, src := .reservation, parent := parent, drawn := s.clk.now, work := w : Billet }
  let res : Option Nat := match o with
    | .ch c =>
      let (lo, n) := resRange c.val k prov
      let e := lowestFree s.bt.units lo
      if e < lo + n then some e else none
    | _ => none
  if depsFull s parent then (none, s)
  else match res with
  | some e => (some e, btPlace s e b)
  | none =>
    if prov then (none, s)
    else
      let e := lowestFree s.bt.units 1024
      if o = .hearth ∧ floorUsed s < s.bt.arb.devFloor ∧ e < 4096 then (some e, btPlace s e { b with src := .floor })
      else if poolF s < poolT k then (none, s)
      else if parent = none ∧ !capRoom s o then (none, btInt s 1)
      else (some e, btPlace s e { b with src := .pool })

/-- The billet of an entry. -/
def unitOf (s : State) (id : Nat) : Option Billet := aget s.bt.units id

/-- Change what a unit is doing. -/
def setWork (s : State) (id : Nat) (w : Work) : State :=
  match unitOf s id with
  | some b => { s with bt := { s.bt with units := aput s.bt.units id { b with work := w } } }
  | none => s

/-- The tracker's state of a unit: WAITING while it stands in a queue of an arbiter, RUNNING, or PREEMPTED (R205).
Log entry 28 (DEDUCED). -/
def setUnitSt (s : State) (id : Nat) (x : BilletSt) : State :=
  match unitOf s id with
  | some b => { s with bt := { s.bt with units := aput s.bt.units id { b with st := x } } }
  | none => s

/-- The resume point of an interrupted flash-side access, in its billet's context (R49, R205). -/
def setResume (s : State) (id n : Nat) : State :=
  match unitOf s id with
  | some b => { s with bt := { s.bt with units := aput s.bt.units id { b with resume := n } } }
  | none => s

/-- Retire a unit: its billet returns to the tracker (R24). -/
def retire (s : State) (id : Nat) : State := { s with bt := { s.bt with units := adel s.bt.units id } }

/-- The units of a set and every dependent below them, with `k` levels followed (R206). -/
def withDeps (s : State) : Nat → List Nat → List Nat
  | 0, l => l
  | k + 1, l => if l = [] then [] else l ++ withDeps s k (l.flatMap (depsOf s))

/-- The entries whose unit satisfies `p`. -/
def unitsWhere (s : State) (p : Billet → Bool) : List Nat := (s.bt.units.filter (fun e => p e.2)).map (·.1)

end Sys2Proof.Machine
end

