-- ==== Sys2Proof/Machine/Cache.lean ====
section
/-! DEFINITION. Regions, segments, banks and frames: the governing descriptor, the map from a virtual address to a flash
address, the ember cache's frames with their replacement order, and the node cache (chapters 03-05). -/

namespace Sys2Proof.Machine

/-! Fields of a descriptor (GR_RGN_BASE, LIMIT, ACT, AUX). -/
def rgnEn (d : Rgn) : Bool := d.base.getLsbD 0
def rgnBase (d : Rgn) : Nat := bf d.base 12 20
def rgnLimit (d : Rgn) : Nat := bf d.limit 12 20
def rgnRd (d : Rgn) : Nat := bf d.act 0 3
def rgnWr (d : Rgn) : Nat := bf d.act 3 3
def rgnEr (d : Rgn) : Nat := bf d.act 6 3
def rgnMiss (d : Rgn) : Nat := bf d.act 9 2
def rgnMirror (d : Rgn) : Bool := d.act.getLsbD 11
def rgnOpen (d : Rgn) : Bool := d.act.getLsbD 12
def rgnStrict (d : Rgn) : Bool := d.act.getLsbD 13
def rgnClinker (d : Rgn) : Nat := bf d.act 14 2
def rgnLog (d : Rgn) : Bool := d.act.getLsbD 16
def rgnAlert (d : Rgn) : Bool := d.act.getLsbD 17
def rgnAdj (d : Rgn) : Bool := d.act.getLsbD 18
def rgnMbind (d : Rgn) : Nat := bf d.act 24 8
def rgnBset (d : Rgn) : Nat := bf d.aux 0 4
def rgnRedir (d : Rgn) : Nat := bf d.aux 12 20

/-- The descriptors in ascending order. -/
def allRgn : List (Fin 64) := List.finRange 64

/-- The governing descriptor of a page: the lowest-numbered enabled one that covers it (R78). -/
def governing (k : Chan) (page : Nat) : Option (Fin 64) :=
  allRgn.find? (fun i => let d := k.cfg.desc[i]; rgnEn d && decide (rgnBase d ≤ page) && decide (page ≤ rgnLimit d))

/-- The channel's virtual flash has this many bytes. -/
def vflash (k : Chan) : Nat := k.cfg.segs.foldl (fun a g => a + g.size) 0

/-- The host-side port is connected (R41). -/
def connected (k : Chan) : Bool := !k.cfg.segs.isEmpty

/-- The channel has a mirror-mode region. -/
def hasMirror (k : Chan) : Bool := allRgn.any (fun i => rgnEn k.cfg.desc[i] && rgnMirror k.cfg.desc[i])

/-- A descriptor is in the substituted state (R82). -/
def isSubst (k : Chan) (i : Fin 64) : Bool := k.subst.getLsbD i.val

/-- The bank set whose range covers a virtual byte address. -/
def bsetAt (k : Chan) (va : Nat) : Option (Fin 15) :=
  (List.finRange 15).find? (fun i => match k.cfg.bsets[i.val]? with
    | some b => decide (b.vbase ≤ va) && decide (va < b.vbase + b.size)
    | none => false)

/-- The serving bank of a bank set (R150). -/
def servingBank (k : Chan) (i : Fin 15) : BankId :=
  let r := k.bset[i]
  if r.goldSel then .g else if r.activeB then .b else .a

/-- The inactive bank of a bank set (R150). -/
def inactiveBank (k : Chan) (i : Fin 15) : BankId := if k.bset[i].activeB then .a else .b

/-- A bank of a bank set. -/
def bankOf (b : BankSet) : BankId → Option Bank
  | .a => some b.a
  | .b => some b.b
  | .g => b.g

/-- Where a virtual byte address lies in a given bank: port, chip select, flash byte address. Outside bank sets the
segment's own mapping holds (R41, R150).
Log entry 20 (DEDUCED, DESIGN CHOICE). -/
def physIn (k : Chan) (bk : BankId) (va : Nat) : Option (Ch × Bool × Nat) :=
  match bsetAt k va with
  | some i =>
    match k.cfg.bsets[i.val]? with
    | some b => (bankOf b bk).map (fun x => (x.fp, x.cs, x.fbase + (va - b.vbase)))
    | none => none
  | none =>
    (k.cfg.segs.find? (fun g => decide (g.vbase ≤ va) && decide (va < g.vbase + g.size))).map
      (fun g => (g.fp, g.cs, g.fbase + (va - g.vbase)))

/-- The bank that serves a virtual address under the bank map; `gold` where the descriptor is substituted (R82, R150). -/
def bankServing (k : Chan) (gold : Bool) (va : Nat) : BankId :=
  match bsetAt k va with
  | some i => if gold then .g else servingBank k i
  | none => .a

/-- The ember of a virtual address in the bank that serves it. -/
def emberAt (k : Chan) (c : Ch) (i : Fin 64) (gold : Bool) (va : Nat) : Option EmberId :=
  let bk := bankServing k (gold || isSubst k i) va
  (physIn k bk va).map (fun (fp, cs, fa) =>
    { ch := c, fp := fp, cs := cs, fen := fa / 4096, vem := va / 4096, bind := rgnMbind k.cfg.desc[i], bank := bk })

/-! Bindings. -/

/-- A manifest binding of the structure in force. -/
def bindingOf (s : State) (b : Nat) : Option Binding := s.ve.bindings.find? (fun x => x.bind = b)

/-- Key of a bank's verification state. -/
def bankKey (b : Nat) (k : BankId) : Nat := 4 * b + (match k with | .a => 0 | .b => 1 | .g => 2)

/-- Verification state of a bank of a binding. -/
def bankRt (s : State) (b : Nat) (k : BankId) : BankRt := (aget s.ve.banks (bankKey b k)).getD {}

/-- Change it. -/
def setBank (s : State) (b : Nat) (k : BankId) (f : BankRt → BankRt) : State :=
  { s with ve := { s.ve with banks := aput s.ve.banks (bankKey b k) (f (bankRt s b k)) } }

/-- What an ember of a binding's ranges is: a data ember with its leaf index, or a manifest ember with its page number
(R102). -/
inductive EmberObj where
  | data (i : Nat)
  | man (p : Nat)
deriving DecidableEq, Repr

/-- The object a virtual ember is, under its binding. -/
def emberObj (b : Binding) (vem : Nat) : EmberObj :=
  let va := 4096 * vem
  if b.manBase ≤ va ∧ va < b.manBase + 4096 * b.manPages then .man ((va - b.manBase) / 4096)
  else .data ((va - b.vbase) / 4096)

/-- OBJ of a verification event record (Table 4.10). -/
def objCode : EmberObj → Nat
  | .data i => i % 2 ^ 20
  | .man p => 2 * 2 ^ 30 + p % 2 ^ 20

/-- The bank that serves a binding's ranges, and the one that is inactive, under the map (R45, R150). -/
def bindServing (s : State) (b : Binding) : BankId := bankServing s.ch[b.ch] false b.vbase
def bindInactive (s : State) (b : Binding) : Option BankId :=
  (bsetAt s.ch[b.ch] b.vbase).map (inactiveBank s.ch[b.ch])
def bindGold (s : State) (b : Binding) : Bool :=
  match bsetAt s.ch[b.ch] b.vbase with
  | some i => match s.ch[b.ch].cfg.bsets[i.val]? with | some x => x.g.isSome | none => false
  | none => false

/-- [1:0] of INFO: the bank as active, inactive or golden (Table 4.10). -/
def bankInfo (s : State) (b : Binding) (k : BankId) : Nat :=
  if k = .g then 2
  else match bsetAt s.ch[b.ch] b.vbase with
    | some i => if k = inactiveBank s.ch[b.ch] i then 1 else 0
    | none => 0

/-! The clinker list (R128). -/

/-- The ember stands in the clinker list. -/
def isListed (s : State) (bind : Nat) (bk : BankId) (o : EmberObj) : Bool :=
  s.ve.clist.any (fun e => e.bind = bind && e.bank = bk &&
    (match o with | .data i => !e.man && e.idx = i | .man p => e.man && e.idx = p))

/-- The list entry of an object. -/
def clistEnt (bind : Nat) (bk : BankId) (o : EmberObj) : ClinkerEnt :=
  match o with
  | .data i => { bind := bind, bank := bk, man := false, idx := i }
  | .man p => { bind := bind, bank := bk, man := true, idx := p }

/-- Remove the list entries that satisfy `p`; CLIST_FULL falls when the list has room again, which R128 leaves open.
Log entry 63 (DESIGN CHOICE, DEDUCED). -/
def clistDrop (s : State) (p : ClinkerEnt → Bool) : State :=
  let l := s.ve.clist.filter (fun e => !p e)
  { s with ve := { s.ve with clist := l, clistFull := s.ve.clistFull && decide (256 ≤ l.length) } }

/-! The node cache (R109, R113, R114). -/

/-- A resident digest. -/
def nodeGet (s : State) (b : Nat) (bk : BankId) (lv i : Nat) : Option Digest :=
  (s.ve.nodes.find? (fun e => e.bind = b && e.bank = bk && e.level = lv && e.idx = i)).map (·.dig)

/-- Insert a digest as most recently used. A pin past 24,576 entries is not made and sets PIN_FULL; with 32,768 digests
held, the least recently used unpinned one leaves. -/
def nodePut (s : State) (b : Nat) (bk : BankId) (lv i : Nat) (d : Digest) (pin : Bool) : State :=
  let rest := s.ve.nodes.filter (fun e => !(e.bind = b && e.bank = bk && e.level = lv && e.idx = i))
  let was := s.ve.nodes.any (fun e => e.bind = b && e.bank = bk && e.level = lv && e.idx = i && e.pin)
  let pins := (rest.filter (·.pin)).length
  let canPin := (pin || was) && decide (pins < 24576)
  let e : NodeEnt := { bind := b, bank := bk, level := lv, idx := i, dig := d, pin := canPin }
  let rest := if 32768 ≤ rest.length then
      match rest.reverse.find? (fun e => !e.pin) with
      | some v => rest.erase v
      | none => rest
    else rest
  { s with ve := { s.ve with nodes := e :: rest, pinFull := s.ve.pinFull || (pin && !canPin) } }

/-- A digest that a check compares with is the most recently used (R114). -/
def nodeTouch (s : State) (b : Nat) (bk : BankId) (lv i : Nat) : State :=
  let mine := fun (e : NodeEnt) => e.bind = b && e.bank = bk && e.level = lv && e.idx = i
  { s with ve := { s.ve with nodes := s.ve.nodes.filter mine ++ s.ve.nodes.filter (fun e => !mine e) } }

/-- Drop the entries that satisfy `p`. -/
def nodeDrop (s : State) (p : NodeEnt → Bool) : State :=
  { s with ve := { s.ve with nodes := s.ve.nodes.filter (fun e => !p e) } }

/-! Where the node pages of a manifest lie (R106). -/

/-- DEPTH for a number of blocks: the least d with 128^d at least BLOCKS. -/
def manDepth (blocks : Nat) : Nat := if blocks ≤ 128 then 1 else if blocks ≤ 16384 then 2 else 3

/-- Pages of level k (R106). -/
def levelPages (blocks : Nat) : Nat → Nat
  | 0 => blocks
  | k + 1 => cdiv (levelPages blocks k) 128

/-- All node pages. -/
def nodePages (blocks : Nat) : Nat :=
  (List.range (manDepth blocks)).foldl (fun a k => a + levelPages blocks (k + 1)) 0

/-- Index of level-k page j among the stored node pages: top level first (R106). -/
def nodeIndex (blocks k j : Nat) : Nat :=
  (List.range (manDepth blocks)).foldl (fun a l => if k < l + 1 then a + levelPages blocks (l + 1) else a) j

/-- The level and page of the q-th stored node page. -/
def nodeAt (blocks q : Nat) : Option (Nat × Nat) :=
  ([3, 2, 1].filter (· ≤ manDepth blocks)).foldl (fun a k => match a with
    | some x => some x
    | none =>
      let lo := nodeIndex blocks k 0
      if lo ≤ q ∧ q < lo + levelPages blocks k then some (k, q - lo) else none) none

/-- The virtual ember of an object. -/
def objVem (b : Binding) : EmberObj → Nat
  | .data i => b.vbase / 4096 + i
  | .man p => b.manBase / 4096 + p

/-- The ember of an object in a bank. -/
def objEmber (s : State) (b : Binding) (bk : BankId) (o : EmberObj) : Option EmberId :=
  (physIn s.ch[b.ch] bk (4096 * objVem b o)).map (fun (fp, cs, fa) =>
    { ch := b.ch, fp := fp, cs := cs, fen := fa / 4096, vem := objVem b o, bind := b.bind, bank := bk })

/-! Frames (R138-R146). -/

/-- The set of an ember (R139). -/
def setOf (k : Chan) (fen : Nat) : Nat := (fen % 128 + k.cfg.adapt.setOfs) % 128

/-- Two requests name the same ember: channel, port, chip select and FEN (R138). -/
def sameEmber (a b : EmberId) : Bool := a.ch = b.ch && a.fp = b.fp && a.cs = b.cs && a.fen = b.fen

/-- The frame that holds an ember, in any state. -/
def frameOf (s : State) (id : EmberId) : Option (Nat × Frame) := s.ec.frames.find? (fun e => sameEmber e.2.id id)

/-- The frame of a resident ember: VALID (R140). -/
def residentFrame (s : State) (id : EmberId) : Option (Nat × Frame) :=
  s.ec.frames.find? (fun e => sameEmber e.2.id id && e.2.st = .valid)

/-- Occupancy of a channel: its frames not FREE (R144). -/
def occOf (s : State) (c : Ch) : Nat := (s.ec.frames.filter (fun e => e.2.id.ch = c)).length

/-- Frames of one set. -/
def setFrames (s : State) (set : Nat) : List (Nat × Frame) := s.ec.frames.filter (fun e => e.1 / 16 = set)

/-- Make a frame the most recently used of its set. -/
def touchFrame (s : State) (f : Nat) : State :=
  match aget s.ec.frames f with
  | none => s
  | some x =>
    { s with ec := { s.ec with frames := s.ec.frames.map (fun e =>
        if e.1 = f then (e.1, { e.2 with rank := 0 })
        else if e.1 / 16 = f / 16 ∧ e.2.rank < x.rank then (e.1, { e.2 with rank := e.2.rank + 1 })
        else e) } }

/-- Return a frame to FREE; the ranks above it close up. -/
def freeFrame (s : State) (f : Nat) : State :=
  match aget s.ec.frames f with
  | none => s
  | some x =>
    { s with ec := { s.ec with frames := (adel s.ec.frames f).map (fun e =>
        if e.1 / 16 = f / 16 ∧ x.rank < e.2.rank then (e.1, { e.2 with rank := e.2.rank - 1 }) else e) } }

/-- Take a FREE frame for an ember: FILLING, most recently used. -/
def takeFrame (s : State) (f : Nat) (id : EmberId) (pf : Bool) : State :=
  let up := s.ec.frames.map (fun e => if e.1 / 16 = f / 16 then (e.1, { e.2 with rank := e.2.rank + 1 }) else e)
  { s with ec := { s.ec with frames := aput up f { st := .filling, id := id, pin := false, rank := 0, pf := pf, data := [] } } }

/-- Change a frame in place. -/
def setFrame (s : State) (f : Nat) (g : Frame → Frame) : State :=
  match aget s.ec.frames f with
  | none => s
  | some x => { s with ec := { s.ec with frames := aput s.ec.frames f (g x) } }

/-- The least recently used VALID unpinned frame of a list that satisfies `p`. -/
def lruOf (l : List (Nat × Frame)) (p : Frame → Bool) : Option (Nat × Frame) :=
  (l.filter (fun e => e.2.st = .valid && !e.2.pin && p e.2)).foldl (fun a e =>
    match a with
    | none => some e
    | some b => if b.2.rank < e.2.rank then some e else some b) none

/-- A job-DMA channel's descriptor uses a frame. -/
def dmaUses (s : State) (f : Nat) : Bool := s.he.dma.any (fun d => d.frame = some f)

/-- The victim for a fill of channel `c` in a set, with the step of R145 that gave it; a frame that a job-DMA descriptor uses
is no victim, and one freed under it is taken only after that descriptor's next beat (R252). -/
def victim (s : State) (c : Ch) (set : Nat) : Option (Nat × Nat) :=
  let fs := setFrames s set
  let ls := fs.filter (fun e => !dmaUses s e.1)
  let isOver := fun (x : Frame) => decide (s.ch[x.id.ch].quota < occOf s x.id.ch)
  match firstIdx (fun w => (aget fs (16 * set + w)).isNone && !dmaUses s (16 * set + w)) 0 16 with
  | some w => some (16 * set + w, 1)
  | none =>
    let own := lruOf ls (fun x => x.id.ch = c)
    let first := if s.ch[c].quota ≤ occOf s c then own else none
    match first with
    | some e => some (e.1, 2)
    | none =>
      match lruOf ls isOver with
      | some e => some (e.1, 3)
      | none =>
        match own with
        | some e => some (e.1, 4)
        | none => (lruOf ls (fun _ => true)).map (fun e => (e.1, 5))

/-- A check whose frame is freed under it runs on over its own copy of the data, and its verdict places nothing (R95, R153).
Log entry 63 (DESIGN CHOICE, DEDUCED). -/
def stashCheck (s : State) (f : Nat) (data : List Byte) : State :=
  (unitsWhere s (fun u => match u.work with | .check _ _ g _ => g = some f | _ => false)).foldl (fun s id =>
    match unitOf s id with
    | some ⟨st, cls, o, src, p, dr, .check i w _ d, r, bl, _, pg, ph⟩ =>
      { s with bt := { s.bt with units := aput s.bt.units id ⟨st, cls, o, src, p, dr, .check i w none d, r, bl, data, pg, ph⟩ } }
    | _ => s) s

/-- Free every frame that satisfies `p`. -/
def freeFrames (s : State) (p : Frame → Bool) : State :=
  (s.ec.frames.filter (fun e => p e.2)).foldl (fun s e => freeFrame (stashCheck s e.1 e.2.data) e.1) s

end Sys2Proof.Machine
end

