-- ==== Sys2Proof/Machine/HashBank.lean ====
section
/-! DEFINITION. The hash bank: tiers, grants, pre-emption and the end of a job (R116, R117, R215, R216). -/

namespace Sys2Proof.Machine

/-- The queue of an owner: channels 0-31, instances 32-95, the hearth account 96 (R216). -/
def ownerQ : Owner → Nat
  | .ch c => c.val
  | .inst i => 32 + i.val
  | .hearth => 96

/-- HASH_W of a queue (R216, R232). -/
def hashWeight (s : State) (q : Nat) : Nat :=
  if h : q < 32 then s.bt.arb.chs[q].2.1
  else if h : q - 32 < 64 then
    if s.bt.arbOn then (s.bt.pools[s.inst[q - 32].cfg.pool]).hashW else 1
  else s.bt.arb.devHashW

/-- The ring of a tier 1-3. -/
def tierRing (s : State) (t : Nat) : Arb :=
  if t = 1 then s.ve.tier1 else if t = 2 then s.ve.tier2 else s.ve.tier3

/-- Replace the ring of a tier 1-3. -/
def setRing (s : State) (t : Nat) (a : Arb) : State :=
  if t = 1 then { s with ve := { s.ve with tier1 := a } }
  else if t = 2 then { s with ve := { s.ve with tier2 := a } }
  else { s with ve := { s.ve with tier3 := a } }

/-- Age limit of the hash bank in cycles. -/
def hashAge (s : State) : Nat := msCyc s.bt.arb.ageMs

/-- The engines in ascending order. -/
def allEng : List (Fin 12) := List.finRange 12

/-- A free online engine. -/
def freeEng (s : State) : Option (Fin 12) :=
  allEng.find? (fun e => s.ve.engOnline.getLsbD e.val && (s.ve.engines[e]).isNone)

/-- A job waits for an engine. -/
def hashWaiting (s : State) : Bool :=
  !s.ve.tier0.isEmpty || !s.ve.tier1.items.isEmpty || !s.ve.tier2.items.isEmpty || !s.ve.tier3.items.isEmpty

/-- Every head of the three rings that has waited for the age limit joins the aged heads (R215). -/
def ageRings (s : State) : State :=
  let f := arbAge s.clk.now (hashAge s)
  { s with ve := { s.ve with tier1 := f s.ve.tier1, tier2 := f s.ve.tier2, tier3 := f s.ve.tier3 } }

/-- The tier of which an aged head is served next: the head that aged first; among heads of one cycle the lowest tier.
Log entry 62 (DEDUCED). -/
def agedTier (s : State) : Option Nat :=
  ([1, 2, 3].filterMap (fun t => ((tierRing s t).aged.head?).map (fun x => (t, x.2)))).foldl (fun b x => match b with
      | none => some x
      | some y => if x.2 < y.2 then some x else some y) none |>.map (·.1)

/-- The engine whose known-answer test a unit is, none for any other unit (R118). -/
def katOf (s : State) (id : Nat) : Option (Fin 14) :=
  match unitOf s id with
  | some b => (match b.work with | .kat e => some e | _ => none)
  | none => none

/-- A known-answer test runs on its own engine only: it waits while that engine is busy. -/
def katHeld (s : State) (i : QItem) : Bool :=
  match katOf s i.id with
  | some e => if h : e.val < 12 then (s.ve.engines[e.val]).isSome || !s.ve.engOnline.getLsbD e.val else true
  | none => false

/-- The ring of a tier without the known-answer tests that wait for their engine, and those. -/
def openRing (s : State) (t : Nat) : Arb × Arb :=
  let a := tierRing s t
  let held := a.items.filter (katHeld s)
  let out := fun (x : Nat × Nat) => held.any (fun i => i.id == x.1)
  ({ a with items := a.items.filter (fun i => !katHeld s i), aged := a.aged.filter (fun x => !out x) },
    { a with items := held, aged := a.aged.filter out })

/-- The next job: tier 0 in order; then aged heads; then the lowest tier with a job, by its ring (R117, R215). -/
def hashPick (s : State) : Option (HashJob × QItem × State) :=
  match s.ve.tier0 with
  | j :: rest =>
    some (j, { id := j.billet, q := 0, cost := j.cost, enq := j.enq }, { s with ve := { s.ve with tier0 := rest } })
  | [] =>
    let s := ageRings s
    let t := (agedTier s).orElse (fun _ => [1, 2, 3].find? (fun t => !(openRing s t).1.items.isEmpty))
    match t with
    | none => none
    | some t =>
      let (r, held) := openRing s t
      match arbPick s.clk.now (hashAge s) 97 256 (hashWeight s) r with
      | none => none
      | some (i, aged, a) =>
        some ({ billet := i.id, tier := t, cost := i.cost, aged := aged, enq := i.enq }, i,
          setRing s t { a with items := held.items ++ a.items, aged := held.aged ++ a.aged })

/-- A provisional slot of an ember moves to its next state (R123). -/
def slotTo (s : State) (id : EmberId) (st : SlotSt) : State :=
  modCh s id.ch (fun k => { k with slots := k.slots.map (fun x =>
    if sameEmber x.id id then ⟨x.id, st, x.opened, x.desc, x.billet⟩ else x) })

/-- The state of the slot whose ember a unit checks follows its job (R123). -/
def slotJob (s : State) (uid : Nat) (st : SlotSt) : State :=
  match unitOf s uid with
  | some b => (match b.work with | .check id _ _ _ => slotTo s id st | _ => s)
  | none => s

/-- Give an engine to a job: its unit is RUNNING and the slot it checks HASHING; the engine's power domain wakes (Table 9.8) and
the longest wait is recorded. -/
def hashStart (s : State) (e : Fin 12) (j : HashJob) : State :=
  let w := cdiv (s.clk.now - j.enq) 5000
  let s := slotJob (setUnitSt s j.billet .running) j.billet .hashing
  { s with
    ve := { s.ve with engines := s.ve.engines.set e (some { job := j, startAt := s.clk.now }) }
    bt := if j.tier = 0 then s.bt else { s.bt with maxWaitBg := max s.bt.maxWaitBg (min w 0xFFFF) }
    pd := { s.pd with gatedHash := clrBit s.pd.gatedHash e.val } }

/-- The engine a job takes: a known-answer test its own, any other job the lowest free one. -/
def engFor (s : State) (j : HashJob) (e : Fin 12) : Fin 12 :=
  match katOf s j.billet with
  | some x => if h : x.val < 12 then ⟨x.val, h⟩ else e
  | none => e

/-- Grant free engines to waiting jobs; at most twelve can be granted. -/
def hashGrant : Nat → State → State
  | 0, s => s
  | k + 1, s =>
    match freeEng s with
    | none => s
    | some e =>
      match hashPick s with
      | none => s
      | some (j, _, s) => hashGrant k (hashStart s (engFor s j e) j)

/-- Blocks of one job of an LMS tree's generation: the most that a job may have (R216). -/
def treeJob : Nat := 2304

/-- A unit generates an LMS tree. -/
def isTree (s : State) (id : Nat) : Bool :=
  match unitOf s id with
  | some b => (match b.work with | .tree _ => true | _ => false)
  | none => false

/-- A tree's job has ended by now: the next of its successive jobs enters its queue, and the engine is free (R216). -/
def treeRoll (s : State) : State :=
  allEng.foldl (fun s e => match s.ve.engines[e] with
    | some r =>
      if r.startAt + 32 * r.job.cost ≤ s.clk.now ∧ isTree s r.job.billet then
        let q := match unitOf s r.job.billet with | some b => ownerQ b.owner | none => 96
        { s with ve := { s.ve with
          engines := s.ve.engines.set e none
          tier3 := arbPush s.ve.tier3 { id := r.job.billet, q := q, cost := treeJob, enq := r.startAt + 32 * r.job.cost } } }
      else s
    | none => s) s

/-- Put a job into its tier for the unit `id` owned by `o`, with its cost in blocks. -/
def hashPut (s : State) (tier id cost : Nat) (o : Owner) : State :=
  if tier = 0 then
    { s with ve := { s.ve with tier0 := s.ve.tier0 ++ [{ billet := id, tier := 0, cost := cost, aged := false, enq := s.clk.now }] } }
  else setRing s tier (arbPush (tierRing s tier) { id := id, q := ownerQ o, cost := cost, enq := s.clk.now })

/-- Enter the jobs of a unit, of the costs given, and grant; the unit waits for its engine (R116, R205). -/
def hashJobs (s : State) (tier id : Nat) (costs : List Nat) (o : Owner) : State :=
  hashGrant 12 (costs.foldl (fun s c => hashPut s tier id c o) (setUnitSt (treeRoll s) id .waiting))

/-- Enter one job. -/
def hashEnq (s : State) (tier id cost : Nat) (o : Owner) : State := hashJobs s tier id [cost] o

/-- Jobs of a unit that wait or run. -/
def jobsLeft (s : State) (id : Nat) : Nat :=
  let n := fun (a : Arb) => (a.items.filter (fun i => i.id = id)).length
  (s.ve.tier0.filter (fun j => j.billet = id)).length + n s.ve.tier1 + n s.ve.tier2 + n s.ve.tier3 +
    (allEng.filter (fun e => match s.ve.engines[e] with | some r => r.job.billet = id | none => false)).length

/-- A job of tier 1 that a provisional slot now waits for goes to tier 0, in the order in which its input became complete
(Table 4.6, R117). -/
def hashRaise (s : State) (id : Nat) : State :=
  let v := s.ve
  let up := (v.tier1.items.filter (fun i => i.id = id)).map (fun i =>
    ({ billet := id, tier := 0, cost := i.cost, aged := false, enq := i.enq } : HashJob))
  let put := fun (l : List HashJob) (j : HashJob) => l.filter (fun x => x.enq ≤ j.enq) ++ j :: l.filter (fun x => j.enq < x.enq)
  { s with ve := { v with
    tier0 := up.foldl put v.tier0, tier1 := arbDrop v.tier1 id
    engines := v.engines.map (fun x => x.map (fun r =>
      if r.job.billet = id then { r with job := { r.job with tier := 0 } } else r)) } }

/-- Take a job out of the bank wherever it stands, and grant the engine it leaves. -/
def hashDrop (s : State) (id : Nat) : State :=
  let v := s.ve
  hashGrant 12 { s with ve := { v with
    tier0 := v.tier0.filter (fun j => j.billet ≠ id)
    tier1 := arbDrop v.tier1 id, tier2 := arbDrop v.tier2 id, tier3 := arbDrop v.tier3 id
    engines := v.engines.map (fun x => match x with
      | some r => if r.job.billet = id then none else some r
      | none => none) } }

/-- The job running on an engine. -/
def engJob (s : State) (e : Fin 12) : Option HashJob := (s.ve.engines[e]).map (·.job)

/-- A job on this engine ends, 32 cycles a block after it began (R100); the engine is free and is granted again. -/
def hashEnd (s : State) (e : Fin 12) : State :=
  let s := match s.ve.engines[e] with
    | some r => treeRoll (reachTime s (r.startAt + 32 * r.job.cost))
    | none => s
  hashGrant 12 { s with ve := { s.ve with engines := s.ve.engines.set e none } }

/-- The jobs of a unit that are on engines run to their ends, at most `n` of them; none where some of its jobs still wait for an
engine. -/
def unitDone (id : Nat) : Nat → State → Option State
  | 0, s => if jobsLeft s id = 0 then some s else none
  | n + 1, s =>
    match allEng.find? (fun e => match engJob s e with | some j => j.billet = id | none => false) with
    | some e => unitDone id n (hashEnd s e)
    | none => if jobsLeft s id = 0 then some s else none

/-- Units of one work end at once, with their jobs. -/
def dropWork (s : State) (w : Work) : State :=
  (unitsWhere s (fun u => u.work = w)).foldl (fun s id => hashDrop (retire s id) id) s

/-! The AES engines (R118, R215, R216). -/

/-- A known-answer test of an AES engine waits while that engine is busy or offline. -/
def aesHeld (s : State) (i : QItem) : Bool :=
  match katOf s i.id with
  | some e => if h : e.val - 12 < 2 then (s.kv.aes[e.val - 12]).isSome || !s.ve.aesOnline.getLsbD (e.val - 12) else true
  | none => false

/-- A free online AES engine. -/
def aesFree (s : State) : Option (Fin 2) :=
  (List.finRange 2).find? (fun e => s.ve.aesOnline.getLsbD e.val && (s.kv.aes[e]).isNone)

/-- Give an AES engine to a job; its power domain wakes (Table 9.8). -/
def aesStart (s : State) (e : Fin 2) (j : HashJob) : State :=
  let s := setUnitSt s j.billet .running
  { s with
    kv := { s.kv with aes := s.kv.aes.set e (some { job := j, startAt := s.clk.now }) }
    pd := { s.pd with gatedAes := clrBit s.pd.gatedAes e.val } }

/-- Grant free AES engines to waiting jobs, one queue per owner (R215). -/
def aesGrant : Nat → State → State
  | 0, s => s
  | k + 1, s =>
    match aesFree s with
    | none => s
    | some e =>
      let a := s.kv.aesArb
      let held := a.items.filter (aesHeld s)
      match arbPick s.clk.now (hashAge s) 97 256 (hashWeight s) { a with items := a.items.filter (fun i => !aesHeld s i) } with
      | none => s
      | some (i, aged, b) =>
        let e := match katOf s i.id with | some x => if h : x.val - 12 < 2 then ⟨x.val - 12, h⟩ else e | none => e
        aesGrant k (aesStart { s with kv := { s.kv with aesArb := { b with items := held ++ b.items } } } e
          { billet := i.id, tier := 0, cost := i.cost, aged := aged, enq := i.enq })

/-- Enter a job of a unit, of a cost in 64-byte blocks, and grant; the unit waits for its engine. -/
def aesEnq (s : State) (id cost : Nat) (o : Owner) : State :=
  let s := setUnitSt s id .waiting
  aesGrant 2 { s with kv := { s.kv with aesArb := arbPush s.kv.aesArb { id := id, q := ownerQ o, cost := cost, enq := s.clk.now } } }

/-- The job on an AES engine ends, 16 cycles a block after it began (2 GB/s, Table 1.2); the engine is granted again. -/
def aesEnd (s : State) (e : Fin 2) : State :=
  let s := match s.kv.aes[e] with
    | some r => reachTime s (r.startAt + 16 * r.job.cost)
    | none => s
  aesGrant 2 { s with kv := { s.kv with aes := s.kv.aes.set e none } }

/-- The AES engine that runs a unit's job. -/
def aesOf (s : State) (id : Nat) : Option (Fin 2) :=
  (List.finRange 2).find? (fun e => match s.kv.aes[e] with | some r => r.job.billet = id | none => false)

/-- The AES job of a unit, where it has one, runs to its end; none while it waits for an engine. -/
def aesDone (id : Nat) (s : State) : Option State :=
  match aesOf s id with
  | some e => some (aesEnd s e)
  | none => if s.kv.aesArb.items.any (fun i => i.id = id) then none else some s

/-- A unit's AES job ends without its result. -/
def aesDrop (s : State) (id : Nat) : State :=
  aesGrant 2 { s with kv := { s.kv with
    aesArb := arbDrop s.kv.aesArb id
    aes := s.kv.aes.map (fun x => match x with
      | some r => if r.job.billet = id then none else some r
      | none => none) } }

/-- The running engine that a waiting job of lower tier number would pre-empt: the highest tier number, among equals the
one that started last; an aged job yields only to tier 0 (R117). -/
def preemptVictim (s : State) (tier : Nat) (aged : Bool) : Option (Fin 12) :=
  (allEng.filter (fun e => match s.ve.engines[e] with
    | some r => if r.job.aged then tier = 0 else (decide (tier < r.job.tier) || (aged && decide (0 < r.job.tier)))
    | none => false)).foldl (fun b e =>
      match b, s.ve.engines[e] with
      | none, _ => some e
      | some x, some r =>
        match s.ve.engines[x] with
        | some y => if y.job.tier < r.job.tier ∨ (y.job.tier = r.job.tier ∧ y.startAt < r.startAt) then some e else some x
        | none => some e
      | some x, none => some x) none

/-- The tier and aging of the job that would be granted next. -/
def nextJob (s : State) : Option (Nat × Bool) := (hashPick s).map (fun x => (x.1.tier, x.1.aged))

/-- The block boundary of the job running on an engine: the next one, none behind its last block (R100, R117). -/
def blockEnd (s : State) (r : EngRun) : Nat := r.startAt + 32 * min r.job.cost (max 1 (cdiv (s.clk.now - r.startAt) 32))

/-- HASH_PREEMPT: at this engine's block boundary the next waiting job takes it, 2 cycles later, where the engine is the victim
of R117. The pre-empted job returns to the head of its own queue with the blocks it has left and keeps its aging; its hash
state is saved in its billet, which is PREEMPTED (R117, R205).
Log entry 62 (DEDUCED). -/
def preemptAt (s : State) (e : Fin 12) : State :=
  match freeEng s, nextJob s, s.ve.engines[e] with
  | none, some (t, ag), some r =>
    if preemptVictim s t ag = some e then
      let at_ := blockEnd s r
      let done := (at_ - r.startAt) / 32
      match hashPick (reachTime s (at_ + 2)) with
      | some (j, _, s) =>
        let s := match unitOf s r.job.billet with
          | some b =>
            let s := setRing s r.job.tier (arbPushFront (tierRing s r.job.tier)
              { id := r.job.billet, q := ownerQ b.owner, cost := r.job.cost - done, enq := r.job.enq } r.job.aged)
            let b := { b with st := .preempted, blocks := b.blocks + done }
            slotJob { s with bt := { s.bt with units := aput s.bt.units r.job.billet b } } r.job.billet .queued
          | none => s
        hashStart s e j
      | none => s
    else s
  | _, _, _ => s

end Sys2Proof.Machine
end

