-- ==== Sys2Proof/Machine/FlashPort.lean ====
section
/-! DEFINITION. Flash-side ports: queues, the order of service, cuts, and the squash of units that use a port or the hash
bank (R48, R49, R91, R215, R217, R24). -/

namespace Sys2Proof.Machine

/-- Queue of an owner at a port: its fills and its background reads (R217); the channels' queues first. -/
def portQ (o : Owner) (bg : Bool) : Nat := 2 * (match o with | .ch c => c.val | _ => 32) + b2n bg

/-- PORT_W of a queue. -/
def portWeight (s : State) (q : Nat) : Nat := if h : q / 2 < 32 then s.bt.arb.chs[q / 2].2.2 else 1

/-- Lanes of a flash read mode: command, address, data lanes, and DDR (Table 6.5). -/
def fmodeLanes : Nat → Nat × Nat × Nat × Bool
  | 0 => (1, 1, 1, false)
  | 1 => (1, 1, 2, false)
  | 2 => (1, 2, 2, false)
  | 3 => (1, 1, 4, false)
  | 4 => (1, 4, 4, false)
  | 5 => (4, 4, 4, false)
  | 6 => (1, 1, 8, false)
  | 7 => (1, 8, 8, false)
  | 8 => (8, 8, 8, false)
  | _ => (8, 8, 8, true)

/-- Flash parameters of a chip select of a port. -/
def flashOf (s : State) (p : Ch) (cs : Bool) : FlashParam := if cs then s.ch[p].cfg.cs1 else s.ch[p].cfg.cs0

/-- Core cycles from the grant of a read to byte 0: setup, command, address, mode and wait clocks (R59), with the
flash-side period DIV / 8 ns of the access. -/
def readLead (s : State) (p : Ch) (div : Nat) (f : FlashParam) : Nat :=
  let (cl, al, _, ddr) := fmodeLanes f.fmode
  let clocks := if ddr then 1 + 2 + f.rdMode + f.rdWait
    else 8 / cl + cdiv (8 * f.faddr) al + f.rdMode + f.rdWait
  (s.ch[p].cfg.css + 1 + clocks) * div / 16

/-- Core cycles of WREN before a program or erase, with its select timing and the gap after it (R59, R91). -/
def wrenCycles (s : State) (p : Ch) (div : Nat) (f : FlashParam) : Nat :=
  let (cl, _, _, ddr) := fmodeLanes f.fmode
  let k := s.ch[p].cfg
  (k.css + k.csh + k.csgap + 2 + if ddr then 1 else 8 / cl) * div / 16

/-- The chip select and the flash ember that a unit of work reads or writes. -/
def workPlace (s : State) (w : Work) : Option (Bool × Nat) :=
  match w with
  | .fill id _ _ | .check id _ _ _ | .readFor _ id | .scrub _ _ _ id _ => some (id.cs, id.fen)
  | .write c => (s.ch[c].wr).map (fun x => (x.cs, x.addr / 4096))
  | _ => none

/-- The chip select of a unit of work. -/
def workCs (s : State) (w : Work) : Bool := match workPlace s w with | some (cs, _) => cs | none => false

/-- Whole bytes the access in progress has taken in so far, at the divider it began with (R169). -/
def bytesSoFar (s : State) (p : Ch) (cs : Bool) (a : Access) : Nat :=
  let f := flashOf s p cs
  let (_, _, dl, ddr) := fmodeLanes f.fmode
  let rate := if ddr then 2 * dl else dl
  (s.clk.now - a.startAt - readLead s p a.div f) * 16 * rate / (8 * max 1 a.div)

/-- The channel whose queue a unit stands in. -/
def workCh (b : Billet) : Ch := match b.owner with | .ch c => c | _ => 0

/-- Bytes an access moves, its cost under R215: what is left of an ember, or a program's page data.
Log entry 17 (DEDUCED, DESIGN CHOICE). -/
def accBytes (s : State) (b : Billet) : Nat :=
  match b.work with
  | .write c => (match s.ch[c].wr with
    | some w => (match w.kind with | .prog l => l.length | .erase4 | .erase64 => 0)
    | none => 0)
  | _ => 4096 - b.resume

/-- A unit's queue entry at a port. -/
def portItem (s : State) (b : Billet) (id : Nat) : QItem :=
  { id := id, q := portQ b.owner (b.cls = .bg), cost := accBytes s b, enq := s.clk.now }

/-- Record the resume point of a cut read in its billet, whatever unit it serves (R49, R217).
Log entry 28 (DEDUCED). -/
def noteResume (s : State) (p : Ch) (a : Access) : State :=
  match unitOf s a.item.id with
  | some b => setResume s a.item.id (min 4095 (b.resume + bytesSoFar s p (workCs s b.work) a))
  | none => s

/-- An access in progress carries a program or erase command or page data: the operation of a committed write, after its WREN
(R49, R217). -/
def carriesWrite (s : State) (p : Ch) (a : Access) : Bool :=
  decide (a.kind = .write) &&
    (match unitOf s a.item.id with
      | some b => decide (a.startAt + wrenCycles s p a.div (flashOf s p (workCs s b.work)) ≤ s.clk.now)
      | none => false)

/-- The place at its port to which a cut access returns: the head of its own queue, with its aging, and the embers its read
would have gone on to behind it (R48, R217). -/
def portBack (a : Access) (cost : Nat) (x : Port) : Port :=
  let x := { x with cur := none, arb := a.chain.reverse.foldl (fun r i => arbPushFront r i false) x.arb }
  match a.kind with
  | .status => { x with status := a.item.id :: x.status }
  | _ =>
    let i := { a.item with cost := cost }
    if a.head then { x with heads := i :: x.heads } else { x with arb := arbPushFront x.arb i a.aged }

/-- Cut the access in progress: a read, a status read or a WREN is ended and returns to the head of its queue; a transfer that
carries a program or erase command or page data is never cut (R49, R217). `byHost` is a fall of H_CS_N, which also cuts
head demands, aged accesses and a WREN. -/
def cutPort (s : State) (p : Ch) (byHost : Bool) : State :=
  match s.port[p].cur with
  | none => s
  | some a =>
    if carriesWrite s p a ∨ (!byHost ∧ (a.head ∨ a.aged ∨ a.kind = .write)) then s
    else
      let s := if a.kind = .read then noteResume s p a else s
      match unitOf s a.item.id with
      | none => modPort s p (fun x => { x with cur := none })
      | some b => modPort (setUnitSt s a.item.id .waiting) p (portBack a (accBytes s b))

/-- Queue a read for its port: a head demand where the channel has none outstanding there, else in its channel's queue; a
head demand cuts what it may (R217). -/
def portEnq (s : State) (p : Ch) (id : Nat) (demand : Bool) : State :=
  match unitOf s id with
  | none => s
  | some b =>
    let s := setUnitSt s id .waiting
    let c := workCh b
    let curHead := match s.port[p].cur with
      | some a => a.head && (match unitOf s a.item.id with | some x => workCh x = c | none => false)
      | none => false
    if demand ∧ !(s.port[p].heads.any (fun i => i.q / 2 = c.val)) ∧ !curHead then
      cutPort (modPort s p (fun x => { x with heads := x.heads ++ [portItem s b id] })) p false
    else modPort s p (fun x => { x with arb := arbPush x.arb (portItem s b id) })

/-- A port without a unit, wherever the unit stood on it. -/
def portWithout (x : Port) (id : Nat) : Port :=
  { x with
    heads := x.heads.filter (fun i => i.id ≠ id)
    status := x.status.filter (· ≠ id)
    arb := arbDrop x.arb id
    cur := match x.cur with
      | some a =>
        let rest := a.chain.filter (fun i => i.id ≠ id)
        if a.item.id = id then (match rest with | i :: l => some { a with item := i, chain := l } | [] => none)
        else some { a with chain := rest }
      | none => none }

/-- The flash on a chip select has a program or erase of the device's outstanding (R88). -/
def flashBusy (s : State) (p : Ch) (cs : Bool) : Bool :=
  if cs then s.port[p].busy1.isSome else s.port[p].busy0.isSome

/-- When a committed write's next status read falls due: 20 us after the operation, or after the last busy status (R91). -/
def pollDue (s : State) (id : Nat) : Nat :=
  match unitOf s id with
  | some b => (match b.work with
    | .write c => (match s.ch[c].wr with
      | some w => (match w.st with | .polling t => t + usCyc 20 | _ => 0)
      | none => 0)
    | _ => 0)
  | none => 0

/-- A command to the flash on a chip select, on the command lanes of its FMODE (R181). -/
def flashCmd (s : State) (p : Ch) (cs : Bool) (opc : Byte) (addr : Option Nat) (data : List Byte) : FlashCmd :=
  let f := flashOf s p cs
  let (cl, _, _, ddr) := fmodeLanes f.fmode
  { cs := cs, lanes := cl, opc := opc, ext := if ddr then some (if f.extInv then ~~~opc else opc) else none, addr := addr, data := data }

/-- The commands an access drives: a read from its resume point, WREN with the program or erase of a committed write, or a status
read (R49, R91). -/
def accCmds (s : State) (p : Ch) (id : Nat) (k : AccKind) : List FlashCmd :=
  match unitOf s id with
  | none => []
  | some b =>
    match b.work, k with
    | .write c, .status => (s.ch[c].wr).toList.map (fun w => flashCmd s p w.cs (flashOf s p w.cs).rdsrOpc none [])
    | .write c, _ =>
      (s.ch[c].wr).toList.flatMap (fun w =>
        let f := flashOf s p w.cs
        flashCmd s p w.cs f.wrenOpc none [] :: (match w.kind with
          | .prog l => [flashCmd s p w.cs f.ppOpc (some w.addr) (l.map (·.2))]
          | .erase4 => [flashCmd s p w.cs f.se4Opc (some w.addr) []]
          | .erase64 => [flashCmd s p w.cs f.be64Opc (some w.addr) []]))
    | w, _ => (workPlace s w).toList.map (fun x => flashCmd s p x.1 (flashOf s p x.1).rdOpc (some (4096 * x.2 + b.resume)) [])

/-- An access begins on its port, at the port's present divider. -/
def portStart (s : State) (p : Ch) (i : QItem) (k : AccKind) (head aged : Bool) : State :=
  modPort (setUnitSt s i.id .running) p (fun x => { x with
    cur := some { item := i, kind := k, head := head, aged := aged, startAt := s.clk.now, div := s.ch[p].div }
    sent := accCmds s p i.id k })

/-- The kind of access a unit asks for in the fill and background queues. -/
def unitAcc (s : State) (id : Nat) : AccKind :=
  match unitOf s id with
  | some b => (match b.work with | .write _ => .write | _ => .read)
  | none => .read

/-- The next own-clock access in the order of R217: head demands, aged heads, status reads, then the weighted queues. A status
read not yet due waits, alone in the port until it is. -/
def portNext (s : State) (p : Ch) : State :=
  let age := msCyc s.bt.arb.portAgeMs
  match s.port[p].heads with
  | i :: rest =>
    let w := cdiv ((s.clk.now - i.enq) * 2) 10
    let s := if s.bt.maxWaitDem < min w 0xFFFF then
        { s with bt := { s.bt with maxWaitDem := min w 0xFFFF, maxWaitPort := p } } else s
    portStart (modPort s p (fun x => { x with heads := rest })) p i .read true false
  | [] =>
    let a := arbAge s.clk.now age s.port[p].arb
    match a.aged, s.port[p].status.filter (fun w => decide (pollDue s w ≤ s.clk.now) || a.items.isEmpty) with
    | [], w :: _ =>
      let s := reachTime s (pollDue s w)
      portStart (modPort s p (fun x => { x with status := x.status.erase w, arb := a })) p
        { id := w, q := 0, cost := 0, enq := s.clk.now } .status false false
    | _, _ =>
      match arbPick s.clk.now age 66 4096 (portWeight s) s.port[p].arb with
      | none => s
      | some (i, aged, a) => portStart (modPort s p (fun x => { x with arb := a })) p i (unitAcc s i.id) false aged

/-- The banked unit arbitrates nothing: it follows the access it samples on the wire, which is that of the unit in its own
queues with the same place in the same flash (R135, R223). -/
def portFollow (s : State) (p : Ch) (x : PortSample) : State :=
  let here := fun (id : Nat) => match unitOf s id with | some b => workPlace s b.work | none => none
  if x.status then
    match s.port[p].status.find? (fun id => (here id).any (fun h => h.1 == x.cs)) with
    | some id => portStart (modPort s p (fun y => { y with status := y.status.erase id })) p
        { id := id, q := 0, cost := 0, enq := s.clk.now } .status false false
    | none => s
  else
    match (s.port[p].heads ++ s.port[p].arb.items).find? (fun i => here i.id == some (x.cs, x.addr / 4096)) with
    | some i =>
      let head := s.port[p].heads.any (fun j => j.id == i.id)
      portStart (modPort s p (fun y => { y with heads := y.heads.filter (fun j => j.id ≠ i.id), arb := arbDrop y.arb i.id })) p i
        (unitAcc s i.id) head false
    | none => s

/-- FLASH_ACCESS_GRANT: nothing is granted while an access is in progress or the port is under raw ownership (R60, R217). -/
def portGrant (s : State) (p : Ch) (seen : Option PortSample) : State :=
  if (s.port[p].cur).isSome ∨ s.ch[p].raw.own then s
  else if isBanked s then (match seen with | some x => portFollow s p x | none => s)
  else portNext s p

/-- A bank whose check was squashed is not CHECKING any more: not anchored, or STAGED (R24, R113, R129).
Log entry 19 (DESIGN CHOICE, DEDUCED). -/
def bankUndo (s : State) (b : Nat) (bk : BankId) (stage : Bool) : State :=
  if (bankRt s b bk).st = .checking then setBank s b bk (fun r => { r with st := if stage then .staged else .idle }) else s

/-- An access leaves the own store wherever it stands. -/
def osCut (s : State) (id : Nat) : State :=
  { s with os := { s.os with arb := arbDrop s.os.arb id, cur := if s.os.cur = some id then none else s.os.cur } }

/-- The own-store access of a channel's trace journal. -/
def osJournalId (c : Ch) : Nat := 33 + c.val

/-- Undo what a squashed unit of work held: its place at ports, at the own store and in the hash bank, its frame, its bank's check, its dependent
draws (R24). -/
def dropUnit (s : State) (id : Nat) : State :=
  let s := match unitOf s id with
    | some b =>
      (match b.work with
      | .fill _ _ f => freeFrame s f
      | .check _ _ (some f) _ => freeFrame s f
      | .anchor b bk _ stage => bankUndo s b bk stage
      | .stage b bk _ _ => bankUndo s b bk true
      | .journal c => osCut s (osJournalId c)
      | _ => s)
    | none => s
  let s := { s with port := s.port.map (fun x => portWithout x id) }
  let s := { s with bt := { s.bt with waiting := s.bt.waiting.filter (fun w => w.parent ≠ id) } }
  aesDrop (hashDrop (retire s id) id) id

/-- The units for which the reads among these are made: without its data a unit cannot go on. -/
def readUps (s : State) (ids : List Nat) : List Nat :=
  ids.filterMap (fun i => match unitOf s i with
    | some b => (match b.work with | .readFor up _ => some up | _ => none)
    | none => none)

/-- Squash units and every dependent below them, in the same cycle; a unit whose read is squashed goes with it (R24, R206).
Log entry 30 (DEDUCED). -/
def squash (s : State) (ids : List Nat) : State := (withDeps s 4096 (ids ++ readUps s ids)).foldl dropUnit s

end Sys2Proof.Machine
end

