-- ==== Sys2Proof/Machine/Fill.lean ====
section
/-! DEFINITION. Issuing fills, provisional slots, the strict pass, anchoring requests and the trace prefetchers: what the
ember cache and the verification engine set going of their own (R119-R123, R137, R145, R161-R165, R211, R212). -/

namespace Sys2Proof.Machine

/-- Banks that can be filled from: neither rejected nor revoked, nor anchored anew after a lost pin, when they are served from
the ember cache only (R108, R113, R133). -/
def bankFillable (s : State) (id : EmberId) : Bool :=
  match bindingOf s id.bind with
  | none => false
  | some _ =>
    let r := bankRt s id.bind id.bank
    (match r.st with
    | .rejected | .revoked => false
    | _ => !r.reanchor)

/-- The object an ember is under its binding. -/
def objOf (s : State) (id : EmberId) : EmberObj :=
  match bindingOf s id.bind with
  | some b => emberObj b id.vem
  | none => .data 0

/-- The ember stands in the clinker list (R128). -/
def emberListed (s : State) (id : EmberId) : Bool := isListed s id.bind id.bank (objOf s id)

/-- How an attempt to fill an ember ended. -/
inductive FillRes where
  /-- A fill was issued by this billet. -/
  | issued (billet : Nat)
  /-- The ember is resident or being filled already. -/
  | present
  /-- No fill may be issued: listed, or its bank serves nothing. -/
  | barred
  /-- No victim, or no billet. -/
  | noPlace
  | noBillet
deriving DecidableEq, Repr

/-- Issue a fill of an ember for its channel (R145, R207, R211): a frame by the victim order, at most `maxStep` of it, then
a fill billet, then the port's queue. A banked unit does not fill by itself an ember that it discarded for parity (R173). -/
def issueFill (s : State) (id : EmberId) (why : FillWhy) (maxStep : Nat) : FillRes × State :=
  if (frameOf s id).isSome then (.present, s)
  else if s.ch[id.fp].raw.own || s.ch[id.fp].raw.ownReq then (.noBillet, s)
  else if !bankFillable s id || emberListed s id || (isBanked s && s.ec.absent.any (sameEmber id)) then (.barred, s)
  else
    let set := setOf s.ch[id.ch] id.fen
    match victim s id.ch set with
    | none => (.noPlace, ecRecord (ecInt s 4) id.ch 0x0C 0xFF id.vem set false)
    | some (f, step) =>
      if maxStep < step then (.noPlace, s)
      else
        match draw .fill (.ch id.ch) none (why = .prov) (.fill id why f) s with
        | (none, s) => (.noBillet, s)
        | (some b, s) =>
          let s := takeFrame (freeFrame s f) f id (why = .seq || why = .follow || why = .pre)
          let s := modCh s id.ch (fun k => if why = .seq ∨ why = .follow ∨ why = .pre
            then { k with pfIssued := k.pfIssued + 1 } else k)
          if why = .prov then (.issued b, s) else (.issued b, portEnq s id.fp b (why = .demand))

/-- FLASH_ACCESS_GRANT; a banked unit that samples the burning unit's fill of an ember it discarded for parity fills it again
(R173). -/
def portServe (s : State) (p : Ch) (seen : Option PortSample) : State :=
  let s' := portGrant s p seen
  match seen with
  | some x =>
    if isBanked s ∧ (s'.port[p].cur).isNone ∧ !x.status then
      match s'.ec.absent.find? (fun id => id.fp = p && id.cs = x.cs && id.fen = x.addr / 4096) with
      | some id =>
        portGrant (issueFill { s' with ec := { s'.ec with absent := s'.ec.absent.filter (fun y => !sameEmber y id) } } id .refill 5).2 p seen
      | none => s'
    else s'
  | none => s'

/-! Provisional slots (R122, R123, R137). -/

/-- Slots open on all channels. -/
def slotsOpen (s : State) : Nat := allCh.foldl (fun a c => a + s.ch[c].slots.length) 0

/-- Engines online. -/
def engOn (s : State) : Nat := (allEng.filter (fun e => s.ve.engOnline.getLsbD e.val)).length

/-- POOL_SIZE of R122. -/
def poolSize (s : State) : Nat := min (allCh.foldl (fun a c => a + s.ch[c].cfg.provSlots) 0) (6 * engOn s)

/-- The slot of an ember, if it holds one. -/
def slotOf (s : State) (id : EmberId) : Option ProvSlot := s.ch[id.ch].slots.find? (fun x => sameEmber x.id id)

/-- A free provisional slot for a read of this ember (R122). A manifest ember has its expected digest for a resident leaf digest.
Log entry 63 (DESIGN CHOICE, DEDUCED). -/
def slotFree (s : State) (id : EmberId) : Bool :=
  let has := (slotOf s id).isSome
  (has || (decide (s.ch[id.ch].slots.length < s.ch[id.ch].cfg.provSlots) && decide (slotsOpen s < poolSize s))) &&
  ((bankRt s id.bind id.bank).st = .anchored) &&
  (match objOf s id with
    | .data i => (nodeGet s id.bind id.bank 0 i).isSome
    | .man p => (nodeGet s id.bind id.bank 10 p).isSome) &&
  !emberListed s id && !s.ve.clkHold.getLsbD id.ch.val && !evLow s && !s.ve.clistFull

/-- Open a slot with its reserved record (R137); a check of the ember that waits or runs goes to tier 0 (Table 4.6). -/
def openSlot (s : State) (id : EmberId) (i : Fin 64) (billet : Nat) : State :=
  let low := evLow s
  let s := modCh s id.ch (fun k => { k with slots := k.slots ++
    [{ id := id, st := .released, opened := s.clk.now, desc := i, billet := billet }] })
  let s := evLowSet low { s with ve := { s.ve with log := { s.ve.log with reserved := s.ve.log.reserved + 1 } } }
  (unitsWhere s (fun u => match u.work with | .check x _ _ _ => sameEmber x id | _ => false)).foldl hashRaise s

/-- A slot for an ember that is being filled or checked already: it holds a provisional-completion billet of its own (R211). -/
def joinSlot (s : State) (id : EmberId) (i : Fin 64) : Option (Nat × State) :=
  match draw .fill (.ch id.ch) none true (.slot id) s with
  | (some b, s) => some (b, openSlot s id i b)
  | (none, _) => none

/-- What a slot's state is at the rise of H_CS_N: its ember is still being completed, waits for its check or is hashed (R123). -/
def slotNow (s : State) (id : EmberId) : SlotSt :=
  let chk := unitsWhere s (fun u => match u.work with | .check x _ _ _ => sameEmber x id | _ => false)
  if chk.isEmpty then .completing
  else if allEng.any (fun e => match s.ve.engines[e] with | some r => chk.contains r.job.billet | none => false) then .hashing
  else .queued

/-- Exposure window of a slot so far, in cycles. -/
def slotWin (s : State) (x : ProvSlot) : Nat := s.clk.now - x.opened

/-- INFO of an event record (Table 4.10). -/
def infoOf (bank resp reason : Nat) : Nat := bank + 4 * resp + 16 * reason

/-- Close a slot: record its window; as PASS its reservation returns unused, otherwise its record uses it (R123, R137).
`kind` 0 for PASS, else the record kind; `resp` and `reason` go into INFO. A billet it only holds retires with it (R211). -/
def closeSlot (s : State) (c : Ch) (x : ProvSlot) (kind resp reason : Nat) : State :=
  let w := slotWin s x
  let s := match unitOf s x.billet with | some b => if b.work = .slot x.id then retire s x.billet else s | none => s
  let s := modCh s c (fun k => { k with
    slots := k.slots.filter (fun y => y.billet ≠ x.billet), maxWin := min 0xFFFFFF (max k.maxWin (w / 5)) })
  if kind = 0 then
    { s with ve := { s.ve with log := { s.ve.log with reserved := s.ve.log.reserved - 1 } } }
  else
    let bi := match bindingOf s x.id.bind with | some b => bankInfo s b x.id.bank | none => 0
    veRecordReserved s c.val kind x.id.bind (infoOf bi resp reason) (objCode (objOf s x.id)) (w / 50)

/-- Close a slot as ABANDONED (R123). -/
def abandonSlot (s : State) (c : Ch) (x : ProvSlot) : State :=
  let s := closeSlot s c x 0x09 3 0
  veInt (modCh s c (fun k => { k with statAbn := satAdd 255 k.statAbn 1 })) 6

/-- The ember a unit fills or checks, or holds a slot for. -/
def workEmber : Work → Option EmberId
  | .fill id _ _ => some id
  | .check id _ _ _ => some id
  | .slot id => some id
  | _ => none

/-- The ember for which a fill-class unit reads: its own, or that of the check whose reread or refetch it is. -/
def fillEmber (s : State) (w : Work) : Option EmberId :=
  match w with
  | .readFor up id => (match unitOf s up with
    | some v => (workEmber v.work).filter (sameEmber id)
    | none => none)
  | w => workEmber w

/-- A unit reads an ember of its bank into its own buffer or frame: a dependent fill billet draws it, and where none can be drawn
the draw waits in the tracker's queue while the unit stays RUNNING (R109, R112, R206, R212).
Log entry 18 (DESIGN CHOICE, DEDUCED). -/
def unitRead (s : State) (up : Nat) (e : EmberId) : State :=
  match unitOf s up with
  | none => s
  | some u =>
    let s := setUnitSt s up .running
    match draw .fill u.owner (some up) false (.readFor up e) s with
    | (some r, s) => portEnq s e.fp r false
    | (none, s) => { s with bt := { s.bt with waiting := s.bt.waiting ++
        [{ parent := up, cls := .fill, owner := u.owner, work := .readFor up e }] } }

/-- Squash the channel's fills and checks whose ember satisfies `p`; their provisional slots close as ABANDONED
(R123, R153). -/
def squashEmbers (s : State) (c : Ch) (p : EmberId → Bool) : State :=
  let s := (s.ch[c].slots.filter (fun x => p x.id)).foldl (fun s x => abandonSlot s c x) s
  squash s (unitsWhere s (fun b => b.owner = .ch c && (match workEmber b.work with | some id => id.ch = c && p id | none => false)))

/-- Squash the channel's fill billets whose ember satisfies `p`; verification billets run on (R95, R153). -/
def squashFills (s : State) (c : Ch) (p : EmberId → Bool) : State :=
  let ids := unitsWhere s (fun b => b.owner = .ch c && b.cls = .fill &&
    (match fillEmber s b.work with | some id => id.ch = c && p id | none => false))
  squash ((s.ch[c].slots.filter (fun x => ids.contains x.billet)).foldl (fun s x => abandonSlot s c x) s) ids

/-! The strict pass (R119-R121). -/

/-- Pages a descriptor covers. -/
def rgnPages (d : Rgn) : List Nat := (List.range (rgnLimit d + 1 - rgnBase d)).map (· + rgnBase d)

/-- The enabled strict descriptors of a channel. -/
def strictOf (k : Chan) : List (Fin 64) := allRgn.filter (fun i => rgnEn k.cfg.desc[i] && rgnStrict k.cfg.desc[i])

/-- Change the strict record of a descriptor. -/
def setStrict (s : State) (c : Ch) (i : Fin 64) (f : StrictRt → StrictRt) : State :=
  modCh s c (fun k => { k with strict := k.strict.set i (f k.strict[i]) })

/-- VE_STRICT_DONE bit c (R119). -/
def strictDone (s : State) (c : Ch) : Bool :=
  (s.st.state = .locked || s.st.state = .restructuring) &&
    (strictOf s.ch[c]).all (fun i => (s.ch[c].strict[i]).st = .passed)

/-- Strict descriptors that satisfy `p` enter PENDING (Table 4.7). -/
def strictPend (s : State) (c : Ch) (p : Fin 64 → Bool) : State :=
  ((strictOf s.ch[c]).filter p).foldl (fun s i => setStrict s c i (fun _ => { st := .pending, done := [] })) s

/-- The bank that serves a strict descriptor. -/
def rgnBank (k : Chan) (i : Fin 64) : BankId := bankServing k (isSubst k i) (4096 * rgnBase k.cfg.desc[i])

/-- Is the leaf digest of a data ember to be pinned: a strict descriptor of the bank that serves it, or a provisional one
under PROV_PIN (R114)? -/
def pinLeaf (s : State) (b : Binding) (bk : BankId) (i : Nat) : Bool :=
  let k := s.ch[b.ch]
  match governing k (b.vbase / 4096 + i) with
  | some d => rgnBank k d = bk && (rgnStrict k.cfg.desc[d] || (b.provPin && rgnMiss k.cfg.desc[d] = 1))
  | none => false

/-- After a change of a channel's banks its resident leaf digests are pinned for the banks that serve now, and for no others, as
far as the limit allows (R114). -/
def repin (s : State) (c : Ch) : State :=
  let want := fun (e : NodeEnt) => match bindingOf s e.bind with
    | some b => b.ch = c && pinLeaf s b e.bank e.idx
    | none => false
  let mine := fun (e : NodeEnt) => e.level = 0 && (match bindingOf s e.bind with | some b => b.ch = c | none => false)
  let fixed := (s.ve.nodes.filter (fun e => e.pin && !mine e)).length
  let r := s.ve.nodes.foldr (fun e (x : List NodeEnt × Nat × Bool) =>
    if mine e then
      if want e then (if x.2.1 < 24576 then ({ e with pin := true } :: x.1, x.2.1 + 1, x.2.2) else ({ e with pin := false } :: x.1, x.2.1, true))
      else ({ e with pin := false } :: x.1, x.2)
    else (e :: x.1, x.2)) ([], fixed, s.ve.pinFull)
  { s with ve := { s.ve with nodes := r.1, pinFull := r.2.2 } }

/-- Begin anchoring a bank: its verification billet is drawn and its first page read; where no billet can be drawn the request
stays with the requester (R108, R113, R212).
Log entry 18 (DESIGN CHOICE, DEDUCED). -/
def startAnchor (s : State) (b : Binding) (bk : BankId) (re : Bool) : State :=
  match objEmber s b bk (.man 0) with
  | none => s
  | some e =>
    match draw .ver (.ch b.ch) none false (.anchor b.bind bk re false) s with
    | (none, s) => s
    | (some id, s) => unitRead (setBank s b.bind bk (fun r => { r with st := .checking })) id e

/-- Banks of a binding that some descriptor needs now and that are not anchored or being anchored. -/
def wantAnchor (s : State) (b : Binding) : List BankId :=
  let k := s.ch[b.ch]
  let need := (allRgn.filter (fun i => rgnEn k.cfg.desc[i] && rgnMbind k.cfg.desc[i] = b.bind)).map (rgnBank k)
  let lost := [BankId.a, .b, .g].filter (fun bk => (bankRt s b.bind bk).reanchor)
  (bindServing s b :: need ++ lost).eraseDups.filter (fun bk => (bankRt s b.bind bk).st = .idle)

/-- Start the anchoring a channel's bindings wait for; nothing is anchored before the lock (R32, R193). -/
def pumpAnchor (s : State) (c : Ch) : State :=
  if s.st.state = .locked ∨ s.st.state = .restructuring then
    (s.ve.bindings.filter (fun b => b.ch = c)).foldl (fun s b =>
      (wantAnchor s b).foldl (fun s bk => startAnchor s b bk (bankRt s b.bind bk).reanchor) s) s
  else s

/-- Issue the fills a strict descriptor still needs, in ascending order, as billets and frames allow (R120). Over a bank that is
rejected or revoked it is FAILED (Table 4.7). -/
def pumpStrictRgn (s : State) (c : Ch) (i : Fin 64) : State :=
  let r := s.ch[c].strict[i]
  let bk := rgnBank s.ch[c] i
  let anchored := (bankRt s (rgnMbind s.ch[c].cfg.desc[i]) bk).st = .anchored
  let bst := (bankRt s (rgnMbind s.ch[c].cfg.desc[i]) bk).st
  if (r.st = .pending ∨ r.st = .running) ∧ (bst = .rejected ∨ bst = .revoked) then setStrict s c i (fun r => { r with st := .failed })
  else if (r.st = .pending ∨ r.st = .running) ∧ anchored then
    (rgnPages s.ch[c].cfg.desc[i]).foldl (fun s p =>
      if (s.ch[c].strict[i]).done.contains p then s
      else match emberAt s.ch[c] c i false (4096 * p) with
        | none => s
        | some id =>
          match issueFill s id .strict 5 with
          | (.issued _, s) => setStrict s c i (fun r => { r with st := .running })
          | (_, s) => s) s
  else s

/-- A strict descriptor every ember of which has a verdict is PASSED (R119). -/
def strictClose (s : State) (c : Ch) (i : Fin 64) : State :=
  let r := s.ch[c].strict[i]
  if (r.st = .running ∨ r.st = .pending) ∧ (rgnPages s.ch[c].cfg.desc[i]).all (fun p => r.done.contains p) then
    setStrict s c i (fun r => { r with st := .passed })
  else s

/-- The strict pass of a channel. -/
def pumpStrict (s : State) (c : Ch) : State :=
  (strictOf s.ch[c]).foldl (fun s i => pumpStrictRgn s c i) s

/-! Trace prefetch (R162, R163). -/

/-- A virtual ember under a VERIFIED descriptor, as it is served now. -/
def servedEmber (s : State) (c : Ch) (vem : Nat) : Option (Fin 64 × EmberId) :=
  match governing s.ch[c] vem with
  | some i =>
    let d := s.ch[c].cfg.desc[i]
    if rgnOpen d then none else (emberAt s.ch[c] c i (rgnRd d = 3) (4096 * vem)).map (fun id => (i, id))
  | none => none

/-- One step of the pre-release walk (R162). -/
def preStep (s : State) (c : Ch) (v : Nat) : State :=
  let skip := modCh s c (fun k => { k with trace := { k.trace with preIdx := k.trace.preIdx + 1 } })
  match servedEmber s c v with
  | none => skip
  | some (_, id) =>
    if (frameOf s id).isSome ∨ emberListed s id then skip
    else match issueFill s id .pre 3 with
      | (.issued _, s) => modCh s c (fun k => { k with trace :=
          { k.trace with preIdx := k.trace.preIdx + 1, preCnt := k.trace.preCnt + 1 } })
      | (.noBillet, s) => s
      | (.noPlace, s) => modCh s c (fun k => { k with trace := { k.trace with preDone := true } })
      | (_, s) => modCh s c (fun k => { k with trace := { k.trace with preIdx := k.trace.preIdx + 1 } })

/-- The pre-release walk as far as billets allow; `n` bounds its steps. -/
def preWalk (c : Ch) : Nat → State → State
  | 0, s => s
  | n + 1, s =>
    let t := s.ch[c].trace
    if t.preDone then s
    else if t.preCnt ≥ s.ch[c].cfg.adapt.traceLimit then modCh s c (fun k => { k with trace := { k.trace with preDone := true } })
    else match t.journal[t.preIdx]? with
      | none => modCh s c (fun k => { k with trace := { k.trace with preDone := true } })
      | some v =>
        let s' := preStep s c v
        if s'.ch[c].trace.preIdx = t.preIdx ∧ !s'.ch[c].trace.preDone then s' else preWalk c n s'

/-- Pre-release prefetch starts once the journal is valid and every strict descriptor is PASSED (R162). -/
def pumpPre (s : State) (c : Ch) : State :=
  let t := s.ch[c].trace
  if t.valid = .valid ∧ !t.preDone ∧ strictDone s c then preWalk c (t.journal.length + 1) s else s

/-- Trace following keeps the entries up to cursor + TRACE_LEAD resident or being filled (R163). -/
def pumpFollow (s : State) (c : Ch) : State :=
  let t := s.ch[c].trace
  if t.follow then
    ((t.journal.drop t.cursor).take (s.ch[c].cfg.adapt.traceLead + 1)).foldl (fun s v =>
      match servedEmber s c v with
      | some (_, id) => (issueFill s id .follow 5).2
      | none => s) s
  else s

/-- Level-1 node pages whose leaf digests the channel's provisional descriptors need (R114). -/
def leafPages (s : State) (c : Ch) (i : Fin 64) (b : Binding) (bk : BankId) : List Nat :=
  (((rgnPages s.ch[c].cfg.desc[i]).filterMap (fun p =>
    match emberObj b p with
    | .data j => if j < b.blocks ∧ (nodeGet s b.bind bk 0 j).isNone then some (j / 128) else none
    | .man _ => none)).eraseDups).filter (fun j =>
      (unitsWhere s (fun u => u.work = .leaf b.bind bk j)).isEmpty)

/-- Once a channel's strict regions have passed, the leaf digests of its provisional embers are loaded at tier 2
(R114). -/
def pumpLeaf (s : State) (c : Ch) : State :=
  if strictDone s c then
    (allRgn.filter (fun i => rgnEn s.ch[c].cfg.desc[i] && rgnMiss s.ch[c].cfg.desc[i] = 1)).foldl (fun s i =>
      let bk := rgnBank s.ch[c] i
      match bindingOf s (rgnMbind s.ch[c].cfg.desc[i]) with
      | none => s
      | some b =>
        if (bankRt s b.bind bk).st = .anchored then
          (leafPages s c i b bk).foldl (fun s j =>
            match objEmber s b bk (.man ((bankRt s b.bind bk).nodeOfs / 4096 + nodeIndex b.blocks 1 j)) with
            | none => s
            | some e =>
              match draw .ver (.ch c) none false (.leaf b.bind bk j) s with
              | (none, s) => s
              | (some id, s) => unitRead s id e) s
        else s) s
  else s

/-- The tier of an ember's check: 0 where a provisional slot waits for it, else 1 (Table 4.6). -/
def checkTier (s : State) (id : EmberId) : Nat := if (slotOf s id).isSome then 0 else 1

/-- Draw the verification billet of an ember whose data are complete, and queue its check (R116, R140); a check without a frame
has the data in its own buffer. -/
def startCheck (s : State) (f : Option Nat) (id : EmberId) (data : List Byte) : State :=
  match draw .ver (.ch id.ch) none false (.check id (if (slotOf s id).isSome then .prov else .refill) f none) s with
  | (none, s) => s
  | (some b, s) =>
    let s := match f, unitOf s b with
      | none, some u => { s with bt := { s.bt with units := aput s.bt.units b { u with buf := data } } }
      | _, _ => s
    hashEnq s (checkTier s id) b 65 (.ch id.ch)

/-- Checks that found no billet are asked for again (R212). -/
def pumpChecks (s : State) (c : Ch) : State :=
  let busy := unitsWhere s (fun _ => true)
  let has := fun (f : Nat) => busy.any (fun id => match unitOf s id with
    | some b => (match b.work with | .check _ _ g _ => g = some f | _ => false)
    | none => false)
  (s.ec.frames.filter (fun e => e.2.st = .checking && e.2.id.ch = c && !has e.1)).foldl (fun s e => startCheck s (some e.1) e.2.id []) s

/-- Everything a channel's own requesters set going as far as billets and frames allow (Table 7.3). -/
def pumpCh (s : State) (c : Ch) : State :=
  if connected s.ch[c] then
    let s := pumpChecks (pumpAnchor s c) c
    let s := pumpStrict s c
    let s := (strictOf s.ch[c]).foldl (fun s i => strictClose s c i) s
    pumpLeaf (pumpFollow (pumpPre s c) c) c
  else s

end Sys2Proof.Machine
end

