-- ==== Sys2Proof/Machine/Gate.lean ====
section
/-! DEFINITION. Bank-map changes (R150-R155), escalation to host reset (R92, R93), and the release gate with everything a
change of an HRST_N line brings (R20, R39, R158, R271, R279, R280). -/

namespace Sys2Proof.Machine

/-- The descriptors of a channel that name a bank set. -/
def rgnsOfBset (k : Chan) (i : Fin 15) : List (Fin 64) :=
  allRgn.filter (fun j => rgnEn k.cfg.desc[j] && rgnBset k.cfg.desc[j] = i.val)

/-- The bindings whose VERIFIED descriptors name a bank set (R152). -/
def bindsOfBset (k : Chan) (i : Fin 15) : List Nat :=
  (((rgnsOfBset k i).filter (fun j => !rgnOpen k.cfg.desc[j])).map (fun j => rgnMbind k.cfg.desc[j])).eraseDups

/-- Change the run-time record of a bank set. -/
def setBset (s : State) (c : Ch) (i : Fin 15) (f : BsetRt → BsetRt) : State :=
  modCh s c (fun k => { k with bset := k.bset.set i (f k.bset[i]) })

/-- Every binding of the bank set has its inactive bank ARMED (R152). -/
def allArmed (s : State) (c : Ch) (i : Fin 15) : Bool :=
  (bindsOfBset s.ch[c] i).all (fun b => (bankRt s b (inactiveBank s.ch[c] i)).st = .armed)

/-- A flip request may be accepted (R152). -/
def flipOk (s : State) (c : Ch) (i : Fin 15) : Bool :=
  !(bindsOfBset s.ch[c] i).isEmpty && allArmed s c i

/-- 0 A, 1 B, 2 golden.
Log entry 20 (DEDUCED, DESIGN CHOICE). -/
def bankNum : BankId → Nat
  | .a => 0
  | .b => 1
  | .g => 2

/-- An ember lies in a bank set's range and in a given bank. -/
def inBset (k : Chan) (i : Fin 15) (bk : BankId) (id : EmberId) : Bool :=
  id.bank = bk && bsetAt k (4096 * id.vem) = some i

/-- The journal of a channel is invalid for the boot that follows a change of its banks (R161). While it was undecided the channel
held the quota of a valid one (R164).
Log entry 22 (DEDUCED, DESIGN CHOICE). -/
def dropJournal (s : State) (c : Ch) : State :=
  modCh s c (fun k => { k with
    quota := if k.trace.valid = .undecided then min k.quota k.cfg.adapt.quotaInit else k.quota
    trace := { k.trace with valid := .none, follow := false, preDone := false } })

/-- Apply a pending flip (R153).
Log entry 20 (DEDUCED, DESIGN CHOICE). -/
def applyFlip (s : State) (c : Ch) (i : Fin 15) : State :=
  if !(s.ch[c].bset[i]).flipPend then s
  else if !flipOk s c i then
    let s := setBset s c i (fun r => { r with flipPend := false, flipFail := true })
    ecRecord (ecInt s 1) c 0x02 (bankNum (inactiveBank s.ch[c] i)) (b2n (s.ch[c].bset[i]).activeB) 0 true
  else
    let old := if (s.ch[c].bset[i]).activeB then BankId.b else BankId.a
    let new := inactiveBank s.ch[c] i
    let binds := bindsOfBset s.ch[c] i
    let gold := fun (j : Fin 64) => (s.ch[c].bset[i]).goldSel || isSubst s.ch[c] j || decide (rgnRd s.ch[c].cfg.desc[j] = 3)
    let rgns := (rgnsOfBset s.ch[c] i).filter (fun j => !gold j)
    let s := squashFills s c (inBset s.ch[c] i old)
    let s := freeFrames s (fun x => x.id.ch = c && inBset s.ch[c] i old x.id)
    let s := binds.foldl (fun s b => setBank s b new (fun r => { r with st := .anchored })) s
    let s := clistDrop s (fun e => binds.contains e.bind && (e.bank = old || e.bank = new))
    let s := setBset s c i (fun r => { r with activeB := !r.activeB, flipPend := false })
    let s := repin (strictPend s c (fun j => rgns.contains j)) c
    let s := ecRecord (ecInt s 0) c 0x01 i.val (bankNum old) (bankNum new) true
    dropJournal { s with ec := { s.ec with flipHold := setBit s.ec.flipHold c.val } } c

/-- Apply a pending golden clear (R154). With GOLDEN_SEL already 0 there is no golden selection to clear, and GCLR_PEND falls with
no further effect.
Log entry 13 (DEDUCED). -/
def applyGclr (s : State) (c : Ch) (i : Fin 15) : State :=
  if !(s.ch[c].bset[i]).gclrPend then s
  else if !(s.ch[c].bset[i]).goldSel then setBset s c i (fun r => { r with gclrPend := false })
  else
    let sub := fun (j : Fin 64) => isSubst s.ch[c] j || decide (rgnRd s.ch[c].cfg.desc[j] = 3)
    let keep := fun (id : EmberId) => (governing s.ch[c] id.vem).any sub
    let rgns := (rgnsOfBset s.ch[c] i).filter (fun j => !sub j)
    let s := squashFills s c (fun id => inBset s.ch[c] i .g id && !keep id)
    let s := freeFrames s (fun x => x.id.ch = c && inBset s.ch[c] i .g x.id && !keep x.id)
    let s := setBset s c i (fun r => { r with goldSel := false, gclrPend := false })
    let s := repin (strictPend s c (fun j => rgns.contains j)) c
    let s := ecRecord (ecInt s 0) c 0x04 i.val 1 0 true
    let s := modCh s c (fun k => { k with goldReboot := false })
    dropJournal { s with ec := { s.ec with flipHold := setBit s.ec.flipHold c.val } } c

/-- Select the golden bank of a bank set that has one, after any pending flip and golden clear (R155). Its strict descriptors
enter PENDING at every selection, one already in force included (R92). -/
def selectGolden (s : State) (c : Ch) (i : Fin 15) : State :=
  match s.ch[c].cfg.bsets[i.val]? with
  | some ⟨_, _, _, _, _, _, some _⟩ =>
    let s := applyGclr (applyFlip s c i) c i
    if (s.ch[c].bset[i]).goldSel then strictPend s c (fun j => (rgnsOfBset s.ch[c] i).contains j)
    else
      let old := servingBank s.ch[c] i
      let s := squashFills s c (inBset s.ch[c] i old)
      let s := freeFrames s (fun x => x.id.ch = c && inBset s.ch[c] i old x.id)
      let s := setBset s c i (fun r => { r with goldSel := true })
      let s := repin (strictPend s c (fun j => (rgnsOfBset s.ch[c] i).contains j)) c
      dropJournal (ecRecord (ecInt s 2) c 0x03 i.val 0 1 true) c
  | _ => s

/-- The bank sets of a channel. -/
def allBset : List (Fin 15) := List.finRange 15

/-- Apply every pending bank-map change of a channel, in the order of R155. -/
def applyPending (s : State) (c : Ch) : State := allBset.foldl (fun s i => applyGclr (applyFlip s c i) c i) s

/-! The release gate. -/

/-- The graph condition of line `n` (R279). -/
def graphCond (s : State) (n : Fin 32) : Bool :=
  s.sq.released.getLsbD n.val && (match s.sq.minHoldTo[n] with | some t => decide (t ≤ s.clk.now) | none => true)

/-- Raw ownership is requested or granted on a flash-side port that carries a segment or bank of the channel (R60). -/
def portsOf (k : Chan) : List Ch :=
  (k.cfg.segs.map (·.fp) ++ k.cfg.bsets.flatMap (fun b => [b.a.fp, b.b.fp] ++ (b.g.toList.map (·.fp)))).eraseDups
def rawHold (s : State) (c : Ch) : Bool :=
  (portsOf s.ch[c]).any (fun p => s.ch[p].raw.own || s.ch[p].raw.ownReq)

/-- The hold bits of a line (Table 9.4). -/
def holds (s : State) (n : Fin 32) : Nat :=
  let low := b2n (!graphCond s n)
  let up := 256 * b2n (s.sq.hearthHold.getLsbD n.val) + 512 * b2n (s.sq.pfHold.getLsbD n.val) +
    1024 * b2n s.tp.ao.held
  match s.sq.cfg.hosts[n].ch with
  | none => low + up
  | some c =>
    let k := s.ch[c]
    low + 2 * b2n (!strictDone s c) + 4 * b2n (decide (k.trace.valid ≠ .none) && !k.trace.preDone) +
      8 * b2n k.escHeld + 16 * b2n (s.ve.clkHold.getLsbD c.val) + 32 * b2n (s.ec.flipHold.getLsbD c.val) +
      64 * b2n (s.st.rsHold.getLsbD c.val) + 128 * b2n (rawHold s c) + up

/-- Holds that act on a released line: VERIFY and PREFETCH hold only while it is asserted (R280). -/
def actsReleased (h : Nat) : Nat := h - h % 8 + h % 2

/-- The channel's host is held: its line is asserted; a channel no line names counts as held.
Log entry 20 (DEDUCED, DESIGN CHOICE). -/
def lineOf (s : State) (c : Ch) : Option (Fin 32) :=
  (List.finRange 32).find? (fun n => s.sq.cfg.hosts[n].ch = some c)
def hostHeld (s : State) (c : Ch) : Bool :=
  match lineOf s c with
  | some n => s.sq.hrst.getLsbD n.val
  | none => true

/-- What an assertion of HRST_N does to the channel's port: reset profile and address mode, WEL and SUSP clear (R39). -/
def portReset (k : Chan) : Chan :=
  { k with altOn := false, addr4 := k.cfg.rst.addr4, next := none, wel := false, susp := false, rstArmed := false }

/-- The bindings a channel's enabled VERIFIED descriptors name, ascending. -/
def namedBindings (s : State) (c : Ch) : List Binding :=
  let k := s.ch[c]
  let named := (allRgn.filter (fun i => rgnEn k.cfg.desc[i] && !rgnOpen k.cfg.desc[i])).map (fun i => rgnMbind k.cfg.desc[i])
  s.ve.bindings.filter (fun b => b.ch = c && named.contains b.bind)

/-- The channel digest (R161). -/
def channelDigest (s : State) (c : Ch) : Digest :=
  sha256 (s.ch[c].cfg.sections ++ (namedBindings s c).flatMap (fun b => digBytes (bankRt s b.bind (bindServing s b)).root))

/-- The pages a strict descriptor governs (R78, R146). -/
def strictPages (k : ChanCfg) : List Nat :=
  let ch : Chan := { cfg := k }
  (allRgn.filter (fun i => rgnEn k.desc[i] && rgnStrict k.desc[i] && !rgnOpen k.desc[i])).flatMap (fun i =>
    (rgnPages k.desc[i]).filter (fun p => governing ch p = some i))

/-- The bytes of a journal before its SEAL (Table 5.1), at the end of its recording. -/
def journalBytes (s : State) (c : Ch) : List Byte :=
  let k := s.ch[c]
  let x := k.trace
  let strict := strictPages k.cfg
  let need := ((x.entries.map (·.vem)).filter (fun v => !strict.contains v)).eraseDups.length
  beBytes 4 0x545A5452 ++ beBytes 2 1 ++ [BitVec.ofNat 8 c.val, BitVec.ofNat 8 x.ended] ++ beBytes 4 x.entries.length ++
    beBytes 4 need ++ digBytes (channelDigest s c) ++ beBytes 4 ((x.endAt - x.startAt) / msCyc 1) ++ fillBytes 12 0 ++
    x.entries.flatMap (fun e => beBytes 4 (4096 * e.vem + 2048 * b2n e.miss + 1024 * b2n e.seqn + e.gap))

/-- Trace recording ends with END `how`; the trace is kept for the journal where it has 1,024 entries and was not ended by
an escalation, clinker or tamper hold (R158, R159). -/
def endTrace (s : State) (c : Ch) (how : Nat) (discard : Bool) : State :=
  if s.ch[c].trace.recording then
    let s := modCh s c (fun k => { k with trace := { k.trace with recording := false, ended := how, endAt := s.clk.now } })
    if !discard ∧ 1024 ≤ s.ch[c].trace.entries.length then
      let b := journalBytes s c
      modCh s c (fun k => { k with trace := { k.trace with kept := k.trace.kept ++ [b] } })
    else s
  else s

/-- The line goes low: log, MIN_HOLD, port reset, trace end, pending bank-map changes (R271, R279, R39, R153). -/
def assertLine (s : State) (n : Fin 32) (h : Nat) : State :=
  let s := sqRecord s 0x06 0xFF n.val (2 ^ n.val) (h % 2048)
  let s := { s with sq := { s.sq with
      hrst := setBit s.sq.hrst n.val
      minHoldTo := s.sq.minHoldTo.set n (some (s.clk.now + msCyc s.sq.cfg.hosts[n].minHold)) } }
  match s.sq.cfg.hosts[n].ch with
  | none => s
  | some c =>
    let s := endTrace s c 3 (decide ((h / 8) % 4 ≠ 0) || decide ((h / 1024) % 2 = 1))
    let s := modCh s c (fun k => { portReset k with trace := { k.trace with follow := false } })
    applyPending s c

/-- The line is released: log, trace recording and following start (R20, R158, R163). -/
def releaseLine (s : State) (n : Fin 32) : State :=
  let s := sqRecord s 0x07 0xFF n.val (2 ^ n.val) 0
  let s := { s with sq := { s.sq with hrst := clrBit s.sq.hrst n.val } }
  match s.sq.cfg.hosts[n].ch with
  | none => s
  | some c =>
    modCh s c (fun k => { k with trace := { k.trace with
      recording := decide (0 < k.cfg.adapt.traceLimit), entries := [], startAt := s.clk.now, lastAt := s.clk.now, ended := 0
      follow := decide (k.trace.valid = .valid), cursor := 0, unmatched := 0 } })

/-- Evaluate the gate of one line: any hold keeps or drives it low, and it is released in the cycle the last one clears
(R20, R280). Nothing is released before the lock (R29). -/
def gateLine (s : State) (n : Fin 32) : State :=
  let h := holds s n
  if s.sq.hrst.getLsbD n.val then (if h = 0 then releaseLine s n else s)
  else if actsReleased h ≠ 0 then assertLine s n h else s

/-- Evaluate every line. -/
def regate (s : State) : State := (List.finRange 32).foldl gateLine s

/-- A channel's requesters run as far as they can, then the gate is evaluated. -/
def settle (s : State) (c : Ch) : State := regate (pumpCh s c)

/-- Every channel's requesters, then the gate. -/
def settleAll (s : State) : State := regate (forCh s pumpCh)

/-! Escalation (R92, R93, R95). -/

/-- ESC_MODE, ESC_MAX, UNK_ESC and ESC_HOLD of GR_CTL. -/
def escMode (k : Chan) : Nat := bf k.cfg.grctl 8 2
def escMax (k : Chan) : Nat := bf k.cfg.grctl 10 4
def unkEsc (k : Chan) : Bool := k.cfg.grctl.getLsbD 14
def escHoldMs (k : Chan) : Nat := bf k.cfg.grctl 16 8
def denyByte (k : Chan) : Byte := BitVec.ofNat 8 (bf k.cfg.grctl 0 8)

/-- A channel's grate interrupt: HE_INT_GR (R261). -/
def grAlert (s : State) (c : Ch) : State := { s with he := { s.he with gr := setBit s.he.gr c.val } }

/-- An ESCALATE verdict: HE_INT_GR and the escalation hold is set, counted, and HRST_N goes low; under GOLDEN the golden bank of every bank
set that has one is selected. `opc` where it came from OPACT or UNK_ESC.
Log entry 20 (DEDUCED, DESIGN CHOICE). -/
def escalate (s : State) (c : Ch) (desc : Option (Fin 64)) (opc : Bool) : State :=
  let k := s.ch[c]
  let n := satAdd 15 k.escCount 1
  let s := modCh s c (fun k => { k with
    escHeld := true, escCount := n, escForever := decide (escMode k = 0) || decide (escMax k < n)
    escDesc := match desc with | some i => BitVec.ofNat 6 i.val | none => 0
    escOpc := opc, escAt := s.clk.now, cntEsc := k.cntEsc + 1 })
  let s := grAlert s c
  let s := if escMode k = 2 then allBset.foldl (fun s i => selectGolden s c i) s else s
  settle s c

/-- ESC_HOLD_EXPIRY: under REBOOT or GOLDEN the hold clears ESC_HOLD ms after HRST_N went low, unless it is held as under
HOLD (R92, R93).
Log entry 20 (DEDUCED, DESIGN CHOICE). -/
def escExpire (s : State) (c : Ch) : State :=
  let k := s.ch[c]
  if k.escHeld ∧ !k.escForever then
    settle (modCh (reachTime s (k.escAt + msCyc (escHoldMs k))) c (fun k => { k with escHeld := false })) c
  else s

/-- GR_ESC.RELEASE (R93). -/
def escRelease (s : State) (c : Ch) : State :=
  settle (modCh s c (fun k => { k with escHeld := false, escForever := false, escCount := 0 })) c

end Sys2Proof.Machine
end

