-- ==== Sys2Proof/Machine/Tally.lean ====
section
/-! DEFINITION. Tally registers: requesting and applying extensions (R354, R355). -/

namespace Sys2Proof.Machine

/-- Start the hash job of the first waiting extension of each tally that has none (2 blocks at tier 2). -/
def pumpTally (s : State) : State :=
  (List.range s.mb.tallyQ.length).foldl (fun s i =>
    match s.mb.tallyQ[i]? with
    | none => s
    | some r =>
      if r.billet = none ∧ !((s.mb.tallyQ.take i).any (fun x => x.t = r.t)) then
        match draw .ver r.owner none false (.tally r.t r.d) s with
        | (none, s) => s
        | (some id, s) =>
          hashEnq { s with mb := { s.mb with tallyQ := s.mb.tallyQ.set i { r with billet := some id } } } 2 id 2 r.owner
      else s) s

/-- Request an extension of a tally by a digest (R354). -/
def tallyRequest (s : State) (t : Fin 64) (d : Digest) (o : Owner) (core : Option Core) : State :=
  pumpTally { s with mb := { s.mb with tallyQ := s.mb.tallyQ ++ [{ t := t, d := d, owner := o, billet := none, core := core }] } }

/-- The new value of a tally: SHA-256(T ‖ D). -/
def tallyStep (t d : Digest) : Digest := sha256 (digBytes t ++ digBytes d)

/-- The engine that runs a unit's job. -/
def engOf (s : State) (id : Nat) : Option (Fin 12) :=
  allEng.find? (fun e => match engJob s e with | some j => j.billet = id | none => false)

/-- A tally's first requested extension completes (R354). -/
def tallyDone (s : State) (t : Fin 64) : State :=
  match s.mb.tallyQ.find? (fun r => r.t = t) with
  | some r =>
    match r.billet with
    | none => s
    | some id =>
      match engOf s id with
      | none => s
      | some e =>
        let v := s.mb.tallies[t]
        let s := { s with mb := { s.mb with
          tallies := s.mb.tallies.set t (tallyStep v.1 r.d, v.2 + 1), tallyQ := s.mb.tallyQ.erase r } }
        pumpTally (retire (hashEnd s e) id)
  | none => s

end Sys2Proof.Machine
end

