-- ==== Sys2Proof/Machine/Manifest.lean ====
section
/-! DEFINITION. Manifests: the header's checks, digests, node pages and the Merkle walk (R102-R110, R114). -/

namespace Sys2Proof.Machine

/-- Ember digest of data ember i (Table 4.3). -/
def emberDigest (regionId version i : Nat) (data : List Byte) : Digest :=
  sha256 (0x00#8 :: (beBytes 4 regionId ++ beBytes 4 version ++ beBytes 4 i ++ data))

/-- Node digest of level-k page j (Table 4.3). -/
def nodeDigest (regionId version k j : Nat) (page : List Byte) : Digest :=
  sha256 (0x01#8 :: (beBytes 4 regionId ++ beBytes 4 version ++ [BitVec.ofNat 8 k] ++ beBytes 4 j ++ page))

/-- A binding's floor (R105). -/
def bindFloor (s : State) (b : Binding) : Nat := max b.minVersion ((aget s.ve.floors b.bind).getD 0).toNat

/-- What anchoring learns of a bank. -/
structure Anchored where
  depth : Nat
  version : Nat
  root : Digest
  sigOfs : Nat
  sigLen : Nat
  nodeOfs : Nat
deriving DecidableEq, Repr

/-- What the header of a manifest area says (Table 4.2). -/
def headOf (area : List Byte) : Anchored :=
  { depth := be8 area 20, version := be32 area 12, root := digOf (slice area 48 32)
    sigOfs := be32 area 24, sigLen := be32 area 28, nodeOfs := be32 area 32 }

/-- Step 2 of R108 as far as the header alone decides it, in the order of Table 4.4: the reason of the first failure. -/
def headErr (s : State) (b : Binding) (area : List Byte) : Option Nat :=
  let hdr := area.take 128
  let x := headOf area
  if be32 hdr 0 ≠ 0x545A4D4E ∨ be16 hdr 4 ≠ 1 ∨ be16 hdr 6 ≠ 128 ∨ be8 hdr 21 ≠ 1 ∨ be16 hdr 22 ≠ 0 ∨
      !(slice hdr 36 12).all (· = 0) then some 1
  else if be32 hdr 8 ≠ b.regionId then some 2
  else if x.version < bindFloor s b then some 3
  else if be32 hdr 16 ≠ b.blocks ∨ x.depth ≠ manDepth b.blocks then some 4
  else if x.sigOfs < 128 ∨ x.sigOfs % 4 ≠ 0 ∨ x.nodeOfs % 4096 ≠ 0 ∨ x.nodeOfs < x.sigOfs + x.sigLen ∨
      4096 * b.manPages < x.nodeOfs + 4096 * nodePages b.blocks then some 5
  else none

/-- Step 3 of R108: the signature over the header, with its types and length (R108, R114). -/
def sigErr (s : State) (b : Binding) (area : List Byte) : Option Nat :=
  let x := headOf area
  match anchorPub s b.anchor with
  | none => some 8
  | some key =>
    match hssCheck false key (area.drop x.sigOfs) x.sigLen (area.take 128) with
    | .types => some 6
    | .length => some 5
    | .invalid => some 7
    | .pass => none

/-- Step 4 of R108: the top page against ROOT. -/
def topErr (b : Binding) (area : List Byte) : Option Nat :=
  let x := headOf area
  if nodeDigest b.regionId x.version x.depth 0 (slice area x.nodeOfs 4096) = x.root then none else some 9

/-- Steps 2-4 of R108 over the bytes of a manifest area: the reason of the first failure, or what the header gives. -/
def checkManifest (s : State) (b : Binding) (area : List Byte) : Nat ⊕ Anchored :=
  match (headErr s b area).orElse (fun _ => (sigErr s b area).orElse (fun _ => topErr b area)) with
  | some r => .inl r
  | none => .inr (headOf area)

/-- How many pages anchoring reads in all, given those read so far: the header's, then those below the node pages and the top page
(R108, R110). -/
def areaNeed (s : State) (b : Binding) (pages : List (List Byte)) : Nat :=
  if pages.isEmpty then 1
  else if (headErr s b pages.flatten).isSome then pages.length
  else min b.manPages ((headOf pages.flatten).nodeOfs / 4096 + 1)

/-- Costs of the hash jobs of anchoring's first part: an ember hash for each manifest ember below the node pages, and the
signature's jobs (R108, R110, R115). A header that fails asks for the hash of the embers read and no more. -/
def anchorJobs (s : State) (b : Binding) (pages : List (List Byte)) : List Nat :=
  let area := pages.flatten
  let x := headOf area
  match headErr s b area, anchorPub s b.anchor with
  | none, some key => List.replicate (x.nodeOfs / 4096) 65 ++ hssJobs key (slice area x.sigOfs x.sigLen) 128
  | none, none => List.replicate (x.nodeOfs / 4096) 65
  | some _, _ => List.replicate pages.length 65

/-- The next node page the walker must read to prove level-k page j, after `n` pages from it upward: none once the last one read
has a resident parent (R109). -/
def walkNext (s : State) (b : Binding) (bk : BankId) (k j n : Nat) : Option (Nat × Nat) :=
  let up := fun (m : Nat) => (k + m, j / 128 ^ m)
  match n with
  | 0 => some (k, j)
  | m + 1 =>
    let (l, p) := up m
    if l = manDepth b.blocks ∨ (nodeGet s b.bind bk l p).isSome then none else some (up n)

/-- The bytes a manifest ember below the node pages must hold: header, signature and 0xFF filler (R110). -/
def manCanonical (x : Anchored) (area : List Byte) (p : Nat) : List Byte :=
  (List.range 4096).map (fun i =>
    let o := 4096 * p + i
    if o < 128 ∨ (x.sigOfs ≤ o ∧ o < x.sigOfs + x.sigLen) then byteAt area o else 0xFF#8)

/-- Insert the digests a proven level-k page j holds (R109). -/
def insertPage (s : State) (b : Binding) (bk : BankId) (k j : Nat) (page : List Byte) (pin : Bool) : State :=
  (List.range 128).foldl (fun s x =>
    let i := 128 * j + x
    if i < levelPages b.blocks (k - 1) then
      nodePut s b.bind bk (k - 1) i (digOf (slice page (32 * x) 32)) (pin || (k = 1 && pinLeaf s b bk i))
    else s) s

/-- Every pin that R114 requires of a bank is held: ROOT, the top page's digests, the expected digests, and the leaf digests to be
pinned (VE_BIND_STATE.PINNED). -/
def bankPinned (s : State) (b : Binding) (bk : BankId) : Bool :=
  let r := bankRt s b.bind bk
  let held := fun (lv i : Nat) => s.ve.nodes.any (fun e => e.bind = b.bind && e.bank = bk && e.level = lv && e.idx = i && e.pin)
  let top := manDepth b.blocks - 1
  (r.st = .anchored || r.st = .armed) && held 9 0 &&
    (List.range (levelPages b.blocks top)).all (held top) &&
    (List.range (r.nodeOfs / 4096)).all (held 10) &&
    (List.range b.blocks).all (fun i => !pinLeaf s b bk i || held 0 i)

/-- How a Merkle walk ends. -/
inductive WalkRes where
  | proved (s : State)
  /-- The page at this place of the manifest area fails its check. -/
  | failed (s : State) (page : Nat)
  /-- The reads of the walk are not all there. -/
  | short

/-- The digest a level-k page j must have, if it is resident: ROOT for the top page. -/
def pageParent (s : State) (b : Binding) (bk : BankId) (k j : Nat) : Option Digest :=
  if k = manDepth b.blocks then some (bankRt s b.bind bk).root else nodeGet s b.bind bk k j

/-- Prove level-k page j, given the pages read from it upward to the first page with a resident parent (R109).
Log entry 18 (DESIGN CHOICE, DEDUCED). -/
def provePage (b : Binding) (bk : BankId) : Nat → Nat → List (List Byte) → State → WalkRes
  | _, _, [], _ => .short
  | k, j, pg :: up, s =>
    let rt := bankRt s b.bind bk
    let d := nodeDigest b.regionId rt.version.toNat k j pg
    let place := rt.nodeOfs / 4096 + nodeIndex b.blocks k j
    let chk := fun (s : State) =>
      if pageParent s b bk k j = some d then WalkRes.proved (insertPage (nodeTouch s b.bind bk k j) b bk k j pg false)
      else .failed s place
    if (pageParent s b bk k j).isSome then chk s
    else match provePage b bk (k + 1) (j / 128) up s with
      | .proved s => chk s
      | r => r

/-- The digest that verifies an object of an anchored bank, and the page whose proof would make it resident. -/
inductive Expect where
  | digest (d : Digest)
  /-- Level and page to prove first. -/
  | page (k j : Nat)
  | none

/-- What a manifest ember or data ember is checked against (R109, R110). -/
def expectOf (s : State) (b : Binding) (bk : BankId) (o : EmberObj) : Expect :=
  let rt := bankRt s b.bind bk
  match o with
  | .data i => match nodeGet s b.bind bk 0 i with
    | some d => .digest d
    | none => if i < b.blocks then .page 1 (i / 128) else .none
  | .man p =>
    if p < rt.nodeOfs / 4096 then
      match nodeGet s b.bind bk 10 p with
      | some d => .digest d
      | none => .none
    else match nodeAt b.blocks (p - rt.nodeOfs / 4096) with
      | some (k, j) => match pageParent s b bk k j with
        | some d => .digest d
        | none => .page (k + 1) (j / 128)
      | none => .digest (sha256 (fillBytes 4096 0xFF))

/-- The digest of an object's bytes (Table 4.3, R110). -/
def objDigest (s : State) (b : Binding) (bk : BankId) (o : EmberObj) (data : List Byte) : Digest :=
  let rt := bankRt s b.bind bk
  match o with
  | .data i => emberDigest b.regionId rt.version.toNat i data
  | .man p =>
    if p < rt.nodeOfs / 4096 then sha256 data
    else match nodeAt b.blocks (p - rt.nodeOfs / 4096) with
      | some (k, j) => nodeDigest b.regionId rt.version.toNat k j data
      | none => sha256 data

/-- The outcome of checking an object's bytes, with what the walk inserted. -/
inductive CheckRes where
  | pass (s : State)
  | mismatch (s : State) (d : Digest)
  | node (s : State) (page : Nat)
  | short

/-- Check an object: hash it, prove the page of its digest where that is not resident, compare (R109).
Log entry 18 (DESIGN CHOICE, DEDUCED). -/
def checkObj (s : State) (b : Binding) (bk : BankId) (o : EmberObj) (data : List Byte) (pages : List (List Byte)) :
    CheckRes :=
  let d := objDigest s b bk o data
  let touch := fun (s : State) => match o with
    | .data i => nodeTouch s b.bind bk 0 i
    | .man p =>
      if p < (bankRt s b.bind bk).nodeOfs / 4096 then nodeTouch s b.bind bk 10 p
      else match nodeAt b.blocks (p - (bankRt s b.bind bk).nodeOfs / 4096) with
        | some (k, j) => nodeTouch s b.bind bk k j
        | none => s
  let cmp := fun (s : State) => match expectOf s b bk o with
    | .digest e => if e = d then CheckRes.pass (touch s) else .mismatch (touch s) d
    | _ => .mismatch s d
  match expectOf s b bk o with
  | .digest _ => cmp s
  | .none => .mismatch s d
  | .page k j =>
    match provePage b bk k j pages s with
    | .proved s => cmp s
    | .failed s p => .node s p
    | .short => .short

end Sys2Proof.Machine
end

