-- ==== Sys2Proof/Machine/Verify.lean ====
section
/-! DEFINITION. The verification engine: anchoring, ember checks, rereads, clinkers and their responses, pre-flip checks,
scrub, known-answer tests and revocation (R104-R133). -/

namespace Sys2Proof.Machine

/-- A clinker's response where its ember has no governing descriptor. -/
def respOf (s : State) (id : EmberId) : Nat :=
  match governing s.ch[id.ch] id.vem with
  | some i => rgnClinker s.ch[id.ch].cfg.desc[i]
  | none => 3

/-- The ember's bank serves it now (R150). -/
def isServing (s : State) (id : EmberId) : Bool :=
  match governing s.ch[id.ch] id.vem with
  | some i => (emberAt s.ch[id.ch] id.ch i (rgnRd s.ch[id.ch].cfg.desc[i] = 3) (4096 * id.vem)).any (sameEmber id)
  | none => false

/-- The golden bank of a binding is present and not failed, rejected or revoked (R126, R132). -/
def goldUsable (s : State) (b : Binding) : Bool :=
  bindGold s b && (match (bankRt s b.bind .g).st with | .failed | .rejected | .revoked => false | _ => true)

/-- Squash the channel's billets in flight; its open slots close as ABANDONED (R126 HOLD_REBOOT). A committed write and a requested
tally extension are committed results and stay (R24, R39, R91).
Log entry 19 (DESIGN CHOICE, DEDUCED). -/
def squashChannel (s : State) (c : Ch) : State :=
  let s := s.ch[c].slots.foldl (fun s x => abandonSlot s c x) s
  squash s (unitsWhere s (fun u => u.owner = .ch c && (match u.work with | .write _ | .tally _ _ => false | _ => true)))

/-- The clinker hold of a channel is set and its line goes low (R126). -/
def setClkHold (s : State) (c : Ch) : State :=
  regate { s with ve := { s.ve with clkHold := setBit s.ve.clkHold c.val } }

/-- The strict descriptor that governs a page becomes FAILED. -/
def strictFailAt (s : State) (c : Ch) (vem : Nat) : State :=
  match governing s.ch[c] vem with
  | some i => if rgnStrict s.ch[c].cfg.desc[i] then setStrict s c i (fun r => { r with st := .failed }) else s
  | none => s

/-- HOLD_REBOOT without a usable golden bank: the hold stays, the strict descriptor concerned is FAILED and the others
PENDING (Table 4.9, R127). -/
def holdNoWay (s : State) (id : EmberId) : State :=
  let s := setClkHold s id.ch
  let s := squashChannel s id.ch
  let s := strictPend s id.ch (fun _ => true)
  strictFailAt s id.ch id.vem

/-- HOLD_REBOOT (Table 4.9): hold, squash, and where a golden bank is usable select it, purge the failed bank's embers,
return every strict descriptor to PENDING and clear the hold.
Log entry 17 (DEDUCED, DESIGN CHOICE). -/
def holdReboot (s : State) (id : EmberId) (b : Binding) : State :=
  match bsetAt s.ch[id.ch] (4096 * id.vem) with
  | some i =>
    if goldUsable s b then
      let s := setClkHold s id.ch
      let s := squashChannel s id.ch
      let s := selectGolden s id.ch i
      let s := freeFrames s (fun x => x.id.ch = id.ch && x.id.bank = id.bank && bsetAt s.ch[id.ch] (4096 * x.id.vem) = some i)
      let s := strictPend s id.ch (fun _ => true)
      let s := modCh s id.ch (fun k => { k with goldReboot := true })
      { s with ve := { s.ve with clkHold := clrBit s.ve.clkHold id.ch.val } }
    else holdNoWay s id
  | none => holdNoWay s id

/-- After a change of the descriptors' banks the cache holds embers of serving banks only: frames whose bank serves no more are FREE,
pins follow, and a fill still reading one is discarded when it completes (R114, R146, R150, R165). -/
def dropUnserved (s : State) (c : Ch) : State :=
  repin (freeFrames s (fun x => x.st ≠ .filling && x.id.ch = c && !isServing s x.id)) c

/-- SUBSTITUTE (Table 4.9): the governing descriptor is served from golden, and its embers of the other bank leave the cache; a fill
still reading one is discarded when it completes (R150, R165). Where golden is failed, as HOLD_REBOOT without a golden
bank. -/
def substitute (s : State) (id : EmberId) (b : Binding) : State :=
  match governing s.ch[id.ch] id.vem with
  | some i =>
    if goldUsable s b then
      let s := modCh s id.ch (fun k => { k with subst := setBit k.subst i.val })
      strictPend (dropUnserved s id.ch) id.ch (fun j => j = i)
    else holdNoWay s id
  | none => s

/-- LOG (Table 4.9): the ember enters the clinker list, once, if it has room; a strict ember that stands in the list has its verdict
(R119, R128). -/
def listClinker (s : State) (id : EmberId) : State :=
  let s := if emberListed s id then s
    else if s.ve.clist.length < 256 then
      { s with ve := { s.ve with clist := s.ve.clist ++ [clistEnt id.bind id.bank (objOf s id)] } }
    else { s with ve := { s.ve with clistFull := true } }
  match governing s.ch[id.ch] id.vem with
  | some i =>
    let r := s.ch[id.ch].strict[i]
    if r.st ≠ .none ∧ emberListed s id ∧ !r.done.contains id.vem then
      setStrict s id.ch i (fun r => { r with done := id.vem :: r.done }) else s
  | none => s

/-- Take the governing descriptor's clinker response for an ember of a serving bank (R126, R127). -/
def clinkerResponse (s : State) (id : EmberId) : State :=
  match bindingOf s id.bind with
  | none => s
  | some b =>
    let s' := match respOf s id with
      | 0 => if id.bank = .g ∨ s.ch[id.ch].goldReboot then holdNoWay s id else holdReboot s id b
      | 1 => if id.bank = .g ∨ s.ch[id.ch].goldReboot then holdNoWay s id else substitute s id b
      | 2 => listClinker s id
      | _ => s
    settle s' id.ch

/-- An ember fails (R126): counted, logged, every fill or check of it squashed, and the response taken. Found by scrub, it takes
the response of an active bank; in an inactive bank and in a golden bank the bank becomes FAILED (R132). -/
def clinker (s : State) (id : EmberId) (reason : Nat) (scrub : Bool) : State :=
  let bi := match bindingOf s id.bind with | some b => bankInfo s b id.bank | none => 0
  let serving := isServing s id || (scrub && bi = 0)
  let shown := if serving then respOf s id else 3
  let s := veInt (modCh s id.ch (fun k => { k with statClk := satAdd 255 k.statClk 1 })) 0
  let s := match slotOf s id with
    | some x => closeSlot s id.ch x 0x01 shown reason
    | none => veRecord s id.ch.val 0x01 id.bind (infoOf bi shown reason) (objCode (objOf s id)) 0 true
  let s := squash s (unitsWhere s (fun u => match workEmber u.work with | some x => sameEmber x id | none => false))
  let s := match frameOf s id with | some (f, _) => freeFrame s f | none => s
  let s := if scrub ∧ bi ≠ 0 then setBank s id.bind id.bank (fun r => { r with st := .failed }) else s
  if serving then clinkerResponse s id else settle s id.ch

/-- Every strict descriptor served by a bank that was rejected or revoked is FAILED (Table 4.7). -/
def strictFailBank (s : State) (b : Binding) (bk : BankId) : State :=
  ((strictOf s.ch[b.ch]).filter (fun i => rgnMbind s.ch[b.ch].cfg.desc[i] = b.bind && rgnBank s.ch[b.ch] i = bk)).foldl
    (fun s i => setStrict s b.ch i (fun r => { r with st := .failed })) s

/-- A bank is rejected (R108): logged; checks and slots open on it end as clinkers of reason 5; it serves nothing, so its embers leave
the cache; strict descriptors over it are FAILED; a golden bank rejected during HOLD_REBOOT sets the clinker hold (R127). For
a pre-flip check the bank is FAILED (R129).
Log entry 19 (DESIGN CHOICE, DEDUCED). -/
def rejectBank (s : State) (b : Binding) (bk : BankId) (reason : Nat) (stage : Bool) : State :=
  if stage then
    let s := setBank s b.bind bk (fun r => { r with st := .failed, reason := reason })
    veInt (veRecord s 0 0x08 b.bind (infoOf (bankInfo s b bk) 3 reason) (2 * 2 ^ 30) 0 true) 5
  else
    let s := setBank s b.bind bk (fun r => { r with st := .rejected, reason := reason, version := 0, reanchor := false })
    let s := veInt (veRecord s 0 0x05 b.bind (infoOf (bankInfo s b bk) 3 reason) (2 * 2 ^ 30) 0 true) 2
    let open5 := (unitsWhere s (fun u => match workEmber u.work with
      | some x => x.bind = b.bind && x.bank = bk | none => false)).filterMap (fun i => match unitOf s i with
        | some u => workEmber u.work
        | none => none)
    let s := open5.foldl (fun s x => if (unitsWhere s (fun u => workEmber u.work = some x)).isEmpty then s else clinker s x 5 false) s
    let s := squash s (unitsWhere s (fun u => match u.work with
      | .leaf bi k _ => bi = b.bind && k = bk | .scrub bi k _ _ _ => bi = b.bind && k = bk | _ => false))
    let s := freeFrames s (fun x => x.id.bind = b.bind && x.id.bank = bk)
    let s := nodeDrop s (fun e => e.bind = b.bind && e.bank = bk)
    let s := strictFailBank s b bk
    let s := if bk = .g ∧ s.ch[b.ch].goldReboot then setClkHold s b.ch else s
    settle s b.ch

/-- A bank is anchored: ROOT, the top page's digests and the expected digests of the manifest embers below the node pages are
pinned, its clinker-list entries clear, the tally is extended with the measurement and the event logged (R108, R110, R114,
R128).
Log entry 19 (DESIGN CHOICE, DEDUCED). -/
def anchorOk (s : State) (b : Binding) (bk : BankId) (x : Anchored) (area : List Byte) (stage : Bool) : State :=
  let s := setBank s b.bind bk (fun r => { r with
    st := if stage then .checking else .anchored, reason := 0, reanchor := false, depth := x.depth, version := BitVec.ofNat 32 x.version
    root := x.root, sigOfs := x.sigOfs, sigLen := x.sigLen, nodeOfs := x.nodeOfs })
  let s := nodePut s b.bind bk 9 0 x.root true
  let s := insertPage s b bk x.depth 0 (slice area x.nodeOfs 4096) true
  let s := (List.range (x.nodeOfs / 4096)).foldl (fun s p =>
    nodePut s b.bind bk 10 p (sha256 (manCanonical x area p)) true) s
  let s := clistDrop s (fun e => e.bind = b.bind && e.bank = bk)
  let s := tallyRequest s b.tally (sha256 (area.take 128)) (.ch b.ch) none
  veRecord s 0 0x04 b.bind (infoOf (bankInfo s b bk) 3 0) (2 * 2 ^ 30) 0 false

/-- Put a verified ember's bytes into a frame as VALID, pinned where strict (R110, R146). -/
def placeVerified (s : State) (id : EmberId) (pin : Bool) (data : List Byte) : State :=
  match frameOf s id with
  | some _ => s
  | none =>
    match victim s id.ch (setOf s.ch[id.ch] id.fen) with
    | some (f, _) => setFrame (takeFrame (freeFrame s f) f id false) f (fun x => ⟨.valid, x.id, pin, x.rank, false, data⟩)
    | none => s

/-- A strict ember has passed: its descriptor takes note (R119, R120). -/
def strictPass (s : State) (id : EmberId) : State :=
  match governing s.ch[id.ch] id.vem with
  | some i =>
    if rgnStrict s.ch[id.ch].cfg.desc[i] ∧ isServing s id ∧ !(s.ch[id.ch].strict[i]).done.contains id.vem then
      setStrict s id.ch i (fun r => { r with st := if r.st = .pending then .running else r.st, done := id.vem :: r.done })
    else s
  | none => s

/-- Manifest embers below the node pages pass with the anchoring that read them: they are placed like any strict ember
(R110).
Log entry 19 (DESIGN CHOICE, DEDUCED). -/
def anchorEmbers (s : State) (b : Binding) (bk : BankId) (x : Anchored) (area : List Byte) : State :=
  (List.range (x.nodeOfs / 4096)).foldl (fun s p =>
    let vem := b.manBase / 4096 + p
    let data := slice area (4096 * p) 4096
    match governing s.ch[b.ch] vem with
    | some i =>
      match emberAt s.ch[b.ch] b.ch i false (4096 * vem) with
      | some id =>
        if rgnStrict s.ch[b.ch].cfg.desc[i] ∧ id.bank = bk ∧ data = manCanonical x area p then
          strictPass (placeVerified s id true data) id
        else s
      | none => s
    | none => s) s

/-- Order of a pre-flip check's objects: node pages from the top, data embers, the manifest embers above the node pages. Those below
passed with the anchoring that hashed them (R110, R129). -/
def stageObj (s : State) (b : Binding) (bk : BankId) (n : Nat) : Option EmberObj :=
  let np := nodePages b.blocks
  let first := (bankRt s b.bind bk).nodeOfs / 4096
  if n < np then some (.man (first + n))
  else if n < np + b.blocks then some (.data (n - np))
  else
    let p := first + (n - b.blocks)
    if p < b.manPages then some (.man p) else none

/-- Objects of a scrub pass in the order of R170: 0 the signature, then the manifest area's pages, then the data embers of
the groups cold at the start of the pass, then the rest. -/
def scrubData (b : Binding) (r : BankRt) : List Nat :=
  let g := cdiv b.blocks 1024
  let hot := fun (i : Nat) => r.hotStart.contains (i / g)
  (idxs (fun i => !hot i) b.blocks) ++ (idxs hot b.blocks)

/-- Object n of a scrub pass: none for the signature.
Log entry 19 (DESIGN CHOICE, DEDUCED). -/
def scrubObj (b : Binding) (r : BankRt) (n : Nat) : Option EmberObj :=
  if n = 0 then none
  else if n ≤ b.manPages then some (.man (n - 1))
  else (scrubData b r)[n - 1 - b.manPages]?.map EmberObj.data

/-! How a check goes on: its object, the walker's pages, the compare (R109). -/

/-- Change what a unit has in SRAM. -/
def modUnit (s : State) (id : Nat) (f : Billet → Billet) : State :=
  match unitOf s id with
  | some b => { s with bt := { s.bt with units := aput s.bt.units id (f b) } }
  | none => s
def setPhase (s : State) (id n : Nat) : State := modUnit s id (fun b => { b with phase := n })
def pushPage (s : State) (id : Nat) (pg : List Byte) : State := modUnit s id (fun b => { b with pages := b.pages ++ [pg] })
def dropPages (s : State) (id : Nat) : State := modUnit s id (fun b => { b with pages := [] })

/-- The tier of a unit's hash work (Table 4.6). -/
def unitTier (s : State) (w : Work) : Nat :=
  match w with
  | .check id _ _ _ => checkTier s id
  | .anchor _ _ true _ => 1
  | .scrub _ _ _ _ _ => 3
  | _ => 2

/-- The object a unit verifies, with its binding and bank. -/
def unitObj (s : State) (w : Work) : Option (Binding × BankId × EmberObj) :=
  match w with
  | .check id _ _ _ => (bindingOf s id.bind).map (fun b => (b, id.bank, objOf s id))
  | .stage bi bk n _ => (bindingOf s bi).bind (fun b => (stageObj s b bk n).map (fun o => (b, bk, o)))
  | .scrub bi bk n _ _ => (bindingOf s bi).bind (fun b => (scrubObj b (bankRt s bi bk) n).map (fun o => (b, bk, o)))
  | _ => none

/-- The node page a unit's walk begins with, none where the digest it compares with is resident. -/
def unitWalk (s : State) (w : Work) : Option (Binding × BankId × Option (Nat × Nat)) :=
  match w with
  | .leaf bi bk p => (bindingOf s bi).map (fun b => (b, bk, some (1, p)))
  | w => (unitObj s w).map (fun (b, bk, o) => (b, bk, match expectOf s b bk o with | .page k j => some (k, j) | _ => none))

/-- The binding and bank a unit works on. -/
def unitBank (w : Work) : Option (Nat × BankId) :=
  match w with
  | .check id _ _ _ => some (id.bind, id.bank)
  | .stage bi bk _ _ | .scrub bi bk _ _ _ | .leaf bi bk _ | .anchor bi bk _ _ => some (bi, bk)
  | _ => none

/-- The digests of a unit's bank are at hand: it is anchored, or being checked by this unit. A bank found FAILED by scrub keeps
its anchoring. -/
def bankReady (s : State) (w : Work) : Bool :=
  match unitBank w with
  | none => false
  | some (b, bk) =>
    let r := bankRt s b bk
    match r.st with
    | .anchored | .armed => true
    | .failed => decide (r.nodeOfs ≠ 0)
    | .checking => (match w with | .stage _ _ _ _ => true | _ => false)
    | _ => false

/-- The data a unit's object was hashed from: its frame's, or its own buffer's. -/
def unitData (s : State) (u : Billet) : List Byte :=
  match u.work with
  | .check _ _ (some f) _ => (match aget s.ec.frames f with | some x => x.data | none => [])
  | _ => u.buf

/-- A signal-integrity event (R112). -/
def siEvent (s : State) (c : Ch) : State :=
  veInt (modCh s c (fun k => { k with statSi := satAdd 0xFFFF k.statSi 1, siPass := k.siPass + 1 })) 1

/-- A reread that cleared a mismatch: the event with its SI_PASS record (R112). -/
def siPassed (s : State) (b : Binding) (bk : BankId) (o : EmberObj) : State :=
  veRecord (siEvent s b.ch) b.ch.val 0x02 b.bind (infoOf (bankInfo s b bk) 3 0) (objCode o) 0 false

/-- A node page fails its check: NODE_FAIL (R109, Table 4.11). -/
def nodeFail (s : State) (b : Binding) (bk : BankId) (p : Nat) : State :=
  veRecord s b.ch.val 0x03 b.bind (infoOf (bankInfo s b bk) 3 3) (2 ^ 30 + p) 0 true

/-- A node page that passed as an object is a proven page: its digests are inserted (R109). -/
def learnPage (s : State) (b : Binding) (bk : BankId) (o : EmberObj) (data : List Byte) : State :=
  match o with
  | .man p =>
    let first := (bankRt s b.bind bk).nodeOfs / 4096
    (match nodeAt b.blocks (p - first) with
    | some (k, j) => if first ≤ p then insertPage s b bk k j data false else s
    | none => s)
  | .data _ => s

/-- Read the ember of a check once more into its frame: on its slot's billet, which it holds until it closes, or on a fill billet
drawn for it (R112, R113, R211).
Log entry 18 (DESIGN CHOICE, DEDUCED). -/
def refetch (s : State) (uid : Nat) (id : EmberId) (f : Option Nat) : State :=
  let s := match f with | some f => setFrame s f (fun x => ⟨.filling, x.id, x.pin, x.rank, x.pf, []⟩) | none => s
  match slotOf s id with
  | some x =>
    (match unitOf s x.billet with
    | some b => (match b.work with
      | .slot _ => portEnq (setWork (slotTo s id .queued) x.billet (.readFor uid id)) id.fp x.billet false
      | _ => unitRead (slotTo s id .queued) uid id)
    | none => unitRead s uid id)
  | none => unitRead s uid id

/-- The ember of a unit's object, where the unit reads it itself. -/
def unitEmber (s : State) (w : Work) : Option EmberId := (unitObj s w).bind (fun (b, bk, o) => objEmber s b bk o)

/-- Read the object of a pre-flip check (R129). -/
def stageRead (s : State) (uid : Nat) : State :=
  match unitOf s uid with
  | some u => (match unitEmber s u.work with | some e => unitRead (setPhase s uid 0) uid e | none => s)
  | none => s

/-- Release of a passed ember: the frame is VALID, pinned where strict, if its bank still serves, else FREE; its slot closes as PASS,
strict descriptors take note (R111, R120, R121, R146, R165). -/
def emberPass (s : State) (uid : Nat) (id : EmberId) (f : Option Nat) : State :=
  let strict := match governing s.ch[id.ch] id.vem with | some i => rgnStrict s.ch[id.ch].cfg.desc[i] | none => false
  let serving := isServing s id
  let s := match f with
    | some f => if serving then setFrame s f (fun x => ⟨.valid, x.id, strict, x.rank, x.pf, x.data⟩) else freeFrame s f
    | none => s
  let s := retire s uid
  let s := match slotOf s id with
    | some x => closeSlot s id.ch x 0 3 0
    | none => s
  settle (if f.isSome then strictPass s id else s) id.ch

/-- The check of an ember ends (R109, R112). A check whose frame was purged has no second read.
Log entry 63 (DESIGN CHOICE, DEDUCED). -/
def emberVerdict (s : State) (b : Binding) (uid : Nat) (id : EmberId) (why : FillWhy) (f : Option Nat) (first : Option Digest)
    (data : List Byte) (r : CheckRes) : State :=
  match r with
  | .short => s
  | .pass s' =>
    let o := objOf s id
    let s' := foldVerdict (reachTime s' (s'.clk.now + 10)) true b.bind 0
    let s' := learnPage s' b id.bank o data
    let s' := if first.isSome then siPassed s' b id.bank o else s'
    emberPass s' uid id f
  | .mismatch s' d =>
    let s' := foldVerdict s' true b.bind 1
    match first with
    | none =>
      if f.isNone ∧ (slotOf s' id).isNone then retire s' uid
      else refetch (setPhase (dropPages (setWork s' uid (.check id why f (some d))) uid) uid 0) uid id f
    | some d0 => if d0 = d then clinker s' id 1 false else clinker (siEvent s' id.ch) id 2 false
  | .node s' p =>
    clinker (nodeFail (foldVerdict s' true b.bind 2) b id.bank p) id 3 false

/-- Scrub has checked object n of a bank: the cursor moves, a finished pass counts and starts over (R130, R170). -/
def scrubNext (s : State) (b : Binding) (bk : BankId) : State :=
  setBank s b.bind bk (fun r =>
    if r.scrubCur + 1 < 1 + b.manPages + b.blocks then { r with scrubCur := r.scrubCur + 1 }
    else { r with scrubCur := 0, scrubPasses := (r.scrubPasses + 1) % 256, hotStart := r.hot, hot := [] })

/-- The pages that hold a bank's header and signature. -/
def sigPages (r : BankRt) : Nat := cdiv (r.sigOfs + r.sigLen) 4096

/-- Scrub's re-verification of a bank's signature ends (R130, R132). It follows R112: a failure is read again once; a second one rejects
the bank with the reason the signature gives, which R130 leaves open.
Log entry 63 (DESIGN CHOICE, DEDUCED). -/
def scrubSignature (s : State) (b : Binding) (uid : Nat) (bk : BankId) (id : EmberId) (first : Option Digest)
    (pages : List (List Byte)) : State :=
  let area := pages.flatten
  let d := sha256 area
  match sigErr s b area, first with
  | none, _ =>
    let s := foldVerdict (retire s uid) true b.bind 0
    scrubNext (if first.isSome then siPassed s b bk (.man 0) else s) b bk
  | some _, none =>
    let e := (objEmber s b bk (.man 0)).getD id
    portEnq (dropPages (setWork (foldVerdict s true b.bind 1) uid (.scrub b.bind bk 0 e (some d))) uid) e.fp uid false
  | some r, some d0 =>
    let s := foldVerdict (retire s uid) true b.bind 1
    rejectBank (if d0 = d then s else siEvent s b.ch) b bk r false

/-- The end of a scrub check (R130-R132): a pass leaves the clinker list; a mismatch is read once more and then is a clinker. -/
def scrubVerdict (s : State) (b : Binding) (uid : Nat) (bk : BankId) (n : Nat) (id : EmberId) (first : Option Digest) (o : EmberObj)
    (r : CheckRes) : State :=
  match r with
  | .short => s
  | .pass s' =>
    let s' := foldVerdict (retire s' uid) true b.bind 0
    let s' := if first.isSome then siPassed s' b bk o else s'
    scrubNext (clistDrop s' (fun x => decide (x = clistEnt b.bind bk o))) b bk
  | .mismatch s' d =>
    let s' := foldVerdict s' true b.bind 1
    (match first with
    | none => portEnq (setPhase (dropPages (setWork s' uid (.scrub b.bind bk n id (some d))) uid) uid 0) id.fp uid false
    | some d0 =>
      let s' := scrubNext (retire s' uid) b bk
      if d0 = d then clinker s' id 1 true else clinker (siEvent s' id.ch) id 2 true)
  | .node s' p =>
    let s' := scrubNext (retire (foldVerdict s' true b.bind 2) uid) b bk
    clinker (nodeFail s' b bk p) id 3 true

/-- The pre-flip check ended with every step passed: the bank is ARMED (R129). -/
def stagePass (s : State) (uid : Nat) (b : Binding) (bk : BankId) : State :=
  let s := setBank s b.bind bk (fun r => { r with st := .armed })
  veInt (veRecord (retire s uid) 0 0x07 b.bind (infoOf (bankInfo s b bk) 3 0) (2 * 2 ^ 30) 0 false) 5

/-- Its first failure makes the bank FAILED (R129). -/
def stageFail (s : State) (uid : Nat) (b : Binding) (bk : BankId) (o : EmberObj) (reason : Nat) : State :=
  let s := setBank s b.bind bk (fun r => { r with st := .failed })
  veInt (veRecord (squash s [uid]) 0 0x08 b.bind (infoOf (bankInfo s b bk) 3 reason) (objCode o) 0 true) 5

/-- A pre-flip check goes on with object n, or has passed (R129). -/
def stageGo (s : State) (uid : Nat) (b : Binding) (bk : BankId) (n : Nat) : State :=
  match stageObj s b bk n with
  | none => stagePass s uid b bk
  | some _ => stageRead (dropPages (setWork s uid (.stage b.bind bk n none)) uid) uid

/-- The end of a pre-flip check's object (R112, R129). -/
def stageVerdict (s : State) (b : Binding) (uid : Nat) (bk : BankId) (n : Nat) (first : Option Digest) (o : EmberObj)
    (data : List Byte) (r : CheckRes) : State :=
  match r with
  | .short => s
  | .pass s' =>
    let s' := learnPage (foldVerdict s' true b.bind 0) b bk o data
    stageGo (if first.isSome then siPassed s' b bk o else s') uid b bk (n + 1)
  | .mismatch s' d =>
    let s' := foldVerdict s' true b.bind 1
    (match first with
    | none => stageRead (dropPages (setWork s' uid (.stage b.bind bk n (some d))) uid) uid
    | some d0 => if d0 = d then stageFail s' uid b bk o 1 else stageFail (siEvent s' b.ch) uid b bk o 2)
  | .node s' p => stageFail (nodeFail (foldVerdict s' true b.bind 2) b bk p) uid b bk o 3

/-- Leaf digests of a proven level-1 page are loaded (R114); a page that fails is a node failure. -/
def leafVerdict (s : State) (b : Binding) (uid : Nat) (bk : BankId) (r : WalkRes) : State :=
  match r with
  | .short => s
  | .proved s => settle (retire (foldVerdict s true b.bind 0) uid) b.ch
  | .failed s p => nodeFail (retire (foldVerdict s true b.bind 2) uid) b bk p

/-- The compare of a unit whose object is hashed and whose walk is complete. -/
def unitJudge (s : State) (uid : Nat) (u : Billet) : State :=
  match u.work with
  | .leaf bi bk p => (match bindingOf s bi with
    | some b => leafVerdict s b uid bk (provePage b bk 1 p u.pages s)
    | none => s)
  | w => (match unitObj s w with
    | none => s
    | some (b, bk, o) =>
      let data := unitData s u
      let r := checkObj s b bk o data u.pages
      match w with
      | .check id why f first => emberVerdict s b uid id why f first data r
      | .scrub _ _ n id first => scrubVerdict s b uid bk n id first o r
      | .stage _ _ n first => stageVerdict s b uid bk n first o data r
      | _ => s)

/-- A unit goes on once its object is hashed or a page has come: the walker reads the next node page, or has the pages it read hashed,
or the compare is made. A bank that is not anchored yet holds the compare (R109, R113); scrub leaves a bank that it skips
(R131).
Log entry 18 (DESIGN CHOICE, DEDUCED). -/
def unitGo (s : State) (uid : Nat) : State :=
  match unitOf s uid with
  | none => s
  | some u =>
    if !bankReady s u.work then
      (match u.work with
      | .scrub _ _ _ _ _ => retire s uid
      | _ => setPhase (setUnitSt s uid .waiting) uid 3)
    else match unitWalk s u.work with
      | none => s
      | some (_, _, none) => unitJudge s uid u
      | some (b, bk, some (k, j)) =>
        match walkNext s b bk k j u.pages.length with
        | none => hashEnq (setPhase s uid 2) (unitTier s u.work) uid (65 * u.pages.length) u.owner
        | some (l, p) =>
          match objEmber s b bk (.man ((bankRt s b.bind bk).nodeOfs / 4096 + nodeIndex b.blocks l p)) with
          | some e => unitRead (setPhase s uid 1) uid e
          | none => s

/-- The units that waited for a bank's anchoring go on. -/
def wakeBank (s : State) (bind : Nat) (bk : BankId) : State :=
  (unitsWhere s (fun u => u.phase = 3 && unitBank u.work = some (bind, bk))).foldl unitGo s

/-- A unit is an anchoring. -/
def isAnchoring : Work → Bool
  | .anchor _ _ _ _ => true
  | _ => false

/-- A parity error voids the check: what it read is discarded and fetched again, and the check starts again (R113).
Log entry 18 (DESIGN CHOICE, DEDUCED). -/
def voidUnit (s : State) (uid : Nat) : State :=
  match unitOf s uid with
  | none => s
  | some u =>
    let s := hashDrop s uid
    let s := match unitBank u.work, unitObj s u.work with
      | some (bi, bk), o =>
        let info := match bindingOf s bi with | some b => infoOf (bankInfo s b bk) 3 0 | none => 0
        let c := match bindingOf s bi with | some b => b.ch.val | none => 0
        let obj := match o, u.work with
          | some (_, _, o), _ => objCode o
          | none, .leaf _ _ p => 2 ^ 30 + (match bindingOf s bi with
            | some b => (bankRt s bi bk).nodeOfs / 4096 + nodeIndex b.blocks 1 p | none => 0)
          | none, _ => 2 * 2 ^ 30
        veRecord s c 0x0B bi info obj 0 false
      | none, _ => s
    if u.phase = 2 ∧ !isAnchoring u.work then unitGo (setPhase (dropPages s uid) uid 1) uid
    else
      let s := setPhase (dropPages s uid) uid 0
      match u.work with
      | .check id _ f _ => refetch s uid id f
      | .stage _ _ _ _ => stageRead s uid
      | .scrub bi bk 0 id first =>
        let e := match bindingOf s bi with | some b => (objEmber s b bk (.man 0)).getD id | none => id
        portEnq (setWork s uid (.scrub bi bk 0 e first)) e.fp uid false
      | .scrub _ _ _ id _ => portEnq s id.fp uid false
      | .anchor bi bk _ _ => (match (bindingOf s bi).bind (fun b => objEmber s b bk (.man 0)) with
        | some e => unitRead s uid e
        | none => s)
      | _ => s

/-- A parity error in a node-cache entry discards it; where it was ROOT, a digest of the top page or an expected digest, its bank is
anchored anew (R113). -/
def nodeLost (s : State) (bi : Nat) (bk : BankId) (lv i : Nat) : State :=
  match bindingOf s bi with
  | none => s
  | some b =>
    if (nodeGet s bi bk lv i).isNone then s
    else
      let s := nodeDrop s (fun e => e.bind = bi && e.bank = bk && e.level = lv && e.idx = i)
      if lv = 9 ∨ lv = 10 ∨ lv + 1 = manDepth b.blocks then
        match (bankRt s bi bk).st with
        | .anchored | .armed => settle (setBank s bi bk (fun r => { r with st := .idle, reanchor := true })) b.ch
        | _ => s
      else s

/-! Anchoring (R108). -/

/-- An anchoring goes on: it reads the next page of the manifest area, or has what it read hashed. -/
def anchorGo (s : State) (uid : Nat) (b : Binding) (bk : BankId) : State :=
  match unitOf s uid with
  | none => s
  | some u =>
    if u.pages.length < areaNeed s b u.pages then
      match objEmber s b bk (.man u.pages.length) with
      | some e => unitRead s uid e
      | none => s
    else hashJobs (setPhase s uid 1) (unitTier s u.work) uid (anchorJobs s b u.pages) u.owner

/-- The anchoring's last job ended: the verdict of steps 2-4 so far, its top page, or the bank is anchored, and a pre-flip check goes
on with its first object (R108, R110, R129). -/
def anchorVerdict (s : State) (uid : Nat) (u : Billet) (b : Binding) (bk : BankId) (stage : Bool) : State :=
  let area := u.pages.flatten
  let fail := fun (r : Nat) => settle (rejectBank (retire s uid) b bk r stage) b.ch
  if u.phase = 1 then
    match (headErr s b area).orElse (fun _ => sigErr s b area) with
    | some r => fail r
    | none => hashEnq (setPhase s uid 2) (unitTier s u.work) uid 65 u.owner
  else match topErr b area with
    | some r => fail r
    | none =>
      let x := headOf area
      let s := anchorOk s b bk x area stage
      if stage then stageGo (setPhase s uid 0) uid b bk 0
      else wakeBank (settle (anchorEmbers (retire s uid) b bk x area) b.ch) b.bind bk

/-- A pre-flip check of this bank is in progress. -/
def stageRunning (s : State) (bind : Nat) (bk : BankId) : Bool :=
  !(unitsWhere s (fun u => match u.work with
    | .anchor bi k _ _ => bi = bind && k = bk
    | .stage bi k _ _ => bi = bind && k = bk
    | _ => false)).isEmpty

/-- A flash that holds part of a bank of a binding has a program or erase outstanding (R129). -/
def bankBusy (s : State) (b : Binding) (bk : BankId) : Bool :=
  let k := s.ch[b.ch]
  let seg := (k.cfg.segs.map (·.vbase)).filter (fun v => decide (b.vbase ≤ v) && decide (v < b.vbase + 4096 * b.blocks))
  ([b.vbase, b.manBase] ++ seg).any (fun va => match physIn k bk va with
    | some (fp, cs, _) => flashBusy s fp cs
    | none => true)

/-- The pre-flip checks that were asked for begin as soon as no program or erase is outstanding in their flash and a billet can be
drawn: the inactive bank is anchored first, at tier 2 (R129). -/
def pumpStage (s : State) : State :=
  s.ve.bindings.foldl (fun s b =>
    match bindInactive s b with
    | none => s
    | some bk =>
      if !(bankRt s b.bind bk).stageReq || bankBusy s b bk || stageRunning s b.bind bk then s
      else match objEmber s b bk (.man 0) with
        | none => s
        | some e =>
          match draw .ver (.ch b.ch) none false (.anchor b.bind bk false true) s with
          | (none, s) => s
          | (some id, s) => unitRead (setBank s b.bind bk (fun r => { r with st := .checking, stageReq := false })) id e) s

/-- STAGE_CHECK: ask for the pre-flip check of a binding's inactive bank (R129); one that is in progress goes on.
Log entry 19 (DESIGN CHOICE, DEDUCED). -/
def stageCheck (s : State) (b : Binding) : State :=
  match bindInactive s b with
  | none => s
  | some bk =>
    if stageRunning s b.bind bk || decide ((bankRt s b.bind bk).st = .revoked) then s
    else pumpStage (setBank s b.bind bk (fun r => { r with stageReq := true }))

/-- A committed staged write makes the bank STAGED and squashes any pre-flip check running on it (R129). -/
def markStaged (s : State) (c : Ch) (va : Nat) (bk : BankId) : State :=
  let k := s.ch[c]
  match governing k (va / 4096) with
  | none => s
  | some i =>
    let b := rgnMbind k.cfg.desc[i]
    let s := squash s (unitsWhere s (fun u => match u.work with
      | .anchor bi x _ true => bi = b && x = bk | .stage bi x _ _ => bi = b && x = bk | _ => false))
    setBank s b bk (fun r => { r with st := .staged })

/-- ANCHORING: a job of an anchoring ends on its engine; with its last job the anchoring goes on to its verdict.
Log entry 18 (DESIGN CHOICE, DEDUCED). -/
def anchoringEnd (s : State) (e : Fin 12) (parity : Bool) : State :=
  match engJob s e with
  | none => s
  | some j =>
    match unitOf s j.billet with
    | none => s
    | some u =>
      match u.work with
      | .anchor bind bk _ stage =>
        (match bindingOf s bind with
        | none => s
        | some b =>
          let s := hashEnd s e
          if parity then voidUnit s j.billet
          else if jobsLeft s j.billet ≠ 0 then s
          else pumpStage (anchorVerdict s j.billet u b bk stage))
      | _ => s

/-- EMBER_CHECK: a hash job of a check ends on its engine: an object's, its node pages', a signature's under scrub. `parity` is an
error met meanwhile in what was hashed, `entry` one in the node-cache entry of a level (9 ROOT, 10 an expected digest) and index
of the bank (R113).
Log entry 18 (DESIGN CHOICE, DEDUCED). -/
def emberCheckEnd (s : State) (e : Fin 12) (entry : Option (Nat × Nat)) (parity : Bool) : State :=
  match engJob s e with
  | none => s
  | some j =>
    match unitOf s j.billet with
    | none => s
    | some u =>
      let go := fun (s : State) =>
        if jobsLeft s j.billet ≠ 0 then s
        else match u.work with
          | .scrub bi bk 0 id first => (match bindingOf s bi with
            | some b => scrubSignature s b j.billet bk id first u.pages
            | none => s)
          | w => if u.phase = 2 ∧ bankReady s w then
              (let s' := unitJudge s j.billet u
              if (unitOf s' j.billet) = (unitOf s j.billet) then unitGo s' j.billet else s')
            else unitGo s j.billet
      match u.work with
      | .check _ _ _ _ | .stage _ _ _ _ | .scrub _ _ _ _ _ | .leaf _ _ _ =>
        let s := hashEnd s e
        let s := match entry, unitBank u.work with
          | some (lv, i), some (bi, bk) => nodeLost s bi bk lv i
          | _, _ => s
        pumpStage (if parity then voidUnit s j.billet else go s)
      | _ => s

/-- Data that a dependent read brings go to its unit: the object to be hashed, the next node page, the next page of a manifest area. -/
def unitTake (s : State) (uid : Nat) (data : List Byte) : State :=
  match unitOf s uid with
  | none => s
  | some u =>
    let hash := fun (s : State) => hashEnq s (unitTier s u.work) uid 65 u.owner
    match u.work with
    | .anchor bi bk _ _ => (match bindingOf s bi with
      | some b => anchorGo (pushPage s uid data) uid b bk
      | none => s)
    | .check id _ f _ =>
      if u.phase = 1 then unitGo (pushPage s uid data) uid
      else hash (slotTo (match f with
        | some f => setFrame s f (fun x => ⟨.checking, x.id, x.pin, x.rank, x.pf, data⟩)
        | none => modUnit s uid (fun b => { b with buf := data })) id .queued)
    | .stage _ _ _ _ => if u.phase = 1 then unitGo (pushPage s uid data) uid else hash (modUnit s uid (fun b => { b with buf := data }))
    | .scrub _ _ _ _ _ | .leaf _ _ _ => unitGo (pushPage s uid data) uid
    | _ => s

/-- Scrub's own read brings a page of the signature, or its object (R130). -/
def scrubTake (s : State) (uid : Nat) (data : List Byte) : State :=
  match unitOf s uid with
  | none => s
  | some u =>
    match u.work with
    | .scrub bi bk 0 _ first =>
      (match bindingOf s bi with
      | none => s
      | some b =>
        let s := pushPage s uid data
        let n := u.pages.length + 1
        if n < sigPages (bankRt s bi bk) then
          match objEmber s b bk (.man n) with
          | some e => portEnq (setWork s uid (.scrub bi bk 0 e first)) e.fp uid false
          | none => s
        else
          let area := (u.pages ++ [data]).flatten
          let x := headOf area
          let jobs := match anchorPub s b.anchor with | some key => hssJobs key (slice area x.sigOfs x.sigLen) 128 | none => []
          hashJobs s 3 uid (if jobs.isEmpty then [3] else jobs) u.owner)
    | .scrub _ _ _ _ _ => hashEnq (modUnit s uid (fun b => { b with buf := data })) 3 uid 65 u.owner
    | _ => s

/-- The next bank of a binding that scrub works on: anchored, not STAGED and not being checked, with the fewest passes
(R130, R131). -/
def scrubBank (s : State) (b : Binding) : Option BankId :=
  ([BankId.a, .b, .g].filter (fun bk => (bankRt s b.bind bk).st = .anchored || (bankRt s b.bind bk).st = .armed)).foldl
    (fun a bk => match a with
      | none => some bk
      | some x => if (bankRt s b.bind bk).scrubPasses < (bankRt s b.bind x).scrubPasses then some bk else some x) none

/-- SCRUB_STEP: scrub reads the next object of a binding through a background billet; a program or erase outstanding on the port
suspends it (R130, R131). -/
def scrubStep (s : State) (bind : Nat) : State :=
  match bindingOf s bind with
  | none => s
  | some b =>
    let running := !(unitsWhere s (fun u => match u.work with | .scrub bi _ _ _ _ => bi = bind | _ => false)).isEmpty
    match scrubBank s b with
    | none => s
    | some bk =>
      let n := (bankRt s bind bk).scrubCur
      match objEmber s b bk ((scrubObj b (bankRt s bind bk) n).getD (.man 0)) with
      | none => s
      | some id =>
        if !s.ve.scrubEn ∨ b.scrubPeriod = 0 ∨ running ∨ flashBusy s id.fp false ∨ flashBusy s id.fp true then s
        else match draw .bg (.ch b.ch) none false (.scrub bind bk n id none) s with
          | (none, s) => s
          | (some u, s) => portEnq s id.fp u false

/-! Known-answer tests (R118). -/

/-- The round of tests begins, KAT_PERIOD after the last one: each online hash engine's test is a 3-block job at tier 3 on a
background billet, each online AES engine's one of 2 blocks (R116, R118).
Log entry 19 (DESIGN CHOICE, DEDUCED). -/
def katStart (s : State) : State :=
  let s := reachTime s (max s.ve.katAt s.clk.resetAt + 100 * msCyc s.ve.katPeriod)
  let s := (allEng.filter (fun e => s.ve.engOnline.getLsbD e.val)).foldl (fun s e =>
    match draw .bg .hearth none false (.kat ⟨e.val, by omega⟩) s with
    | (none, s) => s
    | (some id, s) => hashPut (setUnitSt s id .waiting) 3 id 3 .hearth) { s with ve := { s.ve with katAt := s.clk.now } }
  ((List.finRange 2).filter (fun e => s.ve.aesOnline.getLsbD e.val)).foldl (fun s e =>
    match draw .bg .hearth none false (.kat ⟨12 + e.val, by omega⟩) s with
    | (none, s) => s
    | (some id, s) => aesEnq s id 2 .hearth) (hashGrant 12 s)

/-- The unit that tests a hash engine. -/
def katUnit (s : State) (e : Fin 12) : Option Nat := (unitsWhere s (fun u => u.work = .kat ⟨e.val, by omega⟩)).head?

/-- A hash engine's test fails: the engine goes offline, its job restarts from its beginning on another, the failure is logged and
interrupts (R118, R125).
Log entry 19 (DESIGN CHOICE, DEDUCED). -/
def katFail (s : State) (e : Fin 12) : State :=
  let s' := { s with ve := { s.ve with engOnline := clrBit s.ve.engOnline e.val, engines := s.ve.engines.set e none } }
  let s' := match s.ve.engines[e] with
    | none => s'
    | some r =>
      if (katOf s r.job.billet).isSome then s'
      else match unitOf s r.job.billet with
        | none => s'
        | some b =>
          let s' := modUnit (slotJob (setUnitSt s' r.job.billet .waiting) r.job.billet .queued) r.job.billet (fun b => { b with blocks := 0 })
          let cost := r.job.cost + b.blocks
          if r.job.tier = 0 then
            let l := s'.ve.tier0.filter (fun j => j.enq < r.job.enq) ++ { r.job with cost := cost } :: s'.ve.tier0.filter (fun j => r.job.enq ≤ j.enq)
            { s' with ve := { s'.ve with tier0 := l } }
          else setRing s' r.job.tier (arbPushFront (tierRing s' r.job.tier)
            { id := r.job.billet, q := ownerQ b.owner, cost := cost, enq := r.job.enq } r.job.aged)
  let s' := match katUnit s' e with | some id => hashDrop (retire s' id) id | none => s'
  hashGrant 12 (veInt (veRecord s' 0 0x0A 0xFF (infoOf 0 3 0) (3 * 2 ^ 30 + e.val) 0 true) 4)

/-- The unit that tests an AES engine. -/
def aesKatUnit (s : State) (e : Fin 2) : Option Nat := (unitsWhere s (fun u => u.work = .kat ⟨12 + e.val, by omega⟩)).head?

/-- An AES engine's test fails: it goes offline in the same way (R118, R125). -/
def aesKatFail (s : State) (e : Fin 2) : State :=
  let s' := { s with
    ve := { s.ve with aesOnline := clrBit s.ve.aesOnline e.val }
    kv := { s.kv with aes := s.kv.aes.set e none } }
  let s' := match s.kv.aes[e] with
    | some r =>
      (match unitOf s r.job.billet with
      | some b =>
        if (katOf s r.job.billet).isSome then s'
        else
          let a := arbPushFront s'.kv.aesArb { id := r.job.billet, q := ownerQ b.owner, cost := r.job.cost, enq := r.job.enq } r.job.aged
          setUnitSt { s' with kv := { s'.kv with aesArb := a } } r.job.billet .waiting
      | none => s')
    | none => s'
  let s' := match aesKatUnit s' e with | some id => aesDrop (retire s' id) id | none => s'
  aesGrant 2 (veInt (veRecord s' 0 0x0A 0xFF (infoOf 0 3 0) (3 * 2 ^ 30 + 12 + e.val) 0 true) 4)

/-- KNOWN_ANSWER_TEST: where no test is outstanding the next round begins; the engines whose test fails go offline, and the tests that
have their engine end. A test whose engine is busy waits for it (R118, R125).
Log entry 19 (DESIGN CHOICE, DEDUCED). -/
def knownAnswer (s : State) (hf : BitVec 12) (af : BitVec 2) : State :=
  let s := if (unitsWhere s (fun u => match u.work with | .kat _ => true | _ => false)).isEmpty then katStart s else s
  let s := (allEng.filter (fun e => hf.getLsbD e.val && s.ve.engOnline.getLsbD e.val && (katUnit s e).isSome)).foldl katFail s
  let s := allEng.foldl (fun s e => match katUnit s e, engJob s e with
    | some id, some j => if j.billet = id then retire (hashEnd s e) id else s
    | _, _ => s) s
  let s := ((List.finRange 2).filter (fun e => af.getLsbD e.val && s.ve.aesOnline.getLsbD e.val && (aesKatUnit s e).isSome)).foldl aesKatFail s
  (List.finRange 2).foldl (fun s e => match aesKatUnit s e, s.kv.aes[e] with
    | some id, some r => if r.job.billet = id then retire (aesEnd s e) id else s
    | _, _ => s) s

/-- CLINKER_HOLD_CLEAR on one channel: the hold clears, FAILED strict descriptors return to PENDING, and banks rejected before
are anchored anew (R127, Table 4.7).
Log entry 19 (DESIGN CHOICE, DEDUCED). -/
def clkHoldClear (s : State) (c : Ch) : State :=
  if s.ve.clkHold.getLsbD c.val then
    let s := { s with ve := { s.ve with clkHold := clrBit s.ve.clkHold c.val } }
    let failed := (strictOf s.ch[c]).filter (fun i => (s.ch[c].strict[i]).st = .failed)
    let s := (s.ve.bindings.filter (fun b => b.ch = c)).foldl (fun s b =>
      [BankId.a, .b, .g].foldl (fun s bk =>
        if (bankRt s b.bind bk).st = .rejected then setBank s b.bind bk (fun r => { r with st := .idle, reason := 0 }) else s) s) s
    strictPend s c (fun i => failed.contains i)
  else s

/-- The strict descriptors bound to a binding are FAILED. -/
def strictFailBind (s : State) (b : Binding) : State :=
  (strictOf s.ch[b.ch]).foldl (fun s i =>
    if rgnMbind s.ch[b.ch].cfg.desc[i] = b.bind then setStrict s b.ch i (fun r => { r with st := .failed }) else s) s

/-- The ANCHOR slot of a binding is revoked or invalidated: everything of the binding goes at once, and the responses of its slots,
which are clinkers of reason 4, leave its strict descriptors FAILED (R126, R133). Table 4.10 does not give CH, OBJ and bank of
the REVOKED record: the binding's channel, manifest ember 0 and bank 0.
Log entry 63 (DESIGN CHOICE, DEDUCED). -/
def revokeBinding (s : State) (b : Binding) : State :=
  let mine := fun (id : EmberId) => decide (id.bind = b.bind)
  let slots := s.ch[b.ch].slots.filter (fun x => mine x.id)
  let s := [BankId.a, .b, .g].foldl (fun s bk =>
    if bk = .a ∨ (bsetAt s.ch[b.ch] b.vbase).isSome then setBank s b.bind bk (fun r => { r with
      st := .revoked, reason := 8, version := 0, reanchor := false, stageReq := false }) else s) s
  let s := veInt (veRecord s b.ch.val 0x06 b.bind (infoOf 0 3 8) (2 * 2 ^ 30) 0 true) 3
  let s := slots.foldl (fun s x =>
    veInt (modCh (closeSlot s b.ch x 0x01 (respOf s x.id) 4) b.ch (fun k => { k with statClk := satAdd 255 k.statClk 1 })) 0) s
  let s := squash s (unitsWhere s (fun u => match u.work with
    | .anchor bi _ _ _ => bi = b.bind | .stage bi _ _ _ => bi = b.bind | .scrub bi _ _ _ _ => bi = b.bind
    | .leaf bi _ _ => bi = b.bind
    | w => (match workEmber w with | some id => mine id | none => false)))
  let s := nodeDrop s (fun e => e.bind = b.bind)
  let s := freeFrames s (fun x => mine x.id)
  let s := strictFailBind s b
  let s := slots.foldl (fun s x => clinkerResponse s x.id) s
  settle (strictFailBind s b) b.ch

/-- Revoke every binding whose anchor slot satisfies `p` (R133). -/
def revokeAnchors (s : State) (p : Fin 128 → Bool) : State :=
  (s.ve.bindings.filter (fun b => p b.anchor)).foldl revokeBinding s

end Sys2Proof.Machine
end

