-- ==== Sys2Proof/Machine/Vault.lean ====
section
/-! DEFINITION. Slots of the key vault: filling, emptying, invalidation and its cascade, the roots and fixed keys,
zeroisation, the signing keys' positions, and entropy (R296-R304, R311-R317, R357-R359). -/

namespace Sys2Proof.Machine

/-- Raise KV_INT_STS, LC_INT_STS or MB_INT_STS bit `i`. -/
def kvInt (s : State) (i : Nat) : State := { s with kv := { s.kv with intSts := setBit s.kv.intSts i } }
def lcInt (s : State) (i : Nat) : State := { s with lc := { s.lc with intSts := setBit s.lc.intSts i } }
def mbInt (s : State) (i : Nat) : State := { s with mb := { s.mb with intSts := setBit s.mb.intSts i } }

/-- Change one slot. -/
def modSlot (s : State) (i : Fin 128) (f : Slot → Slot) : State :=
  { s with kv := { s.kv with slots := s.kv.slots.set i (f s.kv.slots[i]) } }

/-- Change one core's command set. -/
def modKvc (s : State) (c : Core) (f : KvCore → KvCore) : State :=
  { s with kv := { s.kv with cmd := s.kv.cmd.set c (f s.kv.cmd[c]) } }

/-- All slots and all cores in ascending order. -/
def allSlots : List (Fin 128) := List.finRange 128
def allCores : List Core := List.finRange 4

/-- A slot is valid (R300). -/
def slotOk (s : State) (i : Fin 128) : Bool := slotValid s 7 i

/-- Handle of a slot (R299). -/
def handleOf (s : State) (i : Fin 128) : Word := pack [(0, i.val), (8, (s.kv.slots[i]).gen)]

/-- The entropy source's next `n` bytes, 32 at a draw; none while it has failed (R317).
Log entry 9 (DESIGN CHOICE). -/
def entropyBytes (s : State) (n : Nat) : Option (List Byte) × State :=
  if s.kv.esFail then (none, s)
  else
    let k := cdiv n 32
    (some (((List.range k).flatMap (fun i => digBytes (Config.entropy (s.clk.free + i)))).take n), useFree s k)

/-- Set a slot EMPTY: material and pending half zeroed, GEN one higher (R299, R301). -/
def emptySlot (s : State) (i : Fin 128) : State :=
  modSlot s i (fun k => { gen := (k.gen + 1) % 65536 })

/-- Abort the operations in flight that use a slot `p` names: the destination is zeroed, nothing is filled, their engines are free,
and the result is KEY_REVOKED; `late` for one that has not started (R301, R316). -/
def abortOps (s : State) (p : Nat → Bool) (late : Nat) : State :=
  allCores.foldl (fun s c =>
    match (s.kv.cmd[c]).run with
    | some r =>
      if r.uses.any p then
        let s := if r.dstLen = 0 then s else ramWrite s none r.dst (fillBytes r.dstLen 0)
        let s := aesDrop (hashDrop s r.billet) r.billet
        modKvc s c (fun k => { k with run := some { r with
          code := if r.waits || !r.taken then late else 6
          out0 := 0, out1 := 0, commit := none, waits := false, taken := true, dstLen := 0, fill := none, bytes := [] } })
      else s
    | none => s) s

/-- Slots that hold something and are not valid. -/
def deadSlots (s : State) : List (Fin 128) := allSlots.filter (fun i => decide ((s.kv.slots[i]).typ ≠ 0) && !slotOk s i)

/-- What follows at once when a slot becomes EMPTY or its GEN changes: every descendant is invalid, operations that use one
abort, and REVOKED is set (R301). -/
def cascade (s : State) (i : Nat) : State :=
  let dead := (deadSlots s).map (·.val)
  kvInt (abortOps s (fun j => j = i || dead.contains j) 6) 1

/-- KEYID of a signing key: the identifier I in its material (R302). -/
def keyIdOf (k : Slot) : BitVec 128 := BitVec.ofNat 128 (beNat (slice k.material 32 16))

/-- A signing key whose slot was emptied, or now holds another key, exists no more (R357). -/
def lmsDrop (s : State) : State :=
  { s with mb := { s.mb with lms := s.mb.lms.map (fun k =>
      let x := s.kv.slots[k.slot]
      if k.valid && (x.typ ≠ 2 || keyIdOf x ≠ k.keyId) then { k with valid := false, ready := false } else k) } }

/-- INVALIDATION_SWEEP: each invalid descendant is zeroed, EMPTY, its GEN one higher (R301). -/
def sweep (s : State) : State := lmsDrop ((deadSlots s).foldl emptySlot s)

/-- REVOKE one slot (R310); an anchor slot takes every binding that names it with it (R133). -/
def revokeSlot (s : State) (i : Fin 128) : State :=
  let anchor : Bool := (s.kv.slots[i]).typ = 3
  let s := lmsDrop (cascade (emptySlot s i) i.val)
  if anchor then revokeAnchors s (fun j => j = i) else s

/-- Revoke every slot of an instance that is removed (R308). -/
def revokeOwner (s : State) (n : Inst) : State :=
  (allSlots.filter (fun i => (s.kv.slots[i]).typ ≠ 0 && (s.kv.slots[i]).owner.toNat = n.val)).foldl revokeSlot s

/-- Derivation context of Table 10.3. -/
def deriveCtx (label : List Byte) (ctype cdepth usage owner : Nat) (ctx : List Byte) : List Byte :=
  padTo 16 0 label ++ [BitVec.ofNat 8 ctype, BitVec.ofNat 8 cdepth] ++ beBytes 2 usage ++
    [BitVec.ofNat 8 owner, BitVec.ofNat 8 ctx.length] ++ fillBytes 10 0 ++ padTo 96 0 ctx

/-- Material length of a slot type. -/
def matLen (typ : Nat) : Nat := if typ = 2 then 48 else 32

/-- What slot `i` holds once it is filled under a parent (R299, R300). -/
def childOf (s : State) (p : Fin 128) (i : Fin 128) (typ origin usage owner : Nat) (lock : Bool) (mat : List Byte) : Slot :=
  { s.kv.slots[i] with
    typ := typ, origin := origin, lock := lock, usage := BitVec.ofNat 8 usage, owner := BitVec.ofNat 8 owner
    parent := p.val, isRoot := false, depth := (s.kv.slots[p]).depth + 1, pgen := (s.kv.slots[p]).gen
    material := mat, pend := none }

/-- A slot filled under a parent. -/
def childSlot (s : State) (p : Fin 128) (i : Fin 128) (typ origin usage owner : Nat) (lock : Bool) (mat : List Byte) : State :=
  modSlot s i (fun _ => childOf s p i typ origin usage owner lock mat)

/-- A root slot filled. -/
def rootSlot (s : State) (i : Fin 128) (mat : List Byte) : State :=
  modSlot s i (fun k => { k with
    typ := 1, origin := 0, lock := true, usage := 1, owner := 0xFF, parent := 0, isRoot := true, depth := 1, pgen := 0
    material := mat, pend := none })

/-- Table 10.4: slot, parent, label, type, usage. -/
def fixedKeys : List (Fin 128 × Fin 128 × String × Nat × Nat) :=
  [(4, 0, "TZ-IDENTITY", 2, 0x40), (5, 0, "TZ-LMSIDX", 1, 0x02), (6, 0, "TZ-SETTINGS", 1, 0x0E), (7, 1, "TZ-UPDATE", 1, 0x01),
   (8, 2, "TZ-TRACE", 1, 0x02), (9, 2, "TZ-MIRROR", 1, 0x02), (10, 2, "TZ-WRAP", 1, 0x11)]

/-- Derive a fixed key where its parent is present. -/
def fixedKey (s : State) (k : Fin 128 × Fin 128 × String × Nat × Nat) : State :=
  let (i, p, label, typ, usage) := k
  if (s.kv.slots[p]).typ = 0 then s
  else
    childSlot s p i typ 1 usage 0xFF true
      (expandB (s.kv.slots[p]).material (deriveCtx (ascii label) typ 2 usage 0xFF []) (matLen typ))

/-! The leaf-index journal (R357-R359). -/

/-- Material of a slot if it is a present SECRET. -/
def secretOf (s : State) (i : Fin 128) : Option (List Byte) := if (s.kv.slots[i]).typ = 1 then some (s.kv.slots[i]).material else none

/-- A leaf-index record verifies under slot 5 (Table 12.3). -/
def leafGood (s : State) (j : Fin 2) (r : List Byte) : Bool :=
  be32 r 0 = 0x545A4C4A && be16 r 4 = 1 && be8 r 6 = j.val + 1 &&
    (match secretOf s 5 with | some k => slice r 48 32 = sealOf k r 48 | none => false)

/-- The record in force for a key. -/
def leafInForce (s : State) (j : Fin 2) : Option (Nat × List Byte) := inForce s (osLeaf j) 16 (leafGood s j)

/-- The AO copy of a key's record: KEYID, EPOCH, NEXT, SEQ (Table 16.3). -/
def aoLeaf (s : State) (j : Fin 2) : List Byte := memRead 0 s.tp.ao.sram (0x1000 + 32 * j.val) 32

/-- What journal and AO say of a key: whether a copy exists for this KEYID, its EPOCH, NEXT and SEQ. A journal copy whose SEQ
is lower than the AO copy's is not used (R359). -/
def leafKnown (s : State) (j : Fin 2) (kid : BitVec 128) : Nat × Nat × Nat :=
  let ao := aoLeaf s j
  let aoOk : Bool := BitVec.ofNat 128 (beNat (ao.take 16)) = kid && be32 ao 24 ≠ 0
  let (ae, an, aq) := if aoOk then (be32 ao 16, be32 ao 20, be32 ao 24) else (0, 0, 0)
  match leafInForce s j with
  | some (_, r) =>
    if BitVec.ofNat 128 (beNat (slice r 32 16)) = kid ∧ aq ≤ be32 r 16 then
      (max ae (be32 r 8), max an (be32 r 12), max aq (be32 r 16))
    else (ae, an, aq)
  | none => (ae, an, aq)

/-- The greatest epoch either copy of the alias key's record names, whatever its KEYID (R362). -/
def aliasEpoch (s : State) : Nat :=
  max (be32 (aoLeaf s 1) 16) (match leafInForce s 1 with | some (_, r) => be32 r 8 | none => 0)

/-- Write a key's journal record, in the own store and in AO (Table 12.3, R358). -/
def leafWrite (s : State) (j : Fin 2) (epoch next seq : Nat) (kid : BitVec 128) : State :=
  match secretOf s 5 with
  | none => s
  | some key =>
    let body := beBytes 4 0x545A4C4A ++ beBytes 2 1 ++ [BitVec.ofNat 8 (j.val + 1), 0] ++ beBytes 4 epoch ++ beBytes 4 next ++
      beBytes 4 seq ++ fillBytes 12 0 ++ beBytes 16 kid.toNat
    let s := recWrite s (osLeaf j) ((leafInForce s j).map (·.1)) (body ++ sealOf key body 48)
    let ao := beBytes 16 kid.toNat ++ beBytes 4 epoch ++ beBytes 4 next ++ beBytes 4 seq ++ fillBytes 4 0
    { s with tp := { s.tp with ao := { s.tp.ao with sram := memWrite 0 s.tp.ao.sram (0x1000 + 32 * j.val) ao } } }

/-- Change a signing key. -/
def modLms (s : State) (j : Fin 2) (f : LmsKey → LmsKey) : State :=
  { s with mb := { s.mb with lms := s.mb.lms.set j (f s.mb.lms[j]) } }

/-- Ask for the generation of a key's trees on background-class hash work, which goes to the bank as successive jobs of 2,304 blocks
(R216, R360). A dependent belongs to the owner of its root; where no billet can be drawn its draw waits in the tracker's queue, and
a request without a parent stays with the sequencer, which asks again (R206, R212). -/
def startTrees (s : State) (j : Fin 2) (parent : Option Nat) : State :=
  let o := match parent.bind (unitOf s) with | some u => u.owner | none => .hearth
  match draw .bg o parent false (.tree j) s with
  | (none, s) =>
    (match parent with
    | some up => { s with bt := { s.bt with waiting := s.bt.waiting ++ [{ parent := up, cls := .bg, owner := o, work := .tree j }] } }
    | none => s)
  | (some id, s) => hashEnq { s with pd := { s.pd with gatedLms := false } } 3 id treeJob o

/-- A signing key comes into being in a slot: its position is set from journal and AO (R359). -/
def lmsStart (s : State) (j : Fin 2) (i : Fin 128) : State :=
  let kid := keyIdOf (s.kv.slots[i])
  let (_, n, q) := leafKnown s j kid
  startTrees (modLms s j (fun _ => { p := n, n := n, valid := true, slot := i, keyId := kid, seq := q, jbusy := true })) j none

/-! Root load (R297) and ash (R313). -/

/-- ASHED is set: the vault is in ash. -/
def enterAsh (s : State) : State :=
  { s with kv := { s.kv with state := 3, ownerGen := 0, testRoot := false }
           tp := { s.tp with ao := { s.tp.ao with ashed := true, awk := none } } }

/-- Steps 2 and 3 of R297. -/
def loadRoots (s : State) : State :=
  match otpUds s with
  | none => s
  | some uds =>
    let s := match curGen s with
      | some g =>
        let os := genSeed s g
        let orr := extractB os uds
        let s := rootSlot (rootSlot s 0 orr) 1 (extractB (ascii "TZVAULT-FLEET") os)
        (match s.tp.ao.awk with
        | some awk => rootSlot s 2 (extractB (digBytes awk) orr)
        | none => s)
      | none => s
    let s := if testState s then rootSlot s 3 (extractB (ascii "TZVAULT-TEST") uds) else s
    let s := fixedKeys.foldl fixedKey s
    let s := if (s.kv.slots[4]).typ = 2 then lmsStart s 0 4 else s
    { s with kv := { s.kv with
        state := if (curGen s).isSome then 1 else 2, ownerGen := (curGen s).getD 0, testRoot := testState s } }

/-- KV_CTL.ROOT_LOAD: in ash nothing loads; after an AO loss AOLOSS_ASH decides between ash and a fresh AWK; then the roots and
the fixed keys (R297). A second load since the reset is ignored.
Log entry 41 (DEDUCED, DESIGN CHOICE). -/
def rootLoad (s : State) : State :=
  if s.kv.loaded then s
  else
    let s := { s with kv := { s.kv with loaded := true, awkNew := false } }
    if lcState s = .blank then s
    else if lcDead s ∨ s.tp.ao.ashed then { s with kv := { s.kv with state := 3 } }
    else if s.tp.ao.awk.isSome then loadRoots s
    else if optAolossAsh s then enterAsh s
    else
      match entropyBytes s 32 with
      | (none, s) => loadRoots s
      | (some b, s) =>
        loadRoots (kvInt { s with kv := { s.kv with awkNew := true }
                                  tp := { s.tp with ao := { s.tp.ao with awk := some (digOf b) } } } 4)

/-- Operations held since a zeroising mark became complete end with ASH (R329). -/
def ashHeld (s : State) : State :=
  allCores.foldl (fun s c => match (s.kv.cmd[c]).run with
    | some r => if r.taken then s else modKvc s c (fun k => { k with run := some { r with code := 7, taken := true } })
    | none => s) s

/-- Zeroise slots: each cleared slot's GEN rises, its operations end under R301, with ASH for those that had not started
(R312, R316). Anchors stay where `keepAnchors`. -/
def zeroSlots (s : State) (p : Fin 128 → Bool) : State :=
  let l := allSlots.filter (fun i => p i && (s.kv.slots[i]).typ ≠ 0)
  let bind := l.filter (fun i => (s.kv.slots[i]).typ = 3)
  let s := abortOps (l.foldl emptySlot s) (fun j => l.any (fun i => i.val = j)) 7
  let s := lmsDrop s
  if bind.isEmpty then s else revokeAnchors s (fun i => bind.contains i)

/-- A load, restructure or request is refused: ST_ERR, ST_ERR_OFS, ERR and REJECT (R191). -/
def stRefuse (s : State) (code sec ofs : Nat) : State :=
  stInt { s with st := { s.st with err := true, errCode := code, errSection := sec, errOfs := ofs } } 1

/-- A load ends by a rejection: the device is in the state of R30 (R191). -/
def loadReject (s : State) (code sec ofs : Nat) : State :=
  let s := dropWork s .image
  stRefuse { s with st := { s.st with state := .empty, stage := [] } } code sec ofs

/-- The zeroise line: every slot and pending half, the AWK and operation state are cleared; the vault is in ash (Table 10.7,
R311, R313). -/
def zeroiseVault (s : State) : State :=
  let s := if s.st.state = .loading then loadReject s 0x1C 0 0 else s
  let s := abortOps (ashHeld s) (fun _ => true) 7
  let s := zeroSlots s (fun _ => true)
  kvInt (enterAsh s) 2

/-- Slot 3 and its descendants are cleared (TO_PRODUCTION, Table 10.7). -/
def zeroiseTest (s : State) : State :=
  let s := zeroSlots (ashHeld s) (fun i => i.val = 3)
  let s := zeroSlots s (fun i => (deadSlots s).contains i)
  kvInt { s with kv := { s.kv with testRoot := false } } 2

/-- Some tamper source is active. -/
def tamperActive (s : State) : Bool := s.tp.ao.src.any (·.active)

/-- KV_CTL.REKINDLE (R314): a fresh AWK, ASHED clear, and a root load; or REJ. With the entropy source failed the ash stands
(Table 10.8).
Log entry 41 (DEDUCED, DESIGN CHOICE). -/
def rekindle (s : State) : State :=
  if s.kv.state = 3 ∧ (lcState s = .test ∨ lcState s = .production) ∧ (curGen s).isSome ∧ !tamperActive s then
    match entropyBytes s 32 with
    | (none, s) => { s with kv := { s.kv with rej := true } }
    | (some b, s) =>
      kvInt (loadRoots { s with kv := { s.kv with awkNew := true }
                                tp := { s.tp with ao := { s.tp.ao with awk := some (digOf b), ashed := false } } }) 4
  else { s with kv := { s.kv with rej := true } }

/-- HEALTH_TEST_FAIL: a test fails and output stops (R317). -/
def healthFail (s : State) : State := kvInt { s with kv := { s.kv with esFail := true, esAt := s.clk.now } } 3

/-- ENTROPY_RETEST: 1 ms after a failed test the start-up test is repeated; ES_FAIL clears when it passes (R317).
Log entry 58 (DESIGN CHOICE). -/
def entropyRetest (s : State) (pass : Bool) : State :=
  if s.kv.esFail then
    let s := reachTime s (s.kv.esAt + msCyc 1)
    if pass then { s with kv := { s.kv with esFail := false } } else healthFail s
  else s

end Sys2Proof.Machine
end

