-- ==== Sys2Proof/Machine/KvOps.lean ====
section
/-! DEFINITION. The vault's operations (R302-R310, R361-R363, Tables 10.5 and 12.4): checks in order, effect, and the
result each posts when it ends. -/

namespace Sys2Proof.Machine

/-- What an operation comes to: its result, the slots it uses, the range it writes, the slot and the bytes its end puts in place, a
commit to apply, its work in blocks for the hash bank and the AES engines, and the state after what takes effect at once. -/
structure KvRes where
  code : Nat
  out0 : Word := 0
  out1 : Word := 0
  uses : List Nat := []
  dst : Nat := 0
  dstLen : Nat := 0
  fill : Option (Nat × Slot) := none
  bytes : List Byte := []
  commit : Option Nat := none
  hash : Nat := 0
  aes : Nat := 0
  s : State

/-- Refused with a result code, nothing changed. -/
def kvRefuse (s : State) (code : Nat) : KvRes := { code := code, s := s }

/-- Words of an operation's arguments. -/
def kvArg (k : KvCore) (i : Fin 4) : Nat := (k.arg[i]).toNat

/-- The slot a handle names for an operation of this OWNER, or the code it is refused with (R299, R308, R313, R315). -/
def kvHandle (s : State) (k : KvCore) (h : Nat) : Nat ⊕ Fin 128 :=
  let i : Fin 128 := ⟨h % 128, Nat.mod_lt _ (by decide)⟩
  let x := s.kv.slots[i]
  if 11 ≤ i.val ∧ i.val ≤ 15 then .inl 5
  else if s.kv.state = 3 ∧ x.typ ≠ 3 then .inl 7
  else if h / 128 % 2 = 1 ∨ h / 2 ^ 24 ≠ 0 ∨ h / 256 % 65536 ≠ x.gen then .inl 2
  else if x.typ = 0 then (if i.val ≤ 10 then .inl 8 else .inl 5)
  else if !slotOk s i then .inl 6
  else if x.owner ≠ 0xFF ∧ x.owner ≠ k.owner then .inl 13
  else .inr i

/-- Is slot `i` slot `j` or below it? `n` bounds the chain. -/
def isBelow (s : State) (j : Nat) : Nat → Nat → Bool
  | 0, i => i = j
  | n + 1, i => i = j || (if h : i < 128 then
      let x := s.kv.slots[i]
      decide (x.typ ≠ 0) && !x.isRoot && isBelow s j n x.parent
    else false)

/-- A usage bit of a slot. -/
def hasUse (s : State) (i : Fin 128) (b : Nat) : Bool := (s.kv.slots[i]).usage.getLsbD b

/-- A memory range the vault may use (R306). -/
def kvRange (a n : Nat) : Bool := a % 4 = 0 && inRam a n

/-- The usage rules of R303 for a child of `p`. -/
def usageOk (s : State) (p : Fin 128) (typ usage : Nat) : Bool :=
  let b := fun i => decide (usage / 2 ^ i % 2 = 1)
  (!(b 4 || b 5) || isBelow s 2 7 p.val) && (!b 6 || typ = 2) && (!b 7 || typ = 3) &&
    (!(b 0 || b 1 || b 2 || b 3 || b 4) || typ = 1)

/-- An operation in flight will fill a slot. -/
def slotTaken (s : State) (i : Nat) : Bool :=
  allCores.any (fun c => match (s.kv.cmd[c]).run with | some r => (r.fill.map (·.1)) = some i | none => false)

/-- Hash blocks of an HMAC over `n` bytes, and of a derivation of a type (R302, R306). -/
def hmacCost (n : Nat) : Nat := 3 + cdiv (n + 9) 64
def deriveCost (typ : Nat) : Nat := if typ = 2 then 12 else 6

/-- Hash blocks of a device signature over `n` bytes (R115). -/
def signCost (n : Nat) : Nat := cdiv (22 + 32 + n + 9) 64 + 67 + 1005

/-- Checks common to DERIVE, GENERATE and UNWRAP, after the handle (R303): the parent's type and usage `need`, the depth, the
child slot. -/
def childCheck (s : State) (p : Fin 128) (need child : Nat) : Nat :=
  if (s.kv.slots[p]).typ ≠ 1 ∨ !hasUse s p need then 3
  else if 6 < (s.kv.slots[p]).depth + 1 then 4
  else if child < 16 then 5
  else if h : child < 128 then (if (s.kv.slots[child]).typ ≠ 0 ∨ slotTaken s child then 5 else 0)
  else 5

/-- The fields of ARG1 that describe a child: slot, type, usage; other bits must be 0. -/
def childArg (a : Nat) : Option (Fin 128 × Nat × Nat) :=
  if a / 128 % 2 = 1 ∨ a / 1024 % 64 ≠ 0 ∨ a / 2 ^ 24 ≠ 0 then none
  else some (⟨a % 128, Nat.mod_lt _ (by decide)⟩, a / 256 % 4, a / 65536 % 256)

/-- LABEL and CTX in memory: refused with LEN_ERR or ACCESS, or the two strings. -/
def labelCtx (s : State) (addr len : Nat) : Nat ⊕ (List Byte × List Byte) :=
  if 96 < len then .inl 9
  else if !kvRange addr (16 + len) then .inl 13
  else
    let l := ramRead s addr 16
    if l.take 3 = ascii "TZ-" then .inl 13 else .inr (l, ramRead s (addr + 16) len)

/-- DERIVE (R302, R303). -/
def kvDerive (s : State) (k : KvCore) : KvRes :=
  match kvHandle s k (kvArg k 0), childArg (kvArg k 1) with
  | .inl e, _ => kvRefuse s e
  | .inr _, none => kvRefuse s 13
  | .inr p, some (i, typ, usage) =>
    let e := childCheck s p 0 i.val
    if e ≠ 0 then kvRefuse s e
    else if (typ ≠ 1 ∧ typ ≠ 2) ∨ !usageOk s p typ usage then kvRefuse s 3
    else match labelCtx s (kvArg k 2) (kvArg k 3 % 128) with
      | .inl e => kvRefuse s e
      | .inr (l, ctx) =>
        let d := (s.kv.slots[p]).depth + 1
        let m := expandB (s.kv.slots[p]).material (deriveCtx l typ d usage k.owner.toNat ctx) (matLen typ)
        { code := 0, out0 := handleOf s i, uses := [p.val, i.val], hash := deriveCost typ
          fill := some (i.val, childOf s p i typ 2 usage k.owner.toNat false m), s := s }

/-- GENERATE (R303): material from the entropy source. -/
def kvGenerate (s : State) (k : KvCore) : KvRes :=
  match kvHandle s k (kvArg k 0), childArg (kvArg k 1) with
  | .inl e, _ => kvRefuse s e
  | .inr _, none => kvRefuse s 13
  | .inr p, some (i, typ, usage) =>
    let e := childCheck s p 0 i.val
    if e ≠ 0 then kvRefuse s e
    else if (typ ≠ 1 ∧ typ ≠ 2) ∨ !usageOk s p typ usage then kvRefuse s 3
    else match entropyBytes s (matLen typ) with
      | (none, s) => kvRefuse s 12
      | (some m, s) =>
        { code := 0, out0 := handleOf s i, uses := [p.val, i.val]
          fill := some (i.val, childOf s p i typ 3 usage k.owner.toNat false m), s := s }

/-- UNWRAP (R307): type and usage come from the blob, the parent is the WRAP key. -/
def kvUnwrap (s : State) (k : KvCore) : KvRes :=
  match kvHandle s k (kvArg k 0) with
  | .inl e => kvRefuse s e
  | .inr p =>
    let i : Fin 128 := ⟨kvArg k 1 % 128, Nat.mod_lt _ (by decide)⟩
    let e := if i.val ≤ 10 then 13 else childCheck s p 4 i.val
    if e ≠ 0 then kvRefuse s e
    else if !kvRange (kvArg k 2) 96 then kvRefuse s 13
    else
      let b := ramRead s (kvArg k 2) 96
      let typ := be8 b 4
      let usage := be16 b 6
      let key := (s.kv.slots[p]).material
      let ct := slice b 20 48
      if be32 b 0 ≠ 0x545A5742 then kvRefuse s 13
      else if gcmTag key (slice b 8 12) (b.take 20) ct ≠ slice b 68 16 then { kvRefuse s 11 with uses := [p.val], aes := 2 }
      else if (typ ≠ 1 ∧ typ ≠ 2) ∨ 255 < usage ∨ !usageOk s p typ usage then kvRefuse s 3
      else
        let m := (gcmCrypt key (slice b 8 12) ct).take (matLen typ)
        { code := 0, out0 := handleOf s i, uses := [p.val, i.val], aes := 2
          fill := some (i.val, childOf s p i typ 4 usage k.owner.toNat false m), s := s }

/-- The wrapped blob of Table 10.6. -/
def wrapBlob (key nonce : List Byte) (x : Slot) : List Byte :=
  let hdr := beBytes 4 0x545A5742 ++ [BitVec.ofNat 8 x.typ, 0] ++ beBytes 2 x.usage.toNat ++ nonce
  let ct := gcmCrypt key nonce (padTo 48 0 x.material)
  hdr ++ ct ++ gcmTag key nonce hdr ct ++ fillBytes 12 0

/-- WRAP (R307). -/
def kvWrap (s : State) (k : KvCore) : KvRes :=
  match kvHandle s k (kvArg k 0), kvHandle s k (kvArg k 1) with
  | .inl e, _ => kvRefuse s e
  | .inr _, .inl e => kvRefuse s e
  | .inr w, .inr i =>
    if (s.kv.slots[w]).typ ≠ 1 ∨ !hasUse s w 4 ∨ !hasUse s i 5 then kvRefuse s 3
    else if !kvRange (kvArg k 2) 96 then kvRefuse s 13
    else match entropyBytes s 12 with
      | (none, s) => kvRefuse s 12
      | (some nonce, s) =>
        { code := 0, uses := [w.val, i.val], dst := kvArg k 2, dstLen := 96, aes := 2
          bytes := wrapBlob (s.kv.slots[w]).material nonce s.kv.slots[i], s := s }

/-- REVOKE (R310). -/
def kvRevoke (s : State) (k : KvCore) : KvRes :=
  match kvHandle s k (kvArg k 0) with
  | .inl e => kvRefuse s e
  | .inr i => if (s.kv.slots[i]).lock then kvRefuse s 13 else { code := 0, s := revokeSlot s i }

/-- The KCV of key material (R306). -/
def kcvOf (m : List Byte) : List Byte := (digBytes (hmacB m (ascii "TZ-KCV"))).take 8

/-- REPLACE: the pending half is filled (R309). -/
def kvReplace (s : State) (k : KvCore) : KvRes :=
  match kvHandle s k (kvArg k 0) with
  | .inl e => kvRefuse s e
  | .inr i =>
    let x := s.kv.slots[i]
    let put := fun (s : State) (cost : Nat) (m : List Byte) =>
      ({ code := 0, out0 := wordBE (kcvOf m) 0, out1 := wordBE (kcvOf m) 4, uses := [i.val], hash := cost + 4
         fill := some (i.val, { s.kv.slots[i] with pend := some m }), s := s } : KvRes)
    if x.lock then kvRefuse s 13
    else if x.typ = 3 then kvRefuse s 3
    else if x.pend.isSome ∨ slotTaken s i.val then kvRefuse s 5
    else if kvArg k 1 % 2 = 1 then
      match entropyBytes s (matLen x.typ) with
      | (none, s) => kvRefuse s 12
      | (some m, s) => put s 0 m
    else match labelCtx s (kvArg k 2) (kvArg k 3 % 128) with
      | .inl e => kvRefuse s e
      | .inr (l, ctx) =>
        let pm := if h : x.parent < 128 then (s.kv.slots[x.parent]).material else []
        put s (deriveCost x.typ) (expandB pm (deriveCtx l x.typ x.depth x.usage.toNat k.owner.toNat ctx) (matLen x.typ))

/-- COMMIT: a match waits for the slot's users to end and takes effect when the operation ends; a mismatch discards the
pending half (R310). -/
def kvCommit (s : State) (k : KvCore) : KvRes :=
  match kvHandle s k (kvArg k 0) with
  | .inl e => kvRefuse s e
  | .inr i =>
    match (s.kv.slots[i]).pend with
    | none => kvRefuse s 5
    | some m =>
      if wordBE (kcvOf m) 0 = k.arg[1] ∧ wordBE (kcvOf m) 4 = k.arg[2] then
        { code := 0, uses := [i.val], commit := some i.val, hash := 4, s := s }
      else { code := 10, uses := [i.val], hash := 4, fill := some (i.val, { s.kv.slots[i] with pend := none }), s := s }

/-- CANCEL discards the pending half. -/
def kvCancel (s : State) (k : KvCore) : KvRes :=
  match kvHandle s k (kvArg k 0) with
  | .inl e => kvRefuse s e
  | .inr i => { code := 0, uses := [i.val], s := modSlot s i (fun y => { y with pend := none }) }

/-- KCV of the current material. -/
def kvKcv (s : State) (k : KvCore) : KvRes :=
  match kvHandle s k (kvArg k 0) with
  | .inl e => kvRefuse s e
  | .inr i =>
    let v := kcvOf (s.kv.slots[i]).material
    { code := 0, out0 := wordBE v 0, out1 := wordBE v 4, uses := [i.val], hash := 4, s := s }

/-- HMAC-SHA-256 of memory data under a slot's key. -/
def kvHmac (s : State) (k : KvCore) : KvRes :=
  match kvHandle s k (kvArg k 0) with
  | .inl e => kvRefuse s e
  | .inr i =>
    let n := kvArg k 3
    if (s.kv.slots[i]).typ ≠ 1 ∨ !hasUse s i 1 then kvRefuse s 3
    else if n = 0 ∨ 65536 < n then kvRefuse s 9
    else if !kvRange (kvArg k 1) 32 ∨ !kvRange (kvArg k 2) n then kvRefuse s 13
    else
      { code := 0, uses := [i.val], dst := kvArg k 1, dstLen := 32, hash := hmacCost n
        bytes := digBytes (hmacB (s.kv.slots[i]).material (ramRead s (kvArg k 2) n)), s := s }

/-- GCM_ENC and GCM_DEC over the parameter block of R306. -/
def kvGcm (enc : Bool) (s : State) (k : KvCore) : KvRes :=
  match kvHandle s k (kvArg k 0) with
  | .inl e => kvRefuse s e
  | .inr i =>
    if (s.kv.slots[i]).typ ≠ 1 ∨ !hasUse s i (if enc then 2 else 3) then kvRefuse s 3
    else if !kvRange (kvArg k 1) 32 then kvRefuse s 13
    else
      let pb := ramRead s (kvArg k 1) 32
      let w := fun j => leNat (slice pb (4 * j) 4)
      let n := w 7
      if 4096 < w 4 ∨ n = 0 ∨ 65536 < n then kvRefuse s 9
      else if (w 4 ≠ 0 ∧ !kvRange (w 3) (w 4)) ∨ !kvRange (w 5) (if enc then n else n + 16) ∨
          !kvRange (w 6) (if enc then n + 16 else n) then kvRefuse s 13
      else
        let key := (s.kv.slots[i]).material
        let nonce := pb.take 12
        let aad := ramRead s (w 3) (w 4)
        let src := ramRead s (w 5) n
        let out := gcmCrypt key nonce src
        let cost := cdiv (w 4) 64 + cdiv n 64
        if enc then
          { code := 0, uses := [i.val], dst := w 6, dstLen := n + 16, aes := cost, bytes := out ++ gcmTag key nonce aad out, s := s }
        else if gcmTag key nonce aad src = ramRead s (w 5 + n) 16 then
          { code := 0, uses := [i.val], dst := w 6, dstLen := n, aes := cost, bytes := out, s := s }
        else { code := 11, uses := [i.val], dst := w 6, dstLen := n, aes := cost, bytes := fillBytes n 0, s := s }

/-! Signing (R357, R361-R363). -/

/-- Length of the device's signatures: L = 2, H15/H15, W4. -/
def sigLen : Nat := 5396


/-- A signing key's public key in the layout of SIGNER_KEY: L, types, I, and the top root, which is a free value.
Log entry 42 (DESIGN CHOICE). -/
def pubKeyOf (kid : BitVec 128) : List Byte :=
  beBytes 4 2 ++ beBytes 4 7 ++ beBytes 4 3 ++ beBytes 16 kid.toNat ++ (List.range 32).map (Config.pubKeyByte kid.toNat)

/-- The signing key a slot is: 0 identity, 1 current alias (R361). -/
def lmsKeyOf (s : State) (i : Fin 128) : Option (Fin 2) :=
  if (s.mb.lms[0]).valid ∧ (s.mb.lms[0]).slot = i then some 0
  else if (s.mb.lms[1]).valid ∧ (s.mb.lms[1]).slot = i then some 1
  else none

/-- The key cannot sign now (R361). -/
def lmsBusy (s : State) (j : Fin 2) : Bool :=
  let k := s.mb.lms[j]
  !k.ready || k.p = k.n || k.p = 2 ^ 30 || k.jfail

/-- An owner may sign: the hearth, or an instance whose pool class has SIGN (R361). -/
def maySign (s : State) (owner : BitVec 8) : Bool :=
  if h : owner.toNat < 64 then (s.bt.pools[(s.inst[owner.toNat]).cfg.pool]).sign else true

/-- The lower tree of the last leaf is used up: the one for the next top leaf takes its place, and the tree after it is asked for
(R360). -/
def nextTree (s : State) (j : Fin 2) : State :=
  let s := modLms s j (fun k => { k with lower := k.lower - 1, ready := k.ready && decide (2 ≤ k.lower) })
  if (s.mb.lms[j]).p + 32768 < 2 ^ 30 ∧ unitsWhere s (fun u => u.work = .tree j) = [] then startTrees s j none else s

/-- Take the next leaf of a key; at 256 left the reservation of the next block begins (R357). -/
def takeLeaf (s : State) (j : Fin 2) : State :=
  let s := modLms s j (fun k => { k with p := k.p + 1, jbusy := k.jbusy || decide (k.n - (k.p + 1) ≤ 256) })
  let s := { s with pd := { s.pd with gatedLms := false } }
  if (s.mb.lms[j]).p % 32768 = 0 then nextTree s j else s

/-- A device signature with the next leaf of a key over a message: its bytes are a free value of the key's material, the leaf
and the message (R361).
Log entry 42 (DESIGN CHOICE). -/
def signWith (s : State) (j : Fin 2) (msg : List Byte) : List Byte × State :=
  let k := s.mb.lms[j]
  ((List.range sigLen).map (Config.sigByte (s.kv.slots[k.slot]).material k.p msg), takeLeaf s j)

/-- SIGN. -/
def kvSign (s : State) (k : KvCore) : KvRes :=
  match kvHandle s k (kvArg k 0) with
  | .inl e => kvRefuse s e
  | .inr i =>
    match lmsKeyOf s i with
    | none => kvRefuse s 13
    | some j =>
      let n := kvArg k 3
      if !maySign s k.owner then kvRefuse s 13
      else if n = 0 ∨ 4096 < n then kvRefuse s 9
      else if !kvRange (kvArg k 1) sigLen ∨ !kvRange (kvArg k 2) n then kvRefuse s 13
      else if lmsBusy s j then kvRefuse s 1
      else
        let q := (s.mb.lms[j]).p
        let (sig, s) := signWith s j (ramRead s (kvArg k 2) n)
        { code := 0, out0 := BitVec.ofNat 32 q, out1 := 5396, uses := [i.val], dst := kvArg k 1, dstLen := sigLen, bytes := sig
          hash := signCost n, s := s }

/-- PUBKEY. -/
def kvPubkey (s : State) (k : KvCore) : KvRes :=
  match kvHandle s k (kvArg k 0) with
  | .inl e => kvRefuse s e
  | .inr i =>
    match lmsKeyOf s i with
    | none => kvRefuse s 13
    | some j =>
      if !maySign s k.owner then kvRefuse s 13
      else if !kvRange (kvArg k 1) 60 then kvRefuse s 13
      else if lmsBusy s j then kvRefuse s 1
      else { code := 0, uses := [i.val], dst := kvArg k 1, dstLen := 60, bytes := pubKeyOf (s.mb.lms[j]).keyId, s := s }

/-- The silicon revision (mimpid). -/
def revByte (s : State) : Byte := s.gc.rev

/-- The alias record of Table 12.5 up to its signature. -/
def aliasRecord (s : State) (epoch : Nat) (subject issuer : List Byte) : List Byte :=
  beBytes 4 0x545A4952 ++ beBytes 2 1 ++ [2, BitVec.ofNat 8 s.kv.ownerGen] ++ otpSerial s ++ beBytes 2 0x3208 ++
    [revByte s, 0] ++ beBytes 4 epoch ++ subject ++ digBytes (sha256 issuer) ++ digBytes (s.mb.tallies[0]).1 ++
    fillBytes 40 0 ++ beBytes 4 sigLen

/-- ALIAS, once per device reset: a new epoch is journalled, the alias key derived into a general slot, its trees begun as
dependents, and its record signed by the identity key (R362).
Log entry 41 (DEDUCED, DESIGN CHOICE). -/
def kvAlias (billet : Nat) (s : State) (k : KvCore) : KvRes :=
  match kvHandle s k (kvArg k 0) with
  | .inl e => kvRefuse s e
  | .inr i =>
    let c : Fin 128 := ⟨kvArg k 1 % 128, Nat.mod_lt _ (by decide)⟩
    if lmsKeyOf s i ≠ some 0 ∨ !maySign s k.owner ∨ s.mb.aliased then kvRefuse s 13
    else if c.val < 16 ∨ (s.kv.slots[c]).typ ≠ 0 then kvRefuse s 5
    else if !kvRange (kvArg k 2) 5588 then kvRefuse s 13
    else if lmsBusy s 0 then kvRefuse s 1
    else
      let ep := aliasEpoch s + 1
      let ctx := digBytes (s.mb.tallies[0]).1 ++ beBytes 4 ep
      let m := expandB (s.kv.slots[(0 : Fin 128)]).material (deriveCtx (ascii "TZ-ALIAS") 2 2 0x40 0xFF ctx) 48
      let s := childSlot s 0 c 2 2 0x40 0xFF false m
      let kid := keyIdOf (s.kv.slots[c])
      let q := (match leafInForce s 1 with | some (_, r) => be32 r 16 | none => 0) + 1
      let s := leafWrite s 1 ep 0 q kid
      let s := modLms s 1 (fun _ => { valid := true, slot := c, keyId := kid, seq := q, jbusy := true })
      let s := startTrees s 1 (some billet)
      let body := aliasRecord s ep (pubKeyOf kid) (pubKeyOf (s.mb.lms[0]).keyId)
      let (sig, s) := signWith s 0 body
      let s := { s with mb := { s.mb with aliased := true } }
      { code := 0, out0 := handleOf s c, out1 := BitVec.ofNat 32 ep, uses := [i.val, c.val, 0]
        dst := kvArg k 2, dstLen := 5588, bytes := body ++ sig, hash := deriveCost 2 + signCost 192, s := s }

/-- The operation an OP code names (Table 10.5). -/
def kvOpFn (op billet : Nat) (s : State) (k : KvCore) : KvRes :=
  match op with
  | 1 => kvDerive s k
  | 2 => kvGenerate s k
  | 3 => kvUnwrap s k
  | 4 => kvWrap s k
  | 5 => kvRevoke s k
  | 6 => kvReplace s k
  | 7 => kvCommit s k
  | 8 => kvCancel s k
  | 9 => kvKcv s k
  | 10 => kvHmac s k
  | 11 => kvGcm true s k
  | 12 => kvGcm false s k
  | 13 => kvSign s k
  | 14 => kvAlias billet s k
  | 15 => kvPubkey s k
  | _ => kvRefuse s 14

/-- Post a result: CODE, outputs, DONE and the interrupt (R305). -/
def kvPost (s : State) (c : Core) (code : Nat) (o0 o1 : Word) : State :=
  kvInt (modKvc s c (fun k => { k with code := BitVec.ofNat 4 code, done := true, out0 := o0, out1 := o1, run := none })) 0

/-- Owner of an operation as the tracker knows it. -/
def kvOwner (o : BitVec 8) : Option Owner :=
  if h : o.toNat < 64 then some (.inst ⟨o.toNat, h⟩) else if o = 0xFF then some .hearth else none

/-- A COMMIT in flight on a slot or an ancestor of it makes new operations that name it wait (R310). -/
def commitAhead (s : State) (c : Core) (i : Nat) : Bool :=
  allCores.any (fun d => d ≠ c && (match (s.kv.cmd[d]).run with
    | some r => (match r.commit with | some j => isBelow s j 7 i | none => false)
    | none => false))

/-- KV_W of a queue: that of an instance's pool class; the hearth account's queue has weight 1, since the image gives it none (R220,
R232).
Log entry 41 (DEDUCED, DESIGN CHOICE). -/
def kvWeight (s : State) (q : Nat) : Nat :=
  if h : q - 32 < 64 then (if 32 ≤ q ∧ s.bt.arbOn then (s.bt.pools[s.inst[q - 32].cfg.pool]).kvW else 1) else 1

/-- An operation enters its owner's queue: one of class verification before the owner's queued ones of class background (R220). -/
def kvQueue (s : State) (i : QItem) : State :=
  let bg := fun (j : QItem) => j.q = i.q && (match unitOf s j.id with | some b => b.cls = .bg | none => false)
  let a := s.kv.arb
  let items := match unitOf s i.id with
    | some b => if b.cls = .bg then a.items ++ [i] else a.items.takeWhile (fun j => !bg j) ++ [i] ++ a.items.dropWhile (fun j => !bg j)
    | none => a.items
  { s with kv := { s.kv with arb := { a with items := items } } }

/-- Operations in flight. -/
def kvInFlight (s : State) : Nat :=
  (allCores.filter (fun c => match (s.kv.cmd[c]).run with | some r => r.taken | none => false)).length

/-- The operation unit takes a core's operation: it is checked, what takes effect at once does, and its work goes to the hash bank at
tier 2 or to the AES engines (R116, R305, R306). An operation that names a slot under a COMMIT waits for it (R310).
Log entry 41 (DEDUCED, DESIGN CHOICE). -/
def kvTake (s : State) (c : Core) : State :=
  let k := s.kv.cmd[c]
  match k.run with
  | none => s
  | some q =>
    let hs := kvArg k 0 % 128 :: (if q.op = 4 then [kvArg k 1 % 128] else [])
    let o := match unitOf s q.billet with | some b => b.owner | none => .hearth
    let r : KvRes := if hs.any (commitAhead s c) then { code := 2, uses := hs, s := s } else kvOpFn q.op q.billet s k
    let s := modKvc r.s c (fun x => { x with run := some { q with
      uses := r.uses, dst := r.dst, dstLen := r.dstLen, code := r.code, out0 := r.out0, out1 := r.out1, commit := r.commit
      waits := hs.any (commitAhead s c), taken := true, fill := r.fill, bytes := r.bytes } })
    let s := if r.hash = 0 then s else hashEnq s 2 q.billet r.hash o
    if r.aes = 0 then s else aesEnq s q.billet r.aes o

/-- The operation unit takes operations from the owners' queues while fewer than 8 are in flight and no zeroising mark is open (R220,
R305, R329).
Log entry 41 (DEDUCED, DESIGN CHOICE). -/
def kvServe : Nat → State → State
  | 0, s => s
  | n + 1, s =>
    if 8 ≤ kvInFlight s || zeroMark s then s
    else match arbPick s.clk.now (hashAge s) 97 1 (kvWeight s) s.kv.arb with
      | none => s
      | some (i, _, a) =>
        let s := { s with kv := { s.kv with arb := a } }
        kvServe n (match allCores.find? (fun c => match (s.kv.cmd[c]).run with | some r => r.billet = i.id && !r.taken | none => false) with
          | some c => kvTake s c
          | none => s)

/-- GO: while an operation is outstanding REJ is set; without a billet the operation ends with BUSY; else it enters its owner's queue
(R305).
Log entry 41 (DEDUCED, DESIGN CHOICE). -/
def kvGo (s : State) (c : Core) : State :=
  let k := s.kv.cmd[c]
  if k.run.isSome then modKvc s c (fun k => { k with rej := true })
  else match kvOwner k.owner with
    | none => kvPost s c 13 0 0
    | some o =>
      match draw (if k.bg ∧ k.op ≠ 14 then .bg else .ver) o none false (.vault c) s with
      | (none, s) => kvPost s c 1 0 0
      | (some id, s) =>
        let run : KvRun := {
          op := k.op.toNat, owner := k.owner, billet := id, uses := [], dst := 0, dstLen := 0, code := 0, out0 := 0, out1 := 0
          commit := none, waits := false, taken := false }
        kvServe 8 (kvQueue (modKvc s c (fun x => { x with run := some run })) { id := id, q := ownerQ o, cost := 1, enq := s.clk.now })

/-- A command row: KV_CMD(c) written with this OP and GO. -/
def kvCommand (op : BitVec 5) (s : State) (c : Core) : State :=
  kvGo (modKvc s c (fun k => { k with op := op })) c

/-- Another operation in flight uses a slot at or below `i`. -/
def usedBy (s : State) (c : Core) (i : Nat) : Bool :=
  allCores.any (fun d => d ≠ c && (match (s.kv.cmd[d]).run with
    | some r => !r.waits && r.uses.any (fun j => isBelow s i 7 j)
    | none => false))

/-- The trees that an operation generates, or waits to generate, as its dependents (R362). -/
def treesOf (s : State) (id : Nat) : Bool :=
  s.bt.waiting.any (fun w => w.parent = id) || !(unitsWhere s (fun u => u.parent = some id)).isEmpty

/-- An operation has its billet, its trees and its engine's work done: none while it waits for one of them (R305, R362).
Log entry 41 (DEDUCED, DESIGN CHOICE). -/
def kvWorked (s : State) (r : KvRun) : Option State :=
  if !r.taken ∨ (r.op = 14 ∧ treesOf s r.billet) then none else (unitDone r.billet 12 s).bind (aesDone r.billet)

/-- What an operation writes at its end: the slot it fills, unless the slot has changed hands, and its destination range.
Log entry 41 (DEDUCED, DESIGN CHOICE). -/
def kvApply (s : State) (r : KvRun) : State :=
  let s := match r.fill with
    | some (i, x) => if h : i < 128 then modSlot s ⟨i, h⟩ (fun y => if y.gen = x.gen then x else y) else s
    | none => s
  if r.bytes = [] then s else ramWrite s none r.dst r.bytes

/-- KV_OP_END: the operation of a core ends: what it writes is written, its result is posted and its billet returned (R305). A COMMIT
ends once its slot's users have, and then takes effect in one cycle; one that waits for it ends after it (R310).
Log entry 41 (DEDUCED, DESIGN CHOICE). -/
def kvOpEnd (s : State) (c : Core) : State :=
  match (s.kv.cmd[c]).run with
  | none => s
  | some r =>
    if r.waits ∧ r.uses.any (commitAhead s c) then s
    else match kvWorked s r with
    | none => s
    | some t => match r.commit with
      | none =>
        let s := kvPost (retire (kvApply t r) r.billet) c r.code r.out0 r.out1
        kvServe 8 (if r.op = 14 ∧ r.code = 0 then { s with mb := { s.mb with epoch := r.out1 } } else s)
      | some j =>
        if h : j < 128 then
          if usedBy s c j then s
          else
            let i : Fin 128 := ⟨j, h⟩
            let s := t
            let s := modKvc s c (fun k => { k with run := none })
            let s := modSlot s i (fun x => { x with material := x.pend.getD x.material, pend := none, gen := (x.gen + 1) % 65536 })
            let dead := (deadSlots s).map (·.val)
            let s := lmsDrop (if dead.isEmpty then s else kvInt (abortOps s dead.contains 6) 1)
            kvServe 8 (kvPost (retire s r.billet) c 0 (handleOf s i) 0)
        else s

/-- LEAF_JOURNAL_WRITE: the reservation's record has been written, and N rises; or the write failed (R357).
Log entry 57 (DESIGN CHOICE). -/
def leafJournal (s : State) (j : Fin 2) (failed : Bool) : State :=
  let k := s.mb.lms[j]
  if !k.valid ∨ !k.jbusy ∨ osErasing s then s
  else if failed then mbInt (modLms s j (fun k => { k with jfail := true })) 1
  else
    let s := leafWrite s j (if j = 1 then aliasEpoch s else 0) (k.n + 1024) (k.seq + 1) k.keyId
    modLms s j (fun k => { k with n := k.n + 1024, seq := k.seq + 1, jbusy := false, jfail := false })

/-- The trees a unit generated stand: the top tree with the lower trees of the current and the next top leaf, or, where the top tree stood
already, one further lower tree (R360). -/
def treesStand (s : State) (j : Fin 2) : State :=
  let was := (s.mb.lms[j]).ready
  let s := modLms s j (fun k => { k with ready := true, top := true, lower := if k.top then min 2 (k.lower + 1) else 2 })
  let s := if was then s else mbInt s 2
  if (s.mb.lms[j]).lower < 2 ∧ (s.mb.lms[j]).p + 32768 < 2 ^ 30 then startTrees s j none else s

/-- LMS_TREE_GENERATED: a key's trees are ready, once one of their jobs has an engine; where the sequencer found no billet it asks again
(R212, R360). -/
def treeDone (s : State) (j : Fin 2) : State :=
  match unitsWhere s (fun u => u.work = .tree j) with
  | id :: _ =>
    if allEng.any (fun e => match engJob s e with | some x => x.billet = id | none => false) then
      let s := retire (hashDrop s id) id
      if (s.mb.lms[j]).valid then treesStand s j else s
    else s
  | [] =>
    let k := s.mb.lms[j]
    if k.valid ∧ (!k.ready ∨ (k.lower < 2 ∧ k.p + 32768 < 2 ^ 30)) ∧ !s.bt.waiting.any (fun w => w.work = .tree j) then startTrees s j none else s

end Sys2Proof.Machine
end

