-- ==== Sys2Proof/Machine/Link.lean ====
section
/-! DEFINITION. The link layer of the flues and of the pair link (R370, R371, R381): states, sequence numbers, credits,
replay, and the order of sending. A frame sent stands in the replay buffer until it is acknowledged. -/

namespace Sys2Proof.Machine

/-- Raise FB_INT_STS, PR_INT_STS or TP_INT_STS bit `i`. -/
def fbInt (s : State) (i : Nat) : State := { s with fb := { s.fb with intSts := setBit s.fb.intSts i } }
def prInt (s : State) (i : Nat) : State := { s with pr := { s.pr with intSts := setBit s.pr.intSts i } }
def tpInt (s : State) (i : Nat) : State := { s with tp := { s.tp with intSts := setBit s.tp.intSts i } }

/-- The flue a link number below 4 is; the pair link is link 4. -/
def linkOf (s : State) (l : Link) : FlueRt := if h : l.val < 4 then s.fb.flue[l.val] else s.pr.link

/-- Change a link. -/
def modLink (s : State) (l : Link) (f : FlueRt → FlueRt) : State :=
  if h : l.val < 4 then { s with fb := { s.fb with flue := s.fb.flue.set l.val (f s.fb.flue[l.val]) } }
  else { s with pr := { s.pr with link := f s.pr.link } }

/-- The link of a flue. -/
def flueLink (f : Flue) : Link := ⟨f.val, by omega⟩

/-- A link that carries frames. -/
def linkUp (x : FlueRt) : Bool := x.st = .up || x.st = .neighbour || x.st = .isolated

/-- VC of a frame, from its FLAGS (Table 13.1). -/
def vcOf (fr : FabFrame) : Fin 4 := ⟨fr.flags.toNat % 4, Nat.mod_lt _ (by decide)⟩

/-- Bytes of a frame on the wire: header, payload, CRC, delimiters (R372). -/
def wireBytes (fr : FabFrame) : Nat := fr.payload.length + 24

/-- Frames the replay buffer holds. -/
def replayCap (l : Link) : Nat := if l.val = 4 then 64 else 32

/-- The VC at a ring position, and its weight. -/
def ringVc : Nat → Fin 4
  | 0 => 1
  | 1 => 0
  | _ => 3
def vcWeight (s : State) (l : Link) (p : Nat) : Nat :=
  if l.val = 4 then 1 else if p = 0 then s.fb.cfg.vc1w else if p = 1 then s.fb.cfg.vc0w else s.fb.cfg.vc3w

/-- Global operations go first (R381): BCAST, ARRIVE, RELEASE, MARKER, RESET. -/
def isGlobal (fr : FabFrame) : Bool := [0x20#8, 0x21#8, 0x22#8, 0x23#8, 0x26#8].contains fr.typ

/-- The deficit round robin of VC 1, VC 0 and VC 3; `n` bounds the turns. -/
def drrPick (w : Nat → Nat) : Nat → FlueRt → Option (FabFrame × FlueRt)
  | 0, _ => none
  | n + 1, x =>
    let p : Fin 3 := ⟨x.ring % 3, Nat.mod_lt _ (by decide)⟩
    let vc := ringVc p.val
    match x.waiting.find? (fun f => vcOf f = vc) with
    | none => drrPick w n { x with defs := x.defs.set p 0, ring := (x.ring + 1) % 3 }
    | some f =>
      if x.credits[vc] = 0 then drrPick w n { x with ring := (x.ring + 1) % 3 }
      else if wireBytes f ≤ x.defs[p] then some (f, { x with defs := x.defs.set p (x.defs[p] - wireBytes f) })
      else drrPick w n { x with defs := x.defs.set p (x.defs[p] + 256 * w p.val), ring := (x.ring + 1) % 3 }

/-- The next frame to send, in the order of R381. -/
def nextFrame (w : Nat → Nat) (x : FlueRt) : Option (FabFrame × FlueRt) :=
  if x.credits[(2 : Fin 4)] ≠ 0 ∧ x.waiting.any (fun f => vcOf f = 2) then
    ((x.waiting.find? isGlobal).orElse (fun _ => x.waiting.find? (fun f => vcOf f = 2))).map (fun f => (f, x))
  else drrPick w 12 x

/-- Send what credits and the replay buffer allow; each frame takes the next LSEQ and a credit of its VC. -/
def sendLoop (now cap : Nat) (w : Nat → Nat) : Nat → FlueRt → FlueRt
  | 0, x => x
  | n + 1, x =>
    if cap ≤ x.replay.length then x
    else match nextFrame w x with
      | none => x
      | some (f, x) =>
        let g : FabFrame := { f with lseq := x.txSeq }
        sendLoop now cap w n { x with
          waiting := x.waiting.erase f, txSeq := x.txSeq + 1, replay := x.replay ++ [g]
          replayAt := if x.replay = [] then now else x.replayAt
          credits := x.credits.set (vcOf f) (x.credits[vcOf f] - 1) }

/-- Let a link send.
Log entry 47 (DEDUCED, DESIGN CHOICE). -/
def pumpLink (s : State) (l : Link) : State :=
  modLink s l (fun x => if linkUp x then sendLoop s.clk.now (replayCap l) (vcWeight s l) (x.waiting.length) x else x)

/-- Queue a frame on a link and let it send. -/
def sendOn (s : State) (l : Link) (fr : FabFrame) : State :=
  pumpLink (modLink s l (fun x => if linkUp x then { x with waiting := x.waiting ++ [fr] } else x)) l

/-- A link's fresh link-layer state on entering UP. -/
def freshLink (x : FlueRt) : FlueRt :=
  { x with txSeq := 0, rxSeq := 0, replay := [], replays := 0, waiting := [], credits := Vector.replicate 4 8
           owed := Vector.replicate 4 0, ackOwed := false, nakOwed := false, defs := Vector.replicate 3 0, ring := 0 }

/-- Receive a frame that passed its CRC: in order it is taken, its buffer is free again at once (R382) and an acknowledgement
is owed; out of order it is not taken. -/
def linkTake (s : State) (l : Link) (fr : FabFrame) : Bool × State :=
  let x := linkOf s l
  if !linkUp x then (false, s)
  else if fr.lseq = x.rxSeq then
    (true, modLink s l (fun x => { x with
      rxSeq := x.rxSeq + 1, ackOwed := true, owed := x.owed.set (vcOf fr) (min 15 (x.owed[vcOf fr] + 1)) }))
  else (false, modLink s l (fun x => { x with ackOwed := true }))

/-- ARG of a LINK frame: the acknowledged LSEQ, NAK, and credits freed (Table 13.2). -/
def linkArg (x : FlueRt) : Word :=
  pack [(24, (x.rxSeq - 1).toNat), (23, b2n x.nakOwed), (12, x.owed[(0 : Fin 4)]), (8, x.owed[(1 : Fin 4)]),
    (4, x.owed[(2 : Fin 4)]), (0, x.owed[(3 : Fin 4)])]

/-- LINK_ACK_TIMER: while anything is owed a LINK frame is sent (R371). -/
def linkAck (s : State) (l : Link) : State :=
  let x := linkOf s l
  if linkUp x ∧ (x.ackOwed ∨ x.nakOwed ∨ x.owed.any (· ≠ 0)) then
    modLink s l (fun x => { x with lastLink := linkArg x, owed := Vector.replicate 4 0, ackOwed := false, nakOwed := false })
  else s

/-- The pair link's own frame: type and payload, on VC 2 (Table 15.6).
Log entry 47 (DEDUCED, DESIGN CHOICE). -/
def pairFrame (typ : Byte) (arg : Word) (payload : List Byte) : FabFrame :=
  { typ := typ, flags := 2, lseq := 0, hops := 1, dst := 0xFE, src := 0xFF, pseq := 0, eseq := 0, arg := arg, payload := payload }

/-- Send on the pair link. -/
def pairSend (s : State) (typ : Byte) (arg : Word) (payload : List Byte) : State := sendOn s 4 (pairFrame typ arg payload)

/-- The unit's clean time in seconds, saturating at 255 (R444). -/
def cleanTime (s : State) : Nat := min 255 ((s.clk.now - s.pr.failAt) / 500000000)

/-- The partner is IN_STEP with no failing input in the last second (R445). -/
def partnerFit (s : State) : Bool :=
  (match s.pr.partner with | some p => p.step = 2 | none => false) &&
  (match s.pr.partnerDiag with | some (d, _) => decide (d.clean ≠ 0) || decide (bf d.diag 0 5 = 0) | none => false)

/-- A burning unit yields: YIELD is sent and control is given up from the next boundary on (R445). -/
def startYield (s : State) : State :=
  if s.pr.role = 1 ∧ s.pr.yielding = none then
    let n := s.pr.handover + 1
    pairSend { s with pr := { s.pr with yielding := some s.clk.now, given := 0, handover := n, cntHand := satInc s.pr.cntHand } } 0x04 n []
  else s

/-- A self-diagnosis input meets its condition: its bit is set, the clean time restarts, and a burning unit with a fit partner
yields (R444, R445).
Log entry 52 (DEDUCED, DESIGN CHOICE). -/
def diagFail (s : State) (b : Nat) : State :=
  if s.pr.fitted ∧ s.pr.diagEn.getLsbD b then
    let s := { s with pr := { s.pr with diag := setBit s.pr.diag b, failAt := s.clk.now, failed := true } }
    if partnerFit s then startYield s else s
  else s

/-- A parity error counts towards the PARITY input: more than PARITY_MAX in any second (Table 15.7). -/
def parityCount (s : State) : State :=
  let l := s.clk.now :: s.pr.parityAt.filter (fun t => s.clk.now < t + 500000000)
  let s := { s with pr := { s.pr with parityAt := if s.pr.fitted then l else [] } }
  if s.pr.fitted ∧ s.pr.parityMax < l.length then diagFail s 2 else s

end Sys2Proof.Machine
end

