-- ==== Sys2Proof/Machine/Watchdog.lean ====
section
/-! DEFINITION. The non-maskable trap (R263-R265), the watchdogs with their windows and challenges, task sets, expiry with
its evidence, and suspension by own-store erases (R425-R436). -/

namespace Sys2Proof.Machine

/-- Change a watchdog or a task set. -/
def modWd (s : State) (w : Fin 5) (f : WdRt → WdRt) : State := { s with wd := { s.wd with w := s.wd.w.set w (f s.wd.w[w]) } }
def modTs (s : State) (i : Fin 16) (f : TsRt → TsRt) : State := { s with wd := { s.wd with ts := s.wd.ts.set i (f s.wd.ts[i]) } }
def allWd : List (Fin 5) := List.finRange 5
def allTs : List (Fin 16) := List.finRange 16

/-- Set a cause bit of a core's non-maskable trap. -/
def nmiCauseBit (s : State) (c : Core) (b : Nat) : State :=
  { s with he := { s.he with nmiCause := s.he.nmiCause.set c (setBit s.he.nmiCause[c] b) } }

/-- The non-maskable trap on a core: EPC and cause are recorded, the reservation is cleared and the tinder ROM's handler is
entered in machine mode; no CSR changes (R264). A core halted by a debugger leaves debug mode for it. On a core already NMI_ACTIVE
only the cause is set (R265). -/
def nmiTrap (s : State) (c : Core) (b : Nat) : State :=
  let s := nmiCauseBit s c b
  if (s.he.cores[c]).st = .running then
    let k := s.he.cores[c]
    let s := { s with
      he := { s.he with nmiEpc := s.he.nmiEpc.set c (if k.dbg then k.dpc else k.pc) }
      os := (osCut s (17 + c.val)).os }
    modCore s c (fun k => { k with
      st := .nmi, user := false, dbg := false, pc := 0x40, reserve := none, wfi := false, osWait := false, atVector := false
      fbuf := none })
  else s

/-- The cores a watchdog's expiry traps (Table 8.8). -/
def trappedBy (w : Fin 5) : List Core := if h : w.val < 4 then [⟨w.val, h⟩] else allCores

/-- Evidence of an expiry goes to the AO domain, or LOST is set (R432, Table 15.1). HE_NMI_EPC holds 0 for every core that has not
been trapped, and what a vector fault recorded for one it trapped (R264).
Log entry 55 (DEDUCED, DESIGN CHOICE). -/
def captureEvidence (s : State) (w : Fin 5) (fault : Nat) (set : Option (Nat × Nat)) : State :=
  let a := s.tp.ao
  let ao := if a.evCause.getLsbD 0 then { a with evCause := setBit a.evCause 15 }
    else { a with
      evCause := pack [(0, 1), (1, w.val), (4, fault), (6, b2n set.isSome), (7, (set.map (·.1)).getD 0), (11, (set.map (·.2)).getD 0)]
      evPc := s.he.nmiEpc
      evSvc := Vector.ofFn (fun i => (s.wd.w[i]).svc)
      evTime := BitVec.ofNat 32 (mtime s) }
  { s with tp := { s.tp with ao := ao } }

/-- A watchdog expires with a fault: the trap, the evidence, and at the first expiry the hard timer (R427, R431, R432). -/
def wdExpire (s : State) (w : Fin 5) (fault : Nat) (set : Option (Nat × Nat)) : State :=
  let s := modWd s w (fun k => { k with st := .expired, fault := BitVec.ofNat 2 fault })
  let s := (trappedBy w).foldl (fun s c => nmiTrap s c (if w.val < 4 then 0 else 1)) s
  let s := captureEvidence s w fault set
  let s := { s with wd := { s.wd with hardAt := some (s.wd.hardAt.getD s.clk.now) } }
  diagFail s 3

/-- Seed a watchdog's LFSR from the entropy source, at its start or its ARM (R426).
Log entry 55 (DEDUCED, DESIGN CHOICE). -/
def wdSeed (s : State) (w : Fin 5) (start : Bool) : State :=
  match entropyBytes s 4 with
  | (some b, s) =>
    if wordBE b 0 ≠ 0 then modWd s w (fun k => { k with lfsr := wordBE b 0, weak := false })
    else wdInt (modWd s w (fun k => { k with lfsr := if start then 1 else k.lfsr, weak := true })) 3
  | (none, s) => wdInt (modWd s w (fun k => { k with lfsr := if start then 1 else k.lfsr, weak := true })) 3

/-- Start a watchdog under reset timing (R429). -/
def wdStart (s : State) (w : Fin 5) : State :=
  let s := wdSeed s w true
  modWd s w (fun k => wdWindow s.clk.now 0 false { k with
    st := .resetTiming, closedUs := 0, openUs := 1000000, secret := 0, svc := BitVec.ofNat 32 (mtime s) })

/-- The open phase's length in microseconds. -/
def wdOpenUs (s : State) (k : WdRt) : Nat := if k.ext then 1000 * s.wd.extMs else k.openUs

/-- The token that ends a window (R427). -/
def wdToken (k : WdRt) : Word := ((k.lfsr ^^^ k.secret).rotateLeft (k.lfsr.toNat % 32)) + k.win

/-- May this core stoke this watchdog (R428)? -/
def stokeCore (w : Fin 5) (c : Core) : Bool := w.val = 4 || w.val = c.val

/-- A stoke, judged in its cycle; of several cores' in one cycle the first is judged, and the others set DUP (R427, R428, R435, R438).
Log entry 2 (DESIGN CHOICE). -/
def wdStoke (s : State) (w : Fin 5) (c : Core) (tok : Word) : State :=
  let k := s.wd.w[w]
  if !stokeCore w c then modWd s w (fun k => { k with foreign := true })
  else if takenNow k.stokeBy s.clk.now c then modWd s w (fun k => { k with dup := true })
  else if !wdRuns k then s
  else
    let s := modWd s w (fun k => { k with stokeBy := some (s.clk.now, c) })
    if s.wd.susp.isSome then modWd s w (fun k => { k with suspStoke := true })
    else if !k.open_ then wdExpire s w 1 none
    else if tok ≠ wdToken k then wdExpire s w 2 none
    else modWd s w (fun k => wdWindow (s.clk.now + 1) (k.win + 1) false { k with svc := BitVec.ofNat 32 (mtime s) })

/-- The tinder ROM stokes the master watchdog between own-store operations (R417). -/
def romStoke (s : State) : State :=
  let k := s.wd.w[(4 : Fin 5)]
  if wdRuns k ∧ k.open_ ∧ s.wd.susp = none then
    modWd s 4 (fun k => wdWindow (s.clk.now + 1) (k.win + 1) false { k with svc := BitVec.ofNat 32 (mtime s) })
  else s

/-- WINDOW_OPEN: the closed phase ends (R426). -/
def wdOpen (s : State) (w : Fin 5) : State :=
  let k := s.wd.w[w]
  if wdRuns k ∧ !k.open_ ∧ s.wd.susp = none then
    let s := reachTime s (k.at_ + usCyc k.closedUs)
    modWd s w (fun k => { k with open_ := true, at_ := k.at_ + usCyc k.closedUs })
  else s

/-- WINDOW_EXPIRY: an open phase ends without a correct token (R427). -/
def wdWindowExpiry (s : State) (w : Fin 5) : State :=
  let k := s.wd.w[w]
  if wdRuns k ∧ k.open_ ∧ s.wd.susp = none then wdExpire (reachTime s (k.at_ + usCyc (wdOpenUs s k))) w 3 none else s

/-- WD_ARM: timing from the section, the secret, a fresh seed and window 0; or ARM_REJ (R430). -/
def wdArm (s : State) (w : Fin 5) (c : Core) : State :=
  let k := s.wd.w[w]
  if (s.st.state ≠ .locked ∧ s.st.state ≠ .restructuring) ∨ k.wasArmed ∨ k.st = .expired ∨ (w.val < 4 ∧ w.val ≠ c.val) then
    modWd s w (fun k => { k with armRej := true })
  else
    let t := s.wd.timing[w]
    let s := wdSeed s w (k.st = .stopped)
    modWd s w (fun k => wdWindow (s.clk.now + 1) 0 false { k with
      st := .armed, closedUs := t.1, openUs := t.2, secret := k.secretReg, wasArmed := true, fault := 0
      svc := BitVec.ofNat 32 (mtime s) })

/-- Arm a task-set slot (R433). -/
def tsArm (s : State) (i : Fin 16) : State :=
  if (s.st.state = .locked ∨ s.st.state = .restructuring) ∧ (s.wd.tsCfg[i]).tasks ≠ 0 ∧ !(s.wd.ts[i]).armed then
    modTs s i (fun k => { k with armed := true, at_ := s.clk.now, inFirst := true, counts := Vector.replicate 16 0 })
  else s

/-- Length of a set's present period in microseconds (R433). -/
def tsPeriod (s : State) (i : Fin 16) : Nat :=
  let c := s.wd.tsCfg[i]
  if (s.wd.ts[i]).inFirst ∧ c.first ≠ 0 then c.first else c.period

/-- A check-in (R433, R435). -/
def tsCheckin (s : State) (i : Fin 16) (t : Fin 16) (c : Core) : State :=
  let k := s.wd.tsCfg[i]
  if !(s.wd.ts[i]).armed ∨ k.tasks ≤ t.val then s
  else if !k.cores.getLsbD c.val then modTs s i (fun r => { r with foreign := true })
  else if s.wd.susp.isSome then modWd s k.target (fun w => { w with suspStoke := true })
  else modTs s i (fun r => { r with counts := r.counts.set t (min 2 (r.counts[t] + 1)) })

/-- PERIOD_END: doubled and missing check-ins are recorded; a set that expires does so through its target (R434). -/
def tsPeriodEnd (s : State) (i : Fin 16) : State :=
  let c := s.wd.tsCfg[i]
  let r := s.wd.ts[i]
  if !r.armed ∨ r.expired ∨ s.wd.susp.isSome then s
  else
    let s := reachTime s (r.at_ + usCyc (tsPeriod s i))
    let tasks := (List.finRange 16).filter (fun t => decide (t.val < c.tasks))
    let dbl := tasks.filter (fun t => 2 ≤ r.counts[t])
    let miss := tasks.filter (fun t => r.counts[t] = 0)
    let s := if dbl.isEmpty then s
      else diagFail (wdInt (modTs s i (fun r => { r with double := dbl.foldl (fun d t => setBit d t.val) r.double })) 0) 3
    let s := modTs s i (fun r => { r with periods := r.periods + 1 })
    if !miss.isEmpty ∨ (c.doubleFatal ∧ !dbl.isEmpty) then
      let task := (miss.head?.orElse (fun _ => dbl.head?)).map (·.val)
      wdExpire (modTs s i (fun r => { r with expired := true })) c.target 3 (some (i.val, task.getD 0))
    else modTs s i (fun r => { r with at_ := r.at_ + usCyc (tsPeriod s i), inFirst := false, counts := Vector.replicate 16 0 })

/-- Microseconds left in a watchdog's phase (WD_LEFT). -/
def wdLeft (s : State) (w : Fin 5) : Nat :=
  let k := s.wd.w[w]
  if !wdRuns k then 0
  else
    let end_ := k.at_ + usCyc (if k.open_ then wdOpenUs s k else k.closedUs)
    (end_ - s.wd.susp.getD s.clk.now) / 500

end Sys2Proof.Machine
end

