-- ==== Sys2Proof/Machine/LifeCycle.lean ====
section
/-! DEFINITION. The life-cycle engine: commands, transitions with their marks, tokens, and resumption (R319-R335); and who
may write a register (R64, R189, R320, R497). -/

namespace Sys2Proof.Machine

/-- A register write by this master reaches window `win` (numbered as in R189): a core's always does; an external master
needs its WRITE bit and a register that Table 18.10 does not close; in END_OF_LIFE and INVALID it writes nothing (R320). -/
def mayWrite (s : State) (m : Master) (win : Nat) (closed : Bool) : Bool :=
  match m with
  | .core _ => true
  | .ext x => !closed && (s.gc.portals[x]).writeMask.getLsbD win && !lcDead s

/-- An external master may read a window (R189, R320). -/
def mayRead (s : State) (m : Master) (win : Nat) : Bool :=
  match m with
  | .core _ => true
  | .ext x => (s.gc.portals[x]).readMask.getLsbD win && (!lcDead s || decide (win = 0 ∨ win = 12))

/-- What runs only while no device reset is asserted.
Log entry 5 (DESIGN CHOICE, DEDUCED). -/
def onLive (s : State) (f : State → State) : State := if s.pd.inReset then s else f s

/-- A command of the engine ends with a result (LC_RES). -/
def lcFinish (s : State) (code : Nat) : State :=
  lcInt { s with lc := { s.lc with code := BitVec.ofNat 4 code, done := true } } 0

/-- The intent slot a transition takes: the lowest free one of 0-14; slot 15 for TO_TEST and END_OF_LIFE only (R327). -/
def lcSlot (s : State) (op : Nat) : Option Nat :=
  match (freeMarks s).find? (· < 15) with
  | some i => some i
  | none => if (op = 0x11 ∨ op = 0x33) ∧ (freeMarks s).contains 15 then some 15 else none

/-- LC_PROV as a byte string. -/
def provBytes (s : State) : List Byte := (s.lc.prov.toList).flatMap wordBytes

/-- LC_PROV is zeroed when PROVISION ends (LC_PROV). -/
def provClear (s : State) : State := { s with lc := { s.lc with prov := Vector.replicate 24 0 } }

/-- A whole flag. -/
def flagBytes : List Byte := fillBytes 4 0xFF

/-- Programming REV of a generation. -/
def revAct (g : Nat) : LcAct := .prog (genBase g + 0x6C) flagBytes

/-- TO_TEST's steps: a fresh UDS and its check into the first candidate that is all zero, unless a candidate is good; then S1 where
one is (Table 11.5, R328). -/
def actsToTest (s : State) : List LcAct × State :=
  let s1 : LcAct := .prog 0x000 (beBytes 16 (stageWord 1))
  if (otpUds s).isSome then ([s1], s)
  else match udsFree s with
    | none => ([], s)
    | some k =>
      match entropyBytes s 32 with
      | (none, s) => ([], s)
      | (some u, s) => ([.prog (udsAt k) u, .prog (udsAt k + 32) (udsChk u), s1], s)

/-- PROVISION's steps: SEED, SKEY and DKEY from LC_PROV, SEED_CHK of the seed as it then stands, PROV; a resumed one programs REV
instead (Table 11.5, R328). -/
def actsProvision (s : State) (g : Nat) (resumed : Bool) : List LcAct :=
  if resumed then [revAct g]
  else
    let d := provBytes s
    [.prog (genBase g) d, .prog (genBase g + 0x60) (seedChk (genSeed (otpProg s (genBase g) d) g)),
      .prog (genBase g + 0x68) flagBytes]

/-- The steps after the intent (Table 11.5).
Log entry 43 (DEDUCED, DESIGN CHOICE). -/
def lcActs (s : State) (op g : Nat) (resumed : Bool) : List LcAct × State :=
  if op = 0x11 then actsToTest s
  else (if op = 0x22 then [.zeroise true, .prog 0x010 (beBytes 16 (stageWord 2))]
    else if op = 0x66 then actsProvision s g resumed
    else if op = 0x44 then [revAct g, .zeroise false, .prog (genBase g + 0x70) flagBytes]
    else if op = 0x55 then [revAct g, .zeroise false]
    else (List.range 4).map revAct ++ [.zeroise false, .prog 0x020 (beBytes 16 (stageWord 3))], s)

/-- The first `n` programmed bits of a byte string, in ascending order of bytes and bits. -/
def firstBits : Nat → List Byte → List Byte
  | _, [] => []
  | n, b :: t =>
    let c := popByte b
    if c ≤ n then b :: firstBits (n - c) t
    else [(List.range 8).foldl (fun (x : Byte × Nat) i =>
      if b.getLsbD i && decide (x.2 < n) then (x.1 ||| 1#8 <<< i, x.2 + 1) else x) (0, 0) |>.1]

/-- Bits that a step programs; a zeroisation counts as one. -/
def actUnits : LcAct → Nat
  | .prog _ bs => bs.foldl (fun c b => c + popByte b) 0
  | .zeroise _ => 1

/-- Run steps as far as `n` units go, one bit after another (R327, R335).
Log entry 43 (DEDUCED, DESIGN CHOICE). -/
def lcRun : Nat → List LcAct → State → State
  | _, [], s => s
  | 0, _, s => s
  | n, .zeroise test :: t, s => lcRun (n - 1) t (if test then zeroiseTest s else zeroiseVault s)
  | n, .prog a bs :: t, s =>
    let k := actUnits (.prog a bs)
    if k ≤ n then lcRun (n - k) t (otpProg s a bs) else otpProg s a (firstBits n bs)

/-- Units of a list of steps. -/
def lcUnits (l : List LcAct) : Nat := (l.map actUnits).sum

/-- A transition is cut off after a number of bits that the specification does not say: a reset overtakes it, or a bit fails; its mark
stays open (R327, R335).
Log entry 43 (DEDUCED, DESIGN CHOICE). -/
def lcCut (s : State) (r : LcRun) : State :=
  lcRun ((Config.freeWord s.clk.free).toNat % (lcUnits r.acts + 1)) r.acts (useFree s 1)

/-- A device reset overtakes the transition that runs.
Log entry 43 (DEDUCED, DESIGN CHOICE). -/
def lcTorn (s : State) : State := match s.lc.run with | some r => lcCut s r | none => s

/-- A transition starts: the intent is programmed; the steps and DONE follow by its end (R327).
Log entry 43 (DEDUCED, DESIGN CHOICE). -/
def lcStart (s : State) (op g : Nat) : State :=
  match lcSlot s op with
  | none => lcFinish s 3
  | some i =>
    let b := BitVec.ofNat 8 op
    let h := BitVec.ofNat 8 g
    let s := otpProg s (markAt i) [b, h, ~~~b, ~~~h]
    let (l, s) := lcActs s op g false
    { s with lc := { s.lc with slot := BitVec.ofNat 5 i, run := some { op := op, gen := g, slot := i, acts := l } } }

/-- LC_TRANSITION_END: every step has been performed and DONE is programmed, or a bit failed three times and the mark stays open
(R327).
Log entry 43 (DEDUCED, DESIGN CHOICE). -/
def lcEnd (s : State) (otpFail : Bool) : State :=
  match s.lc.run with
  | none => s
  | some r =>
    let s := if r.op = 0x66 then provClear s else s
    let s := { s with lc := { s.lc with run := none } }
    if otpFail then lcInt (lcFinish (lcCut s r) 10) 1
    else lcFinish (otpProg (lcRun (lcUnits r.acts) r.acts s) (markAt r.slot + 4) flagBytes) 0

/-- Step 2 of R31: an open mark is resumed from its first step, then DONE is programmed (R327, R328). A TO_TEST for which no
candidate could be taken stays open.
Log entry 43 (DEDUCED, DESIGN CHOICE). -/
def lcResume (s : State) : State :=
  if lcState s = .invalid then s
  else match openMarks s with
    | [i] =>
      let op := markOp s i
      let (l, s) := lcActs s op (markGen s i) true
      let s := lcRun (lcUnits l) l s
      let s := lcInt { s with lc := { s.lc with resumed := true } } 2
      if op = 0x11 ∧ stageCls s 1 ≠ .full then s else otpProg s (markAt i + 4) flagBytes
    | _ => s

/-- A command or transition is running. -/
def lcBusy (s : State) : Bool := s.lc.run.isSome || s.lc.token.isSome

/-- LC_CMD with GO: OP is written, and the command starts unless one runs (R335). -/
def lcCommand (s : State) (m : Master) (op : Nat) (f : State → State) : State :=
  if mayWrite s m 12 true then
    let s := { s with lc := { s.lc with cmdOp := BitVec.ofNat 4 op } }
    if lcBusy s then lcFinish (if op = 3 then provClear s else s) 2 else f s
  else s

/-- TO_TEST. -/
def lcToTest (s : State) : State :=
  if lcState s ≠ .blank then lcFinish s 1
  else if serialNum s = 0 then lcFinish s 4
  else if s.kv.esFail then lcFinish s 9
  else lcStart s 0x11 0

/-- TO_PRODUCTION. -/
def lcToProduction (s : State) : State := if lcState s = .test then lcStart s 0x22 0 else lcFinish s 1

/-- PROVISION; LC_PROV is zeroed with any result.
Log entry 43 (DEDUCED, DESIGN CHOICE). -/
def lcProvision (s : State) : State :=
  match nextGen s with
  | none => provClear (lcFinish s 1)
  | some g =>
    if lcState s = .production ∧ curGen s = none then
      let s := lcStart s 0x66 g
      if s.lc.run.isNone then provClear s else s
    else provClear (lcFinish s 1)

/-- TO_EOL: without a token only while no generation is current (Table 11.5). -/
def lcToEol (s : State) : State :=
  if lcState s = .production ∧ curGen s = none then lcStart s 0x33 0 else lcFinish s 1

/-- NONCE (R330). -/
def lcNonce (s : State) : State :=
  match entropyBytes s 32 with
  | (none, s) => lcFinish { s with lc := { s.lc with nonce := none } } 9
  | (some b, s) => lcFinish { s with lc := { s.lc with nonce := some (digOf b) } } 0

/-- Checks 1-5 of R332 over a token; 0 where all pass.
Log entry 44 (DEDUCED). -/
def tokenCheck (s : State) (nonce : Option Digest) (addr len : Nat) : Nat :=
  if !(addr % 4 = 0 && inRam addr len) then 12
  else if len < 128 ∨ 65536 < len then 11
  else
    let t := ramRead s addr len
    if len ≠ 128 + be32 t 124 then 11
    else if be32 t 0 ≠ 0x545A4454 ∨ be16 t 4 ≠ 1 ∨ be8 t 6 < 1 ∨ 3 < be8 t 6 ∨ be16 t 48 ≠ 0x3208 ∨
        (slice t 50 14).any (· ≠ 0) then 6
    else if slice t 8 8 ≠ otpSerial s then 4
    else if nonce ≠ some (digOf (slice t 16 32)) then 5
    else if curGen s ≠ some (be8 t 7) then 13
    else if digBytes (sha256 (slice t 64 60)) ≠ genDkey s (be8 t 7) ∨ !m32Key (slice t 64 60) then 7
    else 0
where
  /-- The key's types are the supported ones with 32-byte nodes. -/
  m32Key (k : List Byte) : Bool :=
    (match lmsType (be32 k 4), otsType (be32 k 8) with
      | some (n, _), some (n', _) => n = 32 && n' = 32
      | _, _ => false) && decide (1 ≤ be32 k 0 ∧ be32 k 0 ≤ 3)

/-- A token's signature goes to the hash bank at tier 2, on a verification billet of the hearth account; a billet that cannot be drawn
is asked for again when the check would end (R332). -/
def tokenStart (s : State) : State :=
  match s.lc.token with
  | some (key, sig, msg, _, _) =>
    if (unitsWhere s (fun u => u.work = .token)).isEmpty then
      match draw .ver .hearth none false .token s with
      | (none, s) => s
      | (some id, s) => hashJobs s 2 id (hssJobs key sig msg.length) .hearth
    else s
  | none => s

/-- REDEEM: the nonce ceases to be valid; checks 1-5 (R332).
Log entry 44 (DEDUCED). -/
def lcRedeem (s : State) : State :=
  let a := s.lc.tokenAddr.toNat
  let n := s.lc.tokenLen.toNat
  let e := tokenCheck s s.lc.nonce a n
  let t := ramRead s a n
  let s := { s with lc := { s.lc with nonce := none } }
  if e ≠ 0 then lcFinish s e
  else tokenStart { s with lc := { s.lc with token := some (slice t 64 60, t.drop 128, t.take 128, be8 t 6, be8 t 7) } }

/-- The signature's verdict starts the transition of the token's PURPOSE or ends the command (R332). -/
def tokenVerdict (s : State) (key sig msg : List Byte) (purpose g : Nat) : State :=
  let s := { s with lc := { s.lc with token := none } }
  if hssVerify false key sig msg ≠ .pass then lcFinish s 8
  else if lcState s ≠ .production ∨ curGen s ≠ some g then lcFinish s 1
  else if purpose = 1 then lcStart s 0x44 g
  else if purpose = 2 then lcStart s 0x55 g
  else lcStart s 0x33 0

/-- TOKEN_CHECK_END: the signature's jobs have ended (R332).
Log entry 44 (DEDUCED). -/
def tokenEnd (s : State) : State :=
  match s.lc.token with
  | none => s
  | some (key, sig, msg, purpose, g) =>
    let s := tokenStart s
    match unitsWhere s (fun u => u.work = .token) with
    | [] => s
    | id :: _ =>
      match unitDone id 12 s with
      | none => s
      | some s => tokenVerdict (retire s id) key sig msg purpose g

end Sys2Proof.Machine
end

