-- ==== Sys2Proof/Machine/Reset.lean ====
section
/-! DEFINITION. Device resets, warm and cold, the supplies and the clock monitor, and the release of a reset (R4, R13,
R29-R31, R236, R284, R293, R294, R429, R474, R482). -/

namespace Sys2Proof.Machine

/-- An own-store erase that a reset overtakes runs on in the flash: the next boot finds its sector in any state (R471).
Log entry 53 (DESIGN CHOICE). -/
def osTorn (s : State) : State :=
  match s.os.op with
  | some o =>
    match o.issued with
    | some _ =>
      let n := if o.op = 3 then 65536 else 4096
      useFree { s with os := { s.os with
        mem := memWrite 0xFF s.os.mem o.addr ((List.range n).map (fun i => Config.freeByte (s.clk.free + i))) } } n
    | none => s
  | none => s

/-- A device reset during an anti-rollback advance leaves the count between its old value and the target, which of them the
specification does not say (R203).
Log entry 26 (DEDUCED, DESIGN CHOICE). -/
def arbTorn (s : State) : State :=
  let c := arbCount s
  if s.st.advancing ∧ c < s.st.arbTarget then
    arbProgram (useFree s 1) c ((Config.freeWord s.clk.free).toNat % (s.st.arbTarget - c + 1))
  else s

/-- The AO domain at a device reset: it keeps its contents; TP_ACTIVE is not among them, so an active source is idle again
(R13, R454). -/
def aoReset (a : Ao) : Ao := { a with src := a.src.map (fun k => if k.active then { k with active := false, cnt := 0 } else k) }

/-- A device reset begins (R4, R13, R294): every field takes its reset value except those of the AO domain, the OTP, the own
store, the RWS floors of a warm reset, the supplies' state, the TAP, the silicon
revision and the levels the board drives. -/
def devReset (s : State) (cause bank : Nat) (cold : Bool) : State :=
  let s := arbTorn (osTorn (lcTorn s))
  let r := State.reset
  { r with
    clk := s.clk
    gc := { r.gc with rev := s.gc.rev }
    otp := s.otp
    ve := { r.ve with floors := if cold then [] else s.ve.floors }
    os := { r.os with mem := s.os.mem, open_ := s.os.open_, pageSeq := s.os.pageSeq, mode := s.os.mode }
    sq := { r.sq with ioIn := s.sq.ioIn }
    lc := { r.lc with tapIr := s.lc.tapIr }
    pr := { r.pr with ord := s.pr.ord }
    wd := { r.wd with intSts := if s.tp.ao.evCause.getLsbD 0 then setBit 0 2 else 0 }
    pd := { s.pd with
      cause := BitVec.ofNat 4 cause, bank := BitVec.ofNat 4 bank, cold := s.pd.cold || cold, pllLock := false, refOk := false
      ret := 0, inReset := true, released := false, gatedHash := 0, gatedAes := 0, gatedLms := false }
    tp := { r.tp with ao := aoReset s.tp.ao, battery := s.tp.battery, haltAt := s.tp.haltAt }
    pending := s.pending }

/-- A warm reset of the cause given (R4); cold if the core supply has been low since the last one. -/
def warmReset (s : State) (cause bank : Nat) : State :=
  if s.pd.cold then devReset s 0 0 true else devReset s cause bank false

/-- DEV_RST_N_ASSERT: 1 us or more resets, under 100 ns is ignored; between them the specification does not say, and the
outcome is a free value (R482).
Log entry 60 (DESIGN CHOICE). -/
def devRst (s : State) (lowNs : Nat) : State :=
  if 1000 ≤ lowNs then warmReset s 1 0
  else if lowNs < 100 then s
  else
    let t := useFree s 1
    if (Config.freeWord s.clk.free).getLsbD 0 then warmReset t 1 0 else t

/-- CORE_SUPPLY_LOW: the device is held in reset, and the AO domain is in battery mode (R284, R453). A dip too short for that
still makes the next device reset a cold one (R4). -/
def coreLow (s : State) (lowNs : Nat) : State :=
  if 1000 ≤ lowNs then
    let s := devReset s 0 0 true
    { s with pd := { s.pd with coreOk := false, holdSupply := true }, tp := { s.tp with battery := true } }
  else { s with pd := { s.pd with cold := true } }

/-- CORE_SUPPLY_RESTORED: the reset may end 1 ms after the supply is in range (R284). -/
def coreRestored (s : State) : State :=
  if s.pd.holdSupply then
    let s := reachTime s (s.clk.now + msCyc 1)
    { s with pd := { s.pd with coreOk := true, holdSupply := false }, tp := { s.tp with battery := false } }
  else s

/-- IO_BANK_LOW: a warm reset; the bank is out of range (R284).
Log entry 40 (DESIGN CHOICE, DEDUCED). -/
def bankLow (s : State) (b : Fin 15) (lowNs : Nat) : State :=
  if 1000 ≤ lowNs then
    let s := warmReset s 7 b.val
    { s with pd := { s.pd with bankOk := clrBit s.pd.bankOk b.val } }
  else s

/-- Detect a bank's level: kept until the next cold reset; the other range afterwards, and 3.3 V on bank 14, is out of range
(R474).
Log entry 40 (DESIGN CHOICE, DEDUCED). -/
def bankDetect (s : State) (b : Fin 15) (v : Bool) : State :=
  if (b.val = 14 ∧ v) ∨ (s.pd.lvlSeen.getLsbD b.val ∧ s.pd.bankLvl.getLsbD b.val ≠ v) then
    { s with pd := { s.pd with bankOk := clrBit s.pd.bankOk b.val } }
  else
    { s with pd := { s.pd with
      bankOk := setBit s.pd.bankOk b.val, lvlSeen := setBit s.pd.lvlSeen b.val, bankLvl := putBit s.pd.bankLvl b.val v } }

/-- CLOCK_MONITOR_FAULT: a warm reset in each of the three cases (R293). -/
def clockFault (s : State) (_k : ClockFault) : State := warmReset s 6 0

/-- HE_NMI_CTL.RESET_NOW: a warm reset where the writing core is NMI_ACTIVE (R267). -/
def resetNow (s : State) (m : Master) : State :=
  match m with
  | .core c => if (s.he.cores[c]).st = .nmi then warmReset s 3 0 else s
  | .ext _ => s

/-- HARD_TIMER_EXPIRY: a warm reset 1 ms after the first expiry (R431). -/
def hardExpiry (s : State) : State :=
  match s.wd.hardAt with
  | some t => warmReset (reachTime s (t + msCyc 1)) 2 0
  | none => s

/-- DEVICE_RESET_RELEASE: straps, where it is DEV_RST_N that is released (causes 0 and 1), and levels are sampled, the entropy
source tested, hearth RAM is zero, the life-cycle state is decoded, the PLL starts, the master watchdog starts, and core 0 runs
from 0 (R31, R236, R429, R481). No other action is admitted before the tinder ROM has completed its second step.
Log entry 5 (DESIGN CHOICE, DEDUCED). -/
def release (s : State) (x : Straps) : State :=
  if s.pd.inReset ∧ !s.pd.released ∧ !s.pd.holdSupply ∧ !s.pd.holdHalt then
    let s := if s.pd.cold then
        let s := { s with pd := { s.pd with lvlSeen := 0, bankLvl := 0 } }
        (List.finRange 15).foldl (fun s b => if s.pd.bankOk.getLsbD b.val then bankDetect s b (x.bankLvl.getLsbD b.val) else s) s
      else s
    let sampled : Bool := decide (s.pd.cause.toNat ≤ 1)
    let s := { s with
      pd := { s.pd with released := true, cold := false, refOk := true }
      clk := { s.clk with resetAt := s.clk.now }
      he := { s.he with cores := State.reset.he.cores }
      pr := { s.pr with ord := if sampled then x.pairStrap else s.pr.ord }
      os := { s.os with mode := if sampled then x.word.getLsbD 0 else s.os.mode } }
    let s := wdStart (if x.entropyOk then s else healthFail s) 4
    if optCwdHw s then wdStart s 0 else s
  else s

end Sys2Proof.Machine
end

