-- ==== Sys2Proof/Machine/Tamper.lean ====
section
/-! DEFINITION. Tamper monitoring: windows, alarms, responses, the chained log, the thermometer, deferral, the real-time
clock, and the restart of the AO domain (R452-R471). -/

namespace Sys2Proof.Machine

/-- Change the AO domain's contents, or one source. -/
def modAo (s : State) (f : Ao → Ao) : State := { s with tp := { s.tp with ao := f s.tp.ao } }
def modSrc (s : State) (i : Fin 8) (f : TpSrc → TpSrc) : State := modAo s (fun a => { a with src := a.src.set i (f a.src[i]) })

/-- The real-time clock in AO ticks of 32.768 kHz, 48 bits (R465). -/
def rtcNow (s : State) : BitVec 48 := s.tp.ao.rtcBase + BitVec.ofNat 48 ((s.clk.now - s.tp.ao.rtcAt) * 32768 / 500000000)

/-- Free places of the tamper log (R469). -/
def tpFree (s : State) : Nat := 128 - (s.tp.ao.head + 256 - s.tp.ao.tail) % 256

/-- The AO SRAM offset of the place of a record number. -/
def tpPlace (pos : Nat) : Nat := 32 * (pos % 128)

/-- The 16 bytes of a record's body (Table 16.4). -/
def tpBody (s : State) (time : Nat) (source kind detail resp count flags : Nat) (seq : BitVec 8) : List Byte :=
  beBytes 6 time ++ [BitVec.ofNat 8 source, BitVec.ofNat 8 kind] ++ beBytes 2 detail ++ beBytes 2 s.tp.ao.alarms ++
    [BitVec.ofNat 8 resp, BitVec.ofNat 8 (min 255 count), BitVec.ofNat 8 (flags + 4 * b2n s.tp.ao.sat), seq]

/-- Chain the record at a position: UNCHAINED falls, and CHAIN follows from the previous one (R466, R467).
Log entry 56 (DEDUCED). -/
def tpChain (s : State) (pos : Nat) : State :=
  let b := memRead 0 s.tp.ao.sram (tpPlace pos) 16
  let b := b.set 14 (byteAt b 14 &&& 0xFD#8)
  let c := (digBytes (sha256 (beBytes 16 s.tp.ao.chain.toNat ++ b))).take 16
  let s := modAo s (fun a => { a with
    sram := memWrite 0 a.sram (tpPlace pos) (b ++ c), chain := BitVec.ofNat 128 (beNat c), chained := true })
  { s with tp := { s.tp with chainReg := s.tp.ao.chain } }

/-- Put a record into the next place. In main-power mode it is chained at once, unless records before it are not; on battery
it stays UNCHAINED (R460, R467). -/
def tpPut (s : State) (time source kind detail resp count : Nat) : State :=
  let un : Bool := s.tp.battery || decide (0 < s.tp.ao.unchained)
  let pos := s.tp.ao.head
  let b := tpBody s time source kind detail resp count (b2n s.tp.battery + 2 * b2n un) s.tp.ao.seq
  let s := modAo s (fun a => { a with
    sram := memWrite 0 a.sram (tpPlace pos) (b ++ fillBytes 16 0), head := (a.head + 1) % 256, seq := a.seq + 1, times := a.times ++ [s.clk.now]
    unchained := a.unchained + b2n un })
  if un then s else tpChain s pos

/-- Merge an alarm into the open OVERFLOW record: COUNT rises, ALARM_NO and TIME are the newest alarm's, RESP is the union
(R469). -/
def tpMerge (s : State) (resp : Nat) : State :=
  let o := tpPlace (s.tp.ao.head + 255)
  let b := memRead 0 s.tp.ao.sram o 16
  let n := min 255 ((byteAt b 13).toNat + 1)
  let b := beBytes 6 (rtcNow s).toNat ++ slice b 6 4 ++ beBytes 2 s.tp.ao.alarms ++
    [byteAt b 12 ||| BitVec.ofNat 8 resp, BitVec.ofNat 8 n] ++ slice b 14 2
  modAo s (fun a => { a with sram := memWrite 0 a.sram o b })

/-- Log an alarm under the place rules of R469. -/
def tpLogAlarm (s : State) (src : Fin 8) (detail resp count : Nat) : State :=
  if s.tp.ao.overflow then tpMerge s resp
  else if tpFree s ≤ 1 then
    let pos := s.tp.ao.head
    let b := tpBody s (rtcNow s).toNat 0xFF 2 0 resp 1 (b2n s.tp.battery + 2) s.tp.ao.seq
    tpInt (modAo s (fun a => { a with
      sram := memWrite 0 a.sram (tpPlace pos) (b ++ fillBytes 16 0), head := (a.head + 1) % 256, seq := a.seq + 1
      times := a.times ++ [s.clk.now]
      overflow := true })) 9
  else tpPut s (rtcNow s).toNat src.val 1 detail resp count

/-- A place has been freed by a drain: an open OVERFLOW record is chained and closed (R469). -/
def tpCloseOverflow (s : State) : State :=
  if s.tp.ao.overflow ∧ 0 < tpFree s ∧ !s.tp.battery ∧ s.tp.ao.unchained = 0 then
    modAo (tpChain s (s.tp.ao.head + 255)) (fun a => { a with overflow := false })
  else s

/-- Chain every UNCHAINED record in ring order; an open OVERFLOW record stays as it is (R461). -/
def tpChainAll (s : State) : State :=
  let n := s.tp.ao.unchained
  let first := s.tp.ao.head + 256 - n - b2n s.tp.ao.overflow
  modAo ((List.range n).foldl (fun s i => tpChain s (first + i)) s) (fun a => { a with unchained := 0 })

/-- Set HELD: every HRST_N is held (R457). -/
def holdHosts (s : State) : State := regate (modAo s (fun a => { a with held := true }))

/-- HALT (R458): cores, movers, watchdogs and the life-cycle engine stop, and the device takes a warm reset, held for
HALT_HOLD. The cores show HALTED until the reset is released (R268).
Log entry 56 (DEDUCED). -/
def haltReset (s : State) : State :=
  let s := warmReset s 5 0
  { s with
    he := { s.he with cores := s.he.cores.map (fun k => { k with st := .halted }) }
    pd := { s.pd with holdHalt := true }
    tp := { s.tp with haltAt := some s.clk.now } }

/-- The mask names a response. -/
def respNames (r : BitVec 4) (i : Nat) : Bool := r.getLsbD i

/-- An alarm in main-power mode: the record, then ASH, HOLD_HOSTS, INTERRUPT's bit and HALT; HALT's reset comes last, since it
ends everything else (R455-R459). -/
def respondMain (s : State) (src : Fin 8) (r : BitVec 4) : State :=
  let s := if respNames r 2 then zeroiseVault s else s
  let s := if respNames r 1 then holdHosts s else s
  let s := tpInt s src.val
  if respNames r 3 then haltReset s else s

/-- On battery only ASH acts at once, on the AWK; every response of the mask is deferred (R460).
Log entry 56 (DEDUCED). -/
def respondBattery (s : State) (src : Fin 8) (r : BitVec 4) : State :=
  modAo s (fun a => { a with
    awk := if respNames r 2 then none else a.awk
    ashed := a.ashed || respNames r 2
    deferResp := a.deferResp ||| r
    deferSrc := if r = 0 then a.deferSrc else setBit a.deferSrc src.val })

/-- A source raises an alarm (R454, R455, R468). -/
def alarm (s : State) (src : Fin 8) (detail count : Nat) : State :=
  let r := (s.tp.ao.src[src]).resp
  let s := modAo s (fun a => { a with alarms := min 65535 (a.alarms + 1), pend := if a.sat then 0 else a.pend + 1 })
  let s := tpLogAlarm s src detail (r.toNat + (if s.tp.battery then 16 * r.toNat else 0)) count
  if s.tp.battery then respondBattery s src r
  else
    let s := if src.val = 5 then diagFail s 1 else s
    respondMain s src r

/-- DETAIL of a source's event (Table 16.4). -/
def tpDetail (src : Fin 8) (det : Nat) : Nat :=
  if src.val = 0 ∨ src.val = 2 ∨ src.val = 3 ∨ src.val = 5 then det % 65536 else 0

/-- W of a source in cycles. -/
def tpWindow (s : State) (src : Fin 8) : Nat := msCyc (s.tp.ao.src[src]).w

/-- The monitors see this source in the present power mode (R453). -/
def tpSeen (s : State) (src : Fin 8) : Bool := !s.tp.battery || src.val = 0 || src.val = 4

/-- A light event needs an enabled detector (R452). -/
def lightOk (s : State) (src : Fin 8) (det : Nat) : Bool :=
  src.val ≠ 0 || (decide (det < 64) && s.tp.ao.ldEn.getLsbD det)

/-- An event of an enabled source is counted in its window (R454). -/
def tpCount (s : State) (src : Fin 8) (det : Nat) : State :=
  let k := s.tp.ao.src[src]
  if k.active then modSrc s src (fun k => { k with lastAt := s.clk.now })
  else
    let fresh : Bool := k.cnt = 0 || decide (k.openAt + tpWindow s src < s.clk.now)
    let c := if fresh then 1 else k.cnt + 1
    let s := modSrc s src (fun k => { k with cnt := c, openAt := if fresh then s.clk.now else k.openAt, lastAt := s.clk.now })
    if k.n ≤ c ∨ src.val = 5 ∨ src.val = 6 then
      alarm (modSrc s src (fun k => { k with active := true })) src (tpDetail src det) c
    else s

/-- TAMPER_EVENT (R452-R454, R462, R312). -/
def tamperEvent (s : State) (src : Fin 8) (det : Nat) : State :=
  let s := if src.val = 6 ∧ !s.tp.battery then { s with kv := { s.kv with zfail := true } } else s
  let s := if src.val = 5 ∧ !s.tp.battery then { s with tp := { s.tp with mismatch := true } } else s
  if tpSeen s src ∧ lightOk s src det then
    let s := if src.val = 0 ∧ !s.tp.battery then { s with tp := { s.tp with ld := setBit s.tp.ld det } } else s
    if (s.tp.ao.src[src]).en then tpCount s src det else s
  else s

/-- TAMPER_WINDOW_CLOSE: the count clears (R454). -/
def tamperClose (s : State) (src : Fin 8) : State :=
  let k := s.tp.ao.src[src]
  if !k.active ∧ 0 < k.cnt then modSrc (reachTime s (k.openAt + tpWindow s src)) src (fun k => { k with cnt := 0 }) else s

/-- SOURCE_IDLE: W without an event; SHADOW stays active while a mismatch persists (R454). -/
def sourceIdle (s : State) (src : Fin 8) : State :=
  let k := s.tp.ao.src[src]
  if k.active ∧ !(src.val = 5 ∧ s.tp.mismatch) then
    modSrc (reachTime s (k.lastAt + tpWindow s src)) src (fun k => { k with active := false, cnt := 0 })
  else s

/-- HALT_HOLD_EXPIRY: the hold on the reset ends (R458). -/
def haltExpiry (s : State) : State :=
  match s.tp.haltAt with
  | some t =>
    let s := reachTime s (t + msCyc s.tp.ao.haltHold)
    { s with pd := { s.pd with holdHalt := false }, tp := { s.tp with haltAt := none } }
  | none => s

/-- TP_HOLD.CLEAR (R457). -/
def holdClear (s : State) (m : Master) : State :=
  if !isCore m then s
  else if s.tp.ao.src.any (fun k => k.active && respNames k.resp 1) then modAo s (fun a => { a with rej := true })
  else regate (modAo s (fun a => { a with held := false }))

/-- TP_CTL.SOFT_ALARM: a SOFT event while the source is enabled (Table 16.1). -/
def softAlarm (s : State) (m : Master) : State := if isCore m then tamperEvent s 7 0 else s

/-- TP_CTL.RTC_LOAD: the clock is set and an RTC_SET record written (R465); the last free place is kept for alarms.
Log entry 56 (DEDUCED). -/
def rtcLoad (s : State) (m : Master) : State :=
  if isCore m then
    let s := modAo s (fun a => { a with rtcBase := s.tp.rtcSet, rtcAt := s.clk.now })
    if 1 < tpFree s ∧ !s.tp.ao.overflow then tpPut s s.tp.rtcSet.toNat 0xFF 3 0 0 0 else s
  else s

/-- TP_RTC_LO read: TP_RTC_HI latches (R465). -/
def rtcLatch (s : State) (m : Master) : State :=
  if mayRead s m 17 then modAo s (fun a => { a with rtcHi := BitVec.ofNat 16 ((rtcNow s).toNat >>> 32) }) else s

/-- Program one pending thermometer bit (R468). -/
def thermProgram (s : State) : State :=
  let c := tamperCount s
  if 0 < s.tp.ao.pend ∧ c < 512 ∧ !s.tp.battery then
    let s := modAo (thermBit s 0x320 c) (fun a => { a with pend := a.pend - 1 })
    if c + 1 = 512 then tpInt (modAo s (fun a => { a with sat := true, pend := 0 })) 10 else s
  else s

/-- AO_RESTART: the AO contents are lost and the domain restarts; its first record says so (R464, R467).
Log entry 56 (DEDUCED). -/
def aoRestart (s : State) : State :=
  let c := tamperCount s
  let seed := (digBytes (sha256 (ascii "TZ-TLOG" ++ otpSerial s ++ beBytes 2 c))).take 16
  let s := modAo s (fun _ => { alarms := c, chain := BitVec.ofNat 128 (beNat seed), rtcAt := s.clk.now, sat := decide (c = 512) })
  tpPut s 0 0xFF 4 0 0 0

/-- Step 1 of R31: pending thermometer bits, unchained records, deferred responses, in the order of R461.
Log entry 56 (DEDUCED). -/
def deferred (s : State) : State :=
  let s := (List.range s.tp.ao.pend).foldl (fun s _ => thermProgram s) s
  let s := tpChainAll s
  let r := s.tp.ao.deferResp
  if r = 0 then s
  else
    let s := if respNames r 2 then zeroiseVault s else s
    let s := if respNames r 1 then holdHosts s else s
    let s := if respNames r 3 then reachTime s (s.clk.now + msCyc s.tp.ao.haltHold) else s
    let s := if respNames r 0 then
        { s with tp := { s.tp with intSts := s.tp.intSts ||| s.tp.ao.deferSrc.setWidth 32 } } else s
    tpInt (modAo s (fun a => { a with deferResp := 0, deferSrc := 0 })) 8

end Sys2Proof.Machine
end

