-- ==== Sys2Proof/Machine/Boot.lean ====
section
/-! DEFINITION. The tinder ROM: firmware slots and the boot record, the application of a package, the choice of an image and
its start, and recovery over MS0 and I3C0 (R31, R396-R423). -/

namespace Sys2Proof.Machine

/-! Firmware slots (R402, R403). -/

/-- A tinder ROM public key: 60 bytes of the layout of R175, whose values the specification does not give. -/
def romKey (k : Nat) : List Byte := (List.range 60).map (Config.romKeyByte k)

/-- SIG_LEN, which a key fixes (R403). -/
def romSigLen (k : Nat) : Option Nat := hssLen (be32 (romKey k) 0) (be32 (romKey k) 4) (be32 (romKey k) 8)

/-- Where a load address lies in core 0's tightly coupled RAM or shared RAM, for `n` bytes. -/
def loadAt (a n : Nat) : Option Nat :=
  if tcmOwn ≤ a ∧ a + n ≤ tcmOwn + tcmSize then some (tcmBase + (a - tcmOwn))
  else if (tcmBase ≤ a ∧ a + n ≤ tcmBase + tcmSize) ∨ inShared a n then some a
  else none

/-- A header meets Table 14.2, MIN_REV and the fit at LOAD. -/
def fwHeader (s : State) (h : List Byte) : Bool :=
  let len := be32 h 8
  decide (be32 h 0 = 0x545A4657 ∧ be16 h 4 = 1 ∧ be16 h 6 = 128 ∧ 132 ≤ len ∧ len ≤ 1048576 ∧ len % 4 = 0) &&
  decide (be16 h 18 = 0x3208 ∧ be8 h 20 ≤ s.gc.rev.toNat ∧ be8 h 21 ≤ 3 ∧ be16 h 22 = 0) &&
  (slice h 36 92).all (· = 0) && (loadAt (be32 h 24) len).isSome &&
  decide (be32 h 24 ≤ be32 h 28 ∧ be32 h 28 < be32 h 24 + len)

/-- A slot's header, and its total length (R403). -/
def slotHdr (s : State) (k : Nat) : List Byte := osRead s (osFw k) 128
def totalLen (h : List Byte) : Option Nat := (romSigLen (be8 h 21)).map (fun n => be32 h 8 + n)

/-- The image digest of a slot (R402). -/
def imageDigest (s : State) (k : Nat) : Option Digest := (totalLen (slotHdr s k)).map (fun n => sha256 (osRead s (osFw k) n))

/-! The boot record (R404). -/

/-- A boot record verifies under slot 6. -/
def bootGood (s : State) (r : List Byte) : Bool :=
  be32 r 0 = 0x545A4252 && be16 r 4 = 1 && be8 r 6 ≤ 1 &&
    (match secretOf s 6 with | some k => slice r 64 32 = sealOf k r 64 | none => false)

/-- The boot record in force. -/
def bootRec (s : State) : Option (Nat × List Byte) := inForce s osBootRec 8 (bootGood s)

/-- FLOOR of the record in force, or 0. -/
def bootFloor (s : State) : Nat := match bootRec s with | some (_, r) => be32 r 16 | none => 0

/-- A slot is bootable (R403). -/
def bootable (s : State) (k : Nat) : Bool :=
  let h := slotHdr s k
  fwHeader s h && (match totalLen h with
    | some n =>
      let img := osRead s (osFw k) n
      hssVerify true (romKey (be8 h 21)) (img.drop (be32 h 8)) (img.take (be32 h 8)) = .pass
    | none => false) && decide (bootFloor s ≤ be32 h 12)

/-- Write the boot record: slot, flags and tries are given, the rest is kept (R399, R404). Without slot 6 none is written. -/
def bootWrite (s : State) (slot flags tries : Nat) : State :=
  match secretOf s 6 with
  | none => s
  | some key =>
    let cur := bootRec s
    let old := match cur with | some (_, r) => r | none => fillBytes 128 0
    let b := beBytes 4 0x545A4252 ++ beBytes 2 1 ++ [BitVec.ofNat 8 slot, BitVec.ofNat 8 flags] ++ beBytes 4 (be32 old 8 + 1) ++
      [BitVec.ofNat 8 tries, byteAt old 13, 0, 0] ++ slice old 16 4 ++ fillBytes 12 0 ++
      (match imageDigest s slot with | some d => digBytes d | none => fillBytes 32 0)
    recWrite s osBootRec (cur.map (·.1)) (b ++ sealOf key b 64)

/-- A kindling log record: 32 bytes whose layout the specification does not give (R400, R405).
Log entry 54 (DEDUCED, DESIGN CHOICE). -/
def kindlingLog (s : State) : State :=
  useFree (logAppend s 6 ((List.range 32).map (fun i => Config.freeByte (s.clk.free + i)))) 32

/-! Application of a package at step 3 of R31 (R409-R418). -/

/-- Place of the application journal's record `i`. -/
def jrnAt (i : Nat) : Nat := osJournal + 128 * i

/-- The journal's records whose SEAL verifies, in order (R416). -/
def jrnRecs (s : State) : List (List Byte) :=
  match secretOf s 6 with
  | none => []
  | some key => ((List.range 512).map (fun i => osRead s (jrnAt i) 128)).filter (fun r =>
      be32 r 0 = 0x545A414A && be16 r 4 = 1 && slice r 48 32 = sealOf key r 48)

/-- Write the next journal record, in the first erased place (R416). -/
def jrnWrite (s : State) (st slot arg : Nat) (head : List Byte) : State :=
  match secretOf s 6, ((List.range 512).map jrnAt).find? (placeErased s) with
  | some key, some a =>
    let b := beBytes 4 0x545A414A ++ beBytes 2 1 ++ [BitVec.ofNat 8 st, BitVec.ofNat 8 slot] ++
      beBytes 4 ((a - osJournal) / 128 + 1) ++ beBytes 4 arg ++ head
    osProg s a (b ++ sealOf key b 48)
  | _, _ => s

/-- Length of a package head (R410). -/
def headLen (s : State) : Option Nat :=
  let h := osRead s osStaging 128
  if be32 h 0 = 0x545A5550 ∧ be16 h 4 = 1 ∧ be16 h 6 = 128 ∧ be64 h 8 ≠ 0 ∧ 1 ≤ be32 h 20 ∧ be32 h 20 ≤ 1004 ∧ be8 h 100 ≤ 3 ∧
      (slice h 101 27).all (· = 0) then
    match romSigLen (be8 h 100) with
    | some n => if 128 + 32 * be32 h 20 + n ≤ 65536 then some (128 + 32 * be32 h 20 + n) else none
    | none => none
  else none

/-- The staged head has the digest given and its signature verifies. -/
def headOk (s : State) (digest : List Byte) : Bool :=
  match headLen s with
  | none => false
  | some n =>
    let h := osRead s osStaging n
    let m := 128 + 32 * be32 h 20
    digBytes (sha256 h) = digest && hssVerify true (romKey (be8 h 100)) (h.drop m) (h.take m) = .pass

/-- The package key (R409). -/
def pkgKey (s : State) (h : List Byte) : List Byte :=
  let fam := expandB (s.kv.slots[(7 : Fin 128)]).material (deriveCtx (ascii "UPD-FAMILY") 1 3 1 0xFF (slice h 16 4)) 32
  expandB fam (deriveCtx (ascii "UPD-PKG") 1 4 8 0xFF (slice h 8 8)) 32

/-- Plaintext of chunk `i` where it is sound and its tag holds (R411). -/
def chunkOf (s : State) (h : List Byte) (key : List Byte) (i : Nat) : Option (List Byte) :=
  let c := osRead s (osStaging + 0x10000 + 4112 * i) 4112
  let nonce := slice h 8 8 ++ beBytes 4 i
  if digBytes (sha256 c) = slice h (128 + 32 * i) 32 ∧ gcmTag key nonce (h.take 128) (c.take 4096) = c.drop 4096 then
    some (gcmCrypt key nonce (c.take 4096))
  else none

/-- The delta stream as far as its chunks are good, and whether that is all of it. -/
def deltaBytes (s : State) (h : List Byte) (key : List Byte) : Nat → Nat → List Byte × Bool
  | _, 0 => ([], true)
  | i, n + 1 =>
    match chunkOf s h key i with
    | none => ([], false)
    | some p => let (r, ok) := deltaBytes s h key (i + 1) n; (p ++ r, ok)

/-- How a delta stream ends. -/
inductive DeltaEnd where
  /-- END at TARGET_LEN, with zero bytes after it. -/
  | done
  /-- Out of bytes. -/
  | short
  | malformed
deriving DecidableEq, Repr

/-- Run a delta stream: its output, and how it ends (R412). `n` bounds the operations, `len` is TARGET_LEN. -/
def deltaRun (base : List Byte) (len : Nat) : Nat → List Byte → List Byte → List Byte × DeltaEnd
  | 0, _, out => (out, .short)
  | n + 1, d, out =>
    let put (x : List Byte) (rest : List Byte) (m : Nat) : List Byte × DeltaEnd :=
      if m = 0 ∨ len < out.length + m then (out, .malformed) else deltaRun base len n rest (out ++ x)
    match d with
    | [] => (out, .short)
    | op :: r =>
      if op = 0 then (out, if out.length = len ∧ r.all (· = 0) then .done else .malformed)
      else if op = 1 then
        if r.length < 8 then (out, .short)
        else if base.length < be32 r 0 + be32 r 4 then (out, .malformed)
        else put (slice base (be32 r 0) (be32 r 4)) (r.drop 8) (be32 r 4)
      else if op = 2 then
        if r.length < 4 then (out, .short)
        else if r.length < 4 + be32 r 0 then
          (if len < out.length + be32 r 0 then (out, .malformed) else (out ++ r.drop 4, .short))
        else put (slice r 4 (be32 r 0)) (r.drop (4 + be32 r 0)) (be32 r 0)
      else if op = 3 then
        if r.length < 5 then (out, .short) else put (fillBytes (be32 r 1) (byteAt r 0)) (r.drop 5) (be32 r 1)
      else (out, .malformed)

/-- Rebuild blocks `k` and on; the reason of the first failure, or 0 (R417). -/
def rebuild (slot last len : Nat) (out : List Byte) (fin : DeltaEnd) (chunksOk : Bool) (head : List Byte) :
    Nat → Nat → State → Nat × State
  | 0, _, s => (0, s)
  | n + 1, k, s =>
    let need := min (65536 * (k + 1)) len
    let why := if fin = .malformed then 4 else if !chunksOk then 3 else 4
    let s := romStoke (ownErase s (osFw slot + 65536 * k) 65536)
    if out.length < need ∨ (k = last ∧ fin ≠ .done) then (why, s)
    else
      let s := romStoke (osProg s (osFw slot + 65536 * k) (slice out (65536 * k) (need - 65536 * k)))
      rebuild slot last len out fin chunksOk head n (k + 1) (jrnWrite s 2 slot k head)

/-- Step 3 of R31: with the journal open, the package is applied from the first block without a BLOCK record (R417). -/
def applyPackage (s : State) : State :=
  match (jrnRecs s).getLast? with
  | none => s
  | some r =>
    if be8 r 6 ≠ 1 ∧ be8 r 6 ≠ 2 then s
    else
      let slot := be8 r 7 % 2
      let head := slice r 16 32
      let fail := fun (s : State) (why : Nat) => jrnWrite s 4 slot why head
      if !headOk s head then fail s 1
      else
        let h := osRead s osStaging (128 + 32 * be32 (osRead s osStaging 128) 20)
        let base := osRead s (osFw (1 - slot)) ((totalLen (slotHdr s (1 - slot))).getD 0)
        if imageDigest s (1 - slot) ≠ some (digOf (slice h 32 32)) then fail s 2
        else
          let len := be32 h 24
          let (d, ok) := deltaBytes s h (pkgKey s h) 0 (be32 h 20)
          let d := d.take (be32 h 96)
          let (out, fin) := deltaRun base len (d.length + 1) d []
          let done := ((jrnRecs s).filter (fun r => be8 r 6 = 2 && slice r 16 32 = head)).length
          let n := cdiv len 65536
          match rebuild slot (n - 1) len out fin ok head (n - done) done s with
          | (0, s) =>
            if sha256 (osRead s (osFw slot) len) ≠ digOf (slice h 64 32) then fail s 5
            else if !bootable s slot then fail s 6
            else jrnWrite (bootWrite s slot 1 0) 3 slot 0 head
          | (why, s) => fail s why

/-! Choosing the image (R405). -/

/-- Enter recovery mode: the target slot is the one the record does not name; with no record, the one not bootable, or slot 0
(R419). FL0 is brought up (R422). -/
def enterRecovery (s : State) : State :=
  let slot := match bootRec s with
    | some (_, r) => 1 - be8 r 6
    | none => if !bootable s 0 then 0 else if !bootable s 1 then 1 else 0
  let s := { s with boot := { s.boot with on := true, slot := slot, src := none, count := 0, total := none, boot := none } }
  modLink s 0 (fun x => { x with st := .down, since := s.clk.now })

/-- The slot is chosen to boot, or recovery mode is entered where none can be. -/
def bootOr (s : State) (k : Option Nat) : State :=
  match k with
  | some k => { s with boot := { s.boot with boot := some k } }
  | none => enterRecovery s

/-- The first bootable slot of two. -/
def firstBootable (s : State) (a b : Nat) : Option Nat := if bootable s a then some a else if bootable s b then some b else none

/-- Step 4 of R31 (R405).
Log entry 54 (DEDUCED, DESIGN CHOICE). -/
def chooseImage (s : State) : State :=
  match bootRec s with
  | none =>
    if bootable s 0 ∧ bootable s 1 then bootOr s (some (if be32 (slotHdr s 0) 12 < be32 (slotHdr s 1) 12 then 1 else 0))
    else bootOr s (firstBootable s 0 1)
  | some (_, r) =>
    let slot := be8 r 6
    let trial := be8 r 7 % 2 = 1
    let tries := be8 r 12
    if be8 r 7 / 2 % 2 = 1 then enterRecovery s
    else if trial ∧ tries < 3 then
      let s := bootWrite s slot 1 (tries + 1)
      bootOr s (firstBootable s slot (1 - slot))
    else if trial then
      if bootable s (1 - slot) then bootOr (kindlingLog (bootWrite s (1 - slot) 0 0)) (some (1 - slot))
      else enterRecovery (kindlingLog (bootWrite s slot 2 tries))
    else bootOr s (firstBootable s slot (1 - slot))

/-- TINDER_START: the steps of R31 in order; BLANK waits, END_OF_LIFE and INVALID stop after step 2 (R319, R320).
Log entry 5 (DESIGN CHOICE, DEDUCED). -/
def tinder (s : State) : State :=
  if s.boot.ran ∨ !s.pd.released then s
  else
    let s := { s with pd := { s.pd with pllLock := true, inReset := false }, boot := { s.boot with ran := true } }
    let s := rootLoad (lcResume (deferred s))
    if kindlingState s then chooseImage (applyPackage s) else s

/-- KINDLING_BOOT: TALLY0 is extended and locked, the image is copied to LOAD, and core 0 starts at ENTRY (R355, R405).
Log entry 54 (DEDUCED, DESIGN CHOICE). -/
def kindlingBoot (s : State) : State :=
  match s.boot.boot with
  | none => s
  | some k =>
    if s.boot.kindling ∨ (s.he.cores[(0 : Core)]).st ≠ .running then s
    else
      let h := slotHdr s k
      let v := s.mb.tallies[(0 : Fin 64)]
      let s := { s with
        mb := { s.mb with
          tallies := s.mb.tallies.set 0 (tallyStep v.1 ((imageDigest s k).getD 0), v.2 + 1), tallyLock := setBit s.mb.tallyLock 0 }
        boot := { s.boot with kindling := true, on := false } }
      let s := match loadAt (be32 h 24) (be32 h 8) with
        | some a => ramWrite s none a (osRead s (osFw k) (be32 h 8))
        | none => s
      modCore s 0 (fun c => { c with pc := BitVec.ofNat 32 (be32 h 28), fbuf := none })

/-! Recovery mode (R419-R423). -/

/-- The reply to a recovery source: sent at once on MS0, fetched by a private read on I3C0 (R420). -/
def recReply (s : State) (x : RecSrc) (r : List Byte) : State :=
  let s := { s with boot := { s.boot with reply := r } }
  let i := s.mb.i3c[(0 : Fin 4)]
  if x = .i3c0 then { s with mb := { s.mb with i3c := s.mb.i3c.set 0 { i with reply := some (r, s.clk.now), fx := [], late := false } } } else s

/-- Another source is being served. -/
def recBusy (s : State) (x : RecSrc) : Bool := s.boot.src.isSome && s.boot.src ≠ some x

/-- STATUS (Table 14.9). -/
def recStatus (s : State) (x : RecSrc) : State :=
  if s.boot.on ∧ x ≠ .fl0 then
    recReply s x ([if recBusy s x then 6 else 0] ++ beBytes 4 s.boot.count ++ [BitVec.ofNat 8 s.boot.slot, 0, 0, 0])
  else s

/-- Program the next bytes of the image; each 64 KiB block is erased when the image first reaches it (R419). -/
def recProgram (s : State) (data : List Byte) : State :=
  let n := s.boot.count
  let s := ((List.range 32).filter (fun b => n ≤ 65536 * b && 65536 * b < n + data.length)).foldl
    (fun s b => ownErase s (osFw s.boot.slot + 65536 * b) 65536) s
  let s := osProg s (osFw s.boot.slot + n) data
  { s with boot := { s.boot with count := n + data.length } }

/-- Once 128 bytes are in, the header is checked; a bad one discards what was received (R421). -/
def recHeader (s : State) (before : Nat) : Bool × State :=
  if before < 128 ∧ 128 ≤ s.boot.count then
    let h := slotHdr s s.boot.slot
    if fwHeader s h ∧ (totalLen h).isSome then (true, { s with boot := { s.boot with total := totalLen h } })
    else (false, { s with boot := { s.boot with count := 0, total := none, want := 0, got := 0 } })
  else (true, s)

/-- A PIECE from MS0 or I3C0 (R420, R421).
Log entry 54 (DEDUCED, DESIGN CHOICE). -/
def recPiece (s : State) (x : RecSrc) (ofs : Nat) (data : List Byte) : State :=
  if !s.boot.on ∨ x = .fl0 then s
  else if recBusy s x then recReply s x [6]
  else
    let s := { s with boot := { s.boot with src := some x } }
    let top := s.boot.total.getD 0x200000
    if data.length = 0 ∨ 256 < data.length ∨ 0x200000 < ofs + data.length ∨ top < ofs + data.length then recReply s x [3]
    else if s.boot.count < ofs then recReply s x [4]
    else if ofs < s.boot.count then recReply s x [0]
    else
      let (ok, t) := recHeader (recProgram s data) s.boot.count
      recReply t x [if ok then 0 else 5]

/-- The image is complete: where the slot is bootable the boot record is written and the slot boots; else recovery goes on for
another attempt (R423). -/
def recFinish (s : State) : Bool × State :=
  let k := s.boot.slot
  if bootable s k then
    (true, { bootWrite s k 0 0 with boot := { s.boot with boot := some k, on := false, src := none } })
  else (false, { s with boot := { s.boot with src := none, count := 0, total := none, want := 0, got := 0 } })

/-- END (R421, R423). -/
def recEnd (s : State) (x : RecSrc) (total : Nat) : State :=
  if !s.boot.on ∨ x = .fl0 then s
  else if recBusy s x then recReply s x [6]
  else if s.boot.total ≠ some total then recReply s x [5]
  else
    let (ok, t) := recFinish s
    recReply t x [if ok then 0 else 5]

end Sys2Proof.Machine
end

