-- ==== Sys2Proof/Machine/Sequencer.lean ====
section
/-! DEFINITION. The platform sequencer: the power-up and shutdown graphs, watches and platform faults, and the SMBus ports
(R270-R290, R505). -/

namespace Sys2Proof.Machine

/-- Change a step's run-time record. -/
def modStep (s : State) (i : Fin 128) (f : StepRt → StepRt) : State :=
  { s with sq := { s.sq with steps := s.sq.steps.set i (f s.sq.steps[i]) } }

/-- The step's record in the image. -/
def stepCfg (s : State) (i : Nat) : Option Step := s.sq.cfg.steps[i]?

/-- All step indices the image has. -/
def allSteps (s : State) : List (Fin 128) := (List.finRange 128).filter (fun i => decide (i.val < s.sq.cfg.steps.length))

/-- The line a WAIT_IN step waits for, its level and its filter in cycles (Table 9.3). -/
def waitLine (c : Step) : Nat := c.p0
def waitLevel (c : Step) : Bool := c.p1 % 2 = 1
def waitFilter (c : Step) : Nat := usCyc (10 * (c.p1 / 256))

/-- The level sampled on a line. -/
def lineAt (s : State) (l : Nat) : Bool := s.sq.ioIn.getLsbD l

/-- This unit drives an SQ_IO line: an output after the lock, of a bank in range; on an open-drain output only the level 0 is driven
(R30, R271, R284).
Log entry 40 (DESIGN CHOICE, DEDUCED). -/
def lineDriven (s : State) (l : Fin 96) : Bool :=
  let d := (s.sq.cfg.lines[l]).dir
  s.sq.ioDriven && d ≠ 0 && bankUp s (if l.val < 48 then 10 else 11) && (d ≠ 2 || !s.sq.ioOut.getLsbD l.val)

/-- This unit drives an HRST_N line low: it asserts the line, and its bank is in range (R271, R284).
Log entry 40 (DESIGN CHOICE, DEDUCED). -/
def hrstDriven (s : State) (n : Fin 32) : Bool := s.sq.hrst.getLsbD n.val && bankUp s (chanBank n.val)

/-- Only the burning unit of a pair issues SMBus transactions (R287). -/
def issuesSmb (s : State) : Bool := !isBanked s

/-- The port of a PMB step. -/
def pmbPort (c : Step) : Fin 4 := ⟨c.p0 % 4, Nat.mod_lt _ (by decide)⟩
def isPmb (c : Step) : Bool := c.op = 4 || c.op = 5

/-- Announce something to the partner in a NOTICE; the order of its bytes is the model's choice.
Log entry 39 (DEDUCED, DESIGN CHOICE). -/
def noticeBytes : PairNotice → List Byte
  | .pmbStep i done => [1, BitVec.ofNat 8 i.val, BitVec.ofNat 8 (b2n done), 0]
  | .adapt n c q d v => [2, BitVec.ofNat 8 c.val] ++ beBytes 2 n ++ beBytes 2 q ++ beBytes 2 d ++ beBytes 2 v
  | .pseq n q c => [3, BitVec.ofNat 8 n.val] ++ beBytes 2 q.toNat ++ wordBytes c
def notify (s : State) (n : PairNotice) : State :=
  if s.pr.fitted ∧ s.pr.role = 1 then pairSend s 0x07 0 (noticeBytes n) else s

/-- Cycles of the recovery of a held bus: nine clock pulses and a stop, ten bit times at the port's speed (R288).
Log entry 39 (DEDUCED, DESIGN CHOICE). -/
def recoverCyc (s : State) (p : Fin 4) : Nat :=
  if s.sq.smbHeld.getLsbD p.val then 10 * (match s.sq.cfg.smbSpeed[p] with | 1 => 5000 | 2 => 1250 | _ => 500) else 0

/-- A transaction takes its port, whose bus is recovered before it where it is held (R290). -/
def takeSmb (s : State) (p : Fin 4) (j : Nat) : State :=
  { s with sq := { s.sq with portBusy := s.sq.portBusy.set p (some j), smbHeld := clrBit s.sq.smbHeld p.val } }

/-- A port is free again; the bus of a transaction that timed out is held (R290). -/
def leaveSmb (s : State) (p : Fin 4) (r : SmbResult) : State :=
  { s with sq := { s.sq with
    portBusy := s.sq.portBusy.set p none
    smbHeld := match r with | .timeout => setBit s.sq.smbHeld p.val | _ => s.sq.smbHeld } }

/-- Give free SMBus ports to waiting transactions: graph steps in ascending index, then kindling's (R290).
Log entry 39 (DEDUCED, DESIGN CHOICE). -/
def pumpSmb (s : State) : State :=
  if !issuesSmb s then s
  else (List.finRange 4).foldl (fun s p =>
    if (s.sq.portBusy[p]).isSome then s
    else match (allSteps s).find? (fun i => (s.sq.steps[i]).st = .running && (s.sq.steps[i]).smb = 1 &&
        (match stepCfg s i.val with | some c => isPmb c && pmbPort c = p | none => false)) with
      | some i =>
        modStep (takeSmb s p i.val) i (fun r => { r with smb := 2, smbAt := s.clk.now + recoverCyc s p })
      | none =>
        match s.sq.smbTxn with
        | some (w, _) =>
          if bf w 16 2 = p.val ∧ !s.sq.portBusy.contains (some 128) then
            takeSmb s p 128
          else s
        | none => s) s

/-- A step counts as done for its successors. -/
def stepDone (s : State) (i : Nat) : Bool := if h : i < 128 then (s.sq.steps[i]).st = .done else true

/-- Watches run: the shutdown graph has not started since the lock or the last RESTART (R281). -/
def watching (s : State) : Bool :=
  s.sq.graph = .running || s.sq.graph = .up || (s.sq.graph = .faulted && !s.sq.downStopped)

/-- A step becomes DONE, or counts as DONE after it failed: a WAIT_IN with WATCH starts its watch (R281); a PMB outcome is announced
as what it is (R287).
Log entry 39 (DEDUCED, DESIGN CHOICE). -/
def endStep (s : State) (i : Fin 128) (c : Step) (ok : Bool) : State :=
  let away : Bool := lineAt s (waitLine c) ≠ waitLevel c
  let live := watching s
  let s := modStep s i (fun r => { r with
    st := .done
    watch := if c.op = 2 ∧ c.watch ∧ live then 1 else 0
    awaySince := if c.op = 2 ∧ c.watch ∧ live ∧ away then some s.clk.now else none
    heldSince := none, smb := 0, doneAt := s.clk.now })
  if isPmb c then notify s (.pmbStep i ok) else s

/-- A step becomes DONE. -/
def finishStep (s : State) (i : Fin 128) (c : Step) : State := endStep s i c true

/-- Drive a line's level; on a line with SW the SQ_IO_SW bit follows. -/
def driveLine (s : State) (l : Nat) (v : Bool) : State :=
  if h : l < 96 then
    { s with sq := { s.sq with
      ioOut := putBit s.sq.ioOut l v
      ioSw := if (s.sq.cfg.lines[l]).sw then putBit s.sq.ioSw l v else s.sq.ioSw } }
  else s

/-- Start one step (R274, Table 9.3). -/
def startStep (s : State) (i : Fin 128) (c : Step) : State :=
  let s := modStep s i (fun r => { r with st := .running, startAt := s.clk.now })
  match c.op with
  | 1 => finishStep (driveLine s c.p0 (c.p1 % 2 = 1)) i c
  | 2 =>
    if lineAt s (waitLine c) = waitLevel c then
      if waitFilter c = 0 then finishStep s i c else modStep s i (fun r => { r with heldSince := some s.clk.now })
    else s
  | 3 => s
  | 6 => regate { finishStep s i c with sq := { (finishStep s i c).sq with released := s.sq.released ||| BitVec.ofNat 32 c.p2 } }
  | 8 => finishStep s i c
  | _ => modStep s i (fun r => { r with smb := if issuesSmb s then 1 else 0 })

/-- A step may start: idle, of the running graph, and with every predecessor DONE. -/
def mayStart (s : State) (i : Fin 128) (c : Step) : Bool :=
  (s.sq.steps[i]).st = .idle && c.deps.all (stepDone s) &&
    (if c.shutdownGraph then s.sq.graph = .shutting && !s.sq.downStopped
     else (s.sq.graph = .running) && !s.sq.upStopped)

/-- The cycle after the last predecessor of a step became DONE; 0 for a step that has none (R274).
Log entry 39 (DEDUCED, DESIGN CHOICE). -/
def readyAt (s : State) (c : Step) : Nat :=
  c.deps.foldl (fun m d => if h : d < 128 then max m ((s.sq.steps[d]).doneAt + 1) else m) 0

/-- The step that starts next: of those that may, the one whose predecessors were first done, the lowest of equals. -/
def nextStep (s : State) : Option (Fin 128 × Step) :=
  (allSteps s).foldl (fun b i => match stepCfg s i.val with
    | some c =>
      if mayStart s i c then
        (match b with
         | some x => if readyAt s c < readyAt s x.2 then some (i, c) else b
         | none => some (i, c))
      else b
    | none => b) none

/-- Start every step that may start, each in the cycle after its last predecessor became DONE; `n` bounds the starts.
Log entry 39 (DEDUCED, DESIGN CHOICE). -/
def startSteps : Nat → State → State
  | 0, s => s
  | n + 1, s =>
    match nextStep s with
    | some (i, c) => startSteps n (startStep (reachTime s (readyAt s c)) i c)
    | none => s

/-- Every step of a graph is done. -/
def graphDone (s : State) (down : Bool) : Bool :=
  (allSteps s).all (fun i => match stepCfg s i.val with
    | some c => c.shutdownGraph ≠ down || (s.sq.steps[i]).st = .done
    | none => true)

/-- STATE becomes UP, or OFF or FAULTED. -/
def graphUp (s : State) : State :=
  sqRecord (sqInt { s with sq := { s.sq with graph := .up } } 2) 0x04 0xFF 0xFF 0 0
def graphOff (s : State) (g : GraphSt) : State :=
  sqRecord (sqInt { s with sq := { s.sq with graph := g } } 3) 0x05 0xFF 0xFF 0 0

/-- Run the graph as far as it goes at this moment, then the ports (R274, R277). -/
def runGraph (s : State) : State :=
  let s := startSteps 128 s
  let s := if s.sq.graph = .running ∧ !s.sq.upStopped ∧ graphDone s false then graphUp s
    else if s.sq.graph = .shutting ∧ !s.sq.downStopped ∧ graphDone s true then graphOff s .off
    else s
  pumpSmb s

/-- The image has a shutdown graph. -/
def hasDown (s : State) : Bool := s.sq.cfg.steps.any (·.shutdownGraph)

/-- A watch's line has been away from its level for the filter time, and the step was DONE before this cycle (R281, Table 9.5). -/
def faultDue (s : State) (i : Fin 128) : Bool :=
  let r := s.sq.steps[i]
  match stepCfg s i.val, r.awaySince with
  | some c, some t => r.watch = 1 && decide (t + waitFilter c ≤ s.clk.now) && decide (r.doneAt < s.clk.now)
  | _, _ => false

/-- A platform fault is logged and acts on the lines of its mask; its watch is spent (R281, R282).
Log entry 39 (DEDUCED, DESIGN CHOICE). -/
def faultHold (s : State) (i : Fin 128) (c : Step) (act : Nat) : State :=
  let mask := if act = 2 then 0 else c.p2
  let s := modStep s i (fun r => { r with watch := 2, awaySince := none, heldSince := none })
  let s := sqRecord (sqInt s 1) 0x02 i.val c.p0 mask 0
  regate { s with sq := { s.sq with
    faultStep := BitVec.ofNat 7 i.val, faultPf := true, faultLine := BitVec.ofNat 7 c.p0
    pfHold := s.sq.pfHold ||| BitVec.ofNat 32 mask } }

/-- Faults due in the cycle in which the shutdown graph starts are logged with PF_ACT LOG (Table 9.5).
Log entry 39 (DEDUCED, DESIGN CHOICE). -/
def logDue (s : State) : State :=
  ((allSteps s).filter (faultDue s)).foldl (fun s i => match stepCfg s i.val with | some c => faultHold s i c 2 | none => s) s

/-- The shutdown graph starts: the power-up graph stops, every graph condition and every watch ends (R277, R279, R281).
Log entry 39 (DEDUCED, DESIGN CHOICE). -/
def startShutdown (s : State) : State :=
  if s.sq.graph = .running ∨ s.sq.graph = .up then
    let s := sqRecord (logDue s) 0x03 0xFF 0xFF 0 0
    let s := { s with sq := { s.sq with
      graph := .shutting, upStopped := true, released := 0
      steps := s.sq.steps.map (fun r => { r with watch := 0, awaySince := none }) } }
    runGraph (regate s)
  else s

/-- The SQ_IO line named in records and SQ_FAULT: that of a WAIT_IN step. -/
def faultLine (c : Step) (none_ : Nat) : Nat := if c.op = 2 then c.p0 else none_

/-- A step fails (R275).
Log entry 39 (DEDUCED, DESIGN CHOICE). -/
def failStep (s : State) (i : Fin 128) (c : Step) : State :=
  let s := sqRecord (sqInt s 0) 0x01 i.val (faultLine c 0xFF) 0 0
  let s := { s with sq := { s.sq with
    faultStep := BitVec.ofNat 7 i.val, faultPf := false, faultLine := BitVec.ofNat 7 (faultLine c 0) } }
  if c.onFailContinue then runGraph (endStep s i c false)
  else
    let s := modStep s i (fun r => { r with st := .failed, smb := 0, heldSince := none })
    let s := if isPmb c then notify s (.pmbStep i false) else s
    if c.shutdownGraph then
      let s := { s with sq := { s.sq with downStopped := true } }
      if s.sq.graph = .shutting then graphOff s .faulted else s
    else if s.sq.graph ≠ .running then s
    else if hasDown s then startShutdown { s with sq := { s.sq with upStopped := true } }
    else graphOff { s with sq := { s.sq with upStopped := true } } .faulted

/-- WAIT_IN_SETTLED. -/
def waitSettled (s : State) (i : Fin 128) : State :=
  match stepCfg s i.val, (s.sq.steps[i]).heldSince with
  | some c, some t =>
    if c.op = 2 ∧ (s.sq.steps[i]).st = .running then runGraph (finishStep (reachTime s (t + waitFilter c)) i c) else s
  | _, _ => s

/-- DELAY_EXPIRY. -/
def delayExpiry (s : State) (i : Fin 128) : State :=
  match stepCfg s i.val with
  | some c =>
    if c.op = 3 ∧ (s.sq.steps[i]).st = .running then
      runGraph (finishStep (reachTime s ((s.sq.steps[i]).startAt + usCyc c.time)) i c)
    else s
  | none => s

/-- STEP_TIMEOUT: TIME passes; a WAIT_IN whose filter time has passed by then is DONE (R275). A banked unit takes the outcome of a PMB
step from the burning one (R287). -/
def stepTimeout (s : State) (i : Fin 128) : State :=
  match stepCfg s i.val with
  | some c =>
    let r := s.sq.steps[i]
    let end_ := r.startAt + usCyc c.time
    if r.st ≠ .running then s
    else if c.op = 2 then
      (match r.heldSince with
       | some t =>
         if t + waitFilter c ≤ end_ then runGraph (finishStep (reachTime s (t + waitFilter c)) i c) else failStep (reachTime s end_) i c
       | none => failStep (reachTime s end_) i c)
    else if isPmb c ∧ issuesSmb s then failStep (reachTime s end_) i c
    else s
  | none => s

/-- Error number of a transaction (Table 9.9). -/
def smbErrNo : SmbResult → Nat
  | .ok _ => 0
  | .noAck => 1
  | .timeout => 2
  | .pec => 3

/-- Bytes of data a PMB step reads or kindling's transaction carries. -/
def smbMask (n : Nat) (d : BitVec 16) : Nat := if n = 1 then d.toNat % 256 else d.toNat

/-- PMB_TRANSACTION_END: acknowledged, the write is done or the poll's value compared; in error, it is logged and a retry follows
(R290, R295). -/
def pmbEnd (s : State) (p : Fin 4) (r : SmbResult) : State :=
  match s.sq.portBusy[p] with
  | some j =>
    if h : j < 128 then
      let i : Fin 128 := ⟨j, h⟩
      let s := leaveSmb s p r
      let bad : Bool := smbErrNo r ≠ 0
      let s := if bad then sqRecord { s with sq := { s.sq with faultSmb := BitVec.ofNat 2 (smbErrNo r) } } 0x08 j 0xFF 0 (smbErrNo r) else s
      match stepCfg s j with
      | some c =>
        if (s.sq.steps[i]).smb ≠ 2 ∨ (s.sq.steps[i]).st ≠ .running then pumpSmb s
        else match r with
          | .ok d =>
            if c.op = 4 ∨ smbMask (c.p0 / 8 % 4) d &&& (c.p2 % 65536) = c.p2 / 65536 then runGraph (finishStep s i c)
            else pumpSmb (modStep s i (fun r => { r with smb := 4 }))
          | _ => pumpSmb (modStep s i (fun r => { r with smb := 3, smbAt := s.clk.now }))
      | none => pumpSmb s
    else s
  | none => s

/-- SMB_RETRY: 100 us after an error. -/
def smbRetry (s : State) (i : Fin 128) : State :=
  let r := s.sq.steps[i]
  if r.st = .running ∧ r.smb = 3 then
    pumpSmb (modStep (reachTime s (r.smbAt + usCyc 100)) i (fun r => { r with smb := 1 }))
  else s

/-- PMB_POLL_INTERVAL: POLL_US after the last read was issued.
Log entry 39 (DEDUCED, DESIGN CHOICE). -/
def pollInterval (s : State) (i : Fin 128) : State :=
  let r := s.sq.steps[i]
  if r.st = .running ∧ r.smb = 4 then
    pumpSmb (modStep (reachTime s (r.smbAt + usCyc s.sq.cfg.pollUs)) i (fun r => { r with smb := 1 }))
  else s

/-- A command is ignored. -/
def sqReject (s : State) : State := sqInt s 5

/-- SQ_CTL.RESTART (R278). -/
def sqRestart (s : State) : State :=
  if s.sq.graph = .off ∨ s.sq.graph = .faulted then
    runGraph (regate { s with sq := { s.sq with
      graph := .running, upStopped := false, downStopped := false, pfHold := 0, released := 0
      steps := Vector.replicate 128 {} } })
  else sqReject s

/-- SQ_CTL.SHUTDOWN (R277, R278). -/
def sqShutdown (s : State) : State :=
  if s.sq.graph = .running ∨ s.sq.graph = .up then startShutdown s else sqReject s

/-- Platform faults of one cycle: each acts by its PF_ACT, their masks combine, and SHUTDOWN acts once (R281, Table 9.5).
Log entry 39 (DEDUCED, DESIGN CHOICE). -/
def platformFaults (s : State) (l : List (Fin 128)) : State :=
  let s := l.foldl (fun s i => match stepCfg s i.val with | some c => faultHold s i c c.pfAct | none => s) s
  if l.any (fun i => match stepCfg s i.val with | some c => c.pfAct = 1 | none => false) then startShutdown s else s

/-- PLATFORM_FAULT: a watched line has been away for its filter time; others that are due by then act with it. -/
def pfEvent (s : State) (i : Fin 128) : State :=
  match stepCfg s i.val, (s.sq.steps[i]).awaySince with
  | some c, some t =>
    if (s.sq.steps[i]).watch = 1 then
      let s := reachTime s (t + waitFilter c)
      platformFaults s ((allSteps s).filter (fun j => j = i || faultDue s j))
    else s
  | _, _ => s

/-- WATCH_REARM: the line has held its level again for its filter time, one cycle with FILTER 0 (R282). -/
def watchRearm (s : State) (i : Fin 128) : State :=
  match stepCfg s i.val, (s.sq.steps[i]).heldSince with
  | some c, some t =>
    if (s.sq.steps[i]).watch = 2 then
      modStep (reachTime s (t + max 1 (waitFilter c))) i (fun r => { r with watch := 1, heldSince := none, awaySince := none })
    else s
  | _, _ => s

/-- A write of SQ_PF_HOLD: bits written 1 clear; a spent watch of a line still away is re-armed at the write (R282). -/
def pfClear (s : State) (v : Word) : State :=
  let gone := s.sq.pfHold &&& v
  let s := { s with sq := { s.sq with pfHold := s.sq.pfHold &&& ~~~v } }
  let again := (allSteps s).filter (fun i => match stepCfg s i.val with
    | some c => (s.sq.steps[i]).watch = 2 && c.pfAct ≠ 2 && gone &&& BitVec.ofNat 32 c.p2 ≠ 0 && lineAt s c.p0 ≠ waitLevel c
    | none => false)
  let s := again.foldl (fun s i => modStep s i (fun r => { r with watch := 1, awaySince := some s.clk.now, heldSince := none })) s
  regate (platformFaults s (again.filter (fun i => match stepCfg s i.val with | some c => waitFilter c = 0 | none => false)))

/-- SQ_HEARTH_HOLD written (Table 9.4). -/
def hearthHold (s : State) (v : Word) : State := regate { s with sq := { s.sq with hearthHold := v } }

/-- MIN_HOLD_EXPIRY (R279). -/
def minHoldExpiry (s : State) (n : Fin 32) : State :=
  match s.sq.minHoldTo[n] with
  | some t => regate { reachTime s t with sq := { s.sq with minHoldTo := s.sq.minHoldTo.set n none } }
  | none => s

/-- SQ_SMB_CTL as it reads, without START.
Log entry 12 (DEDUCED). -/
def smbCtl (s : State) : Word :=
  pack [(0, s.sq.smbAddr.toNat), (7, b2n s.sq.smbRead), (8, s.sq.smbCmd.toNat), (16, s.sq.smbPort.val), (18, s.sq.smbLen.toNat),
    (20, b2n s.sq.smbPec), (22, b2n s.sq.smbBusy), (23, s.sq.smbErr.toNat)]

/-- SQ_SMB_CTL.START (R505). -/
def smbStart (s : State) : State :=
  if s.sq.smbBusy then sqReject s
  else if s.sq.cfg.smbSpeed[s.sq.smbPort] = 0 ∨ (s.sq.smbRead ∧ s.sq.smbLen = 0) ∨ s.sq.smbLen = 3 then
    sqInt { s with sq := { s.sq with smbErr := 4 } } 4
  else
    let s := { s with sq := { s.sq with smbBusy := true, smbErr := 0, smbTxn := some (smbCtl s, s.sq.smbData) } }
    pumpSmb s

/-- SMB_TRANSACTION_END: BUSY falls, ERR shows the outcome, SMB_DONE is set (R505). -/
def smbEnd (s : State) (r : SmbResult) : State :=
  match s.sq.smbTxn, (List.finRange 4).find? (fun p => s.sq.portBusy[p] = some 128) with
  | some (w, _), some p =>
    let d := match r with
      | .ok d => if w.getLsbD 7 then BitVec.ofNat 16 (smbMask (bf w 18 2) d) else s.sq.smbData
      | _ => s.sq.smbData
    let s := leaveSmb s p r
    pumpSmb (sqInt { s with sq := { s.sq with
      smbBusy := false, smbErr := BitVec.ofNat 3 (smbErrNo r), smbData := d, smbTxn := none } } 4)
  | _, _ => s

/-- What a level change means to one step: a running WAIT_IN, which a level without a filter ends, an armed watch, or a spent one
(R274, R281, R282). -/
def stepLevel (s : State) (i : Fin 128) (c : Step) (v : Bool) : State :=
  let r := s.sq.steps[i]
  let at_ := v = waitLevel c
  if r.st = .running then
    if at_ ∧ waitFilter c = 0 then finishStep s i c
    else modStep s i (fun r => { r with heldSince := if at_ then some s.clk.now else none })
  else if r.watch = 1 then modStep s i (fun r => { r with awaySince := if at_ then none else some s.clk.now })
  else if r.watch = 2 then modStep s i (fun r => { r with heldSince := if at_ then some s.clk.now else none })
  else s

/-- An armed watch without a filter whose line is away: its fault is raised in the first cycle (R281). -/
def faultNow (s : State) (l : Fin 96) (v : Bool) (i : Fin 128) : Bool :=
  match stepCfg s i.val with
  | some c => c.op = 2 && c.p0 = l.val && (s.sq.steps[i]).st ≠ .running && (s.sq.steps[i]).watch = 1 && v ≠ waitLevel c &&
      waitFilter c = 0
  | none => false

/-- A running WAIT_IN without a filter whose line takes its level: it is DONE in this cycle (R274). -/
def levelEnds (s : State) (l : Fin 96) (v : Bool) (i : Fin 128) : Bool :=
  match stepCfg s i.val with
  | some c => c.op = 2 && c.p0 = l.val && (s.sq.steps[i]).st = .running && v = waitLevel c && waitFilter c = 0
  | none => false

/-- What a level change means to the steps that name the line; those in `now` fault instead. -/
def stepsLevel (s : State) (l : Fin 96) (v : Bool) (now : List (Fin 128)) : State :=
  (allSteps s).foldl (fun s i =>
    match stepCfg s i.val with
    | some c => if c.op = 2 ∧ c.p0 = l.val ∧ !now.contains i then stepLevel s i c v else s
    | none => s) s

/-- SQ_IO_LEVEL_CHANGE: the steps that name the line see its level in one cycle, then faults act and the graph goes on. -/
def ioChange (s : State) (l : Fin 96) (v : Bool) : State :=
  if s.sq.ioIn.getLsbD l.val = v then s
  else
    let s := { s with sq := { s.sq with ioIn := putBit s.sq.ioIn l.val v } }
    let now := (allSteps s).filter (faultNow s l v)
    let t := platformFaults (stepsLevel s l v now) now
    if (allSteps s).any (levelEnds s l v) then runGraph t else t

/-- The lock drives every output to INIT and starts the power-up graph (R194, R271, R277). -/
def sqLock (s : State) : State :=
  let out := fun (l : Fin 96) => decide ((s.sq.cfg.lines[l]).dir ≠ 0) && (s.sq.cfg.lines[l]).init
  let bits := fun (p : Fin 96 → Bool) => (List.finRange 96).foldl (fun w l => putBit w l.val (p l)) (0 : BitVec 96)
  runGraph { s with sq := { s.sq with
    graph := .running, ioDriven := true, ioOut := bits out
    ioSw := bits (fun l => out l && (s.sq.cfg.lines[l]).sw) } }

/-- A step outcome as the burning unit reports it (R287). -/
def noticeStep (s : State) (i : Fin 128) (done : Bool) : State :=
  match stepCfg s i.val with
  | some c =>
    if isPmb c ∧ (s.sq.steps[i]).st = .running then (if done then runGraph (finishStep s i c) else failStep s i c) else s
  | none => s

/-- After a handover the new burning unit restarts running PMB steps from their first transaction (R287). -/
def restartPmb (s : State) : State :=
  pumpSmb ((allSteps s).foldl (fun s i =>
    match stepCfg s i.val with
    | some c => if isPmb c ∧ (s.sq.steps[i]).st = .running then modStep s i (fun r => { r with startAt := s.clk.now, smb := 1 }) else s
    | none => s) s)

end Sys2Proof.Machine
end

