-- ==== Sys2Proof/Machine/Mailbox.lean ====
section
/-! DEFINITION. Mailboxes: messages and queues, bulk buffers, locks, tallies as masters use them, and the I3C targets with
their MCTP packets (R336-R356). -/

namespace Sys2Proof.Machine

/-- Change one instance's mailbox. -/
def modBox (s : State) (n : Inst) (f : Box → Box) : State := { s with mb := { s.mb with box := s.mb.box.set n (f s.mb.box[n]) } }

/-- Words a queue holds, and its free words (R336). -/
def qWords (q : List (List Word)) : Nat := q.foldl (fun a m => a + m.length) 0
def qFree (q : List (List Word)) : Nat := 16 - qWords q

/-- Fields of a header (R336). -/
def hdrLen (w : Word) : Nat := bf w 0 12
def hdrType (w : Word) : Nat := bf w 12 4

/-- BULK and SPDM hand over the bulk buffer. -/
def isBulk (w : Word) : Bool := hdrType w = 4 || hdrType w = 5

/-- An instance whose client is served: ACTIVE, or DRAINING, where replies already produced are still delivered (R226).
Log entry 29 (DEDUCED). -/
def instLive (s : State) (n : Inst) : Bool := (s.inst[n]).st = .active || (s.inst[n]).st = .draining

/-- The refusal of a send, in the order of R339; 0 where it is accepted. `dev` is the device side. -/
def sendCheck (s : State) (n : Inst) (dev : Bool) (ws : List Word) : Nat :=
  let h := ws.headD 0
  let b := s.mb.box[n]
  let len := hdrLen h
  if len < 1 ∨ 16 < len then 2
  else if hdrType h = 0 ∨ 7 ≤ hdrType h ∨ (!dev ∧ (hdrType h = 3 ∨ hdrType h = 6)) then 3
  else if isBulk h ∧ (len ≠ 2 ∨ bf (ws.getD 1 0) 0 13 = 0 ∨ 4096 < bf (ws.getD 1 0) 0 13) then 2
  else if isBulk h ∧ b.bulkDev ≠ dev then 4
  else if (s.inst[n]).st ≠ .active ∨ qFree (if dev then b.outq else b.inq) < len then 1
  else 0

/-- The number a sender's next message takes. -/
def nextSeqOf (l : List (Nat × Nat)) (sender : Nat) : Nat := (aget l sender).getD 0

/-- A header as the device overwrites it: sender and sequence number (R336, R337). -/
def stampHdr (w : Word) (sender seq : Nat) : Word := pack [(24, sender % 256), (16, seq % 256), (0, bf w 0 16)]

/-- Enqueue an accepted message (R337, R341). -/
def enqueue (s : State) (n : Inst) (dev : Bool) (sender : Nat) (ws : List Word) : State :=
  let h := ws.headD 0
  let m := ws.take (hdrLen h)
  modBox s n (fun b =>
    let b := if isBulk h then { b with bulkDev := !dev } else b
    if dev then
      let q := nextSeqOf b.outSeq sender
      { b with outq := b.outq ++ [stampHdr h sender q :: m.drop 1], outSeq := aput b.outSeq sender ((q + 1) % 256) }
    else
      let q := nextSeqOf b.inSeq sender
      { b with inq := b.inq ++ [stampHdr h sender q :: m.drop 1], inSeq := aput b.inSeq sender ((q + 1) % 256) })

/-- Send a message for a side: taken whole or refused with a code (R339). -/
def trySend (s : State) (n : Inst) (dev : Bool) (sender : Nat) (ws : List Word) : Nat × State :=
  let e := sendCheck s n dev ws
  if e = 0 then (0, enqueue s n dev sender ws) else (e, s)

/-- A mailbox transfer: a message that passes the checks of R339 draws a host-service billet for its moment; without one it is refused as
by a full queue (R212, R339).
Log entry 29 (DEDUCED). -/
def xferSend (s : State) (n : Inst) (dev : Bool) (sender : Nat) (ws : List Word) : Nat × State :=
  match sendCheck s n dev ws with
  | 0 =>
    (match draw .hs (if dev then .hearth else .inst n) none false (.msg n) s with
    | (none, s) => (1, s)
    | (some id, s) => (0, enqueue (retire s id) n dev sender ws))
  | e => (e, s)

/-- The responder takes SPDM heads while EN is 1; the hearth does not see them (R365). -/
def takenHead (s : State) (n : Inst) : Bool :=
  s.mb.attEn && (match (s.mb.box[n]).inq with | m :: _ => hdrType (m.headD 0) = 5 | [] => false)

/-- The head of the queue a side receives, as it sees it: the inbound queue for the device side. -/
def headFor (s : State) (n : Inst) (dev : Bool) : List Word :=
  if dev then (if takenHead s n then [] else (s.mb.box[n]).inq.headD []) else (s.mb.box[n]).outq.headD []

/-- Pop the inbound or the outbound queue; its acknowledgement count rises (R340, R342). -/
def popIn (s : State) (n : Inst) : State :=
  modBox s n (fun b => match b.inq with | [] => b | _ :: t => { b with inq := t, inAck := b.inAck + 1 })
def popOut (s : State) (n : Inst) : State :=
  modBox s n (fun b => match b.outq with | [] => b | _ :: t => { b with outq := t, outAck := b.outAck + 1, outPos := 0 })

/-- A bulk byte, and a write of bulk bytes by a side, which has an effect only where it owns the buffer, and from the client side only
while the instance takes messages (R229, R341).
Log entry 29 (DEDUCED). -/
def bulkByte (b : Box) (k : Nat) : Byte := memGet 0 b.bulk k
def bulkRead (b : Box) (o n : Nat) : List Byte := memRead 0 b.bulk o n
def bulkPut (s : State) (n : Inst) (o : Nat) (bs : List Byte) : State :=
  modBox s n (fun b => { b with bulk := memWrite 0 b.bulk o (bs.take (4096 - o)) })
def bulkWrite (s : State) (n : Inst) (dev : Bool) (o : Nat) (bs : List Byte) : State :=
  if (s.mb.box[n]).bulkDev = dev ∧ (dev ∨ (s.inst[n]).st = .active) then bulkPut s n o bs else s

/-- TRANSPORT of an instance served to an external master (Table 7.8). -/
def ownsInst (s : State) (m : Master) (n : Inst) : Bool :=
  match m with
  | .core _ => true
  | .ext x => (s.inst[n]).cfg.transport = x.val + 1

/-- Which copy of MB_TX and of the send result a requester uses: cores 0-3, then the client side. -/
def txCopy : Master → Fin 5
  | .core c => ⟨c.val, by omega⟩
  | .ext _ => 4

/-- A staged word. -/
def txWord (b : Box) (k : Fin 5) (i : Nat) : Word := (aget b.tx (16 * k.val + i)).getD 0
def txPut (b : Box) (k : Fin 5) (i : Nat) (w : Word) : Box :=
  { b with tx := if w = 0 then adel b.tx (16 * k.val + i) else aput b.tx (16 * k.val + i) w }

/-- MB_SEND.GO (R339, R347). -/
def mbSend (s : State) (m : Master) : State :=
  let n := (selOf s m).inst
  if !mayWrite s m 13 false ∨ !ownsInst s m n then s
  else
    let k := txCopy m
    let ws := (List.range 16).map (txWord (s.mb.box[n]) k)
    let (e, s) := xferSend s n (isCore m) (if isCore m then 0xFF else n.val) ws
    modBox s n (fun b => { b with res := b.res.set k (BitVec.ofNat 3 e) })

/-- MB_POP.POP (R340). -/
def mbPop (s : State) (m : Master) : State :=
  let n := (selOf s m).inst
  if !mayWrite s m 13 false ∨ !ownsInst s m n then s
  else if isCore m then (if takenHead s n then s else popIn s n)
  else popOut s n

/-- LOCK_READ (R345): a free lock is acquired. -/
def lockRead (s : State) (m : Master) (k : Fin 16) : State :=
  let n := (selOf s m).inst
  if !mayRead s m 13 ∨ !ownsInst s m n then s
  else if s.mb.locks[k] = none then { s with mb := { s.mb with locks := s.mb.locks.set k (some n) } } else s

/-- What a read of a lock returns (R345). -/
def lockValue (s : State) (n : Inst) (k : Fin 16) : Word :=
  match s.mb.locks[k] with
  | none => 0
  | some o => if o = n then 0 else BitVec.ofNat 32 (o.val + 1)

/-- LOCK_WRITE (R345): the owner plus 1 frees. -/
def lockWrite (s : State) (m : Master) (k : Fin 16) (v : Word) : State :=
  let n := (selOf s m).inst
  if mayWrite s m 13 false ∧ ownsInst s m n ∧ s.mb.locks[k] = some n ∧ v.toNat % 128 = n.val + 1 then
    { s with mb := { s.mb with locks := s.mb.locks.set k none } }
  else s

/-- Free the locks of an instance (R345). -/
def freeLocks (s : State) (n : Inst) : State :=
  { s with mb := { s.mb with locks := s.mb.locks.map (fun o => if o = some n then none else o) } }

/-- TALLY_SNAPSHOT_READ (R356). -/
def tallySnap (s : State) (m : Master) : State :=
  if mayRead s m 13 then
    modSel s m (fun x => { x with snapVal := (s.mb.tallies[x.tally]).1, snapCnt := (s.mb.tallies[x.tally]).2 })
  else s

/-- MB_TALLY_CTL.EXTEND by a core (R355). -/
def tallyExtend (s : State) (m : Master) : State :=
  match m with
  | .ext _ => s
  | .core c =>
    let t := (selOf s m).tally
    if s.mb.tallyLock.getLsbD t.val then { s with mb := { s.mb with tallyRej := setBit s.mb.tallyRej c.val } }
    else tallyRequest s t s.mb.tallyIn[c] .hearth (some c)

/-! I3C targets (R348-R350). -/

/-- Change a target port. -/
def modI3c (s : State) (p : Fin 4) (f : I3c → I3c) : State := { s with mb := { s.mb with i3c := s.mb.i3c.set p (f s.mb.i3c[p]) } }

/-- Change one portal's status. -/
def modPortal (s : State) (x : Fin 6) (f : Portal → Portal) : State :=
  { s with gc := { s.gc with portals := s.gc.portals.set x (f s.gc.portals[x]) } }

/-- A frame is discarded (R66). -/
def portalBad (s : State) (x : Fin 6) : State := modPortal s x (fun p => { p with frameErr := satAdd 255 p.frameErr 1 })

/-- Count a message discarded or dropped (R350). -/
def mctpDropped (s : State) : State := mbInt { s with mb := { s.mb with mctpDrop := satAdd 0xFFFF s.mb.mctpDrop 1 } } 0

/-- The instance of a port and a source EID (R350). -/
def mctpInst (s : State) (p : Fin 4) (eid : Byte) : Option Inst :=
  (List.finRange 64).find? (fun n => instLive s n && (s.inst[n]).cfg.transport = p.val + 3 && (s.inst[n]).addr = eid)

/-- Completion and data of an MCTP control command, as the base specification 1.3 lays them out (PRESUMED), and the EID after
it (R349).
Log entry 45 (PRESUMED, DEDUCED). -/
def mctpControl (eid : Byte) (cmd : Byte) (d : List Byte) : List Byte × Byte :=
  if cmd = 0x01 then
    let e := byteAt d 1
    if 1 < (byteAt d 0).toNat % 4 ∨ e = 0 ∨ e = 0xFF then ([2], eid) else ([0, 0, e, 0], e)
  else if cmd = 0x02 then ([0, eid, 0, 0], eid)
  else if cmd = 0x04 then
    (if byteAt d 0 = 0xFF ∨ byteAt d 0 = 0 then [0, 1, 0xF1, 0xF3, 0xF0, 0] else
      if byteAt d 0 = 5 then [0, 1, 0xF1, 0xF0, 0xF0, 0] else [0x80], eid)
  else if cmd = 0x05 then ([0, 1, 5], eid)
  else ([5], eid)

/-- Answer a control request in hardware, without an instance. -/
def mctpAnswer (s : State) (p : Fin 4) (pkt : List Byte) : State :=
  let x := s.mb.i3c[p]
  let (r, e) := mctpControl x.eid (byteAt pkt 6) (pkt.drop 7)
  let out := [1, byteAt pkt 2, x.eid, 0xC0 ||| (byteAt pkt 3 &&& 7), 0, byteAt pkt 5 &&& 0x1F, byteAt pkt 6] ++ r
  modI3c s p (fun x => { x with eid := e, ctl := x.ctl ++ [out], nacked := false })

/-- A packet of an SPDM message is put into the bulk buffer; EOM enqueues the message (R350). -/
def mctpAssemble (s : State) (n : Inst) (src flags : Byte) (body : List Byte) : State :=
  let som := flags.getLsbD 7
  let seq := flags.toNat / 16 % 4
  let tag := flags &&& 7
  let old := (s.mb.box[n]).asm
  let s := if som ∧ old.isSome then mctpDropped s else s
  let fit : Bool := som || (match old with | some a => a.eid = src && a.tag = tag && (a.seq + 1) % 4 = seq | none => false)
  if !fit then mctpDropped (modBox s n (fun b => { b with asm := none }))
  else
    let sofar := if som then [] else (match old with | some a => a.bytes | none => [])
    let data := if som then body.drop 1 else body
    let all := sofar ++ data
    if 4096 < all.length ∨ (flags.getLsbD 6 ∧ all = []) then mctpDropped (modBox s n (fun b => { b with asm := none }))
    else
      let s := bulkPut s n sofar.length data
      if flags.getLsbD 6 then
        let s := modBox s n (fun b => { b with asm := none, tag := tag })
        enqueue s n false n.val [0x00005002#32, BitVec.ofNat 32 all.length]
      else modBox s n (fun b => { b with asm := some { eid := src, tag := tag, seq := seq, bytes := all } })

/-- The bulk buffer is with the transport while an SPDM message waits outbound (R350). -/
def outSpdm (b : Box) : Bool := match b.outq with | m :: _ => hdrType (m.headD 0) = 5 | [] => false

/-- MCTP_PACKET_RX: header version, destination, source and flags, then up to 64 bytes (R349, R350). A DRAINING instance refuses it as by a
full queue, and so does one for which no host-service billet can be drawn (R212, R226). A port without a dynamic address is under I2C
fallback and carries portal frames only: a packet's first byte is then a frame error (R66, R348).
Log entries 29 (DEDUCED), 45 (PRESUMED, DEDUCED). -/
def mctpRx (s : State) (p : Fin 4) (pkt : List Byte) : State :=
  let src := byteAt pkt 2
  let flags := byteAt pkt 3
  let body := pkt.drop 4
  let dst := byteAt pkt 1
  let x := s.mb.i3c[p]
  if x.dynAddr.isNone then portalBad s ⟨p.val + 2, by omega⟩
  else if dst ≠ x.eid ∧ dst ≠ 0 then mctpDropped s
  else if flags.getLsbD 7 ∧ byteAt body 0 &&& 0x7F = 0 then mctpAnswer s p pkt
  else
    match mctpInst s p src with
    | none => mctpDropped s
    | some n =>
      let b := s.mb.box[n]
      let nack := fun (s : State) => modI3c s p (fun x => { x with nacked := true })
      if (s.inst[n]).st ≠ .active ∨ b.bulkDev ∨ outSpdm b ∨ qFree b.inq < 2 then nack s
      else if flags.getLsbD 7 ∧ byteAt body 0 ≠ 5 then mctpDropped (modBox s n (fun b => { b with asm := none }))
      else match draw .hs (.inst n) none false (.msg n) s with
        | (none, s) => nack s
        | (some id, s) => mctpAssemble (modI3c (retire s id) p (fun x => { x with nacked := false })) n src flags body

/-- The instance whose outbound SPDM message a port's controller reads next: one already begun, else the lowest. -/
def mctpNext (s : State) (p : Fin 4) : Option Inst :=
  let l := (List.finRange 64).filter (fun n => instLive s n && (s.inst[n]).cfg.transport = p.val + 3 && outSpdm s.mb.box[n])
  match l.find? (fun n => (s.mb.box[n]).outPos ≠ 0) with
  | some n => some n
  | none => l.head?

/-- MCTP_PACKET_READ: a waiting control response, else the next packet of an outbound message; after its last packet the bulk
buffer is the client side's and the message is popped (R349, R350).
Log entry 45 (PRESUMED, DEDUCED). -/
def mctpRead (s : State) (p : Fin 4) : State :=
  let x := s.mb.i3c[p]
  match x.ctl with
  | c :: t => modI3c s p (fun x => { x with ctl := t, out := c, nacked := false })
  | [] =>
    match mctpNext s p with
    | none => modI3c s p (fun x => { x with nacked := true })
    | some n =>
      let b := s.mb.box[n]
      let len := bf ((b.outq.headD []).getD 1 0) 0 13
      let msg := (5 : Byte) :: bulkRead b 0 len
      let pos := b.outPos
      let last : Bool := decide (msg.length ≤ pos + 64)
      let flags := BitVec.ofNat 8 (128 * b2n (pos = 0) + 64 * b2n last + 16 * (pos / 64 % 4)) ||| b.tag
      let pkt := [1, (s.inst[n]).addr, x.eid, flags] ++ slice msg pos 64
      let s := modI3c s p (fun x => { x with out := pkt, nacked := false })
      if last then modBox (popOut s n) n (fun b => { b with bulkDev := false })
      else modBox s n (fun b => { b with outPos := pos + 64 })

/-- Values a target reports that the specification does not give: identity, characteristics and length limits.
Log entry 45 (PRESUMED, DEDUCED). -/
def i3cFree (s : State) (p : Fin 4) (n : Nat) : State :=
  useFree (modI3c s p (fun x => { x with out := (List.range n).map (fun i => Config.freeByte (s.clk.free + i)), nacked := false })) n

/-- I3C_CCC (R348): the common command codes of I3C Basic, by their standard numbers (PRESUMED). Another directed code is
not acknowledged, another broadcast ignored.
Log entry 45 (PRESUMED, DEDUCED). -/
def i3cCcc (s : State) (p : Fin 4) (ccc : Byte) (directed : Bool) (data : List Byte) : State :=
  let set := fun (f : I3c → I3c) => modI3c s p (fun x => { f x with nacked := false })
  if !directed then
    if ccc = 0x00 then set (fun x => { x with ibi := x.ibi || (byteAt data 0).getLsbD 0 })
    else if ccc = 0x01 then set (fun x => { x with ibi := x.ibi && !(byteAt data 0).getLsbD 0 })
    else if ccc = 0x06 then set (fun x => { x with dynAddr := none })
    else if ccc = 0x07 then set (fun x => { x with dynAddr := some (x.dynAddr.getD ((byteAt data 0).setWidth 7)) })
    else s
  else if ccc = 0x80 then set (fun x => { x with ibi := x.ibi || (byteAt data 0).getLsbD 0 })
  else if ccc = 0x81 then set (fun x => { x with ibi := x.ibi && !(byteAt data 0).getLsbD 0 })
  else if ccc = 0x86 then set (fun x => { x with dynAddr := none })
  else if ccc = 0x87 then set (fun x => { x with dynAddr := some (x.dynAddr.getD ((byteAt data 0 >>> 1).setWidth 7)) })
  else if ccc = 0x8B then i3cFree s p 2
  else if ccc = 0x8C then i3cFree s p 2
  else if ccc = 0x8D then i3cFree s p 6
  else if ccc = 0x8E then i3cFree s p 1
  else if ccc = 0x8F then i3cFree s p 1
  else modI3c s p (fun x => { x with nacked := true })

/-- I3C_REPLY_READ: the waiting reply, or 0x5C for one that was late; otherwise the read is NACKed (R348). -/
def i3cReply (s : State) (p : Fin 4) : State :=
  modI3c s p (fun x => match x.reply with
    | some (bs, _) => { x with reply := none, fx := [], out := bs, nacked := false }
    | none => if x.late then { x with late := false, out := [0x5C], nacked := false } else { x with nacked := true })

/-- I3C_REPLY_TIMEOUT: the next read returns 0x5C, and the frame ends as under R65. -/
def i3cTimeout (s : State) (p : Fin 4) : State :=
  match (s.mb.i3c[p]).reply with
  | some (_, t) =>
    modPortal (modI3c (reachTime s (t + msCyc 1)) p (fun x => { x with reply := none, fx := [], late := true }))
      ⟨p.val + 2, by omega⟩ (fun k => { k with busyTmo := true })
  | none => s

/-- IBI: an in-band interrupt is raised while an outbound packet waits and interrupts are enabled (R349). -/
def i3cIbi (s : State) (p : Fin 4) : Bool := (s.mb.i3c[p]).ibi && (!(s.mb.i3c[p]).ctl.isEmpty || (mctpNext s p).isSome)

/-- A squash or removal empties an instance's mailbox (R227, R337, R341). -/
def boxClear (s : State) (n : Inst) : State :=
  let s := freeLocks (modBox s n (fun _ => {})) n
  { s with mb := { s.mb with big := s.mb.big.map (fun o => match o with | some b => if b.n = n then none else some b | none => none) } }

end Sys2Proof.Machine
end

