-- ==== Sys2Proof/Machine/Spdm.lean ====
section
/-! DEFINITION. The attestation responder: SPDM 1.2 requests of Table 12.6, signed responses and large responses (R365-R367).
Message layouts, code points and signing contexts are those of SPDM 1.2 (PRESUMED where the specification only names it). -/

namespace Sys2Proof.Machine

/-- An SPDM ERROR message. -/
def spdmError (code data : Byte) : List Byte := [0x12, 0x7F, code, data]

/-- Free the large-response store of an instance (R367). -/
def bigFree (s : State) (n : Inst) : State :=
  { s with mb := { s.mb with big := s.mb.big.map (fun o => match o with | some b => if b.n = n then none else some b | none => none) } }

/-- Put a response of at most 4,096 bytes into the bulk buffer and send it. -/
def spdmSend (s : State) (n : Inst) (r : List Byte) : State :=
  (trySend (bulkPut s n 0 r) n true 0xFF [0x00005002#32, BitVec.ofNat 32 r.length]).2

/-- ERROR Busy (R365, R367). -/
def spdmBusy (s : State) (n : Inst) : State := mbInt (spdmSend s n (spdmError 3 0)) 3

/-- Respond: over 4,096 bytes the response is held in a store and ERROR LargeResponse names it (R367). -/
def spdmRespond (s : State) (n : Inst) (r : List Byte) : State :=
  if r.length ≤ 4096 then spdmSend s n r
  else match (List.finRange 4).find? (fun i => (s.mb.big[i]).isNone) with
    | none => spdmBusy s n
    | some i =>
      let h := s.mb.handle % 255 + 1
      let s := { s with mb := { s.mb with
        handle := h, big := s.mb.big.set i (some { n := n, handle := h, bytes := r, nextSeq := 0, sent := 0 }) } }
      spdmSend s n (spdmError 0x0F 0 ++ [BitVec.ofNat 8 h])

/-- The request at the head of an instance's inbound queue, where the responder takes it and has room to answer (R365). -/
def spdmHead (s : State) (n : Inst) : Option (List Byte) :=
  let b := s.mb.box[n]
  if takenHead s n ∧ (s.inst[n]).st = .active ∧ b.work.isNone ∧ 2 ≤ qFree b.outq then
    some (bulkRead b 0 (bf ((b.inq.headD []).getD 1 0) 0 13))
  else none

/-- Codes of the supported requests. -/
def spdmCodes : List Nat := [0x84, 0xE1, 0xE3, 0x81, 0x82, 0x83, 0xE0, 0x85]

/-- Serve a request of the code given: it is taken, its unit of work draws a verification billet for the instance, and the
answer follows at once or, where `f` gives none, when the signature completes (R365). -/
def spdmServe (s : State) (n : Inst) (isCode : Nat → Bool) (f : State → Nat → List Byte → Option (List Byte) × State) : State :=
  match spdmHead s n with
  | none => s
  | some req =>
    let code := be8 req 1
    if !isCode code then s
    else
      let s := popIn s n
      let s := if code = 0x85 then s else bigFree s n
      let s := if code = 0xE0 ∨ code = 0x85 then s else modBox s n (fun b => { b with msgL := [] })
      if byteAt req 0 ≠ (if code = 0x84 then 0x10 else 0x12) then spdmSend s n (spdmError 0x41 0)
      else match draw .ver (.inst n) none false (.sign n.val) s with
        | (none, s) => spdmBusy s n
        | (some id, s) =>
          match f s id req with
          | (some r, s) => spdmRespond (retire s id) n r
          | (none, s) => s

/-- A request that needs the connection in a given state; else UnexpectedRequest (R366). -/
def spdmIn (s : State) (n : Inst) (st : SpdmSt) (r : Option (List Byte) × State) : Option (List Byte) × State :=
  if (s.mb.box[n]).spdm = st then r else (some (spdmError 4 0), s)

/-- GET_VERSION (R366). -/
def spdmVersion (s : State) (n : Inst) : State :=
  spdmServe s n (· = 0x84) (fun s _ req =>
    let r : List Byte := [0x10, 0x04, 0, 0, 0, 1, 0, 0x12]
    (some r, modBox s n (fun b => { b with spdm := .version, vca := req ++ r, msgB := [], msgL := [] })))

/-- CAPABILITIES: CERT, CHAL, MEAS with signature, CHUNK; CTExponent 14; sizes 4,096 and 8,192 (Table 12.6). -/
def spdmCaps (s : State) (n : Inst) : State :=
  spdmServe s n (· = 0xE1) (fun s _ req =>
    let r : List Byte := [0x12, 0x61, 0, 0, 0, 14, 0, 0] ++ leBytes 4 0x20016 ++ leBytes 4 4096 ++ leBytes 4 8192
    spdmIn s n .version (some r, modBox s n (fun b => { b with spdm := .caps, vca := b.vca ++ req ++ r })))

/-- ALGORITHMS: DMTF, SHA-256, no BaseAsym, one ExtAsym entry (Table 12.6). -/
def spdmAlgs (s : State) (n : Inst) : State :=
  spdmServe s n (· = 0xE3) (fun s _ req =>
    let r : List Byte := [0x12, 0x63, 0, 0] ++ leBytes 2 40 ++ [1, 0] ++ leBytes 4 2 ++ leBytes 4 0 ++ leBytes 4 1 ++
      fillBytes 12 0 ++ [1, 0, 0, 0] ++ wordBytes s.mb.extAsym
    spdmIn s n .caps (some r, modBox s n (fun b => { b with spdm := .algs, vca := b.vca ++ req ++ r })))

/-- The certificate chain at MB_CHAIN_ADDR, where CHAIN_OK says it is in place (R364). -/
def chainBytes (s : State) : Option (List Byte) :=
  if s.mb.chainOk then some (ramRead s s.mb.chainAddr.toNat s.mb.chainLen.toNat) else none

/-- Add to the transcript that CHALLENGE signs. -/
def addB (s : State) (n : Inst) (m : List Byte) : State := modBox s n (fun b => { b with msgB := b.msgB ++ m })

/-- DIGESTS: slot 0 where the chain is in place. -/
def spdmDigests (s : State) (n : Inst) : State :=
  spdmServe s n (· = 0x81) (fun s _ req =>
    let r : List Byte := match chainBytes s with
      | some c => [0x12, 0x01, 0, 1] ++ digBytes (sha256 c)
      | none => [0x12, 0x01, 0, 0]
    spdmIn s n .algs (some r, addB s n (req ++ r)))

/-- CERTIFICATE: a portion of slot 0's chain, no longer than MaxSPDMmsgSize allows (R364). -/
def spdmCert (s : State) (n : Inst) : State :=
  spdmServe s n (· = 0x82) (fun s _ req =>
    let ofs := leNat (slice req 4 2)
    let len := leNat (slice req 6 2)
    spdmIn s n .algs (match chainBytes s with
      | some c =>
        if req.length < 8 ∨ be8 req 2 ≠ 0 ∨ c.length ≤ ofs then (some (spdmError 1 0), s)
        else
          let m := min len (min (c.length - ofs) 8184)
          let r := [0x12, 0x02, 0, 0] ++ leBytes 2 m ++ leBytes 2 (c.length - ofs - m) ++ slice c ofs m
          (some r, addB s n (req ++ r))
      | none => (some (spdmError 1 0), s)))

/-- The measurement block of index 1-64 (Table 12.6). -/
def measBlock (s : State) (i : Fin 64) : List Byte :=
  [BitVec.ofNat 8 (i.val + 1), 1] ++ leBytes 2 35 ++ [if s.st.hdr.structTally = i then 3 else 1] ++ leBytes 2 32 ++
    digBytes (s.mb.tallies[i]).1

/-- Every block, in order. -/
def measAll (s : State) : List Byte := (List.finRange 64).flatMap (measBlock s)

/-- What SPDM 1.2 signs: the version prefix four times, zeros, the context, and the transcript's hash. -/
def spdmSigned (ctx : String) (transcript : List Byte) : List Byte :=
  let c := ascii ctx
  (List.replicate 4 (ascii "dmtf-spdm-v1.2.*")).flatten ++ fillBytes (36 - c.length) 0 ++ c ++ digBytes (sha256 transcript)

/-- Sign a response with the current alias key: refused without SIGN in the pool class, not ready while SIGN would end with
BUSY (R366). The answer is sent when the signature completes. -/
def spdmSign (s : State) (n : Inst) (id : Nat) (code : Byte) (ctx : String) (transcript resp : List Byte) :
    Option (List Byte) × State :=
  if !maySign s (BitVec.ofNat 8 n.val) then (some (spdmError 7 code), s)
  else if !(s.mb.lms[1]).valid ∨ lmsBusy s 1 then (some (spdmError 0x42 0 ++ [20, code, 0, 1]), s)
  else
    let (sig, s) := signWith s 1 (spdmSigned ctx (transcript ++ resp))
    (none, hashEnq (modBox s n (fun b => { b with work := some { billet := some id, resp := resp ++ sig } })) 2 id
      (signCost (100 + 32)) (.inst n))

/-- CHALLENGE, with summary hash none or all (Table 12.6). -/
def spdmChallenge (s : State) (n : Inst) : State :=
  spdmServe s n (· = 0x83) (fun s id req =>
    spdmIn s n .algs (match chainBytes s, entropyBytes s 32 with
      | some c, (some nonce, s') =>
        if req.length < 36 ∨ be8 req 2 ≠ 0 ∨ (be8 req 3 ≠ 0 ∧ be8 req 3 ≠ 0xFF) then (some (spdmError 1 0), s)
        else
          let r := [0x12, 0x03, 0, 1] ++ digBytes (sha256 c) ++ nonce ++
            (if be8 req 3 = 0xFF then digBytes (sha256 (measAll s)) else []) ++ [0, 0]
          let b := s.mb.box[n]
          match spdmSign s' n id 0x83 "responder-challenge_auth signing" (b.vca ++ b.msgB ++ req) r with
          | (none, s) => (none, modBox s n (fun b => { b with msgB := [] }))
          | (some e, _) => (some e, s)
      | none, _ => (some (spdmError 1 0), s)
      | _, (none, _) => (some (spdmError 5 0), s)))

/-- GET_MEASUREMENTS: the 64 tallies as they stand in this cycle, signed where asked (R356, Table 12.6). -/
def spdmMeas (s : State) (n : Inst) : State :=
  spdmServe s n (· = 0xE0) (fun s id req =>
    let i := be8 req 3
    let sign := be8 req 2 % 2 = 1
    spdmIn s n .algs (match entropyBytes s 32 with
      | (none, _) => (some (spdmError 5 0), s)
      | (some nonce, s') =>
        if (64 < i ∧ i ≠ 0xFF) ∨ (sign ∧ (req.length < 37 ∨ be8 req 36 % 16 ≠ 0)) ∨ req.length < 4 then (some (spdmError 1 0), s)
        else
          let blocks := if h : 0 < i ∧ i ≤ 64 then measBlock s ⟨i - 1, by omega⟩ else if i = 0xFF then measAll s else []
          let cnt := if i = 0 then 0 else if i = 0xFF then 64 else 1
          let r := [0x12, 0x60, if i = 0 then 64 else 0, 0, BitVec.ofNat 8 cnt] ++ leBytes 3 blocks.length ++ blocks ++ nonce ++ [0, 0]
          let b := s.mb.box[n]
          if sign then
            match spdmSign s' n id 0xE0 "responder-measurements signing" (b.vca ++ b.msgL ++ req) r with
            | (none, s) => (none, modBox s n (fun b => { b with msgL := [] }))
            | (some e, _) => (some e, s)
          else (some r, modBox s' n (fun b => { b with msgL := b.msgL ++ req ++ r }))))

/-- CHUNK_GET: the next chunk of the instance's store, in order; the store is freed with its last chunk (R367). -/
def spdmChunk (s : State) (n : Inst) : State :=
  spdmServe s n (· = 0x85) (fun s _ req =>
    match (List.finRange 4).find? (fun i => match s.mb.big[i] with | some b => b.n = n | none => false) with
    | none => (some (spdmError 1 0), s)
    | some i =>
      match s.mb.big[i] with
      | none => (some (spdmError 1 0), s)
      | some b =>
        let q := leNat (slice req 4 2)
        if be8 req 3 ≠ b.handle ∨ q ≠ b.nextSeq then (some (spdmError 1 0), s)
        else
          let m := min (b.bytes.length - b.sent) (if q = 0 then 4080 else 4084)
          let last : Bool := decide (b.bytes.length ≤ b.sent + m)
          let r := [0x12, 0x05, BitVec.ofNat 8 (b2n last), BitVec.ofNat 8 b.handle] ++ leBytes 2 q ++ [0, 0] ++ leBytes 4 m ++
            (if q = 0 then leBytes 4 b.bytes.length else []) ++ slice b.bytes b.sent m
          let nb := if last then none else some { b with nextSeq := q + 1, sent := b.sent + m }
          (some r, { s with mb := { s.mb with big := s.mb.big.set i nb } }))

/-- Every other request (Table 12.6). -/
def spdmOther (s : State) (n : Inst) : State :=
  spdmServe s n (fun c => !spdmCodes.contains c) (fun s _ req => (some (spdmError 7 (byteAt req 1)), s))

/-- SPDM_RESPONSE_READY: the signature completes, once its job has an engine; a key revoked meanwhile leaves ERROR Unspecified
(R116, R368). -/
def spdmReady (s : State) (n : Inst) : State :=
  match (s.mb.box[n]).work with
  | none => s
  | some w =>
    let done := match w.billet with | some id => unitDone id 12 s | none => some s
    match if qFree (s.mb.box[n]).outq < 2 then none else done with
    | none => s
    | some s =>
      let s := modBox s n (fun b => { b with work := none })
      let s := match w.billet with | some id => retire s id | none => s
      if (s.mb.lms[1]).valid then spdmRespond s n w.resp else spdmSend s n (spdmError 5 0)

end Sys2Proof.Machine
end

