-- ==== Sys2Proof/Machine/Topology.lean ====
section
/-! DEFINITION. The fabric's topology: the database, the coordinator, levels, routes and the spanning tree, as functions of the
database alone (R377-R379). -/

namespace Sys2Proof.Machine

/-- Codes of FB_FLUE.STATE. -/
def flueCode : FlueSt → Nat
  | .down => 0
  | .training => 1
  | .up => 2
  | .neighbour => 3
  | .isolated => 4
  | .failed => 5
  | .off => 7

/-- A flue in serve mode counts as DOWN in the topology (R422). -/
def flueShown (s : State) (f : Flue) : Nat :=
  if s.fb.serve.getLsbD f.val then 0 else flueCode (s.fb.flue[f]).st

/-- This node's own flue entries. -/
def ownFlues (s : State) : List (Nat × Nat × BitVec 64) :=
  (List.finRange 4).map (fun f =>
    let x := s.fb.flue[f]
    (flueShown s f, if x.neighValid then x.neigh.toNat else 0xFF, x.serial))

/-- This node's entry. -/
def ownEntry (s : State) : TopoEnt :=
  { serial := serialNum s, node := s.fb.node, pri := s.fb.cfg.coordPri, version := s.fb.version, rseq := s.tp.ao.rseq
    flues := ownFlues s, at_ := s.clk.now }

/-- The SERIALs an entry's NEIGHBOUR flues name. -/
def entryNbrs (e : TopoEnt) : List (Nat × BitVec 64) :=
  (List.range 4).filterMap (fun i => match e.flues[i]? with
    | some (st, _, ser) => if st = 3 then some (i, ser) else none
    | none => none)

/-- Entries with a link from one to the other, recorded by both. -/
def linked (l : List TopoEnt) (a b : BitVec 64) : Bool :=
  let has := fun (x y : BitVec 64) => l.any (fun e => e.serial = x && (entryNbrs e).any (fun n => n.2 = y))
  has a b && has b a

/-- SERIALs reachable in `n` hops. -/
def reachSet (l : List TopoEnt) : Nat → List (BitVec 64) → List (BitVec 64)
  | 0, r => r
  | n + 1, r => reachSet l n (r ++ ((l.map (·.serial)).filter (fun b => !r.contains b && r.any (fun a => linked l a b))))

/-- The database with this node in it, unreachable entries left out (R377). -/
def liveEntries (s : State) : List TopoEnt :=
  let l := ownEntry s :: s.fb.topo.filter (fun e => e.serial ≠ serialNum s)
  let r := reachSet l l.length [serialNum s]
  l.filter (fun e => r.contains e.serial)

/-- The candidate of lowest COORD_PRI, ties to the lowest SERIAL (R378). -/
def coordOf (l : List TopoEnt) : Option TopoEnt :=
  (l.filter (fun e => e.pri ≠ 0 && e.node.isSome)).foldl (fun b e => match b with
    | none => some e
    | some c => if e.pri < c.pri ∨ (e.pri = c.pri ∧ e.serial.toNat < c.serial.toNat) then some e else b) none

/-- Links between nodes that have IDs: (node, flue, node). -/
def links (l : List TopoEnt) : List (Nat × Nat × Nat) :=
  l.flatMap (fun e => match e.node with
    | none => []
    | some a => (entryNbrs e).filterMap (fun n =>
        match l.find? (fun x => x.serial = n.2) with
        | some x => match x.node with
          | some b => if linked l e.serial x.serial then some (a.val, n.1, b.val) else none
          | none => none
        | none => none))

/-- Hop distances from a node, as far as `n` hops. -/
def bfs (ls : List (Nat × Nat × Nat)) : Nat → Nat → List (Nat × Nat) → List (Nat × Nat)
  | 0, _, d => d
  | n + 1, k, d =>
    let new := ((ls.filter (fun x => (aget d x.1) = some k && (aget d x.2.2).isNone)).map (·.2.2)).eraseDups
    bfs ls n (k + 1) (new.foldl (fun d b => aput d b (k + 1)) d)
def distFrom (ls : List (Nat × Nat × Nat)) (a : Nat) : List (Nat × Nat) := bfs ls 32 0 [(a, 0)]

/-- Taking a link goes up (R379). -/
def goesUp (lv : List (Nat × Nat)) (a b : Nat) : Bool :=
  match aget lv a, aget lv b with
  | some x, some y => decide (y < x) || (decide (x = y) && decide (b < a))
  | _, _ => false

/-- The least value of a list. -/
def least (l : List Nat) : Option Nat := l.foldl (fun b x => match b with | none => some x | some y => some (min x y)) none

/-- Down-only distances to `d`, and legal distances to it given those, by `n` rounds (R379). -/
def downDist (ls : List (Nat × Nat × Nat)) (lv : List (Nat × Nat)) : Nat → List (Nat × Nat) → List (Nat × Nat)
  | 0, t => t
  | n + 1, t =>
    downDist ls lv n (ls.foldl (fun u x =>
      match aget t x.2.2 with
      | some k => if goesUp lv x.1 x.2.2 then u else (match aget u x.1 with | some o => if k + 1 < o then aput u x.1 (k + 1) else u | none => aput u x.1 (k + 1))
      | none => u) t)
def legalDist (ls : List (Nat × Nat × Nat)) (lv : List (Nat × Nat)) : Nat → List (Nat × Nat) → List (Nat × Nat)
  | 0, t => t
  | n + 1, t =>
    legalDist ls lv n (ls.foldl (fun u x =>
      match aget t x.2.2 with
      | some k => if goesUp lv x.1 x.2.2 then (match aget u x.1 with | some o => if k + 1 < o then aput u x.1 (k + 1) else u | none => aput u x.1 (k + 1)) else u
      | none => u) t)

/-- The lowest flue of `n`'s links that gives the least cost, with that cost. -/
def bestHop (cands : List (Nat × Nat)) : Option (Nat × Nat) :=
  cands.foldl (fun b c => match b with
    | none => some c
    | some x => if c.2 < x.2 ∨ (c.2 = x.2 ∧ c.1 < x.1) then some c else b) none

/-- A flue number as a flue. -/
def flueOf (n : Nat) : Flue := ⟨n % 4, Nat.mod_lt _ (by decide)⟩

/-- The route of node `n` to node `d` (R379). -/
def routeTo (ls : List (Nat × Nat × Nat)) (lv : List (Nat × Nat)) (n d : Nat) : Route :=
  if n = d ∨ (aget lv d).isNone then {}
  else
    let dn := downDist ls lv 32 [(d, 0)]
    let lg := legalDist ls lv 32 dn
    let mine := ls.filter (fun x => x.1 = n)
    let up := bestHop (mine.filterMap (fun x =>
      ((if goesUp lv n x.2.2 then aget lg x.2.2 else aget dn x.2.2)).map (fun k => (x.2.1, k + 1))))
    let down := bestHop (mine.filterMap (fun x => if goesUp lv n x.2.2 then none else (aget dn x.2.2).map (fun k => (x.2.1, k + 1))))
    { up := up.map (fun x => flueOf x.1), dn := down.map (fun x => flueOf x.1), dist := (up.map (·.2)).getD 0 }

/-- The tree parent of a node: the up neighbour one level higher with the lowest ID (R379). -/
def parentOf (ls : List (Nat × Nat × Nat)) (lv : List (Nat × Nat)) (n : Nat) : Option Nat :=
  match aget lv n with
  | some (k + 1) => least ((ls.filter (fun x => x.1 = n && aget lv x.2.2 = some k)).map (·.2.2))
  | _ => none

/-- The lowest flue from `n` to `b`. -/
def flueTo (ls : List (Nat × Nat × Nat)) (n b : Nat) : Option Nat :=
  least ((ls.filter (fun x => x.1 = n && x.2.2 = b)).map (·.2.1))

/-- The tree children of a node with the flue to each. -/
def childrenOf (ls : List (Nat × Nat × Nat)) (lv : List (Nat × Nat)) (n : Nat) : List (Flue × Nat) :=
  ((ls.filter (fun x => x.1 = n && parentOf ls lv x.2.2 = some n)).map (·.2.2)).eraseDups.filterMap
    (fun b => (flueTo ls n b).map (fun f => (flueOf f, b)))

/-- D: the greatest hop distance between nodes of the topology. -/
def diameter (ls : List (Nat × Nat × Nat)) (nodes : List Nat) : Nat :=
  nodes.foldl (fun m a => (distFrom ls a).foldl (fun m x => max m x.2) m) 0

end Sys2Proof.Machine
end

