-- ==== Sys2Proof/Machine/Fabric.lean ====
section
/-! DEFINITION. The fabric (chapter 13): flue states, discovery, the topology's settling, forwarding, and the relay ring of
chapter 14. -/

namespace Sys2Proof.Machine

/-- Flues of this node. -/
def allFlue : List Flue := List.finRange 4

/-- Change a flue. -/
def modFlue (s : State) (f : Flue) (g : FlueRt → FlueRt) : State := modLink s (flueLink f) g

/-- Change the snapshot. -/
def modSnap (s : State) (g : Snap → Snap) : State := { s with fb := { s.fb with snap := g s.fb.snap } }

/-- The flue is in serve mode (R422). -/
def serving (s : State) (f : Flue) : Bool := s.fb.serve.getLsbD f.val

/-- A flue that carries the fabric's frames. -/
def isNeighbour (s : State) (f : Flue) : Bool := (s.fb.flue[f]).st = .neighbour && !serving s f

/-- SRC of this node's frames, and the node byte of HELLO and TOPO. -/
def ownSrc (s : State) : Byte := match s.fb.node with | some n => BitVec.ofNat 8 n.val | none => 0xFF

/-- A frame of this node before its LSEQ (Table 13.1). -/
def mkFrame (s : State) (typ : Byte) (vc : Nat) (dst : Byte) (arg : Word) (payload : List Byte) : FabFrame :=
  { typ := typ, flags := BitVec.ofNat 8 vc, lseq := 0, hops := 32, dst := dst, src := ownSrc s, pseq := 0, eseq := 0
    arg := arg, payload := payload }

/-- Count a frame dropped in transit, or as malformed (R374). -/
def dropTransit (s : State) : State := { s with fb := { s.fb with dropTransit := satAdd 0xFFFF s.fb.dropTransit 1 } }
def dropBad (s : State) : State := { s with fb := { s.fb with dropBad := satAdd 0xFFFF s.fb.dropBad 1 } }

/-- Send on every NEIGHBOUR flue but one. -/
def floodBut (s : State) (but : Option Flue) (fr : FabFrame) : State :=
  (allFlue.filter (fun f => isNeighbour s f && but ≠ some f)).foldl (fun s f => sendOn s (flueLink f) fr) s

/-- Forward a flood frame, HOPS lowered (R374, R377); an ISOLATED node forwards nothing (R378). -/
def floodOn (s : State) (f : Flue) (fr : FabFrame) : State :=
  if s.fb.st = .isolated then s
  else if fr.hops ≤ 1 then dropTransit s
  else floodBut s (some f) { fr with hops := fr.hops - 1 }

/-- Payload of TOPO (Table 13.2). -/
def topoBytes (e : TopoEnt) : List Byte :=
  beBytes 8 e.serial.toNat ++ [(match e.node with | some n => BitVec.ofNat 8 n.val | none => 0xFF), BitVec.ofNat 8 e.pri] ++
  beBytes 2 e.version ++ wordBytes e.rseq ++
  e.flues.flatMap (fun x => [BitVec.ofNat 8 x.1, BitVec.ofNat 8 x.2.1, 0, 0] ++ beBytes 8 x.2.2.toNat)

/-- The entry a TOPO payload gives. -/
def topoParse (p : List Byte) (now : Nat) : TopoEnt :=
  { serial := BitVec.ofNat 64 (be64 p 0)
    node := if h : be8 p 8 < 32 then some ⟨be8 p 8, h⟩ else none
    pri := be8 p 9, version := be16 p 10, rseq := wordBE p 12
    flues := (List.range 4).map (fun i => (be8 p (16 + 12 * i), be8 p (17 + 12 * i), BitVec.ofNat 64 (be64 p (20 + 12 * i))))
    at_ := now }

/-- Flood this node's TOPO frame with a new VERSION (R377). -/
def sendTopo (s : State) : State :=
  let s := { s with fb := { s.fb with version := (s.fb.version + 1) % 65536 } }
  floodBut s none (mkFrame s 0x02 2 0xFF 0 (topoBytes (ownEntry s)))

/-- A barrier in progress ends with ABORTED; the coordinator owes the aborted RELEASE (Table 13.7).
Log entry 50 (DEDUCED, DESIGN CHOICE). -/
def abortBarrier (s : State) : State :=
  if s.fb.arrived ∨ s.fb.childArr ≠ [] then
    fbInt { s with fb := { s.fb with
      barAborted := true, arrived := false, sentUp := false, childArr := [], barWait := false
      barAbortOwed := s.fb.barAbortOwed || s.fb.coord } } 3
  else s

/-- A snapshot in progress becomes ABORTED and its record is discarded (Table 13.7).
Log entry 51 (DEDUCED). -/
def abortSnap (s : State) : State :=
  let x := s.fb.snap
  if x.st = .recording ∨ x.st = .signing ∨ x.st = .collecting then
    let s := match x.billet with | some id => hashDrop (retire s id) id | none => s
    fbInt (modSnap s (fun x => { x with st := .aborted, sig := none, billet := none, quoting := false, parts := [] })) 4
  else s

/-- The node learns of a change of the topology: unreachable entries go, the settle count restarts, and a RUNNING node is
SETTLING in that cycle (R377, R380).
Log entry 48 (DEDUCED). -/
def topoLearn (s : State) : State :=
  if s.fb.st = .off then s
  else
    let live := (liveEntries s).filter (fun e => e.serial ≠ serialNum s)
    let s := { s with fb := { s.fb with
      topo := live, changedAt := s.clk.now
      st := match s.fb.st with | .running => .settling | .discovering => .settling | x => x } }
    abortSnap (abortBarrier s)

/-- This node's own entry changes: a TOPO frame with a new VERSION is flooded (R377). -/
def topoOwn (s : State) : State := if s.fb.st = .off then s else sendTopo (topoLearn s)

/-- A flue enters a state: FLUE_CHG is set and the topology changes. -/
def flueEnter (s : State) (f : Flue) (st : FlueSt) : State :=
  if (s.fb.flue[f]).st = st then s
  else topoOwn (fbInt (modFlue s f (fun x => { x with st := st, since := s.clk.now })) 0)

/-- The pair link goes down or comes up: a banked unit IN_STEP is SYNCING, and starts again from the STATE records (R443). -/
def pairLinkDown (s : State) : State :=
  if s.pr.role = 2 then
    { s with pr := { s.pr with step := if s.pr.step = 2 then 1 else s.pr.step, stateDone := false, caughtUp := false } }
  else s

/-- A link enters a state; a link that goes down forgets its neighbour. -/
def linkEnter (s : State) (l : Link) (st : FlueSt) : State :=
  let gone : Bool := st = .down || st = .failed
  let s := if gone then modLink s l (fun x => { x with replay := [], waiting := [], neighValid := false }) else s
  if h : l.val < 4 then flueEnter s ⟨l.val, h⟩ st
  else
    let s := modLink s l (fun x => { x with st := st, since := s.clk.now })
    if gone then pairLinkDown s else s

/-- FLUE_SYMBOL_LOCK (R370): a DOWN link that is not waiting enters TRAINING. -/
def symbolLock (s : State) (l : Link) : State :=
  let x := linkOf s l
  if x.st = .down ∧ !x.retry then linkEnter s l .training else s

/-- FLUE_TRAINED (R370). -/
def trained (s : State) (l : Link) (swap : Bool) (pol : BitVec 2) : State :=
  if (linkOf s l).st = .training then
    linkEnter (modLink s l (fun x => { freshLink x with laneSwap := swap, pol := pol })) l .up
  else s

/-- TRAINING_TIMEOUT: after 5 ms the link is DOWN and waits (R370). -/
def trainTimeout (s : State) (l : Link) : State :=
  let x := linkOf s l
  if x.st = .training then
    let s := reachTime s (x.since + msCyc 5)
    modLink (linkEnter s l .down) l (fun x => { x with retry := true })
  else s

/-- FLUE_RETRY: 100 ms after a timeout, or 1 ms after FAILED (R370). -/
def linkRetry (s : State) (l : Link) : State :=
  let x := linkOf s l
  if x.st = .down ∧ x.retry then modLink (reachTime s (x.since + msCyc 100)) l (fun x => { x with retry := false })
  else if x.st = .failed then linkEnter (reachTime s (x.since + msCyc 1)) l .down
  else s

/-- SYMBOL_LOCK_LOSS: the link goes down (R370). -/
def lockLoss (s : State) (l : Link) : State :=
  let x := linkOf s l
  if x.st = .training ∨ linkUp x then modLink (linkEnter s l .down) l (fun x => { x with retry := false }) else s

/-- One replay from the first unacknowledged frame; the eighth in a row without an advance puts the link in FAILED, and its
replay buffer is discarded (R371). -/
def replayLink (s : State) (l : Link) : State :=
  let x := linkOf s l
  if x.replay = [] then s
  else
    let s := modLink s l (fun x => { x with replays := x.replays + 1, replayAt := s.clk.now, errReplay := satInc x.errReplay })
    if 8 ≤ x.replays + 1 then
      linkEnter (modLink s l (fun x => { x with replays := 0, errFail := satInc x.errFail })) l .failed
    else s

/-- LINK_RX: the acknowledgement, the credits, and on NAK a replay (R371, Table 13.2).
Log entry 47 (DEDUCED, DESIGN CHOICE). -/
def linkRx (s : State) (l : Link) (arg : Word) : State :=
  let x := linkOf s l
  if !linkUp x then s
  else if bf arg 16 7 ≠ 0 then dropBad s
  else
    let ack := BitVec.ofNat 8 (bf arg 24 8)
    let hit := x.replay.any (fun fr => fr.lseq = ack)
    let rest := if hit then (x.replay.dropWhile (fun fr => fr.lseq ≠ ack)).drop 1 else x.replay
    let give := fun (i : Fin 4) => bf arg (12 - 4 * i.val) 4
    let s := modLink s l (fun x => { x with
      replay := rest
      replays := if hit then 0 else x.replays
      replayAt := if hit then s.clk.now else x.replayAt
      credits := Vector.ofFn (fun i => min 8 (x.credits[i] + give i)) })
    let s := if arg.getLsbD 23 then replayLink s l else s
    pumpLink s l

/-- REPLAY_TIMEOUT: a frame not acknowledged within 100 us (R371). -/
def replayTimeout (s : State) (l : Link) : State :=
  let x := linkOf s l
  if linkUp x ∧ x.replay ≠ [] then replayLink (reachTime s (x.replayAt + usCyc 100)) l else s

/-- BAD_FRAME_RX: an error on the link is counted and answered with NAK; a malformed frame is taken from the link and counted
as dropped (R371, R374). -/
def badFrame (s : State) (l : Link) (k : BadFrame) : State :=
  if !linkUp (linkOf s l) then s
  else match k with
    | .crc => modLink s l (fun x => { x with errCrc := satInc x.errCrc, nakOwed := true })
    | .malformed =>
      let s := modLink s l (fun x => { x with rxSeq := x.rxSeq + 1, ackOwed := true })
      if l.val < 4 then dropBad s else s

/-! Frames received. -/

/-- Header of a frame as it crosses the wire (Table 13.1). -/
def frameHeader (fr : FabFrame) : List Byte :=
  [fr.typ, fr.flags, fr.lseq, fr.hops, fr.dst, fr.src] ++ beBytes 2 fr.payload.length ++ beBytes 2 fr.pseq.toNat ++
  beBytes 2 fr.eseq.toNat ++ wordBytes fr.arg

/-- VC, DST, LEN and reserved bits of a type, as Table 13.2 states them. -/
def frameShape (fr : FabFrame) : Bool :=
  let vc := (vcOf fr).val
  let n := fr.payload.length
  let node := fr.dst.toNat < 32
  let is := fun (v d len : Nat) => vc = v && fr.dst.toNat = d && n = len
  if fr.typ = 0x01 then is 2 0xFE 16
  else if fr.typ = 0x02 then is 2 0xFF 64
  else if fr.typ = 0x03 then is 2 0xFF 12
  else if fr.typ = 0x04 then vc = 2 && node && n = 0 && bf fr.arg 16 12 = 0
  else if fr.typ = 0x10 then node && 4 ≤ n && n ≤ 64 && vc = b2n (hdrType (wordBE fr.payload 0) = 2)
  else if fr.typ = 0x11 then node && 4 ≤ n && n ≤ 256 && vc ≤ 1 && bf fr.arg 12 20 = 0
  else if fr.typ = 0x20 then is 2 0xFD 64 && bf fr.arg 8 24 = 0
  else if fr.typ = 0x21 then is 2 0xFE 0 && bf fr.arg 16 16 = 0
  else if fr.typ = 0x22 then is 2 0xFD 0 && bf fr.arg 17 15 = 0
  else if fr.typ = 0x23 then is 2 0xFE 32
  else if fr.typ = 0x24 then vc ≠ 2 && fr.dst = 0xFE && n = 0
  else if fr.typ = 0x25 then vc = 0 && node && 4 ≤ n && n ≤ 256 && bf fr.arg 6 10 = 0
  else if fr.typ = 0x26 then is 2 0xFD 24
  else if fr.typ = 0x30 then vc = 3 && fr.dst = 0xFE && bf fr.arg 13 3 = 0 &&
    (match bf fr.arg 30 2 with | 0 => n = 176 | 1 => n = 12 | 2 => 8 ≤ n && n ≤ 256 | _ => false)
  else false

/-- A frame that R374 does not drop as malformed. -/
def frameOk (fr : FabFrame) : Bool :=
  frameShape fr && fr.payload.length % 4 = 0 && bf fr.flags 4 4 = 0 && (fr.flags.getLsbD 2 || fr.pseq = 0)

/-- Place of a VC among the recorded channels. -/
def snapVc (fr : FabFrame) : Nat := match (vcOf fr).val with | 0 => 0 | 1 => 1 | _ => 2

/-- The record of an incoming channel. -/
def snapIdx (f : Flue) (v : Nat) : Fin 12 := ⟨(3 * f.val + v) % 12, Nat.mod_lt _ (by decide)⟩
def modSnapChan (s : State) (i : Fin 12) (g : SnapChan → SnapChan) : State :=
  modSnap s (fun x => { x with chans := x.chans.set i (g x.chans[i]) })

/-- A frame that arrives after the freeze and before its channel's CLOSE is recorded (R388). -/
def snapNote (s : State) (f : Flue) (fr : FabFrame) : State :=
  let i := snapIdx f (snapVc fr)
  if s.fb.snap.st = .recording ∧ vcOf fr ≠ 2 ∧ fr.typ ≠ 0x24 ∧ (s.fb.snap.chans[i]).state = 3 then
    modSnapChan s i (fun c => { c with count := c.count + 1, bytes := c.bytes ++ frameHeader fr ++ fr.payload })
  else s

/-- A frame of a type arrives on a flue: the link takes it in order, a malformed one is counted, and only HELLO is heard on a
flue that is not NEIGHBOUR (R371, R374, R376); a flue in serve mode carries RELAY alone (R422).
Log entry 47 (DEDUCED, DESIGN CHOICE). -/
def fabRx (s : State) (f : Flue) (fr : FabFrame) (typ : Byte) (k : State → State) : State :=
  match linkTake s (flueLink f) fr with
  | (false, s) => s
  | (true, s) =>
    if fr.typ ≠ typ ∨ !frameOk fr then dropBad s
    else if serving s f then (if typ = 0x30 then k s else s)
    else if typ = 0x01 then k s
    else if (s.fb.flue[f]).st = .neighbour then k (snapNote s f fr)
    else s

/-- Payload of HELLO (Table 13.2); recovery mode's FABRIC_ID is 0 (R422). -/
def helloBytes (s : State) (f : Flue) : List Byte :=
  wordBytes s.fb.cfg.fabricId ++ otpSerial s ++ [ownSrc s, BitVec.ofNat 8 f.val, BitVec.ofNat 8 s.fb.cfg.coordPri, 0]

/-- WANT for the piece of the running image that recovery asks for (R413, R422).
Log entry 54 (DEDUCED, DESIGN CHOICE). -/
def recWant (s : State) : State :=
  sendOn s 0 (mkFrame s 0x30 3 0xFE (pack [(30, 1), (16, 0x3FFE)]) (fillBytes 8 0 ++ beBytes 4 s.boot.want))

/-- HELLO_TIMER: every 1 ms (R376, R422); recovery asks again for its piece. -/
def helloTimer (s : State) (f : Flue) : State :=
  if linkUp s.fb.flue[f] ∧ !serving s f then
    let s := sendOn s (flueLink f) (mkFrame s 0x01 2 0xFE 0 (helloBytes s f))
    if s.boot.on ∧ f = 0 then recWant s else s
  else s

/-- HELLO_RX (R376). -/
def helloRx (s : State) (f : Flue) (fr : FabFrame) : State :=
  fabRx s f fr 0x01 (fun s =>
    let p := fr.payload
    let node := be8 p 12
    let s := modFlue s f (fun x => { x with
      lastHello := s.clk.now, serial := BitVec.ofNat 64 (be64 p 4), neigh := BitVec.ofNat 5 node
      neighValid := decide (node < 32) })
    if s.fb.st = .off then s
    else if wordBE p 0 = s.fb.cfg.fabricId then flueEnter s f .neighbour else flueEnter s f .isolated)

/-- HELLO_LOSS: 3 ms without HELLO (R376). -/
def helloLoss (s : State) (f : Flue) : State :=
  let x := s.fb.flue[f]
  if x.st = .neighbour then flueEnter (reachTime s (x.lastHello + msCyc 3)) f .up else s

/-- A version newer than another, modulo 65,536.
Log entry 48 (DEDUCED). -/
def newer (a b : Nat) : Bool := (a + 65536 - b) % 65536 ≠ 0 && (a + 65536 - b) % 65536 < 32768

/-- What a change of an entry would change in the topology. -/
def sameTopo (a b : TopoEnt) : Bool := a.node = b.node && a.pri = b.pri && a.flues = b.flues

/-- TOPO_RX: a newer copy updates the database and is flooded on; a duplicate static node ID isolates the higher SERIAL
(R377, R378).
Log entry 48 (DEDUCED). -/
def topoRx (s : State) (f : Flue) (fr : FabFrame) : State :=
  fabRx s f fr 0x02 (fun s =>
    let e := topoParse fr.payload s.clk.now
    let old := s.fb.topo.find? (fun x => x.serial = e.serial)
    if e.serial = serialNum s ∨ s.fb.st = .off then s
    else if (match old with | some o => newer e.version o.version | none => true) then
      let s := { s with fb := { s.fb with topo := e :: s.fb.topo.filter (fun x => x.serial ≠ e.serial) } }
      let s := floodOn s f fr
      let s := if (match old with | some o => sameTopo e o | none => false) then s else topoLearn s
      if e.node.isSome ∧ e.node = s.fb.cfg.nodeId ∧ s.fb.node = e.node ∧ e.serial.toNat < (serialNum s).toNat then
        { s with fb := { s.fb with dup := true, st := .isolated } }
      else s
    else s)

/-- TOPO_TIMER (R377). -/
def topoTimer (s : State) : State := if s.fb.st = .off then s else sendTopo s

/-- TOPO_ENTRY_AGE: entries not refreshed for 300 ms go (R377). -/
def topoAge (s : State) : State :=
  match least (s.fb.topo.map (·.at_)) with
  | none => s
  | some t =>
    let s := reachTime s (t + msCyc 300)
    topoLearn { s with fb := { s.fb with topo := s.fb.topo.filter (fun e => s.clk.now < e.at_ + msCyc 300) } }

/-- A node entry is given an ID. -/
def giveId (s : State) (ser : BitVec 64) (n : Fin 32) : State :=
  { s with fb := { s.fb with topo := s.fb.topo.map (fun e => if e.serial = ser then { e with node := some n } else e) } }

/-- ASSIGN_RX (R378): flooded on until the database shows the ID. -/
def assignRx (s : State) (f : Flue) (fr : FabFrame) : State :=
  fabRx s f fr 0x03 (fun s =>
    let ser := BitVec.ofNat 64 (be64 fr.payload 0)
    let b := be8 fr.payload 8
    if h : b < 32 then
      let n : Fin 32 := ⟨b, h⟩
      if s.fb.st = .off ∨ s.fb.st = .isolated then s
      else if ser = serialNum s then
        (if s.fb.node = none then topoOwn { floodOn s f fr with fb := { (floodOn s f fr).fb with node := some n } } else s)
      else if s.fb.topo.any (fun e => e.serial = ser && e.node = some n) then s
      else topoLearn (giveId (floodOn s f fr) ser n)
    else dropBad s)

/-- The free IDs of a topology, ascending. -/
def freeIds (l : List TopoEnt) : List (Fin 32) := (List.finRange 32).filter (fun n => !l.any (fun e => e.node = some n))

/-- Entries without an ID, in ascending SERIAL. -/
def needIds (l : List TopoEnt) : List TopoEnt :=
  (l.filter (fun e => e.node.isNone)).mergeSort (fun a b => a.serial.toNat ≤ b.serial.toNat)

/-- The coordinator gives IDs, one ASSIGN frame a node (R378). -/
def assignIds (s : State) (l : List TopoEnt) : State :=
  ((needIds l).zip (freeIds l)).foldl (fun s x =>
    let s := giveId s x.1.serial x.2
    floodBut s none (mkFrame s 0x03 2 0xFF 0 (beBytes 8 x.1.serial.toNat ++ [BitVec.ofNat 8 x.2.val, 0, 0, 0]))) s

/-- Send down the tree, HOPS lowered when forwarded (R386). -/
def treeDown (s : State) (fr : FabFrame) : State := s.fb.children.foldl (fun s c => sendOn s (flueLink c.1) fr) s

/-- RELEASE at a node: DONE or ABORTED, and the number advances by 1 (R387, Table 13.7).
Log entry 50 (DEDUCED, DESIGN CHOICE). -/
def barRelease (s : State) (aborted : Bool) : State :=
  fbInt { s with fb := { s.fb with
    barDone := s.fb.barDone || !aborted, barAborted := s.fb.barAborted || aborted
    bseq := s.fb.bseq + 1, arrived := false, sentUp := false, childArr := [], barWait := false } } 3

/-- The coordinator's RELEASE. -/
def sendRelease (s : State) (aborted : Bool) : State :=
  barRelease (treeDown s (mkFrame s 0x22 2 0xFD (pack [(0, s.fb.bseq.toNat), (16, b2n aborted)]) [])) aborted

/-- What a node computes when its topology settles (R379). -/
def settled (s : State) (l : List TopoEnt) (co : TopoEnt) (me root : Fin 32) : State :=
  let ls := links l
  let lv := distFrom ls root.val
  let par := parentOf ls lv me.val
  let down := (allFlue.filter (fun f => ls.any (fun x => x.1 = me.val && x.2.1 = f.val && !goesUp lv me.val x.2.2))).map (·.val)
  fbInt { s with
    fb := { s.fb with
      st := .running, coord := decide (co.serial = serialNum s), coordId := root.val
      diam := diameter ls (lv.map (·.1)), level := (aget lv me.val).getD 0, parent := par.getD 0
      parentFlue := match par with | some p => (flueTo ls me.val p).map flueOf | none => none
      children := childrenOf ls lv me.val
      present := lv.foldl (fun m x => setBit m x.1) 0
      rt := Vector.ofFn (fun d => routeTo ls lv me.val d.val)
      downFlues := down.foldl (fun m f => setBit m f) 0
      fgen := s.fb.fgen + 1, seen := [], barAbortOwed := false } } 1

/-- SETTLE: the database has not changed for SETTLE_MS. The coordinator first gives IDs; without a candidate, or without an own
ID, the node does not run (R377-R379).
Log entry 48 (DEDUCED). -/
def settleTopo (s : State) : State :=
  if s.fb.st ≠ .discovering ∧ s.fb.st ≠ .settling then s
  else
    let s := reachTime s (s.fb.changedAt + msCyc s.fb.cfg.settleMs)
    let l := liveEntries s
    match coordOf l with
    | none => s
    | some co =>
      if co.serial = serialNum s ∧ needIds l ≠ [] ∧ freeIds l ≠ [] then topoLearn (assignIds s l)
      else match s.fb.node, co.node with
        | some me, some root =>
          let owed := s.fb.barAbortOwed
          let s := settled s l co me root
          if owed ∧ s.fb.coord then sendRelease s true else s
        | _, _ => s

/-- FB_CTL.REDISCOVER restarts the settle count (R377). -/
def rediscover (s : State) (m : Master) : State := if mayWrite s m 14 true then topoLearn s else s

/-- Send a frame of this node towards a node (R379, R380); an ISOLATED node sends HELLO and TOPO only (R378). -/
def originate (s : State) (fr : FabFrame) : State :=
  if (vcOf fr ≠ 2 ∧ s.fb.st ≠ .running) ∨ s.fb.st = .isolated then dropTransit s
  else if h : fr.dst.toNat < 32 then
    match (s.fb.rt[fr.dst.toNat]).up with
    | none => dropTransit s
    | some f => sendOn s (flueLink f) (if s.fb.downFlues.getLsbD f.val then { fr with flags := fr.flags ||| 8 } else fr)
  else s

/-- FRAME_FORWARD: a frame addressed to another node takes UPHOP, or DNHOP once it has gone down, with HOPS lowered
(R374, R379, R380). -/
def forwardFrame (s : State) (f : Flue) (fr : FabFrame) : State :=
  match linkTake s (flueLink f) fr with
  | (false, s) => s
  | (true, s) =>
    if !frameOk fr then dropBad s
    else if (s.fb.flue[f]).st ≠ .neighbour ∨ serving s f then s
    else
      let s := snapNote s f fr
      if (vcOf fr ≠ 2 ∧ s.fb.st ≠ .running) ∨ s.fb.st = .isolated ∨ fr.hops ≤ 1 then dropTransit s
      else if h : fr.dst.toNat < 32 then
        let r := s.fb.rt[fr.dst.toNat]
        match (if fr.flags.getLsbD 3 then r.dn else r.up) with
        | none => dropTransit s
        | some g =>
          let flags := if s.fb.downFlues.getLsbD g.val then fr.flags ||| 8 else fr.flags
          sendOn s (flueLink g) { fr with hops := fr.hops - 1, flags := flags }
      else s

/-- This node is the coordinator of a settled topology. -/
def isCoord (s : State) : Bool := s.fb.st = .running && s.fb.coord

/-! Broadcast and barrier. -/

/-- FB_BC_CTL.GO (R385, R386).
Log entry 50 (DEDUCED, DESIGN CHOICE). -/
def bcastGo (s : State) (m : Master) : State :=
  if !mayWrite s m 14 true then s
  else if isCoord s then
    treeDown s (mkFrame s 0x20 2 0xFD (s.fb.bcTag.setWidth 32) (s.fb.bcTx.toList.flatMap wordBytes))
  else { s with fb := { s.fb with bcRej := true } }

/-- A frame that travels down the tree is forwarded to the children; an ISOLATED node forwards nothing (R378). -/
def forwardDown (s : State) (fr : FabFrame) : State :=
  if fr.hops ≤ 1 ∨ s.fb.st = .isolated then dropTransit s else treeDown s { fr with hops := fr.hops - 1 }

/-- BCAST_RX (R386). -/
def bcastRx (s : State) (f : Flue) (fr : FabFrame) : State :=
  fabRx s f fr 0x20 (fun s =>
    let s := fbInt { s with fb := { s.fb with
      bcRx := Vector.ofFn (fun i => wordBE fr.payload (4 * i.val)), bcRxTag := fr.arg.setWidth 8
      bcLost := s.fb.bcLost || s.fb.bcNew, bcNew := true } } 2
    forwardDown s fr)

/-- With this node and all its children arrived, ARRIVE goes to the parent, or the coordinator releases (R387). -/
def barTry (s : State) : State :=
  if s.fb.arrived ∧ s.fb.children.all (fun c => s.fb.childArr.contains c.2) ∧ !s.fb.sentUp then
    if s.fb.coord then sendRelease s false
    else match s.fb.parentFlue with
      | some f =>
        sendOn { s with fb := { s.fb with sentUp := true } } (flueLink f) (mkFrame s 0x21 2 0xFE (s.fb.bseq.setWidth 32) [])
      | none => s
  else s

/-- FB_BAR_CTL.ARRIVE (R387).
Log entry 50 (DEDUCED, DESIGN CHOICE). -/
def arrive (s : State) (m : Master) : State :=
  if !mayWrite s m 14 true then s
  else if s.fb.arrived ∨ s.fb.st ≠ .running then { s with fb := { s.fb with barRej := true } }
  else barTry { s with fb := { s.fb with arrived := true, barWait := true } }

/-- ARRIVE_RX: from a child, for the present barrier (R387). -/
def arriveRx (s : State) (f : Flue) (fr : FabFrame) : State :=
  fabRx s f fr 0x21 (fun s =>
    match s.fb.children.find? (fun c => c.2 = fr.src.toNat) with
    | some c =>
      if s.fb.st = .running ∧ fr.arg.toNat = s.fb.bseq.toNat ∧ !s.fb.childArr.contains c.2 then
        barTry { s with fb := { s.fb with childArr := c.2 :: s.fb.childArr } }
      else s
    | none => s)

/-- RELEASE_RX (R387). -/
def releaseRx (s : State) (f : Flue) (fr : FabFrame) : State :=
  fabRx s f fr 0x22 (fun s => barRelease (forwardDown s fr) (fr.arg.getLsbD 16))

/-! Fabric reset (R392). -/

/-- The tag of a RESET frame, where the fabric key can be used: the engine's HMAC holds a verification-class billet of the hearth account
while it computes, and gives none where it finds no billet (R375, R392).
Log entry 50 (DEDUCED, DESIGN CHOICE). -/
def resetTag (s : State) (fr : FabFrame) : Option (List Byte) :=
  match s.fb.cfg.fkey, (draw .ver .hearth none false (.sign 64) s).1 with
  | some i, some _ =>
    let x := s.kv.slots[i]
    if slotOk s i ∧ s.kv.state ≠ 3 ∧ hasUse s i 1 ∧ x.typ = 1 ∧ x.owner = 0xFF then
      (secretOf s i).map (fun k => (digBytes (hmacB k (fr.payload.take 8 ++ [fr.typ, fr.dst, fr.src]))).take 16)
    else none
  | _, _ => none

/-- A RESET frame at a node: forwarded first, then checked (R392). -/
def resetFrame (s : State) (fr : FabFrame) : State :=
  let s := forwardDown s fr
  if s.fb.cfg.allowReset ∧ resetTag s fr = some (slice fr.payload 8 16) ∧ s.tp.ao.rseq.toNat < be32 fr.payload 0 then
    warmReset (modAo s (fun a => { a with rseq := wordBE fr.payload 0 })) 4 0
  else fbInt s 7

/-- RESET_FRAME_RX. -/
def resetRx (s : State) (f : Flue) (fr : FabFrame) : State := fabRx s f fr 0x26 (fun s => resetFrame s fr)

/-- FB_CTL.FRESET: the coordinator makes the frame and handles it itself (R385, R392).
Log entry 50 (DEDUCED, DESIGN CHOICE). -/
def freset (s : State) (m : Master) : State :=
  if mayWrite s m 14 true ∧ isCoord s then
    let top := (liveEntries s).foldl (fun a e => max a e.rseq.toNat) 0
    let fr := mkFrame s 0x26 2 0xFD 0 (beBytes 4 (top + 1) ++ beBytes 2 s.fb.fgen.toNat ++ [0, 0])
    match resetTag s fr with
    | some t => resetFrame s { fr with hops := 33, payload := fr.payload ++ t }
    | none => s
  else s

/-! The relay ring (R393, R413). -/

/-- Address of a ring entry.
Log entry 50 (DEDUCED, DESIGN CHOICE). -/
def rlyEntry (s : State) (e : Nat) : Nat := s.fb.rlyBuf.toNat + 272 * e

/-- RELAY_FRAME_RX (R393): into the ring, drawing a host-service billet of the hearth; dropped on a full ring, without a
billet or where ACCEPT_RELAY is 0.
Log entry 50 (DEDUCED, DESIGN CHOICE). -/
def relayRx (s : State) (f : Flue) (fr : FabFrame) : State :=
  fabRx s f fr 0x30 (fun s =>
    let drop := fun (s : State) => { s with fb := { s.fb with rlyDrop := satInc s.fb.rlyDrop } }
    let used := (s.fb.rxHead - s.fb.rxTail).toNat
    let a := rlyEntry s (s.fb.rxHead.toNat % 32)
    if !s.fb.cfg.acceptRelay ∨ 32 ≤ used ∨ !inShared a 272 then drop s
    else match draw .hs .hearth none false (.msg 0) s with
      | (none, s) => drop s
      | (some id, s) =>
        let s := retire s id
        let ent := wordBytes fr.arg ++ beBytes 2 fr.payload.length ++ [BitVec.ofNat 8 f.val] ++ fillBytes 9 0 ++ fr.payload
        { ramWrite s none a ent with fb := { s.fb with rxHead := s.fb.rxHead + 1 } })

/-- One entry kindling has queued is sent on its flue. -/
def relaySend (s : State) : State :=
  let a := rlyEntry s (32 + s.fb.txTail.toNat % 32)
  let s := { s with fb := { s.fb with txTail := s.fb.txTail + 1 } }
  let h := ramRead s a 16
  let f := flueOf (be8 h 6)
  if inShared a 272 ∧ ((isNeighbour s f ∧ s.fb.st = .running) ∨ serving s f) then
    sendOn s (flueLink f) (mkFrame s 0x30 3 0xFE (wordBE h 0) (ramRead s (a + 16) (min 256 (be16 h 4))))
  else dropTransit s

/-- Send `n` entries.
Log entry 50 (DEDUCED, DESIGN CHOICE). -/
def relayRun : Nat → State → State
  | 0, s => s
  | n + 1, s => relayRun n (relaySend s)

/-- RELAY_FRAME_QUEUE: a write of FB_RLY_RING sets RX_TAIL and TX_HEAD; queued entries are sent (R413). -/
def relayQueue (s : State) (m : Master) (v : Word) : State :=
  if !mayWrite s m 14 true then s
  else
    let s := { s with fb := { s.fb with rxTail := BitVec.ofNat 6 (bf v 8 6), txHead := BitVec.ofNat 6 (bf v 16 6) } }
    relayRun (s.fb.txHead - s.fb.txTail).toNat s

/-- SERVE_WRITE: setting or clearing a bit of FB_RLY_CTL.SERVE is a topology change (R422). -/
def serveWrite (s : State) (m : Master) (v : Word) : State :=
  let x := BitVec.ofNat 4 (bf v 0 4)
  if !mayWrite s m 14 true ∨ x = s.fb.serve then s else topoOwn { s with fb := { s.fb with serve := x } }

/-- RECOVERY_SEG_RX: bytes of the asked piece are programmed in order; a full piece asks for the next, and the last byte ends the
image (R422, R423). -/
def recoverySeg (s : State) (fr : FabFrame) : State :=
  match linkTake s 0 fr with
  | (false, s) => s
  | (true, s) =>
    let b := s.boot
    let piece := be32 fr.payload 0
    if !s.boot.on ∨ !frameOk fr ∨ fr.typ ≠ 0x30 ∨ bf fr.arg 30 2 ≠ 2 ∨ bf fr.arg 16 14 ≠ 0x3FFE ∨ recBusy s .fl0 then s
    else if piece ≠ b.want ∨ bf fr.arg 0 13 ≠ b.got then s
    else
      let room := min (4096 - b.got) (b.total.getD 0x200000 - b.count)
      let data := (fr.payload.drop 4).take room
      let s := { s with boot := { s.boot with src := some .fl0 } }
      let s := { recProgram s data with boot := { (recProgram s data).boot with got := b.got + data.length } }
      match recHeader s b.count with
      | (false, s) => recWant s
      | (true, s) =>
        if s.boot.total = some s.boot.count then (recFinish s).2
        else if s.boot.got = 4096 then recWant { s with boot := { s.boot with want := b.want + 1, got := 0 } }
        else s

/-- The fabric starts at the structure lock where a FABRIC section is present (R395). -/
def fabLock (s : State) : State :=
  if s.fb.cfg.present then
    { s with fb := { s.fb with
      st := .discovering, node := s.fb.cfg.nodeId, changedAt := s.clk.now
      flue := Vector.ofFn (fun i => let x := s.fb.flue[i]
        if s.fb.cfg.flueEn.getLsbD i.val then (if x.st = .off then { x with st := .down, since := s.clk.now } else x)
        else { x with st := .off }) } }
  else s

end Sys2Proof.Machine
end

