-- ==== Sys2Proof/Machine/FabricMsg.lean ====
section
/-! DEFINITION. Fabric-peer instances (R383, R384, R448) and the consistent snapshot (R388-R391). -/

namespace Sys2Proof.Machine

/-! Peers. -/

/-- The pair address: the NODE_ID of the unit with PAIR_ORD low (R384). -/
def pairAddr (s : State) : Byte :=
  if !s.pr.ord then ownSrc s else match s.fb.cfg.pairNode with | some n => BitVec.ofNat 8 n.val | none => ownSrc s

/-- The end-to-end number of the next frame.
Log entry 49 (DEDUCED, DESIGN CHOICE). -/
def takeEseq (s : State) : BitVec 16 × State := (s.fb.eseq, { s with fb := { s.fb with eseq := s.fb.eseq + 1 } })

/-- The next PSEQ towards a node. -/
def pseqOf (s : State) (node : Nat) : BitVec 16 := (aget s.pr.pseq node).getD 0

/-- The mask of nodes, one bit a node, as a frame's destination. -/
def nodeFin (n : Nat) : Fin 32 := ⟨n % 32, Nat.mod_lt _ (by decide)⟩

/-- What tells a frame sent on behalf of the pair: the CRC-32 over its type, ARG and payload, which both units compute alike.
Log entries 49 (DEDUCED, DESIGN CHOICE), 52 (DEDUCED, DESIGN CHOICE). -/
def frameCrc (fr : FabFrame) : Word :=
  ~~~((fr.typ :: wordBytes fr.arg ++ fr.payload).foldl crcByte (BitVec.allOnes 32))

/-- An announcement fits a copy: its destination and what it carries. -/
def announces (a : Nat × BitVec 16 × Word) (fr : FabFrame) : Bool := a.1 == fr.dst.toNat && a.2.2 == frameCrc fr

/-- The banked unit's copies that wait are matched with the announcements, oldest first, and go out under the announced number; a copy
that agrees with no announcement is not sent (R448). `n` bounds the matches.
Log entries 49 (DEDUCED, DESIGN CHOICE), 52 (DEDUCED, DESIGN CHOICE). -/
def sendCopies : Nat → State → State
  | 0, s => s
  | n + 1, s =>
    match s.pr.announced.find? (fun a => s.pr.copies.any (announces a)) with
    | none => s
    | some a =>
      match s.pr.copies.find? (announces a) with
      | none => s
      | some fr =>
        let s := { s with pr := { s.pr with announced := s.pr.announced.erase a, copies := s.pr.copies.erase fr } }
        sendCopies n (originate s { fr with pseq := a.2.1 })

/-- Send a MSG or BULKSEG. On behalf of a pair it carries PAIR, the pair address and a PSEQ: the burning unit assigns the number and
announces it; the banked unit sends its copy with the announced number, only where its own frame agrees with the announcement
(R384, R448). -/
def peerFrame (s : State) (fr : FabFrame) : State :=
  let n := fr.dst.toNat
  if !s.pr.fitted then originate s fr
  else
    let fr := { fr with flags := fr.flags ||| 4, src := pairAddr s }
    if s.pr.role = 1 then
      let q := pseqOf s n
      let s := { s with pr := { s.pr with pseq := aput s.pr.pseq n (q + 1) } }
      originate (notify s (.pseq (nodeFin n) q (frameCrc fr))) { fr with pseq := q }
    else if s.pr.role = 2 then sendCopies 64 { s with pr := { s.pr with copies := s.pr.copies ++ [fr] } }
    else s

/-- BULKSEG frames of a message's bulk bytes: VC and number as given, 256 bytes each. -/
def bulkFrames (s : State) (vc : Nat) (d : Byte) (data : List Byte) : List FabFrame :=
  (List.range (cdiv data.length 256)).map (fun k =>
    mkFrame s 0x11 vc d (BitVec.ofNat 32 (256 * k)) (padTo (4 * cdiv (min 256 (data.length - 256 * k)) 4) 0 (slice data (256 * k) 256)))

/-- Send the head of an instance's outbound queue: bulk bytes first, then the MSG under the given number (R383). -/
def peerEmit (s : State) (n : Inst) (e : BitVec 16) : State :=
  let b := s.mb.box[n]
  let m := b.outq.headD []
  let h := m.headD 0
  let d := (s.inst[n]).addr
  let vc := b2n (hdrType h = 2)
  let segs := if isBulk h then bulkFrames s vc d (bulkRead b 0 (bf (m.getD 1 0) 0 13)) else []
  let s := segs.foldl (fun s fr => let (q, s) := takeEseq s; peerFrame s { fr with eseq := q }) s
  peerFrame s { mkFrame s 0x10 vc d 0 (m.flatMap wordBytes) with eseq := e }

/-- A fabric-peer instance that is served. -/
def isPeer (s : State) (n : Inst) : Bool := instLive s n && (s.inst[n]).cfg.transport = 7

/-- PEER_SEND: one message in flight per instance (R383).
Log entry 49 (DEDUCED, DESIGN CHOICE). -/
def peerSend (s : State) (n : Inst) : State :=
  let b := s.mb.box[n]
  if isPeer s n ∧ b.peer = none ∧ b.outq ≠ [] then
    let (e, s) := takeEseq s
    peerEmit (modBox s n (fun b => { b with peer := some { sends := 1, eseq := e, at_ := s.clk.now, full := false } })) n e
  else s

/-- A refused or lost message is popped and recorded (R383). -/
def peerLost (s : State) (n : Inst) (code : Nat) : State :=
  let s := modBox (popOut s n) n (fun b => { b with peer := none })
  fbInt { s with fb := { s.fb with peerIn := BitVec.ofNat 6 n.val, peerCode := BitVec.ofNat 3 code } } 6

/-- PEER_RESEND: 1 ms without DLV, or 20 us after FULL; after 8 sends without a DLV the message is popped as PEER_LOST (R383).
Log entry 49 (DEDUCED, DESIGN CHOICE). -/
def peerResend (s : State) (n : Inst) : State :=
  match (s.mb.box[n]).peer with
  | none => s
  | some p =>
    let s := reachTime s (p.at_ + (if p.full then usCyc 20 else msCyc 1))
    let sends := if p.full then 0 else p.sends
    if 8 ≤ sends then peerLost s n 5
    else peerEmit (modBox s n (fun b => { b with peer := some { p with sends := sends + 1, at_ := s.clk.now, full := false } })) n p.eseq

/-- DLV_RX (R383).
Log entry 49 (DEDUCED, DESIGN CHOICE). -/
def dlvRx (s : State) (f : Flue) (fr : FabFrame) : State :=
  fabRx s f fr 0x04 (fun s =>
    let hit := (List.finRange 64).find? (fun n => isPeer s n && (s.inst[n]).addr = fr.src &&
      (match (s.mb.box[n]).peer with | some p => p.eseq.toNat = bf fr.arg 0 16 | none => false))
    match hit with
    | none => s
    | some n =>
      if !fr.arg.getLsbD 31 then modBox (popOut s n) n (fun b => { b with peer := none })
      else if bf fr.arg 28 3 = 1 then
        modBox s n (fun b => { b with peer := b.peer.map (fun p => { p with full := true, at_ := s.clk.now }) })
      else peerLost s n (bf fr.arg 28 3))

/-- A frame sent on behalf of a pair is kept once: R448's highest number and 64-bit history.
Log entry 49 (DEDUCED, DESIGN CHOICE). -/
def pairSeen (s : State) (fr : FabFrame) : Bool × State :=
  if !fr.flags.getLsbD 2 then (true, s)
  else
    let node := fr.src.toNat
    let put := fun (x : PairSeen) => { s with fb := { s.fb with seen := x :: s.fb.seen.filter (fun y => y.node ≠ node) } }
    match s.fb.seen.find? (fun x => x.node = node) with
    | none => (true, put { node := node, s := fr.pseq, hist := 0 })
    | some x =>
      let d := (fr.pseq - x.s).toNat
      let back := (x.s - fr.pseq).toNat
      if 1 ≤ d ∧ d ≤ 32768 then
        -- the old highest number is d below the new one
        (true, put { x with s := fr.pseq, hist := if d ≤ 64 then (x.hist <<< d) ||| (1#64 <<< (d - 1)) else 0 })
      else if 1 ≤ back ∧ back ≤ 64 ∧ !x.hist.getLsbD (back - 1) then (true, put { x with hist := setBit x.hist (back - 1) })
      else (false, { s with pr := { s.pr with dup := if s.pr.dup = BitVec.allOnes 32 then s.pr.dup else s.pr.dup + 1 } })

/-- The instance that is this node's view of a peer: ACTIVE, TRANSPORT 7, ADDR the sender (R383). -/
def peerInst (s : State) (src : Byte) : Option Inst := (List.finRange 64).find? (fun n => isPeer s n && (s.inst[n]).addr = src)

/-- A frame addressed to this node. -/
def forUs (s : State) (fr : FabFrame) : Bool := s.fb.node.isSome && fr.dst = ownSrc s

/-- An acknowledgement of this node to a node, still waiting for a credit, gives way to a newer one (R382). -/
def dlvStale (s : State) (d : Byte) : State :=
  allFlue.foldl (fun s f => modFlue s f (fun x => { x with
    waiting := x.waiting.filter (fun w => !(w.typ = 0x04 && w.src = ownSrc s && w.dst = d)) })) s

/-- Answer a MSG with DLV (R382, Table 13.2). -/
def sendDlv (s : State) (fr : FabFrame) (code : Nat) : State :=
  originate (dlvStale s fr.src) (mkFrame s 0x04 2 fr.src (pack [(31, b2n (code ≠ 0)), (28, code), (0, fr.eseq.toNat)]) [])

/-- Words of a payload. -/
def payloadWords (p : List Byte) : List Word := (List.range (p.length / 4)).map (fun i => wordBE p (4 * i))

/-- MSG_RX: checked as a client-side send and answered; a marked failure gives BULK_ERR, no instance or no billet FULL
(R382, R383).
Log entry 49 (DEDUCED, DESIGN CHOICE). -/
def msgRx (s : State) (f : Flue) (fr : FabFrame) : State :=
  fabRx s f fr 0x10 (fun s =>
    if !forUs s fr then s
    else match pairSeen s fr with
      | (false, s) => s
      | (true, s) =>
        match peerInst s fr.src with
        | none => sendDlv s fr 1
        | some n =>
          match draw .hs (.inst n) none false (.msg n) s with
          | (none, s) => sendDlv s fr 1
          | (some id, s) =>
            let s := retire s id
            let ws := payloadWords fr.payload
            let c := sendCheck s n false ws
            let fail := (s.mb.box[n]).peerFail && isBulk (ws.headD 0) && c ≠ 2 && c ≠ 3
            let (code, t) := if fail then (4, s) else trySend s n false n.val ws
            sendDlv (modBox t n (fun b => { b with peerFail := false })) fr code)

/-- BULKSEG_RX: written where the client side owns the buffer; otherwise, or without a billet, the following MSG fails
(R382, R383). -/
def bulksegRx (s : State) (f : Flue) (fr : FabFrame) : State :=
  fabRx s f fr 0x11 (fun s =>
    if !forUs s fr then s
    else match pairSeen s fr with
      | (false, s) => s
      | (true, s) =>
        match peerInst s fr.src with
        | none => s
        | some n =>
          match draw .hs (.inst n) none false (.msg n) s with
          | (none, s) => modBox s n (fun b => { b with peerFail := true })
          | (some id, s) =>
            let s := retire s id
            if (s.mb.box[n]).bulkDev ∧ (s.inst[n]).st = .active then modBox s n (fun b => { b with peerFail := true })
            else bulkWrite s n false (bf fr.arg 0 12) fr.payload)

/-! Snapshot. -/

/-- The alias key can sign for the device now (R388, R361). -/
def aliasReady (s : State) : Bool := (s.mb.lms[(1 : Fin 2)]).valid && !lmsBusy s 1

/-- Start a signature by the alias key over a message, on a verification billet of the hearth account; none where the key or a
billet is not to be had (R388). The digests the message carries are hashed at tier 2 with it, at the costs given.
Log entry 51 (DEDUCED). -/
def startSign (s : State) (msg : List Byte) (costs : List Nat) : State :=
  if !aliasReady s then modSnap s (fun x => { x with sig := none, billet := none })
  else match draw .ver .hearth none false (.sign 64) s with
    | (none, s) => modSnap s (fun x => { x with sig := none, billet := none })
    | (some id, s) =>
      let (sig, s) := signWith s 1 msg
      hashJobs (modSnap s (fun x => { x with sig := some sig, billet := some id })) 2 id (costs ++ [signCost msg.length]) .hearth

/-- The signature's job runs to its end; none while it waits for an engine (R116). -/
def signDone (s : State) : Option State := match s.fb.snap.billet with | some id => unitDone id 12 s | none => some s

/-- The signature, if the key still stands when it ends (Table 13.7); its billet retires, and a job it still has ends. -/
def endSign (s : State) : Option (List Byte) × State :=
  let x := s.fb.snap
  let s := match x.billet with | some id => hashDrop (retire s id) id | none => s
  (if (s.mb.lms[(1 : Fin 2)]).valid then x.sig else none, modSnap s (fun x => { x with sig := none, billet := none }))

/-- A channel's entry of CHAN (Table 13.5): flue, VC, state, count and digest. -/
def snapChanBytes (x : Snap) (i : Fin 12) : List Byte :=
  let c := x.chans[i]
  [BitVec.ofNat 8 (i.val / 3), (match i.val % 3 with | 0 => 0 | 1 => 1 | _ => 3), BitVec.ofNat 8 c.state, 0] ++
  beBytes 4 c.count ++ (if c.state = 0 then fillBytes 32 0 else digBytes (sha256 c.bytes))

/-- Bytes 0-2,855 of the record (Table 13.5). -/
def snapRecord (s : State) (sigLen : Nat) : List Byte :=
  let x := s.fb.snap
  beBytes 4 0x545A5352 ++ beBytes 2 1 ++
  [ownSrc s, BitVec.ofNat 8 (b2n s.pr.fitted + 2 * b2n x.timedOut + 4 * b2n (sigLen = 0))] ++
  wordBytes x.epoch ++ beBytes 2 s.fb.fgen.toNat ++ [0, 0] ++ otpSerial s ++ digBytes x.nonce ++ beBytes 8 x.time.toNat ++
  x.tallies.flatMap (fun t => digBytes t.1) ++ x.tallies.flatMap (fun t => wordBytes t.2) ++
  (List.finRange 12).flatMap (snapChanBytes x) ++ wordBytes s.mb.epoch ++ beBytes 4 sigLen

/-- Where record `n` lies (R390). -/
def snapSlot (s : State) (n : Nat) : Nat := s.fb.snap.buf.toNat + 8256 * n

/-- Bytes of a stored record, from its SIG_LEN (Table 13.5).
Log entry 51 (DEDUCED). -/
def recordLen (s : State) (n : Nat) : Nat := 2856 + be32 (ramRead s (snapSlot s n + 2852) 4) 0

/-- Blocks of the digests of the recorded channels (R388).
Log entry 51 (DEDUCED). -/
def snapCosts (x : Snap) : List Nat :=
  (x.chans.toList.filter (fun c => c.state ≠ 0)).map (fun c => cdiv (c.bytes.length + 9) 64)

/-- Blocks of the digests of a quote: the leaves of the records present, and 31 parents of 2 blocks (R390).
Log entry 51 (DEDUCED). -/
def quoteCosts (s : State) : List Nat :=
  (idxs (fun n => s.fb.snap.present.getLsbD n) 32).map (fun n => cdiv (1 + min 8252 (recordLen s n) + 9) 64) ++ [62]

/-- Every channel is closed or timed out: the node signs its record; one that sends no record is done (R388).
Log entry 51 (DEDUCED). -/
def snapCheck (s : State) : State :=
  if s.fb.snap.st = .recording ∧ (List.finRange 12).all (fun i => (s.fb.snap.chans[i]).state ≠ 3) then
    if s.fb.cfg.allowSnap then startSign (modSnap s (fun x => { x with st := .signing })) (snapRecord s 5396) (snapCosts s.fb.snap)
    else modSnap s (fun x => { x with st := if s.fb.coord then .collecting else .idle })
  else s

/-- The freeze (R388). -/
def freeze (s : State) (epoch : Word) (nonce : Digest) : State :=
  let chans : Vector SnapChan 12 := Vector.ofFn (fun i =>
    let st : Nat := if isNeighbour s (flueOf (i.val / 3)) then 3 else 0
    { state := st })
  let s := modSnap s (fun x => { x with
    st := .recording, timedOut := false, epoch := epoch, nonce := nonce, tallies := s.mb.tallies.toList
    time := BitVec.ofNat 64 (mtime s), at_ := s.clk.now, chans := chans, quoting := false, parts := [] })
  let s := floodBut s none (mkFrame s 0x23 2 0xFE epoch (digBytes nonce))
  let s := [0, 1, 3].foldl (fun s v => floodBut s none (mkFrame s 0x24 v 0xFE epoch [])) s
  snapCheck s

/-- An older snapshot is abandoned without a record for a newer epoch (Table 13.7). -/
def abandonSnap (s : State) : State :=
  let x := s.fb.snap
  if x.st = .recording ∨ x.st = .signing ∨ x.st = .collecting then fbInt (endSign s).2 4 else s

/-- FB_SNAP_CTL.START (R385, R388). -/
def snapStart (s : State) (m : Master) : State :=
  let x := s.fb.snap
  if !mayWrite s m 14 true then s
  else if !isCoord s ∨ x.st = .recording ∨ x.st = .signing ∨ x.st = .collecting then modSnap s (fun x => { x with rej := true })
  else freeze (modSnap s (fun x => { x with present := 0, startAt := s.clk.now })) (x.epoch + 1) x.nonceReg

/-- MARKER_RX (R388): the first of a newer epoch freezes the node; one that follows its own CLOSE gives the nonce.
Log entry 51 (DEDUCED). -/
def markerRx (s : State) (f : Flue) (fr : FabFrame) : State :=
  fabRx s f fr 0x23 (fun s =>
    if s.fb.st ≠ .running then s
    else if s.fb.snap.epoch.toNat < fr.arg.toNat then freeze (abandonSnap s) fr.arg (digOf fr.payload)
    else if fr.arg = s.fb.snap.epoch ∧ s.fb.snap.st = .recording then modSnap s (fun x => { x with nonce := digOf fr.payload })
    else s)

/-- CLOSE_RX (R388).
Log entry 51 (DEDUCED). -/
def closeRx (s : State) (f : Flue) (fr : FabFrame) : State :=
  fabRx s f fr 0x24 (fun s =>
    if s.fb.st ≠ .running then s
    else
      let s := if s.fb.snap.epoch.toNat < fr.arg.toNat then freeze (abandonSnap s) fr.arg 0 else s
      if fr.arg = s.fb.snap.epoch ∧ s.fb.snap.st = .recording then
        snapCheck (modSnapChan s (snapIdx f (snapVc fr)) (fun c => if c.state = 3 then { c with state := 1 } else c))
      else s)

/-- CLOSE_TIMEOUT: MARK_TMO after the freeze (R388). -/
def closeTimeout (s : State) : State :=
  let x := s.fb.snap
  if x.st = .recording then
    let s := reachTime s (x.at_ + usCyc (100 * s.fb.cfg.markTmo))
    snapCheck (modSnap s (fun x => { x with
      timedOut := true, chans := x.chans.map (fun c => if c.state = 3 then { c with state := 2 } else c) }))
  else s

/-- FB_SNAP_BUF leaves room in shared RAM (R390). -/
def snapBufOk (s : State) : Bool := inShared s.fb.snap.buf.toNat 270712

/-- A node's record stands in the buffer. -/
def snapPresent (s : State) (n : Nat) : State := modSnap s (fun x => { x with present := setBit x.present n })

/-- SNAPSHOT_RECORD_SEND: the record goes to the coordinator in segments of 256 bytes; the coordinator stores its own
(R388, R390).
Log entry 51 (DEDUCED). -/
def snapSend (s : State) : State :=
  match if s.fb.snap.st ≠ .signing then none else signDone s with
  | none => s
  | some s =>
    let (sig, s) := endSign s
    let r := snapRecord s (match sig with | some _ => 5396 | none => 0) ++ sig.getD []
    if s.fb.coord then
      let s := fbInt (modSnap s (fun x => { x with st := .collecting })) 4
      if snapBufOk s then snapPresent (ramWrite s none (snapSlot s (ownSrc s).toNat) r) (ownSrc s).toNat else s
    else
      let s := (List.range (cdiv r.length 256)).foldl (fun s k =>
        let (q, s) := takeEseq s
        originate s { mkFrame s 0x25 0 (BitVec.ofNat 8 s.fb.coordId) (pack [(16, s.fb.snap.epoch.toNat % 65536), (0, k)])
          (slice r (256 * k) 256) with eseq := q }) s
      fbInt (modSnap s (fun x => { x with st := .sent })) 4

/-- SNAPREC_RX: the segment is stored, and the record is present with its last (R390). -/
def snaprecRx (s : State) (f : Flue) (fr : FabFrame) : State :=
  fabRx s f fr 0x25 (fun s =>
    let x := s.fb.snap
    let n := fr.src.toNat
    let k := bf fr.arg 0 6
    if !forUs s fr ∨ !s.fb.coord ∨ 32 ≤ n ∨ !snapBufOk s ∨ 33 ≤ k ∨ bf fr.arg 16 16 ≠ x.epoch.toNat % 65536 ∨
      (x.st ≠ .recording ∧ x.st ≠ .signing ∧ x.st ≠ .collecting) then s
    else
      let s := ramWrite s none (snapSlot s n + 256 * k) fr.payload
      let got := k :: (aget x.parts n).getD []
      let s := modSnap s (fun x => { x with parts := aput x.parts n got })
      if got.contains 11 ∧ (List.range (cdiv (min 8252 (recordLen s n)) 256)).all (fun j => got.contains j) then snapPresent s n else s)

/-- Leaves and root of the rack quote (R390). -/
def quoteLeaf (s : State) (n : Nat) : Digest :=
  if s.fb.snap.present.getLsbD n then sha256 (0 :: ramRead s (snapSlot s n) (min 8252 (recordLen s n))) else 0
def quoteUp : List Digest → List Digest
  | a :: b :: t => sha256 (1 :: digBytes a ++ digBytes b) :: quoteUp t
  | l => l
def quoteRoot (l : List Digest) : Digest := (quoteUp (quoteUp (quoteUp (quoteUp (quoteUp l))))).headD 0

/-- Bytes 0-1,119 of the rack quote (Table 13.6). -/
def quoteBytes (s : State) : List Byte :=
  let x := s.fb.snap
  let leaves := (List.range 32).map (quoteLeaf s)
  beBytes 4 0x545A5251 ++ beBytes 2 1 ++ [ownSrc s, BitVec.ofNat 8 (idxs (fun n => x.present.getLsbD n) 32).length] ++
  wordBytes x.epoch ++ beBytes 2 s.fb.fgen.toNat ++ [0, 0] ++ digBytes x.nonce ++ wordBytes x.present ++ fillBytes 12 0 ++
  leaves.flatMap digBytes ++ digBytes (quoteRoot leaves)

/-- COLLECTION_DEADLINE: every record has arrived, or the collection time has passed; the quote is signed (R390). -/
def collectEnd (s : State) : State :=
  let x := s.fb.snap
  if x.st = .collecting ∧ !x.quoting then
    let s := if s.fb.present &&& ~~~x.present = 0 then s else reachTime s (x.startAt + 1500 * s.fb.diam + msCyc 3)
    startSign (modSnap s (fun x => { x with quoting := true })) (quoteBytes s) (quoteCosts s)
  else s

/-- QUOTE_READY: the quote stands behind the records (R390). -/
def quoteReady (s : State) : State :=
  match if s.fb.snap.st = .collecting ∧ s.fb.snap.quoting then signDone s else none with
  | none => s
  | some s =>
    let (sig, s) := endSign s
    let q := quoteBytes s ++ beBytes 4 (match sig with | some _ => 5396 | none => 0) ++ sig.getD []
    let s := if snapBufOk s then ramWrite s none (s.fb.snap.buf.toNat + 264192) q else s
    fbInt (modSnap s (fun x => { x with st := .done, quoting := false })) 5

end Sys2Proof.Machine
end

