-- ==== Sys2Proof/Machine/Pair.lean ====
section
/-! DEFINITION. The redundant pair (R439-R451): roles, the lease, handover, verdict blocks, and joining. -/

namespace Sys2Proof.Machine

/-- The preferred unit: PAIR_ORD low, or the lower SERIAL where HELLO shows both straps equal (R440). -/
def preferred (s : State) : Bool :=
  match s.pr.partner with
  | some p => if p.ord = s.pr.ord then decide ((serialNum s).toNat < p.serial.toNat) else !s.pr.ord
  | none => !s.pr.ord

/-- Take a role: 1 burning, 2 banked. A unit that becomes banked is SYNCING (R443); the step of a burning unit is that of the
pair, ALONE without a partner (R440).
Log entry 52 (DEDUCED, DESIGN CHOICE). -/
def takeRole (s : State) (r : Nat) : State :=
  let step : BitVec 2 := if r = 2 then 1 else match s.pr.partner with | none => 0 | some p => if p.step = 2 then 2 else 1
  let s := if s.pr.role.toNat = r then s else prInt s 0
  { s with pr := { s.pr with
    role := BitVec.ofNat 2 r, burning := decide (r = 1), step := step, stateDone := false, caughtUp := false
    announced := [], copies := [], yielding := none, given := 0
    frameAt := s.clk.now, edgeAt := s.clk.now, leaseAt := s.clk.now, partnerLost := false } }

/-- A unit stops driving a channel: the own-clock access on its port ends at the next byte boundary, a raw transfer with it, and the
chip select is released (R22, R445).
Log entry 52 (DEDUCED, DESIGN CHOICE). -/
def yieldPort (s : State) (c : Ch) : State :=
  modRaw (cutPort s c true) c (fun r => { r with own := false, busy := false, held := false })

/-- PAIR_ROLE_TIMER: without a lease the preferred unit is burning 1 ms, the other 10 ms after the lock (R440). The new burning unit
issues the PMB steps that run (R287). -/
def roleTimer (s : State) : State :=
  if s.pr.fitted ∧ s.pr.role = 0 then
    restartPmb (takeRole (reachTime s (s.clk.lockAt + msCyc (if preferred s then 1 else 10))) 1)
  else s

/-- STEP becomes IN_STEP once digest, STATE records and catch-up pass are there (R443). -/
def tryInStep (s : State) : State :=
  let same : Bool := match s.pr.partner with | some p => p.digest = s.st.digest | none => false
  if s.pr.role = 2 ∧ s.pr.step = 1 ∧ same ∧ s.pr.stateDone ∧ s.pr.caughtUp then prInt { s with pr := { s.pr with step := 2 } } 1
  else s

/-- Every line with a HOST record is held by SQ_HEARTH_HOLD (R443). -/
def holdHosted (s : State) : State :=
  let m : BitVec 32 := (List.finRange 32).foldl (fun m n => if (s.sq.cfg.hosts[n]).ch.isSome then setBit m n.val else m) 0
  regate { s with sq := { s.sq with hearthHold := s.sq.hearthHold ||| m } }

/-- PAIR_HELLO_RX (R440, R443, R444). -/
def pairHello (s : State) (h : PairHello) : State :=
  if !s.pr.fitted then s
  else
    let s := { s with pr := { s.pr with partner := some h, ordConflict := decide (h.ord = s.pr.ord) } }
    let s := if s.pr.role = 1 then { s with pr := { s.pr with step := if h.step = 2 then 2 else 1 } } else s
    if h.digest ≠ s.st.digest then
      let s := diagFail { s with pr := { s.pr with diag := setBit s.pr.diag 4 } } 4
      if s.pr.role = 2 then holdHosted { s with pr := { s.pr with step := 1 } } else s
    else tryInStep s

/-- LEASE_TIMER: every 100 us the burning unit sends LEASE and toggles LEASE_OUT (R441). -/
def leaseTimer (s : State) : State :=
  if s.pr.role = 1 then
    let s := reachTime s (s.pr.leaseAt + usCyc 100)
    let n := s.pr.leaseNo + 1
    pairSend { s with pr := { s.pr with leaseNo := n, leaseOut := !s.pr.leaseOut, leaseAt := s.clk.now } } 0x02 n []
  else s

/-- A renewal on one path; where the other has been silent for 400 us PATH is set (R441). -/
def leaseHeard (s : State) (edge : Bool) : State :=
  let s := { s with pr := if edge then { s.pr with edgeAt := s.clk.now } else { s.pr with frameAt := s.clk.now } }
  let other := if edge then s.pr.frameAt else s.pr.edgeAt
  if other + usCyc 400 ≤ s.clk.now then { s with pr := { s.pr with diag := setBit s.pr.diag 5 } } else s

/-- LEASE_RX: a LEASE frame with its number, or an edge on LEASE_IN. A unit without a role becomes banked; a banked unit answers
LACK and toggles its LEASE_OUT; of two burning units the one not preferred gives up every channel at once (R440, R441,
Table 15.9).
Log entry 52 (DEDUCED, DESIGN CHOICE). -/
def leaseRx (s : State) (no : Option Word) : State :=
  if !s.pr.fitted then s
  else
    let s := if s.pr.role = 0 then takeRole s 2 else s
    if s.pr.role = 2 then
      let s := leaseHeard s no.isNone
      match no with
      | none => s
      | some n => pairSend { s with pr := { s.pr with leaseNo := n, leaseOut := !s.pr.leaseOut } } 0x03 n []
    else match no with
      | none => { leaseHeard s true with pr := { (leaseHeard s true).pr with partnerLost := false } }
      | some _ =>
        let s := prInt s 3
        if preferred s then s else takeRole (allCh.foldl yieldPort s) 2

/-- LACK_RX: the burning unit hears its partner, by a LACK frame or an edge (R441). -/
def lackRx (s : State) (edge : Bool) : State :=
  if s.pr.role = 1 then
    let s := leaseHeard s edge
    { s with pr := { s.pr with partnerLost := false } }
  else s

/-- LACK_LOSS: 400 us without either sets PARTNER_LOST (R441). -/
def lackLoss (s : State) : State :=
  if s.pr.role = 1 then
    let s := reachTime s (max s.pr.frameAt s.pr.edgeAt + usCyc 400)
    { s with pr := { s.pr with partnerLost := true } }
  else s

/-- The lease is held (R441). -/
def leaseHeld (s : State) : Bool := s.pr.role = 2 && decide (s.clk.now < max s.pr.frameAt s.pr.edgeAt + usCyc 400)

/-- LEASE_EXPIRY: the banked unit is burning in that cycle. `busy` are the channels whose H_CS_N is low: their transactions are
cut, with an escalation where PAIR_CUT_REBOOT is set (R442). -/
def leaseExpiry (s : State) (busy : BitVec 32) : State :=
  if s.pr.role = 2 then
    let s := reachTime s (max s.pr.frameAt s.pr.edgeAt + usCyc 400)
    let s := takeRole { s with pr := { s.pr with cntExp := satInc s.pr.cntExp } } 1
    let s := { s with pr := { s.pr with cut := busy } }
    let s := allCh.foldl (fun s p => cutPort s p true) s
    let s := (allCh.filter (fun c => busy.getLsbD c.val && (s.ch[c]).cfg.pairCutReboot)).foldl
      (fun s c => escalate s c none false) s
    restartPmb s
  else s

/-- PR_CTL.YIELD: only where the partner is IN_STEP (R445). -/
def pairYield (s : State) (m : Master) : State :=
  let fit : Bool := match s.pr.partner with | some p => p.step = 2 | none => false
  if mayWrite s m 16 true ∧ fit then startYield s else s

/-- The connected channels. -/
def connMask (s : State) : BitVec 32 := allCh.foldl (fun m c => if connected s.ch[c] then setBit m c.val else m) 0

/-- HANDOVER: at a cycle with every H_CS_N high, or a channel at a time once HANDOVER_MS has passed, the yielding unit gives up
control, and its partner drives from the next fall (R445). `busy` are the channels whose H_CS_N is low.
Log entry 52 (DEDUCED, DESIGN CHOICE). -/
def handover (s : State) (busy : BitVec 32) : State :=
  let conn := connMask s
  let give := fun (s : State) =>
    let new := ~~~busy &&& ~~~s.pr.given
    let s := (allCh.filter (fun c => new.getLsbD c.val)).foldl yieldPort s
    { s with pr := { s.pr with given := s.pr.given ||| ~~~busy } }
  if s.pr.role = 1 then
    match s.pr.yielding with
    | none => s
    | some t =>
      let s := if busy &&& conn = 0 then s else reachTime s (t + msCyc s.pr.handoverMs)
      let s := give s
      if conn &&& ~~~s.pr.given = 0 then
        let s := takeRole s 2
        prInt { s with pr := { s.pr with step := 2, stateDone := true, caughtUp := true } } 1
      else s
  else if s.pr.role = 2 then
    let s := give s
    if conn &&& ~~~s.pr.given = 0 then restartPmb (takeRole { s with pr := { s.pr with handover := s.pr.handover + 1 } } 1) else s
  else s

/-- CLAIM: sent by a preferred banked unit IN_STEP with a clean time of 10 s; a burning unit that hears it yields (R447). -/
def claim (s : State) : State :=
  if s.pr.role = 2 then
    if s.pr.reclaim ∧ preferred s ∧ s.pr.step = 2 ∧ 10 ≤ cleanTime s then pairSend s 0x05 (s.pr.handover + 1) [] else s
  else startYield s

/-- A failing input of this unit, and of its partner, in the last 1 s. -/
def ownFailing (s : State) : Bool := s.pr.failed && decide (cleanTime s = 0)
def partnerFailing (s : State) : Bool :=
  match s.pr.partnerDiag with | some (d, _) => decide (d.clean = 0) && decide (bf d.diag 0 5 ≠ 0) | none => false

/-- A verdict block differs (R446). -/
def verdictDiffers (s : State) : State :=
  let s := { s with pr := { s.pr with cntMis := satInc s.pr.cntMis } }
  if ownFailing s == partnerFailing s then prInt s 2
  else if ownFailing s then
    if s.pr.role = 1 then startYield s else { s with pr := { s.pr with step := 1 } }
  else s

/-- A block number, this unit's CRC and the partner's, for the blocks both hold. -/
def bothBlocks (v : VStream) : List (Nat × Word × Word) :=
  v.mine.filterMap (fun x => match aget v.theirs x.1 with | some c => some (x.1, x.2, c) | none => none)

/-- How many of them differ. -/
def differing (v : VStream) : Nat := ((bothBlocks v).filter (fun x => !(x.2.1 == x.2.2))).length

/-- The stream without them. -/
def settleStream (v : VStream) : VStream :=
  let ns := (bothBlocks v).map (·.1)
  { v with mine := v.mine.filter (fun x => !ns.contains x.1), theirs := v.theirs.filter (fun x => !ns.contains x.1) }

/-- Put a stream in place. -/
def putStream (s : State) (v : VStream) : State :=
  { s with pr := { s.pr with streams := v :: s.pr.streams.filter (fun x => !(x.perBind == v.perBind && x.idx == v.idx)) } }

/-- Resolve a number of differing blocks. -/
def verdictRun : Nat → State → State
  | 0, s => s
  | n + 1, s => verdictRun n (verdictDiffers s)

/-- Compare the blocks of a stream that both units hold; only while the banked unit is IN_STEP (R446). -/
def compareStream (s : State) (v : VStream) : State :=
  let s := putStream s (settleStream v)
  if s.pr.step = 2 then verdictRun (differing v) s else s

/-- Send the closed blocks not yet sent, and compare (R446). -/
def pumpBlocks (s : State) : State :=
  if !s.pr.fitted then s
  else s.pr.streams.foldl (fun s v =>
    let new := v.mine.filter (fun x => decide (v.sent ≤ x.1))
    let s := new.foldl (fun s x => pairSend s 0x06 0
      ([BitVec.ofNat 8 (b2n v.perBind), BitVec.ofNat 8 v.idx, 0, 0] ++ beBytes 4 x.1 ++ wordBytes x.2)) s
    compareStream s { v with sent := v.no }) s

/-- VBLOCK_RX (R446). -/
def vblockRx (s : State) (b : VerdictBlock) : State :=
  if !s.pr.fitted then s
  else
    let v : VStream := (s.pr.streams.find? (fun v => v.perBind = b.perBind && v.idx = b.idx.toNat)).getD
      { perBind := b.perBind, idx := b.idx.toNat, count := 0, crc := BitVec.allOnes 32, no := 0, mine := [], theirs := [] }
    compareStream s { v with theirs := aput v.theirs b.no b.crc }

/-- This unit has completed the adaptation pass of a 16-bit number. -/
def passDone (s : State) (n : Nat) : Bool := decide ((s.ec.passes + 65536 - n % 65536) % 65536 < 32768)

/-- The changes of the burning unit's pass that are due here take effect (R173). -/
def applyAdapts (s : State) : State :=
  let due := fun (n : PairNotice) => match n with | .adapt p _ _ _ _ => passDone s p | _ => true
  let l := s.pr.adapts.filter due
  l.foldl (fun s n => match n with
    | .adapt _ c q d v => modCh s c (fun k => { k with quota := q, depth := d, div := v })
    | _ => s) { s with pr := { s.pr with adapts := s.pr.adapts.filter (fun n => !due n) } }

/-- NOTICE_RX (R173, R287, R448). A change of the adaptation pass is applied at the same pass number. -/
def noticeRx (s : State) (n : PairNotice) : State :=
  if s.pr.role ≠ 2 then s
  else match n with
    | .pmbStep i done => noticeStep s i done
    | .adapt _ _ _ _ _ => applyAdapts { s with pr := { s.pr with adapts := s.pr.adapts ++ [n] } }
    | .pseq node q crc => sendCopies 64 { s with pr := { s.pr with
        pseq := aput s.pr.pseq node.val (q + 1), announced := s.pr.announced ++ [(node.val, q, crc)] } }

/-- A STATE record of the burning unit, as a syncing unit applies it (R443). -/
def applyState (s : State) : PairState → State
  | .step i done => modStep s i (fun r => { r with st := if done then .done else .failed })
  | .bankMap c i b g => setBset s c i (fun x => { x with activeB := b, goldSel := g })
  | .subst c m => modCh s c (fun k => { k with subst := m })
  | .esc c held n => modCh s c (fun k => { k with escHeld := held, escCount := n })
  | .clkHold m => { s with ve := { s.ve with clkHold := m } }
  | .clinker b k man i =>
    let e : ClinkerEnt := ⟨b.toNat, if k = 0 then .a else if k = 1 then .b else .g, man, i⟩
    if s.ve.clist.contains e then s else { s with ve := { s.ve with clist := s.ve.clist ++ [e] } }
  | .quota c n => modCh s c (fun k => { k with quota := n })
  | .instance_ n a => { s with inst := s.inst.set n { s.inst[n] with st := if a then .active else .dormant } }
  | .queue n out ms => modBox s n (fun b => if out then { b with outq := ms } else { b with inq := ms })
  | .bulk n dev o bs => modBox s n (fun b => { b with bulkDev := dev, bulk := memWrite 0 b.bulk o (bs.take (4096 - o)) })
  | .lock k o => { s with mb := { s.mb with locks := s.mb.locks.set k o } }
  | .seqNo n out w q => modBox s n (fun b =>
      if out then { b with outSeq := aput b.outSeq w.toNat q.toNat } else { b with inSeq := aput b.inSeq w.toNat q.toNat })
  | .pseq node q => { s with pr := { s.pr with pseq := aput s.pr.pseq node.val q } }

/-- STATE_RX (R443). -/
def stateRx (s : State) (r : PairState) : State :=
  if s.pr.role = 2 ∧ s.pr.step = 1 then
    tryInStep (regate (applyState { s with pr := { s.pr with stateDone := true } } r))
  else s

/-- The bytes of a STATE record; their layout is the model's.
Log entry 52 (DEDUCED, DESIGN CHOICE). -/
def stateBytes : PairState → List Byte
  | .step i d => [1, BitVec.ofNat 8 i.val, BitVec.ofNat 8 (b2n d), 0]
  | .bankMap c i b g => [2, BitVec.ofNat 8 c.val, BitVec.ofNat 8 i.val, BitVec.ofNat 8 (b2n b + 2 * b2n g)]
  | .subst c m => [3, BitVec.ofNat 8 c.val, 0, 0] ++ beBytes 8 m.toNat
  | .esc c h n => [4, BitVec.ofNat 8 c.val, BitVec.ofNat 8 (b2n h), BitVec.ofNat 8 n]
  | .clkHold m => [5, 0, 0, 0] ++ beBytes 4 m.toNat
  | .clinker b k man i => [6, b, BitVec.ofNat 8 k.val, BitVec.ofNat 8 (b2n man)] ++ beBytes 4 i
  | .quota c n => [7, BitVec.ofNat 8 c.val] ++ beBytes 2 n
  | .instance_ n a => [8, BitVec.ofNat 8 n.val, BitVec.ofNat 8 (b2n a), 0]
  | .queue n out ms => [9, BitVec.ofNat 8 n.val, BitVec.ofNat 8 (b2n out), BitVec.ofNat 8 ms.length] ++ ms.flatten.flatMap wordBytes
  | .bulk n dev o bs => [10, BitVec.ofNat 8 n.val, BitVec.ofNat 8 (b2n dev), 0] ++ beBytes 4 o ++ bs
  | .lock k o => [11, BitVec.ofNat 8 k.val, BitVec.ofNat 8 (match o with | some i => i.val + 1 | none => 0), 0]
  | .seqNo n out w q => [12, BitVec.ofNat 8 n.val, w, q, BitVec.ofNat 8 (b2n out), 0, 0, 0]
  | .pseq n q => [13, BitVec.ofNat 8 n.val] ++ beBytes 2 q.toNat

/-- The STATE records of a channel, and of an instance (R443). -/
def chanRecords (s : State) (c : Ch) : List PairState :=
  let k := s.ch[c]
  if !connected k then []
  else (List.finRange 15).filterMap (fun i => if i.val < k.cfg.bsets.length then some (.bankMap c i (k.bset[i]).activeB (k.bset[i]).goldSel) else none) ++
    [.subst c k.subst, .esc c k.escHeld k.escCount, .quota c k.quota]
def instRecords (s : State) (n : Inst) : List PairState :=
  let b := s.mb.box[n]
  if (s.inst[n]).st ≠ .active then []
  else [.instance_ n true, .queue n false b.inq, .queue n true b.outq] ++
    (List.range 18).map (fun k => .bulk n b.bulkDev (240 * k) (bulkRead b (240 * k) (min 240 (4096 - 240 * k)))) ++
    b.inSeq.map (fun x => .seqNo n false (BitVec.ofNat 8 x.1) (BitVec.ofNat 8 x.2)) ++
    b.outSeq.map (fun x => .seqNo n true (BitVec.ofNat 8 x.1) (BitVec.ofNat 8 x.2))

/-- Every STATE record of the burning unit (R443). -/
def stateRecords (s : State) : List PairState :=
  (allSteps s).filterMap (fun i => match (s.sq.steps[i]).st with | .done => some (.step i true) | .failed => some (.step i false) | _ => none) ++
  allCh.flatMap (chanRecords s) ++ [.clkHold s.ve.clkHold] ++
  s.ve.clist.map (fun e => .clinker (BitVec.ofNat 8 e.bind) (match e.bank with | .a => 0 | .b => 1 | .g => 2) e.man e.idx) ++
  (List.finRange 64).flatMap (instRecords s) ++ (List.finRange 16).map (fun k => .lock k s.mb.locks[k]) ++
  s.pr.pseq.map (fun x => .pseq (nodeFin x.1) x.2)

/-- CATCH_UP_PASS: the burning unit sends its STATE records and reads every manifest area and strict ember, on a background-class billet
and without placing the data; without a billet the pass waits. The banked unit has sampled the pass (R443).
Log entry 52 (DEDUCED, DESIGN CHOICE). -/
def catchUp (s : State) : State :=
  if s.pr.role = 1 then
    match draw .bg .hearth none false .adapt s with
    | (none, s) => s
    | (some id, s) =>
      let s := retire s id
      (stateRecords s).foldl (fun s r => pairSend s 0x08 0 (stateBytes r)) { s with pr := { s.pr with caughtUp := true } }
  else if s.pr.role = 2 then tryInStep { s with pr := { s.pr with caughtUp := true } }
  else s

/-- PR_MSG_CTL.SEND: one message of 1-16 words; whether the partner's slot was occupied is its affair, and FULL a free value.
Log entry 52 (DEDUCED, DESIGN CHOICE). -/
def pairMsgSend (s : State) (m : Master) : State :=
  let h := s.pr.tx[(0 : Fin 16)]
  let len := hdrLen h
  if !mayWrite s m 16 true ∨ len < 1 ∨ 16 < len ∨ !s.pr.fitted then s
  else
    let ws := stampHdr h 0xFE s.pr.txSeq.toNat :: (s.pr.tx.toList.take len).drop 1
    let full := (Config.freeByte s.clk.free).getLsbD 0
    useFree (pairSend { s with pr := { s.pr with txSeq := s.pr.txSeq + 1, full := full } } 0x0A 0 (ws.flatMap wordBytes)) 1

/-- PR_MSG_CTL.POP. -/
def pairMsgPop (s : State) (m : Master) : State := if mayWrite s m 16 true then { s with pr := { s.pr with rx := none } } else s

/-- PAIR_MSG_RX: the single receive slot takes a message while it is empty; its header carries sender 0xFE. -/
def pairMsgRx (s : State) (ws : List Word) : State :=
  if s.pr.fitted ∧ s.pr.rx = none then
    let h := ws.headD 0
    prInt { s with pr := { s.pr with rx := some (stampHdr h 0xFE (bf h 16 8) :: ws.drop 1) } } 4
  else s

/-- DIAG_RX (R444, R445, Table 15.9). -/
def diagRx (s : State) (d : PairDiag) : State :=
  if !s.pr.fitted then s
  else
    let s := { s with pr := { s.pr with partnerDiag := some (d, s.clk.now) } }
    if ownFailing s ∧ partnerFailing s then prInt s 2
    else if ownFailing s ∧ partnerFit s then startYield s
    else s

/-- PAIR_HELLO_DIAG_TIMER (R439, Table 15.6). -/
def pairTimer (s : State) : State :=
  if !s.pr.fitted then s
  else
    let s := pairSend s 0x01 0 (otpSerial s ++ [BitVec.ofNat 8 (b2n s.pr.ord), s.pr.role.setWidth 8, s.pr.step.setWidth 8, 0] ++ digBytes s.st.digest)
    pairSend s 0x09 0 [s.pr.diag.setWidth 8, BitVec.ofNat 8 (cleanTime s), 0, 0]

/-- A PAIR section is locked: the unit has no role and listens (R440). -/
def pairLock (s : State) : State :=
  { s with pr := { s.pr with
    fitted := true, burning := false, role := 0, step := 0, failAt := s.clk.now
    link := { s.pr.link with st := .down, since := s.clk.now } } }

end Sys2Proof.Machine
end

