-- ==== Sys2Proof/Machine/OwnStore.lean ====
section
/-! DEFINITION. Kindling's own-store operations (R401), their place among the own store's accesses (R219), and the suspension an
erase causes (R435). -/

namespace Sys2Proof.Machine

/-- The queue of the hearth account, and of an instance, at the own store. -/
def osWeight (s : State) (q : Nat) : Nat :=
  if h : q < 64 then (s.bt.pools[(s.inst[q]).cfg.pool]).osW else s.bt.arb.devOsW

/-- The sources of pending drains with the microsecond in which their oldest undrained record was written, in the order in
which equal ones are served (R219): tamper, sequencer, verification, grate, ember cache.
Log entry 22 (DEDUCED, DESIGN CHOICE). -/
def drainOrder (s : State) : List (Nat × Nat) :=
  let h := fun (src : Nat) (l : List Nat) => (l.head?).map (fun t => (src, t / usCyc 1))
  let tamper := if s.tp.battery ∨ 0 < s.tp.ao.unchained ∨ (s.tp.ao.overflow ∧ s.tp.ao.times.length = 1) then none
    else h 5 s.tp.ao.times
  [tamper, h 4 s.sq.log.times, h 2 s.ve.log.times, h 1 s.grLog.times, h 3 s.ec.log.times].filterMap id

/-- The first of least time. -/
def oldest : List (Nat × Nat) → Option (Nat × Nat)
  | [] => none
  | x :: t => match oldest t with | none => some x | some y => if y.2 < x.2 then some y else some x

/-- A leaf-reservation write waits for the own store: it is first of all (R219). -/
def leafPending (s : State) : Bool :=
  (List.finRange 2).any (fun j => let k := s.mb.lms[j]; k.valid && k.jbusy && !k.jfail)

/-- A drain is pending and a background billet for it is to be had. -/
def drainPending (s : State) : Bool :=
  !(drainOrder s).isEmpty && (draw .bg .hearth none false .drain s).1.isSome

/-- The hearth operation's entry; job-DMA channels use their own numbers. -/
def osOpId : Nat := 16

/-- The next own-store access by R219: the entry, and the arbiter after its grant.
Log entry 57 (DESIGN CHOICE). -/
def osPick (s : State) : Option (QItem × Bool × Arb) :=
  arbPick s.clk.now (msCyc s.bt.arb.osAgeMs) 65 4096 (osWeight s) s.os.arb

/-- A free port is granted: leaf-reservation writes and drains go ahead of every queued access (R219). A banked unit arbitrates
nothing (R223).
Log entry 57 (DESIGN CHOICE). -/
def osKick (s : State) : State :=
  if s.os.cur.isSome || osErasing s || leafPending s || drainPending s || isBanked s then s
  else match osPick s with
    | some (h, _, a) => { s with os := { s.os with arb := a, cur := some h.id } }
    | none => s

/-- An access waits for the own store or holds it. -/
def osQueued (s : State) (id : Nat) : Bool := s.os.arb.items.any (fun i => i.id = id) || decide (s.os.cur = some id)

/-- The access holds the own store, to which it may have been granted just now. A banked unit follows what it samples on the wire
(R223).
Log entry 34 (DEDUCED, DESIGN CHOICE). -/
def osGrant (s : State) (id : Nat) : Option State :=
  if osErasing s then none
  else if isBanked s then (if osQueued s id then some s else none)
  else
    let s := osKick s
    if s.os.cur = some id then some s else none

/-- Queue an access of an owner for the own store. -/
def osEnq (s : State) (id q cost : Nat) : State :=
  osKick { s with os := { s.os with arb := arbPush s.os.arb { id := id, q := q, cost := cost, enq := s.clk.now } } }

/-- Queue an access that is not queued yet. -/
def osAsk (s : State) (id q cost : Nat) : State := if osQueued s id then s else osEnq s id q cost

/-- An access has ended, or goes without its data: the port is granted again. -/
def osDequeue (s : State) (id : Nat) : State := osKick (osCut s id)

/-- The flash holds the bytes: 32 MiB at the least on chip select 0 (R396); what is fitted beyond is not part of the
specification.
Log entry 53 (DESIGN CHOICE). -/
def osFits (a n : Nat) : Bool :=
  if a < 0x8000000 then decide (a + n ≤ 0x2000000) || decide (a + n ≤ Config.osFlash 0)
  else decide (a - 0x8000000 + n ≤ Config.osFlash 1)

/-- GC_OS_CTL.GO with an OP (R401). -/
def osGo (s : State) (m : Master) (op : Nat) : State :=
  if !mayWrite s m 0 true then s
  else
    let s := { s with os := { s.os with ctlOp := BitVec.ofNat 2 op } }
    let fail := fun (e : BitVec 3) => { s with os := { s.os with err := e } }
    let a := s.os.addr.toNat
    let n := if op = 1 then s.os.ctlLen.toNat else if op = 2 then 4096 else 65536
    let src := s.os.src.toNat
    if s.os.op.isSome then fail 1
    else if op = 1 ∧ (n = 0 ∨ 256 < n) then fail 3
    else if op = 1 ∧ (256 < a % 256 + n ∨ src % 4 ≠ 0 ∨ !inRam src n) then fail 2
    else if op ≠ 1 ∧ a % n ≠ 0 then fail 2
    else if !osFits a n then fail 4
    else
      let data := if op = 1 then ramRead s src n else []
      osEnq { s with os := { s.os with err := 0, op := some { op := op, addr := a, data := data, issued := none } } } osOpId 64 n

/-- OWN_STORE_ERASE_ISSUE: the erase goes to the flash, and watchdogs and task sets are suspended (R435). -/
def eraseIssue (s : State) : State :=
  match s.os.op with
  | some o =>
    if o.op = 1 ∨ o.issued.isSome then s
    else match osGrant s osOpId with
      | none => s
      | some s => wdSuspend { s with os := { s.os with op := some { o with issued := some s.clk.now } } }
  | none => s

/-- An operation has ended. -/
def osDone (s : State) (err : BitVec 3) : State :=
  osDequeue (wdResume { s with os := { s.os with op := none, done := true, err := err } }) osOpId

/-- OS_OPERATION_END: the program or the erase is complete; a flash that failed leaves free bytes and ERR 5 (R401).
Log entry 53 (DESIGN CHOICE). -/
def osEnd (s : State) (failed : Bool) : State :=
  match s.os.op with
  | none => s
  | some o =>
    if o.op = 1 then
      match osGrant s osOpId with
      | none => s
      | some s =>
        if failed then
          let s := osDone { s with os := { s.os with
            mem := memWrite 0xFF s.os.mem o.addr ((List.range o.data.length).map (fun i => Config.freeByte (s.clk.free + i))) } } 5
          useFree s o.data.length
        else osDone (osProg s o.addr o.data) 0
    else if o.issued.isNone then s
    else if failed then osDone (osTorn s) 5
    else osDone (osErase s o.addr (if o.op = 3 then 65536 else 4096)) 0

/-- ERASE_MAX_EXPIRY: an erase outstanding for ERASE_MAX ends with ERR 5; what it leaves in the flash is free (R401).
Log entry 53 (DESIGN CHOICE). -/
def eraseMaxExpiry (s : State) : State :=
  match s.os.op with
  | some o =>
    match o.issued with
    | some t => osDone (osTorn (reachTime s (t + msCyc (10 * s.wd.eraseMax)))) 5
    | none => s
  | none => s

end Sys2Proof.Machine
end

