-- ==== Sys2Proof/Machine/FlashOps.lean ====
section
/-! DEFINITION. What the flash-side ports bring: completed fills and rereads, committed writes and their status, raw transfers
(R48, R60-R62, R91, R140). -/

namespace Sys2Proof.Machine

/-- Core cycles the read in progress takes for `n` bytes, at the divider it began with (R169). -/
def readCycles (s : State) (p : Ch) (cs : Bool) (a : Access) (n : Nat) : Nat :=
  let f := flashOf s p cs
  let (_, _, dl, ddr) := fmodeLanes f.fmode
  readLead s p a.div f + cdiv (8 * n * max 1 a.div) (16 * (if ddr then 2 * dl else dl))

/-- The access in progress on a port ends: the same read goes on with the next ember of a relayed transaction (R48), or the port
is free. -/
def portFree (s : State) (p : Ch) : State :=
  match s.port[p].cur with
  | some ⟨_, _, _, _, _, _, i :: rest⟩ =>
    modPort (portStart s p i .read false false) p (fun x => { x with cur := x.cur.map (fun a => { a with chain := rest }) })
  | _ => modPort s p (fun x => { x with cur := none })

/-- The data of an ember are complete in its frame: CHECKING (R140). -/
def frameFilled (s : State) (f : Nat) (data : List Byte) : State :=
  setFrame s f (fun x => ⟨.checking, x.id, x.pin, x.rank, x.pf, data⟩)

/-- FILL_COMPLETE: the read in progress on a port has its 4,096 bytes. A fill's billet retires, but for a provisional slot,
which keeps it until it closes (R211); the ember's check is queued, or the fill is discarded where its bank serves no more, but
for data that a slot has released (R123, R165). A dependent's read and a scrub read hand their data to their unit (R109, R112,
R113, R129, R130).
Log entry 18 (DESIGN CHOICE, DEDUCED). -/
def fillComplete (s : State) (p : Ch) (data : List Byte) : State :=
  match s.port[p].cur with
  | none => s
  | some a =>
    let uid := a.item.id
    if a.kind ≠ .read ∨ data.length ≠ 4096 then s
    else match unitOf s uid with
      | none => portFree s p
      | some u =>
        let s := portFree (reachTime s (a.startAt + readCycles s p (workCs s u.work) a (4096 - u.resume))) p
        let s := setResume s uid 0
        match u.work with
        | .fill id _ f =>
          let s := if s.ch[id.ch].slots.any (fun x => x.billet = uid) then setWork s uid (.slot id) else retire s uid
          let s := slotTo s id .queued
          if isServing s id then settleAll (startCheck (frameFilled s f data) (some f) id data)
          else
            let s := freeFrame s f
            settleAll (if (slotOf s id).isSome then startCheck s none id data else s)
        | .readFor up id =>
          let held := allCh.any (fun c => s.ch[c].slots.any (fun x => x.billet = uid))
          settleAll (unitTake (if held then setWork s uid (.slot id) else retire s uid) up data)
        | .scrub _ _ _ _ _ => scrubTake s uid data
        | _ => s

/-- A committed write draws its fill billet and queues for its port; without a billet it stays the channel's pending write
(R91).
Log entry 17 (DEDUCED, DESIGN CHOICE). -/
def writeDraw (s : State) (c : Ch) : State :=
  match s.ch[c].wr with
  | none => s
  | some w =>
    match w.st, w.billet with
    | .pending, none =>
      match draw .fill (.ch c) none false (.write c) s with
      | (none, s) => s
      | (some id, s) => portEnq (modCh s c (fun k => { k with wr := some { w with st := .queued, billet := some id } })) w.fp id false
    | _, _ => s

/-- WRITE_EXECUTE: pending writes of the port ask for a billet; the write access in progress has sent WREN and the operation,
and its flash is busy (R88, R91).
Log entry 17 (DEDUCED, DESIGN CHOICE). -/
def writeExecute (s : State) (p : Ch) : State :=
  let s := (allCh.filter (fun c => match s.ch[c].wr with | some w => w.fp = p | none => false)).foldl writeDraw s
  match s.port[p].cur with
  | none => s
  | some a =>
    if a.kind ≠ .write then s
    else match unitOf s a.item.id with
      | some u =>
        (match u.work with
        | .write c =>
          (match s.ch[c].wr with
          | some w =>
            let s := modCh s c (fun k => { k with wr := some { w with st := .polling s.clk.now } })
            modPort s p (fun x => { x with
              cur := none, status := x.status ++ [a.item.id]
              busy0 := if w.cs then x.busy0 else some a.item.id, busy1 := if w.cs then some a.item.id else x.busy1 })
          | none => portFree s p)
        | _ => s)
      | none => portFree s p

/-- STATUS_POLL: a status read of a committed write ends. A busy flash is asked again 20 us later; an idle one ends the write,
and emulated WIP and WEL clear together (R56, R91).
Log entry 17 (DEDUCED, DESIGN CHOICE). -/
def statusPoll (s : State) (p : Ch) (status : Byte) : State :=
  match s.port[p].cur with
  | none => s
  | some a =>
    if a.kind ≠ .status then s
    else match unitOf s a.item.id with
      | some u =>
        (match u.work with
        | .write c =>
          (match s.ch[c].wr with
          | some w =>
            let s := portFree s p
            if status &&& (flashOf s p w.cs).wipMask ≠ 0 then
              let s := modCh s c (fun k => { k with wr := some { w with st := .polling s.clk.now } })
              modPort s p (fun x => { x with status := x.status ++ [a.item.id] })
            else
              let s := modCh s c (fun k => { k with wr := none, wip := false, wel := false })
              let s := modPort s p (fun x => { x with
                busy0 := if w.cs then x.busy0 else none, busy1 := if w.cs then none else x.busy1 })
              pumpStage (settleAll (retire s a.item.id))
          | none => portFree s p)
        | _ => s)
      | none => portFree s p

/-! Raw transfers. -/

/-- The channels a write of a CH or GR register reaches (R69). -/
def chTargets (s : State) (m : Master) : List Ch := if (selOf s m).bcast then allCh else [(selOf s m).ch]

/-- Whether a fill billet is on a port and has no access and no committed write. -/
def fillQueued (s : State) (p : Ch) (cur : Nat) (e : Nat × Billet) : Bool :=
  e.2.cls == .fill && !(e.1 == cur) &&
    (match e.2.work with
    | .write _ => false
    | w => (match fillEmber s w with
      | some id => id.fp == p
      | none => s.port[p].heads.any (fun i => i.id = e.1) || s.port[p].arb.items.any (fun i => i.id = e.1)))

/-- Fill-class units on a port that have not been granted an access and are no committed write. -/
def queuedFills (s : State) (p : Ch) : List Nat :=
  let cur : Nat := match s.port[p].cur with | some a => a.item.id | none => 4096
  (s.bt.units.filter (fillQueued s p cur)).map (·.1)

/-- Any fill billet on a port, a committed write's included. -/
def fillsOn (s : State) (p : Ch) : Bool :=
  !(queuedFills s p).isEmpty ||
  (match s.port[p].cur with
    | some a => (match unitOf s a.item.id with | some b => b.cls = .fill | none => false)
    | none => false) ||
  allCh.any (fun c => match s.ch[c].wr with | some w => w.fp = p | none => false)

/-- OWN_REQ on one channel: a request is a hold, and the port starts no fill, so the fills that wait are squashed; 0 ends
ownership and any transfer (R60).
Log entry 17 (DEDUCED, DESIGN CHOICE). -/
def ownReqAt (s : State) (c : Ch) (v : Bool) : State :=
  if v then
    if s.ch[c].raw.ownReq then s
    else
      let s := modRaw s c (fun r => { r with ownReq := true })
      let dead := queuedFills s c
      let s := allCh.foldl (fun s k => (s.ch[k].slots.filter (fun x => dead.contains x.billet)).foldl (fun s x => abandonSlot s k x) s) s
      settleAll (squash s dead)
  else settleAll (modRaw s c (fun r => { r with ownReq := false, own := false, busy := false, held := false }))

/-- RAW_OWNERSHIP_GRANT (R60). The banked unit of a pair drives no flash-side line (R22), so it is granted none.
Log entry 17 (DEDUCED, DESIGN CHOICE). -/
def rawGrant (s : State) (p : Ch) : State :=
  if !isBanked s ∧ s.ch[p].raw.ownReq ∧ !s.ch[p].raw.own ∧ !fillsOn s p ∧
    allCh.all (fun c => !(portsOf s.ch[c]).contains p || hostHeld s c) then
    modRaw s p (fun r => { r with own := true })
  else s

/-- Bits of a transfer (CH_RAW_LEN). -/
def rawLen (r : Raw) : Nat := if r.len = 0 then 4096 else r.len.toNat

/-- Bits a clock edge moves. -/
def rawBits (r : Raw) : Nat := 2 ^ r.lanes.toNat * (if r.ddr then 2 else 1)

/-- Bit `i` of the raw buffer in wire order (R61). -/
def rawBit (r : Raw) (i : Nat) : Bool := if h : i / 32 < 128 then (r.buf[i / 32]).getLsbD (31 - i % 32) else false

/-- Capture bits into the buffer from bit 31 of word 0 on. -/
def rawCapture (r : Raw) : Nat → List Bool → Raw
  | _, [] => r
  | i, b :: t =>
    if h : i / 32 < 128 then rawCapture { r with buf := r.buf.set (i / 32) (putBit r.buf[i / 32] (31 - i % 32) b) } (i + 1) t else r

/-- START on one channel (R61, R62); a START during a transfer has no effect, and a banked unit drives nothing (R22).
Log entry 17 (DEDUCED, DESIGN CHOICE). -/
def rawStartAt (s : State) (c : Ch) : State :=
  let r := s.ch[c].raw
  let fail := fun (e : Nat) => modRaw s c (fun r => { r with err := true, errcode := e })
  if r.busy then s
  else if !r.own || isBanked s then fail 1
  else if rawLen r < r.out.toNat then fail 2
  else if 8 ≤ c.val ∧ (r.lanes = 3 ∨ r.ddr) then fail 3
  else modRaw s c (fun r => { r with
    busy := true, errcode := 0, edges := cdiv (rawLen r) (rawBits r), driven := (List.range r.out.toNat).map (rawBit r) })

/-- ABORT on one channel: the transfer ends at the next edge and the chip select is released; the bits captured by then stay. -/
def rawAbortAt (s : State) (c : Ch) (edges : Nat) (bits : List Bool) : State :=
  let r := s.ch[c].raw
  if !r.busy then modRaw s c (fun r => { r with held := false })
  else modRaw s c (fun r => { rawCapture r 0 (bits.take (edges * rawBits r - r.out.toNat)) with
    busy := false, done := true, err := true, errcode := 4, held := false, edges := min edges r.edges })

/-- RAW_TRANSFER_END: the remaining bits are captured (R61), under the lengths and lanes that stand at the end.
Log entry 17 (DEDUCED, DESIGN CHOICE). -/
def rawEnd (s : State) (p : Ch) (bits : List Bool) : State :=
  let r := s.ch[p].raw
  if r.busy then
    let n := rawLen r - r.out.toNat
    modRaw s p (fun r => { rawCapture r 0 ((bits ++ List.replicate n false).take n) with busy := false, done := true, held := r.holdCs })
  else s

end Sys2Proof.Machine
end

