-- ==== Sys2Proof/Machine/HostPort.lean ====
section
/-! DEFINITION. The host-side ports: the opcode tables, completion, overspeed, abnormal transactions, emulated status, and the
classes that carry no address (R33-R40, R52-R58, R71, R77, R502, R503). -/

namespace Sys2Proof.Machine

/-- The active profile (R38). -/
def profOf (k : Chan) : Profile := if k.altOn then k.cfg.alt.getD k.cfg.rst else k.cfg.rst

/-- The entry an opcode selects, and its fields (Tables 2.2 and 3.4). -/
def opcOf (k : Chan) (op : Byte) : Word := (profOf k).opc[op.toNat]'(op.isLt)
def opcClass (e : Word) : Nat := bf e 0 5
def opcAlen (e : Word) : Nat := bf e 5 2
def opcAlanes (e : Word) : Nat := bf e 7 2
def opcValid (e : Word) : Bool := e.getLsbD 20
def opcReg (e : Word) : Nat := bf e 21 3
def opcAct (e : Word) : Nat := bf e 24 2
def opcLog (e : Word) : Bool := e.getLsbD 26
def opcBig (e : Word) : Bool := e.getLsbD 27

/-- Bytes of a data unit: 2 in 8D (R35). -/
def unitLen (k : Chan) : Nat := if (profOf k).proto = 3 then 2 else 1

/-- The second command byte of an 8D command matches the profile's extension form (R37). -/
def extOk (k : Chan) (t : HostTxn) : Bool :=
  (profOf k).proto != 3 || t.ext == (if (profOf k).extInv then ~~~t.op else t.op)

/-- The class a transaction decodes to; 0 for UNKNOWN (R37, R501).
Log entry 10 (DEDUCED). -/
def txnClass (k : Chan) (t : HostTxn) : Nat :=
  let e := opcOf k t.op
  if opcValid e ∧ extOk k t ∧ opcClass e < 18 then opcClass e else 0

/-- Address bytes of an entry under the port's address mode. -/
def addrBytes (k : Chan) (e : Word) : Nat :=
  match opcAlen e with
  | 0 => 0
  | 1 => 3
  | 2 => 4
  | _ => if k.addr4 then 4 else 3

/-- The virtual address of a transaction's first data unit. -/
def txnAddr (k : Chan) (e : Word) (t : HostTxn) : Nat :=
  match addrBytes k e with
  | 0 => 0
  | 3 => t.addr.toNat % 2 ^ 24
  | _ => t.addr.toNat

/-- Command edges of the active profile (Tables 2.4-2.6). -/
def opcEdges (k : Chan) : Nat :=
  match (profOf k).proto with
  | 0 => 8
  | 1 => 2
  | 2 => 1
  | _ => 2

/-- Command and address edges (Tables 2.4-2.6 and 3.2). -/
def cmdEdges (k : Chan) (e : Word) : Nat :=
  opcEdges k + match (profOf k).proto with
  | 0 => 8 * addrBytes k e / 2 ^ opcAlanes e
  | 1 => 2 * addrBytes k e
  | _ => addrBytes k e

/-- The time measured over `n` edges is under 95 % of that at HCLK_MAX, less 1 ns (R54); HCLK_MAX is in units of 100 kHz. -/
def tooFast (k : Chan) (n : Nat) (t : HostTxn) : Bool :=
  let half := if (profOf k).proto = 3 then 2 else 1
  (t.cmdNs + 1) * 100 * (profOf k).hclk * half < 95 * (n - 1) * 10000

/-- A transaction whose entry is known is overspeed (R54). -/
def overspeed (k : Chan) (e : Word) (t : HostTxn) : Bool := tooFast k (cmdEdges k e) t

/-- Count an abnormal transaction: 0 TRUNC, 1 WDROP, 2 UNKOP, 3 OVSPD (Table 2.8). -/
def evCount (s : State) (c : Ch) (n : Nat) : State :=
  modCh s c (fun k => match n with
    | 0 => { k with evTrunc := satInc k.evTrunc }
    | 1 => { k with evWdrop := satInc k.evWdrop }
    | 2 => { k with evUnkop := satInc k.evUnkop }
    | _ => { k with evOvspd := satInc k.evOvspd })

/-- What the host is served. The banked unit drives nothing (R353, R440), nor does a port whose bank is out of range (R284).
Log entries 4 (DESIGN CHOICE), 40 (DESIGN CHOICE, DEDUCED). -/
def hostServe (s : State) (c : Ch) (bs : List Byte) : State :=
  modCh s c (fun k => { k with hostOut := bs, hostDriven := !isBanked s && bankUp s (chanBank c.val) })

/-- Bytes of a transaction's whole data units. -/
def txnBytes (k : Chan) (t : HostTxn) : Nat := t.units * unitLen k

/-- Deny data (R72). -/
def denyData (k : Chan) (n : Nat) : List Byte := fillBytes n (denyByte k)

/-- Count a transaction denied or served deny data (Table 3.8).
Log entry 15 (DEDUCED). -/
def cntDeny (s : State) (c : Ch) : State := modCh s c (fun k => { k with cntDeny := k.cntDeny + 1 })

/-- One verdict passes to the pair manager, and blocks it closes go to the partner (R99, R446). -/
def grVerdict (s : State) (c : Ch) (v : Nat) : State := foldVerdict s false c.val v

/-- The port serves its host: it is connected, and the structure is locked; until then it leaves its data lines undriven (R30,
R41, R193). -/
def portLive (s : State) (c : Ch) : Bool := s.ec.locked && connected s.ch[c]

/-- A mode change of R38 as it takes effect. -/
def modeStep (k : Chan) : ModeOp → Chan
  | .addr4 on => { k with addr4 := on }
  | .proto => { k with altOn := !k.altOn && k.cfg.alt.isSome }
  | .reset => portReset k

/-- The fall of H_CS_N: a mode change that waited for it takes effect, and the transaction runs under the profile then active
(R18, R38). -/
def hostFall (k : Chan) : Chan :=
  let k := match k.next with
    | some o => { modeStep k o with next := none }
    | none => k
  { k with txnAlt := k.altOn }

/-- H_CS_N of a channel that a takeover cut off has risen: it is heard as before; and what such a transaction returns is not driven
(R442). -/
def uncut (s : State) (c : Ch) : State := { s with pr := { s.pr with cut := clrBit s.pr.cut c.val } }
def quiet (s : State) (c : Ch) : State := modCh s c (fun k => { k with hostOut := [], hostDriven := false })

/-- A host transaction of a class: the port takes it only where its entry is of that class. The fall of H_CS_N binds the host-service
billet (R25) and, on a mirror channel, cuts the flash-side access (R49); RESET_EN arms for the next transaction only. -/
def hostRun (s : State) (c : Ch) (t : HostTxn) (cls : Nat) (f : State → Word → State) : State :=
  let k := hostFall s.ch[c]
  if txnClass k t ≠ cls then s
  else
    let s := { s with bt := { s.bt with peakHs := max s.bt.peakHs (useOf s .hs + 1) } }
    let s := modCh s c (fun k => { hostFall k with hostOut := [], hostDriven := false, rstArmed := false })
    let s := if hasMirror k then cutPort s c true else s
    settle (pumpBlocks (f s (opcOf k t.op))) c

/-- A host transaction where the port serves its host. One that a takeover cut is judged, and where complete committed, as any other, but
drives nothing up to the rise of H_CS_N (R442).
Log entries 10 (DEDUCED), 21 (DESIGN CHOICE, DEDUCED). -/
def hostTxn (s : State) (c : Ch) (t : HostTxn) (cls : Nat) (f : State → Word → State) : State :=
  if !portLive s c then s
  else if s.pr.cut.getLsbD c.val then
    (if txnClass (hostFall s.ch[c]) t ≠ cls then s else quiet (hostRun (uncut s c) c t cls f) c)
  else hostRun s c t cls f

/-- The record that ends a transaction of a class without an address: ESC, an abnormal kind, RDENY for denied data, OPLOG.
Log entry 15 (DEDUCED). -/
def plainRecord (s : State) (c : Ch) (t : HostTxn) (e : Word) (kind units verdict : Nat) : State :=
  if kind = 0 then (if opcLog e then grRecord s c 0x08 t.op 0xFF 0 units verdict else s)
  else grRecord s c kind t.op 0xFF 0 units verdict

/-- An overspeed transaction other than a READ is dropped (R54); it has no verdict, so its record's VERDICT is a free value.
Log entry 15 (DEDUCED). -/
def overDrop (s : State) (c : Ch) (t : HostTxn) (desc addr : Nat) : State :=
  let v := (Config.freeByte s.clk.free).toNat
  grRecord (evCount (useFree s 1) c 3) c 0x13 t.op desc addr t.units v

/-- A class that returns data which no descriptor judges: `serve` gives its bytes under ALLOW, and what ends while they are
served; deny data else (R77). -/
def dataTxn (s : State) (c : Ch) (t : HostTxn) (cls : Nat) (serve : State → Word → Nat → State × List Byte) : State :=
  hostTxn s c t cls (fun s e =>
    let k := s.ch[c]
    if overspeed k e t then overDrop s c t 0xFF 0
    else match opcAct e with
      | 2 => plainRecord (hostServe (cntDeny (grVerdict s c 0) c) c (denyData k (txnBytes k t))) c t e (if opcLog e then 0x04 else 0) t.units 0
      | 3 => plainRecord (hostServe (escalate (cntDeny (grVerdict s c 4) c) c none true) c (denyData k (txnBytes k t))) c t e 0x02 t.units 4
      | _ =>
        let (s, bs) := serve (grVerdict s c 1) e (txnBytes k t)
        plainRecord (hostServe s c bs) c t e 0 t.units 1)

/-- A class without a data phase, or WRREG: it takes effect under ALLOW where it is complete (R52, R77). -/
def cmdTxn (s : State) (c : Ch) (t : HostTxn) (cls : Nat) (complete : Bool) (f : Word → Chan → Chan) : State :=
  hostTxn s c t cls (fun s e =>
    if overspeed s.ch[c] e t then overDrop s c t 0xFF 0
    else
      let drop := fun (s : State) => if complete then s else evCount s c 1
      match opcAct e with
      | 2 => plainRecord (drop (cntDeny (grVerdict s c 0) c)) c t e (if complete then 0 else 0x11) t.units 0
      | 3 => plainRecord (drop (escalate (grVerdict s c 4) c none true)) c t e 0x02 t.units 4
      | _ =>
        let s := drop (grVerdict s c 1)
        plainRecord (if complete then modCh s c (f e) else s) c t e (if complete then 0 else 0x11) t.units 1)

/-- Complete: H_CS_N rose after the last command edge with no further edge (Table 2.7). -/
def bareDone (t : HostTxn) : Bool := t.whole && t.units == 0

/-- Emulated status register 1 as RDSR shows it (R56, R58). -/
def statusByte (k : Chan) : Byte :=
  let img := if k.altOn then k.imgAlt else k.img
  BitVec.ofNat 8 (b2n (k.wip && !k.susp) + 2 * b2n k.wel + (img[0].toNat / 4) * 4)

/-- A byte of the active profile's register image. -/
def imgByte (k : Chan) (i : Nat) : Byte := (if k.altOn then k.imgAlt else k.img).toList.getD i 0

/-- WRREG's bytes into a register image: only writable bits change, bytes past 7 are ignored (R502). -/
def imgWrite (mask : Vector Byte 8) (reg : Nat) (data : List Byte) (v : Vector Byte 8) : Vector Byte 8 :=
  Vector.ofFn (fun i =>
    if reg ≤ i.val ∧ i.val - reg < data.length then (v[i] &&& ~~~mask[i]) ||| (byteAt data (i.val - reg) &&& mask[i]) else v[i])

/-- WRREG's effect: none without WEL or while WIP is set; it clears WEL (R502). -/
def wrregEffect (t : HostTxn) (e : Word) (k : Chan) : Chan :=
  if !k.wel || k.wip then k
  else
    let d := t.data.take (txnBytes k t)
    let p := profOf k
    if k.altOn then { k with imgAlt := imgWrite p.regWr (opcReg e) d k.imgAlt, wel := false }
    else { k with img := imgWrite p.regWr (opcReg e) d k.img, wel := false }

/-- WREN (R56). -/
def hostWren (s : State) (c : Ch) (t : HostTxn) : State := cmdTxn s c t 4 (bareDone t) (fun _ k => { k with wel := true })
/-- WRDI (R56). -/
def hostWrdi (s : State) (c : Ch) (t : HostTxn) : State := cmdTxn s c t 5 (bareDone t) (fun _ k => { k with wel := false })
/-- A status read of the channel's committed write begins, where its port is free, and ends while the host is served. -/
def pollDuring (s : State) (c : Ch) (status : Byte) : State :=
  match s.ch[c].wr with
  | some w =>
    let s := if (s.port[w.fp].cur).isNone then portGrant s w.fp (some ⟨w.cs, w.addr, true⟩) else s
    statusPoll s w.fp status
  | none => s

/-- The units of an RDSR from unit `i` on: each carries WIP, WEL and SUSP as they stand at its launch (R503). -/
def rdsrUnits (c : Ch) (t : HostTxn) : Nat → Nat → State → State × List Byte
  | 0, _, s => (s, [])
  | n + 1, i, s =>
    let s := (t.polls.filter (fun x => x.1 == i)).foldl (fun s x => pollDuring s c x.2) s
    let b := fillBytes (unitLen s.ch[c]) (statusByte s.ch[c])
    let (s, bs) := rdsrUnits c t n (i + 1) s
    (s, b ++ bs)

/-- RDSR (R503): emulated status register 1 on every unit. -/
def hostRdsr (s : State) (c : Ch) (t : HostTxn) : State := dataTxn s c t 6 (fun s _ _ => rdsrUnits c t t.units 0 s)
/-- RDREG (R503). -/
def hostRdreg (s : State) (c : Ch) (t : HostTxn) : State :=
  dataTxn s c t 7 (fun s e n => (s, fillBytes n (imgByte s.ch[c] (opcReg e))))
/-- WRREG (R502). -/
def hostWrreg (s : State) (c : Ch) (t : HostTxn) : State :=
  cmdTxn s c t 8 (t.whole && decide (1 ≤ t.units)) (wrregEffect t)
/-- SFDP (R55): the composed space, 0xFF past its end. -/
def hostSfdp (s : State) (c : Ch) (t : HostTxn) : State :=
  dataTxn s c t 9 (fun s e n => (s, (List.range n).map (fun i => s.ch[c].cfg.sfdp.getD (txnAddr s.ch[c] e t + i) 0xFF)))
/-- READ_ID (R40). -/
def hostReadId (s : State) (c : Ch) (t : HostTxn) : State :=
  dataTxn s c t 10 (fun s _ n => (s, padTo n 0xFF (profOf s.ch[c]).id))
/-- ADDR4_ENTER and ADDR4_EXIT: from the next fall of H_CS_N (R38). -/
def hostAddr4 (s : State) (c : Ch) (t : HostTxn) (on : Bool) : State :=
  cmdTxn s c t (if on then 11 else 12) (bareDone t) (fun _ k => { k with next := some (.addr4 on) })
/-- PROTO_SWITCH: from the next fall of H_CS_N; the address mode stays (R38). -/
def hostProto (s : State) (c : Ch) (t : HostTxn) : State :=
  cmdTxn s c t 13 (bareDone t) (fun _ k => { k with next := some .proto })
/-- RESET_EN (R39). -/
def hostResetEn (s : State) (c : Ch) (t : HostTxn) : State := cmdTxn s c t 14 (bareDone t) (fun _ k => { k with rstArmed := true })
/-- RESET: only where the preceding transaction was RESET_EN; from the next fall of H_CS_N (R38, R39). -/
def hostReset (s : State) (c : Ch) (t : HostTxn) : State :=
  let armed := s.ch[c].rstArmed
  cmdTxn s c t 15 (bareDone t) (fun _ k => if armed then { k with next := some .reset } else k)
/-- SUSPEND (R58). -/
def hostSuspend (s : State) (c : Ch) (t : HostTxn) : State :=
  cmdTxn s c t 16 (bareDone t) (fun _ k => { k with susp := k.susp || k.wip })
/-- RESUME (R58). -/
def hostResume (s : State) (c : Ch) (t : HostTxn) : State := cmdTxn s c t 17 (bareDone t) (fun _ k => { k with susp := false })

/-- UNKNOWN (R53, R92): undriven and counted; under UNK_ESC it escalates at its decode edge, unless it is overspeed, which drops it
(R54). It has no verdict otherwise, so VERDICT is a free value then. -/
def hostUnknown (s : State) (c : Ch) (t : HostTxn) : State :=
  hostTxn s c t 0 (fun s _ =>
    let fast := tooFast s.ch[c] (opcEdges s.ch[c]) t
    let s := evCount (if fast then evCount s c 3 else s) c 2
    if unkEsc s.ch[c] && !fast then grRecord (escalate (grVerdict s c 4) c none true) c 0x02 t.op 0xFF 0 t.units 4
    else grRecord (useFree s 1) c 0x12 t.op 0xFF 0 t.units (Config.freeByte s.clk.free).toNat)

/-- DESC and ADDR of a truncated transaction's record: none is known before the decode edge; a class without an address has
0xFF and 0; an address cut short is not known (Table 3.6). -/
def truncPlace (s : State) (c : Ch) (at_ : TruncAt) (t : HostTxn) : Nat × Nat :=
  let k := s.ch[c]
  let e := opcOf k t.op
  let fr := fun (i : Nat) => Config.freeByte (s.clk.free + i)
  let noAddr := txnClass k t = 0 ∨ addrBytes k e = 0 ∨ txnClass k t = 9
  match at_ with
  | .beforeDecode => ((fr 1).toNat, beNat [fr 2, fr 3, fr 4, fr 5])
  | .address => if noAddr then (0xFF, 0) else ((fr 1).toNat, beNat [fr 2, fr 3, fr 4, fr 5])
  | .wait =>
    if noAddr then (0xFF, 0)
    else (match governing k (txnAddr k e t / 4096) with | some i => i.val | none => 0x40, txnAddr k e t)

/-- TRUNCATED_TRANSACTION (R53): no effect beyond its counts and record; with every address edge sampled it may also be
overspeed (R54). Before the decode edge there is no opcode, and no verdict acts: those fields of the record are free values.
Log entry 15 (DEDUCED). -/
def hostTrunc (s : State) (c : Ch) (at_ : TruncAt) (t : HostTxn) : State :=
  if !portLive s c then s
  else
    let s := uncut s c
    let fr := fun (i : Nat) => Config.freeByte (s.clk.free + i)
    let op := match at_ with | .beforeDecode => fr 0 | .address | .wait => t.op
    let s := modCh s c (fun k => { hostFall k with hostOut := [], hostDriven := false, rstArmed := false })
    let s := if hasMirror s.ch[c] then cutPort s c true else s
    let place := truncPlace s c at_ t
    let fast := decide (at_ = .wait) && overspeed s.ch[c] (opcOf s.ch[c] t.op) t
    let s := evCount (if fast then evCount s c 3 else s) c 0
    settle (grRecord (useFree s 7) c 0x10 op place.1 place.2 0 (fr 6).toNat) c

end Sys2Proof.Machine
end

