-- ==== Sys2Proof/Machine/Grate.lean ====
section
/-! DEFINITION. The grate: READ, PROGRAM and ERASE transactions, misses and the relay, fetches with their traces and
prefetches, the in-band window, and the run-time writes to descriptors (R44-R49, R78-R91, R158, R163, R165, R352). -/

namespace Sys2Proof.Machine

/-! Fetches (R158, R163, R165, R170). -/

/-- A fetch enters the trace being recorded, unless it repeats the previous entry (R158); the 16,384th ends it. -/
def recordFetch (s : State) (c : Ch) (v : Nat) (miss seqn : Bool) : State :=
  let x := s.ch[c].trace
  if x.recording ∧ (x.entries.getLast?).map (·.vem) ≠ some v then
    let e : TraceEnt := { vem := v, miss := miss, seqn := seqn, gap := min 1023 ((s.clk.now - x.lastAt) / usCyc 10) }
    let s := modCh s c (fun k => { k with trace := { k.trace with entries := k.trace.entries ++ [e], lastAt := s.clk.now } })
    if x.entries.length + 1 = 16384 then endTrace s c 1 false else s
  else s

/-- A fetch moves the cursor of a trace being followed; 256 in a row that match nothing, or its end, end the following
(R163). -/
def followFetch (s : State) (c : Ch) (v : Nat) : State :=
  let x := s.ch[c].trace
  if !x.follow then s
  else match firstIdx (fun j => x.journal[j]? = some v) x.cursor (min 64 (x.journal.length - x.cursor)) with
    | some j =>
      pumpFollow (modCh s c (fun k => { k with trace := { k.trace with
        cursor := j + 1, unmatched := 0, follow := decide (j + 1 < k.trace.journal.length) } })) c
    | none =>
      if x.unmatched + 1 < 256 then
        pumpFollow (modCh s c (fun k => { k with trace := { k.trace with unmatched := k.trace.unmatched + 1 } })) c
      else
        let s := modCh s c (fun k => { k with trace := { k.trace with follow := false, unmatched := 0 } })
        ecRecord s c 0x0A 0xFF x.cursor 0 false

/-- A group of data embers of a bank is hot (R170). -/
def heat (s : State) (id : EmberId) : State :=
  match bindingOf s id.bind with
  | none => s
  | some b =>
    match emberObj b id.vem with
    | .man _ => s
    | .data i =>
      let g := i / max 1 (cdiv b.blocks 1024)
      setBank s id.bind id.bank (fun r => if r.hot.contains g then r else { r with hot := g :: r.hot })

/-- A fill of an ember leaves its channel's occupancy within its quota: the frame it would take, or the one it would replace, counted
(R145, R165). -/
def prefetchRoom (s : State) (id : EmberId) : Bool :=
  match victim s id.ch (setOf s.ch[id.ch] id.fen) with
  | some (f, _) =>
    let own := match aget s.ec.frames f with | some x => x.id.ch = id.ch | none => false
    decide (occOf s id.ch + 1 - b2n own ≤ s.ch[id.ch].quota)
  | none => true

/-- Sequential prefetch after a fetch of ember `v` under descriptor `j` (R165).
Log entry 22 (DEDUCED, DESIGN CHOICE). -/
def seqPrefetch (s : State) (c : Ch) (j : Fin 64) (v : Nat) : State :=
  let k := s.ch[c]
  if rgnMirror k.cfg.desc[j] ∨ k.trace.follow then s
  else (List.range k.depth).foldl (fun s i =>
    if governing k (v + 1 + i) = some j then
      match emberAt k c j (rgnRd k.cfg.desc[j] = 3) (4096 * (v + 1 + i)) with
      | some id => if prefetchRoom s id then (issueFill s id .seq 5).2 else s
      | none => s
    else s) s

/-- One fetch of an ember of a VERIFIED region (R158). -/
def fetch (s : State) (c : Ch) (j : Fin 64) (v : Nat) (miss seqn : Bool) : State :=
  seqPrefetch (followFetch (recordFetch s c v miss seqn) c v) c j v

/-- A frame fetched by the host: most recently used; a prefetched one counts as used (R166). -/
def frameServed (s : State) (f : Nat) (x : Frame) : State :=
  let s := if x.pf then
      modCh (setFrame s f (fun y => ⟨y.st, y.id, y.pin, y.rank, false, y.data⟩)) x.id.ch (fun k => { k with pfUsed := k.pfUsed + 1 })
    else s
  touchFrame s f

/-- A strict descriptor whose ember was discarded is RUNNING again (R121). -/
def strictLost (s : State) (id : EmberId) : State :=
  match governing s.ch[id.ch] id.vem with
  | some i =>
    setStrict s id.ch i (fun r => match r.st with
      | .passed | .running => { st := .running, done := r.done.filter (fun v => !(v == id.vem)) }
      | _ => r)
  | none => s

/-- A parity error found in a frame or its tag while a host is served (R147). In a banked unit the ember stays absent until the
burning unit next fills it (R173). A job-DMA descriptor that uses the frame meets it at its next beat (R252). -/
def frameParity (s : State) (f : Nat) (id : EmberId) : State :=
  let s := freeFrame { s with he := { s.he with dma := s.he.dma.map (fun d => if d.frame = some f then { d with spoilt := true } else d) } } f
  let s := ecInt { s with ec := { s.ec with parity := satAdd 0xFFFF s.ec.parity 1 } } 3
  let s := strictLost (ecRecord s id.ch 0x05 0xFF id.vem f true) id
  parityCount (if isBanked s then { s with ec := { s.ec with absent := id :: s.ec.absent } } else (issueFill s id .refill 5).2)

/-! The in-band window (R351, R352). -/

/-- The ACTIVE in-band instance of a channel. -/
def windowInst (s : State) (c : Ch) : Option Inst :=
  (List.finRange 64).find? (fun n => instLive s n && (s.inst[n]).cfg.transport = 8 && (s.inst[n]).addr.toNat = c.val)

/-- The instance whose window holds a virtual address: the top 8 KiB. -/
def windowAt (s : State) (k : Chan) (c : Ch) (va : Nat) : Option Inst :=
  if vflash k ≤ va + 8192 ∧ va < vflash k then windowInst s c else none

/-- Byte `i` of a word, most significant first. -/
def wordByte (w : Word) (i : Nat) : Byte := BitVec.ofNat 8 (w.toNat >>> (8 * (3 - i)))

/-- The window's status word at 0x1080 (Table 12.2). -/
def windowStatus (s : State) (n : Inst) : Word :=
  let b := s.mb.box[n]
  pack [(27, qFree b.inq), (22, b.outq.length), (19, (b.res[(4 : Fin 5)]).toNat), (18, b2n (!b.bulkDev)), (0, b.inAck.toNat)]

/-- A byte of the window as a READ serves it. -/
def windowByte (s : State) (n : Inst) (o : Nat) : Byte :=
  if o < 0x1000 then bulkByte s.mb.box[n] o
  else if 0x1040 ≤ o ∧ o < 0x1080 then wordByte ((headFor s n false).getD ((o - 0x1040) / 4) 0) (o % 4)
  else if 0x1080 ≤ o ∧ o < 0x1084 then wordByte (windowStatus s n) (o % 4)
  else 0xFF

/-- A committed PROGRAM into the window. -/
def windowWrite (s : State) (n : Inst) (o : Nat) (d : List (Nat × Byte)) : State :=
  if o < 0x1000 then d.foldl (fun s x => if x.1 < 0x1000 then bulkWrite s n false x.1 [x.2] else s) s
  else if o = 0x1000 then
    let bs := d.map (·.2)
    let ws := (List.range (bs.length / 4)).map (fun i => wordBE bs (4 * i))
    if bs.length = 4 * hdrLen (ws.headD 0) ∧ 4 ≤ bs.length then
      let (e, s) := xferSend s n false n.val ws
      modBox s n (fun b => { b with res := b.res.set 4 (BitVec.ofNat 3 e) })
    else s
  else if o = 0x10C0 ∧ d.length = 4 then popOut s n
  else s

/-! READ. -/

/-- A READ in progress: the state, whether the relay is kept, the bytes served, and what its record will say. -/
structure RdRun where
  st : State
  relay : Bool
  out : List Byte := []
  /-- Everything from here on is deny data. -/
  dead : Bool := false
  first : Bool := true
  /-- DESC and VERDICT of the first verdict. -/
  desc : Nat := 0x40
  verdict : Nat := 0
  /-- Provisional releases so far. -/
  provs : Nat := 0
  esc : Bool := false
  late : Option (Nat × Nat) := none
  denied : Bool := false
  relayed : Bool := false
  alert : Bool := false
  /-- Fill billets of the provisional releases, in order, each with the bytes of its ember that the relay carried. -/
  billets : List (Nat × Nat) := []
  seen : List Nat := []

/-- What a READ is given at its start (R45, R18). -/
structure RdCtx where
  c : Ch
  /-- The channel's tables as they stood at the fall of H_CS_N. -/
  k : Chan
  t : HostTxn
  /-- The relay ran for this transaction, on this chip select. -/
  ran : Bool
  rcs : Bool
  log : Bool

/-- The relay's chip select: where the lowest-numbered enabled mirror descriptor is served (R45).
Log entry 16 (DEDUCED, DESIGN CHOICE). -/
def relayCs (k : Chan) : Option (Ch × Bool) :=
  (allRgn.find? (fun i => rgnEn k.cfg.desc[i] && rgnMirror k.cfg.desc[i])).bind (fun i =>
    let va := 4096 * rgnBase k.cfg.desc[i]
    (physIn k (bankServing k (isSubst k i || rgnRd k.cfg.desc[i] = 3) va) va).map (fun x => (x.1, x.2.1)))

/-- A virtual ember is resident as it is served (R85). -/
def residentAt (s : State) (k : Chan) (c : Ch) (page : Nat) : Bool :=
  match governing k page with
  | some i =>
    !rgnOpen k.cfg.desc[i] && (match emberAt k c i (rgnRd k.cfg.desc[i] = 3) (4096 * page) with
      | some id => (residentFrame s id).isSome
      | none => false)
  | none => false

/-- The bytes the relay carries; a byte the flash is not given to drive is free.
Log entry 16 (DEDUCED, DESIGN CHOICE). -/
def relayData (t : HostTxn) (pos n : Nat) : List Byte := (List.range n).map (fun i => t.relay.getD (pos + i) (Config.freeByte (pos + i)))

/-- Note a verdict: its code reaches the pair, the first one the record. -/
def rdVerdict (x : RdCtx) (r : RdRun) (desc v : Nat) : RdRun :=
  { r with st := grVerdict r.st x.c v, first := false, desc := if r.first then desc else r.desc, verdict := if r.first then v else r.verdict }

/-- Count something of the first verdict (R98).
Log entry 15 (DEDUCED). -/
def rdCount (x : RdCtx) (r : RdRun) (f : Chan → Chan) : RdRun := if r.first then { r with st := modCh r.st x.c f } else r

/-- Serve deny data for an ember: the relay is released (R47, R72).
Log entry 15 (DEDUCED). -/
def rdDeny (x : RdCtx) (r : RdRun) (n : Nat) (d : Option Rgn) : RdRun :=
  let r := rdCount x r (fun k => { k with cntDeny := k.cntDeny + 1 })
  { r with
    relay := false, out := r.out ++ denyData x.k n
    denied := r.denied || x.log || d.any rgnLog, alert := r.alert || d.any rgnAlert }

/-- Escalate: the rest of the transaction is served under DENY (R92). -/
def rdEsc (x : RdCtx) (r : RdRun) (n : Nat) (i : Fin 64) : RdRun :=
  let r := rdDeny x r n (some x.k.cfg.desc[i])
  { r with st := escalate r.st x.c (some i) false, esc := true, dead := true }

/-- Try a provisional release: the billet that completes the ember, and whether it was drawn for this read (R84). -/
def provTry (x : RdCtx) (r : RdRun) (id : EmberId) (i : Fin 64) (redir : Bool) : Option (Nat × Bool × State) :=
  let s := r.st
  if !(r.relay && !redir && id.fp = x.c && id.cs = x.rcs && !flashBusy s x.c x.rcs && slotFree s id && grRoom s) then none
  else match slotOf s id with
    | some y => some (y.billet, false, s)
    | none =>
      match (unitsWhere s (fun u => (workEmber u.work).any (sameEmber id))).head? with
      | some _ => (joinSlot s id i).map (fun (b, s) => (b, false, s))
      | none =>
        match issueFill s id .prov 5 with
        | (.issued b, s) => some (b, true, openSlot s id i b)
        | _ => none

/-- A miss is denied and its fill drawn (Table 3.5). -/
def rdMissDeny (x : RdCtx) (r : RdRun) (n : Nat) (i : Fin 64) (id : EmberId) : RdRun :=
  rdDeny x { r with st := (issueFill r.st id .demand 5).2 } n (some x.k.cfg.desc[i])

/-- A miss takes its region's miss action (R83, R84, R86). `i` governs the address, `j` gives MISS.
Log entry 16 (DEDUCED, DESIGN CHOICE). -/
def rdMiss (x : RdCtx) (r : RdRun) (va n : Nat) (i j : Fin 64) (id : EmberId) (redir : Bool) : RdRun :=
  let d := x.k.cfg.desc[i]
  let r := rdCount x r (fun k => { k with cntMiss := k.cntMiss + 1 })
  match rgnMiss x.k.cfg.desc[j] with
  | 1 =>
    if !r.first && x.ran && !r.relay then
      let r := { r with
        st := modCh r.st x.c (fun k => { k with cntLate := k.cntLate + 1 })
        late := match r.late with | some l => some l | none => some (va, i.val) }
      rdMissDeny x r n i id
    else match provTry x r id j redir with
      | some (b, fresh, s) =>
        let r := rdCount x { r with st := heat s id } (fun k => { k with cntProv := k.cntProv + 1 })
        { r with
          out := r.out ++ relayData x.t r.out.length n, provs := r.provs + 1, alert := r.alert || rgnAlert d
          billets := if fresh then r.billets ++ [(b, n)] else r.billets }
      | none => rdMissDeny x (rdCount x r (fun k => { k with cntRefused := k.cntRefused + 1 })) n i id
  | 2 => rdEsc x r n i
  | _ => rdMissDeny x r n i id

/-- A hit: the frame's bytes, or what a parity error leaves of them (R147).
Log entry 16 (DEDUCED, DESIGN CHOICE). -/
def rdHit (x : RdCtx) (r : RdRun) (va n : Nat) (j : Fin 64) (id : EmberId) (f : Nat) (fr : Frame) : RdRun :=
  let r := rdCount x r (fun k => { k with cntHit := k.cntHit + 1 })
  let s := heat (frameServed r.st f fr) id
  let pos := r.out.length
  let keep := r.relay && rgnMirror x.k.cfg.desc[j] && !residentAt s x.k x.c (va / 4096 + 1)
  match x.t.parity with
  | some u =>
    let at_ := u * unitLen x.k
    if pos ≤ at_ ∧ at_ < pos + n then
      { r with
        st := frameParity s f id, relay := false, dead := true
        out := r.out ++ slice fr.data (va % 4096) (at_ - pos) ++ denyData x.k (n - (at_ - pos)) }
    else { r with st := s, relay := keep, out := r.out ++ slice fr.data (va % 4096) n }
  | none => { r with st := s, relay := keep, out := r.out ++ slice fr.data (va % 4096) n }

/-- A read of a VERIFIED region at its place `va'` in the virtual flash, under descriptor `j` (R83). -/
def rdVerified (x : RdCtx) (r : RdRun) (va n : Nat) (i j : Fin 64) (va' : Nat) (gold redir : Bool) : RdRun :=
  match emberAt x.k x.c j gold va' with
  | none => rdDeny x r n (some x.k.cfg.desc[i])
  | some id =>
    let tagBad := x.t.tagParity && (match x.t.parity with | some u => r.out.length == u * unitLen x.k | none => false)
    match residentFrame r.st id with
    | some (f, fr) =>
      let new := !r.seen.contains id.vem
      if tagBad then
        let r := { r with st := fetch (frameParity r.st f id) x.c j id.vem true (!r.first), seen := id.vem :: r.seen }
        rdMiss x r va n i j id redir
      else
        let seqn := !r.first
        let r := rdHit x r va n j id f fr
        { r with st := if new then fetch r.st x.c j id.vem false seqn else r.st, seen := id.vem :: r.seen }
    | none =>
      let new := !r.seen.contains id.vem
      let seqn := !r.first
      let r := rdMiss x r va n i j id redir
      { r with st := if new then fetch r.st x.c j id.vem true seqn else r.st, seen := id.vem :: r.seen }

/-- A read of an OPEN region: the relay carries it, or deny data (R45, R86, R88).
Log entry 16 (DEDUCED, DESIGN CHOICE). -/
def rdOpen (x : RdCtx) (r : RdRun) (va n : Nat) (i : Fin 64) : RdRun :=
  let d := x.k.cfg.desc[i]
  let carried := match physIn x.k .a va with
    | some (fp, cs, _) => r.relay && fp = x.c && cs = x.rcs && !flashBusy r.st fp cs
    | none => false
  if carried then
    { r with out := r.out ++ relayData x.t r.out.length n, relayed := r.relayed || x.log || rgnLog d, alert := r.alert || rgnAlert d }
  else rdDeny x r n (some d)

/-- The verdict on one ember of a READ and its service (R83, R86).
Log entry 16 (DEDUCED, DESIGN CHOICE). -/
def rdEmber (x : RdCtx) (r : RdRun) (va n : Nat) : RdRun :=
  if r.dead then { r with st := grVerdict r.st x.c 0, out := r.out ++ denyData x.k n }
  else match windowAt r.st x.k x.c va with
  | some w =>
    let lo := vflash x.k - 8192
    { r with
      st := if r.first then useFree r.st 1 else r.st
      verdict := if r.first then (Config.freeByte r.st.clk.free).toNat else r.verdict
      relay := false, first := false, out := r.out ++ (List.range n).map (fun i => windowByte r.st w (va + i - lo)) }
  | none =>
    match governing x.k (va / 4096) with
    | none => rdVerdict x (rdDeny x r n none) 0x40 0
    | some i =>
      let d := x.k.cfg.desc[i]
      let rd := if rgnRd d = 1 ∧ isSubst x.k i then 3 else rgnRd d
      let r' := match rd with
        | 1 => if rgnOpen d then rdOpen x r va n i else rdVerified x r va n i i va false false
        | 3 => rdVerified x r va n i i va true false
        | 2 =>
          let va' := 4096 * rgnRedir d + (va - 4096 * rgnBase d)
          (match governing x.k (va' / 4096) with
          | some j => rdVerified x r va n i j va' false true
          | none => rdDeny x r n (some d))
        | 4 => rdEsc x r n i
        | _ => rdDeny x r n (some d)
      let code := if r.provs < r'.provs then 6 else rd
      rdVerdict x { r' with first := r.first } i.val code

/-- The embers of a READ in order; from the top of the virtual flash it goes on at 0 (R53).
Log entry 16 (DEDUCED, DESIGN CHOICE). -/
def rdLoop (x : RdCtx) : Nat → RdRun → Nat → Nat → RdRun
  | 0, r, _, _ => r
  | f + 1, r, va, n =>
    let lim := 4096 - va % 4096
    let m := min n lim
    let r := rdEmber x r va m
    if n ≤ m then r
    else rdLoop x f r (if va + m = vflash x.k then 0 else (va + m) % 2 ^ 32) (n - m)

/-- The queue entry of a unit of the channel at a port. -/
def itemOf (s : State) (id : Nat) : Option QItem := (unitOf s id).map (fun b => portItem s b id)

/-- The rise after a relayed miss: the port goes on with the same read to the end of the last ember the transaction touched, then
reads with a fresh command what lies before the start in the first one; each billet has the bytes the relay carried behind it (R48). -/
def rdComplete (s : State) (c : Ch) (l : List (Nat × Nat)) : State :=
  let s := (s.ch[c].slots.filter (fun x => x.st = .released)).foldl (fun s x => slotTo s x.id (slotNow s x.id)) s
  let s := l.foldl (fun s b => setResume s b.1 (min 4095 b.2)) s
  match (l.drop 1 ++ l.take 1).filterMap (fun b => itemOf s b.1) with
  | [] => s
  | i :: rest =>
    if (s.port[c].cur).isNone then
      modPort (portStart s c i .read false false) c (fun p => { p with cur := p.cur.map (fun a => { a with chain := rest }) })
    else (i :: rest).foldl (fun s j => portEnq s c j.id false) s

/-- The records of a READ (R96, Table 3.7).
Log entry 15 (DEDUCED). -/
def rdRecord (x : RdCtx) (op : Byte) (addr : Nat) (fast : Bool) (r : RdRun) : State :=
  let put := fun (s : State) (kind desc a v : Nat) => grRecord s x.c kind op desc a x.t.units v
  let s := if 0 < r.provs then put r.st 0x01 r.desc addr 6 else r.st
  if r.esc then put s 0x02 r.desc addr 4
  else if 0 < r.provs then s
  else match r.late with
    | some (va, i) => put s 0x07 i va 0
    | none =>
      if r.denied then put s 0x04 r.desc addr r.verdict
      else if r.relayed then put s 0x05 r.desc addr r.verdict
      else if fast then put s 0x13 r.desc addr r.verdict
      else if x.log then put s 0x08 r.desc addr r.verdict
      else s

/-- The verdicts after the first on a read that is denied whole: one for each ember boundary it crosses (R71). -/
def rdDenied (x : RdCtx) (r : RdRun) (va n : Nat) : RdRun :=
  (List.range ((va % 4096 + n - 1) / 4096)).foldl (fun r _ => { r with st := grVerdict r.st x.c 0 }) r

/-- READ (R83-R88): overspeed and OPACT DENY or ESCALATE give a denied read.
Log entry 16 (DEDUCED, DESIGN CHOICE). -/
def hostRead (s : State) (c : Ch) (t : HostTxn) : State :=
  hostTxn s c t 1 (fun s e =>
    let k := s.ch[c]
    let n := txnBytes k t
    let va := txnAddr k e t
    let fast := overspeed k e t
    let ran := hasMirror k && !fast && (match s.port[c].cur with | some a => a.kind ≠ .write | none => true) && decide (opcAct e = 0)
    let rcs := match relayCs k with | some (p, b) => if p = c then some b else none | none => none
    let x : RdCtx := { c := c, k := k, t := t, ran := ran && rcs.isSome, rcs := rcs.getD false, log := opcLog e }
    let r0 : RdRun := { st := s, relay := x.ran }
    let g := match governing k (va / 4096) with | some i => i.val | none => 0x40
    let r :=
      if fast then { rdDeny x { r0 with st := evCount s c 3 } n none with desc := g }
      else match opcAct e with
        | 2 => rdDenied x (rdVerdict x (rdDeny x r0 n none) g 0) va n
        | 3 =>
          let r := rdVerdict x (rdDeny x r0 n none) g 4
          rdDenied x { r with st := escalate r.st c (governing k (va / 4096)) true, esc := true } va n
        | _ => rdLoop x (n / 4096 + 2) r0 va n
    let s := rdRecord x t.op va fast r
    let s := if r.alert then grAlert s c else s
    rdComplete (hostServe s c r.out) c r.billets)

/-! PROGRAM and ERASE. -/

/-- A judged write: the verdict code, the governing descriptor as DESC shows it, and that descriptor where it judged. -/
structure WrVerdict where
  code : Nat
  desc : Nat
  rgn : Option (Fin 64)

/-- WR and ER codes as verdict codes (GR_RGN_ACT, Table 3.6). -/
def wrCode (a : Nat) : Nat := if a = 1 then 1 else if a = 2 then 5 else if a = 4 then 4 else 0

/-- The verdict on a PROGRAM or ERASE (R80, R83). -/
def wrJudge (k : Chan) (e : Word) (va : Nat) (erase : Bool) : WrVerdict :=
  let g := if addrBytes k e = 0 then none else governing k (va / 4096)
  let desc := if addrBytes k e = 0 then 0xFF else match g with | some i => i.val | none => 0x40
  match opcAct e with
  | 2 => ⟨0, desc, none⟩
  | 3 => ⟨4, desc, none⟩
  | _ =>
    if !erase then ⟨match g with | some i => wrCode (rgnWr k.cfg.desc[i]) | none => 0, desc, g⟩
    else if !opcBig e then ⟨match g with | some i => wrCode (rgnEr k.cfg.desc[i]) | none => 0, desc, g⟩
    else
      let gs := (List.range 16).map (fun p => governing k (va / 65536 * 16 + p))
      let er := fun (x : Option (Fin 64)) => match x with | some i => wrCode (rgnEr k.cfg.desc[i]) | none => 0
      if gs.all (· = g) then ⟨er g, desc, g⟩
      else if gs.any (fun x => er x = 4) then ⟨4, desc, g⟩
      else ⟨0, desc, g⟩

/-- The bank set of an address cannot take staged writes (R156). -/
def noStage (s : State) (k : Chan) (c : Ch) (va : Nat) : Bool :=
  match bsetAt k va with
  | none => true
  | some i =>
    let b := s.ch[c].bset[i]
    b.flipPend || b.gclrPend || b.stageLock ||
      (match physIn k (inactiveBank s.ch[c] i) va with | some (fp, _, _) => s.ch[fp].raw.own | none => true)

/-- Where an accepted write goes: the flash itself, or the inactive bank (R83, R90). -/
def wrPlace (s : State) (k : Chan) (c : Ch) (va code : Nat) : Option (Ch × Bool × Nat) :=
  if code = 5 then (match bsetAt k va with | some i => physIn k (inactiveBank s.ch[c] i) va | none => none)
  else physIn k .a va

/-- A write taken at commit: WIP is set, the flash operation waits for its billet, a staged one makes its bank STAGED (R56,
R91, R129). -/
def wrAccept (s : State) (k : Chan) (c : Ch) (va code : Nat) (kind : Nat → WriteKind) : State :=
  match wrPlace s k c va code with
  | none => s
  | some (fp, cs, fa) =>
    let w : PendWrite := { fp := fp, cs := cs, addr := fa, kind := kind fa, staged := decide (code = 5), st := .pending, billet := none }
    let s := modCh s c (fun k => { k with wip := true, cntWcommit := k.cntWcommit + 1, wr := some w })
    let s := writeDraw s c
    if code = 5 then (match bsetAt k va with | some i => markStaged s c va (inactiveBank s.ch[c] i) | none => s) else s

/-- The commit of a complete PROGRAM or ERASE (R52, R56, R83, R90, R97). `log` is LOG or the opcode's LOG.
Log entry 15 (DEDUCED). -/
def wrCommit (s : State) (k : Chan) (c : Ch) (t : HostTxn) (va : Nat) (v : WrVerdict) (log : Bool) (kind : Nat → WriteKind) : State :=
  let note := fun (s : State) (code : Nat) => grRecord s c 0x03 t.op v.desc va t.units code
  let noWel := fun (s : State) => modCh s c (fun k => { k with wel := false })
  if !s.ch[c].wel || s.ch[c].wip then (if log then note s v.code else s)
  else if v.code = 0 then (if log then note (noWel s) 0 else noWel s)
  else if log ∧ !grRoom s then
    note (modCh (noWel s) c (fun k => { k with cntRefused := k.cntRefused + 1 })) 0
  else if (v.code = 5 ∧ noStage s k c va) ∨ (wrPlace s k c va v.code).isNone then note (cntDeny (noWel s) c) 0
  else
    let s := wrAccept s k c va v.code kind
    if log then note s v.code else s

/-- A PROGRAM or ERASE with its completion (R52, R89): judged at its verdict, effective at commit. -/
def hostWrite (s : State) (c : Ch) (t : HostTxn) (cls : Nat) (complete : Chan → Bool)
    (kind : Chan → Word → Nat → WriteKind) : State :=
  hostTxn s c t cls (fun s e =>
    let k := s.ch[c]
    let va := txnAddr k e t
    let v := wrJudge k e va (decide (cls = 3))
    if overspeed k e t then overDrop s c t v.desc va
    else
      let rlog := opcLog e || (match v.rgn with | some i => rgnLog k.cfg.desc[i] | none => false)
      let s := grVerdict s c v.code
      let s := if v.rgn.any (fun i => rgnAlert k.cfg.desc[i]) then grAlert s c else s
      let s := if v.code = 0 then cntDeny s c else s
      if v.code = 4 then
        let gov := if addrBytes k e = 0 then none else governing k (va / 4096)
        let s := escalate s c gov (decide (opcAct e = 3))
        let s := if complete k then modCh s c (fun k => { k with wel := false }) else evCount s c 1
        grRecord s c 0x02 t.op v.desc va t.units 4
      else if !complete k then grRecord (evCount s c 1) c 0x11 t.op v.desc va t.units v.code
      else wrCommit s k c t va v rlog (kind k e))

/-- A program's bytes with their addresses: data past the end of the page wrap to its start (R89). -/
def pageBytes (k : Chan) (va : Nat) (d : List Byte) : List (Nat × Byte) :=
  let pg := if (profOf k).page512 then 512 else 256
  (List.range d.length).map (fun i => (va / pg * pg + (va + i) % pg, byteAt d i))

/-- A PROGRAM is complete (Table 2.7). -/
def progDone (t : HostTxn) (k : Chan) : Bool :=
  t.whole && decide (1 ≤ t.units) && decide (txnBytes k t ≤ if (profOf k).page512 then 512 else 256)

/-- The record of a complete PROGRAM or ERASE in the in-band window whose opcode has LOG set: OPLOG, since the grate judges none of
them; they have no verdict, so VERDICT is a free value (R75, R96, R352). -/
def windowLog (s : State) (c : Ch) (t : HostTxn) (e : Word) (va : Nat) : State :=
  if opcLog e then grRecord (useFree s 1) c 0x08 t.op 0x40 va t.units (Config.freeByte s.clk.free).toNat else s

/-- A PROGRAM or ERASE in the in-band window that is not complete under Table 2.7: dropped, counted and logged (R53). -/
def windowDrop (s : State) (c : Ch) (t : HostTxn) (va : Nat) : State :=
  grRecord (useFree (evCount s c 1) 1) c 0x11 t.op 0x40 va t.units (Config.freeByte s.clk.free).toNat

/-- PROGRAM: in an in-band window it reaches the instance, else the grate judges it (R89, R352). -/
def hostProgram (s : State) (c : Ch) (t : HostTxn) : State :=
  let k := hostFall s.ch[c]
  let e := opcOf k t.op
  let va := txnAddr k e t
  match windowAt s k c va with
  | none => hostWrite s c t 2 (progDone t) (fun k _ fa => .prog (pageBytes k fa (t.data.take (txnBytes k t))))
  | some w =>
    hostTxn s c t 2 (fun s e =>
      if overspeed k e t then overDrop s c t 0x40 va
      else if !progDone t k then windowDrop s c t va
      else
        let s := windowLog s c t e va
        if !s.ch[c].wel || s.ch[c].wip then s
        else
          let lo := vflash k - 8192
          let d := (pageBytes k va (t.data.take (txnBytes k t))).map (fun x => (x.1 - lo, x.2))
          modCh (windowWrite s w (va - lo) d) c (fun k => { k with wel := false }))

/-- ERASE: none in an in-band window (R352); else judged for its 4 KiB or 64 KiB block (R80). -/
def hostErase (s : State) (c : Ch) (t : HostTxn) : State :=
  let k := hostFall s.ch[c]
  let e := opcOf k t.op
  let va := txnAddr k e t
  match (if addrBytes k e = 0 then none else windowAt s k c va) with
  | some _ => hostTxn s c t 3 (fun s e =>
      if overspeed k e t then overDrop s c t 0x40 va
      else if bareDone t then windowLog s c t e va
      else windowDrop s c t va)
  | none => hostWrite s c t 3 (fun _ => bareDone t) (fun _ e _ => if opcBig e then .erase64 else .erase4)

/-! Writes to descriptors at run time. -/

/-- The adjustable fields of GR_RGN_ACT: RD, WR, ER, MISS, LOG, ALERT (R81). -/
def adjMask : Word := 0x000307FF#32

end Sys2Proof.Machine
end

