-- ==== Sys2Proof/Machine/Image.lean ====
section
/-! DEFINITION. The structure image as bytes: header, sections, and what their bodies give (R175-R189, R231-R232,
R270-R273, Tables 6.1-6.9). Nothing here is checked; ImageCheck does that. -/

namespace Sys2Proof.Machine

/-- A section of an image: its header fields, its position (from 1), the offset of its header, and its body. -/
structure Sect where
  typ : Nat
  sver : Nat
  sflags : Nat
  scope : Nat
  pos : Nat
  ofs : Nat
  body : List Byte
deriving DecidableEq, Repr

/-- The section header at an offset (Table 6.2). -/
def sectAt (img : List Byte) (pos ofs : Nat) : Sect :=
  { typ := be8 img ofs, sver := be8 img (ofs + 1), sflags := be8 img (ofs + 2), scope := be8 img (ofs + 3)
    pos := pos, ofs := ofs, body := slice img (ofs + 8) (be32 img (ofs + 4)) }

/-- Fields of Table 6.1. -/
def imgLen (img : List Byte) : Nat := be32 img 8
def imgSigned (img : List Byte) : Nat := be32 img 12
def imgRollback (img : List Byte) : Nat := be16 img 16
def imgCount (img : List Byte) : Nat := be8 img 21
def imgPair (img : List Byte) : Bool := decide (be16 img 22 % 2 = 1)
def imgGen (img : List Byte) : Nat := be32 img 36
def imgKey (img : List Byte) : List Byte := slice img 40 60

/-- The sections that follow one another from an offset, as far as their lengths lead; `n` bounds their number. -/
def sectsFrom (img : List Byte) (stop : Nat) : Nat → Nat → Nat → List Sect
  | 0, _, _ => []
  | n + 1, pos, ofs =>
    let len := be32 img (ofs + 4)
    if ofs + 8 + len ≤ stop ∧ len % 4 = 0 ∧ 4 ≤ len then sectAt img pos ofs :: sectsFrom img stop n (pos + 1) (ofs + 8 + len)
    else []

/-- The sections of an image (R178). -/
def sectsOf (img : List Byte) : List Sect := sectsFrom img (imgSigned img) 256 1 128

/-- The section of a type and scope. -/
def sect (l : List Sect) (typ scope : Nat) : Option Sect := l.find? (fun x => x.typ = typ && x.scope = scope)

/-- Body of a section, empty where it is absent. -/
def bodyOf (l : List Sect) (typ scope : Nat) : List Byte := match sect l typ scope with | some x => x.body | none => []

/-- Records of `n` bytes in a body. -/
def recs (n : Nat) (b : List Byte) : List (List Byte) := chunks n 1024 b

/-- A channel number of which only the low five bits count. -/
def chOf (n : Nat) : Ch := ⟨n % 32, Nat.mod_lt _ (by decide)⟩

/-- Bit `i` of a byte of a body. -/
def bitAt (l : List Byte) (o i : Nat) : Bool := (byteAt l o).getLsbD i

/-- Flash parameters (Table 6.5). -/
def parseFlash (b : List Byte) (o : Nat) : FlashParam where
  present := decide (be8 b o = 1)
  fmode := be8 b (o + 1)
  faddr := be8 b (o + 2)
  extInv := bitAt b (o + 3) 0
  page512 := bitAt b (o + 3) 1
  rdOpc := byteAt b (o + 4)
  rdWait := be8 b (o + 5)
  rdMode := be8 b (o + 6)
  ppOpc := byteAt b (o + 7)
  se4Opc := byteAt b (o + 8)
  be64Opc := byteAt b (o + 9)
  rdsrOpc := byteAt b (o + 10)
  wrenOpc := byteAt b (o + 11)
  wipMask := byteAt b (o + 12)
  sizeLog2 := be8 b (o + 13)

/-- A port profile (Table 6.6). -/
def parseProfile (b : List Byte) : Profile where
  proto := be8 b 0
  addr4 := bitAt b 1 0
  extInv := bitAt b 1 1
  page512 := bitAt b 1 2
  hclk := be16 b 2
  sfdpMajor := be8 b 4
  sfdpMinor := be8 b 5
  id := slice b 8 (be8 b 6)
  regImg := Vector.ofFn (fun i => byteAt b (24 + i.val))
  regWr := Vector.ofFn (fun i => byteAt b (32 + i.val))
  tppTyp := be16 b 40
  tse4Typ := be16 b 42
  tse64Typ := be16 b 44
  tmaxMul := be8 b 46
  opc := Vector.ofFn (fun i => wordBE b (48 + 4 * i.val))

/-- A SEGMENTS record (R183). -/
def parseSegment (r : List Byte) : Segment where
  vbase := 65536 * be32 r 0
  size := 65536 * be32 r 4
  fbase := 65536 * be32 r 8
  fp := chOf (be8 r 12)
  cs := decide (be8 r 13 = 1)

/-- A bank entry at an offset of a BANKSETS record. -/
def parseBank (r : List Byte) (o : Nat) : Bank where
  fbase := 65536 * be32 r o
  fp := chOf (be8 r (o + 4))
  cs := decide (be8 r (o + 5) = 1)

/-- A BANKSETS record (R183). -/
def parseBankSet (r : List Byte) : BankSet where
  vbase := 65536 * be32 r 0
  size := 65536 * be32 r 4
  initB := bitAt r 11 0
  initGold := bitAt r 11 1
  a := parseBank r 12
  b := parseBank r 20
  g := if be8 r 32 = 0xFF then none else some (parseBank r 28)

/-- A DESCRIPTORS record (R184). -/
def parseRgn (r : List Byte) : Rgn where
  base := wordBE r 0
  limit := wordBE r 4
  act := wordBE r 8
  aux := wordBE r 12

/-- An ADAPT body (Table 6.7). -/
def parseAdapt (b : List Byte) : Adapt where
  setOfs := be8 b 0
  onQuota := bitAt b 1 0
  onDepth := bitAt b 1 1
  onClock := bitAt b 1 2
  depthMin := be8 b 2
  depthInit := be8 b 3
  depthMax := be8 b 4
  siDown := be8 b 5
  upPasses := be8 b 6
  traceWindow := be8 b 7
  quotaMin := be16 b 8
  quotaMax := be16 b 10
  quotaInit := be16 b 12
  traceQuota := be16 b 14
  traceLimit := be16 b 16
  traceLead := be16 b 18
  divMin := be16 b 20
  divMax := be16 b 22
  divStep := be8 b 24

/-- Descriptors of a body; those past its records keep their register reset values (R184). -/
def parseRgns (b : List Byte) : Vector Rgn 64 :=
  let l := recs 16 b
  Vector.ofFn (fun i => match l[i.val]? with | some r => parseRgn r | none => {})

/-- One channel's tables, but for its SFDP space. -/
def parseChan (l : List Sect) (c : Ch) : ChanCfg :=
  let ch := bodyOf l 0x10 c.val
  let has := (sect l 0x10 c.val).isSome
  let conn := (sect l 0x12 c.val).isSome
  if has then
    { hasChannel := true
      grctl := wordBE ch 0
      provSlots := be8 ch 4
      pairCutReboot := bitAt ch 5 0
      css := be8 ch 6
      csh := be8 ch 7
      csgap := be8 ch 8
      fpDiv := be16 ch 10
      divMin := if conn then (parseAdapt (bodyOf l 0x15 c.val)).divMin else be16 ch 10
      cs0 := parseFlash ch 16
      cs1 := parseFlash ch 32
      rst := if conn then parseProfile (bodyOf l 0x11 c.val) else {}
      alt := (sect l 0x11 (32 + c.val)).map (fun x => parseProfile x.body)
      segs := (recs 16 (bodyOf l 0x12 c.val)).map parseSegment
      bsets := (recs 36 (bodyOf l 0x13 c.val)).map parseBankSet
      desc := if conn then parseRgns (bodyOf l 0x14 c.val) else Vector.replicate 64 {}
      adapt := if conn then parseAdapt (bodyOf l 0x15 c.val) else {}
      sfdp := [] }
  else {}

/-- A BINDINGS record (Table 6.9). -/
def parseBinding (r : List Byte) : Binding where
  bind := be8 r 0
  ch := chOf (be8 r 1)
  anchor := ⟨be8 r 2 % 128, Nat.mod_lt _ (by decide)⟩
  tally := ⟨be8 r 3 % 64, Nat.mod_lt _ (by decide)⟩
  regionId := be32 r 4
  minVersion := be32 r 8
  vbase := be32 r 12
  blocks := be32 r 16
  manBase := be32 r 20
  manPages := be8 r 24
  scrubPeriod := be8 r 25
  provPin := bitAt r 26 0

/-- The bindings of an image. -/
def parseBindings (l : List Sect) : List Binding := (recs 28 (bodyOf l 0x03 0xFF)).map parseBinding

/-- The anchors of an image: slot and 60-byte key (R187). -/
def parseAnchors (l : List Sect) : List (Nat × List Byte) :=
  (recs 64 (bodyOf l 0x02 0xFF)).map (fun r => (be8 r 0, slice r 4 60))

/-- A step record (Table 9.2). -/
def parseStep (r : List Byte) : Step where
  op := be8 r 0
  shutdownGraph := bitAt r 1 0
  watch := bitAt r 1 1
  onFailContinue := bitAt r 1 2
  pfAct := bf (byteAt r 1) 3 2
  deps := ([be8 r 2, be8 r 3, be8 r 4]).filter (· ≠ 0xFF)
  p0 := be8 r 5
  p1 := be16 r 6
  p2 := be32 r 8
  time := be32 r 12

/-- A LINE byte (Table 9.1). -/
def parseLine (b : List Byte) (i : Nat) : LineCfg where
  dir := bf (byteAt b (32 + i)) 0 2
  init := bitAt b (32 + i) 2
  sw := bitAt b (32 + i) 3

/-- A HOST record (Table 9.1). -/
def parseHost (b : List Byte) (n : Nat) : HostCfg where
  ch := if be8 b (128 + 4 * n) < 32 then some (chOf (be8 b (128 + 4 * n))) else none
  minHold := be8 b (129 + 4 * n)

/-- The SEQUENCE body (R270, R273). -/
def parseSeq (b : List Byte) : SeqCfg where
  smbSpeed := Vector.ofFn (fun p => be8 b p.val)
  pollUs := be16 b 4
  lines := Vector.ofFn (fun i => parseLine b i.val)
  hosts := Vector.ofFn (fun n => parseHost b n.val)
  steps := (recs 16 (b.drop 256)).map parseStep

/-- A pool-class record (Table 7.7). -/
def parsePool (b : List Byte) (i : Nat) : PoolClass where
  cap := be16 b (8 * i)
  hashW := be8 b (8 * i + 2)
  kvW := be8 b (8 * i + 3)
  osW := be8 b (8 * i + 4)
  sign := bitAt b (8 * i + 5) 0

/-- An instance record (Table 7.8). -/
def parseInst (b : List Byte) (n : Nat) : InstCfg where
  transport := be8 b (64 + 4 * n)
  addr := be8 b (65 + 4 * n)
  pool := ⟨be8 b (66 + 4 * n) % 8, Nat.mod_lt _ (by decide)⟩
  static := bitAt b (67 + 4 * n) 0

/-- The ARBITRATION body (Tables 7.9, 7.10). -/
def parseArb (b : List Byte) : ArbCfg where
  ageMs := be8 b 0
  portAgeMs := be8 b 1
  osAgeMs := be8 b 2
  devFloor := be16 b 4
  devHashW := be8 b 6
  devOsW := be8 b 7
  chs := Vector.ofFn (fun c => (be16 b (32 + 4 * c.val), be8 b (34 + 4 * c.val), be8 b (35 + 4 * c.val)))

/-- A task-set record (Table 15.4). -/
def parseTs (b : List Byte) (i : Nat) : TsCfg :=
  let o := 48 + 14 * i
  { tasks := be8 b o
    target := ⟨be8 b (o + 1) % 5, Nat.mod_lt _ (by decide)⟩
    doubleFatal := bitAt b (o + 2) 0
    armAtLock := bitAt b (o + 2) 1
    cores := BitVec.ofNat 4 (be8 b (o + 3))
    period := be32 b (o + 4)
    first := be32 b (o + 8) }

/-- The WATCHDOG body's values in force (R437). -/
def wdConfigure (b : List Byte) (w : Wd) : Wd :=
  { w with
    cfgOn := true
    eraseMax := be16 b 0
    extMs := be16 b 2
    timing := Vector.ofFn (fun i => (be32 b (8 + 8 * i.val), be32 b (12 + 8 * i.val)))
    tsCfg := Vector.ofFn (fun i => parseTs b i.val) }

/-- A tamper source record in force (Table 16.6); the source's counting goes on. -/
def parseTpSrc (b : List Byte) (i : Nat) (x : TpSrc) : TpSrc :=
  let o := 80 + 12 * i
  { x with n := be8 b o, resp := BitVec.ofNat 4 (be8 b (o + 1)), w := be16 b (o + 2), sens := BitVec.ofNat 2 (be8 b (o + 4))
           en := bitAt b (o + 5) 0 }

/-- The TAMPER body becomes the configuration in force (R470). -/
def tpConfigure (b : List Byte) (a : Ao) : Ao :=
  { a with
    cfgImage := true
    haltHold := be16 b 0
    ldEn := BitVec.ofNat 64 (be64 b 4)
    th := Vector.ofFn (fun i => byteAt b (16 + i.val))
    src := Vector.ofFn (fun i => parseTpSrc b i.val a.src[i]) }

/-- The FABRIC body (Table 13.3). -/
def parseFab (b : List Byte) : FabCfg where
  present := true
  fabricId := wordBE b 0
  nodeId := if h : be8 b 4 < 32 then some ⟨be8 b 4, h⟩ else none
  coordPri := be8 b 5
  pairNode := if h : be8 b 6 < 32 then some ⟨be8 b 6, h⟩ else none
  allowReset := bitAt b 7 0
  allowSnap := bitAt b 7 1
  acceptRelay := bitAt b 7 2
  settleMs := be8 b 8
  markTmo := be8 b 9
  fkey := if h : be8 b 10 < 128 then some ⟨be8 b 10, h⟩ else none
  vc0w := be8 b 12
  vc1w := be8 b 13
  vc3w := be8 b 14
  flueEn := BitVec.ofNat 4 (be8 b 16)

/-- The PAIR body's values in force (Table 15.8). -/
def prConfigure (b : List Byte) (p : Pr) : Pr :=
  { p with reclaim := bitAt b 0 0, handoverMs := be8 b 1, parityMax := be16 b 2, diagEn := wordBE b 4 }

/-! The SFDP space (R55). -/

/-- A little-endian DWORD of the space, as bytes. -/
def dword (n : Nat) : List Byte := leBytes 4 n

/-- READ entries of a profile with their opcodes. -/
def opcsOf (p : Profile) (cls : Nat) : List (Nat × Word) :=
  (List.range 256).filterMap (fun i => match p.opc[i]? with
    | some e => if e.getLsbD 20 ∧ bf e 0 5 = cls then some (i, e) else none
    | none => none)

/-- A DWORD whose content Table 2.9 states only in words: its bits are a free value, but for the fields given as
(lowest bit, width, value), whose places are those of JESD216 (PRESUMED).
Log entry 24 (PRESUMED). -/
def sfdpDword (free : Nat) (fs : List (Nat × Nat × Nat)) : List Byte :=
  dword ((fs.foldl (fun w f =>
    (w &&& ~~~((BitVec.allOnes 32 >>> (32 - f.2.1)) <<< f.1)) ||| (BitVec.ofNat 32 f.2.2 <<< f.1)) (Config.sfdpWord free)).toNat)

/-- The profiles of a channel, the reset profile first. -/
def profilesOf (k : ChanCfg) : List Profile := k.rst :: k.alt.toList

/-- The first READ entry of a mode: command protocol, address lanes, data lanes (as in Table 2.2). -/
def readOf (k : ChanCfg) (proto al dl : Nat) : Option (Nat × Word) :=
  ((profilesOf k).filter (fun p => p.proto = proto)).findSome? (fun p =>
    (opcsOf p 1).find? (fun e => bf e.2 7 2 = al && bf e.2 9 2 = dl))

/-- Wait states, mode clocks and opcode of a fast read as half a DWORD shows them; all zero where the mode is absent. -/
def fastHalf (e : Option (Nat × Word)) (lo : Nat) : List (Nat × Nat × Nat) :=
  match e with
  | some (o, w) => [(lo, 5, bf w 11 5), (lo + 5, 3, bf w 16 3), (lo + 8, 8, o)]
  | none => [(lo, 16, 0)]

/-- An ERASE entry with an address, of one size. -/
def eraseOpc (k : ChanCfg) (big : Bool) : Option Nat :=
  (profilesOf k).findSome? (fun p =>
    ((opcsOf p 3).find? (fun e => bf e.2 5 2 ≠ 0 && decide (e.2.getLsbD 27 = big))).map (·.1))

/-- Size exponent and opcode of an erase type; exponent 0 marks an unsupported type. -/
def eraseType (k : ChanCfg) (big : Bool) : Nat × Nat :=
  match eraseOpc k big with
  | some o => (if big then 16 else 12, o)
  | none => (0, 0)

/-- A typical time rounded up to a count of at most 32 units: the count less one, and the unit's number.
Log entry 24 (PRESUMED). -/
def timeField (t : Nat) : List Nat → Nat → Nat × Nat
  | [], n => (31, n - 1)
  | u :: us, n => if cdiv t u ≤ 32 then (cdiv t u - 1, n) else timeField t us (n + 1)

/-- An entry of a class exists in a profile of the channel. -/
def hasCls (k : ChanCfg) (cls : Nat) : Bool := (profilesOf k).any (fun p => !(opcsOf p cls).isEmpty)

/-- An entry of a class and opcode with a four-byte address exists. -/
def has4 (k : ChanCfg) (cls opc : Nat) : Bool :=
  (profilesOf k).any (fun p => (opcsOf p cls).any (fun e => e.1 = opc && bf e.2 5 2 = 2))

/-- Address bytes the table supports: 0 three only, 1 three or four, 2 four only. -/
def addrBytesField (k : ChanCfg) : Nat :=
  let l := (profilesOf k).flatMap (fun p => (opcsOf p 1).map (fun e => bf e.2 5 2))
  if l.any (fun a => a = 3) || (l.contains 1 && l.contains 2) then 1 else if l.contains 2 then 2 else 0

/-- A profile of the channel uses 8D. -/
def uses8D (k : ChanCfg) : Bool := k.rst.proto = 3 || (match k.alt with | some p => p.proto = 3 | none => false)

/-- The 8D profile's command extension is the inverted opcode. -/
def ext8D (k : ChanCfg) : Bool := (profilesOf k).any (fun p => p.proto = 3 && p.extInv)

/-- The Basic Flash Parameter Table (20 DWORDs).
Log entry 24 (PRESUMED). -/
def sfdpBasic (k : ChanCfg) (size : Nat) : List Byte :=
  let bits := 8 * size
  let density := if bits ≤ 2 ^ 31 then bits - 1 else 2 ^ 31 + Nat.log2 bits
  let e4 := eraseType k false
  let e64 := eraseType k true
  let r := k.rst
  let m := r.tmaxMul / 2 - 1
  let t4 := timeField r.tse4Typ [1, 16, 128, 1000] 0
  let t64 := timeField r.tse64Typ [1, 16, 128, 1000] 0
  let tp := timeField r.tppTyp [8, 64] 0
  let has := fun al dl => b2n (readOf k 0 al dl).isSome
  sfdpDword 0 [(0, 2, if e4.1 = 0 then 3 else 1), (8, 8, if e4.1 = 0 then 0xFF else e4.2), (16, 1, has 0 1), (17, 2, addrBytesField k),
    (19, 1, 0), (20, 1, has 1 1), (21, 1, has 2 2), (22, 1, has 0 2)] ++
  dword density ++
  sfdpDword 2 (fastHalf (readOf k 0 2 2) 0 ++ fastHalf (readOf k 0 0 2) 16) ++
  sfdpDword 3 (fastHalf (readOf k 0 0 1) 0 ++ fastHalf (readOf k 0 1 1) 16) ++
  sfdpDword 4 [(0, 1, 0), (4, 1, b2n (readOf k 1 2 2).isSome)] ++
  sfdpDword 5 (fastHalf none 16) ++
  sfdpDword 6 (fastHalf (readOf k 1 2 2) 16) ++
  sfdpDword 7 [(0, 8, e4.1), (8, 8, e4.2), (16, 8, e64.1), (24, 8, e64.2)] ++
  sfdpDword 8 [(0, 32, 0)] ++
  sfdpDword 9 [(0, 4, m), (4, 5, t4.1), (9, 2, t4.2), (11, 5, t64.1), (16, 2, t64.2)] ++
  sfdpDword 10 [(0, 4, m), (4, 4, if r.page512 then 9 else 8), (8, 5, tp.1), (13, 1, tp.2)] ++
  sfdpDword 11 [] ++
  sfdpDword 12 [] ++
  sfdpDword 13 [(2, 6, 1)] ++
  sfdpDword 14 [(9, 1, 0), (20, 3, 0)] ++
  sfdpDword 15 [(0, 7, 1), (12, 1, b2n (hasCls k 14 && hasCls k 15)), (14, 1, b2n (hasCls k 12)), (24, 1, b2n (hasCls k 11))] ++
  sfdpDword 16 (fastHalf (readOf k 0 3 3) 0 ++ fastHalf (readOf k 0 0 3) 16) ++
  sfdpDword 17 (if uses8D k then [(29, 2, b2n (ext8D k))] else []) ++ sfdpDword 18 [(20, 3, 0)] ++ sfdpDword 19 []

/-- The 4-byte Address Instruction Table (2 DWORDs): the four-byte opcodes present.
Log entry 24 (PRESUMED). -/
def sfdp4Byte (k : ChanCfg) : List Byte :=
  let e4 := (profilesOf k).findSome? (fun p => ((opcsOf p 3).find? (fun e => bf e.2 5 2 = 2 && !e.2.getLsbD 27)).map (·.1))
  let e64 := (profilesOf k).findSome? (fun p => ((opcsOf p 3).find? (fun e => bf e.2 5 2 = 2 && e.2.getLsbD 27)).map (·.1))
  sfdpDword 20 [(0, 1, b2n (has4 k 1 0x13)), (1, 1, b2n (has4 k 1 0x0C)), (2, 1, b2n (has4 k 1 0x3C)), (3, 1, b2n (has4 k 1 0xBC)),
    (4, 1, b2n (has4 k 1 0x6C)), (5, 1, b2n (has4 k 1 0xEC)), (6, 1, b2n (has4 k 2 0x12)), (7, 1, b2n (has4 k 2 0x34)),
    (8, 1, b2n (has4 k 2 0x3E)), (9, 1, b2n e4.isSome), (10, 1, b2n e64.isSome), (11, 2, 0), (13, 1, b2n (has4 k 1 0x0E)),
    (14, 1, b2n (has4 k 1 0xBE)), (15, 1, b2n (has4 k 1 0xEE)), (20, 1, b2n (has4 k 1 0x7C)), (21, 1, b2n (has4 k 1 0xCC)),
    (22, 1, b2n (has4 k 1 0xFD)), (23, 1, b2n (has4 k 2 0x84)), (24, 1, b2n (has4 k 2 0x8E))] ++
  sfdpDword 21 [(0, 8, e4.getD 0xFF), (8, 8, e64.getD 0xFF), (16, 16, 0xFFFF)]

/-- A parameter header: ID low, revision, length, pointer, ID high. -/
def sfdpHeader (idLo idHi major minor len ptr : Nat) : List Byte :=
  [BitVec.ofNat 8 idLo, BitVec.ofNat 8 minor, BitVec.ofNat 8 major, BitVec.ofNat 8 len] ++ leBytes 3 ptr ++ [BitVec.ofNat 8 idHi]

/-- The xSPI Profile 1.0 table (5 DWORDs): the 8D read opcode and its wait cycles, which hold at every clock up to HCLK_MAX. The erase
opcodes and the extension form stand in DWORDs 8 and 18 of the Basic Flash Parameter Table.
Log entry 24 (PRESUMED). -/
def sfdpXspi (k : ChanCfg) : List Byte :=
  let e := ((profilesOf k).filter (fun p => p.proto = 3)).findSome? (fun p => (opcsOf p 1).head?)
  let w := match e with | some (_, w) => bf w 11 5 | none => 0
  sfdpDword 22 (match e with | some (o, _) => [(8, 8, o)] | none => []) ++ sfdpDword 23 [] ++ sfdpDword 24 [] ++
    sfdpDword 25 [(7, 5, w)] ++ sfdpDword 26 [(7, 5, w), (17, 5, w), (27, 5, w)]

/-- The composed SFDP space: header, parameter headers, and the tables behind them in order (R55).
Log entry 24 (PRESUMED). -/
def composeSfdp (k : ChanCfg) : List Byte :=
  let size := k.segs.foldl (fun a g => a + g.size) 0
  let big := decide (2 ^ 24 < size)
  let x := uses8D k
  let n := 1 + b2n big + b2n x
  let p0 := 8 + 8 * n
  let p1 := p0 + 80
  let p2 := p1 + 8 * b2n big
  [0x53, 0x46, 0x44, 0x50, BitVec.ofNat 8 k.rst.sfdpMinor, BitVec.ofNat 8 k.rst.sfdpMajor, BitVec.ofNat 8 (n - 1), 0xFF] ++
  sfdpHeader 0x00 0xFF k.rst.sfdpMajor k.rst.sfdpMinor 20 p0 ++
  (if big then sfdpHeader 0x84 0xFF 1 0 2 p1 else []) ++
  (if x then sfdpHeader 0x05 0xFF 1 0 5 p2 else []) ++
  sfdpBasic k size ++
  (if big then sfdp4Byte k else []) ++
  (if x then sfdpXspi k else [])

end Sys2Proof.Machine
end

