-- ==== Sys2Proof/Machine/ImageCheck.lean ====
section
/-! DEFINITION. What the structure loader rejects in header, framing, presence and the per-channel sections (R36, R41-R44,
R51, R74, R76, R79, R146, R148-R149, R164, R175-R185, R191, R218, R475, R501, R504, Table 6.10). An error is an image
offset, the position of its section, and its code; of one step's errors the one of lowest offset is reported. -/

namespace Sys2Proof.Machine

/-- Offset, section position, code. -/
abbrev LdErr := Nat × Nat × Nat

/-- The error of lowest offset; the first listed of several there. -/
def firstErr : List LdErr → Option LdErr
  | [] => none
  | e :: t => match firstErr t with
    | none => some e
    | some f => if f.1 < e.1 then some f else some e

/-- An error at a byte of a section's body, where `bad` holds. -/
def errAt (x : Sect) (rel code : Nat) (bad : Bool) : List LdErr := if bad then [(x.ofs + 8 + rel, x.pos, code)] else []

/-- An error at a byte of the header, where `bad` holds. -/
def hdrErr (ofs code : Nat) (bad : Bool) : List LdErr := if bad then [(ofs, 0, code)] else []

/-- Some byte of a range of a body is nonzero. -/
def nonzero (b : List Byte) (o n : Nat) : Bool := (slice b o n).any (· ≠ 0)

/-! Step 1: the header. -/

/-- An HSS public key of supported types; both of 32-byte nodes where `m32` (R176, R187). -/
def keyTypesOk (key : List Byte) (m32 : Bool) : Bool :=
  decide (1 ≤ be32 key 0 ∧ be32 key 0 ≤ 3) &&
  (match lmsType (be32 key 4), otsType (be32 key 8) with
    | some (n, _), some (n', _) => decide (n = n') && (!m32 || decide (n = 32))
    | _, _ => false)

/-- Table 6.1 and R176. An image of no bytes stands for a source that cannot be read. -/
def headerErrs (s : State) (img : List Byte) : List LdErr :=
  let key := imgKey img
  let len := imgLen img
  let sl := imgSigned img
  let serial := beNat (slice img 24 8)
  hdrErr 0 0x01 img.isEmpty ++
  hdrErr 0 0x02 (be32 img 0 ≠ 0x545A5349) ++ hdrErr 4 0x02 (be16 img 4 ≠ 1) ++ hdrErr 6 0x02 (be16 img 6 ≠ 128) ++
  hdrErr 8 0x03 (262144 < len || len ≤ sl ||
    (keyTypesOk key true && hssLen (be32 key 0) (be32 key 4) (be32 key 8) ≠ some (len - sl))) ++
  hdrErr 12 0x03 (sl % 4 ≠ 0 || sl < 136) ++
  hdrErr 16 0x02 (256 < imgRollback img) ++ hdrErr 18 0x04 (be16 img 18 ≠ 0x3208) ++
  hdrErr 20 0x04 (s.gc.rev.toNat < be8 img 20) ++ hdrErr 22 0x02 (2 ≤ be16 img 22) ++
  hdrErr 24 0x05 (serial ≠ 0 && serial ≠ beNat (otpSerial s)) ++
  hdrErr 36 0x06 (curGen s ≠ some (imgGen img)) ++
  hdrErr 40 0x06 (!keyTypesOk key true || digBytes (sha256 key) ≠ genSkey s (imgGen img)) ++
  hdrErr 100 0x02 (nonzero img 100 28)

/-! Step 6: framing, section headers, lengths, reserved bytes. -/

/-- Types whose scope is a channel, and the known types (Table 6.3). -/
def isChanType (t : Nat) : Bool := 0x10 ≤ t && t ≤ 0x15
def knownType (t : Nat) : Bool := [1, 2, 3, 0x20, 0x21, 0x22, 0x23, 0x24, 0x25, 0x26, 0x27, 0x30].contains t || isChanType t

/-- The scope is outside the form its type allows (Table 6.2). -/
def scopeBad (t sc : Nat) : Bool :=
  if isChanType t then 64 ≤ sc || (t ≠ 0x11 && 32 ≤ sc) else sc ≠ 0xFF

/-- A body of `n`-byte records, `lo` to `hi` of them. -/
def recLen (n lo hi len : Nat) : Bool := len % n = 0 && lo ≤ len / n && len / n ≤ hi

/-- The body length breaks its definition (Table 6.3 and the defining chapters). -/
def lenBad (x : Sect) : Bool :=
  let n := x.body.length
  !(match x.typ with
    | 0x01 => n = 8 | 0x02 => recLen 64 1 128 n | 0x03 => recLen 28 1 255 n
    | 0x10 => n = 48 | 0x11 => n = 1072 | 0x12 => recLen 16 1 16 n | 0x13 => recLen 36 1 15 n
    | 0x14 => recLen 16 1 64 n | 0x15 => n = 28
    | 0x20 => n = 48 | 0x21 => n = 320 | 0x22 => n = 160 | 0x23 => n = 272 | 0x24 => n = 200
    | 0x25 => n = 32 | 0x26 => n = 32 | 0x27 => 8 ≤ n && n = 8 + be32 x.body 4
    | 0x30 => 256 + 16 ≤ n && recLen 16 1 128 (n - 256)
    | _ => true)

/-- The reserved fields of Tables 6.4-6.9: offset and size. An error stands at the field's first byte (R191). -/
def reservedBytes (x : Sect) : List (Nat × Nat) :=
  match x.typ with
  | 0x01 => [(2, 2)]
  | 0x03 => (List.range (x.body.length / 28)).map (fun i => (28 * i + 27, 1))
  | 0x10 => [(9, 1), (12, 4), (30, 2), (46, 2)]
  | 0x11 => [(7, 1), (47, 1)]
  | 0x15 => [(25, 3)]
  | _ => []

/-- What is wrong with a section's header, length and reserved bytes; `prev` is the pair (TYPE, SCOPE) before it. A section out of order
or duplicated stands at the TYPE byte of the later one.
Log entry 64 (DESIGN CHOICE). -/
def sectErrs (x : Sect) (prev : Option Nat) : List LdErr :=
  let known := knownType x.typ
  let at_ := fun (o code : Nat) (bad : Bool) => if bad then [((x.ofs + o, x.pos, code) : LdErr)] else []
  at_ 0 0x0B (match prev with | some p => 256 * x.typ + x.scope ≤ p | none => false) ++
  at_ 0 0x0C (!known && x.sflags % 2 = 0) ++
  at_ 1 0x0C (known && x.sver ≠ 1) ++
  at_ 2 0x0F (2 ≤ x.sflags) ++
  at_ 3 0x0C (known && scopeBad x.typ x.scope) ++
  at_ 4 0x0D (known && lenBad x) ++
  (reservedBytes x).flatMap (fun (o, n) => errAt x o 0x0F (nonzero x.body o n))

/-- The walk of R178 and R179 up to SIGNED_LEN; `n` bounds the sections. -/
def walkErrs (img : List Byte) (stop : Nat) : Nat → Nat → Nat → Option Nat → List LdErr
  | 0, _, _, _ => []
  | n + 1, pos, ofs, prev =>
    if stop ≤ ofs then hdrErr 21 0x0A (pos ≤ imgCount img)
    else if imgCount img < pos then [(ofs, pos, 0x0A)]
    else
      let len := be32 img (ofs + 4)
      let x := sectAt img pos ofs
      if stop < ofs + 8 + len ∨ len % 4 ≠ 0 ∨ len < 4 then
        (sectErrs { x with body := [] } prev).filter (fun e => e.1 < ofs + 4) ++ [(ofs + 4, pos, 0x0A)]
      else sectErrs x prev ++ walkErrs img stop n (pos + 1) (ofs + 8 + len) (some (256 * x.typ + x.scope))

/-- Ignorable sections that a walk skips (R179). -/
def skippedOf (l : List Sect) : Nat := (l.filter (fun x => !knownType x.typ)).length

/-! Step 7: presence. -/

/-- Where a missing section would begin (R191). -/
def missingErr (img : List Byte) (l : List Sect) (typ scope : Nat) : LdErr :=
  let key := 256 * typ + scope
  match l.find? (fun x => key < 256 * x.typ + x.scope) with
  | some x => (x.ofs, 0, 0x0E)
  | none => (imgSigned img, 0, 0x0E)

/-- The channel is connected in this image. -/
def connIn (l : List Sect) (c : Ch) : Bool := (sect l 0x12 c.val).isSome

/-- The ports an image's segments and banks name. -/
def portsIn (l : List Sect) : List Nat :=
  allCh.flatMap (fun c =>
    (recs 16 (bodyOf l 0x12 c.val)).map (fun r => be8 r 12) ++
    (recs 36 (bodyOf l 0x13 c.val)).flatMap (fun r => [be8 r 16, be8 r 24] ++ (if be8 r 32 = 0xFF then [] else [be8 r 32])))

/-- Every enabled descriptor of the connected channels, as (channel, index, descriptor). -/
def rgnsIn (l : List Sect) : List (Ch × Nat × Rgn) :=
  allCh.flatMap (fun c => if connIn l c then
    ((recs 16 (bodyOf l 0x14 c.val)).map parseRgn).zipIdx.filterMap (fun (d, i) => if rgnEn d then some (c, i, d) else none) else [])

/-- Table 6.3's presence column. R191 places a missing section; a section present that must be absent stands at its own header, under
its position.
Log entry 64 (DESIGN CHOICE). -/
def presenceErrs (img : List Byte) (l : List Sect) : List LdErr :=
  let has := fun t => (sect l t 0xFF).isSome
  let must := fun t (want : Bool) => if want && !has t then [missingErr img l t 0xFF] else []
  let only := fun t (want : Bool) => match sect l t 0xFF with
    | some x => if want then [] else [((x.ofs, x.pos, 0x0E) : LdErr)]
    | none => []
  let verified := (rgnsIn l).any (fun x => !rgnOpen x.2.2)
  [0x01, 0x21, 0x22, 0x23, 0x24, 0x30].flatMap (fun t => must t true) ++
  must 0x03 verified ++ only 0x03 verified ++ must 0x02 (has 0x03) ++ only 0x02 (has 0x03) ++
  must 0x26 (imgPair img) ++ only 0x26 (imgPair img) ++
  allCh.flatMap (fun c =>
    if connIn l c then
      [0x10, 0x11, 0x14, 0x15].flatMap (fun t => if (sect l t c.val).isSome then [] else [missingErr img l t c.val])
    else (l.filter (fun x => isChanType x.typ && x.typ ≠ 0x10 && x.scope % 32 = c.val)).map (fun x => (x.ofs, x.pos, 0x0C))) ++
  (portsIn l).flatMap (fun p => if p < 32 ∧ (sect l 0x10 p).isNone then [missingErr img l 0x10 p] else [])

/-! Step 8: CHANNEL. -/

/-- The I/O bank of a channel (Table 17.2), and whether it is at 3.3 V. -/
def bankOfCh (c : Nat) : Nat := if c < 8 then c / 2 else (c + 8) / 4
def at33 (s : State) (c : Nat) : Bool := s.pd.bankLvl.getLsbD (bankOfCh c)

/-- The least divider of a port (Table 5.2, R475). -/
def divLow (s : State) (c : Nat) : Nat := if c < 8 && !at33 s c then 40 else 60

/-- Flash parameters at an offset of the CHANNEL body (Table 6.5). -/
def flashErrs (s : State) (x : Sect) (c o : Nat) : List LdErr :=
  let b := x.body
  let e := fun rel (bad : Bool) => errAt x (o + rel) 0x10 bad
  let fm := be8 b (o + 1)
  if be8 b o = 0 then (List.range 13).flatMap (fun i => e (i + 1) (byteAt b (o + i + 1) ≠ 0))
  else
    e 0 (be8 b o ≠ 1) ++ e 1 (9 < fm || (6 ≤ fm && 8 ≤ c) || (fm = 9 && at33 s c)) ++
    e 2 ((be8 b (o + 2) ≠ 3 && be8 b (o + 2) ≠ 4) || (fm = 9 && be8 b (o + 2) ≠ 4)) ++
    e 3 (4 ≤ be8 b (o + 3)) ++ e 5 (31 < be8 b (o + 5)) ++ e 6 (7 < be8 b (o + 6)) ++ e 12 (be8 b (o + 12) = 0) ++
    e 13 (be8 b (o + 13) < 16 || 32 < be8 b (o + 13))

/-- The CHANNEL section (Table 6.4, R185, R504). -/
def channelErrs (s : State) (l : List Sect) (x : Sect) : List LdErr :=
  let b := x.body
  let c := x.scope % 32
  let g := wordBE b 0
  let div := be16 b 10
  let ad := bodyOf l 0x15 c
  let conn := (sect l 0x12 c).isSome
  let lo := if conn then be16 ad 20 else divLow s c
  let hi := if conn then be16 ad 22 else 511
  errAt x 0 0x10 (g &&& 0xFF008000#32 ≠ 0 || bf g 8 2 = 3 || (bf g 8 2 ≠ 0 && bf g 16 8 = 0)) ++
  errAt x 4 0x10 (8 < be8 b 4) ++ errAt x 5 0x10 (2 ≤ be8 b 5) ++ errAt x 10 0x10 (div < lo || hi < div) ++
  flashErrs s x c 16 ++ flashErrs s x c 32

/-! Step 8: PROFILE. -/

/-- Classes with a data phase, and those of them that return data. -/
def dataCls (n : Nat) : Bool := [1, 2, 6, 7, 8, 9, 10].contains n
def outCls (n : Nat) : Bool := [1, 6, 7, 9, 10].contains n

/-- The lane fields of an entry that R501 interprets. -/
def lanesUsed (e : Word) : List Nat :=
  (if bf e 5 2 ≠ 0 then [bf e 7 2] else []) ++ (if dataCls (bf e 0 5) then [bf e 9 2] else [])

/-- An entry in use breaks R36, R76, R182 or R501; `proto` is the profile's protocol. -/
def entryBad (e : Word) (proto c : Nat) (hasAlt : Bool) : Bool :=
  let cls := bf e 0 5
  let al := bf e 5 2
  let act := bf e 24 2
  18 ≤ cls || bf e 28 4 ≠ 0 || (bf e 21 3 ≠ 0 && cls ≠ 7 && cls ≠ 8) ||
  ((proto = 1 || proto = 2) && (lanesUsed e).any (· ≠ proto + 1)) ||
  (proto = 3 && ((al ≠ 0 && al ≠ 2) || (lanesUsed e).any (· ≠ 3))) ||
  (8 ≤ c && (lanesUsed e).contains 3) ||
  (proto = 0 && al ≠ 0 && dataCls cls && bf e 7 2 ≠ 0 && bf e 7 2 ≠ bf e 9 2) ||
  ((cls = 1 || cls = 2) && al = 0) ||
  (if (cls = 1 || cls = 2 || cls = 3) && al ≠ 0 then act = 1 else if cls = 3 then act < 2 else act = 0) ||
  (e.getLsbD 27 && !(cls = 3 && al ≠ 0)) ||
  (cls = 13 && act = 1 && !hasAlt)

/-- Command edges of a protocol. -/
def cmdCount (proto : Nat) : Nat := match proto with | 0 => 8 | 1 => 2 | 2 => 1 | _ => 2

/-- An entry that returns data launches its first unit too early at HCLK_MAX (R51, R73, R74). Times are in units of 1 ps
divided by HCLK_MAX in 100 kHz: an edge is 10^7 of them, in 8D half that. -/
def timingBad (e : Word) (proto hclk : Nat) : Bool :=
  let sp := if proto = 3 then 5000000 else 10000000
  let n := cmdCount proto
  let w := bf e 11 5 + bf e 16 3
  let step := if proto = 3 then 2 * w else w
  let lanes := 2 ^ bf e 7 2
  let al := bf e 5 2
  let bits := match al with | 0 => [] | 1 => [24] | 2 => [32] | _ => [24, 32]
  if al = 0 ∨ (bf e 0 5 = 9 ∧ bf e 24 2 = 1) then
    let na := (match bits with | [] => 0 | b :: _ => b) / lanes
    decide ((n + na + step) * sp < (n - 1) * sp + 2000 * hclk + 5000000)
  else bits.any (fun b =>
    let ea := n + b / lanes - 1
    let launch := (ea + 1 + step) * sp
    decide (launch < ea * sp + 4000 * hclk + 5000000) ||
    (bf e 0 5 = 1 && decide (launch < (n + (b - 13) / lanes) * sp + 12000 * hclk + 5000000)))

/-- The PROFILE section (Table 6.6, R182, R475, R504). -/
def profileErrs (s : State) (l : List Sect) (x : Sect) : List LdErr :=
  let b := x.body
  let c := x.scope % 32
  let proto := be8 b 0
  let hclk := be16 b 2
  let hasAlt := (sect l 0x11 (32 + c)).isSome
  let ents := (List.range 256).map (fun i => (i, wordBE b (48 + 4 * i)))
  let e := fun rel (bad : Bool) => errAt x rel 0x11 bad
  e 0 (3 < proto || (2 ≤ proto && 8 ≤ c) || (proto = 3 && at33 s c)) ++ e 1 (8 ≤ be8 b 1) ++
  e 2 (hclk = 0 || (if proto = 3 && !at33 s c then 2000 else 1330) < hclk) ++
  e 4 (be8 b 4 ≠ 1) ++ e 5 (be8 b 5 < 6 || 8 < be8 b 5 || (proto = 3 && be8 b 5 < 7)) ++
  e 6 (be8 b 6 = 0 || 16 < be8 b 6) ++ e 8 (nonzero b (8 + be8 b 6) (16 - be8 b 6)) ++
  e 40 (2048 < be16 b 40) ++ e 42 (32000 < be16 b 42) ++ e 44 (32000 < be16 b 44) ++
  e 46 (be8 b 46 < 2 || 32 < be8 b 46 || be8 b 46 % 2 ≠ 0) ++
  ents.flatMap (fun (i, w) =>
    if w.getLsbD 20 && bf w 0 5 ≠ 0 then
      if entryBad w proto c hasAlt then errAt x (48 + 4 * i) 0x12 true
      else errAt x (48 + 4 * i) 0x13 (outCls (bf w 0 5) && proto ≤ 3 && timingBad w proto hclk)
    else [])

/-! Step 8: SEGMENTS and BANKSETS. -/

/-- Ranges [a, a+n) and [b, b+m) meet. -/
def meets (a n b m : Nat) : Bool := a < b + m && b < a + n

/-- SEGMENTS (R148, R183), record by record; `at_` is where the next one must begin, in units of 64 KiB. -/
def segErrs (x : Sect) : Nat → Nat → List (List Byte) → List LdErr
  | _, _, [] => []
  | i, at_, r :: t =>
    let e := fun rel (bad : Bool) => errAt x (16 * i + rel) 0x14 bad
    e 0 (be32 r 0 ≠ at_) ++ e 4 (be32 r 4 = 0 || 65536 < be32 r 0 + be32 r 4) ++ e 12 (31 < be8 r 12) ++ e 13 (1 < be8 r 13) ++
      e 14 (be16 r 14 ≠ 0) ++ segErrs x (i + 1) (be32 r 0 + be32 r 4) t

/-- One bank entry of a BANKSETS record at an offset. -/
def bankErrs (x : Sect) (base : Nat) (r : List Byte) (o : Nat) : List LdErr :=
  let e := fun rel (bad : Bool) => errAt x (base + o + rel) 0x14 bad
  e 4 (31 < be8 r (o + 4)) ++ e 5 (1 < be8 r (o + 5)) ++ e 6 (be16 r (o + 6) ≠ 0)

/-- BANKSETS (R148, R183): `before` are the records already seen. -/
def bsetErrs (x : Sect) (segs : List Segment) : Nat → List (List Byte) → List (List Byte) → List LdErr
  | _, _, [] => []
  | i, before, r :: t =>
    let o := 36 * i
    let e := fun rel (bad : Bool) => errAt x (o + rel) 0x14 bad
    let b := parseBankSet r
    e 0 (!segs.any (fun g => decide (g.vbase ≤ b.vbase) && decide (b.vbase + b.size ≤ g.vbase + g.size)) ||
        before.any (fun q => let p := parseBankSet q; meets p.vbase p.size b.vbase b.size)) ++
      e 4 (b.size = 0) ++ e 8 (4 ≤ be32 r 8 || (b.initGold && b.g.isNone)) ++
      bankErrs x o r 12 ++ bankErrs x o r 20 ++
      (if be8 r 32 = 0xFF then e 28 (be32 r 28 ≠ 0) ++ e 33 (be8 r 33 ≠ 0) ++ e 34 (be16 r 34 ≠ 0) else bankErrs x o r 28) ++
      bsetErrs x segs (i + 1) (before ++ [r]) t

/-- A use of flash bytes: channel, port, chip select, range, golden, and where the entry's FP and FBASE fields stand. -/
structure FlashUse where
  ch : Ch
  fp : Nat
  cs : Bool
  lo : Nat
  hi : Nat
  gold : Bool
  fpOfs : Nat
  baseOfs : Nat
  pos : Nat
deriving DecidableEq, Repr

/-- The uses a channel's segments make. -/
def segUses (l : List Sect) (c : Ch) : List FlashUse :=
  match sect l 0x12 c.val with
  | none => []
  | some x => (recs 16 x.body).zipIdx.map (fun (r, i) =>
      let g := parseSegment r
      { ch := c, fp := be8 r 12, cs := g.cs, lo := g.fbase, hi := g.fbase + g.size, gold := false
        fpOfs := x.ofs + 8 + 16 * i + 12, baseOfs := x.ofs + 8 + 16 * i + 8, pos := x.pos })

/-- The use one bank entry makes. -/
def bankUse (c : Ch) (x : Sect) (i : Nat) (r : List Byte) (o : Nat) : FlashUse :=
  let b := parseBank r o
  { ch := c, fp := be8 r (o + 4), cs := b.cs, lo := b.fbase, hi := b.fbase + 65536 * be32 r 4, gold := decide (o = 28)
    fpOfs := x.ofs + 8 + 36 * i + o + 4, baseOfs := x.ofs + 8 + 36 * i + o, pos := x.pos }

/-- The uses a channel's banks make. -/
def bankUses (l : List Sect) (c : Ch) : List FlashUse :=
  match sect l 0x13 c.val with
  | none => []
  | some x => (recs 36 x.body).zipIdx.flatMap (fun (r, i) =>
      [bankUse c x i r 12, bankUse c x i r 20] ++ (if be8 r 32 = 0xFF then [] else [bankUse c x i r 28]))

/-- The part of a use of a segment that no bank set covers: pieces between the sets, which are taken in ascending order. -/
def pieces (u : FlashUse) : List (Nat × Nat) → List FlashUse
  | [] => if u.lo < u.hi then [u] else []
  | (a, b) :: t => (if u.lo < a then [{ u with hi := a }] else []) ++ pieces { u with lo := max u.lo b } t

/-- Insert a range into an ascending list. -/
def insRange (x : Nat × Nat) : List (Nat × Nat) → List (Nat × Nat)
  | [] => [x]
  | y :: t => if x.1 ≤ y.1 then x :: y :: t else y :: insRange x t

/-- Segment bytes outside bank sets, as uses (R149). -/
def openUses (l : List Sect) (c : Ch) : List FlashUse :=
  let bs := (recs 36 (bodyOf l 0x13 c.val)).map parseBankSet
  ((segUses l c).zip ((recs 16 (bodyOf l 0x12 c.val)).map parseSegment)).flatMap (fun (u, g) =>
    let inside := (bs.filter (fun b => meets g.vbase g.size b.vbase b.size)).map (fun b => (g.fbase + (b.vbase - g.vbase), g.fbase + (b.vbase + b.size - g.vbase)))
    pieces u (inside.foldl (fun a r => insRange r a) []))

/-- A host-side port's width is 8 (R42). -/
def wideHost (l : List Sect) (c : Nat) : Bool :=
  [c, 32 + c].any (fun sc =>
    let b := bodyOf l 0x11 sc
    !b.isEmpty && (2 ≤ be8 b 0 || (List.range 256).any (fun i =>
      let e := wordBE b (48 + 4 * i)
      e.getLsbD 20 && bf e 0 5 ≠ 0 && (lanesUsed e).contains 3)))

/-- Channels with one of the given uses on a port (R44, R218). -/
def usersOf (us : List FlashUse) (p : Nat) : List Ch := ((us.filter (fun u => u.fp = p)).map (·.ch)).eraseDups

/-- Flash bounds, widths and sharing (R42, R183, R218); a port's fourth user stands at the use that completes it. -/
def boundErrs (l : List Sect) : List FlashUse → List FlashUse → List LdErr
  | _, [] => []
  | before, u :: t =>
    let b := bodyOf l 0x10 (u.fp % 32)
    let o := if u.cs then 32 else 16
    let fits := be8 b o = 1 && decide (u.hi ≤ 2 ^ min (be8 b (o + 13)) 32)
    let fourth := decide ((usersOf before u.fp).length = 3) && !(usersOf before u.fp).contains u.ch
    (if u.fp < 32 ∧ ((wideHost l u.ch.val ∧ 8 ≤ u.fp) ∨ !fits ∨ fourth) then [((u.fpOfs, u.pos, 0x14) : LdErr)] else []) ++
      boundErrs l (before ++ [u]) t

/-- Two uses meet where R149 does not let them. -/
def clash (u v : FlashUse) : Bool :=
  u.fp = v.fp && u.cs = v.cs && meets u.lo (u.hi - u.lo) v.lo (v.hi - v.lo) &&
    !(u.gold && v.gold && u.ch ≠ v.ch && u.lo = v.lo && u.hi = v.hi)

/-- R149 over pairs: the later of two uses that clash is at fault. -/
def clashErrs : List FlashUse → List LdErr
  | [] => []
  | u :: t => (t.filter (clash u)).map (fun v =>
      if u.baseOfs < v.baseOfs then ((v.baseOfs, v.pos, 0x14) : LdErr) else (u.baseOfs, u.pos, 0x14)) ++ clashErrs t

/-- Every use of the connected channels: segments in order, then banks, by channel. -/
def allUses (l : List Sect) : List FlashUse := allCh.flatMap (segUses l) ++ allCh.flatMap (bankUses l)

/-- The rules on segments and bank sets across the image. -/
def crossErrs (l : List Sect) : List LdErr :=
  boundErrs l [] (allUses l) ++ clashErrs (allCh.flatMap (openUses l) ++ allCh.flatMap (bankUses l))

/-! Step 8: DESCRIPTORS. -/

/-- The chip selects of port `c` that a range of virtual bytes of channel `c` lies on, and whether every segment and bank of it
meets R44. -/
def mirrorPlace (k : ChanCfg) (c : Ch) (lo hi : Nat) : List Bool × Bool :=
  let bs := k.bsets.filter (fun b => meets b.vbase b.size lo (hi - lo))
  let gs := k.segs.filter (fun g => meets g.vbase g.size lo (hi - lo))
  let banks := bs.flatMap (fun b => ([b.a, b.b] ++ b.g.toList).map (fun x => (b, x)))
  let bare := fun (g : Segment) => (List.range ((hi - lo) / 4096)).any (fun i =>
    meets g.vbase g.size (lo + 4096 * i) 4096 && !bs.any (fun b => meets b.vbase b.size (lo + 4096 * i) 4096))
  ((gs.filter bare).map (·.cs) ++ banks.map (fun x => x.2.cs),
   gs.all (fun g => g.fp = c && g.fbase = g.vbase) && banks.all (fun x => x.2.fp = c && x.2.fbase = x.1.vbase))

/-- R44 for a mirror-mode region; `users` are the channels with a segment on port `c`. -/
def mirrorOk (k : ChanCfg) (c : Ch) (users : List Ch) (lo hi : Nat) : Bool :=
  let (css, placed) := mirrorPlace k c lo hi
  placed && users.all (· = c) && (k.rst :: k.alt.toList).all (fun p => (opcsOf p 1).all (fun e =>
    css.all (fun cs => let f := if cs then k.cs1 else k.cs0; f.present && bf e.2 11 5 = f.rdWait + 2)))

/-- A word of GR_RGN_ACT has a reserved bit or encoding. -/
def actReserved (a : Word) : Bool :=
  a &&& 0x00F80000#32 ≠ 0 || 4 < bf a 0 3 || [3, 5, 6, 7].contains (bf a 3 3) || [3, 5, 6, 7].contains (bf a 6 3) ||
  bf a 9 2 = 3 || bf a 14 2 = 3

/-- What is wrong with one enabled descriptor under R79 (and R149 for an OPEN one): the word at fault (0, 4, 8, 12) and the
code. R79 gives every breach of its list code 0x16, that of R44 included, for which Table 6.10 has 0x15. -/
def rgnErrs (k : ChanCfg) (c : Ch) (users : List Ch) (binds : List Nat) (d : Rgn) (i : Fin 64) : List (Nat × Nat) :=
  let e := fun (o code : Nat) (bad : Bool) => if bad then [(o, code)] else []
  let lo := rgnBase d
  let hi := rgnLimit d
  let top := (k.segs.foldl (fun a g => a + g.size) 0) / 4096
  let bs := k.bsets[rgnBset d]?
  let stages := rgnWr d = 2 || rgnEr d = 2
  let subs := rgnRd d = 3 || rgnClinker d = 1
  let openAct := fun a => a = 0 || a = 1 || a = 4
  let stageAct := fun a => a = 0 || a = 2 || a = 4
  let inBs := match bs with | some b => decide (b.vbase ≤ 4096 * lo) && decide (4096 * (hi + 1) ≤ b.vbase + b.size) | none => false
  let target := fun (j : Fin 64) => let t := k.desc[j]
    j ≠ i && rgnEn t && decide (rgnBase t ≤ rgnRedir d) && decide (rgnRedir d + (hi - lo) ≤ rgnLimit t) && !rgnOpen t && rgnRd t = 1
  e 0 0x16 (hi < lo) ++ e 4 0x16 (top ≤ hi) ++
  (if rgnOpen d then
    e 8 0x16 (rgnMbind d ≠ 0xFF || !rgnMirror d || rgnStrict d || rgnMiss d ≠ 0 || !openAct (rgnRd d) || !openAct (rgnWr d) || !openAct (rgnEr d)) ++
    e 0 0x14 (k.bsets.any (fun b => meets b.vbase b.size (4096 * lo) (4096 * (hi + 1 - lo))))
  else e 8 0x16 (!binds.contains (rgnMbind d) || !stageAct (rgnWr d) || !stageAct (rgnEr d))) ++
  e 12 0x16 (stages && bs.isNone) ++ e 12 0x16 (subs && (match bs with | some b => b.g.isNone | none => true)) ++
  e 12 0x16 (rgnBset d ≠ 15 && !inBs) ++ e 8 0x16 (rgnMiss d = 1 && (!rgnMirror d || rgnStrict d)) ++
  e 8 0x16 (rgnStrict d && rgnMiss d = 1) ++ e 12 0x16 (rgnRd d = 2 && !allRgn.any target) ++

  e 8 0x16 (rgnMirror d && !mirrorOk k c users (4096 * lo) (4096 * (hi + 1)))

/-- The DESCRIPTORS section (R79, R184, R504). -/
def descErrs (k : ChanCfg) (c : Ch) (users : List Ch) (binds : List Nat) (x : Sect) : List LdErr :=
  (List.finRange 64).flatMap (fun i =>
    if 16 * i.val < x.body.length then
      let d := k.desc[i]
      let e := fun rel (bad : Bool) => errAt x (16 * i.val + rel) 0x16 bad
      e 0 (d.base &&& 0xFFE#32 ≠ 0) ++ e 4 (d.limit &&& 0xFFF#32 ≠ 0) ++ e 8 (actReserved d.act) ++ e 12 (d.aux &&& 0xFF0#32 ≠ 0) ++
      (if rgnEn d then (rgnErrs k c users binds d i).flatMap (fun y => errAt x (16 * i.val + y.1) y.2 true) else [])
    else [])

/-! Step 8: ADAPT, pins and quotas. -/

/-- The ADAPT section (Tables 5.2 and 6.7, R475). -/
def adaptErrs (s : State) (x : Sect) : List LdErr :=
  let a := parseAdapt x.body
  let c := x.scope % 32
  let e := fun rel (bad : Bool) => errAt x rel 0x18 bad
  e 0 (127 < a.setOfs) ++ e 1 (8 ≤ be8 x.body 1) ++ e 2 (32 < a.depthMin) ++ e 3 (32 < a.depthInit || a.depthInit < a.depthMin) ++
  e 4 (32 < a.depthMax || a.depthMax < a.depthInit) ++ e 5 (a.siDown = 0 || 15 < a.siDown) ++ e 6 (a.upPasses = 0) ++
  e 7 (a.traceWindow = 0) ++ e 8 (2048 < a.quotaMin) ++ e 10 (2048 < a.quotaMax || a.quotaMax < a.quotaMin) ++
  e 12 (a.quotaInit < a.quotaMin || a.quotaMax < a.quotaInit) ++ e 14 (2048 < a.traceQuota) ++ e 16 (4096 < a.traceLimit) ++
  e 18 (a.traceLead < 16 || 1024 < a.traceLead) ++ e 20 (a.divMin < divLow s c || 511 < a.divMin) ++
  e 22 (a.divMax < a.divMin || 511 < a.divMax) ++ e 24 (a.divStep = 0 || 64 < a.divStep)

/-- Greatest of a list. -/
def greatest (l : List Nat) : Nat := l.foldl max 0

/-- How many pinned embers of a channel can fall in a set: outside bank sets all of them, for each bank set the largest count
among its banks (R146). -/
def pinsIn (k : ChanCfg) (pages : List Nat) (set : Nat) : Nat :=
  let ch : Chan := { cfg := k }
  let falls := fun (bk : BankId) (p : Nat) => match physIn ch bk (4096 * p) with
    | some (_, _, fa) => decide ((fa / 4096 + k.adapt.setOfs) % 128 = set)
    | none => false
  let direct := (pages.filter (fun p => (bsetAt ch (4096 * p)).isNone && falls .a p)).length
  direct + ((List.finRange 15).map (fun i =>
    let mine := pages.filter (fun p => bsetAt ch (4096 * p) = some i)
    greatest ([BankId.a, .b, .g].map (fun bk => (mine.filter (falls bk)).length)))).foldl (· + ·) 0

/-- R146 and R164 over the channels in image order: counts per set so far, the quota sum so far, and whether each breach has
been reported. -/
def quotaErrs (l : List Sect) : List Ch → List Nat → Nat → Bool → Bool → List LdErr
  | [], _, _, _, _ => []
  | c :: t, cnt, sum, full, past =>
    match sect l 0x14 c.val, sect l 0x15 c.val with
    | some dx, some ax =>
      let k := parseChan l c
      let pages := strictPages k
      let cnt' := cnt.zipIdx.map (fun (n, i) => n + pinsIn k pages i)
      let sum' := sum + max k.adapt.quotaInit (min k.adapt.quotaMax (pages.length + k.adapt.traceQuota))
      let full' := full || decide (12 < greatest cnt')
      let past' := past || decide (2048 < sum')
      (if full' && !full then [((dx.ofs, dx.pos, 0x17) : LdErr)] else []) ++
        errAt ax 8 0x17 (k.adapt.quotaMin < pages.length) ++
        (if past' && !past then [((ax.ofs, ax.pos, 0x17) : LdErr)] else []) ++ quotaErrs l t cnt' sum' full' past'
    | _, _ => quotaErrs l t cnt sum full past

/-- Every per-channel section in step 8. -/
def channelSectErrs (s : State) (l : List Sect) : List LdErr :=
  let binds := (recs 28 (bodyOf l 0x03 0xFF)).map (fun r => be8 r 0)
  let us := allCh.flatMap (segUses l)
  l.flatMap (fun x =>
    let c := chOf x.scope
    match x.typ with
    | 0x10 => channelErrs s l x
    | 0x11 => profileErrs s l x
    | 0x12 => segErrs x 0 0 (recs 16 x.body)
    | 0x13 => bsetErrs x ((recs 16 (bodyOf l 0x12 c.val)).map parseSegment) 0 [] (recs 36 x.body)
    | 0x14 => descErrs (parseChan l c) c (usersOf us c.val) binds x
    | 0x15 => adaptErrs s x
    | _ => []) ++ crossErrs l ++ quotaErrs l allCh (List.replicate 128 0) 0 false false

end Sys2Proof.Machine
end

