-- ==== Sys2Proof/Machine/ImageDev.lean ====
section
/-! DEFINITION. What the structure loader rejects in the device-wide sections, and the checks of a whole image in the order of
R190 (R102-R103, R186-R189, R231-R232, R270-R276, R351, R375, R408, R437, R450, R470, Tables 6.8-6.10). -/

namespace Sys2Proof.Machine

/-- A value is outside lo-hi. -/
def outside (lo hi v : Nat) : Bool := v < lo || hi < v

/-- A field that must be zero; the error stands at its first byte (R191). -/
def zeroErrs (x : Sect) (code o n : Nat) : List LdErr := errAt x o code (nonzero x.body o n)

/-- DEVICE (R186). -/
def deviceErrs (x : Sect) : List LdErr := errAt x 0 0x1B (be8 x.body 0 = 0) ++ errAt x 1 0x1B (63 < be8 x.body 1)

/-- ANCHORS (R187), record by record; `held` are slots of the locked image that a restructure may fill again. -/
def anchorErrs (s : State) (x : Sect) (held : List Nat) : Nat → List Nat → List (List Byte) → List LdErr
  | _, _, [] => []
  | i, before, r :: t =>
    let slot := be8 r 0
    let key := slice r 4 60
    let o := 64 * i
    let full := if h : slot < 128 then (s.kv.slots[slot]).typ ≠ 0 && !held.contains slot else false
    errAt x o 0x19 (outside 16 127 slot || before.contains slot || full) ++ zeroErrs x 0x19 (o + 1) 3 ++
      errAt x (o + 4) 0x19 (!keyTypesOk key false ||
        ((match lmsType (be32 key 4) with | some (n, _) => n = 24 | none => false) && nonzero key 52 8)) ++
      anchorErrs s x held (i + 1) (slot :: before) t

/-- A page lies in a binding's data range or manifest area. -/
def bindPage (b : Binding) (p : Nat) : Bool :=
  (b.vbase / 4096 ≤ p && p < b.vbase / 4096 + b.blocks) || (b.manBase / 4096 ≤ p && p < b.manBase / 4096 + b.manPages)

/-- Two bindings of one channel share a page. -/
def bindsMeet (a b : Binding) : Bool :=
  let ra := [(a.vbase, 4096 * a.blocks), (a.manBase, 4096 * a.manPages)]
  let rb := [(b.vbase, 4096 * b.blocks), (b.manBase, 4096 * b.manPages)]
  a.ch = b.ch && ra.any (fun x => rb.any (fun y => meets x.1 x.2 y.1 y.2))

/-- R103 for one binding, `before` being the bindings ahead of it. -/
def bindRuleBad (l : List Sect) (b : Binding) (before : List Binding) : Bool :=
  let k := parseChan l b.ch
  let top := k.segs.foldl (fun a g => a + g.size) 0
  let mine := (rgnsIn l).filter (fun x => !rgnOpen x.2.2 && rgnMbind x.2.2 = b.bind && x.1 = b.ch)
  meets b.vbase (4096 * b.blocks) b.manBase (4096 * b.manPages) || top < b.vbase + 4096 * b.blocks || top < b.manBase + 4096 * b.manPages ||
  before.any (bindsMeet b) || mine.any (fun x => (rgnPages x.2.2).any (fun p => !bindPage b p)) ||
  mine.any (fun x => match k.bsets[rgnBset x.2.2]? with
    | some q => !(decide (q.vbase ≤ b.vbase) && decide (b.vbase + 4096 * b.blocks ≤ q.vbase + q.size) &&
        decide (q.vbase ≤ b.manBase) && decide (b.manBase + 4096 * b.manPages ≤ q.vbase + q.size))
    | none => false)

/-- BINDINGS (R102, R103, R188). -/
def bindingErrs (l : List Sect) (x : Sect) : Nat → List Binding → List (List Byte) → List LdErr
  | _, _, [] => []
  | i, before, r :: t =>
    let b := parseBinding r
    let e := fun rel (bad : Bool) => errAt x (28 * i + rel) 0x1A bad
    e 0 (be8 r 0 = 255 || before.any (fun a => b.bind ≤ a.bind) || bindRuleBad l b before) ++
      e 1 (31 < be8 r 1 || !connIn l b.ch ||
        (rgnsIn l).any (fun y => !rgnOpen y.2.2 && rgnMbind y.2.2 = b.bind && y.1 ≠ b.ch)) ++
      e 2 (!((parseAnchors l).map (·.1)).contains (be8 r 2)) ++ e 3 (63 < be8 r 3) ++ e 12 (b.vbase % 4096 ≠ 0) ++
      e 16 (outside 1 1048576 b.blocks) ++ e 20 (b.manBase % 4096 ≠ 0) ++ e 24 (outside 1 64 b.manPages) ++ e 26 (2 ≤ be8 r 26) ++
      bindingErrs l x (i + 1) (b :: before) t

/-- PORTAL (R189). -/
def portalErrs (x : Sect) : List LdErr :=
  (List.range 6).flatMap (fun i =>
    let rd := wordBE x.body (8 * i)
    let wr := wordBE x.body (8 * i + 4)
    errAt x (8 * i) 0x20 (rd &&& 0xFFFC0800#32 ≠ 0) ++ errAt x (8 * i + 4) 0x20 (wr &&& 0xFFFC0800#32 ≠ 0 || wr &&& ~~~rd ≠ 0))

/-- An enabled descriptor of a channel covers a page of the top 8 KiB of its virtual flash, or it is not connected (R351). -/
def windowBlocked (k : Chan) : Bool :=
  !connected k || (let top := vflash k / 4096
    (governing k (top - 1)).isSome || (governing k (top - 2)).isSome)

/-- A STATIC record of the INSTANCES body names the transport and address of an earlier one. -/
def staticTwice (b : List Byte) (n : Nat) : Bool :=
  let c := parseInst b n
  c.static && c.transport ≠ 0 && (List.range n).any (fun m => let d := parseInst b m
    d.static && d.transport = c.transport && d.addr = c.addr)

/-- INSTANCES (R231, R351). -/
def instErrs (l : List Sect) (x : Sect) : List LdErr :=
  let b := x.body
  let e := fun rel (bad : Bool) => errAt x rel 0x21 bad
  (List.range 8).flatMap (fun i =>
    e (8 * i) (3072 < be16 b (8 * i)) ++ (List.range 3).flatMap (fun j => e (8 * i + 2 + j) (outside 1 16 (be8 b (8 * i + 2 + j)))) ++
      e (8 * i + 5) (2 ≤ be8 b (8 * i + 5)) ++ zeroErrs x 0x21 (8 * i + 6) 2) ++
  (List.range 64).flatMap (fun n =>
    let o := 64 + 4 * n
    let c := parseInst b n
    let blocked := c.transport = 8 && (31 < c.addr || windowBlocked { cfg := parseChan l (chOf c.addr) })
    e o (8 < c.transport) ++
      e (o + 1) ((7 ≤ c.transport && 31 < c.addr) || staticTwice b n || (c.static && c.transport = 7 && c.addr = 0) ||
        (c.static && blocked)) ++
      e (o + 2) (7 < be8 b (o + 2)) ++ e (o + 3) (2 ≤ be8 b (o + 3)))

/-- ARBITRATION (R232). -/
def arbErrs (x : Sect) : List LdErr :=
  let b := x.body
  let e := fun rel (bad : Bool) => errAt x rel 0x22 bad
  e 0 (outside 1 40 (be8 b 0)) ++ e 1 (outside 1 100 (be8 b 1)) ++ e 2 (outside 1 100 (be8 b 2)) ++ zeroErrs x 0x22 3 1 ++
  e 4 (512 < be16 b 4) ++ e 6 (outside 1 16 (be8 b 6)) ++ e 7 (outside 1 16 (be8 b 7)) ++ zeroErrs x 0x22 8 24 ++
  (List.range 32).flatMap (fun c => let o := 32 + 4 * c
    e o (2048 < be16 b o) ++ e (o + 2) (outside 1 16 (be8 b (o + 2))) ++ e (o + 3) (outside 1 16 (be8 b (o + 3))))

/-- One task-set record (Table 15.4). -/
def tsErrs (x : Sect) (i : Nat) : List LdErr :=
  let o := 48 + 14 * i
  let b := x.body
  let e := fun rel (bad : Bool) => errAt x (o + rel) 0x23 bad
  if be8 b o = 0 then
    [(1, 1), (2, 1), (3, 1), (4, 4), (8, 4), (12, 2)].flatMap (fun (p : Nat × Nat) => zeroErrs x 0x23 (o + p.1) p.2)
  else
    e 0 (16 < be8 b o) ++ e 1 (4 < be8 b (o + 1)) ++ e 2 (4 ≤ be8 b (o + 2)) ++ e 3 (outside 1 15 (be8 b (o + 3))) ++
    e 4 (outside 1000 60000000 (be32 b (o + 4))) ++ e 8 (be32 b (o + 8) ≠ 0 && outside 1000 60000000 (be32 b (o + 8))) ++
    zeroErrs x 0x23 (o + 12) 2

/-- WATCHDOG (R437). -/
def wdErrs (x : Sect) : List LdErr :=
  let b := x.body
  let e := fun rel (bad : Bool) => errAt x rel 0x23 bad
  e 0 (outside 1 800 (be16 b 0)) ++ e 2 (outside 10 10000 (be16 b 2)) ++ zeroErrs x 0x23 4 4 ++
  (List.range 5).flatMap (fun i => e (8 + 8 * i) (60000000 < be32 b (8 + 8 * i)) ++
    e (12 + 8 * i) (outside 100 60000000 (be32 b (12 + 8 * i)))) ++
  (List.range 16).flatMap (tsErrs x)

/-- TAMPER (R470). -/
def tamperErrs (x : Sect) : List LdErr :=
  let b := x.body
  let e := fun rel (bad : Bool) => errAt x rel 0x24 bad
  e 0 (outside 10 60000 (be16 b 0)) ++ zeroErrs x 0x24 2 2 ++ zeroErrs x 0x24 12 4 ++
  (List.range 64).flatMap (fun i => e (16 + i) (be8 b (16 + i) = 0)) ++
  (List.range 8).flatMap (fun i =>
    let o := 80 + 12 * i
    e o (be8 b o = 0) ++ e (o + 1) (16 ≤ be8 b (o + 1)) ++ e (o + 2) (outside 1 1000 (be16 b (o + 2))) ++
      e (o + 4) ((if 2 ≤ i && i ≤ 4 then 3 else 0) < be8 b (o + 4)) ++
      e (o + 5) (2 ≤ be8 b (o + 5) || ((i = 5 || i = 6) && be8 b (o + 5) % 2 = 0)) ++ zeroErrs x 0x24 (o + 6) 6) ++
  zeroErrs x 0x24 176 24

/-- FABRIC (R375). -/
def fabricErrs (x : Sect) (pair : Bool) : List LdErr :=
  let b := x.body
  let e := fun rel (bad : Bool) => errAt x rel 0x25 bad
  let node := be8 b 4
  let pn := be8 b 6
  let idBad := fun n => 31 < n && n ≠ 0xFF
  e 0 (be32 b 0 = 0) ++ e 4 (idBad node || (pair && node = 0xFF)) ++ e 5 (be8 b 5 ≠ 0 && node = 0xFF) ++
  e 6 (idBad pn || (if pair then pn = 0xFF || pn = node else pn ≠ 0xFF)) ++ e 7 (8 ≤ be8 b 7) ++ e 8 (be8 b 8 = 0) ++
  e 9 (outside 1 20 (be8 b 9)) ++ e 10 ((be8 b 10 ≠ 0xFF && outside 16 127 (be8 b 10)) || (bitAt b 7 0 && be8 b 10 = 0xFF)) ++
  zeroErrs x 0x25 11 1 ++ [12, 13, 14].flatMap (fun o => e o (outside 1 16 (be8 b o))) ++ zeroErrs x 0x25 15 1 ++
  e 16 (16 ≤ be8 b 16) ++ zeroErrs x 0x25 17 15

/-- PAIR (R450). -/
def pairErrs (x : Sect) : List LdErr :=
  let b := x.body
  let e := fun rel (bad : Bool) => errAt x rel 0x26 bad
  e 0 (2 ≤ be8 b 0) ++ e 1 (outside 1 20 (be8 b 1)) ++ e 2 (be16 b 2 = 0) ++ e 4 (32 ≤ be32 b 4) ++ zeroErrs x 0x26 8 24

/-- SETTINGS (R408). -/
def settingsErrs (x : Sect) : List LdErr :=
  zeroErrs x 0x27 2 2 ++ errAt x 4 0x27 (12288 < be32 x.body 4 || be32 x.body 4 % 4 ≠ 0)

/-! SEQUENCE (R270-R276). -/

/-- Operand fields of a PMB step that are at fault, as offsets in its record. -/
def pmbBad (c : Step) (speed : Nat) (raw0 : Nat) : List Nat :=
  let nb := c.p0 / 8 % 4
  let m := 256 ^ nb
  (if 32 ≤ raw0 ∨ nb = 3 ∨ speed = 0 ∨ (c.op = 5 ∧ nb = 0) then [5] else []) ++ (if c.p1 / 128 % 2 = 1 then [6] else []) ++
  (if (c.op = 4 ∧ m ≤ c.p2) ∨ (c.op = 5 ∧ (m ≤ c.p2 % 65536 ∨ m ≤ c.p2 / 65536)) then [8] else [])

/-- The TIME range of an operation (Table 9.3). -/
def timeRange (op : Nat) : Nat × Nat :=
  match op with
  | 2 => (100, 60000000) | 3 => (1, 4000000000) | 4 => (100, 60000000) | 5 => (100, 60000000) | _ => (0, 0)

/-- Offsets in a step record of the fields that break Tables 9.2 and 9.3 or R276. -/
def stepBad (b : List Byte) (steps : List Step) (k : Nat) (r : List Byte) : List Nat :=
  let c := parseStep r
  let fl := be8 r 1
  let can := c.op = 2 || c.op = 4 || c.op = 5
  let dir := (parseLine b c.p0).dir
  if !([1, 2, 3, 4, 5, 6, 8] : List Nat).contains c.op then [0]
  else
    (if 32 ≤ fl ∨ (c.watch ∧ c.op ≠ 2) ∨ (c.pfAct ≠ 0 ∧ !c.watch) ∨ c.pfAct = 3 ∨ (c.onFailContinue ∧ !can) ∨
      (c.op = 6 ∧ c.shutdownGraph) then [1] else []) ++
    ([2, 3, 4].filter (fun o => let d := be8 r o
      d ≠ 0xFF && (k ≤ d || (match steps[d]? with | some x => x.shutdownGraph != c.shutdownGraph | none => true)))) ++
    (match c.op with
      | 1 => (if 96 ≤ c.p0 ∨ dir = 0 then [5] else []) ++ (if 2 ≤ c.p1 then [6] else []) ++ (if c.p2 ≠ 0 then [8] else [])
      | 2 => (if 96 ≤ c.p0 ∨ dir ≠ 0 then [5] else []) ++ (if c.p1 / 2 % 128 ≠ 0 then [6] else []) ++
          (if !c.watch ∧ c.p2 ≠ 0 then [8] else [])
      | 4 => pmbBad c (be8 b (c.p0 % 4)) c.p0
      | 5 => pmbBad c (be8 b (c.p0 % 4)) c.p0
      | op => (if c.p0 ≠ 0 then [5] else []) ++ (if c.p1 ≠ 0 then [6] else []) ++ (if op ≠ 6 ∧ c.p2 ≠ 0 then [8] else [])) ++
    (if outside (timeRange c.op).1 (timeRange c.op).2 c.time then [12] else [])

/-- The step records in order; `rel` is the mask of lines already named by a RELEASE step. -/
def stepErrs (x : Sect) (steps : List Step) : Nat → Word → List (List Byte) → List LdErr
  | _, _, [] => []
  | k, rel, r :: t =>
    let c := parseStep r
    let m := if c.op = 6 then BitVec.ofNat 32 c.p2 else 0
    (stepBad x.body steps k r).flatMap (fun o => errAt x (256 + 16 * k + o) 0x30 true) ++
      errAt x (256 + 16 * k + 8) 0x30 (m &&& rel ≠ 0) ++ stepErrs x steps (k + 1) (rel ||| m) t

/-- SEQUENCE (R272, R276); a connected channel that no HOST record names stands at the section's header. -/
def seqErrs (l : List Sect) (x : Sect) (pair : Bool) : List LdErr :=
  let b := x.body
  let e := fun rel (bad : Bool) => errAt x rel 0x30 bad
  let host := fun n => be8 b (128 + 4 * n)
  (if allCh.any (fun c => connIn l c && !(List.range 32).any (fun n => host n = c.val)) then [((x.ofs, x.pos, 0x30) : LdErr)] else []) ++
  (List.range 4).flatMap (fun p => e p (3 < be8 b p)) ++ e 4 (outside 10 10000 (be16 b 4)) ++ zeroErrs x 0x30 6 26 ++
  (List.range 96).flatMap (fun i => e (32 + i) (16 ≤ be8 b (32 + i) || be8 b (32 + i) % 4 = 3 || (pair && be8 b (32 + i) % 4 = 1))) ++
  (List.range 32).flatMap (fun n =>
    e (128 + 4 * n) (host n ≠ 0xFF && (31 < host n || (List.range n).any (fun m => host m = host n))) ++
      e (129 + 4 * n) (be8 b (129 + 4 * n) = 0) ++ zeroErrs x 0x30 (130 + 4 * n) 2) ++
  stepErrs x ((recs 16 (b.drop 256)).map parseStep) 0 0 (recs 16 (b.drop 256))

/-- Every device-wide section in step 8. -/
def deviceSectErrs (s : State) (img : List Byte) (l : List Sect) (held : List Nat) : List LdErr :=
  l.flatMap (fun x => match x.typ with
    | 0x01 => deviceErrs x
    | 0x02 => anchorErrs s x held 0 [] (recs 64 x.body)
    | 0x03 => bindingErrs l x 0 [] (recs 28 x.body)
    | 0x20 => portalErrs x
    | 0x21 => instErrs l x
    | 0x22 => arbErrs x
    | 0x23 => wdErrs x
    | 0x24 => tamperErrs x
    | 0x25 => fabricErrs x (imgPair img)
    | 0x26 => pairErrs x
    | 0x27 => settingsErrs x
    | 0x30 => seqErrs l x (imgPair img)
    | _ => [])

/-! The whole image (R190). -/

/-- Step 4: the signature over the SIGNED_LEN bytes (R177). -/
def signatureErr (img : List Byte) : Option LdErr :=
  match hssVerify true (imgKey img) (img.drop (imgSigned img)) (img.take (imgSigned img)) with
  | .pass => none
  | .invalid => some (imgSigned img, 0, 0x08)
  | _ => some (imgSigned img, 0, 0x07)

/-- One step's outcome, else the next. -/
def orElseErr (a : Option LdErr) (b : Unit → Option LdErr) : Option LdErr := match a with | some e => some e | none => b ()

/-- The first failure of an image in the order of R190, or none. `floor` is the least ROLLBACK accepted, `held` the anchor
slots that may be filled again.
Log entry 23 (DESIGN CHOICE, DEDUCED). -/
def imageErr (s : State) (img : List Byte) (floor : Nat) (held : List Nat) : Option LdErr :=
  orElseErr (firstErr (headerErrs s img)) fun _ =>
  orElseErr (signatureErr img) fun _ =>
  orElseErr (if imgRollback img < floor then some (16, 0, 0x09) else none) fun _ =>
  orElseErr (firstErr (walkErrs img (imgSigned img) 257 1 128 none)) fun _ =>
  let l := sectsOf img
  orElseErr (firstErr (presenceErrs img l)) fun _ =>
  firstErr (channelSectErrs s l ++ deviceSectErrs s img l held)

/-! The conditions of a restructure (R197). -/

/-- Sections of two images are equal but for those of `p`. -/
def sameBut (a b : List Sect) (p : Sect → Bool) : Bool :=
  (a.filter (fun x => !p x)).map (fun x => (x.typ, x.scope, x.body)) = (b.filter (fun x => !p x)).map (fun x => (x.typ, x.scope, x.body))

/-- Port `c` carries a segment or bank of another channel. -/
def portShared (l : List Sect) (c : Ch) : Bool := (allUses l).any (fun u => u.fp = c.val && u.ch ≠ c)

/-- Something outside the target differs between the locked image and the new one (R197).
Log entry 27 (DEDUCED). -/
def restructDiffers (old new : List Byte) (c : Ch) : Bool :=
  let a := sectsOf old
  let b := sectsOf new
  let binds := fun l => (recs 28 (bodyOf l 0x03 0xFF)).filter (fun r => be8 r 1 ≠ c.val)
  let slots := (binds a).map (fun r => be8 r 2)
  let anchors := fun l => (recs 64 (bodyOf l 0x02 0xFF)).filter (fun r => slots.contains (be8 r 0))
  imgGen old ≠ imgGen new || imgKey old ≠ imgKey new ||
  !sameBut a b (fun x => (isChanType x.typ && x.scope % 32 = c.val) || x.typ = 2 || x.typ = 3 || !knownType x.typ) ||
  binds a ≠ binds b || anchors a ≠ anchors b ||
  ((portShared a c || portShared b c) && slice (bodyOf a 0x10 c.val) 6 42 ≠ slice (bodyOf b 0x10 c.val) 6 42)

end Sys2Proof.Machine
end

