-- ==== Sys2Proof/Machine/Trace.lean ====
section
/-! DEFINITION. Boot-trace journals (R158-R164), the adaptation pass (R166-R171), and the drains of the five logs (R219,
R400, R469). -/

namespace Sys2Proof.Machine

/-! Journals. -/

/-- COUNT of a journal's header, where it is one the format allows. -/
def journalCount (h : List Byte) : Option Nat := let n := be32 h 8; if 1024 ≤ n ∧ n ≤ 16384 then some n else none

/-- The SEAL of the journal in a slot verifies under slot 8 of the vault. -/
def journalSealed (s : State) (c : Ch) (slot : Nat) : Bool :=
  let h := osRead s (osTrace c slot) 64
  match journalCount h, secretOf s 8 with
  | some n, some key =>
    let b := osRead s (osTrace c slot) (96 + 4 * n)
    b.drop (64 + 4 * n) = sealOf key b (64 + 4 * n)
  | _, _ => false

/-- A slot holds something. -/
def journalUsed (s : State) (c : Ch) (slot : Nat) : Bool := (osRead s (osTrace c slot) 64).any (· ≠ 0xFF)

/-- The slot of the newest journal. The format holds no order; where both slots are sealed the choice is a free value.
Log entry 22 (DEDUCED, DESIGN CHOICE). -/
def newestJournal (s : State) (c : Ch) : Option Nat × State :=
  match journalSealed s c 0, journalSealed s c 1 with
  | true, true => (some (b2n ((Config.freeWord s.clk.free).getLsbD 0)), useFree s 1)
  | true, false => (some 0, s)
  | false, true => (some 1, s)
  | false, false => (none, s)

/-- A TRACE_BAD record (Table 5.4): 1 seal, 2 format, 3 digest. -/
def traceBad (s : State) (c : Ch) (why : Nat) : State := ecRecord (ecInt s 6) c 0x09 why 0 0 false

/-- PINS: the channel's strict embers in its serving banks (R164). -/
def pinsOf (k : Chan) : Nat := (strictPages k.cfg).length

/-- The quota of R164 with a valid journal of this NEED. -/
def traceQuota (k : Chan) (need : Nat) : Nat :=
  min k.cfg.adapt.quotaMax (max k.cfg.adapt.quotaInit (pinsOf k + min need k.cfg.adapt.traceQuota))

/-- Take up a channel's newest journal at the lock: bad seal or format is logged; otherwise its validity waits for the
channel digest (R161). A TRACE_LIMIT of 0 disables learning.
Log entry 22 (DEDUCED, DESIGN CHOICE). -/
def loadJournal (s : State) (c : Ch) : State :=
  let s := modCh s c (fun k => { k with trace := {} })
  if s.ch[c].cfg.adapt.traceLimit = 0 then s
  else match newestJournal s c with
    | (none, s) => if journalUsed s c 0 || journalUsed s c 1 then traceBad s c 1 else s
    | (some slot, s) =>
      let h := osRead s (osTrace c slot) 64
      if be32 h 0 ≠ 0x545A5452 ∨ be16 h 4 ≠ 1 ∨ be8 h 6 ≠ c.val then traceBad s c 2
      else
        let n := be32 h 8
        let b := osRead s (osTrace c slot + 64) (4 * n)
        modCh s c (fun k => { k with
          trace := { k.trace with
            valid := .undecided, journal := (List.range n).map (fun i => be32 b (4 * i) / 4096), need := be32 h 12
            structD := digOf (slice h 16 32), newest := slot + 1 }
          quota := traceQuota k (be32 h 12) })

/-- Decide a channel's journal once every named binding's serving bank is anchored. The quota of R164 for a valid journal has been
held since the lock; an invalid one leaves QUOTA_INIT at most.
Log entry 22 (DEDUCED, DESIGN CHOICE). -/
def decideTrace (s : State) (c : Ch) : State :=
  let x := s.ch[c].trace
  if x.valid = .undecided ∧ (namedBindings s c).all (fun b => (bankRt s b.bind (bindServing s b)).st = .anchored) then
    if channelDigest s c = x.structD then
      modCh s c (fun k => { k with trace := { k.trace with valid := .valid } })
    else traceBad (dropJournal s c) c 3
  else s

/-- Decide what can be decided, then let every channel's requesters and the gate run. -/
def settleTraces (s : State) : State := settleAll (forCh s decideTrace)

/-- TRACE_WINDOW_EXPIRY: TRACE_WINDOW seconds after the release (R158). -/
def traceExpiry (s : State) (c : Ch) : State :=
  let x := s.ch[c].trace
  if x.recording then endTrace (reachTime s (x.startAt + msCyc (1000 * s.ch[c].cfg.adapt.traceWindow))) c 2 false else s

/-- The background billet of a channel's journal write: the one it holds, or one drawn now, its SEAL entered in tier 3 (R116). -/
def journalUnit (s : State) (c : Ch) (n : Nat) : Option Nat × State :=
  match unitsWhere s (fun u => u.work = .journal c) with
  | id :: _ => (some id, s)
  | [] =>
    match draw .bg (.ch c) none false (.journal c) s with
    | (some id, s) => (some id, hashEnq s 3 id (hmacCost n) (.ch c))
    | (none, s) => (none, s)

/-- The sealed journal goes to the slot that does not hold the newest valid one, and its billet returns (R159). -/
def journalPut (s : State) (c : Ch) (id : Nat) (b : List Byte) (rest : List (List Byte)) (key : List Byte) : State :=
  let slot := if s.ch[c].trace.newest = 1 then 1 else 0
  let s := osProg (ownErase s (osTrace c slot) 0x20000) (osTrace c slot) (b ++ sealOf key b b.length)
  let s := ecRecord s c 0x0B 0xFF (be32 b 8) slot false
  osDequeue (retire (modCh s c (fun k => { k with trace := { k.trace with kept := rest, newest := slot + 1 } })) id) (osJournalId c)

/-- TRACE_JOURNAL_WRITE: the kept trace is sealed and written on a background billet (R159), once its SEAL's job has ended and it is
its turn at the own store (R219).
Log entry 57 (DESIGN CHOICE). -/
def journalWrite (s : State) (c : Ch) : State :=
  match s.ch[c].trace.kept, secretOf s 8 with
  | b :: rest, some key =>
    match journalUnit s c b.length with
    | (none, s) => s
    | (some id, s) =>
      match unitDone id 1 s with
      | none => s
      | some s =>
        let s := osAsk s (osJournalId c) 64 (b.length + 32)
        match osGrant s (osJournalId c) with
        | none => s
        | some s => journalPut s c id b rest key
  | _, _ => s

/-! The adaptation pass. -/

/-- Free records of the ember-cache log that non-essential records may take (R171). -/
def ecRoom (s : State) : Nat := ringFree 256 s.ec.log - 8

/-- A channel that the pass may change. -/
def adaptable (s : State) (c : Ch) : Bool := connected s.ch[c] && !s.ec.freeze.getLsbD c.val

/-- A channel's need over the pass: misses plus provisional releases (R167). -/
def needOf (k : Chan) : Nat := (k.cntMiss - k.lastMiss).toNat + (k.cntProv - k.lastProv).toNat

/-- Embers no quota holds. -/
def poolEmbers (s : State) : Nat := 2048 - (allCh.map (fun c => s.ch[c].quota)).sum

/-- The channel of largest value, ties to the lowest. -/
def argMax (f : Ch → Nat) : List Ch → Option Ch
  | [] => none
  | c :: t => match argMax f t with | none => some c | some d => if f c < f d then some d else some c

/-- The channel of smallest value, ties to the highest. -/
def argMin (f : Ch → Nat) : List Ch → Option Ch
  | [] => none
  | c :: t => match argMin f t with | none => some c | some d => if f c < f d then some c else some d

/-- Change a quota, with its record; the burning unit reports it (R173). -/
def setQuota (s : State) (c : Ch) (q : Nat) : State :=
  let old := s.ch[c].quota
  let s := ecRecord (modCh s c (fun k => { k with quota := q })) c 0x06 0xFF old q false
  notify s (.adapt s.ec.passes c q s.ch[c].depth s.ch[c].div)

/-- The quota moves of R167; `n` moves are left.
Log entry 22 (DEDUCED, DESIGN CHOICE). -/
def quotaMoves (el : List Ch) : Nat → List Ch → List Ch → State → State
  | 0, _, _, s => s
  | n + 1, got, gave, s =>
    let need := fun c => needOf s.ch[c]
    let r? := argMax need (el.filter (fun c => !got.contains c && decide (s.ch[c].quota < s.ch[c].cfg.adapt.quotaMax)))
    let pool := poolEmbers s
    let d? := argMin need (el.filter (fun c => !gave.contains c && decide (s.ch[c].cfg.adapt.quotaMin < s.ch[c].quota)))
    match r? with
    | none => s
    | some r =>
      let room := s.ch[r].cfg.adapt.quotaMax - s.ch[r].quota
      if 0 < pool then
        if ecRoom s < 1 then s
        else quotaMoves el n (r :: got) gave (setQuota s r (s.ch[r].quota + min 16 (min room pool)))
      else match d? with
        | none => s
        | some d =>
          if r = d ∨ need r < 2 * need d + 16 ∨ ecRoom s < 2 then s
          else
            let step := min 16 (min room (s.ch[d].quota - s.ch[d].cfg.adapt.quotaMin))
            let qr := s.ch[r].quota + step
            let qd := s.ch[d].quota - step
            quotaMoves el n (r :: got) (d :: gave) (setQuota (setQuota s r qr) d qd)

/-- The depth of a channel after a pass (R168).
Log entry 22 (DEDUCED, DESIGN CHOICE). -/
def newDepth (k : Chan) : Nat :=
  if k.cntMiss ≠ k.lastMiss ∧ 3 * k.pfIssued ≤ 4 * k.pfUsed then min k.cfg.adapt.depthMax (k.depth + 1)
  else if 4 * k.pfUsed < k.pfIssued then max k.cfg.adapt.depthMin (k.depth - 1)
  else k.depth

/-- Depth adaptation of one channel. -/
def adaptDepth (s : State) (c : Ch) : State :=
  let old := s.ch[c].depth
  let new := newDepth s.ch[c]
  if old = new ∨ ecRoom s = 0 then s
  else notify (ecRecord (modCh s c (fun k => { k with depth := new })) c 0x07 0xFF old new false) (.adapt s.ec.passes c s.ch[c].quota new s.ch[c].div)

/-- Change a divider, with its record. -/
def setDiv (s : State) (c : Ch) (d : Nat) : State :=
  let old := s.ch[c].div
  notify (ecRecord (ecInt (modCh s c (fun k => { k with div := d })) 5) c 0x08 0xFF old d false) (.adapt s.ec.passes c s.ch[c].quota s.ch[c].depth d)

/-- A time at most `n` milliseconds back. -/
def within (now n : Nat) : Option Nat → Bool
  | some t => decide (now ≤ t + msCyc n)
  | none => false

/-- Clock adaptation of one channel (R169).
Log entry 22 (DEDUCED, DESIGN CHOICE). -/
def adaptClock (s : State) (c : Ch) : State :=
  let a := s.ch[c].cfg.adapt
  let now := s.clk.now
  let s := if within now 3600000 s.ch[c].lastDown then s else modCh s c (fun k => { k with upNeed := a.upPasses })
  let k := s.ch[c]
  if a.siDown ≤ k.siPass then
    let d := min a.divMax (k.div + a.divStep)
    let s := modCh s c (fun k => { k with cleanPasses := 0 })
    if d = k.div ∨ ecRoom s = 0 then s
    else setDiv (modCh s c (fun k => { k with
      lastDown := some now, upNeed := if within now 10000 k.lastUp then min (64 * a.upPasses) (2 * k.upNeed) else k.upNeed })) c d
  else if k.siPass ≠ 0 then modCh s c (fun k => { k with cleanPasses := 0 })
  else if k.cleanPasses + 1 < k.upNeed then modCh s c (fun k => { k with cleanPasses := k.cleanPasses + 1 })
  else
    let d := max a.divMin (k.div - a.divStep)
    if d = k.div ∨ ecRoom s = 0 then s
    else setDiv (modCh s c (fun k => { k with cleanPasses := 0, lastUp := some now })) c d

/-- A new pass interval begins for a channel. -/
def nextInterval (s : State) (c : Ch) : State :=
  modCh s c (fun k => { k with
    lastHit := k.cntHit, lastMiss := k.cntMiss, lastProv := k.cntProv, siPass := 0, pfIssued := 0, pfUsed := 0
    hitPct :=
      let h := (k.cntHit - k.lastHit).toNat
      let n := h + needOf k
      if n = 0 then k.hitPct else 100 * h / n })

/-- ADAPTATION_PASS: every 100 ms from the lock, on a background billet; the banked unit runs none of its own, and applies the burning
unit's changes of this pass number (R173). A pass that finds no billet makes no change, while its interval goes by.
Log entry 22 (DEDUCED, DESIGN CHOICE). -/
def adaptPass (s : State) : State :=
  if s.st.state = .locked ∨ s.st.state = .restructuring then
    let s := reachTime s (s.clk.lockAt + msCyc (100 * (s.ec.passes + 1)))
    let s := { s with ec := { s.ec with passes := s.ec.passes + 1 } }
    if isBanked s then forCh (applyAdapts s) nextInterval
    else match draw .bg .hearth none false .adapt s with
    | (none, s) => forCh s nextInterval
    | (some id, s) =>
      let s := quotaMoves (allCh.filter (fun c => adaptable s c && s.ch[c].cfg.adapt.onQuota)) 8 [] [] s
      let s := (allCh.filter (fun c => adaptable s c && s.ch[c].cfg.adapt.onDepth)).foldl adaptDepth s
      let s := (allCh.filter (fun c => adaptable s c && s.ch[c].cfg.adapt.onClock)).foldl adaptClock s
      settleAll (forCh (retire s id) nextInterval)
  else s

/-! Log drains. -/

/-- A ring without its oldest undrained record, and the record. -/
def ringDrain (n : Nat) (r : LogRing) : LogRing := { r with tail := (r.tail + 1) % (2 * n), times := r.times.tail }
def ringOldest (n : Nat) (r : LogRing) : List Byte := beBytes 16 (ringRec r (r.tail % n)).toNat

/-- Drain the oldest record of a source into its open page. -/
def drainOne (s : State) (src : Nat) : State :=
  match src with
  | 1 => let s := logAppend s 1 (ringOldest 2048 s.grLog); { s with grLog := ringDrain 2048 s.grLog }
  | 2 =>
    let low := evLow s
    let s := logAppend s 2 (ringOldest 512 s.ve.log)
    evLowSet low { s with ve := { s.ve with log := ringDrain 512 s.ve.log } }
  | 3 => let s := logAppend s 3 (ringOldest 256 s.ec.log); { s with ec := { s.ec with log := ringDrain 256 s.ec.log } }
  | 4 => let s := logAppend s 4 (ringOldest 64 s.sq.log); { s with sq := { s.sq with log := ringDrain 64 s.sq.log } }
  | 5 =>
    let s := logAppend s 5 (memRead 0 s.tp.ao.sram (tpPlace s.tp.ao.tail) 32)
    tpCloseOverflow (modAo s (fun a => { a with tail := (a.tail + 1) % 256, times := a.times.tail }))
  | _ => s

/-- LOG_DRAIN: a background billet drains the record whose turn it is under R219, behind a pending leaf-reservation write; a program
that fails leaves the record undrained.
Log entries 22 (DEDUCED, DESIGN CHOICE), 57 (DESIGN CHOICE). -/
def logDrain (s : State) (failed : Bool) : State :=
  if osErasing s || leafPending s then s
  else match oldest (drainOrder s) with
    | none => s
    | some (src, _) =>
      match draw .bg .hearth none false .drain s with
      | (none, s) => s
      | (some id, s) => settleAll (retire (if failed then s else drainOne s src) id)

end Sys2Proof.Machine
end

