-- ==== Sys2Proof/Machine/Loader.lean ====
section
/-! DEFINITION. The structure loader: load, commit, lock, live restructure and the anti-rollback advance (R190-R203), and
run-time writes of descriptors (R81, R82). -/

namespace Sys2Proof.Machine

/-! The anti-rollback mirror (R201-R203, Table 6.12). -/

/-- A mirror record that verifies under slot 9. -/
def mirrorGood (s : State) (r : List Byte) : Bool :=
  be32 r 0 = 0x545A4152 && be16 r 4 = 1 && (match secretOf s 9 with | some k => slice r 48 32 = sealOf k r 48 | none => false)

/-- The mirror in force: its place and bytes. -/
def mirrorInForce (s : State) : Option (Nat × List Byte) := inForce s osMirror 12 (mirrorGood s)

/-- MIRROR_OK: a valid copy agrees with C (ST_RB). -/
def mirrorAgrees (s : State) : Bool :=
  match mirrorInForce s with | some (_, r) => decide (be16 r 8 = arbCount s) | none => false

/-- Write the mirror, with the digest of the image whose ROLLBACK is `target`; without slot 9 it is left as it is.
Log entry 57 (DESIGN CHOICE). -/
def mirrorWrite (s : State) (state count target : Nat) (digest : List Byte) : State :=
  match secretOf s 9 with
  | none => s
  | some key =>
    let old := mirrorInForce s
    let seq := match old with | some (_, r) => be32 r 12 + 1 | none => 1
    let r := beBytes 4 0x545A4152 ++ beBytes 2 1 ++ [BitVec.ofNat 8 state, 0] ++ beBytes 2 count ++ beBytes 2 target ++
      beBytes 4 seq ++ digest
    recWrite s osMirror (old.map (·.1)) (r ++ sealOf key r 48)

/-- Step 2 of R190: an advance the mirror shows in progress is completed; a mirror that is absent or differs from C is
rewritten. Without slot 9 nothing is done (R201).
Log entry 26 (DEDUCED, DESIGN CHOICE). -/
def mirrorSync (s : State) : State :=
  if (secretOf s 9).isNone then s
  else
    let c := arbCount s
    match mirrorInForce s with
    | some (_, r) =>
      let t := be16 r 10
      if be8 r 6 = 2 ∧ c < t then mirrorWrite (arbProgram s c (t - c)) 1 t t (slice r 16 32)
      else if be16 r 8 ≠ c then stInt (mirrorWrite s 1 c c (if t = c then slice r 16 32 else digBytes s.st.digest)) 4 else s
    | none => stInt (mirrorWrite s 1 c c (digBytes s.st.digest)) 4

/-- ST_ARB_CTL.ADVANCE (R202): refused outside LOCKED, during an advance, or without slot 9.
Log entry 26 (DEDUCED, DESIGN CHOICE). -/
def arbAdvance (s : State) : State :=
  if s.st.state ≠ .locked ∨ s.st.advancing ∨ (secretOf s 9).isNone then { s with st := { s.st with arbFail := true } }
  else
    let c := arbCount s
    let t := s.st.hdr.rollback
    let s := { s with st := { s.st with arbTarget := t } }
    if t ≤ c then stInt { s with st := { s.st with arbDone := true } } 3
    else mirrorWrite { s with st := { s.st with advancing := true } } 2 c t (digBytes s.st.digest)

/-- ADVANCE_DONE: the bits up to TARGET - 1 are programmed and the mirror is STABLE; or a bit failed, after a number of them
that the specification does not give.
Log entry 26 (DEDUCED, DESIGN CHOICE). -/
def arbDone (s : State) (otpFail : Bool) : State :=
  if !s.st.advancing then s
  else
    let c := arbCount s
    let t := s.st.arbTarget
    if otpFail then
      let n := if t ≤ c then 0 else (Config.freeWord s.clk.free).toNat % (t - c)
      let s := arbProgram (useFree s 1) c n
      { s with st := { s.st with advancing := false, arbFail := true } }
    else
      let s := mirrorWrite (arbProgram s c (t - c)) 1 t t (digBytes s.st.digest)
      stInt { s with st := { s.st with advancing := false, arbDone := true } } 3

/-! Loading. -/

/-- The image where ST_SRC and SRC name it: empty where it cannot be read there, its header alone where IMAGE_LEN is out of
range (R190).
Log entry 25 (DESIGN CHOICE, DEDUCED). -/
def captureImage (s : State) : List Byte :=
  let a := s.st.src.toNat
  let rd := fun n => if s.st.srcRam then ramRead s (sharedBase + a) n else osRead s a n
  let fits := fun n => if s.st.srcRam then decide (a + n ≤ sharedSize) else osFits a n
  if a % 4 ≠ 0 ∨ !fits 128 then []
  else
    let h := rd 128
    let n := imgLen h
    if n < 136 ∨ 262144 < n then h else if fits n then rd n else []

/-- The sections of a channel that its digest covers (R161). -/
def digestSections (img : List Byte) (l : List Sect) (c : Ch) : List Byte :=
  (l.filter (fun x => x.scope = c.val && (x.typ = 0x12 || x.typ = 0x13 || x.typ = 0x14))).flatMap
    (fun x => slice img x.ofs (8 + x.body.length))

/-- A channel's tables as an image gives them. -/
def chanTables (img : List Byte) (l : List Sect) (c : Ch) : ChanCfg :=
  let k := parseChan l c
  { k with sfdp := if k.segs = [] then [] else composeSfdp k, sections := digestSections img l c }

/-- The initial bank map of a bank set. -/
def bsetInit (g : ChanCfg) (i : Nat) : BsetRt :=
  match g.bsets[i]? with
  | some b => { activeB := b.initB, goldSel := b.initGold }
  | none => {}

/-- The tables become a channel's, with the register images, address mode and bank map they begin with. -/
def installChan (g : ChanCfg) (k : Chan) : Chan :=
  { k with
    cfg := g, altOn := false, addr4 := g.rst.addr4, img := g.rst.regImg
    imgAlt := match g.alt with | some p => p.regImg | none => Vector.replicate 8 0
    bset := Vector.ofFn (fun i => bsetInit g i.val), strict := Vector.replicate 64 {}, subst := 0 }

/-- Empty an anchor slot that an image placed (R193, R198). -/
def dropAnchor (s : State) (slot : Nat) : State :=
  if h : slot < 128 then (if (s.kv.slots[slot]).origin = 5 then emptySlot s ⟨slot, h⟩ else s) else s

/-- Place an anchor: a verify-only public key (R187). -/
def placeAnchor (s : State) (x : Nat × List Byte) : State :=
  if h : x.1 < 128 then
    modSlot s ⟨x.1, h⟩ (fun k => { k with
      typ := 3, origin := 5, lock := false, usage := 0x80, owner := 0xFF, parent := 0, isRoot := true, depth := 1, pgen := 0
      material := x.2, pend := none })
  else s

/-- Discard the loaded tables (R193): the state of R30.
Log entry 25 (DESIGN CHOICE, DEDUCED). -/
def discardTables (s : State) : State :=
  let s := s.st.anchors.foldl (fun s x => dropAnchor s x.1) s
  let s := forCh s (fun s c => modCh s c (installChan {}))
  { s with
    ve := { s.ve with bindings := [], katPeriod := 10 }
    sq := { s.sq with cfg := {} }
    st := { s.st with anchors := [], stage := [] } }

/-- Step 4 of R190 has work for the hash bank: the header holds, and the signature has the types and length it must (R177). -/
def sigWork (s : State) : Bool :=
  (firstErr (headerErrs s s.st.stage)).isNone && (match signatureErr s.st.stage with | some (_, _, c) => c ≠ 0x07 | none => true)

/-- The image's signature goes to the hash bank at tier 2, on a verification billet of the hearth account; a billet that cannot be
drawn is asked for again when the load would end (R177, R190).
Log entry 25 (DESIGN CHOICE, DEDUCED). -/
def sigStart (s : State) : State :=
  if sigWork s ∧ (unitsWhere s (fun u => u.work = .image)).isEmpty then
    match draw .ver .hearth none false .image s with
    | (none, s) => s
    | (some id, s) =>
      let img := s.st.stage
      hashJobs s 2 id (hssJobs (imgKey img) (img.drop (imgSigned img)) (imgSigned img)) .hearth
  else s

/-- The signature's jobs run to their end; none while one waits for an engine. -/
def sigEnd (s : State) : Option State :=
  if sigWork s then
    match unitsWhere (sigStart s) (fun u => u.work = .image) with
    | [] => none
    | id :: _ => (unitDone id 12 (sigStart s)).map (fun s => retire s id)
  else some s

/-- The first failure of steps 1 to 3: the source's address, the header's fields, or the first byte of the own store whose read failed.
A field behind that byte in the header was not read (R190, R191). -/
def sourceErr (s : State) (readFail : Option Nat) : Option LdErr :=
  let img := s.st.stage
  let h := headerErrs s img
  match (if s.st.srcRam then none else readFail).filter (· < max 128 (imgLen img)) with
  | some o => if o < 128 then firstErr ((o, 0, 0x01) :: h) else (firstErr h).orElse (fun _ => some (o, 0, 0x01))
  | none => firstErr h

/-- ST_CTL.LOAD (R190, R193). The source is read, and the mirror seen to, when the load starts.
Log entry 25 (DESIGN CHOICE, DEDUCED). -/
def stLoad (s : State) : State :=
  if s.st.state = .empty ∨ s.st.state = .loaded then
    let s := if s.st.state = .loaded then discardTables s else s
    let img := captureImage s
    let s := { s with st := { s.st with state := .loading, stage := img, skipped := 0 } }
    sigStart (if (firstErr (headerErrs s img)).isNone then mirrorSync s else s)
  else stRefuse s 0x40 0 0

/-- Sections skipped by a walk that steps 1-6 allow to be counted.
Log entry 25 (DESIGN CHOICE, DEDUCED). -/
def skippedIn (s : State) (img : List Byte) : Nat :=
  if (firstErr (headerErrs s img)).isNone ∧ (firstErr (walkErrs img (imgSigned img) 257 1 128 none)).isNone then skippedOf (sectsOf img)
  else 0

/-- The tables of a whole image, in ascending TYPE order (R192). -/
def applyImage (s : State) (img : List Byte) : State :=
  let l := sectsOf img
  let anchors := parseAnchors l
  let s := anchors.foldl placeAnchor s
  let s := { s with
    ve := { s.ve with bindings := parseBindings l, katPeriod := be8 (bodyOf l 0x01 0xFF) 0 }
    st := { s.st with anchors := anchors } }
  let s := forCh s (fun s c => modCh s c (installChan (chanTables img l c)))
  { s with sq := { s.sq with cfg := parseSeq (bodyOf l 0x30 0xFF) } }

/-- LOAD_COMMIT (R192): a load all of whose checks pass becomes LOADED.
Log entry 25 (DESIGN CHOICE, DEDUCED). -/
def loadCommit (s : State) : State :=
  if s.st.state = .loading ∧ imageErr s s.st.stage (arbCount s) [] = none then
    match sigEnd s with
    | none => sigStart s
    | some s =>
      let n := skippedIn s s.st.stage
      let s := applyImage s s.st.stage
      stInt { s with st := { s.st with state := .loaded, err := false, skipped := n } } 0
  else s

/-! The lock (R194). -/

/-- Portal masks of the PORTAL body (R189). -/
def portalMasks (l : List Sect) (i : Fin 6) (p : Portal) : Portal :=
  match sect l 0x20 0xFF with
  | some x => { p with readMask := wordBE x.body (8 * i.val), writeMask := wordBE x.body (8 * i.val + 4) }
  | none => p

/-- An instance at the lock (R224, R225). -/
def instAtLock (b : List Byte) (n : Fin 64) : InstRt :=
  let g := parseInst b n.val
  { cfg := g, addr := BitVec.ofNat 8 g.addr, st := if g.static ∧ g.transport ≠ 0 then .active else .dormant }

/-- Header values of the image in force. -/
def hdrOf (img : List Byte) : ImageHdr :=
  let d := bodyOf (sectsOf img) 0x01 0xFF
  { rollback := imgRollback img, pair := imgPair img, imageId := wordBE img 32, ownerGen := imgGen img, signerKey := imgKey img
    structTally := ⟨be8 d 1 % 64, Nat.mod_lt _ (by decide)⟩, restruct := wordBE d 4, bytes := img.take (imgSigned img) }

/-- What the lock does to one channel. -/
def lockChan (s : State) (c : Ch) : State :=
  let s := modCh s c (fun k => { k with
    locked := decide (k.cfg.segs ≠ []), div := k.cfg.fpDiv, quota := k.cfg.adapt.quotaInit, depth := k.cfg.adapt.depthInit
    upNeed := k.cfg.adapt.upPasses, cleanPasses := 0, lastUp := none, lastDown := none })
  strictPend (if connected s.ch[c] then loadJournal s c else s) c (fun _ => true)

/-- The device-wide sections of the locked image become the values in force. -/
def lockDevice (s : State) (l : List Sect) : State :=
  let inst := bodyOf l 0x21 0xFF
  { s with
    gc := { s.gc with portals := Vector.ofFn (fun i => portalMasks l i s.gc.portals[i]) }
    ec := { s.ec with locked := true, passes := 0 }
    ve := { s.ve with scrubEn := s.ve.scrubEn || s.ve.bindings.any (fun b => b.scrubPeriod ≠ 0) }
    inst := Vector.ofFn (instAtLock inst)
    bt := { s.bt with arb := parseArb (bodyOf l 0x22 0xFF), arbOn := true, pools := Vector.ofFn (fun i => parsePool inst i.val) }
    wd := wdConfigure (bodyOf l 0x23 0xFF) s.wd
    tp := { s.tp with ao := tpConfigure (bodyOf l 0x24 0xFF) s.tp.ao }
    fb := { s.fb with cfg := match sect l 0x25 0xFF with | some x => parseFab x.body | none => {} }
    pr := match sect l 0x26 0xFF with | some x => prConfigure x.body s.pr | none => s.pr }

/-- Task sets with ARM_AT_LOCK (R433). -/
def armAtLock (s : State) : State := allTs.foldl (fun s i => if (s.wd.tsCfg[i]).armAtLock then tsArm s i else s) s

/-- The image's digest is shown and extended into its tally (R194, R198). -/
def showDigest (s : State) : State :=
  let d := sha256 s.st.hdr.bytes
  tallyRequest { s with st := { s.st with digest := d } } s.st.hdr.structTally d .hearth none

/-- ST_CTL.LOCK (R194). -/
def stLock (s : State) : State :=
  if s.st.state ≠ .loaded then stRefuse s 0x40 0 0
  else
    let img := s.st.stage
    let l := sectsOf img
    let s := { s with
      st := { s.st with state := .locked, hdr := hdrOf img, stage := [] }
      clk := { s.clk with lockAt := s.clk.now } }
    let s := armAtLock (lockDevice s l)
    let s := showDigest (forCh s lockChan)
    settleAll (fabLock (sqLock (if s.st.hdr.pair then pairLock s else s)))

/-! Live restructure (R196-R199). -/

/-- Raw ownership is granted or requested on a port that the target uses in the locked or the new image. -/
def rawInUse (s : State) (c : Ch) (new : ChanCfg) : Bool :=
  rawHold s c || rawHold (modCh s c (fun k => { k with cfg := { k.cfg with segs := new.segs, bsets := new.bsets } })) c

/-- ST_RS_CTL.START (R196).
Log entry 27 (DEDUCED). -/
def rsStart (s : State) : State :=
  let c := s.st.rsCh
  let img := captureImage s
  if s.st.state ≠ .locked then stRefuse s 0x40 0 0
  else if !hostHeld s c then stRefuse s 0x41 0 0
  else if !s.st.hdr.restruct.getLsbD c.val then stRefuse s 0x42 0 0
  else if s.st.rsBusy ∨ s.st.advancing ∨ rawInUse s c (parseChan (sectsOf img) c) then stRefuse s 0x44 0 0
  else
    let s := { s with st := { s.st with state := .restructuring, rsTarget := c, rsBusy := true, stage := img } }
    sigStart (if (firstErr (headerErrs s img)).isNone then mirrorSync s else s)

/-- An ACTIVE in-band instance on the target and a new structure that leaves it no window (R197, R351). -/
def rsInBand (s : State) (c : Ch) (new : ChanCfg) : Bool :=
  (List.finRange 64).any (fun n => (s.inst[n]).st = .active && (s.inst[n]).cfg.transport = 8 && (s.inst[n]).addr.toNat = c.val) &&
    windowBlocked { s.ch[c] with cfg := new }

/-- Why the new image is refused: its first failure, or the conditions of R197. -/
def rsErr (s : State) : Option LdErr :=
  let img := s.st.stage
  let c := s.st.rsTarget
  orElseErr (imageErr s img (max (arbCount s) s.st.hdr.rollback) (s.st.anchors.map (·.1))) fun _ =>
  if restructDiffers s.st.hdr.bytes img c then some (0, 0, 0x43)
  else if rsInBand s c (parseChan (sectsOf img) c) then some (0, 0, 0x45) else none

/-- The request has ended: the device is LOCKED again. -/
def rsOver (s : State) : State :=
  let s := dropWork s .image
  { s with st := { s.st with state := .locked, rsBusy := false, stage := [] } }

/-- Work on a binding. -/
def workBind : Work → Option Nat
  | .fill id _ _ | .check id _ _ _ | .slot id | .readFor _ id => some id.bind
  | .anchor b _ _ _ | .stage b _ _ _ | .scrub b _ _ _ _ | .leaf b _ _ => some b
  | _ => none

/-- The target's work ends, its frames are freed and its verification state is dropped (R172, R198). -/
def rsDrop (s : State) (c : Ch) : State :=
  let mine := (s.ve.bindings.filter (fun b => b.ch = c)).map (·.bind)
  let s := squashChannel s c
  let s := squash s (unitsWhere s (fun u => match workBind u.work with | some b => mine.contains b | none => false))
  let s := freeFrames s (fun x => x.id.ch = c)
  let s := nodeDrop (clistDrop s (fun e => mine.contains e.bind)) (fun e => mine.contains e.bind)
  { s with
    ve := { s.ve with banks := s.ve.banks.filter (fun e => !mine.contains (e.1 / 4)), clkHold := clrBit s.ve.clkHold c.val }
    ec := { s.ec with flipHold := clrBit s.ec.flipHold c.val } }

/-- The target's run-time state under its new tables, its quota QUOTA_INIT as far as the other channels' quotas leave room (R144, R172,
R198).
Log entries 22 (DEDUCED, DESIGN CHOICE), 27 (DEDUCED). -/
def rsChan (g : ChanCfg) (room : Nat) (k : Chan) : Chan :=
  { installChan g k with
    locked := decide (g.segs ≠ []), evTrunc := 0, evWdrop := 0, evUnkop := 0, evOvspd := 0
    cntHit := 0, cntMiss := 0, cntProv := 0, cntRefused := 0, cntDeny := 0, cntWcommit := 0, cntEsc := 0, cntLate := 0
    lastHit := 0, lastMiss := 0, lastProv := 0, siPass := 0, pfIssued := 0, pfUsed := 0, cleanPasses := 0
    escHeld := false, escForever := false, escCount := 0, adjRej := false, goldReboot := false, slots := []
    quota := min g.adapt.quotaInit room, depth := g.adapt.depthInit, div := g.fpDiv, upNeed := g.adapt.upPasses
    lastUp := none, lastDown := none, trace := { kept := k.trace.kept, newest := k.trace.newest } }

/-- The anchors of the new image: slots that a binding named and none of the new image's `binds` names are emptied, as are those whose
record went or changed; new ones are placed (R198). -/
def rsAnchors (s : State) (new : List (Nat × List Byte)) (binds : List Binding) : State :=
  let old := s.st.anchors
  let named := fun (l : List Binding) (x : Nat × List Byte) => l.any (fun b => b.anchor.val = x.1)
  let gone := old.filter (fun x => !new.contains x || (named s.ve.bindings x && !named binds x))
  let s := gone.foldl (fun s x => dropAnchor s x.1) s
  let s := (new.filter (fun x => !old.contains x)).foldl placeAnchor s
  { s with st := { s.st with anchors := new } }

/-- RESTRUCTURE_COMMIT: one step, once the target's committed writes are complete and every check has passed (R198).
Log entry 27 (DEDUCED). -/
def rsCommit (s : State) : State :=
  let c := s.st.rsTarget
  if s.st.state = .restructuring ∧ s.ch[c].wr = none ∧ rsErr s = none then
    match sigEnd s with
    | none => sigStart s
    | some s =>
    let img := s.st.stage
    let l := sectsOf img
    let s := rsDrop (endTrace s c 0 true) c
    let s := rsAnchors s (parseAnchors l) (parseBindings l)
    let s := { s with ve := { s.ve with bindings := parseBindings l } }
    let s := strictPend (modCh s c (rsChan (chanTables img l c) (poolEmbers s + s.ch[c].quota))) c (fun _ => true)
    let s := rsOver { s with st := { s.st with
      hdr := hdrOf img, skipped := skippedIn s img, err := false, rsHold := setBit s.st.rsHold c.val } }
    settleAll (stInt (showDigest s) 2)
  else s

/-- LOAD_REJECT: the first failure of a load or a restructure, or a read of its source that failed at an offset (R191, R199).
Log entry 25 (DESIGN CHOICE, DEDUCED). -/
def stReject (s : State) (readFail : Option Nat) : State :=
  let go := fun (later : Option LdErr) (f : State → LdErr → State) =>
    match sourceErr s readFail with
    | some e => f s e
    | none => match later with
      | none => s
      | some e => match sigEnd s with | some s => f s e | none => sigStart s
  if s.st.state = .loading then
    go (imageErr s s.st.stage (arbCount s) []) fun s (o, p, code) =>
      loadReject { s with st := { s.st with skipped := skippedIn s s.st.stage } } code p o
  else if s.st.state = .restructuring then go (rsErr s) fun s (o, p, code) => stRefuse (rsOver s) code p o
  else s

/-- A W1C write of ST_RS_HOLD (R198). -/
def rsHoldClear (s : State) (v : Word) : State := settleAll { s with st := { s.st with rsHold := s.st.rsHold &&& ~~~v } }

/-! Run-time writes of a channel's descriptors. -/

/-- GR_RGN_ACT(i) written on one channel (R81). -/
def rgnActAt (s : State) (c : Ch) (i : Fin 64) (v : Word) : State :=
  let k := s.ch[c]
  let d := k.cfg.desc[i]
  if !k.locked ∨ !rgnAdj d then s
  else
    let d' := { d with act := (d.act &&& ~~~adjMask) ||| (v &&& adjMask) }
    let g := { k.cfg with desc := k.cfg.desc.set i d' }
    let users := usersOf (allCh.flatMap (segUses (sectsOf s.st.hdr.bytes))) c.val
    let binds := (s.ve.bindings.filter (fun b => b.ch = c)).map (·.bind)
    let bad := allRgn.any (fun j => rgnEn g.desc[j] && (actReserved (g.desc[j]).act || !(rgnErrs g c users binds g.desc[j] j).isEmpty))
    if bad then modCh s c (fun k => { k with adjRej := true }) else dropUnserved (modCh s c (fun k => { k with cfg := g })) c

/-- A W1C write of GR_SUBST_LO or GR_SUBST_HI on one channel (R82). -/
def substClearAt (s : State) (c : Ch) (hi : Bool) (v : Word) : State :=
  let m : BitVec 64 := (v.setWidth 64) <<< (if hi then 32 else 0)
  dropUnserved (modCh s c (fun k => { k with subst := k.subst &&& ~~~m })) c

end Sys2Proof.Machine
end

