-- ==== Sys2Proof/Machine/Instances.lean ====
section
/-! DEFINITION. Instances (R224-R230), squashes with all they end, tracker parity (R205), aged heads (R215) and dependent
draws (R212). -/

namespace Sys2Proof.Machine

/-! Squashes. -/

/-- Entries of a list of units, as a test. -/
def inUnits (ids : List Nat) (b : Option Nat) : Bool := match b with | some id => ids.contains id | none => false

/-- A key slot that a squashed operation was filling is left as it was (R24). Every operation fills at its end, but ALIAS, whose child
slot stands from its start: it is empty again, and no alias key is in force.
Log entry 30 (DEDUCED). -/
def kvUndo (s : State) (r : KvRun) : State :=
  let i : Fin 128 := ⟨r.out0.toNat % 128, Nat.mod_lt _ (by decide)⟩
  if r.code = 0 ∧ r.op = 14 then
    modLms (modSlot s i (fun k => { gen := k.gen })) 1 (fun k => { k with valid := false, ready := false })
  else s

/-- A vault operation whose unit is squashed: outputs are zeroed, and its result is KEY_REVOKED, as under R301.
Log entry 30 (DEDUCED). -/
def kvSquash (ids : List Nat) (s : State) (c : Core) : State :=
  match (s.kv.cmd[c]).run with
  | some r =>
    if ids.contains r.billet then
      let s := if r.dstLen = 0 then s else ramWrite s none r.dst (fillBytes r.dstLen 0)
      let s := { s with kv := { s.kv with arb := arbDrop s.kv.arb r.billet } }
      kvServe 8 (kvPost (kvUndo s r) c 6 0 0)
    else s
  | none => s

/-- Set a channel's tracker state. -/
def dmaBillet (s : State) (k : Fin 16) (st : BilletSt) : State :=
  match (s.he.dma[k]).billet with
  | some id =>
    (match unitOf s id with
     | some b => { s with bt := { s.bt with units := aput s.bt.units id { b with st := st } } }
     | none => s)
  | none => s

/-- The channel leaves its mover. -/
def dmaOffMover (s : State) (k : Fin 16) : State :=
  { s with he := { s.he with movers := s.he.movers.map (fun m => match m with
      | some (j, t) => if j = k then none else some (j, t)
      | none => none) } }

/-- Effective priority of a channel: PRIO, or 4 once it has waited 1 ms (R253). -/
def dmaPrio (d : DmaCh) : Nat := if d.aged then 4 else d.prio.toNat

/-- The waiting channel of highest effective priority, ties to the lowest number. -/
def dmaNext (s : State) : Option (Fin 16) :=
  (List.finRange 16).foldl (fun (b : Option (Fin 16)) k =>
    let d := s.he.dma[k]
    if d.st ≠ .waiting ∧ d.st ≠ .preempted then b
    else match b with
      | none => some k
      | some j => if dmaPrio s.he.dma[j] < dmaPrio d then some k else b) none

/-- A free mover. -/
def freeMover (s : State) : Option (Fin 4) := (List.finRange 4).find? (fun m => (s.he.movers[m]).isNone)

/-- Give free movers to waiting channels (R253); `n` bounds how many. -/
def dmaGrant : Nat → State → State
  | 0, s => s
  | n + 1, s =>
    match freeMover s, dmaNext s with
    | some m, some k =>
      let s := modDma s k (fun d => { d with st := .running, aged := false })
      let s := dmaBillet s k .running
      dmaGrant n { s with he := { s.he with movers := s.he.movers.set m (some (k, s.clk.now)) } }
    | _, _ => s

/-- A job-DMA channel whose job is squashed: IDLE with END = SQUASHED; its mover and frame are free (R248, R257).
Log entry 30 (DEDUCED). -/
def dmaSquash (ids : List Nat) (s : State) (k : Fin 16) : State :=
  if inUnits ids (s.he.dma[k]).billet then
    let s := modDma s k (fun d => { d with st := .idle, ended := 3, billet := none, held := none, frame := none, progress := 0, aged := false })
    osDequeue (dmaOffMover s k) k.val
  else s

/-- A committed write whose unit is squashed: one not issued is the channel's pending write again; one issued ends.
Log entry 17 (DEDUCED, DESIGN CHOICE). -/
def writeSquash (ids : List Nat) (s : State) (c : Ch) : State :=
  match s.ch[c].wr with
  | some w =>
    if inUnits ids w.billet then
      match w.st with
      | .polling _ =>
        let s := modPort s w.fp (fun p => if w.cs then { p with busy1 := none } else { p with busy0 := none })
        modCh s c (fun k => { k with wr := none, wip := false, wel := false })
      | _ => modCh s c (fun k => { k with wr := some { w with st := .pending, billet := none } })
    else s
  | none => s

/-- Provisional slots that hold a squashed billet close as ABANDONED. -/
def slotSquash (ids : List Nat) (s : State) (c : Ch) : State :=
  (s.ch[c].slots.filter (fun x => ids.contains x.billet)).foldl (fun s x => abandonSlot s c x) s

/-- A response whose unit is squashed is not sent (R368). -/
def boxSquash (ids : List Nat) (s : State) (n : Inst) : State :=
  match (s.mb.box[n]).work with
  | some w => if inUnits ids w.billet then modBox s n (fun b => { b with work := none }) else s
  | none => s

/-- Squash units with their dependents and everything that was their work (R24, R206).
Log entry 30 (DEDUCED). -/
def squashAll (s : State) (ids : List Nat) : State :=
  let all := withDeps s 4096 ids
  let s := squash s ids
  let s := allCores.foldl (kvSquash all) s
  let s := dmaGrant 4 ((List.finRange 16).foldl (dmaSquash all) s)
  let s := forCh (forCh s (writeSquash all)) (slotSquash all)
  let s := (List.finRange 64).foldl (boxSquash all) s
  let s := if inUnits all s.fb.snap.billet then modSnap s (fun x => { x with sig := none, billet := none }) else s
  { s with mb := { s.mb with tallyQ := s.mb.tallyQ.filter (fun r => !inUnits all r.billet) } }

/-! Instances. -/

/-- Change one instance. -/
def modInst (s : State) (n : Inst) (f : InstRt → InstRt) : State := { s with inst := s.inst.set n (f s.inst[n]) }

/-- A command is refused (R230). -/
def instRefuse (s : State) (n : Inst) (code : Nat) : State := modInst s n (fun x => { x with refused := true, refcode := code })

/-- A master's write of IN_CTL: of several masters' in one cycle the first is taken, and every other refused (R230).
Log entry 2 (DESIGN CHOICE). -/
def instTake (s : State) (m : Master) (n : Inst) (f : State → State) : State :=
  if takenNow (s.inst[n]).ctlBy s.clk.now m then instRefuse s n 1
  else f (modInst s n (fun x => { x with ctlBy := some (s.clk.now, m) }))

/-- The instance becomes ACTIVE with empty queues, a zeroed bulk buffer and sequence numbers at 0 (R225). -/
def instActivate (s : State) (n : Inst) : State := modInst (boxClear s n) n (fun x => { x with st := .active })

/-- Everything of an instance is squashed, its queues emptied and its locks freed (R227). -/
def instSquash (s : State) (n : Inst) : State := boxClear (squashAll s (unitsWhere s (fun u => u.owner = .inst n))) n

/-- Another ACTIVE instance on the same transport has the same address. -/
def instTaken (s : State) (n : Inst) : Bool :=
  (List.finRange 64).any (fun m => m ≠ n && (s.inst[m]).st = .active &&
    (s.inst[m]).cfg.transport = (s.inst[n]).cfg.transport && (s.inst[m]).addr = (s.inst[n]).addr)

/-- The in-band window of an instance cannot be (R351). -/
def inBandBlocked (s : State) (n : Inst) : Bool :=
  (s.inst[n]).cfg.transport = 8 && windowBlocked s.ch[chOf (s.inst[n]).addr.toNat]

/-- IN_CTL.CREATE (R225, R230, R351).
Log entry 29 (DEDUCED). -/
def instCreate (s : State) (n : Inst) : State :=
  if (s.inst[n]).st ≠ .dormant then instRefuse s n 3
  else if (s.inst[n]).cfg.transport = 0 ∨ instTaken s n ∨ inBandBlocked s n then instRefuse s n 2
  else instActivate s n

/-- IN_CTL.RESET_DRAIN (R226). -/
def instDrain (s : State) (n : Inst) : State :=
  match (s.inst[n]).st with
  | .dormant => instRefuse s n 3
  | .active => modInst s n (fun x => { x with st := .draining, drainAt := s.clk.now })
  | _ => instRefuse s n 1

/-- IN_CTL.RESET_SQUASH (R227).
Log entry 29 (DEDUCED). -/
def instReset (s : State) (n : Inst) : State :=
  if (s.inst[n]).st = .dormant then instRefuse s n 3 else settleAll (instActivate (instSquash s n) n)

/-- IN_CTL.REMOVE (R228, R308).
Log entry 29 (DEDUCED). -/
def instRemove (s : State) (n : Inst) : State :=
  if (s.inst[n]).st = .dormant then instRefuse s n 3
  else settleAll (modInst (revokeOwner (instSquash s n) n) n (fun x => { x with st := .dormant }))

/-- Billets an instance holds. -/
def instUnits (s : State) (n : Inst) : List Nat := unitsWhere s (fun u => u.owner = .inst n)

/-- DRAIN_COMPLETE (R226). -/
def drainDone (s : State) (n : Inst) : State :=
  if (s.inst[n]).st = .draining ∧ instUnits s n = [] ∧ (s.mb.box[n]).outq = [] then instActivate s n else s

/-- DRAIN_TIMEOUT: 50 ms after the request (R226). -/
def drainExpire (s : State) (n : Inst) : State :=
  if (s.inst[n]).st = .draining ∧ !(instUnits s n = [] ∧ (s.mb.box[n]).outq = []) then
    let s := reachTime s ((s.inst[n]).drainAt + msCyc 50)
    settleAll (btInt (instActivate (instSquash s n) n) 5)
  else s

/-! The tracker. -/

/-- TRACKER_PARITY_ERROR: the entry's unit is squashed and counted; a provisional slot whose fill or check it was is ABANDONED and
takes its descriptor's clinker response, since the released data cannot be checked any more (R123); a bound host-service
billet is changed for the other (R205).
Log entry 21 (DESIGN CHOICE, DEDUCED). -/
def trackerParity (s : State) (b : Fin 4096) : State :=
  let s := parityCount (btInt { s with bt := { s.bt with parity := satAdd 0xFFFF s.bt.parity 1 } } 4)
  if (unitOf s b.val).isSome then
    let mine := fun (x : ProvSlot) => x.billet = b.val || (match unitOf s b.val with
      | some u => (match u.work with | .check id _ _ _ => sameEmber id x.id | _ => false)
      | none => false)
    let hit := allCh.flatMap (fun c => (s.ch[c].slots.filter mine))
    let s := squashAll s [b.val]
    settleAll (hit.foldl (fun s x =>
      let s := if (slotOf s x.id).isSome then squashAll (abandonSlot s x.id.ch x) [x.billet] else s
      clinkerResponse s x.id) s)
  else if b.val < 1024 ∧ b.val % 32 < 2 then
    let c := chOf (b.val / 32)
    if s.ch[c].hsBound = decide (b.val % 32 = 1) then modCh s c (fun k => { k with hsBound := !k.hsBound }) else s
  else s

/-- The cycle in which the next head of an arbiter ages. -/
def agesAt (age : Nat) (a : Arb) : Option Nat :=
  ((a.items.filter (fun i => arbIsHead a i && !a.aged.any (fun x => x.1 == i.id))).map (fun i => i.enq + age)).foldl
    (fun b t => match b with | none => some t | some u => some (min t u)) none

/-- Age the heads of an arbiter whose limit has come; `i` is the interrupt raised. -/
def ageHeads (s : State) (age i : Nat) (a : Arb) (put : State → Arb → State) : State :=
  match agesAt age a with
  | none => s
  | some t =>
    let s := reachTime s t
    btInt (put s (arbAge s.clk.now age a)) i

/-- HEAD_AGED (R215): a head that has waited for its arbiter's age limit joins the aged list. -/
def headAged (s : State) (a : Arbiter) : State :=
  match a with
  | .hash t => ageHeads s (hashAge s) 2 (tierRing s (t.val + 1)) (fun s x => setRing s (t.val + 1) x)
  | .aes => ageHeads s (hashAge s) 2 s.kv.aesArb (fun s x => { s with kv := { s.kv with aesArb := x } })
  | .vault => ageHeads s (hashAge s) 2 s.kv.arb (fun s x => { s with kv := { s.kv with arb := x } })
  | .port p => ageHeads s (msCyc s.bt.arb.portAgeMs) 3 s.port[p].arb (fun s x => modPort s p (fun q => { q with arb := x }))
  | .ownStore => ageHeads s (msCyc s.bt.arb.osAgeMs) 3 s.os.arb (fun s x => { s with os := { s.os with arb := x } })

/-- What a dependent does once it has its billet: a read goes to its port.
Log entry 28 (DEDUCED). -/
def startDependent (s : State) (id : Nat) (w : WaitingDraw) : State :=
  match w.work with
  | .readFor _ e => portEnq s e.fp id false
  | .tree _ => hashEnq { s with pd := { s.pd with gatedLms := false } } 3 id treeJob w.owner
  | _ => s

/-- DEPENDENT_DRAW_GRANT (R212): the first draw waiting for a class whose parent may cause a further unit (R206).
Log entry 28 (DEDUCED). -/
def grantDependent (s : State) (k : BilletClass) : State :=
  match s.bt.waiting.find? (fun w => w.cls = k && !depsFull s (some w.parent)) with
  | none => s
  | some w =>
    match draw k w.owner (some w.parent) false w.work s with
    | (none, s) => s
    | (some id, s) => startDependent { s with bt := { s.bt with waiting := s.bt.waiting.erase w } } id w

end Sys2Proof.Machine
end

