-- ==== Sys2Proof/Machine/Interrupts.lean ====
section
/-! DEFINITION. The interrupt controller (R258-R262): pending sources, what is deliverable to a core, claim and
completion. -/

namespace Sys2Proof.Machine

/-- A status register has an enabled bit set. -/
def anyEn (sts en : Word) : Bool := sts &&& en ≠ 0

/-- MB_INQ: instance `n` has an inbound head that the responder does not take. -/
def inqBit (s : State) (n : Inst) : Bool := !(s.mb.box[n].inq).isEmpty && !takenHead s n

/-- MB_INQ as one 64-bit value. -/
def inqBits (s : State) : BitVec 64 :=
  (List.finRange 64).foldl (fun (w : BitVec 64) n => putBit w n.val (inqBit s n)) 0

/-- A portal status that raises source 30. -/
def portalErr (p : Portal) : Bool := decide (p.frameErr ≠ 0) || p.overrun || p.accessErr || p.lenErr || p.busyTmo

/-- A tamper alarm with the INTERRUPT response stands (R459). -/
def tamperIrq (s : State) : Bool :=
  (List.finRange 8).any (fun i => s.tp.intSts.getLsbD i.val && (s.tp.ao.src[i]).resp.getLsbD 0)

/-- A source is pending (Table 8.7, R495). -/
def intPending (s : State) (i : Nat) : Bool :=
  if i < 16 then (s.he.dmaInt &&& s.he.dmaIntEn).getLsbD i || (s.he.dmaInt &&& s.he.dmaIntEn).getLsbD (i + 16)
  else match i with
    | 16 => anyEn s.he.gr s.he.grEn
    | 17 => anyEn s.ve.intSts s.ve.intEn
    | 18 => anyEn s.ec.intSts s.ec.intEn
    | 19 => anyEn s.st.intSts s.st.intEn
    | 20 => anyEn s.bt.intSts s.bt.intEn
    | 21 => anyEn s.mb.intSts s.mb.intEn || decide (inqBits s &&& s.mb.inqEn ≠ 0)
    | 22 => anyEn s.sq.intSts s.sq.intEn
    | 24 => anyEn s.kv.intSts s.kv.intEn
    | 25 => anyEn s.lc.intSts s.lc.intEn
    | 26 => anyEn s.fb.intSts s.fb.intEn
    | 27 => anyEn s.wd.intSts s.wd.intEn
    | 28 => anyEn s.pr.intSts s.pr.intEn
    | 29 => tamperIrq s || anyEn s.tp.intSts s.tp.intEn
    | 30 => s.gc.portals.toList.any portalErr
    | _ => false

/-- HE_INT_PEND. -/
def intPend (s : State) : Word := (List.range 32).foldl (fun (w : Word) i => putBit w i (intPending s i)) 0

/-- A pending source is deliverable to a core (R259, R260). -/
def deliverable (s : State) (c : Core) (i : Fin 32) : Bool :=
  intPending s i.val && decide (s.he.service[i] = none) &&
    (i == 29 || ((s.he.tgt[i]).getLsbD c.val && decide (s.he.prio[i] ≠ 0) &&
      decide ((s.he.thr[c]).toNat < (s.he.prio[i]).toNat)))

/-- The deliverable source of highest priority, ties to the lowest number (HE_INT_TOP). -/
def intTop (s : State) (c : Core) : Option (Fin 32) :=
  (List.finRange 32).foldl (fun (b : Option (Fin 32)) i =>
    if !deliverable s c i then b
    else match b with
      | none => some i
      | some j => if (s.he.prio[j]).toNat < (s.he.prio[i]).toNat then some i else b) none

/-- Claim a source for a core: ignored where the source is not deliverable to it (R259). -/
def intClaim (s : State) (c : Core) (i : Fin 32) : State :=
  if deliverable s c i then { s with he := { s.he with service := s.he.service.set i (some c) } } else s

/-- Complete a source: ignored from a core that did not claim it (R259). -/
def intComplete (s : State) (c : Core) (i : Fin 32) : State :=
  if s.he.service[i] = some c then { s with he := { s.he with service := s.he.service.set i none } } else s

/-- The machine timer interrupt is pending at a core (R262). -/
def timerPending (s : State) (c : Core) : Bool := decide ((s.he.mtimecmp[c]).toNat ≤ mtime s)

/-- MTIMECMP_MATCH: the cycle comes in which mtime reaches a core's compare value; the interrupt is level-sensitive and
follows from the two, and a core in WFI that has it enabled goes on (R262, Table 8.1). -/
def mtimeMatch (s : State) (c : Core) : State :=
  reachTime s (s.clk.resetAt + usCyc (s.he.mtimecmp[c]).toNat)

end Sys2Proof.Machine
end

