-- ==== Sys2Proof/Machine/RegRead.lean ====
section
/-! DEFINITION. Reading the management address space (R5, R11, R493-R496): the windows, and the value each register
shows, from its field table and Tables 18.3-18.9. -/

namespace Sys2Proof.Machine

/-- The windows in the order of the PORTAL mask bits (Table 18.1): base, last offset. -/
def windows : List (Nat × Nat) :=
  [(0x000000, 0x208), (0x010000, 0x3FC), (0x020000, 0x17FC), (0x030000, 0x820), (0x040000, 0x820), (0x050000, 0x54),
   (0x060000, 0x1FC), (0x070000, 0x18), (0x080000, 0xB2C), (0x090000, 0x17C), (0x098000, 0x20), (0x0A0000, 0x17C),
   (0x0B0000, 0x13C), (0x0C0000, 0x1FFC), (0x0D0000, 0x608), (0x0E0000, 0x440), (0x0E8000, 0xBC), (0x0F0000, 0x3FFC)]

/-- The window an address lies in and its offset there: none from 0x10_0000 up (R493). -/
def windowOf (a : Nat) : Option (Nat × Nat) :=
  if 0x100000 ≤ a then none
  else match a / 0x10000 with
    | 9 => if a % 0x10000 < 0x8000 then some (9, a % 0x10000) else some (10, a % 0x8000)
    | 14 => if a % 0x10000 < 0x8000 then some (15, a % 0x10000) else some (16, a % 0x8000)
    | 15 => some (17, a % 0x10000)
    | n => some ((if n ≤ 8 then n else n + 1), a % 0x10000)

/-- The last implemented offset of a window. -/
def lastOfs (w : Nat) : Nat := ((windows[w]?).map (·.2)).getD 0

/-- A number as a register. -/
def wd (n : Nat) : Word := BitVec.ofNat 32 n

/-- Half `hi` of a 64-bit value, as LO and HI registers show it. -/
def half64 (x : BitVec 64) (hi : Bool) : Word := if hi then x.extractLsb' 32 32 else x.extractLsb' 0 32

/-- Offset of a register array: the index of `o` in an array at `base` of `n` entries `stride` bytes apart, and the offset
within the entry. -/
def inArray (o base stride n : Nat) : Option (Nat × Nat) :=
  if base ≤ o ∧ o < base + stride * n then some ((o - base) / stride, (o - base) % stride) else none

/-- The copy of GC_PORTAL_STS a master reaches: its own, or for a core the one GC_PORTAL_VIEW selects. -/
def portalCopy (s : State) (m : Master) : Fin 6 :=
  match m with
  | .ext x => x
  | .core _ => if h : s.gc.view.toNat < 6 then ⟨s.gc.view.toNat, h⟩ else 0

/-- GC_PORTAL_STS. -/
def portalSts (p : Portal) (x : Fin 6) : Word :=
  pack [(0, p.frameErr), (8, b2n p.overrun), (9, b2n p.accessErr), (10, b2n p.lenErr), (11, b2n p.busyTmo),
    (12, p.lastStatus), (16, x.val)]

/-- The GC window. -/
def gcRead (s : State) (m : Master) (o : Nat) : Word :=
  match o with
  | 0x000 => pack [(0, 0x3208), (16, s.gc.rev.toNat)]
  | 0x004 => half64 (serialNum s) true
  | 0x008 => half64 (serialNum s) false
  | 0x100 => portalSts s.gc.portals[portalCopy s m] (portalCopy s m)
  | 0x104 => wd s.gc.view.toNat
  | 0x200 => pack [(0, s.os.ctlOp.toNat), (3, b2n s.os.op.isSome), (4, b2n s.os.done), (5, s.os.err.toNat), (8, s.os.ctlLen.toNat)]
  | 0x204 => wd s.os.addr.toNat
  | 0x208 => s.os.src
  | _ => 0

/-- CH_SEL of a master. -/
def chSelWord (x : Sel) : Word := pack [(0, x.ch.val), (8, b2n x.bcast), (9, b2n x.mismatch)]

/-- CH_STATUS. -/
def chStatus (s : State) (c : Ch) : Word :=
  let k := s.ch[c]
  pack [(0, (profOf k).proto), (2, b2n k.addr4), (3, b2n k.altOn), (4, b2n (connected k)), (5, b2n (hasMirror k)),
    (6, b2n (hostHeld s c)), (7, b2n k.raw.own), (8, k.cfg.segs.length)]

/-- A CH register of one channel. -/
def chRead (s : State) (c : Ch) (o : Nat) : Word :=
  let k := s.ch[c]
  match o with
  | 0x004 => chStatus s c
  | 0x008 => pack [(0, b2n k.wip), (1, b2n k.wel), (2, b2n k.susp)]
  | 0x00C => pack [(0, k.evTrunc.toNat), (8, k.evWdrop.toNat), (16, k.evUnkop.toNat), (24, k.evOvspd.toNat)]
  | 0x010 => pack [(0, k.cfg.css), (8, k.cfg.csh), (16, k.cfg.csgap)]
  | 0x014 => pack [(0, k.div), (16, k.cfg.divMin)]
  | 0x020 => pack [(2, b2n k.raw.busy), (3, b2n k.raw.done), (4, b2n k.raw.err), (5, k.raw.lanes.toNat), (7, b2n k.raw.ddr),
      (8, b2n k.raw.cs), (9, b2n k.raw.holdCs), (10, b2n k.raw.ownReq), (24, k.raw.errcode)]
  | 0x024 => pack [(0, k.raw.len.toNat), (16, k.raw.out.toNat)]
  | _ => if 0x200 ≤ o then (k.raw.buf.toList[(o - 0x200) / 4]?).getD 0 else 0

/-- A counter of Table 3.8. -/
def grCnt (k : Chan) (i : Nat) : Word :=
  match i with
  | 0 => k.cntHit
  | 1 => k.cntMiss
  | 2 => k.cntProv
  | 3 => k.cntRefused
  | 4 => k.cntDeny
  | 5 => k.cntWcommit
  | 6 => k.cntEsc
  | _ => k.cntLate

/-- A descriptor's register (R184). -/
def rgnWord (d : Rgn) (o : Nat) : Word :=
  match o with
  | 0 => d.base
  | 4 => d.limit
  | 8 => d.act
  | _ => d.aux

/-- GR_STATUS. -/
def grStatus (s : State) (k : Chan) : Word :=
  pack [(0, b2n k.locked), (1, b2n k.adjRej), (2, b2n (!grRoom s)), (3, b2n k.escHeld), (4, k.escCount),
    (8, k.escDesc.toNat), (14, b2n k.escOpc)]

/-- A GR register of one channel. -/
def grChRead (s : State) (c : Ch) (o : Nat) : Word :=
  let k := s.ch[c]
  match o with
  | 0x000 => k.cfg.grctl
  | 0x004 => grStatus s k
  | 0x00C => k.subst.extractLsb' 0 32
  | 0x010 => k.subst.extractLsb' 32 32
  | _ =>
    match inArray o 0x020 4 8, inArray o 0x400 16 64, inArray o 0x1000 4 256, inArray o 0x1400 4 256 with
    | some (i, _), _, _, _ => grCnt k i
    | _, some (i, r), _, _ => ((k.cfg.desc.toList[i]?).map (fun d => rgnWord d r)).getD 0
    | _, _, some (i, _), _ => (k.cfg.rst.opc.toList[i]?).getD 0
    | _, _, _, some (i, _) => ((k.cfg.alt.bind (fun (p : Profile) => p.opc.toList[i]?))).getD 0
    | _, _, _, _ => 0

/-- The device-wide registers of a log ring at 0x800-0x820 (GR, VE, EC). -/
def logRead (r : LogRing) (o : Nat) : Word :=
  match o with
  | 0x800 => wd r.head
  | 0x804 => wd r.tail
  | 0x808 => wd r.rdidx
  | 0x810 => recWord (ringRec r r.rdidx) 0
  | 0x814 => recWord (ringRec r r.rdidx) 1
  | 0x818 => recWord (ringRec r r.rdidx) 2
  | 0x81C => recWord (ringRec r r.rdidx) 3
  | 0x820 => wd r.lost
  | _ => 0

/-- The channel a read of a channel register goes to: the selected one, or under BCAST the lowest connected (R70). -/
def readCh (s : State) (m : Master) : Ch :=
  let x := selOf s m
  if x.bcast then (allCh.find? (fun c => connected s.ch[c])).getD 0 else x.ch

/-- A register of the CH or GR window that exists once per channel. -/
def perCh (w o : Nat) : Bool := (w == 1 && decide (o ≠ 0)) || (w == 2 && !(decide (0x800 ≤ o) && decide (o ≤ 0x820)))

/-- The value of such a register on one channel. -/
def perChRead (s : State) (w : Nat) (c : Ch) (o : Nat) : Word := if w = 1 then chRead s c o else grChRead s c o

/-- Another connected channel holds a different value: a broadcast read sets MISMATCH (R70). -/
def bcastDiffers (s : State) (m : Master) (w o : Nat) : Bool :=
  allCh.any (fun c => connected s.ch[c] && decide (perChRead s w c o ≠ perChRead s w (readCh s m) o))

/-- Slots open on a channel. -/
def openSlots (s : State) (c : Ch) : Nat := s.ch[c].slots.length

/-- A strict descriptor has a listed clinker among its embers. -/
def strictListed (s : State) (c : Ch) (i : Fin 64) : Bool :=
  (rgnPages s.ch[c].cfg.desc[i]).any (fun p =>
    match emberAt s.ch[c] c i (isSubst s.ch[c] i) (4096 * p) with
    | some id => emberListed s id
    | none => false)

/-- VE_STRICT_FAIL bit. -/
def strictFail (s : State) (c : Ch) : Bool :=
  (strictOf s.ch[c]).any (fun i =>
    let st := (s.ch[c].strict[i]).st
    decide (st = .failed) || (decide (st = .passed) && strictListed s c i))

/-- A word with bit c where `p` holds of channel c. -/
def chMask (p : Ch → Bool) : Word := allCh.foldl (fun (w : Word) c => putBit w c.val (p c)) 0

/-- Engines that run work of a tier. -/
def engTier (s : State) (t : Nat) : Nat := (allEng.filter (fun e => (engJob s e).any (fun j => j.tier == t))).length

/-- Codes of VE_BIND_STATE.STATE. -/
def bindCode : BindSt → Nat
  | .idle => 0
  | .checking => 1
  | .anchored => 2
  | .rejected => 3
  | .revoked => 4
  | .staged => 5
  | .armed => 6
  | .failed => 7

/-- The binding and bank a master's VE_BIND_SEL selects: none for 0xFF, for a binding the structure lacks, for bank 3 and
for a bank that does not exist. -/
def selBank (s : State) (m : Master) : Option (Binding × BankId) :=
  let x := selOf s m
  match bindingOf s x.bind.toNat with
  | none => none
  | some b =>
    match x.bank.toNat with
    | 0 => some (b, bindServing s b)
    | 1 => (bindInactive s b).map (fun k => (b, k))
    | 2 => if bindGold s b then some (b, .g) else none
    | _ => none

/-- A binding register of the selected bank. -/
def bindRead (s : State) (m : Master) (f : BankRt → Word) : Word :=
  match selBank s m with
  | some (b, k) => f (bankRt s b.bind k)
  | none => 0

/-- VE_BIND_FLOOR of the selected binding. -/
def bindFloorReg (s : State) (m : Master) : Word :=
  let b := (selOf s m).bind.toNat
  if b = 0xFF then 0 else (aget s.ve.floors b).getD 0

/-- VE_STATUS. -/
def veStatus (s : State) : Word :=
  pack [(0, s.ve.engOnline.toNat), (12, s.ve.aesOnline.toNat), (14, b2n s.ve.pinFull), (15, b2n s.ve.clistFull),
    (16, b2n (evLow s)), (17, poolSize s - slotsOpen s), (24, poolSize s)]

/-- The VE window. -/
def veRead (s : State) (m : Master) (o : Nat) : Word :=
  match o with
  | 0x000 => pack [(0, b2n s.ve.scrubEn), (8, s.ve.katPeriod)]
  | 0x004 => veStatus s
  | 0x008 => s.ve.intSts
  | 0x00C => s.ve.intEn
  | 0x010 => chMask (strictDone s)
  | 0x014 => chMask (strictFail s)
  | 0x018 => s.ve.clkHold
  | 0x01C => pack [(0, engTier s 0), (4, engTier s 1), (8, engTier s 2), (12, engTier s 3)]
  | 0x040 => pack [(0, (selOf s m).bind.toNat), (8, (selOf s m).bank.toNat)]
  | 0x044 => bindRead s m (fun r => pack [(0, bindCode r.st), (4, r.reason), (8, r.depth), (10, b2n ((selBank s m).any (fun (b, k) => bankPinned s b k)))])
  | 0x048 => bindRead s m (fun r => if r.st = .anchored ∨ r.st = .armed then r.version else 0)
  | 0x04C => bindFloorReg s m
  | 0x080 => bindRead s m (fun r => pack [(0, r.scrubCur - 1), (24, r.scrubPasses % 256)])
  | _ =>
    match inArray o 0x060 4 8, inArray o 0x100 8 32 with
    | some (i, _), _ => bindRead s m (fun r => digWord r.root i)
    | _, some (n, r) =>
      let c : Ch := Fin.ofNat 32 n
      let k := s.ch[c]
      if r = 0 then pack [(0, k.cfg.provSlots), (4, openSlots s c), (8, k.maxWin)]
      else pack [(0, k.statSi), (16, k.statClk), (24, k.statAbn)]
    | _, _ => logRead s.ve.log o

/-- Occupied frames, and the sum of quotas (R144). -/
def quotaSum (s : State) : Nat := allCh.foldl (fun a c => a + s.ch[c].quota) 0

/-- The bank set a master's EC_BSET_SEL selects. -/
def selBset (s : State) (m : Master) : Option (Ch × Fin 15 × BankSet) :=
  let x := selOf s m
  if h : x.bsSet.toNat < 15 then
    (s.ch[x.bsCh].cfg.bsets[x.bsSet.toNat]?).map (fun b => (x.bsCh, ⟨x.bsSet.toNat, h⟩, b))
  else none

/-- EC_BSET_MAP. -/
def bsetMap (s : State) (m : Master) : Word :=
  match selBset s m with
  | none => 0
  | some (c, i, b) =>
    let r := s.ch[c].bset[i]
    pack [(0, 1), (1, b2n b.g.isSome), (2, b2n r.activeB), (3, b2n r.goldSel), (4, b2n r.flipPend), (5, b2n r.gclrPend),
      (6, b2n r.stageLock), (8, b2n r.reqRej), (9, b2n r.flipFail)]

/-- The EC window. -/
def ecRead (s : State) (m : Master) (o : Nat) : Word :=
  match o with
  | 0x000 => pack [(0, b2n s.ec.locked), (16, s.ec.passes)]
  | 0x004 => pack [(0, s.ec.frames.length), (12, quotaSum s), (24, b2n (ecLow s))]
  | 0x008 => s.ec.intSts
  | 0x00C => s.ec.intEn
  | 0x010 => s.ec.flipHold
  | 0x014 => s.ec.freeze
  | 0x018 => wd s.ec.parity
  | 0x040 => pack [(0, (selOf s m).bsCh.val), (8, (selOf s m).bsSet.toNat)]
  | 0x044 => bsetMap s m
  | _ =>
    match inArray o 0x100 8 32 with
    | some (n, r) =>
      let c : Ch := Fin.ofNat 32 n
      let k := s.ch[c]
      if r = 0 then pack [(0, k.quota), (12, occOf s c), (24, k.hitPct)]
      else pack [(0, k.depth), (6, b2n (decide (k.trace.valid ≠ .none))), (7, b2n k.trace.follow), (8, b2n k.trace.preDone),
        (9, b2n k.trace.recording), (10, k.trace.entries.length)]
    | none => logRead s.ec.log o

/-- Codes of ST_STATUS.STATE. -/
def loadCode : LoadSt → Nat
  | .empty => 0
  | .loading => 1
  | .loaded => 2
  | .locked => 3
  | .restructuring => 4

/-- The ST window. -/
def stRead (s : State) (o : Nat) : Word :=
  match o with
  | 0x000 => pack [(2, b2n s.st.srcRam)]
  | 0x004 => s.st.src
  | 0x008 => pack [(0, loadCode s.st.state), (3, b2n s.st.err), (4, min s.st.skipped 255)]
  | 0x00C => pack [(0, s.st.errCode), (8, s.st.errSection)]
  | 0x010 => wd s.st.errOfs
  | 0x014 => s.st.hdr.imageId
  | 0x018 => pack [(0, s.st.hdr.rollback), (16, arbCount s), (31, b2n (mirrorAgrees s))]
  | 0x040 => pack [(0, s.st.rsCh.val), (9, b2n s.st.rsBusy)]
  | 0x044 => s.st.rsHold
  | 0x04C => pack [(0, s.st.arbTarget), (16, b2n s.st.advancing), (17, b2n s.st.arbDone), (18, b2n s.st.arbFail)]
  | 0x050 => s.st.intSts
  | 0x054 => s.st.intEn
  | _ =>
    match inArray o 0x020 4 8 with
    | some (i, _) => digWord s.st.digest i
    | none => 0

/-- Billets of a channel in use from its reservation, and pool billets held by an owner. -/
def resUsed (s : State) (c : Ch) : Nat := (unitsWhere s (fun b => b.owner == .ch c && b.src == .reservation)).length
def poolHeld (s : State) (o : Owner) : Nat := (unitsWhere s (fun b => b.owner == o && b.src == .pool)).length
def hearthHeld (s : State) : Nat := (unitsWhere s (fun b => b.owner == .hearth)).length

/-- The BT window.
Log entry 12 (DEDUCED). -/
def btRead (s : State) (o : Nat) : Word :=
  let use := fun (k : BilletClass) (peak : Nat) => pack [(0, useOf s k), (16, peak)]
  match o with
  | 0x000 => pack [(0, poolF s), (16, s.bt.low)]
  | 0x008 => s.bt.intSts
  | 0x00C => s.bt.intEn
  | 0x010 => use .hs s.bt.peakHs
  | 0x014 => use .ver s.bt.peakVer
  | 0x018 => use .fill s.bt.peakFill
  | 0x01C => use .bg s.bt.peakBg
  | 0x020 => wd s.bt.maxWaitBg
  | 0x024 => pack [(0, s.bt.maxWaitDem), (16, s.bt.maxWaitPort.val)]
  | 0x028 => pack [(0, hearthHeld s), (16, s.bt.arb.devFloor)]
  | 0x02C => if s.bt.arbOn then pack [(0, s.bt.arb.ageMs), (8, s.bt.arb.portAgeMs), (16, s.bt.arb.osAgeMs)] else 0
  | 0x030 => wd s.bt.parity
  | _ =>
    match inArray o 0x100 4 32, inArray o 0x180 4 32 with
    | some (n, _), _ => pack [(0, resUsed s (Fin.ofNat 32 n)), (8, poolHeld s (.ch (Fin.ofNat 32 n)))]
    | _, some (n, _) =>
      if s.bt.arbOn then
        let a := s.bt.arb.chs[(Fin.ofNat 32 n : Ch)]
        pack [(0, a.2.1), (8, a.2.2), (16, a.1)]
      else 0
    | _, _ => 0

/-- Codes of IN_STATUS.STATE. -/
def instCode : InstSt → Nat
  | .dormant => 0
  | .active => 1
  | .draining => 2
  | .squashing => 3

/-- The IN window of the selected instance. -/
def inRead (s : State) (m : Master) (o : Nat) : Word :=
  let n := (selOf s m).inst
  let x := s.inst[n]
  let p := s.bt.pools[x.cfg.pool]
  match o with
  | 0x000 => wd n.val
  | 0x004 => pack [(0, x.cfg.transport), (8, x.cfg.addr), (16, x.cfg.pool.val), (24, b2n x.cfg.static)]
  | 0x008 => wd x.addr.toNat
  | 0x010 => pack [(0, instCode x.st), (3, b2n x.refused), (4, x.refcode), (8, poolHeld s (.inst n)), (20, rootPool s (.inst n))]
  | 0x014 => pack [(0, p.cap), (16, p.hashW), (24, p.kvW)]
  | 0x018 => pack [(0, p.osW), (8, b2n p.sign)]
  | _ => 0

/-- Codes of HE_CORE_STS and HE_DMA_STS. -/
def coreCode : CoreSt → Nat
  | .held => 0
  | .running => 1
  | .nmi => 2
  | .halted => 3
def dmaCode : DmaSt → Nat
  | .idle => 0
  | .waiting => 1
  | .running => 2
  | .preempted => 3
  | .faulted => 4

/-- HE_CORE_STS. -/
def coreSts (s : State) : Word :=
  pack (allCores.map (fun c => (2 * c.val, coreCode (s.he.cores[c]).st)) ++
    allCores.map (fun c => (8 + c.val, b2n (s.he.cores[c]).wfi)))

/-- A job-DMA channel's registers (Table 18.5). -/
def dmaRead (x : DmaCh) (r : Nat) : Word :=
  match r with
  | 0x00 => pack [(0, x.prio.toNat), (2, x.cls.toNat), (8, x.owner.toNat)]
  | 0x08 => pack [(0, dmaCode x.st), (3, b2n x.cmdRej), (4, b2n x.busy), (5, x.ended.toNat)]
  | 0x0C => x.desc
  | 0x10 => pack [(0, x.code.toNat), (8, x.faultProg % 2 ^ 24)]
  | 0x14 => x.fva
  | _ => 0

/-- HE_INT_TOP(c). -/
def intTopWord (s : State) (c : Core) : Word :=
  match intTop s c with
  | some i => pack [(0, i.val), (31, 1)]
  | none => 0

/-- Registers of the HE window beyond its fixed offsets. -/
def heArray (s : State) (o : Nat) : Word :=
  match inArray o 0x010 4 4, inArray o 0x100 4 20, inArray o 0x1C0 4 4, inArray o 0x400 0x20 16, inArray o 0x800 4 32 with
  | some (c, _), _, _, _, _ => s.he.entry[(Fin.ofNat 4 c)]
  | _, some (r, _), _, _, _ => (s.he.root.toList[r]?).getD 0
  | _, _, some (c, _), _, _ => s.he.fstat[(Fin.ofNat 4 c)]
  | _, _, _, some (k, r), _ => dmaRead s.he.dma[(Fin.ofNat 16 k)] r
  | _, _, _, _, some (i, _) =>
    pack [(0, (s.he.prio[(Fin.ofNat 32 i)]).toNat), (8, (s.he.tgt[(Fin.ofNat 32 i)]).toNat)]
  | _, _, _, _, _ =>
    match inArray o 0x900 0x10 4, inArray o 0xA10 8 4, inArray o 0xA40 4 4, inArray o 0xB10 4 4, inArray o 0xB20 4 4 with
    | some (c, 0), _, _, _, _ => wd (s.he.thr[(Fin.ofNat 4 c)]).toNat
    | some (c, 4), _, _, _, _ => intTopWord s (Fin.ofNat 4 c)
    | _, some (c, r), _, _, _ => half64 s.he.mtimecmp[(Fin.ofNat 4 c)] (r == 4)
    | _, _, some (c, _), _, _ => wd (b2n (s.he.msip.getLsbD c))
    | _, _, _, some (c, _), _ => wd (s.he.nmiCause[(Fin.ofNat 4 c)]).toNat
    | _, _, _, _, some (c, _) => s.he.nmiEpc[(Fin.ofNat 4 c)]
    | _, _, _, _, _ => 0

/-- The HE window. -/
def heRead (s : State) (o : Nat) : Word :=
  match o with
  | 0x000 => coreSts s
  | 0x600 => s.he.dmaInt
  | 0x604 => s.he.dmaIntEn
  | 0x880 => intPend s
  | 0x884 => s.he.gr
  | 0x888 => s.he.grEn
  | 0xA00 => half64 (BitVec.ofNat 64 (mtime s)) false
  | 0xA04 => half64 (BitVec.ofNat 64 (mtime s)) true
  | 0xB00 => pack [(0, b2n s.he.hookEn), (1, b2n s.he.hookLock), (2, s.he.hookAddr.toNat)]
  | _ => heArray s o

/-- Codes of SQ_STATUS.STATE. -/
def graphCode : GraphSt → Nat
  | .idle => 0
  | .running => 1
  | .up => 2
  | .shutting => 3
  | .off => 4
  | .faulted => 5

/-- Word `i` of a 96-bit line vector. -/
def lineWord (x : BitVec 96) (i : Nat) : Word := x.extractLsb' (32 * i) 32

/-- A word with bit b where `p` holds. -/
def bitMask (p : Nat → Bool) : Word := (List.range 32).foldl (fun (w : Word) b => putBit w b (p b)) 0

/-- Running steps. -/
def stepsRunning (s : State) : Nat := (s.sq.steps.toList.filter (fun x => x.st = .running)).length

/-- SQ_HOST(n). -/
def sqHost (s : State) (n : Fin 32) : Word :=
  let h := s.sq.cfg.hosts[n]
  pack [(0, holds s n), (11, b2n (s.sq.hrst.getLsbD n.val)), (16, (h.ch.map (fun (c : Ch) => c.val)).getD 0xFF), (24, h.minHold)]

/-- The SQ window. -/
def sqRead (s : State) (o : Nat) : Word :=
  match o with
  | 0x004 => pack [(0, graphCode s.sq.graph), (8, stepsRunning s)]
  | 0x008 => s.sq.intSts
  | 0x00C => s.sq.intEn
  | 0x010 => s.sq.hearthHold
  | 0x014 => s.sq.pfHold
  | 0x018 => s.sq.hrst
  | 0x01C => pack [(0, s.sq.faultStep.toNat), (7, b2n s.sq.faultPf), (8, s.sq.faultLine.toNat), (16, s.sq.faultSmb.toNat)]
  | 0x080 => smbCtl s
  | 0x084 => wd s.sq.smbData.toNat
  | 0x090 => pack [(0, s.sq.log.head), (16, s.sq.log.tail)]
  | 0x094 => wd s.sq.log.rdidx
  | 0x0B0 => wd s.sq.log.lost
  | _ =>
    match inArray o 0x020 4 4, inArray o 0x040 4 3, inArray o 0x050 4 3, inArray o 0x0A0 4 4, inArray o 0x100 4 32 with
    | some (w, _), _, _, _, _ => bitMask (fun b => stepDone s (32 * w + b))
    | _, some (w, _), _, _, _ => lineWord s.sq.ioIn w
    | _, _, some (w, _), _, _ => lineWord s.sq.ioSw w
    | _, _, _, some (i, _), _ => recWord (ringRec s.sq.log s.sq.log.rdidx) i
    | _, _, _, _, some (n, _) => sqHost s (Fin.ofNat 32 n)
    | _, _, _, _, _ => 0

/-- A flash-side port is named by a segment or bank, and by a channel with a mirror-mode region. -/
def portNamed (s : State) (p : Ch) (q : Chan → Bool) : Bool :=
  allCh.any (fun c => q s.ch[c] && (portsOf s.ch[c]).contains p)

/-- State of a power domain (R292, Tables 9.6 and 9.8): 0 OFF, 1 ON, 2 GATED, 3 RETAIN. -/
def domState (s : State) (d : Nat) : Nat :=
  let locked : Bool := decide (s.st.state = .locked) || decide (s.st.state = .restructuring)
  if d < 32 then b2n (locked && connected s.ch[(Fin.ofNat 32 d : Ch)])
  else if d < 64 then
    let p : Ch := Fin.ofNat 32 d
    if !portNamed s p (fun _ => true) then 0
    else if portNamed s p hasMirror || (s.port[p]).cur.isSome || s.ch[p].raw.busy then 1 else 2
  else if d < 76 then 1 + b2n (s.pd.gatedHash.getLsbD (d - 64))
  else if d < 112 then 1
  else if d < 116 then (if (s.he.cores[(Fin.ofNat 4 d : Core)]).st = .held then 3 else 1)
  else if d < 120 then (if s.pd.ret.getLsbD (d - 116) then 3 else 1)
  else if d < 124 then 1
  else if d < 128 then
    let k := s.he.cores[(Fin.ofNat 4 d : Core)]
    if k.st = .held then 0 else 1 + b2n k.wfi
  else if d < 136 then b2n (decide ((s.fb.flue[(Fin.ofNat 4 ((d - 128) / 2) : Flue)]).st ≠ .off))
  else if d < 138 then 1 + b2n (s.pd.gatedAes.getLsbD (d - 136))
  else if d = 138 then 1 + b2n s.pd.gatedLms
  else if d = 146 then b2n (decide (s.pr.link.st ≠ .off))
  else if d < 148 then 1 else 0

/-- The PD window. -/
def pdRead (s : State) (m : Master) (o : Nat) : Word :=
  match o with
  | 0x000 => pack [(0, s.pd.cause.toNat), (4, s.pd.bank.toNat)]
  | 0x004 => pack [(0, b2n s.pd.coreOk), (1, s.pd.bankOk.toNat), (16, b2n s.pd.vbatOk)]
  | 0x008 => pack [(0, b2n s.pd.pllLock), (1, b2n s.pd.refOk)]
  | 0x00C => wd s.pd.bankLvl.toNat
  | 0x010 => wd (selOf s m).dom.toNat
  | 0x014 => wd (domState s (selOf s m).dom.toNat)
  | 0x020 => wd s.pd.ret.toNat
  | _ => 0

/-- Vault operations in flight, device signatures among them.
Log entry 12 (DEDUCED). -/
def kvInflight (s : State) : Nat :=
  min 8 ((allCores.filter (fun c => (s.kv.cmd[c]).run.isSome)).length +
    (unitsWhere s (fun b => match b.work with | .sign _ => true | _ => false)).length)

/-- KV_STATUS.FREE: empty general slots (R298); DEDUCED from its reset value, 0 until a root load leaves STATE EMPTY.
Log entry 12 (DEDUCED). -/
def kvFree (s : State) : Nat :=
  if s.kv.state = 0 then 0 else (allSlots.filter (fun i => decide (16 ≤ i.val) && decide ((s.kv.slots[i]).typ = 0))).length

/-- The attribute registers of a slot. -/
def slotAttr (s : State) (i : Fin 128) : Word :=
  let k := s.kv.slots[i]
  pack [(0, k.typ), (2, k.origin), (5, b2n k.lock), (6, b2n k.pend.isSome), (7, b2n (slotOk s i)), (8, k.usage.toNat),
    (16, k.owner.toNat)]
def slotLink (k : Slot) : Word := pack [(0, k.parent), (7, b2n k.isRoot), (8, if k.typ = 0 then 0 else k.depth)]

/-- One core's command set. -/
def kvCmdRead (k : KvCore) (r : Nat) : Word :=
  match r with
  | 0x00 => pack [(0, k.op.toNat), (5, b2n k.bg), (8, k.owner.toNat)]
  | 0x04 => k.arg[0]
  | 0x08 => k.arg[1]
  | 0x0C => k.arg[2]
  | 0x10 => k.arg[3]
  | 0x14 => pack [(0, k.code.toNat), (8, b2n k.run.isSome), (9, b2n k.done), (10, b2n k.rej)]
  | 0x18 => k.out0
  | _ => k.out1

/-- The KV window, which cores alone reach (R189). -/
def kvRead (s : State) (m : Master) (o : Nat) : Word :=
  match m with
  | .ext _ => 0
  | .core c =>
    let i := s.kv.sel[c]
    match o with
    | 0x004 => pack [(0, s.kv.state), (2, s.kv.ownerGen), (4, b2n s.kv.testRoot), (5, b2n s.kv.awkNew), (6, b2n s.kv.esFail),
        (7, b2n s.kv.zfail), (8, b2n s.kv.rej), (16, kvFree s), (24, kvInflight s)]
    | 0x008 => s.kv.intSts
    | 0x00C => s.kv.intEn
    | 0x010 => wd i.val
    | 0x014 => slotAttr s i
    | 0x018 => slotLink s.kv.slots[i]
    | 0x01C => pack [(0, (s.kv.slots[i]).gen), (16, (s.kv.slots[i]).pgen)]
    | _ =>
      match inArray o 0x100 0x20 4 with
      | some (n, r) => kvCmdRead s.kv.cmd[(Fin.ofNat 4 n)] r
      | none => 0

/-- LC_STATUS (R324, R333-R335). -/
def lcStatus (s : State) : Word :=
  let gens := fun (p : Nat → Bool) => b2n (p 0) + 2 * b2n (p 1) + 4 * b2n (p 2) + 8 * b2n (p 3)
  pack [(0, lcCode (lcState s)), (3, b2n (lcBusy s)), (4, b2n (dbgOpen s)), (5, b2n (dbgReopened s)), (6, b2n (factoryOpen s)),
    (7, b2n (curGen s).isSome), (8, (curGen s).getD 0), (10, gens (provFlag s)), (14, gens (revFlag s)), (18, gens (dbgFlag s)),
    (22, (freeMarks s).length), (27, b2n s.lc.resumed)]

/-- FORM of LC_MARK. -/
def formCode : MarkForm → Nat
  | .free => 0
  | .complete => 1
  | .torn => 2

/-- The LC window. -/
def lcRead (s : State) (o : Nat) : Word :=
  match o with
  | 0x000 => lcStatus s
  | 0x004 => wd s.lc.cmdOp.toNat
  | 0x008 => pack [(0, s.lc.code.toNat), (4, b2n s.lc.done), (5, s.lc.slot.toNat)]
  | 0x00C => s.lc.tokenAddr
  | 0x010 => s.lc.tokenLen
  | 0x0A0 => half64 (serialNum s) true
  | 0x0A4 => half64 (serialNum s) false
  | 0x0A8 => pack [(0, b2n (optAolossAsh s)), (1, b2n (optCwdHw s))]
  | 0x0B0 => s.lc.intSts
  | 0x0B4 => s.lc.intEn
  | _ =>
    match inArray o 0x020 4 8, inArray o 0x100 4 16 with
    | some (i, _), _ => digWord (s.lc.nonce.getD 0) i
    | _, some (i, _) => pack [(0, markOp s i), (8, markGen s i), (16, formCode (markForm s i)), (18, b2n (markDone s i))]
    | _, _ => 0

/-- MB_LMS_STS(j): a key that does not exist shows nothing.
Log entry 12 (DEDUCED). -/
def lmsSts (k : LmsKey) : Word :=
  if k.valid then pack [(0, b2n k.ready), (1, b2n (k.p == k.n)), (2, b2n (k.p == 2 ^ 30)), (3, b2n k.jfail), (4, 1),
    (8, k.slot.val), (16, k.n - k.p)]
  else 0

/-- Device-wide registers of the MB window. -/
def mbDevRead (s : State) (m : Master) (o : Nat) : Word :=
  match o with
  | 0x800 => half64 (inqBits s) false
  | 0x804 => half64 (inqBits s) true
  | 0x808 => half64 s.mb.inqEn false
  | 0x80C => half64 s.mb.inqEn true
  | 0x810 => s.mb.intSts
  | 0x814 => s.mb.intEn
  | 0x818 => wd s.mb.mctpDrop
  | 0x880 => wd (selOf s m).tally.val
  | 0x8A4 => (selOf s m).snapCnt
  | 0x8D0 =>
    match m with
    | .core c => pack [(1, b2n (s.mb.tallyQ.any (fun q => q.core == some c))), (2, b2n (s.mb.tallyRej.getLsbD c.val))]
    | .ext _ => 0
  | 0x8D8 => half64 s.mb.tallyLock false
  | 0x8DC => half64 s.mb.tallyLock true
  | 0x900 => pack [(0, b2n s.mb.attEn), (1, b2n s.mb.chainOk), (2, b2n s.mb.attLock)]
  | 0x904 => s.mb.extAsym
  | 0x908 => s.mb.chainAddr
  | 0x90C => s.mb.chainLen
  | 0x910 => lmsSts s.mb.lms[0]
  | 0x914 => wd (s.mb.lms[0]).p
  | 0x918 => lmsSts s.mb.lms[1]
  | 0x91C => wd (s.mb.lms[1]).p
  | 0x920 => s.mb.epoch
  | _ =>
    match inArray o 0x820 4 4, inArray o 0x840 4 16, inArray o 0x884 4 8, inArray o 0x8B0 4 8 with
    | some (p, _), _, _, _ => wd (s.mb.i3c[(Fin.ofNat 4 p)]).eid.toNat
    | _, some (k, _), _, _ => lockValue s (selOf s m).inst (Fin.ofNat 16 k)
    | _, _, some (i, _), _ => if i = 0 then digWord (s.mb.tallies[(selOf s m).tally]).1 0 else digWord (selOf s m).snapVal i
    | _, _, _, some (i, _) =>
      match m with
      | .core c => digWord s.mb.tallyIn[c] i
      | .ext _ => 0
    | _, _, _, _ => 0

/-- The MB window.
Log entry 12 (DEDUCED). -/
def mbRead (s : State) (m : Master) (o : Nat) : Word :=
  let n := (selOf s m).inst
  let b := s.mb.box[n]
  match o with
  | 0x000 => pack [(0, qFree b.inq), (8, qFree b.outq), (16, b2n b.bulkDev), (17, b2n b.asm.isSome)]
  | 0x004 => pack [(0, b.inAck.toNat), (8, b.outAck.toNat)]
  | 0x008 => pack [(4, (b.res[txCopy m]).toNat)]
  | _ =>
    match inArray o 0x040 4 16, inArray o 0x080 4 16, inArray o 0x1000 4 1024 with
    | some (i, _), _, _ => txWord b (txCopy m) i
    | _, some (i, _), _ => ((headFor s n (isCore m))[i]?).getD 0
    | _, _, some (k, _) => wordBE (bulkRead b (4 * k) 4) 0
    | _, _, _ => mbDevRead s m o

/-- Codes of FB_STATUS.STATE and FB_SNAP_STS.STATE. -/
def nodeCode : NodeSt → Nat
  | .off => 0
  | .discovering => 1
  | .settling => 2
  | .running => 3
  | .isolated => 4
def snapCode : SnapSt → Nat
  | .idle => 0
  | .recording => 1
  | .signing => 2
  | .sent => 3
  | .collecting => 4
  | .done => 5
  | .aborted => 6

/-- STATE of FB_FLUE: its reset value 0 until the lock, 7 for a flue that the locked structure leaves off (DEDUCED).
Log entry 12 (DEDUCED). -/
def flueState (locked : Bool) (x : FlueRt) : Nat := if x.st = .off ∧ !locked then 0 else flueCode x.st

/-- One flue's registers. -/
def flueRead (locked : Bool) (x : FlueRt) (r : Nat) : Word :=
  match r with
  | 0x0 => pack [(0, flueState locked x), (3, b2n x.laneSwap), (4, x.pol.toNat), (8, x.neigh.toNat), (13, b2n x.neighValid)]
  | 0x4 => pack [(0, x.errCrc.toNat), (8, x.errReplay.toNat), (16, x.errFail.toNat)]
  | 0x8 => half64 x.serial true
  | _ => half64 x.serial false

/-- FB_RT(d). -/
def routeWord (r : Route) : Word :=
  pack [(0, (r.up.map (fun (f : Flue) => f.val)).getD 0), (2, b2n r.up.isSome), (3, (r.dn.map (fun (f : Flue) => f.val)).getD 0),
    (5, b2n r.dn.isSome), (8, r.dist)]

/-- Registers of the FB window beyond its fixed offsets. -/
def fbArray (s : State) (o : Nat) : Word :=
  match inArray o 0x040 0x10 4, inArray o 0x100 4 32, inArray o 0x240 4 16, inArray o 0x280 4 16, inArray o 0x420 4 8 with
  | some (f, r), _, _, _, _ => flueRead s.ec.locked s.fb.flue[(Fin.ofNat 4 f)] r
  | _, some (d, _), _, _, _ => routeWord s.fb.rt[(Fin.ofNat 32 d)]
  | _, _, some (i, _), _, _ => s.fb.bcTx[(Fin.ofNat 16 i)]
  | _, _, _, some (i, _), _ => s.fb.bcRx[(Fin.ofNat 16 i)]
  | _, _, _, _, some (i, _) => digWord s.fb.snap.nonceReg i
  | _, _, _, _, _ => 0

/-- FB_STATUS. -/
def fbStatus (s : State) : Word :=
  let b := s.fb
  pack [(0, nodeCode b.st), (3, (b.node.map (fun (n : Fin 32) => n.val)).getD 0), (8, b2n b.node.isSome), (9, b2n b.dup),
    (10, b2n b.coord), (11, b.coordId), (16, b.diam), (21, b.level), (26, b.parent)]

/-- The FB window. -/
def fbRead (s : State) (o : Nat) : Word :=
  let b := s.fb
  match o with
  | 0x004 => fbStatus s
  | 0x008 => b.present
  | 0x00C => wd b.fgen.toNat
  | 0x010 => b.intSts
  | 0x014 => b.intEn
  | 0x018 => pack [(0, b.dropTransit), (16, b.dropBad)]
  | 0x01C => pack [(0, b.peerIn.toNat), (8, b.peerCode.toNat)]
  | 0x200 => pack [(1, b2n b.bcRej), (2, b2n b.bcLost), (3, b2n b.bcNew), (8, b.bcTag.toNat), (16, b.bcRxTag.toNat)]
  | 0x304 => pack [(0, b.bseq.toNat), (16, b2n b.barWait), (17, b2n b.barDone), (18, b2n b.barAborted), (19, b2n b.barRej)]
  | 0x404 => pack [(0, snapCode b.snap.st), (3, b2n b.snap.timedOut), (4, b2n b.snap.rej)]
  | 0x408 => b.snap.epoch
  | 0x440 => b.snap.buf
  | 0x444 => b.snap.present
  | 0x500 => s.tp.ao.rseq
  | 0x600 => b.rlyBuf
  | 0x604 => pack [(0, b.rxHead.toNat), (8, b.rxTail.toNat), (16, b.txHead.toNat), (24, b.txTail.toNat)]
  | 0x608 => pack [(0, b.serve.toNat), (8, b.rlyDrop.toNat)]
  | _ => fbArray s o

/-- Codes of WD_STS.STATE. -/
def wdCode : WdSt → Nat
  | .stopped => 0
  | .resetTiming => 1
  | .armed => 2
  | .expired => 3

/-- One watchdog's registers. -/
def wdOneRead (s : State) (w : Fin 5) (r : Nat) : Word :=
  let k := s.wd.w[w]
  match r with
  | 0x00 => k.lfsr
  | 0x08 => pack [(0, wdCode k.st), (2, b2n k.open_), (3, b2n (s.wd.susp.isSome && wdRuns k)), (4, b2n k.ext), (5, b2n k.weak),
      (6, b2n k.dup), (7, b2n k.foreign), (8, b2n k.suspStoke), (9, b2n k.armRej), (10, k.fault.toNat)]
  | 0x0C => k.win
  | 0x18 => wd (wdLeft s w)
  | _ => 0

/-- WD_TS_STS(s) and WD_TS_SEEN(s). -/
def tsSts (t : TsRt) : Word := pack [(0, b2n t.armed), (1, b2n t.foreign), (16, t.periods.toNat)]
def tsSeen (t : TsRt) : Word :=
  pack [(0, (bitMask (fun b => decide (b < 16) && decide (0 < (t.counts.toList[b]?).getD 0))).toNat), (16, t.double.toNat)]

/-- The WD window. -/
def wdRead (s : State) (o : Nat) : Word :=
  match o with
  | 0x100 => pack [(0, b2n s.wd.susp.isSome), (1, b2n (allWd.any (fun w => wdRuns s.wd.w[w] && (s.wd.w[w]).extPend))),
      (2, b2n s.wd.hardAt.isSome), (3, s.wd.eraseMax), (14, s.wd.extMs)]
  | 0x108 => s.wd.intSts
  | 0x10C => s.wd.intEn
  | 0x200 => bitMask (fun b => decide (b < 16) && (s.wd.ts[(Fin.ofNat 16 b)]).armed)
  | 0x400 => s.tp.ao.evCause
  | 0x440 => s.tp.ao.evTime
  | _ =>
    match inArray o 0x000 0x20 5, inArray o 0x240 4 16, inArray o 0x280 4 16, inArray o 0x410 4 4, inArray o 0x420 4 5 with
    | some (w, r), _, _, _, _ => wdOneRead s (Fin.ofNat 5 w) r
    | _, some (i, _), _, _, _ => tsSts s.wd.ts[(Fin.ofNat 16 i)]
    | _, _, some (i, _), _, _ => tsSeen s.wd.ts[(Fin.ofNat 16 i)]
    | _, _, _, some (c, _), _ => s.tp.ao.evPc[(Fin.ofNat 4 c)]
    | _, _, _, _, some (w, _) => s.tp.ao.evSvc[(Fin.ofNat 5 w)]
    | _, _, _, _, _ => 0

/-- PR_STATUS; a device without a pair shows 0. -/
def prStatus (s : State) : Word :=
  let p := s.pr
  if p.fitted then
    pack [(0, p.role.toNat), (2, p.step.toNat), (4, b2n p.ord), (5, b2n (preferred s)), (6, b2n p.ordConflict),
      (7, b2n (linkUp p.link)), (8, b2n (leaseHeld s)), (9, b2n p.partnerLost), (10, cleanTime s)]
  else 0

/-- The PR window. -/
def prRead (s : State) (o : Nat) : Word :=
  let p := s.pr
  match o with
  | 0x000 => prStatus s
  | 0x008 => wd p.diag.toNat
  | 0x00C => p.intSts
  | 0x010 => p.intEn
  | 0x014 => pack [(0, p.cntHand.toNat), (8, p.cntExp.toNat), (16, p.cntMis.toNat)]
  | 0x018 => p.dup
  | 0x020 => pack [(2, b2n p.full), (3, b2n p.rx.isSome)]
  | _ =>
    match inArray o 0x040 4 16, inArray o 0x080 4 16 with
    | some (i, _), _ => p.tx[(Fin.ofNat 16 i)]
    | _, some (i, _) => ((p.rx.getD [])[i]?).getD 0
    | _, _ => 0

/-- TP_SRC(s). -/
def tpSrcWord (x : TpSrc) : Word := pack [(0, x.n), (8, x.resp.toNat), (12, x.sens.toNat), (14, b2n x.en), (16, x.w)]

/-- TP_ACTIVE: bit s, source s is active. -/
def tpActiveWord (s : State) : Word :=
  pack ((List.finRange 8).map (fun i => (i.val, b2n (s.tp.ao.src[i]).active)))

/-- TP_THERM. -/
def tpTherm (s : State) : Word :=
  pack [(0, s.tp.ao.alarms % 65536), (16, tamperCount s), (26, min s.tp.ao.pend 31), (31, b2n s.tp.ao.sat)]

/-- The TP window. -/
def tpRead (s : State) (o : Nat) : Word :=
  let a := s.tp.ao
  match o with
  | 0x000 => pack [(0, b2n a.lost), (1, b2n a.cfgImage), (2, b2n a.ashed)]
  | 0x004 => tpActiveWord s
  | 0x008 => s.tp.intSts
  | 0x00C => s.tp.intEn
  | 0x010 => pack [(0, b2n a.held), (2, b2n a.rej)]
  | 0x014 => pack [(0, a.deferResp.toNat), (4, a.deferSrc.toNat)]
  | 0x020 => (rtcNow s).extractLsb' 0 32
  | 0x024 => wd a.rtcHi.toNat
  | 0x028 => s.tp.rtcSet.extractLsb' 0 32
  | 0x02C => wd (s.tp.rtcSet.toNat / 2 ^ 32)
  | 0x030 => tpTherm s
  | 0x040 => wd a.head
  | 0x044 => wd a.tail
  | 0x060 => half64 s.tp.ld false
  | 0x064 => half64 s.tp.ld true
  | _ =>
    match inArray o 0x050 4 4, inArray o 0x100 0x10 8, inArray o 0x2000 4 2048 with
    | some (i, _), _, _ => recWord s.tp.chainReg i
    | _, some (i, 0), _ => tpSrcWord a.src[(Fin.ofNat 8 i)]
    | _, _, some (k, _) => wordBE (memRead 0 a.sram (4 * k) 4) 0
    | _, _, _ => 0

/-- The CH and GR windows as a master reads them (R68-R70). -/
def chGrRead (s : State) (m : Master) (w o : Nat) : Word :=
  if perCh w o then perChRead s w (readCh s m) o
  else if w = 1 then chSelWord (selOf s m) else logRead s.grLog o

/-- A register at an offset of a window: 0 where there is none (R11). -/
def winRead (s : State) (m : Master) (w o : Nat) : Word :=
  match w with
  | 0 => gcRead s m o
  | 1 => chGrRead s m 1 o
  | 2 => chGrRead s m 2 o
  | 3 => veRead s m o
  | 4 => ecRead s m o
  | 5 => stRead s o
  | 6 => btRead s o
  | 7 => inRead s m o
  | 8 => heRead s o
  | 9 => sqRead s o
  | 10 => pdRead s m o
  | 11 => kvRead s m o
  | 12 => lcRead s o
  | 13 => mbRead s m o
  | 14 => fbRead s o
  | 15 => wdRead s o
  | 16 => prRead s o
  | _ => tpRead s o

/-- A master may read a register: the window's permission, and in MB an instance of its own transport (R347). -/
def readOk (s : State) (m : Master) (w o : Nat) : Bool :=
  mayRead s m w &&
    (match m with
     | .core _ => true
     | .ext _ => decide (w ≠ 13) || (decide (0x800 ≤ o) && decide (o < 0x1000)) || ownsInst s m (selOf s m).inst)

/-- What a register's value comes from, where there are several: the portal copy of GC_PORTAL_STS, or the channel. -/
def readTarget (s : State) (m : Master) (w o : Nat) : Nat :=
  if w = 0 then (portalCopy s m).val else if perCh w o then (readCh s m).val else 0

/-- A register read as 32 bits, naturally aligned; past a window's last register it reads 0 here (R494).
Log entry 12 (DEDUCED). -/
def regRead (s : State) (m : Master) (a : Nat) : Word :=
  match windowOf a with
  | some (w, o) => if o ≤ lastOfs w then winRead s m w o else 0
  | none => 0

/-- A read of a register as it stands at the moment its value is captured (R67, R70). -/
def readFxOf (s : State) (m : Master) (a : Nat) : ReadFx :=
  match windowOf a with
  | some (w, o) => ⟨a, regRead s m a, readTarget s m w o, perCh w o && (selOf s m).bcast && bcastDiffers s m w o⟩
  | none => ⟨a, 0, 0, false⟩

end Sys2Proof.Machine
end

