-- ==== Sys2Proof/Machine/RegionUnit.lean ====
section
/-! DEFINITION. The region unit (R242-R246), the physical map of Table 8.2 with R240, and the state of job-DMA commands
(R248, R255). -/

namespace Sys2Proof.Machine

/-- The kinds of access the region unit and the map tell apart (R244). -/
inductive MemKind where
  | fetch | load | store
deriving DecidableEq, Repr

/-- A fault of an access: CODE of HE_RU_FSTAT, and whether and at which level it arose in a table walk. -/
structure MemFault where
  code : Nat
  walk : Bool
  level : Nat
deriving DecidableEq, Repr

/-- A fault outside a walk. -/
def plainFault (code : Nat) : MemFault := ⟨code, false, 0⟩

/-- The rows of Table 8.2. -/
inductive MapRow where
  | rom | ownTcm | tcm | shared | regs | ownStore | otp
deriving DecidableEq, Repr

/-- The row a physical address lies in. -/
def rowOf (a : Nat) : Option MapRow :=
  if a < 0x80000 then some .rom
  else if tcmOwn ≤ a ∧ a < tcmOwn + tcmSize then some .ownTcm
  else if tcmBase ≤ a ∧ a < tcmBase + 4 * tcmSize then some .tcm
  else if sharedBase ≤ a ∧ a < sharedBase + sharedSize then some .shared
  else if 0x40000000 ≤ a ∧ a < 0x41000000 then some .regs
  else if 0x50000000 ≤ a ∧ a < 0x60000000 then some .ownStore
  else if 0x60000000 ≤ a ∧ a < 0x60001000 then some .otp
  else none

/-- A register-space address names a window (R493); KV is closed where `kv` is false (R240). -/
def regsReach (a : Nat) (kv : Bool) : Bool :=
  match windowOf (a - 0x40000000) with
  | some (w, _) => kv || decide (w ≠ 11)
  | none => false

/-- What a core may do at a physical address (Table 8.2, R239, R240): `user` is the mode the access is made in. Register
accesses are words only (R5). -/
def coreMay (user : Bool) (k : MemKind) (a n : Nat) : Bool :=
  match rowOf a with
  | some .rom => decide (k ≠ .store)
  | some .ownTcm | some .tcm | some .shared => true
  | some .regs => decide (k ≠ .fetch) && decide (n = 4) && regsReach a (!user)
  | some .ownStore | some .otp => decide (k = .load)
  | none => false

/-- What job DMA may do at a physical address. -/
def dmaMay (k : MemKind) (a n : Nat) : Bool :=
  match rowOf a with
  | some .rom | some .ownStore => decide (k = .load)
  | some .tcm | some .shared => true
  | some .regs => decide (n % 4 = 0) && regsReach a false
  | _ => false

/-- An entry of a region-unit table as the walk reads it: ACCESS outside hearth RAM by its 0x1100_0000 and 0x2000_0000
addresses, WALK_PARITY where a byte of it is in error (R243, R244).
Log entry 35 (DEDUCED). -/
def walkRead (s : State) (a level : Nat) : Except MemFault Word :=
  if !inRam a 4 then .error ⟨5, true, level⟩
  else if ramBad s a 4 then .error ⟨3, true, level⟩
  else .ok (BitVec.ofNat 32 (leNat (ramRead s a 4)))

/-- Walk the two levels for a virtual page (R243, R244).
Log entry 35 (DEDUCED). -/
def walk (s : State) (root : Word) (vpn : Nat) : Except MemFault TlbEnt :=
  match walkRead s (4096 * bf root 12 20 + 4 * (vpn / 1024)) 0 with
  | .error f => .error f
  | .ok e1 =>
    if bf e1 0 12 ≠ 1 then .error ⟨1, true, 0⟩
    else match walkRead s (4096 * bf e1 12 20 + 4 * (vpn % 1024)) 1 with
      | .error f => .error f
      | .ok e2 =>
        if !e2.getLsbD 0 || decide (bf e2 4 8 ≠ 0) || (e2.getLsbD 2 && !e2.getLsbD 1) then .error ⟨1, true, 1⟩
        else .ok ⟨vpn, bf e2 12 20, e2.getLsbD 1, e2.getLsbD 2, e2.getLsbD 3⟩

/-- Change one requester's translation cache. -/
def modTlb (s : State) (r : Fin 20) (f : List TlbEnt → List TlbEnt) : State :=
  { s with he := { s.he with tlb := s.he.tlb.set r (f s.he.tlb[r]) } }

/-- The entry for a page: from the cache, or by a walk that fills it, least recently used out of 64 (R245). -/
def pageEntry (s : State) (r : Fin 20) (vpn : Nat) : Except MemFault TlbEnt × State :=
  let put := fun (e : TlbEnt) => modTlb s r (fun l => (e :: l.filter (fun x => x.vpn ≠ vpn)).take 64)
  match (s.he.tlb[r]).find? (fun e => e.vpn = vpn) with
  | some e => (.ok e, put e)
  | none =>
    match walk s s.he.root[r] vpn with
    | .error f => (.error f, s)
    | .ok e => (.ok e, put e)

/-- The entry's permissions admit an access (R244). -/
def entryMay (e : TlbEnt) : MemKind → Bool
  | .fetch => e.x
  | .load => e.r
  | .store => e.r && e.w

/-- Translate a virtual address of a requester through its root (R242-R245).
Log entry 35 (DEDUCED). -/
def translate (s : State) (r : Fin 20) (k : MemKind) (va : Nat) : Except MemFault Nat × State :=
  match pageEntry s r (va / 4096) with
  | (.error f, s) => (.error f, s)
  | (.ok e, s) => if entryMay e k then (.ok (4096 * e.ppn + va % 4096), s) else (.error (plainFault 2), s)

/-- Requester number of a core, and of a job-DMA channel. -/
def coreReq (c : Core) : Fin 20 := ⟨c.val, by omega⟩
def dmaReq (k : Fin 16) : Fin 20 := ⟨k.val + 4, by omega⟩

/-- Where a core's access goes: untranslated in machine mode, always through the root in user mode (R242); then the map
decides (R244). -/
def coreTranslate (s : State) (c : Core) (user : Bool) (k : MemKind) (va n : Nat) : Except MemFault Nat × State :=
  let (p, s) := if !user then (.ok va, s)
    else if !(s.he.root[coreReq c]).getLsbD 0 then (.error (plainFault 1), s)
    else translate s (coreReq c) k va
  match p with
  | .error f => (.error f, s)
  | .ok pa => if coreMay user k pa n then (.ok pa, s) else (.error (plainFault 5), s)

/-- Where a job-DMA channel's access goes: translated where its root has EN (R242). -/
def dmaTranslate (s : State) (c : Fin 16) (k : MemKind) (va n : Nat) : Except MemFault Nat × State :=
  let (p, s) := if (s.he.root[dmaReq c]).getLsbD 0 then translate s (dmaReq c) k va else (.ok va, s)
  match p with
  | .error f => (.error f, s)
  | .ok pa => if dmaMay k pa n then (.ok pa, s) else (.error (plainFault 5), s)

/-- HE_RU_INV written (R246): a write naming a requester 20-31 has no effect. -/
def ruInvalidate (s : State) (v : Word) : State :=
  if h : bf v 0 5 < 20 then
    modTlb s ⟨bf v 0 5, h⟩ (fun l => if v.getLsbD 5 then [] else l.filter (fun e => e.vpn ≠ bf v 12 20))
  else s

/-- HE_RU_ROOT(r) written: every entry of the requester is invalidated; refused for a job-DMA channel that is neither IDLE
nor FAULTED (R246). -/
def ruRootWrite (s : State) (r : Fin 20) (v : Word) : State :=
  let set := { modTlb s r (fun _ => []) with he := { (modTlb s r (fun _ => [])).he with root := s.he.root.set r (v &&& 0xFFFFF001#32) } }
  if h : 4 ≤ r.val then
    let k : Fin 16 := ⟨r.val - 4, by omega⟩
    let st := (s.he.dma[k]).st
    if st = .idle ∨ st = .faulted then set else modDma s k (fun d => { d with cmdRej := true })
  else set

/-! Commands of a job-DMA channel. -/

/-- A command is refused. -/
def dmaReject (s : State) (k : Fin 16) : State := modDma s k (fun d => { d with cmdRej := true })

/-- A core's write of HE_DMA_CTL: of several cores' in one cycle the first is taken, and every other refused (R257).
Log entry 2 (DESIGN CHOICE). -/
def dmaTake (s : State) (m : Master) (k : Fin 16) (f : State → State) : State :=
  if takenNow (s.he.dma[k]).ctlBy s.clk.now m then dmaReject s k
  else f (modDma s k (fun d => { d with ctlBy := some (s.clk.now, m) }))

/-- The class HE_DMA_CFG.CLASS names. -/
def dmaClass (d : DmaCh) : BilletClass :=
  match d.cls.toNat with
  | 1 => .ver
  | 2 => .fill
  | _ => .bg

/-- GO (R248): refused outside IDLE, with CLASS 0, or with an OWNER that names nothing; BUSY where no billet can be
drawn. -/
def dmaGo (s : State) (k : Fin 16) : State :=
  let d := s.he.dma[k]
  match kvOwner d.owner with
  | none => dmaReject s k
  | some o =>
    if d.st ≠ .idle ∨ d.cls = 0 then dmaReject s k
    else match draw (dmaClass d) o none false (.dma k) s with
      | (none, s) => modDma s k (fun d => { d with busy := true })
      | (some id, s) =>
        let s := modDma s k (fun d => { d with
          st := .waiting, ended := 0, billet := some id, held := none, frame := none, progress := 0, leftAt := s.clk.now
          aged := false })
        dmaGrant 4 (dmaBillet s k .waiting)

/-- ABORT in any state other than IDLE squashes the job: END = ABORTED, beats already written stand (R255). -/
def dmaAbort (s : State) (k : Fin 16) : State :=
  let d := s.he.dma[k]
  if d.st = .idle then dmaReject s k
  else
    let s := match d.billet with | some id => squashAll s [id] | none => s
    dmaGrant 4 (modDma s k (fun d => { d with st := .idle, ended := 2, billet := none, held := none, frame := none, progress := 0, aged := false }))

/-- RESUME moves a FAULTED channel to WAITING; with PROGRESS 0 the descriptor is read again (R255). -/
def dmaResume (s : State) (k : Fin 16) : State :=
  let d := s.he.dma[k]
  if d.st ≠ .faulted then dmaReject s k
  else
    let s := modDma s k (fun d => { d with st := .waiting, held := if d.progress = 0 then none else d.held, leftAt := s.clk.now })
    dmaGrant 4 s

/-- HE_DMA_CTL written: GO, ABORT and RESUME in ascending bit order, each judged against the state the bits below have left (R499). -/
def dmaCtl (s : State) (k : Fin 16) (v : Word) : State :=
  let s := if v.getLsbD 0 then dmaGo s k else s
  let s := if v.getLsbD 1 then dmaAbort s k else s
  if v.getLsbD 2 then dmaResume s k else s

end Sys2Proof.Machine
end

