-- ==== Sys2Proof/Machine/RegWrite.lean ====
section
/-! DEFINITION. Writing the management address space (R5, R6, R8-R10, R497-R499), window by window, and the side effects
of reads (R7, R67, R70, R500). Permission, and which registers Table 18.10 closes to external masters, is judged here. -/

namespace Sys2Proof.Machine

/-! Side effects of reads. -/

/-- An RC count is reduced by the value a read returned (R500), and by no more than it holds.
Log entry 61 (DEDUCED). -/
def rcSub {n : Nat} (x : BitVec n) (v : Word) (lo : Nat) : BitVec n := BitVec.ofNat n (x.toNat - bf v lo n)

/-- An RC extreme restarts at `r`, unless it has changed since the value `v` was captured: then it holds a newer extreme, and
keeps it (R500).
Log entry 61 (DEDUCED). -/
def rcExt (x v r : Nat) : Nat := if x = v then r else x

/-- GC_PORTAL_STS read: FRAME_ERR of the copy shown. -/
def gcReadFx (s : State) (o : Nat) (e : ReadFx) : State :=
  if o = 0x100 then modPortal s (Fin.ofNat 6 e.target) (fun p => { p with frameErr := p.frameErr - bf e.val 0 8 }) else s

/-- CH_EVENTS, and the log's LOST: a channel register's effect falls on the channel whose value was returned, and MISMATCH
tells what the read found (R70). -/
def chReadFx (s : State) (m : Master) (w o : Nat) (e : ReadFx) : State :=
  let s := if e.differs then modSel s m (fun x => { x with mismatch := true }) else s
  let v := e.val
  if w = 1 ∧ o = 0x00C then
    modCh s (Fin.ofNat 32 e.target) (fun k => { k with
      evTrunc := rcSub k.evTrunc v 0, evWdrop := rcSub k.evWdrop v 8, evUnkop := rcSub k.evUnkop v 16, evOvspd := rcSub k.evOvspd v 24 })
  else if w = 2 ∧ o = 0x820 then { s with grLog := { s.grLog with lost := s.grLog.lost - bf v 0 16 } }
  else s

/-- VE_CH_PROV.MAXWIN restarts at 0; VE_CH_STAT and EVLOG_LOST are reduced. -/
def veReadFx (s : State) (o : Nat) (v : Word) : State :=
  if o = 0x820 then { s with ve := { s.ve with log := { s.ve.log with lost := s.ve.log.lost - bf v 0 16 } } }
  else match inArray o 0x100 8 32 with
    | some (n, 0) => modCh s (Fin.ofNat 32 n) (fun k => { k with maxWin := rcExt k.maxWin (bf v 8 16) 0 })
    | some (n, 4) => modCh s (Fin.ofNat 32 n) (fun k => { k with
        statSi := k.statSi - bf v 0 16, statClk := k.statClk - bf v 16 8, statAbn := k.statAbn - bf v 24 8 })
    | _ => s

/-- EC counts. -/
def ecReadFx (s : State) (o : Nat) (v : Word) : State :=
  match o with
  | 0x018 => { s with ec := { s.ec with parity := s.ec.parity - bf v 0 16 } }
  | 0x820 => { s with ec := { s.ec with log := { s.ec.log with lost := s.ec.log.lost - bf v 0 16 } } }
  | _ => s

/-- BT extremes: LOW takes the present F, PEAK the present INUSE, waits restart at 0 (R500). -/
def btReadFx (s : State) (o : Nat) (v : Word) : State :=
  let b := s.bt
  match o with
  | 0x000 => { s with bt := { b with low := rcExt b.low (bf v 16 13) (poolF s) } }
  | 0x010 => { s with bt := { b with peakHs := rcExt b.peakHs (bf v 16 13) (useOf s .hs) } }
  | 0x014 => { s with bt := { b with peakVer := rcExt b.peakVer (bf v 16 13) (useOf s .ver) } }
  | 0x018 => { s with bt := { b with peakFill := rcExt b.peakFill (bf v 16 13) (useOf s .fill) } }
  | 0x01C => { s with bt := { b with peakBg := rcExt b.peakBg (bf v 16 13) (useOf s .bg) } }
  | 0x020 => { s with bt := { b with maxWaitBg := rcExt b.maxWaitBg (bf v 0 32) 0 } }
  | 0x024 => { s with bt := { b with maxWaitDem := rcExt b.maxWaitDem (bf v 0 16) 0 } }
  | 0x030 => { s with bt := { b with parity := b.parity - bf v 0 16 } }
  | _ => s

/-- MB counts, locks (R345) and snapshots (R356). -/
def mbReadFx (s : State) (m : Master) (o : Nat) (v : Word) : State :=
  if o = 0x818 then { s with mb := { s.mb with mctpDrop := s.mb.mctpDrop - bf v 0 16 } }
  else if o = 0x884 then tallySnap s m
  else match inArray o 0x840 4 16 with
    | some (k, _) => lockRead s m (Fin.ofNat 16 k)
    | none => s

/-- FB counts. -/
def fbReadFx (s : State) (o : Nat) (v : Word) : State :=
  if o = 0x018 then { s with fb := { s.fb with dropTransit := s.fb.dropTransit - bf v 0 16, dropBad := s.fb.dropBad - bf v 16 16 } }
  else if o = 0x608 then { s with fb := { s.fb with rlyDrop := rcSub s.fb.rlyDrop v 8 } }
  else match inArray o 0x040 0x10 4 with
    | some (f, 4) => modFlue s (Fin.ofNat 4 f) (fun x => { x with
        errCrc := rcSub x.errCrc v 0, errReplay := rcSub x.errReplay v 8, errFail := rcSub x.errFail v 16 })
    | _ => s

/-- PR counts. -/
def prReadFx (s : State) (o : Nat) (v : Word) : State :=
  match o with
  | 0x014 => { s with pr := { s.pr with cntHand := rcSub s.pr.cntHand v 0, cntExp := rcSub s.pr.cntExp v 8, cntMis := rcSub s.pr.cntMis v 16 } }
  | 0x018 => { s with pr := { s.pr with dup := rcSub s.pr.dup v 0 } }
  | _ => s

/-- The side effects of a read on the register's fields (R500). -/
def winReadFx (s : State) (m : Master) (w o : Nat) (e : ReadFx) : State :=
  match w with
  | 0 => gcReadFx s o e
  | 1 => chReadFx s m 1 o e
  | 2 => chReadFx s m 2 o e
  | 3 => veReadFx s o e.val
  | 4 => ecReadFx s o e.val
  | 6 => btReadFx s o e.val
  | 9 => if o = 0x0B0 then { s with sq := { s.sq with log := { s.sq.log with lost := s.sq.log.lost - bf e.val 0 16 } } } else s
  | 13 => mbReadFx s m o e.val
  | 14 => fbReadFx s o e.val
  | 16 => prReadFx s o e.val
  | 17 => if o = 0x020 then rtcLatch s m else s
  | _ => s

/-- The counts of a register that a read reduces: lowest bit and width of each. -/
def rcCounts (w o : Nat) : List (Nat × Nat) :=
  match w with
  | 0 => if o = 0x100 then [(0, 8)] else []
  | 1 => if o = 0x00C then [(0, 8), (8, 8), (16, 8), (24, 8)] else []
  | 2 => if o = 0x820 then [(0, 16)] else []
  | 3 => if o = 0x820 then [(0, 16)] else if decide (0x100 ≤ o) && decide (o < 0x200) && o % 8 == 4 then [(0, 16), (16, 8), (24, 8)] else []
  | 4 => if o = 0x018 ∨ o = 0x820 then [(0, 16)] else []
  | 6 => if o = 0x030 then [(0, 16)] else []
  | 9 => if o = 0x0B0 then [(0, 16)] else []
  | 13 => if o = 0x818 then [(0, 16)] else []
  | 14 =>
    if o = 0x018 then [(0, 16), (16, 16)]
    else if o = 0x608 then [(8, 8)]
    else if decide (0x040 ≤ o) && decide (o < 0x080) && o % 16 == 4 then [(0, 8), (8, 8), (16, 8)] else []
  | 16 => if o = 0x014 then [(0, 8), (8, 8), (16, 16)] else if o = 0x018 then [(0, 32)] else []
  | _ => []

/-- The extreme of a register that a read restarts: lowest bit and width.
Log entry 61 (DEDUCED). -/
def rcExtreme (w o : Nat) : Option (Nat × Nat) :=
  match w with
  | 3 => if decide (0x100 ≤ o) && decide (o < 0x200) && o % 8 == 0 then some (8, 16) else none
  | 6 =>
    if o ∈ [0x000, 0x010, 0x014, 0x018, 0x01C] then some (16, 13)
    else if o = 0x020 then some (0, 32)
    else if o = 0x024 then some (0, 16) else none
  | _ => none

/-- What is left to take off for a captured value, once a second reader of the same count has taken `v` off (R67, R500). -/
def rcLeft (fs : List (Nat × Nat)) (x v : Word) : Word := pack (fs.map (fun f => (f.1, bf x f.1 f.2 - bf v f.1 f.2)))

/-- Events counted after a value was captured stay counted (R500): the captures of the same counts that still wait for their
I3C reply owe that much less, and a capture of the extreme that this read has restarted restarts nothing more.
Log entry 61 (DEDUCED). -/
def rcShare (s : State) (w o : Nat) (e : ReadFx) : State :=
  let fs := rcCounts w o
  let same := fun (x : ReadFx) => decide (x.addr = e.addr ∧ x.target = e.target)
  match rcExtreme w o with
  | some (lo, n) => { s with mb := { s.mb with i3c := s.mb.i3c.map (fun i => { i with
      fx := i.fx.filter (fun x => !(same x && decide (bf x.val lo n = bf e.val lo n))) }) } }
  | none =>
    if fs.isEmpty then s
    else { s with mb := { s.mb with i3c := s.mb.i3c.map (fun i => { i with
      fx := i.fx.map (fun x => if same x then { x with val := rcLeft fs x.val e.val } else x) }) } }

/-- The side effects of a read (R500). -/
def regReadFx (s : State) (m : Master) (e : ReadFx) : State :=
  match windowOf e.addr with
  | some (w, o) => if o ≤ lastOfs w then rcShare (winReadFx s m w o e) w o e else s
  | none => s

/-- A read command at an address: word-aligned and permitted, it has its side effects (R5, R64, R500). -/
def readAt (s : State) (m : Master) (a : Nat) : State :=
  match windowOf a with
  | some (w, o) => if a % 4 = 0 ∧ readOk s m w o then regReadFx s m (readFxOf s m a) else s
  | none => s

/-! Writes. -/

/-- A write that Table 18.10 does not close (`closed` false), or closes to external masters. -/
def wr (s : State) (m : Master) (w : Nat) (closed : Bool) (f : State → State) : State := if mayWrite s m w closed then f s else s

/-- A selector: a master may write its own copy with either permission on a window it serves (R498). -/
def selWr (s : State) (m : Master) (ws : List Nat) (f : Sel → Sel) : State :=
  if ws.any (fun w => mayRead s m w || mayWrite s m w false) then modSel s m f else s

/-- Do something where a bit of the written word is 1. -/
def onBit (v : Word) (i : Nat) (f : State → State) (s : State) : State := if v.getLsbD i then f s else s

/-- Do something for each bit 0-31 of the written word that is 1, ascending. -/
def eachBit (v : Word) (f : State → Fin 32 → State) (s : State) : State :=
  (List.finRange 32).foldl (fun s i => if v.getLsbD i.val then f s i else s) s

/-- A flag that a 1 in bit `i` clears. -/
def w1c (x : Bool) (v : Word) (i : Nat) : Bool := x && !v.getLsbD i

/-- Bits of an enable register. -/
def lowBits (v : Word) (n : Nat) : Word := v &&& BitVec.ofNat 32 (2 ^ n - 1)

/-- Replace half `hi` of a 64-bit register. -/
def setHalf64 (x : BitVec 64) (hi : Bool) (v : Word) : BitVec 64 :=
  if hi then v ++ x.extractLsb' 0 32 else x.extractLsb' 32 32 ++ v

/-- The GC window. GC_PORTAL_STS clears bits of the writer's own copy, or of the copy a core's view shows. -/
def gcWrite (s : State) (m : Master) (o : Nat) (v : Word) : State :=
  match o with
  | 0x100 => wr s m 0 false fun s => modPortal s (portalCopy s m) (fun p => { p with
      overrun := w1c p.overrun v 8, accessErr := w1c p.accessErr v 9, lenErr := w1c p.lenErr v 10, busyTmo := w1c p.busyTmo v 11 })
  | 0x104 => wr s m 0 true fun s => { s with gc := { s.gc with view := BitVec.ofNat 3 (bf v 0 3) } }
  | 0x200 => wr s m 0 true fun s =>
      let s := { s with os := { s.os with ctlOp := BitVec.ofNat 2 (bf v 0 2), ctlLen := BitVec.ofNat 9 (bf v 8 9), done := w1c s.os.done v 4 } }
      if v.getLsbD 2 ∧ bf v 0 2 ≠ 0 then osGo s m (bf v 0 2) else s
  | 0x204 => wr s m 0 true fun s => { s with os := { s.os with addr := BitVec.ofNat 28 (bf v 0 28) } }
  | 0x208 => wr s m 0 true fun s => { s with os := { s.os with src := v } }
  | _ => s

/-- CH_RAW_CTL.ABORT written by a register write: how far the transfer had come, and what it captured, is not the device's to
know, and stands free.
Log entry 13 (DEDUCED). -/
def rawAbortFree (s : State) (c : Ch) : State :=
  let r := s.ch[c].raw
  let n := (Config.freeWord s.clk.free).toNat % (r.edges + 1)
  let bits := (List.range 4096).map (fun i => (Config.freeByte (s.clk.free + 1 + i)).getLsbD 0)
  if r.busy then useFree (rawAbortAt s c n bits) 4097 else rawAbortAt s c 0 []

/-- CH_RAW_CTL on one channel: the fields, then START and ABORT (R60-R62, R499). -/
def rawCtlAt (v : Word) (s : State) (c : Ch) : State :=
  let s := modRaw s c (fun r => { r with
    done := w1c r.done v 3, err := w1c r.err v 4, lanes := BitVec.ofNat 2 (bf v 5 2), ddr := v.getLsbD 7, cs := v.getLsbD 8
    holdCs := v.getLsbD 9 })
  let s := if v.getLsbD 10 ≠ s.ch[c].raw.ownReq then ownReqAt s c (v.getLsbD 10) else s
  let s := onBit v 0 (fun s => rawStartAt s c) s
  onBit v 1 (fun s => rawAbortFree s c) s

/-- A CH register on one channel. -/
def chWriteAt (o : Nat) (v : Word) (s : State) (c : Ch) : State :=
  match o with
  | 0x020 => rawCtlAt v s c
  | 0x024 => modRaw s c (fun r => { r with len := BitVec.ofNat 12 (bf v 0 12), out := BitVec.ofNat 13 (bf v 16 13) })
  | _ =>
    if h : 0x200 ≤ o ∧ (o - 0x200) / 4 < 128 then
      modRaw s c (fun r => { r with buf := r.buf.set ((o - 0x200) / 4) v })
    else s

/-- The CH window: CH_SEL, or a register of every channel the write reaches (R69). -/
def chWrite (s : State) (m : Master) (o : Nat) (v : Word) : State :=
  if o = 0 then
    selWr s m [1, 2] (fun x => { x with ch := Fin.ofNat 32 (bf v 0 5), bcast := v.getLsbD 8, mismatch := w1c x.mismatch v 9 })
  else wr s m 1 false fun s => (chTargets s m).foldl (chWriteAt o v) s

/-- The index register of a log ring. -/
def setRdidx (r : LogRing) (v : Word) (n : Nat) : LogRing := { r with rdidx := v.toNat % n }

/-- The GR window: device-wide registers ignore CH_SEL. -/
def grWrite (s : State) (m : Master) (o : Nat) (v : Word) : State :=
  let each := fun (f : State → Ch → State) (s : State) => (chTargets s m).foldl f s
  match o with
  | 0x004 => wr s m 2 false (each fun s c => modCh s c (fun k => { k with adjRej := w1c k.adjRej v 1 }))
  | 0x008 => wr s m 2 true (each fun s c => onBit v 0 (fun s => escRelease s c) s)
  | 0x00C => wr s m 2 true (each fun s c => substClearAt s c false v)
  | 0x010 => wr s m 2 true (each fun s c => substClearAt s c true v)
  | 0x808 => wr s m 2 false fun s => { s with grLog := setRdidx s.grLog v 2048 }
  | _ =>
    match inArray o 0x400 16 64 with
    | some (i, 8) => wr s m 2 false (each fun s c => rgnActAt s c (Fin.ofNat 64 i) v)
    | _ => s

/-- The binding a master's VE_BIND_SEL selects. -/
def selBinding (s : State) (m : Master) : Option Binding := bindingOf s (selOf s m).bind.toNat

/-- VE_BIND_CTL.STAGE_CHECK and CLIST_CLEAR on the selected binding (R128, R129). -/
def bindStageCheck (s : State) (m : Master) : State :=
  match selBinding s m with
  | some b => stageCheck s b
  | none => s
def bindClistClear (s : State) (m : Master) : State :=
  match selBinding s m with
  | some b => settleAll (clistDrop s (fun e => e.bind = b.bind))
  | none => s

/-- VE_BIND_FLOOR: raise-only (R105).
Log entry 13 (DEDUCED). -/
def bindFloorWrite (s : State) (m : Master) (v : Word) : State :=
  let b := (selOf s m).bind.toNat
  if b = 0xFF ∨ v.toNat ≤ ((aget s.ve.floors b).getD 0).toNat then s
  else { s with ve := { s.ve with floors := aput s.ve.floors b v } }

/-- VE_CLK_HOLD: each bit written 1 (R127). -/
def clkHoldWrite (s : State) (v : Word) : State := settleAll (eachBit v (fun s i => clkHoldClear s i) s)

/-- The VE window. -/
def veWrite (s : State) (m : Master) (o : Nat) (v : Word) : State :=
  match o with
  | 0x000 => wr s m 3 false fun s => { s with ve := { s.ve with scrubEn := v.getLsbD 0 } }
  | 0x008 => wr s m 3 false fun s => { s with ve := { s.ve with intSts := s.ve.intSts &&& ~~~v } }
  | 0x00C => wr s m 3 false fun s => { s with ve := { s.ve with intEn := lowBits v 8 } }
  | 0x018 => wr s m 3 true fun s => clkHoldWrite s v
  | 0x040 => selWr s m [3] (fun x => { x with bind := BitVec.ofNat 8 (bf v 0 8), bank := BitVec.ofNat 2 (bf v 8 2) })
  | 0x04C => wr s m 3 false fun s => bindFloorWrite s m v
  | 0x050 => wr s m 3 false fun s => onBit v 1 (fun s => bindClistClear s m) (onBit v 0 (fun s => bindStageCheck s m) s)
  | 0x808 => wr s m 3 false fun s => { s with ve := { s.ve with log := setRdidx s.ve.log v 512 } }
  | _ => s

/-- Change the run-time record of the selected bank set. -/
def onBset (s : State) (m : Master) (f : State → Ch → Fin 15 → State) : State :=
  match selBset s m with
  | some (c, i, _) => f s c i
  | none => s

/-- EC_BSET_CTL.FLIP_REQ: accepted where every binding's inactive bank is ARMED, and applied at once where the host is held
(R152, R153).
Log entry 20 (DEDUCED, DESIGN CHOICE). -/
def flipReq (s : State) (m : Master) : State :=
  onBset s m fun s c i =>
    if flipOk s c i then
      let s := setBset s c i (fun r => { r with flipPend := true })
      settle (if hostHeld s c then applyFlip s c i else s) c
    else setBset s c i (fun r => { r with reqRej := true })

/-- FLIP_CANCEL. -/
def flipCancel (s : State) (m : Master) : State := onBset s m fun s c i => setBset s c i (fun r => { r with flipPend := false })

/-- GOLD_CLEAR: refused while the channel has a clinker hold; applied at once where the host is held (R154).
Log entry 13 (DEDUCED). -/
def goldClear (s : State) (m : Master) : State :=
  onBset s m fun s c i =>
    if s.ve.clkHold.getLsbD c.val then setBset s c i (fun r => { r with reqRej := true })
    else
      let s := setBset s c i (fun r => { r with gclrPend := true })
      settle (if hostHeld s c then applyGclr (applyFlip s c i) c i else s) c

/-- STAGE_LOCK_SET and STAGE_LOCK_CLR (R156). -/
def stageLock (s : State) (m : Master) (v : Bool) : State := onBset s m fun s c i => setBset s c i (fun r => { r with stageLock := v })

/-- EC_FLIP_HOLD: bits written 1 clear (R153). -/
def flipHoldWrite (s : State) (v : Word) : State := settleAll { s with ec := { s.ec with flipHold := s.ec.flipHold &&& ~~~v } }

/-- EC_BSET_MAP: W1C flags; ACTIVE and GOLDEN_SEL until the lock (R151). -/
def bsetMapWrite (s : State) (m : Master) (v : Word) : State :=
  match selBset s m with
  | none => s
  | some (c, i, b) =>
    setBset s c i (fun r =>
      let r := { r with reqRej := w1c r.reqRej v 8, flipFail := w1c r.flipFail v 9 }
      if s.ec.locked then r else { r with activeB := v.getLsbD 2, goldSel := v.getLsbD 3 && b.g.isSome })

/-- EC_BSET_CTL, in ascending bit order (R499). -/
def bsetCtl (s : State) (m : Master) (v : Word) : State :=
  let s := onBit v 0 (fun s => flipReq s m) s
  let s := onBit v 1 (fun s => flipCancel s m) s
  let s := onBit v 2 (fun s => goldClear s m) s
  let s := onBit v 3 (fun s => stageLock s m true) s
  onBit v 4 (fun s => stageLock s m false) s

/-- The EC window. -/
def ecWrite (s : State) (m : Master) (o : Nat) (v : Word) : State :=
  match o with
  | 0x008 => wr s m 4 false fun s => { s with ec := { s.ec with intSts := s.ec.intSts &&& ~~~v } }
  | 0x00C => wr s m 4 false fun s => { s with ec := { s.ec with intEn := lowBits v 8 } }
  | 0x010 => wr s m 4 true fun s => flipHoldWrite s v
  | 0x014 => wr s m 4 false fun s => { s with ec := { s.ec with freeze := v } }
  | 0x040 => selWr s m [4] (fun x => { x with bsCh := Fin.ofNat 32 (bf v 0 5), bsSet := BitVec.ofNat 4 (bf v 8 4) })
  | 0x044 => wr s m 4 false fun s => bsetMapWrite s m v
  | 0x048 => wr s m 4 false fun s => bsetCtl s m v
  | 0x808 => wr s m 4 false fun s => { s with ec := { s.ec with log := setRdidx s.ec.log v 256 } }
  | _ => s

/-- The ST window. -/
def stWrite (s : State) (m : Master) (o : Nat) (v : Word) : State :=
  match o with
  | 0x000 => wr s m 5 true fun s =>
      onBit v 1 stLock (onBit v 0 stLoad { s with st := { s.st with srcRam := v.getLsbD 2 } })
  | 0x004 => wr s m 5 true fun s => { s with st := { s.st with src := v } }
  | 0x008 => wr s m 5 false fun s => { s with st := { s.st with err := w1c s.st.err v 3 } }
  | 0x040 => wr s m 5 true fun s => onBit v 8 rsStart { s with st := { s.st with rsCh := Fin.ofNat 32 (bf v 0 5) } }
  | 0x044 => wr s m 5 true fun s => rsHoldClear s v
  | 0x048 => wr s m 5 true fun s => onBit v 0 arbAdvance s
  | 0x04C => wr s m 5 false fun s => { s with st := { s.st with arbDone := w1c s.st.arbDone v 17, arbFail := w1c s.st.arbFail v 18 } }
  | 0x050 => wr s m 5 false fun s => { s with st := { s.st with intSts := s.st.intSts &&& ~~~v } }
  | 0x054 => wr s m 5 false fun s => { s with st := { s.st with intEn := lowBits v 5 } }
  | _ => s

/-- The BT window. -/
def btWrite (s : State) (m : Master) (o : Nat) (v : Word) : State :=
  match o with
  | 0x008 => wr s m 6 false fun s => { s with bt := { s.bt with intSts := s.bt.intSts &&& ~~~v } }
  | 0x00C => wr s m 6 false fun s => { s with bt := { s.bt with intEn := lowBits v 6 } }
  | _ => s

/-- The command of an IN_CTL bit. -/
def inCommand (n : Inst) (b : Nat) (s : State) : State :=
  match b with
  | 0 => instCreate s n
  | 1 => instDrain s n
  | 2 => instReset s n
  | _ => instRemove s n

/-- One command bit of a write of IN_CTL, with the bit of that write accepted before it: a further one is refused with code 1, but a
RESET_SQUASH or REMOVE behind a RESET_DRAIN ends the drain (R230, R499). -/
def inBit (n : Inst) (b : Nat) (x : State × Option Nat) : State × Option Nat :=
  let (s, acc) := x
  if acc.isSome ∧ !(acc = some 1 ∧ 2 ≤ b) then (instRefuse s n 1, acc)
  else
    let t := inCommand n b (modInst s n (fun y => { y with refused := false }))
    let no := (t.inst[n]).refused
    (modInst t n (fun y => { y with refused := y.refused || (s.inst[n]).refused }), if no then acc else some b)

/-- IN_CTL, in ascending bit order (R230, R499). -/
def inCtl (s : State) (n : Inst) (v : Word) : State :=
  (([0, 1, 2, 3].filter (fun b => v.getLsbD b)).foldl (fun x b => inBit n b x) (s, none)).1

/-- The IN window of the selected instance. -/
def inWrite (s : State) (m : Master) (o : Nat) (v : Word) : State :=
  let n := (selOf s m).inst
  match o with
  | 0x000 => selWr s m [7, 13] (fun x => { x with inst := Fin.ofNat 64 (bf v 0 6) })
  | 0x008 => wr s m 7 false fun s => modInst s n (fun x => if x.st = .dormant then { x with addr := BitVec.ofNat 8 (bf v 0 8) } else x)
  | 0x00C => wr s m 7 false fun s => instTake s m n (fun s => inCtl s n v)
  | 0x010 => wr s m 7 false fun s => modInst s n (fun x => { x with refused := w1c x.refused v 3 })
  | _ => s

/-- HE_CORE_CTL.START: a HELD core whose entry lies in the tinder ROM or hearth RAM starts there in machine mode, every other
register at its reset value (R237); its watchdog starts with it under CWD_HW (R429). -/
def coreStart (s : State) (c : Core) : State :=
  let e := s.he.entry[c]
  let good : Bool := match rowOf e.toNat with
    | some .rom | some .ownTcm | some .tcm | some .shared => true
    | _ => false
  if (s.he.cores[c]).st = .held ∧ good ∧ c ≠ 0 then
    let s := if optCwdHw s then wdStart s ⟨c.val, Nat.lt_succ_of_lt c.isLt⟩ else s
    modCore s c (fun _ => { st := .running, pc := e, mcycleOfs := 0 - BitVec.ofNat 64 (s.clk.now - s.clk.resetAt) })
  else s

/-- HE_DMA_CFG, HE_DMA_CTL, HE_DMA_STS and HE_DMA_DESC of one channel. -/
def dmaRegWrite (s : State) (m : Master) (k : Fin 16) (r : Nat) (v : Word) : State :=
  let idle := (s.he.dma[k]).st = .idle
  match r with
  | 0x00 => if idle then modDma s k (fun d => { d with prio := BitVec.ofNat 2 (bf v 0 2), cls := BitVec.ofNat 2 (bf v 2 2), owner := BitVec.ofNat 8 (bf v 8 8) }) else s
  | 0x04 => dmaTake s m k (fun s => dmaCtl s k v)
  | 0x08 => modDma s k (fun d => { d with cmdRej := w1c d.cmdRej v 3, busy := w1c d.busy v 4 })
  | 0x0C => if idle then modDma s k (fun d => { d with desc := v &&& 0xFFFFFFE0#32 }) else s
  | _ => s

/-- HE_INT_PRIO(s): fixed for source 29 (R260). -/
def intPrioWrite (s : State) (i : Fin 32) (v : Word) : State :=
  if i = 29 then s
  else { s with he := { s.he with prio := s.he.prio.set i (BitVec.ofNat 3 (bf v 0 3)), tgt := s.he.tgt.set i (BitVec.ofNat 4 (bf v 8 4)) } }

/-- HE_INT_ACK(c): CLAIM, then COMPLETE (R259, R499).
Log entry 13 (DEDUCED). -/
def intAckWrite (s : State) (c : Core) (v : Word) : State :=
  let i : Fin 32 := Fin.ofNat 32 (bf v 0 5)
  onBit v 9 (fun s => intComplete s c i) (onBit v 8 (fun s => intClaim s c i) s)

/-- HE_NMI_HOOK: EN and ADDR until LOCK is set (R9, R266).
Log entry 11 (DEDUCED). -/
def hookWrite (s : State) (v : Word) : State :=
  let h := s.he
  if h.hookLock then s
  else { s with he := { h with hookEn := v.getLsbD 0, hookAddr := BitVec.ofNat 30 (bf v 2 30), hookLock := v.getLsbD 1 } }

/-- Registers of the HE window beyond its fixed offsets. -/
def heArrayWrite (s : State) (m : Master) (o : Nat) (v : Word) : State :=
  match inArray o 0x010 4 4, inArray o 0x100 4 20, inArray o 0x400 0x20 16, inArray o 0x800 4 32 with
  | some (c, _), _, _, _ =>
    let c : Core := Fin.ofNat 4 c
    if c ≠ 0 ∧ (s.he.cores[c]).st = .held then { s with he := { s.he with entry := s.he.entry.set c (v &&& 0xFFFFFFFE#32) } } else s
  | _, some (r, _), _, _ => ruRootWrite s (Fin.ofNat 20 r) v
  | _, _, some (k, r), _ => dmaRegWrite s m (Fin.ofNat 16 k) r v
  | _, _, _, some (i, _) => intPrioWrite s (Fin.ofNat 32 i) v
  | _, _, _, _ =>
    match inArray o 0x900 0x10 4, inArray o 0xA10 8 4, inArray o 0xA40 4 4 with
    | some (c, 0), _, _ => { s with he := { s.he with thr := s.he.thr.set (Fin.ofNat 4 c) (BitVec.ofNat 3 (bf v 0 3)) } }
    | some (c, 8), _, _ => intAckWrite s (Fin.ofNat 4 c) v
    | _, some (c, r), _ =>
      let c : Core := Fin.ofNat 4 c
      { s with he := { s.he with mtimecmp := s.he.mtimecmp.set c (setHalf64 s.he.mtimecmp[c] (r == 4) v) } }
    | _, _, some (c, _) => { s with he := { s.he with msip := putBit s.he.msip c (v.getLsbD 0) } }
    | _, _, _ => s

/-- The HE window, which external masters cannot write (R269). -/
def heWrite (s : State) (m : Master) (o : Nat) (v : Word) : State :=
  wr s m 8 true fun s =>
    match o with
    | 0x004 => onBit v 3 (fun s => coreStart s 3) (onBit v 2 (fun s => coreStart s 2) (onBit v 1 (fun s => coreStart s 1) s))
    | 0x180 => ruInvalidate s v
    | 0x600 => { s with he := { s.he with dmaInt := s.he.dmaInt &&& ~~~v } }
    | 0x604 => { s with he := { s.he with dmaIntEn := v } }
    | 0x884 => { s with he := { s.he with gr := s.he.gr &&& ~~~v } }
    | 0x888 => { s with he := { s.he with grEn := v } }
    | 0xB00 => hookWrite s v
    | 0xB04 => onBit v 0 (fun s => resetNow s m) s
    | _ => heArrayWrite s m o v

/-- SQ_IO_SW(w): bits of output lines with SW drive their lines; every other bit ignores the write. -/
def ioSwWrite (s : State) (w : Nat) (v : Word) : State :=
  if !s.sq.ioDriven then s
  else (List.range 32).foldl (fun s b =>
    match s.sq.cfg.lines.toList[32 * w + b]? with
    | some l => if l.sw ∧ l.dir ≠ 0 then driveLine s (32 * w + b) (v.getLsbD b) else s
    | none => s) s

/-- SQ_SMB_CTL: the fields, then START (R505). -/
def smbCtlWrite (s : State) (v : Word) : State :=
  onBit v 21 smbStart { s with sq := { s.sq with
    smbAddr := BitVec.ofNat 7 (bf v 0 7), smbRead := v.getLsbD 7, smbCmd := BitVec.ofNat 8 (bf v 8 8), smbPort := Fin.ofNat 4 (bf v 16 2)
    smbLen := BitVec.ofNat 2 (bf v 18 2), smbPec := v.getLsbD 20 } }

/-- The SQ window. -/
def sqWrite (s : State) (m : Master) (o : Nat) (v : Word) : State :=
  match o with
  | 0x000 => wr s m 9 true fun s => onBit v 1 sqShutdown (onBit v 0 sqRestart s)
  | 0x008 => wr s m 9 false fun s => { s with sq := { s.sq with intSts := s.sq.intSts &&& ~~~v } }
  | 0x00C => wr s m 9 false fun s => { s with sq := { s.sq with intEn := lowBits v 6 } }
  | 0x010 => wr s m 9 true fun s => hearthHold s v
  | 0x014 => wr s m 9 true fun s => pfClear s v
  | 0x050 => wr s m 9 true fun s => ioSwWrite s 0 v
  | 0x054 => wr s m 9 true fun s => ioSwWrite s 1 v
  | 0x058 => wr s m 9 true fun s => ioSwWrite s 2 v
  | 0x080 => wr s m 9 true fun s => smbCtlWrite s v
  | 0x084 => wr s m 9 false fun s => { s with sq := { s.sq with smbData := BitVec.ofNat 16 (bf v 0 16) } }
  | 0x094 => wr s m 9 false fun s => { s with sq := { s.sq with log := setRdidx s.sq.log v 64 } }
  | _ => s

/-- The PD window. -/
def pdWrite (s : State) (m : Master) (o : Nat) (v : Word) : State :=
  match o with
  | 0x010 => selWr s m [10] (fun x => { x with dom := BitVec.ofNat 8 (bf v 0 8) })
  | 0x020 => wr s m 10 true fun s => { s with pd := { s.pd with ret := BitVec.ofNat 4 (bf v 0 4) } }
  | _ => s

/-- One core's command set written: GO takes the OP written with it (R305).
Log entry 13 (DEDUCED). -/
def kvCmdWrite (s : State) (c : Core) (r : Nat) (v : Word) : State :=
  match r with
  | 0x00 =>
    let s := modKvc s c (fun k => { k with op := BitVec.ofNat 5 (bf v 0 5), bg := v.getLsbD 5, owner := BitVec.ofNat 8 (bf v 8 8) })
    if v.getLsbD 31 then settleAll (kvGo s c) else s
  | 0x14 => modKvc s c (fun k => { k with done := w1c k.done v 9, rej := w1c k.rej v 10 })
  | _ => if h : 0x04 ≤ r ∧ (r - 4) / 4 < 4 then modKvc s c (fun k => { k with arg := k.arg.set ((r - 4) / 4) v }) else s

/-- The KV window. -/
def kvWrite (s : State) (m : Master) (o : Nat) (v : Word) : State :=
  match m with
  | .ext _ => s
  | .core c =>
    match o with
    | 0x000 => onBit v 2 rekindle (onBit v 1 zeroiseVault (onBit v 0 rootLoad s))
    | 0x004 => { s with kv := { s.kv with rej := w1c s.kv.rej v 8 } }
    | 0x008 => { s with kv := { s.kv with intSts := s.kv.intSts &&& ~~~v } }
    | 0x00C => { s with kv := { s.kv with intEn := lowBits v 5 } }
    | 0x010 => { s with kv := { s.kv with sel := s.kv.sel.set c (Fin.ofNat 128 (bf v 0 7)) } }
    | _ =>
      match inArray o 0x100 0x20 4 with
      | some (n, r) => kvCmdWrite s (Fin.ofNat 4 n) r v
      | none => s

/-- LC_CMD with GO (R335): codes beyond the six end with OP. -/
def lcCmdWrite (s : State) (m : Master) (v : Word) : State :=
  let op := bf v 0 4
  if v.getLsbD 31 then
    lcCommand s m op (match op with
      | 1 => lcToTest
      | 2 => lcToProduction
      | 3 => lcProvision
      | 4 => lcRedeem
      | 5 => lcToEol
      | 6 => lcNonce
      | _ => fun s => lcFinish s 14)
  else { s with lc := { s.lc with cmdOp := BitVec.ofNat 4 op } }

/-- The LC window, which external masters cannot write. -/
def lcWrite (s : State) (m : Master) (o : Nat) (v : Word) : State :=
  wr s m 12 true fun s =>
    match o with
    | 0x004 => lcCmdWrite s m v
    | 0x008 => { s with lc := { s.lc with done := w1c s.lc.done v 4 } }
    | 0x00C => { s with lc := { s.lc with tokenAddr := v } }
    | 0x010 => { s with lc := { s.lc with tokenLen := v } }
    | 0x0B0 => { s with lc := { s.lc with intSts := s.lc.intSts &&& ~~~v } }
    | 0x0B4 => { s with lc := { s.lc with intEn := lowBits v 3 } }
    | _ =>
      if h : 0x040 ≤ o ∧ (o - 0x040) / 4 < 24 then { s with lc := { s.lc with prov := s.lc.prov.set ((o - 0x040) / 4) v } } else s

/-- MB_ATT_CTL: EN and CHAIN_OK until LOCK is set.
Log entry 11 (DEDUCED). -/
def attWrite (s : State) (v : Word) : State :=
  if s.mb.attLock then s
  else { s with mb := { s.mb with attEn := v.getLsbD 0, chainOk := v.getLsbD 1, attLock := v.getLsbD 2 } }

/-- Device-wide registers of the MB window; only MB_LOCK accepts external writes (R347). -/
def mbDevWrite (s : State) (m : Master) (o : Nat) (v : Word) : State :=
  let dev := wr s m 13 true
  match o with
  | 0x808 => dev fun s => { s with mb := { s.mb with inqEn := setHalf64 s.mb.inqEn false v } }
  | 0x80C => dev fun s => { s with mb := { s.mb with inqEn := setHalf64 s.mb.inqEn true v } }
  | 0x810 => dev fun s => { s with mb := { s.mb with intSts := s.mb.intSts &&& ~~~v } }
  | 0x814 => dev fun s => { s with mb := { s.mb with intEn := lowBits v 4 } }
  | 0x880 => selWr s m [13] (fun x => { x with tally := Fin.ofNat 64 (bf v 0 6) })
  | 0x8D0 => dev fun s =>
      match m with
      | .core c => onBit v 0 (fun s => tallyExtend s m) { s with mb := { s.mb with tallyRej := putBit s.mb.tallyRej c.val (w1c (s.mb.tallyRej.getLsbD c.val) v 2) } }
      | .ext _ => s
  | 0x8D8 => dev fun s => { s with mb := { s.mb with tallyLock := s.mb.tallyLock ||| v.setWidth 64 } }
  | 0x8DC => dev fun s => { s with mb := { s.mb with tallyLock := s.mb.tallyLock ||| (v ++ (0 : Word)) } }
  | 0x900 => dev fun s => attWrite s v
  | 0x904 => dev fun s => if s.mb.attLock then s else { s with mb := { s.mb with extAsym := v } }
  | 0x908 => dev fun s => if s.mb.attLock then s else { s with mb := { s.mb with chainAddr := v } }
  | 0x90C => dev fun s => if s.mb.attLock then s else { s with mb := { s.mb with chainLen := v } }
  | _ =>
    match inArray o 0x840 4 16, inArray o 0x8B0 4 8 with
    | some (k, _), _ => lockWrite s m (Fin.ofNat 16 k) v
    | _, some (i, _) => dev fun s =>
        match m with
        | .core c => { s with mb := { s.mb with tallyIn := s.mb.tallyIn.set c (digSetWord s.mb.tallyIn[c] i v) } }
        | .ext _ => s
    | _, _ => s

/-- The MB window: this requester's side of the selected instance (R347). -/
def mbWrite (s : State) (m : Master) (o : Nat) (v : Word) : State :=
  let n := (selOf s m).inst
  let mine := fun (f : State → State) => wr s m 13 false fun s => if ownsInst s m n then f s else s
  match o with
  | 0x008 => if v.getLsbD 0 then mbSend s m else s
  | 0x00C => if v.getLsbD 0 then mbPop s m else s
  | _ =>
    match inArray o 0x040 4 16, inArray o 0x1000 4 1024 with
    | some (i, _), _ => mine fun s => modBox s n (fun b => txPut b (txCopy m) i v)
    | _, some (k, _) => mine fun s => bulkWrite s n (isCore m) (4 * k) (wordBytes v)
    | _, _ => mbDevWrite s m o v

/-- FB_BC_CTL: TAG and flags, then GO (R386). -/
def bcCtlWrite (s : State) (m : Master) (v : Word) : State :=
  let b := s.fb
  let s := { s with fb := { b with bcTag := BitVec.ofNat 8 (bf v 8 8), bcRej := w1c b.bcRej v 1, bcLost := w1c b.bcLost v 2, bcNew := w1c b.bcNew v 3 } }
  onBit v 0 (fun s => bcastGo s m) s

/-- The FB window. -/
def fbWrite (s : State) (m : Master) (o : Nat) (v : Word) : State :=
  match o with
  | 0x000 => onBit v 1 (fun s => freset s m) (onBit v 0 (fun s => rediscover s m) s)
  | 0x010 => wr s m 14 false fun s => { s with fb := { s.fb with intSts := s.fb.intSts &&& ~~~v } }
  | 0x014 => wr s m 14 false fun s => { s with fb := { s.fb with intEn := lowBits v 8 } }
  | 0x200 => wr s m 14 true fun s => bcCtlWrite s m v
  | 0x300 => onBit v 0 (fun s => arrive s m) s
  | 0x304 => wr s m 14 false fun s => { s with fb := { s.fb with
      barDone := w1c s.fb.barDone v 17, barAborted := w1c s.fb.barAborted v 18, barRej := w1c s.fb.barRej v 19 } }
  | 0x400 => onBit v 0 (fun s => snapStart s m) s
  | 0x404 => wr s m 14 false fun s => modSnap s (fun x => { x with rej := w1c x.rej v 4 })
  | 0x440 => wr s m 14 true fun s => modSnap s (fun x => { x with buf := v })
  | 0x600 => wr s m 14 true fun s => { s with fb := { s.fb with rlyBuf := v } }
  | 0x604 => relayQueue s m v
  | 0x608 => serveWrite s m v
  | _ =>
    match inArray o 0x240 4 16, inArray o 0x420 4 8 with
    | some (i, _), _ => wr s m 14 false fun s => { s with fb := { s.fb with bcTx := s.fb.bcTx.set (Fin.ofNat 16 i) v } }
    | _, some (i, _) => wr s m 14 true fun s => modSnap s (fun x => { x with nonceReg := digSetWord x.nonceReg i v })
    | _, _ => s

/-- One watchdog's registers, written by a core. -/
def wdOneWrite (s : State) (c : Core) (w : Fin 5) (r : Nat) (v : Word) : State :=
  match r with
  | 0x04 => wdStoke s w c v
  | 0x08 => modWd s w (fun k => { k with
      dup := w1c k.dup v 6, foreign := w1c k.foreign v 7, suspStoke := w1c k.suspStoke v 8, armRej := w1c k.armRej v 9 })
  | 0x10 => modWd s w (fun k => { k with secretReg := v })
  | 0x14 => onBit v 0 (fun s => wdArm s w c) s
  | _ => s

/-- WD_TS_ARM: each bit written 1 arms its slot (R433). -/
def tsArmWrite (s : State) (v : Word) : State := allTs.foldl (fun s i => if v.getLsbD i.val then tsArm s i else s) s

/-- WD_TS_CHECKIN (R433). -/
def checkinWrite (s : State) (c : Core) (v : Word) : State := tsCheckin s (Fin.ofNat 16 (bf v 0 4)) (Fin.ofNat 16 (bf v 8 4)) c

/-- The WD window, which external masters cannot write. -/
def wdWrite (s : State) (m : Master) (o : Nat) (v : Word) : State :=
  match m with
  | .ext _ => s
  | .core c =>
    match o with
    | 0x108 => { s with wd := { s.wd with intSts := s.wd.intSts &&& ~~~v } }
    | 0x10C => { s with wd := { s.wd with intEn := lowBits v 4 } }
    | 0x200 => tsArmWrite s v
    | 0x204 => checkinWrite s c v
    | 0x400 => modAo s (fun a => { a with evCause := a.evCause &&& ~~~(v &&& 0x8001#32) })
    | _ =>
      match inArray o 0x000 0x20 5, inArray o 0x240 4 16, inArray o 0x280 4 16 with
      | some (w, r), _, _ => wdOneWrite s c (Fin.ofNat 5 w) r v
      | _, some (i, _), _ => modTs s (Fin.ofNat 16 i) (fun t => { t with foreign := w1c t.foreign v 1 })
      | _, _, some (i, _) => modTs s (Fin.ofNat 16 i) (fun t => { t with double := t.double &&& ~~~(BitVec.ofNat 16 (bf v 16 16)) })
      | _, _, _ => s

/-- The PR window, which external masters cannot write. -/
def prWrite (s : State) (m : Master) (o : Nat) (v : Word) : State :=
  wr s m 16 true fun s =>
    match o with
    | 0x004 => onBit v 0 (fun s => pairYield s m) s
    | 0x008 => { s with pr := { s.pr with diag := s.pr.diag &&& ~~~(BitVec.ofNat 6 (bf v 0 6)) } }
    | 0x00C => { s with pr := { s.pr with intSts := s.pr.intSts &&& ~~~v } }
    | 0x010 => { s with pr := { s.pr with intEn := lowBits v 5 } }
    | 0x020 => onBit v 1 (fun s => pairMsgPop s m) (onBit v 0 (fun s => pairMsgSend s m) s)
    | _ =>
      match inArray o 0x040 4 16 with
      | some (i, _) => { s with pr := { s.pr with tx := s.pr.tx.set (Fin.ofNat 16 i) v } }
      | none => s

/-- TP_AO_SRAM, offsets 0x2000-0x3FFC: writes below offset 0x3400 have no effect. -/
def sramWrite (s : State) (o : Nat) (v : Word) : State :=
  if 0x3400 ≤ o ∧ o < 0x4000 then modAo s (fun a => { a with sram := memWrite 0 a.sram (o - 0x2000) (wordBytes v) }) else s

/-- The TP window, which external masters cannot write. -/
def tpWrite (s : State) (m : Master) (o : Nat) (v : Word) : State :=
  wr s m 17 true fun s =>
    match o with
    | 0x000 => modAo s (fun a => { a with lost := w1c a.lost v 0 })
    | 0x008 => { s with tp := { s.tp with intSts := s.tp.intSts &&& ~~~v } }
    | 0x00C => { s with tp := { s.tp with intEn := lowBits v 11 } }
    | 0x010 => onBit v 1 (fun s => holdClear s m) (modAo s (fun a => { a with rej := w1c a.rej v 2 }))
    | 0x018 => onBit v 1 (fun s => rtcLoad s m) (onBit v 0 (fun s => softAlarm s m) s)
    | 0x028 => { s with tp := { s.tp with rtcSet := s.tp.rtcSet.extractLsb' 32 16 ++ v } }
    | 0x02C => { s with tp := { s.tp with rtcSet := v.extractLsb' 0 16 ++ s.tp.rtcSet.extractLsb' 0 32 } }
    | 0x060 => { s with tp := { s.tp with ld := s.tp.ld &&& ~~~(v.setWidth 64) } }
    | 0x064 => { s with tp := { s.tp with ld := s.tp.ld &&& ~~~(v ++ (0 : Word)) } }
    | _ => if 0x2000 ≤ o then sramWrite s o v else s

/-- A word written to an offset of a window.
Log entry 11 (DEDUCED). -/
def winWrite (s : State) (m : Master) (w o : Nat) (v : Word) : State :=
  match w with
  | 0 => gcWrite s m o v
  | 1 => chWrite s m o v
  | 2 => grWrite s m o v
  | 3 => veWrite s m o v
  | 4 => ecWrite s m o v
  | 5 => stWrite s m o v
  | 6 => btWrite s m o v
  | 7 => inWrite s m o v
  | 8 => heWrite s m o v
  | 9 => sqWrite s m o v
  | 10 => pdWrite s m o v
  | 11 => kvWrite s m o v
  | 12 => lcWrite s m o v
  | 13 => mbWrite s m o v
  | 14 => fbWrite s m o v
  | 15 => wdWrite s m o v
  | 16 => prWrite s m o v
  | _ => tpWrite s m o v

/-- A register written as 32 bits, naturally aligned; what is no register ignores it (R11), what lies past the window's last
register included. Nothing else is done while a
reset is asserted.
Log entry 11 (DEDUCED). -/
def regWrite (s : State) (m : Master) (a : Nat) (v : Word) : State :=
  match windowOf a with
  | some (w, o) => if a % 4 = 0 ∧ o ≤ lastOfs w then winWrite s m w o v else s
  | none => s

end Sys2Proof.Machine
end

