-- ==== Sys2Proof/Machine/Rv32.lean ====
section
/-! DEFINITION. The arithmetic of RV32IMAC and its encodings (R234): fields and immediates, the ALU, multiplication and
division, the AMOs, and the expansion of compressed instructions. -/

namespace Sys2Proof.Machine

/-! Fields and immediates of a 32-bit instruction. -/

def rvOp (w : Word) : Nat := bf w 0 7
def rvRd (w : Word) : Nat := bf w 7 5
def rvF3 (w : Word) : Nat := bf w 12 3
def rvRs1 (w : Word) : Nat := bf w 15 5
def rvRs2 (w : Word) : Nat := bf w 20 5
def rvF7 (w : Word) : Nat := bf w 25 7
def rvImmI (w : Word) : Word := (w.extractLsb' 20 12).signExtend 32
def rvImmS (w : Word) : Word := (w.extractLsb' 25 7 ++ w.extractLsb' 7 5).signExtend 32
def rvImmB (w : Word) : Word :=
  (w.extractLsb' 31 1 ++ w.extractLsb' 7 1 ++ w.extractLsb' 25 6 ++ w.extractLsb' 8 4 ++ (0 : BitVec 1)).signExtend 32
def rvImmU (w : Word) : Word := w &&& 0xFFFFF000#32
def rvImmJ (w : Word) : Word :=
  (w.extractLsb' 31 1 ++ w.extractLsb' 12 8 ++ w.extractLsb' 20 1 ++ w.extractLsb' 21 10 ++ (0 : BitVec 1)).signExtend 32

/-! Arithmetic. -/

/-- A truth value as a register. -/
def rvBool (b : Bool) : Word := if b then 1 else 0

/-- The base ALU: `alt` is bit 30, which makes ADD SUB and SRL SRA. -/
def rvAlu (f3 : Nat) (alt : Bool) (a b : Word) : Word :=
  match f3 with
  | 0 => if alt then a - b else a + b
  | 1 => a <<< (b.toNat % 32)
  | 2 => rvBool (a.slt b)
  | 3 => rvBool (a.ult b)
  | 4 => a ^^^ b
  | 5 => if alt then a.sshiftRight (b.toNat % 32) else a >>> (b.toNat % 32)
  | 6 => a ||| b
  | _ => a &&& b

/-- Multiplication and division. -/
def rvMulDiv (f3 : Nat) (a b : Word) : Word :=
  match f3 with
  | 0 => a * b
  | 1 => BitVec.ofInt 32 ((a.toInt * b.toInt) / 2 ^ 32)
  | 2 => BitVec.ofInt 32 ((a.toInt * (b.toNat : Int)) / 2 ^ 32)
  | 3 => BitVec.ofNat 32 (a.toNat * b.toNat / 2 ^ 32)
  | 4 => if b = 0 then BitVec.allOnes 32 else BitVec.ofInt 32 (a.toInt.tdiv b.toInt)
  | 5 => if b = 0 then BitVec.allOnes 32 else BitVec.ofNat 32 (a.toNat / b.toNat)
  | 6 => if b = 0 then a else BitVec.ofInt 32 (a.toInt.tmod b.toInt)
  | _ => if b = 0 then a else BitVec.ofNat 32 (a.toNat % b.toNat)

/-- Branch conditions; absent for the two reserved codes. -/
def rvTaken (f3 : Nat) (a b : Word) : Option Bool :=
  match f3 with
  | 0 => some (a == b)
  | 1 => some (a != b)
  | 4 => some (a.slt b)
  | 5 => some (!a.slt b)
  | 6 => some (a.ult b)
  | 7 => some (!a.ult b)
  | _ => none

/-- The value an AMO stores, by its five-bit code; absent for codes that are none. -/
def rvAmo (f5 : Nat) (m r : Word) : Option Word :=
  match f5 with
  | 0x01 => some r
  | 0x00 => some (m + r)
  | 0x04 => some (m ^^^ r)
  | 0x0C => some (m &&& r)
  | 0x08 => some (m ||| r)
  | 0x10 => some (if m.slt r then m else r)
  | 0x14 => some (if r.slt m then m else r)
  | 0x18 => some (if m.ult r then m else r)
  | 0x1C => some (if r.ult m then m else r)
  | _ => none

/-! Compressed instructions, as the 32-bit instruction each stands for. -/

def encR (f7 rs2 rs1 f3 rd op : Nat) : Word :=
  pack [(0, op), (7, rd), (12, f3), (15, rs1), (20, rs2), (25, f7)]
def encI (imm : BitVec 12) (rs1 f3 rd op : Nat) : Word := pack [(0, op), (7, rd), (12, f3), (15, rs1), (20, imm.toNat)]
def encS (imm : BitVec 12) (rs2 rs1 f3 op : Nat) : Word :=
  pack [(0, op), (7, bf imm 0 5), (12, f3), (15, rs1), (20, rs2), (25, bf imm 5 7)]
def encB (imm : BitVec 13) (rs2 rs1 f3 : Nat) : Word :=
  pack [(0, 0x63), (7, bf imm 11 1), (8, bf imm 1 4), (12, f3), (15, rs1), (20, rs2), (25, bf imm 5 6), (31, bf imm 12 1)]
def encJ (imm : BitVec 21) (rd : Nat) : Word :=
  pack [(0, 0x6F), (7, rd), (12, bf imm 12 8), (20, bf imm 11 1), (21, bf imm 1 10), (31, bf imm 20 1)]

/-- Immediate of C.ADDI, C.LI, C.ANDI. -/
def cImm6 (h : BitVec 16) : BitVec 12 := (h.extractLsb' 12 1 ++ h.extractLsb' 2 5).signExtend 12

/-- Immediate of C.J and C.JAL, and of C.BEQZ and C.BNEZ. -/
def cImmJ (h : BitVec 16) : BitVec 21 :=
  (h.extractLsb' 12 1 ++ h.extractLsb' 8 1 ++ h.extractLsb' 9 2 ++ h.extractLsb' 6 1 ++ h.extractLsb' 7 1 ++
    h.extractLsb' 2 1 ++ h.extractLsb' 11 1 ++ h.extractLsb' 3 3 ++ (0 : BitVec 1)).signExtend 21
def cImmB (h : BitVec 16) : BitVec 13 :=
  (h.extractLsb' 12 1 ++ h.extractLsb' 5 2 ++ h.extractLsb' 2 1 ++ h.extractLsb' 10 2 ++ h.extractLsb' 3 2 ++
    (0 : BitVec 1)).signExtend 13

/-- Quadrant 0. -/
def expandC0 (h : BitVec 16) : Option Word :=
  let r2 := bf h 2 3 + 8
  let r1 := bf h 7 3 + 8
  let off := BitVec.ofNat 12 (4 * bf h 6 1 + 8 * bf h 10 3 + 64 * bf h 5 1)
  match bf h 13 3 with
  | 0 =>
    let n := 4 * bf h 6 1 + 8 * bf h 5 1 + 16 * bf h 11 2 + 64 * bf h 7 4
    if n = 0 then none else some (encI (BitVec.ofNat 12 n) 2 0 r2 0x13)
  | 2 => some (encI off r1 2 r2 0x03)
  | 6 => some (encS off r2 r1 2 0x23)
  | _ => none

/-- Register-register and shift forms of quadrant 1. -/
def expandC1Alu (h : BitVec 16) : Option Word :=
  let rd := bf h 7 3 + 8
  let r2 := bf h 2 3 + 8
  match bf h 10 2 with
  | 0 => if h.getLsbD 12 then none else some (encI (BitVec.ofNat 12 (bf h 2 5)) rd 5 rd 0x13)
  | 1 => if h.getLsbD 12 then none else some (encI (BitVec.ofNat 12 (0x400 + bf h 2 5)) rd 5 rd 0x13)
  | 2 => some (encI (cImm6 h) rd 7 rd 0x13)
  | _ =>
    if h.getLsbD 12 then none
    else match bf h 5 2 with
      | 0 => some (encR 0x20 r2 rd 0 rd 0x33)
      | 1 => some (encR 0 r2 rd 4 rd 0x33)
      | 2 => some (encR 0 r2 rd 6 rd 0x33)
      | _ => some (encR 0 r2 rd 7 rd 0x33)

/-- Quadrant 1. -/
def expandC1 (h : BitVec 16) : Option Word :=
  let rd := bf h 7 5
  match bf h 13 3 with
  | 0 => some (encI (cImm6 h) rd 0 rd 0x13)
  | 1 => some (encJ (cImmJ h) 1)
  | 2 => some (encI (cImm6 h) 0 0 rd 0x13)
  | 3 =>
    if cImm6 h = 0 then none
    else if rd = 2 then
      some (encI ((h.extractLsb' 12 1 ++ h.extractLsb' 3 2 ++ h.extractLsb' 5 1 ++ h.extractLsb' 2 1 ++ h.extractLsb' 6 1 ++
        (0 : BitVec 4)).signExtend 12) 2 0 2 0x13)
    else some (pack [(0, 0x37), (7, rd), (12, bf ((cImm6 h).signExtend 20) 0 20)])
  | 4 => expandC1Alu h
  | 5 => some (encJ (cImmJ h) 0)
  | 6 => some (encB (cImmB h) 0 (bf h 7 3 + 8) 0)
  | _ => some (encB (cImmB h) 0 (bf h 7 3 + 8) 1)

/-- Quadrant 2. -/
def expandC2 (h : BitVec 16) : Option Word :=
  let rd := bf h 7 5
  let r2 := bf h 2 5
  match bf h 13 3 with
  | 0 => if h.getLsbD 12 then none else some (encI (BitVec.ofNat 12 r2) rd 1 rd 0x13)
  | 2 =>
    if rd = 0 then none
    else some (encI (BitVec.ofNat 12 (4 * bf h 4 3 + 32 * bf h 12 1 + 64 * bf h 2 2)) 2 2 rd 0x03)
  | 4 =>
    if h.getLsbD 12 then
      if r2 ≠ 0 then some (encR 0 r2 rd 0 rd 0x33)
      else if rd = 0 then some 0x00100073#32 else some (encI 0 rd 0 1 0x67)
    else if r2 ≠ 0 then some (encR 0 r2 0 0 rd 0x33)
    else if rd = 0 then none else some (encI 0 rd 0 0 0x67)
  | 6 => some (encS (BitVec.ofNat 12 (4 * bf h 9 4 + 64 * bf h 7 2)) r2 2 2 0x23)
  | _ => none

/-- The 32-bit instruction a compressed one stands for; none for a reserved encoding. -/
def expandC (h : BitVec 16) : Option Word :=
  match bf h 0 2 with
  | 0 => expandC0 h
  | 1 => expandC1 h
  | 2 => expandC2 h
  | _ => none

end Sys2Proof.Machine
end

