-- ==== Sys2Proof/Machine/CoreRun.lean ====
section
/-! DEFINITION. A hearth core executes one instruction of RV32IMAC (R234-R241, R247), takes traps and interrupts
(R258-R266), and follows the RISC-V privileged specification where the device's own sets no value. -/

namespace Sys2Proof.Machine

/-- How an instruction ends: it retires with its effect done, it takes a synchronous exception with a cause and a value for
mtval, or it waits and runs again. -/
inductive RvEnd where
  | done (s : State)
  | trap (cause : Nat) (tval : Word) (s : State)
  | stall (s : State)

/-- A register of a core; x0 is 0. -/
def rvGet (s : State) (c : Core) (r : Nat) : Word := (s.he.cores[c]).regs.getD r 0

/-- Write a register; x0 is never written. -/
def rvPut (s : State) (c : Core) (r : Nat) (v : Word) : State :=
  if h : r < 32 ∧ r ≠ 0 then modCore s c (fun k => { k with regs := k.regs.set r v }) else s

/-- The instruction retires and the core goes on at `pc`; minstret counts unless inhibited. -/
def rvRetire (s : State) (c : Core) (pc : Word) : State :=
  modCore s c (fun k => { k with
    pc := clrBit pc 0, atVector := false
    minstret := if k.mcountinhibit.getLsbD 2 then k.minstret else k.minstret + 1 })

/-! Memory. -/

/-- HE_RU_FSTAT and the exception of Table 8.4 for a fault of a core's access at `va`.
Log entry 35 (DEDUCED). -/
def memTrap (s : State) (c : Core) (user : Bool) (k : MemKind) (f : MemFault) (va : Nat) : RvEnd :=
  let s := { s with he := { s.he with
    fstat := s.he.fstat.set c (pack [(0, f.code), (4, b2n f.walk), (5, f.level), (6, b2n user)]) } }
  let tr := f.code = 1 ∨ f.code = 2
  let cause := match k with
    | .fetch => if tr then 12 else 1
    | .load => if tr then 13 else 5
    | .store => if tr then 15 else 7
  .trap cause (BitVec.ofNat 32 va) s

/-- The mode a load or store is made in: machine-mode accesses with MPRV take the mode of MPP. -/
def dataUser (k : CoreRt) : Bool := k.user || (k.mstatus.getLsbD 17 && decide (bf k.mstatus 11 2 = 0))

/-- Bytes of the tinder ROM or of hearth RAM at a core's physical address. -/
def codeBytes (s : State) (c : Core) (pa n : Nat) : List Byte :=
  match ramAddr c pa with
  | some a => ramRead s a n
  | none => (List.range n).map (fun i => Config.romByte (pa + i))

/-- A byte of the range at a core's physical address is in parity error (R238). -/
def codeBad (s : State) (c : Core) (pa n : Nat) : Bool :=
  match ramAddr c pa with
  | some a => ramBad s a n
  | none => false

/-- A parity error met by a core counts for the pair's self-diagnosis (Table 15.7). -/
def memParity (s : State) (f : MemFault) : State := if f.code = 4 ∨ f.code = 3 then parityCount s else s

/-- Fetch 16 bits at a virtual address, through the 16-byte fetch buffer (R235).
Log entry 33 (DEDUCED, PRESUMED). -/
def fetchHalf (s : State) (c : Core) (va : Nat) : Except MemFault (BitVec 16) × State :=
  match coreTranslate s c (s.he.cores[c]).user .fetch va 2 with
  | (.error f, s) => (.error f, memParity s f)
  | (.ok pa, s) =>
    let line := pa / 16 * 16
    let half := fun (bs : List Byte) => BitVec.ofNat 16 (leNat (slice bs (pa % 16) 2))
    match (s.he.cores[c]).fbuf with
    | some (a, bs) =>
      if a = line then (.ok (half bs), s)
      else if codeBad s c pa 2 then (.error (plainFault 4), parityCount s)
      else
        let bs := codeBytes s c line 16
        (.ok (half bs), modCore s c (fun k => { k with fbuf := if codeBad s c line 16 then none else some (line, bs) }))
    | none =>
      if codeBad s c pa 2 then (.error (plainFault 4), parityCount s)
      else
        let bs := codeBytes s c line 16
        (.ok (half bs), modCore s c (fun k => { k with fbuf := if codeBad s c line 16 then none else some (line, bs) }))

/-- What an own-store read of this instruction has become: nothing asked yet, granted and good, or granted and failed
(R241). -/
inductive OsAnswer where
  | ask | good | failed
deriving DecidableEq, Repr

/-- A load of the register at offset `o`, with what the read does; a register the core may not read is 0.
Log entry 32 (DESIGN CHOICE, DEDUCED). -/
def rvLoadReg (s : State) (c : Core) (o : Nat) (k : Nat → State → RvEnd) : RvEnd :=
  match windowOf o with
  | some (w, p) =>
    if readOk s (.core c) w p then
      k (regRead s (.core c) o).toNat (regReadFx s (.core c) (readFxOf s (.core c) o))
    else k 0 s
  | none => k 0 s

/-- A load of `n` bytes: the bytes go to `k` as a number (R239-R241, R247). The own-store window is asked first and
answered by OWN_STORE_WINDOW_READ.
Log entries 33 (DEDUCED, PRESUMED), 34 (DEDUCED, DESIGN CHOICE). -/
def rvLoad (s : State) (c : Core) (os : OsAnswer) (va n : Nat) (k : Nat → State → RvEnd) : RvEnd :=
  let user := dataUser s.he.cores[c]
  if va % n ≠ 0 then .trap 4 (BitVec.ofNat 32 va) s
  else match coreTranslate s c user .load va n with
    | (.error f, s) => memTrap (memParity s f) c user .load f va
    | (.ok pa, s) =>
      match rowOf pa with
      | some .regs => rvLoadReg s c (pa - 0x40000000) k
      | some .otp => k (leNat ((List.range n).map (fun i => otpShadow s (pa - 0x60000000 + i)))) s
      | some .ownStore =>
        if osErasing s ∨ os = .failed then
          memTrap s c user .load (plainFault 9) va
        else if os = .ask then .stall (modCore (osEnq s (17 + c.val) 64 4) c (fun x => { x with osWait := true }))
        else k (leNat (memRead 0xFF s.os.mem (pa - 0x50000000) n)) s
      | _ =>
        if codeBad s c pa n then memTrap (parityCount s) c user .load (plainFault 4) va
        else k (leNat (codeBytes s c pa n)) s

/-- A store of the low `n` bytes of `v`; the instruction retires at `pc`, and then the bytes are written, since a register
may act on the core itself.
Log entry 33 (DEDUCED, PRESUMED). -/
def rvStore (s : State) (c : Core) (pc : Word) (va n : Nat) (v : Word) : RvEnd :=
  let user := dataUser s.he.cores[c]
  if va % n ≠ 0 then .trap 6 (BitVec.ofNat 32 va) s
  else match coreTranslate s c user .store va n with
    | (.error f, s) => memTrap (memParity s f) c user .store f va
    | (.ok pa, s) =>
      let s := rvRetire s c pc
      match ramAddr c pa with
      | some a => .done (ramWrite s (some c) a (leBytes n v.toNat))
      | none => .done (regWrite s (.core c) (pa - 0x40000000) v)

/-- LR, SC and the AMOs (R235): only in hearth RAM, elsewhere a store/AMO access fault.
Log entry 33 (DEDUCED, PRESUMED). -/
def rvAtomic (s : State) (c : Core) (pc : Word) (w : Word) : Option RvEnd :=
  let f5 := bf w 27 5
  let va := (rvGet s c (rvRs1 w)).toNat
  let r2 := rvGet s c (rvRs2 w)
  let user := dataUser s.he.cores[c]
  let kind : MemKind := if f5 = 2 then .load else .store
  if rvF3 w ≠ 2 ∨ (f5 = 2 ∧ rvRs2 w ≠ 0) then none
  else if f5 ≠ 2 ∧ f5 ≠ 3 ∧ (rvAmo f5 0 0).isNone then none
  else if va % 4 ≠ 0 then some (.trap (if f5 = 2 then 4 else 6) (BitVec.ofNat 32 va) s)
  else some (match coreTranslate s c user kind va 4 with
    | (.error f, s) => memTrap (memParity s f) c user (if f.code = 5 ∧ !f.walk then .store else kind) f va
    | (.ok pa, s) =>
      match ramAddr c pa with
      | none => memTrap s c user .store (plainFault 5) va
      | some a =>
        if f5 = 3 then
          if (s.he.cores[c]).reserve = some a then
            let s := rvPut s c (rvRd w) 0
            let s := modCore s c (fun k => { k with reserve := none })
            .done (ramWrite (rvRetire s c pc) (some c) a (leBytes 4 r2.toNat))
          else
            let s := rvPut s c (rvRd w) 1
            .done (rvRetire (modCore s c (fun k => { k with reserve := none })) c pc)
        else if ramBad s a 4 then memTrap (parityCount s) c user kind (plainFault 4) va
        else
          let m := BitVec.ofNat 32 (leNat (ramRead s a 4))
          let s := rvPut s c (rvRd w) m
          if f5 = 2 then .done (rvRetire (modCore s c (fun k => { k with reserve := some a })) c pc)
          else .done (ramWrite (rvRetire s c pc) (some c) a (leBytes 4 ((rvAmo f5 m r2).getD 0).toNat)))

/-! Machine-mode registers (R234, Table 8.1). -/

/-- mcycle: core cycles since the device reset, from where it was last written; it stands while inhibited. -/
def rvCycle (s : State) (c : Core) : BitVec 64 :=
  let k := s.he.cores[c]
  if k.mcountinhibit.getLsbD 0 then k.mcycleOfs else k.mcycleOfs + BitVec.ofNat 64 (s.clk.now - s.clk.resetAt)

/-- Set mcycle. -/
def rvSetCycle (s : State) (c : Core) (v : BitVec 64) : State :=
  modCore s c (fun k => { k with
    mcycleOfs := if k.mcountinhibit.getLsbD 0 then v else v - BitVec.ofNat 64 (s.clk.now - s.clk.resetAt) })

/-- mip: the external, timer and software interrupt of the core (R259, R262). -/
def rvMip (s : State) (c : Core) : Word :=
  pack [(11, b2n (intTop s c).isSome), (7, b2n (timerPending s c)), (3, b2n (s.he.msip.getLsbD c.val))]

/-- Is `a` in `lo` to `hi`? -/
def csrIn (a lo hi : Nat) : Bool := decide (lo ≤ a) && decide (a ≤ hi)

/-- A machine-mode register read; none for a number that names none.
Log entry 31 (PRESUMED, DEDUCED). -/
def csrRead (s : State) (c : Core) (a : Nat) : Option Word :=
  let k := s.he.cores[c]
  let lo := fun (x : BitVec 64) => x.setWidth 32
  let hi := fun (x : BitVec 64) => (x >>> 32).setWidth 32
  match a with
  | 0x300 => some k.mstatus
  | 0x301 => some 0x40101105#32
  | 0x304 => some k.mie
  | 0x305 => some k.mtvec
  | 0x306 => some k.mcounteren
  | 0x30A | 0x310 | 0x31A => some 0
  | 0x320 => some k.mcountinhibit
  | 0x340 => some k.mscratch
  | 0x341 => some k.mepc
  | 0x342 => some k.mcause
  | 0x343 => some k.mtval
  | 0x344 => some (rvMip s c)
  | 0xB00 | 0xC00 => some (lo (rvCycle s c))
  | 0xB80 | 0xC80 => some (hi (rvCycle s c))
  | 0xB02 | 0xC02 => some (lo k.minstret)
  | 0xB82 | 0xC82 => some (hi k.minstret)
  | 0xC01 => some (lo (BitVec.ofNat 64 (mtime s)))
  | 0xC81 => some (hi (BitVec.ofNat 64 (mtime s)))
  | 0xF11 | 0xF12 | 0xF15 => some 0
  | 0xF13 => some (s.gc.rev.setWidth 32)
  | 0xF14 => some (BitVec.ofNat 32 c.val)
  | _ =>
    if csrIn a 0x323 0x33F ∨ csrIn a 0xB03 0xB1F ∨ csrIn a 0xB83 0xB9F ∨ csrIn a 0xC03 0xC1F ∨ csrIn a 0xC83 0xC9F ∨
        csrIn a 0x3A0 0x3EF then some 0
    else none

/-- mstatus as written: MIE, MPIE, MPP (machine or user), MPRV and TW are held. -/
def mstatusOf (old v : Word) : Word :=
  let mpp := if bf v 11 2 = 3 then 3 else if bf v 11 2 = 0 then 0 else bf old 11 2
  (v &&& 0x00220088#32) ||| (BitVec.ofNat 32 mpp <<< 11)

/-- mtvec as written: in vectored mode BASE is a multiple of 128. -/
def mtvecOf (v : Word) : Word := if v.getLsbD 0 then (v &&& 0xFFFFFF80#32) ||| 1#32 else v &&& 0xFFFFFFFC#32

/-- A machine-mode register written; what is read-only or hard-wired ignores it.
Log entry 31 (PRESUMED, DEDUCED). -/
def csrWrite (s : State) (c : Core) (a : Nat) (v : Word) : State :=
  let m := fun (f : CoreRt → CoreRt) => modCore s c f
  match a with
  | 0x300 => m (fun k => { k with mstatus := mstatusOf k.mstatus v })
  | 0x304 => m (fun k => { k with mie := v &&& 0x888#32 })
  | 0x305 => m (fun k => { k with mtvec := mtvecOf v })
  | 0x306 => m (fun k => { k with mcounteren := v &&& 7#32 })
  | 0x320 =>
    let x := rvCycle s c
    rvSetCycle (m (fun k => { k with mcountinhibit := v &&& 5#32 })) c x
  | 0x340 => m (fun k => { k with mscratch := v })
  | 0x341 => m (fun k => { k with mepc := clrBit v 0 })
  | 0x342 => m (fun k => { k with mcause := v })
  | 0x343 => m (fun k => { k with mtval := v })
  | 0xB00 => rvSetCycle s c (setHalf64 (rvCycle s c) false v)
  | 0xB80 => rvSetCycle s c (setHalf64 (rvCycle s c) true v)
  | 0xB02 => m (fun k => { k with minstret := setHalf64 k.minstret false v })
  | 0xB82 => m (fun k => { k with minstret := setHalf64 k.minstret true v })
  | _ => s

/-- The mode admits the register: user mode has the counters that mcounteren opens. -/
def csrMay (k : CoreRt) (a : Nat) : Bool :=
  if !k.user then true else decide (a / 256 % 4 = 0) && k.mcounteren.getLsbD (a % 32)

/-- The CSR instructions. -/
def rvCsr (s : State) (c : Core) (pc : Word) (w : Word) : Option RvEnd :=
  let a := bf w 20 12
  let f3 := rvF3 w
  let x := if f3 ≥ 4 then BitVec.ofNat 32 (rvRs1 w) else rvGet s c (rvRs1 w)
  let writes : Bool := decide (f3 % 4 = 1) || decide (rvRs1 w ≠ 0)
  match csrRead s c a with
  | none => none
  | some old =>
    if !csrMay s.he.cores[c] a ∨ (writes ∧ a / 1024 = 3) then none
    else
      let v := match f3 % 4 with
        | 1 => x
        | 2 => old ||| x
        | _ => old &&& ~~~x
      let s := rvRetire (rvPut s c (rvRd w) old) c pc
      some (.done (if writes then csrWrite s c a v else s))

/-! Instructions. -/

/-- Debug mode is entered at an instruction boundary with a cause of the RISC-V debug specification (R334). -/
def enterDebug (s : State) (c : Core) (cause : Nat) : State :=
  modCore (osDequeue s (17 + c.val)) c (fun k => { k with
    dbg := true, dpc := k.pc, wfi := false, osWait := false, user := false
    dcsr := (k.dcsr &&& 0xFFFFFE3C#32) ||| pack [(0, if k.user then 0 else 3), (6, cause)] })

/-- MRET.
Log entry 31 (PRESUMED, DEDUCED). -/
def rvMret (s : State) (c : Core) : State :=
  let k := s.he.cores[c]
  let mpp := bf k.mstatus 11 2
  let ms := putBit k.mstatus 3 (k.mstatus.getLsbD 7)
  let ms := (setBit ms 7) &&& 0xFFFFE7FF#32
  let ms := if mpp = 3 then ms else clrBit ms 17
  modCore (rvRetire s c k.mepc) c (fun k => { k with mstatus := ms, user := decide (mpp = 0) })

/-- ECALL, EBREAK, MRET, WFI and the CSR instructions; none is an illegal instruction.
Log entry 31 (PRESUMED, DEDUCED). -/
def rvSystem (s : State) (c : Core) (pc : Word) (w : Word) : Option RvEnd :=
  let k := s.he.cores[c]
  if rvF3 w = 0 then
    if rvRd w ≠ 0 ∨ rvRs1 w ≠ 0 then none
    else match bf w 20 12 with
      | 0x000 => some (.trap (if k.user then 8 else 11) 0 s)
      | 0x001 =>
        if dbgOpen s ∧ k.dcsr.getLsbD (if k.user then 12 else 15) then some (.stall (enterDebug s c 1))
        else
          let f := Config.freeWord s.clk.free
          some (.trap 3 (if f.getLsbD 0 then k.pc else 0) (useFree s 1))
      | 0x302 => if k.user then none else some (.done (rvMret s c))
      | 0x105 =>
        if k.user ∧ k.mstatus.getLsbD 21 then none
        else
          let s := rvRetire s c pc
          some (.done (if (rvMip s c &&& k.mie) = 0 then modCore s c (fun x => { x with wfi := true }) else s))
      | _ => none
  else if rvF3 w = 4 then none
  else rvCsr s c pc w

/-- Sign-extend or zero-extend a loaded value by the load's code. -/
def rvExtend (f3 v : Nat) : Word :=
  match f3 with
  | 0 => (BitVec.ofNat 8 v).signExtend 32
  | 1 => (BitVec.ofNat 16 v).signExtend 32
  | _ => BitVec.ofNat 32 v

/-- The register-immediate instructions. -/
def rvOpImm (a w : Word) : Option Word :=
  let f3 := rvF3 w
  if f3 = 1 ∧ rvF7 w ≠ 0 then none
  else if f3 = 5 ∧ rvF7 w ≠ 0 ∧ rvF7 w ≠ 0x20 then none
  else if f3 = 1 ∨ f3 = 5 then some (rvAlu f3 (rvF7 w = 0x20) a (BitVec.ofNat 32 (rvRs2 w)))
  else some (rvAlu f3 false a (rvImmI w))

/-- The register-register instructions. -/
def rvOpReg (a b w : Word) : Option Word :=
  let f3 := rvF3 w
  match rvF7 w with
  | 0x00 => some (rvAlu f3 false a b)
  | 0x20 => if f3 = 0 ∨ f3 = 5 then some (rvAlu f3 true a b) else none
  | 0x01 => some (rvMulDiv f3 a b)
  | _ => none

/-- Execute a 32-bit instruction whose successor stands at `next`; none is an illegal instruction. -/
def rvRun (s : State) (c : Core) (os : OsAnswer) (next : Word) (w : Word) : Option RvEnd :=
  let pc := (s.he.cores[c]).pc
  let a := rvGet s c (rvRs1 w)
  let b := rvGet s c (rvRs2 w)
  let put := fun (v : Word) => RvEnd.done (rvRetire (rvPut s c (rvRd w) v) c next)
  match rvOp w with
  | 0x37 => some (put (rvImmU w))
  | 0x17 => some (put (pc + rvImmU w))
  | 0x6F => some (.done (rvRetire (rvPut s c (rvRd w) next) c (pc + rvImmJ w)))
  | 0x67 => if rvF3 w ≠ 0 then none else some (.done (rvRetire (rvPut s c (rvRd w) next) c (a + rvImmI w)))
  | 0x63 => (rvTaken (rvF3 w) a b).map (fun t => .done (rvRetire s c (if t then pc + rvImmB w else next)))
  | 0x03 =>
    if rvF3 w = 3 ∨ 5 < rvF3 w then none
    else some (rvLoad s c os (a + rvImmI w).toNat (2 ^ (rvF3 w % 4)) (fun v s =>
      .done (rvRetire (rvPut s c (rvRd w) (rvExtend (rvF3 w) v)) c next)))
  | 0x23 => if 2 < rvF3 w then none else some (rvStore s c next (a + rvImmS w).toNat (2 ^ rvF3 w) b)
  | 0x13 => (rvOpImm a w).map put
  | 0x33 => (rvOpReg a b w).map put
  | 0x0F =>
    if rvF3 w = 0 then some (.done (rvRetire s c next))
    else if rvF3 w = 1 then some (.done (modCore (rvRetire s c next) c (fun k => { k with fbuf := none })))
    else none
  | 0x2F => rvAtomic s c next w
  | 0x73 => rvSystem s c next w
  | _ => none

/-! Traps. -/

/-- The machine-mode trap: what the privileged specification saves, and the vector; the reservation clears (R235).
Log entry 31 (PRESUMED, DEDUCED). -/
def rvTrapEntry (s : State) (c : Core) (int : Bool) (cause : Nat) (tval : Word) : State :=
  modCore s c (fun k =>
    let ms := putBit k.mstatus 7 (k.mstatus.getLsbD 3)
    let ms := (clrBit ms 3 &&& 0xFFFFE7FF#32) ||| (if k.user then 0#32 else 0x1800#32)
    let base := k.mtvec &&& 0xFFFFFFFC#32
    { k with
      mepc := k.pc, mcause := BitVec.ofNat 32 (cause + if int then 2 ^ 31 else 0), mtval := tval, mstatus := ms
      user := false, reserve := none, wfi := false, osWait := false, atVector := true
      pc := if int && k.mtvec.getLsbD 0 then base + BitVec.ofNat 32 (4 * cause) else base })

/-- A synchronous exception: it stops a core that is NMI_ACTIVE (R265). -/
def rvException (s : State) (c : Core) (cause : Nat) (tval : Word) : State :=
  if (s.he.cores[c]).st = .nmi then
    modCore (nmiCauseBit s c 3) c (fun k => { k with st := .halted, osWait := false })
  else rvTrapEntry s c false cause tval

/-- An illegal instruction: mtval holds 0 or the instruction, which the specification leaves open.
Log entry 31 (PRESUMED, DEDUCED). -/
def rvIllegal (s : State) (c : Core) (bits : Word) : State :=
  let f := Config.freeWord s.clk.free
  rvException (useFree s 1) c 2 (if f.getLsbD 0 then bits else 0)

/-- A fetch fault: the first fetch of a trap handler makes a vector fault (R263). -/
def rvFetchFault (s : State) (c : Core) (f : MemFault) (va : Nat) : State :=
  let user := (s.he.cores[c]).user
  match memTrap s c user .fetch f va with
  | .trap cause tval s => if (s.he.cores[c]).atVector then nmiTrap s c 2 else rvException s c cause tval
  | .done s | .stall s => s

/-- How an instruction's end leaves the core. -/
def rvFinish (c : Core) : RvEnd → State
  | .done s | .stall s => s
  | .trap cause tval s => rvException s c cause tval

/-- Fetch and execute the instruction at the core's pc. -/
def rvInstr (s : State) (c : Core) (os : OsAnswer) : State :=
  let pc := (s.he.cores[c]).pc
  match fetchHalf s c pc.toNat with
  | (.error f, s) => rvFetchFault s c f pc.toNat
  | (.ok h, s) =>
    if h &&& 3#16 ≠ 3#16 then
      match expandC h with
      | some w =>
        (match rvRun s c os (pc + 2) w with
         | some e => rvFinish c e
         | none => rvIllegal s c (h.setWidth 32))
      | none => rvIllegal s c (h.setWidth 32)
    else
      let va := (pc + 2).toNat
      match fetchHalf s c va with
      | (.error f, s) => rvFetchFault s c f va
      | (.ok h2, s) =>
        let w : Word := h2 ++ h
        match rvRun s c os (pc + 4) w with
        | some e => rvFinish c e
        | none => rvIllegal s c w

/-- The interrupt the core takes at an instruction boundary, if one: external, software, timer (R259, R262, R264).
Log entry 32 (DESIGN CHOICE, DEDUCED). -/
def rvInterrupt (s : State) (c : Core) : Option Nat :=
  let k := s.he.cores[c]
  let p := rvMip s c &&& k.mie
  if k.st ≠ .running ∨ k.osWait ∨ !(k.user || k.mstatus.getLsbD 3) then none
  else if dbgOpen s ∧ k.dcsr.getLsbD 2 ∧ !k.dcsr.getLsbD 11 then none
  else if p.getLsbD 11 then some 11
  else if p.getLsbD 3 then some 3
  else if p.getLsbD 7 then some 7
  else none

/-- The tinder ROM's handler at its entry (R266): the hook is called with the cause in a0, or the core waits.
Log entry 32 (DESIGN CHOICE, DEDUCED). -/
def nmiHandler (s : State) (c : Core) : State :=
  let a := 4 * s.he.hookAddr.toNat
  if s.he.hookEn ∧ (ramAddr c a).isSome then
    modCore s c (fun k => { k with pc := BitVec.ofNat 32 a, regs := k.regs.set 10 ((s.he.nmiCause[c]).setWidth 32) })
  else s

/-- The core may run: RUNNING or NMI_ACTIVE, not in debug mode; core 0 runs kindling only once it has started (R405).
Log entry 32 (DESIGN CHOICE, DEDUCED). -/
def coreRuns (s : State) (c : Core) : Bool :=
  let k := s.he.cores[c]
  (decide (k.st = .running) || decide (k.st = .nmi)) && !k.dbg && (decide (c.val ≠ 0) || s.boot.kindling)

/-- A core's own-store read is no longer waiting.
Log entry 34 (DEDUCED, DESIGN CHOICE). -/
def osLeave (s : State) (c : Core) : State :=
  modCore (osDequeue s (17 + c.val)) c (fun k => { k with osWait := false })

/-- CORE_INSTRUCTION: an interrupt is taken, or one instruction runs; a core in WFI goes on where an enabled interrupt is
pending. `parity` is a byte of RAM whose parity has gone wrong before it.
Log entry 32 (DESIGN CHOICE, DEDUCED). -/
def coreInstr (s : State) (c : Core) (parity : Option Word) : State :=
  if !coreRuns s c then s
  else
    let s : State := match parity with
      | some a => (match ramAddr c a.toNat with | some r => ramSpoil s r | none => s)
      | none => s
    let k := s.he.cores[c]
    if k.wfi ∧ (rvMip s c &&& k.mie) = 0 then s
    else
      let s := modCore s c (fun x => { x with wfi := false })
      if k.osWait then (if osErasing s then rvInstr (osLeave s c) c .failed else s)
      else match rvInterrupt s c with
        | some i => rvTrapEntry s c true i 0
        | none =>
          if k.st = .nmi ∧ k.pc = 0x40 then nmiHandler s c
          else
            let t := rvInstr s c .ask
            if dbgOpen s ∧ k.dcsr.getLsbD 2 ∧ coreRuns t c ∧ !(t.he.cores[c]).osWait then enterDebug t c 4 else t

/-- OWN_STORE_WINDOW_READ: the access a core waits for returns, where it is its turn (R219, R241).
Log entry 34 (DEDUCED, DESIGN CHOICE). -/
def ownStoreRead (s : State) (c : Core) (failed : Bool) : State :=
  if !(s.he.cores[c]).osWait ∨ !coreRuns s c then s
  else if osErasing s then rvInstr (osLeave s c) c .failed
  else match osGrant s (17 + c.val) with
    | none => s
    | some s => rvInstr (osLeave s c) c (if failed then .failed else .good)

end Sys2Proof.Machine
end

