-- ==== Sys2Proof/Machine/Dma.lean ====
section
/-! DEFINITION. Job DMA on a mover: descriptors, their checks, beats, write-back, faults and pre-emption (R249-R256). -/

namespace Sys2Proof.Machine

/-- What a read of a job-DMA channel comes to: its bytes, a fault, or a wait for the own store. -/
inductive DmaIn where
  | ok (bs : List Byte) (s : State)
  | bad (code : Nat) (s : State)
  | wait (s : State)

/-- The queue of the own store that a channel's owner uses (R219). -/
def dmaQueue (d : DmaCh) : Nat := if d.owner.toNat < 64 then d.owner.toNat else 64

/-- Registers read one after another by job DMA, which reads as core 0 does: the words in order (R251).
Log entry 36 (DEDUCED, DESIGN CHOICE). -/
def dmaRegRead (fixed : Bool) : Nat → Nat → State → List Byte × State
  | 0, _, s => ([], s)
  | n + 1, a, s =>
    let ok := match windowOf a with | some (w, o) => readOk s (.core 0) w o | none => false
    let v := if ok then regRead s (.core 0) a else 0
    let s := if ok then regReadFx s (.core 0) (readFxOf s (.core 0) a) else s
    let (bs, s) := dmaRegRead fixed n (if fixed then a else a + 4) s
    (leBytes 4 v.toNat ++ bs, s)

/-- Registers written one after another by job DMA. -/
def beatRegs (fixed : Bool) : Nat → List Byte → State → State
  | a, b0 :: b1 :: b2 :: b3 :: bs, s =>
    beatRegs fixed (if fixed then a else a + 4) bs (regWrite s (.core 0) a (BitVec.ofNat 32 (leNat [b0, b1, b2, b3])))
  | _, _, s => s

/-- Read `n` bytes at a virtual address of a channel; `failed` where the own-store port fails the read. -/
def beatRead (s : State) (k : Fin 16) (va n : Nat) (fixed failed : Bool) : DmaIn :=
  match dmaTranslate s k .load va n with
  | (.error f, s) => .bad f.code (memParity s f)
  | (.ok pa, s) =>
    match rowOf pa with
    | some .rom => .ok ((List.range n).map (fun i => Config.romByte (pa + i))) s
    | some .regs =>
      if va % 4 ≠ 0 ∨ n % 4 ≠ 0 then .bad 5 s
      else
        let (bs, s) := dmaRegRead fixed (n / 4) (pa - 0x40000000) s
        .ok bs s
    | some .ownStore =>
      if osErasing s ∨ failed then .bad 9 (osDequeue s k.val)
      else
        let s := osAsk s k.val (dmaQueue s.he.dma[k]) n
        (match osGrant s k.val with
         | some s => .ok (memRead 0xFF s.os.mem (pa - 0x50000000) n) (osDequeue s k.val)
         | none => .wait s)
    | _ => if ramBad s pa n then .bad 4 (parityCount s) else .ok (ramRead s pa n) s

/-- Write bytes at a virtual address of a channel; the fault code, or none. -/
def dmaWrite (s : State) (k : Fin 16) (va : Nat) (fixed : Bool) (bs : List Byte) : Option Nat × State :=
  match dmaTranslate s k .store va bs.length with
  | (.error f, s) => (some f.code, memParity s f)
  | (.ok pa, s) =>
    if rowOf pa = some .regs then
      if va % 4 ≠ 0 then (some 5, s) else (none, beatRegs fixed (pa - 0x40000000) bs s)
    else (none, ramWrite s none pa bs)

/-! Descriptors (Table 8.5). -/

def dOp (d : Vector Word 8) : Nat := bf d[0] 0 4
def dLast (d : Vector Word 8) : Bool := d[0].getLsbD 4
def dIrq (d : Vector Word 8) : Bool := d[0].getLsbD 5
def dSfix (d : Vector Word 8) : Bool := d[0].getLsbD 6
def dDfix (d : Vector Word 8) : Bool := d[0].getLsbD 7
def dLen (d : Vector Word 8) : Nat := bf d[3] 0 24

/-- The channel leaves its mover with a fault; the next waiting channel gets it (R254).
Log entry 36 (DEDUCED, DESIGN CHOICE). -/
def dmaFault (s : State) (k : Fin 16) (code va : Nat) : State :=
  let s := modDma s k (fun d => { d with
    st := .faulted, code := BitVec.ofNat 4 code, faultProg := d.progress, fva := BitVec.ofNat 32 va, frame := none
    leftAt := s.clk.now })
  let s := { s with he := { s.he with dmaInt := setBit s.he.dmaInt (16 + k.val) } }
  dmaGrant 4 (dmaOffMover (dmaBillet s k .preempted) k)

/-- A virtual address lies in the register space, or the fault of asking. -/
def dmaInRegs (s : State) (k : Fin 16) (kind : MemKind) (va : Nat) : Except Nat Bool × State :=
  match dmaTranslate s k kind va 4 with
  | (.error f, s) => (.error f.code, memParity s f)
  | (.ok pa, s) => (.ok (decide (rowOf pa = some .regs)), s)

/-- One end of a transfer against R250: a fixed address must lie in the register space, whose addresses and lengths are
whole words. -/
def dmaEnd (s : State) (k : Fin 16) (kind : MemKind) (va len : Nat) (fixed : Bool) : Option (Nat × Nat) × State :=
  match dmaInRegs s k kind va with
  | (.error c, s) => (some (c, va), s)
  | (.ok regs, s) =>
    if fixed ∧ !regs then (some (7, (s.he.dma[k]).desc.toNat), s)
    else if regs ∧ (va % 4 ≠ 0 ∨ len % 4 ≠ 0) then (some (5, va), s)
    else (none, s)

/-- The fields that R250 checks without an address: DESC or LEN_ERR.
Log entry 36 (DEDUCED, DESIGN CHOICE). -/
def dmaFields (d : Vector Word 8) : Option Nat :=
  let op := dOp d
  let resv := bf d[0] 8 24 ≠ 0 ∨ bf d[3] 24 8 ≠ 0 ∨ d[7] ≠ 0 ∨
    (if op = 2 then bf d[1] 5 7 ≠ 0 ∨ bf d[4] 12 20 ≠ 0 else d[4] ≠ 0)
  if 3 ≤ op ∨ resv ∨ (!dLast d ∧ bf d[5] 0 5 ≠ 0) ∨ (dSfix d ∧ op ≠ 0) then some 7
  else if dLen d = 0 ∨ (op = 2 ∧ 4096 < bf d[4] 0 12 + dLen d) then some 8
  else none

/-- The checks of R250, before any byte moves: a fault code and address, or none.
Log entry 36 (DEDUCED, DESIGN CHOICE). -/
def dmaCheck (s : State) (k : Fin 16) (d : Vector Word 8) : Option (Nat × Nat) × State :=
  match dmaFields d with
  | some c => (some (c, (s.he.dma[k]).desc.toNat), s)
  | none =>
    let (e, s) := if dOp d = 0 then dmaEnd s k .load d[1].toNat (dLen d) (dSfix d) else (none, s)
    match e with
    | some x => (some x, s)
    | none => dmaEnd s k .store d[2].toNat (dLen d) (dDfix d)

/-- Length of the next beat: 64 bytes at most, within a 64-byte line of the source and of the destination (R251). -/
def dmaBeatLen (d : Vector Word 8) (p : Nat) : Nat :=
  let room := fun (fixed : Bool) (a : Nat) => if fixed then 64 else 64 - a % 64
  let src := match dOp d with
    | 0 => room (dSfix d) (d[1].toNat + p)
    | 2 => room false (bf d[4] 0 12 + p)
    | _ => 64
  min (min src (room (dDfix d) (d[2].toNat + p))) (dLen d - p)

/-- The frame of a virtual ember under a channel's bank map, as a host read would find it (R252). -/
def emberFrame (s : State) (c : Ch) (page : Nat) : Option (Nat × Frame) :=
  let k := s.ch[c]
  match governing k page with
  | some i =>
    if rgnOpen k.cfg.desc[i] then none
    else (emberAt k c i (rgnRd k.cfg.desc[i] = 3) (4096 * page)).bind (residentFrame s)
  | none => none

/-- A beat's bytes from an ember (R252): only from the frame the descriptor uses, which a change of it makes absent;
`bad` where its parity is found in error (R147).
Log entry 36 (DEDUCED, DESIGN CHOICE). -/
def dmaEmber (s : State) (k : Fin 16) (d : Vector Word 8) (p n : Nat) (bad : Bool) : DmaIn :=
  let lost : Bool := (s.he.dma[k]).frame.isSome && (s.he.dma[k]).spoilt
  match emberFrame s ⟨bf d[1] 0 5 % 32, Nat.mod_lt _ (by decide)⟩ (bf d[1] 12 20) with
  | none => .bad (if lost then 4 else 6) s
  | some (f, fr) =>
    if lost then .bad 4 s
    else if (s.he.dma[k]).frame.isSome ∧ (s.he.dma[k]).frame ≠ some f then .bad 6 s
    else if bad then .bad 4 (frameParity s f fr.id)
    else .ok (slice fr.data (bf d[4] 0 12 + p) n) (modDma s k (fun x => { x with frame := some f, spoilt := false }))

/-- A FILL pattern from byte `p` on. -/
def dmaPattern (v : Word) (p n : Nat) : List Byte := (List.range n).map (fun i => BitVec.ofNat 8 (bf v (8 * ((p + i) % 4)) 8))

/-- A beat's bytes, and the address a fault of reading them names. -/
def dmaFetch (s : State) (k : Fin 16) (d : Vector Word 8) (p n : Nat) (bad : Bool) : DmaIn × Nat :=
  match dOp d with
  | 0 =>
    let a := (d[1].toNat + if dSfix d then 0 else p) % 2 ^ 32
    (beatRead s k a n (dSfix d) bad, a)
  | 1 => (.ok (dmaPattern d[1] p n) s, 0)
  | _ => (dmaEmber s k d p n bad, d[1].toNat)

/-- The job's pre-emption by a waiting channel of higher effective priority, where this is the job to pre-empt (R253). -/
def dmaPreempt (s : State) (k : Fin 16) : State :=
  let on := fun (j : Fin 16) => s.he.movers.toList.findSome? (fun m => match m with
    | some (i, t) => if i = j then some t else none
    | none => none)
  let lower := fun (j : Fin 16) =>
    let a := (dmaPrio s.he.dma[j], (on k).getD 0)
    let b := (dmaPrio s.he.dma[k], (on j).getD 0)
    a.1 < b.1 || (a.1 = b.1 && a.2 < b.2)
  if (freeMover s).isSome then s
  else match dmaNext s with
    | none => s
    | some j =>
      if dmaPrio s.he.dma[j] ≤ dmaPrio s.he.dma[k] ∨ (List.finRange 16).any (fun i => i ≠ k && (on i).isSome && lower i) then s
      else
        let s := modDma s k (fun d => { d with st := .preempted, leftAt := s.clk.now })
        dmaGrant 4 (dmaOffMover (dmaBillet s k .preempted) k)

/-- The job retires: IDLE, END = DONE, its billet back (R256). -/
def dmaRetire (s : State) (k : Fin 16) : State :=
  let s := match (s.he.dma[k]).billet with | some id => retire s id | none => s
  let s := modDma s k (fun d => { d with
    st := .idle, ended := 1, billet := none, held := none, frame := none, progress := 0, aged := false })
  settleAll (dmaGrant 4 (dmaOffMover s k))

/-- A descriptor ends: WB is written, the interrupt is set, and the job retires or goes on at NEXT (R249, R256). -/
def dmaDescEnd (s : State) (k : Fin 16) (d : Vector Word 8) : State :=
  let a := ((s.he.dma[k]).desc.toNat + 24) % 2 ^ 32
  match dmaWrite s k a false (leBytes 4 (1 + 256 * dLen d)) with
  | (some c, s) => dmaFault s k c a
  | (none, s) =>
    let s := if dIrq d ∨ dLast d then { s with he := { s.he with dmaInt := setBit s.he.dmaInt k.val } } else s
    if dLast d then dmaRetire s k
    else dmaPreempt (modDma s k (fun x => { x with desc := d[5] &&& 0xFFFFFFE0#32, held := none, frame := none, progress := 0 })) k

/-- The channel still runs on a mover: a register it wrote may have ended its job. -/
def dmaOn (s : State) (k : Fin 16) : Bool := (s.he.dma[k]).st == .running

/-- A beat of a descriptor the channel holds; a job yields at the first beat's end at or past a multiple of 512 bytes (R253).
Log entry 36 (DEDUCED, DESIGN CHOICE). -/
def dmaMove (s : State) (k : Fin 16) (d : Vector Word 8) (bad : Bool) : State :=
  let p := (s.he.dma[k]).progress
  if dLen d ≤ p then dmaDescEnd s k d
  else
    let n := dmaBeatLen d p
    match dmaFetch s k d p n bad with
    | (.wait s, _) => s
    | (.bad c s, a) => dmaFault s k c a
    | (.ok bs s, _) =>
      let a := (d[2].toNat + if dDfix d then 0 else p) % 2 ^ 32
      match dmaWrite s k a (dDfix d) bs with
      | (some c, s) => dmaFault s k c a
      | (none, s) =>
        if !dmaOn s k then s
        else
          let s := modDma s k (fun x => { x with progress := p + n })
          if p + n = dLen d then dmaDescEnd s k d
          else if p / 512 < (p + n) / 512 then dmaPreempt s k else s

/-- The eight words of a descriptor's 32 bytes. -/
def descOf (bs : List Byte) : Vector Word 8 := Vector.ofFn (fun i => BitVec.ofNat 32 (leNat (slice bs (4 * i.val) 4)))

/-- DMA_BEAT: the channel on a mover reads and checks its descriptor where it holds none, then moves a beat. `parity`
says that what it reads has gone bad: a byte of hearth RAM, the ember's frame, or the own store's answer.
Log entry 36 (DEDUCED, DESIGN CHOICE). -/
def dmaBeat (s : State) (mv : Fin 4) (parity : Option Word) : State :=
  match s.he.movers[mv] with
  | none => s
  | some (k, _) =>
    let s := match parity with | some a => ramSpoil s a.toNat | none => s
    let bad := parity.isSome
    match (s.he.dma[k]).held with
    | some d => dmaMove s k d bad
    | none =>
      let a := (s.he.dma[k]).desc.toNat
      match beatRead s k a 32 false bad with
      | .wait s => s
      | .bad c s => dmaFault s k c a
      | .ok bs s =>
        let d := descOf bs
        match dmaCheck s k d with
        | (some (c, va), s) => dmaFault s k c va
        | (none, s) => dmaMove (modDma s k (fun x => { x with held := some d })) k d bad

/-- DMA_AGING: a channel that has waited 1 ms since it last left a mover takes effective priority 4 (R253). -/
def dmaAge (s : State) (k : Fin 16) : State :=
  let d := s.he.dma[k]
  if (d.st = .waiting ∨ d.st = .preempted) ∧ !d.aged then
    dmaGrant 4 (modDma (reachTime s (d.leftAt + msCyc 1)) k (fun d => { d with aged := true }))
  else s

end Sys2Proof.Machine
end

