-- ==== Sys2Proof/Machine/Portal.lean ====
section
/-! DEFINITION. Portal frames of the external masters, on MS0 and MS1 and on the I3C targets (R63-R67, R348, R494). -/

namespace Sys2Proof.Machine

/-- The offsets of a burst's words within the window its address names. -/
def burstOfs (o n : Nat) : List Nat := (List.range n).map (fun i => o + 4 * i)

/-- The registers a frame reaches are the master's: every instance register of the MB window, and every lock it reads, belongs to an
instance served on this master (R345, R347). -/
def burstMine (s : State) (x : Fin 6) (w o n : Nat) (write : Bool) : Bool :=
  decide (w ≠ 13) || ownsInst s (.ext x) (selOf s (.ext x)).inst ||
    (burstOfs o n).all (fun p =>
      (decide (0x800 ≤ p) && decide (p < 0x1000) && (write || decide (p < 0x840) || decide (0x880 ≤ p))) || decide (lastOfs w < p))

/-- The windows a selector serves (R498), for a register that is a selector. -/
def selServes (w o : Nat) : List Nat :=
  if w = 1 ∧ o = 0 then [1, 2]
  else if w = 3 ∧ o = 0x040 then [3]
  else if w = 4 ∧ o = 0x040 then [4]
  else if w = 7 ∧ o = 0 then [7, 13]
  else if w = 10 ∧ o = 0x010 then [10]
  else if w = 13 ∧ o = 0x880 then [13]
  else []

/-- A selector the master may write with either permission on a window it serves. -/
def selOpen (s : State) (x : Fin 6) (w o : Nat) : Bool :=
  (selServes w o).any (fun v => mayRead s (.ext x) v || mayWrite s (.ext x) v false)

/-- The status of a burst's header (R64): 0 OK, 2 ACCESS_ERR, 3 LEN_ERR.
Log entry 14 (DEDUCED, DESIGN CHOICE). -/
def burstCheck (s : State) (x : Fin 6) (f : PortalFrame) (write : Bool) : Nat :=
  match windowOf f.addr.toNat with
  | none => 2
  | some (w, o) =>
    let open_ := if write then mayWrite s (.ext x) w false || (burstOfs o f.count).all (selOpen s x w)
      else mayRead s (.ext x) w
    if f.addr.toNat % 4 ≠ 0 ∨ !open_ ∨ !burstMine s x w o (min f.count 1024) write then 2
    else if f.count = 0 ∨ 1024 < f.count then 3
    else 0

/-- The values of a read burst, 0xFFFFFFFF past the window's last register (R12, R494), and whether one lay there. -/
def burstRead (s : State) (x : Fin 6) (a o w n : Nat) : List Word × Bool :=
  ((List.range n).map (fun i => if o + 4 * i ≤ lastOfs w then regRead s (.ext x) (a + 4 * i) else 0xFFFFFFFF#32),
    decide (lastOfs w < o + 4 * (n - 1)))

/-- The side effects of reads, each with the value it returned, in order (R67).
Log entry 14 (DEDUCED, DESIGN CHOICE). -/
def readsFx (s : State) (x : Fin 6) (l : List ReadFx) : State := l.foldl (fun s e => regReadFx s (.ext x) e) s

/-- A frame's operation has completed with a status and words: the record of GC_PORTAL_STS and the reply. On I3C the reply
waits for its private read, and so do the read's side effects (R348).
Log entry 14 (DEDUCED, DESIGN CHOICE). -/
def portalReply (s : State) (x : Fin 6) (st : Nat) (ws : List Word) (fx : List ReadFx) : State :=
  let s := modPortal s x (fun p => { p with
    overrun := p.overrun || decide (st = 1), accessErr := p.accessErr || decide (st = 2), lenErr := p.lenErr || decide (st = 3)
    lastStatus := st, outStatus := st, outWords := ws })
  if h : 2 ≤ x.val then
    modI3c s ⟨x.val - 2, by omega⟩ (fun i => { i with
      reply := some (BitVec.ofNat 8 st :: (ws.map (fun w => beBytes 4 w.toNat)).flatten, s.clk.now), fx := fx, late := false })
  else readsFx s x fx

/-- An access the register space does not accept is reported to its requester (R5): a core takes an access fault with its
cause in HE_RU_FSTAT, an external master finds ACCESS_ERR.
Log entry 11 (DEDUCED). -/
def accessError (s : State) (m : Master) (a : Nat) (k : MemKind) : State :=
  match m with
  | .core c => rvFinish c (memTrap s c (s.he.cores[c]).user k (plainFault 5) (0x40000000 + a))
  | .ext x => modPortal s x (fun p => { p with accessErr := true, lastStatus := 2 })

/-- A register write by a requester: 32 bits wide, naturally aligned, and in a window open to it (R5, R64).
Log entry 11 (DEDUCED). -/
def writeCmd (s : State) (m : Master) (a : BitVec 24) (width : Nat) (v : Word) : State :=
  let ok : Bool := match m with
    | .core c => decide (a.toNat % 4 = 0) && regsReach (0x40000000 + a.toNat) (!(s.he.cores[c]).user)
    | .ext x => decide (burstCheck s x { addr := a, count := 1, words := [v] } true = 0)
  if width = 32 ∧ ok = true then regWrite s m a.toNat v else accessError s m a.toNat .store

/-- A register read by a requester, with its side effects (R5, R64, R500).
Log entry 11 (DEDUCED). -/
def readCmd (s : State) (m : Master) (a : BitVec 24) : State :=
  let ok : Bool := match m with
    | .core c => decide (a.toNat % 4 = 0) && regsReach (0x40000000 + a.toNat) (!(s.he.cores[c]).user)
    | .ext x => decide (burstCheck s x { addr := a, count := 1, words := [] } false = 0)
  if ok then readAt s m a.toNat else accessError s m a.toNat .load

/-- A requester's command on one register of the MB window: an external master's is rejected with ACCESS_ERR where its portal frame would
be (R345, R347).
Log entry 11 (DEDUCED). -/
def mbAccess (s : State) (m : Master) (o : Nat) (write : Bool) (f : State → State) : State :=
  match m with
  | .core _ => f s
  | .ext x =>
    if burstCheck s x { addr := BitVec.ofNat 24 (0xC0000 + o), count := 1, words := [] } write = 0 then f s
    else accessError s m (0xC0000 + o) (if write then .store else .load)

/-- PORTAL_READ_BURST.
Log entry 14 (DEDUCED, DESIGN CHOICE). -/
def portalRead (s : State) (x : Fin 6) (f : PortalFrame) : State :=
  let st := burstCheck s x f false
  if st ≠ 0 then portalReply s x st [] []
  else match windowOf f.addr.toNat with
    | none => s
    | some (w, o) =>
      let a := f.addr.toNat
      let (ws, over_) := burstRead s x a o w f.count
      portalReply s x (b2n over_) ws
        (((List.range f.count).filter (fun i => o + 4 * i ≤ lastOfs w)).map (fun i => readFxOf s (.ext x) (a + 4 * i)))

/-- The words of a write burst, in ascending order; words past the window's last register have no effect. -/
def burstWrite (s : State) (x : Fin 6) (w : Nat) : Nat → Nat → List Word → State
  | _, _, [] => s
  | a, o, v :: vs =>
    let s := if o ≤ lastOfs w then regWrite s (.ext x) a v else s
    burstWrite s x w (a + 4) (o + 4) vs

/-- A write burst applied where its header passes: the state and the status. -/
def portalApply (s : State) (x : Fin 6) (f : PortalFrame) : State × Nat :=
  let st := burstCheck s x f true
  if st ≠ 0 then (s, st)
  else match windowOf f.addr.toNat with
    | none => (s, st)
    | some (w, o) => (burstWrite s x w f.addr.toNat o (f.words.take f.count), st)

/-- PORTAL_WRITE_BURST: a frame without all its words is a frame error (R66).
Log entry 14 (DEDUCED, DESIGN CHOICE). -/
def portalWrite (s : State) (x : Fin 6) (f : PortalFrame) : State :=
  if f.words.length ≠ f.count then portalBad s x
  else
    let (s, st) := portalApply s x f
    portalReply s x st [] []

/-- PORTAL_READ_STATUS: this master's GC_PORTAL_STS at once (Table 2.10). -/
def portalStatus (s : State) (x : Fin 6) : State :=
  let v := portalSts s.gc.portals[x] x
  if h : 2 ≤ x.val then
    modI3c s ⟨x.val - 2, by omega⟩ (fun i => { i with
      reply := some (0 :: beBytes 4 v.toNat, s.clk.now), fx := [⟨0x100, v, x.val, false⟩], late := false })
  else regReadFx (modPortal s x (fun p => { p with outStatus := 0, outWords := [v] })) (.ext x) ⟨0x100, v, x.val, false⟩

/-- PORTAL_FRAME_ERROR (R66); after an unknown first byte the device sends 0x5C.
Log entry 14 (DEDUCED, DESIGN CHOICE). -/
def portalError (s : State) (x : Fin 6) (unknownFirst : Bool) : State :=
  let s := portalBad s x
  if unknownFirst then modPortal s x (fun p => { p with outStatus := 0x5C, outWords := [] }) else s

/-- PORTAL_BUSY_TIMEOUT: the frame ends with 0x5C; a read has no effect, a write is applied in full and its result recorded
(R65).
Log entry 14 (DEDUCED, DESIGN CHOICE). -/
def portalTimeout (s : State) (x : Fin 6) (f : PortalFrame) (isWrite : Bool) : State :=
  let end_ := fun (s : State) => modPortal s x (fun p => { p with busyTmo := true, outStatus := 0x5C, outWords := [] })
  if isWrite then
    if f.words.length ≠ f.count then portalBad s x
    else
      let (s, st) := portalApply s x f
      end_ (modPortal s x (fun p => { p with
        accessErr := p.accessErr || decide (st = 2), lenErr := p.lenErr || decide (st = 3), lastStatus := st }))
  else end_ s

/-- I3C_REPLY_READ: the reply is fetched, and the side effects of the read it answers take place (R67, R348).
Log entry 14 (DEDUCED, DESIGN CHOICE). -/
def i3cReplyRead (s : State) (p : Fin 4) : State :=
  let fx := (s.mb.i3c[p]).fx
  let s := i3cReply s p
  readsFx s ⟨p.val + 2, by omega⟩ fx

/-- MCTP_PACKET_READ: a pending portal reply is served before a pending packet (R349). -/
def i3cPacketRead (s : State) (p : Fin 4) : State :=
  if (s.mb.i3c[p]).reply.isSome then i3cReplyRead s p else mctpRead s p

end Sys2Proof.Machine
end

