-- ==== Sys2Proof/Machine/Debug.lean ====
section
/-! DEFINITION. The TAP and the debug module (R334): halting and resuming cores, abstract register access and system-bus
access, by the RISC-V debug specification. -/

namespace Sys2Proof.Machine

/-- TAP_INSTRUCTION: an instruction the state does not offer selects BYPASS, all ones. The debug transport's codes are those
of the RISC-V debug specification. -/
def tapSelect (s : State) (ir : BitVec 5) : State :=
  let offered := decide (ir = Config.tapSample) ||
    (dbgOpen s && (decide (ir = Config.tapExtest) || decide (ir = 0x10) || decide (ir = 0x11))) ||
    (factoryOpen s && Config.tapFactory ir)
  { s with lc := { s.lc with tapIr := if offered then ir else 0x1F } }

/-- The selected core is halted for the debugger; one that has not started, or has stopped for good, is unavailable. -/
def dmHalted (s : State) : Bool := (s.he.cores[s.lc.dmSel]).dbg
def dmAvail (s : State) : Bool :=
  match (s.he.cores[s.lc.dmSel]).st with
  | .running | .nmi => true
  | _ => false

/-- dmstatus for the one core selected. -/
def dmStatus (s : State) : Word :=
  let b := fun (x : Bool) => 3 * b2n x
  let c := s.lc.dmSel.val
  pack [(0, 3), (7, 1), (8, b (dmHalted s)), (10, b (dmAvail s && !dmHalted s)), (12, b (!dmAvail s)),
    (16, b (s.lc.dmResumeAck.getLsbD c)), (18, b (s.lc.dmHaveReset.getLsbD c))]

/-- A debug-module register read. -/
def dmRead (s : State) (a : Nat) : Word :=
  match a with
  | 0x04 => s.lc.dmData[0]
  | 0x05 => s.lc.dmData[1]
  | 0x10 => pack [(0, b2n s.lc.dmActive), (16, s.lc.dmSel.val)]
  | 0x11 => dmStatus s
  | 0x16 => pack [(0, 2), (8, s.lc.dmErr.toNat)]
  | 0x38 => s.lc.sbcs ||| 0x20000407#32
  | 0x39 => s.lc.sbAddr
  | 0x3C => s.lc.sbData
  | 0x40 => pack ((List.finRange 4).map (fun c => (c.val, b2n (s.he.cores[c]).dbg)))
  | _ => 0

/-- Set the error of the last abstract command. -/
def dmFail (s : State) (e : BitVec 3) : State := { s with lc := { s.lc with dmErr := e } }

/-- Resume the selected core at dpc, in the mode of dcsr.prv. -/
def dmResume (s : State) : State :=
  let c := s.lc.dmSel
  let s := { s with lc := { s.lc with dmResumeAck := setBit s.lc.dmResumeAck c.val } }
  modCore s c (fun k => { k with dbg := false, pc := clrBit k.dpc 0, user := decide (bf k.dcsr 0 2 = 0) })

/-- dmcontrol written: the core is selected, then halted or resumed. -/
def dmControl (s : State) (v : Word) : State :=
  if !v.getLsbD 0 then
    { s with lc := { s.lc with
      dmActive := false, dmSel := 0, dmErr := 0, sbcs := 0x00040000#32, sbAddr := 0, sbData := 0
      dmData := Vector.replicate 2 0 } }
  else
    let s := { s with lc := { s.lc with dmActive := true, dmSel := Fin.ofNat 4 (bf v 16 2) } }
    let c := s.lc.dmSel
    let s := if v.getLsbD 28 then { s with lc := { s.lc with dmHaveReset := clrBit s.lc.dmHaveReset c.val } } else s
    if v.getLsbD 31 then (if dmAvail s && !dmHalted s then enterDebug s c 3 else s)
    else if v.getLsbD 30 then
      let s := { s with lc := { s.lc with dmResumeAck := clrBit s.lc.dmResumeAck c.val } }
      if dmHalted s then dmResume s else s
    else s

/-- A register of the halted core by its abstract number: the machine-mode registers, dcsr and dpc, then x0-x31. -/
def dmRegRead (s : State) (n : Nat) : Option Word :=
  let c := s.lc.dmSel
  let k := s.he.cores[c]
  if n = 0x7B0 then some k.dcsr
  else if n = 0x7B1 then some k.dpc
  else if n < 0x1000 then csrRead s c n
  else if n < 0x1020 then some (rvGet s c (n - 0x1000))
  else none

/-- Write it; dcsr holds EBREAKM, EBREAKU, STEPIE, STEP and PRV. -/
def dmRegWrite (s : State) (n : Nat) (v : Word) : State :=
  let c := s.lc.dmSel
  if n = 0x7B0 then
    let prv := if bf v 0 2 = 0 then 0#32 else 3#32
    modCore s c (fun k => { k with dcsr := (k.dcsr &&& 0xFFFF67F8#32) ||| (v &&& 0x00009804#32) ||| prv })
  else if n = 0x7B1 then modCore s c (fun k => { k with dpc := clrBit v 0 })
  else if n < 0x1000 then csrWrite s c n v
  else rvPut s c (n - 0x1000) v

/-- An abstract command: Access Register of 32 bits on a halted core; every other is not supported. -/
def dmCommand (s : State) (v : Word) : State :=
  if s.lc.dmErr ≠ 0 then s
  else if bf v 24 8 ≠ 0 ∨ v.getLsbD 18 ∨ v.getLsbD 19 ∨ (v.getLsbD 17 ∧ bf v 20 3 ≠ 2) then dmFail s 2
  else if !dmHalted s then dmFail s 4
  else if !v.getLsbD 17 then s
  else
    let n := bf v 0 16
    match dmRegRead s n with
    | none => dmFail s 3
    | some x =>
      if v.getLsbD 16 then
        if within12 n then dmFail s 3 else dmRegWrite s n s.lc.dmData[0]
      else { s with lc := { s.lc with dmData := s.lc.dmData.set 0 x } }
where
  /-- A read-only machine-mode register. -/
  within12 (n : Nat) : Bool := decide (n < 0x1000) && decide (n / 1024 = 3)

/-! System-bus access: as core 0 in machine mode (R334). -/

/-- Size of an access in bytes by sbaccess, where it is supported. -/
def sbSize (s : State) : Option Nat :=
  match bf s.lc.sbcs 17 3 with
  | 0 => some 1
  | 1 => some 2
  | 2 => some 4
  | _ => none

/-- sberror: 2 bad address, 3 misaligned, 4 size, 7 other. -/
def sbFail (s : State) (e : Nat) : State :=
  { s with lc := { s.lc with sbcs := (s.lc.sbcs &&& 0xFFFF8FFF#32) ||| pack [(12, e)] } }

/-- The address after an access, where autoincrement is on. -/
def sbNext (s : State) (n : Nat) : State :=
  if s.lc.sbcs.getLsbD 16 then { s with lc := { s.lc with sbAddr := s.lc.sbAddr + BitVec.ofNat 32 n } } else s

/-- Bytes a system-bus read returns; an own-store read is answered at once. -/
def sbBytes (s : State) (pa n : Nat) : Option (List Byte × State) :=
  match rowOf pa with
  | some .regs =>
    let o := pa - 0x40000000
    some (leBytes 4 (regRead s (.core 0) o).toNat, regReadFx s (.core 0) (readFxOf s (.core 0) o))
  | some .otp => some ((List.range n).map (fun i => otpShadow s (pa - 0x60000000 + i)), s)
  | some .ownStore => if osErasing s then none else some (memRead 0xFF s.os.mem (pa - 0x50000000) n, s)
  | _ => if codeBad s 0 pa n then none else some (codeBytes s 0 pa n, s)

/-- A system-bus read into sbdata0. -/
def sbRead (s : State) : State :=
  if bf s.lc.sbcs 12 3 ≠ 0 then s
  else match sbSize s with
    | none => sbFail s 4
    | some n =>
      let a := s.lc.sbAddr.toNat
      if a % n ≠ 0 then sbFail s 3
      else if !coreMay false .load a n then sbFail s 2
      else match sbBytes s a n with
        | none => sbFail s 7
        | some (bs, s) => sbNext { s with lc := { s.lc with sbData := BitVec.ofNat 32 (leNat bs) } } n

/-- A system-bus write of sbdata0. -/
def sbWrite (s : State) : State :=
  if bf s.lc.sbcs 12 3 ≠ 0 then s
  else match sbSize s with
    | none => sbFail s 4
    | some n =>
      let a := s.lc.sbAddr.toNat
      let v := s.lc.sbData
      if a % n ≠ 0 then sbFail s 3
      else if !coreMay false .store a n then sbFail s 2
      else
        let s := sbNext s n
        match ramAddr 0 a with
        | some r => ramWrite s none r (leBytes n v.toNat)
        | none => regWrite s (.core 0) (a - 0x40000000) v

/-- sbcs written: error bits clear by 1, the modes are set. -/
def sbControl (s : State) (v : Word) : State :=
  { s with lc := { s.lc with sbcs := (v &&& 0x001F8000#32) ||| (s.lc.sbcs &&& ~~~v &&& 0x00407000#32) } }

/-- A debug-module register written. -/
def dmWrite (s : State) (a : Nat) (v : Word) : State :=
  if a = 0x10 then dmControl s v
  else if !s.lc.dmActive then s
  else match a with
    | 0x04 => { s with lc := { s.lc with dmData := s.lc.dmData.set 0 v } }
    | 0x05 => { s with lc := { s.lc with dmData := s.lc.dmData.set 1 v } }
    | 0x16 => { s with lc := { s.lc with dmErr := s.lc.dmErr &&& ~~~(BitVec.ofNat 3 (bf v 8 3)) } }
    | 0x17 => dmCommand s v
    | 0x38 => sbControl s v
    | 0x39 =>
      let s := { s with lc := { s.lc with sbAddr := v } }
      if s.lc.sbcs.getLsbD 20 then sbRead s else s
    | 0x3C => sbWrite { s with lc := { s.lc with sbData := v } }
    | _ => s

/-- DEBUG_ACCESS (R334): only while debug is open and the TAP's instruction is dmi, which otherwise selects BYPASS. -/
def debugAccess (s : State) (a : DebugOp) : State :=
  if !dbgOpen s ∨ s.lc.tapIr ≠ 0x11 then s
  else match a with
    | .dmiRead r =>
      let s' := { s with lc := { s.lc with dmiOut := dmRead s r.toNat } }
      if r = 0x3C ∧ s.lc.sbcs.getLsbD 15 ∧ s.lc.dmActive then sbRead s' else s'
    | .dmiWrite r v => dmWrite s r.toNat v

end Sys2Proof.Machine
end

