-- ==== Sys2Proof/Machine/CmdBase.lean ====
section
/-! DEFINITION. What several families of commands share: idle gating, and how many engines are online. -/

namespace Sys2Proof.Machine

/-- Hash and AES engines online (R118). -/
def engCount (s : State) : Nat :=
  (allEng.filter (fun e => s.ve.engOnline.getLsbD e.val)).length + (([0, 1] : List Nat).filter (fun e => s.ve.aesOnline.getLsbD e)).length

/-- The LMS sequencer works: a vault operation signs, a response or a snapshot waits for its signature, or trees are being
generated. -/
def lmsWorks (s : State) : Bool :=
  allCores.any (fun c => match (s.kv.cmd[c]).run with
    | some r => r.taken && !r.waits && (r.op == 13 || r.op == 14)
    | none => false) ||
  s.mb.box.toList.any (fun b => b.work.isSome) ||
  s.bt.units.any (fun e => match e.2.work with
    | .tree _ | .sign _ => true
    | _ => false)

/-- A unit idle for 10 us enters GATED; a core is gated while in WFI, and needs no command for it (R292, Table 9.8).
Log entry 38 (DEDUCED). -/
def gateUnit (s : State) : IdleUnit → State
  | .hash e => if (s.ve.engines[e]).isSome then s else { s with pd := { s.pd with gatedHash := setBit s.pd.gatedHash e.val } }
  | .aes e => if (s.kv.aes[e]).isSome then s else { s with pd := { s.pd with gatedAes := setBit s.pd.gatedAes e.val } }
  | .lms => if lmsWorks s then s else { s with pd := { s.pd with gatedLms := true } }
  | .core _ => s

/-- Several channels in turn: a register write with CH_SEL.BCAST reaches every channel (R69). -/
def eachTarget (s : State) (m : Master) (f : State → Ch → State) : State := (chTargets s m).foldl f s

end Sys2Proof.Machine
end

