-- ==== Sys2Proof/Machine/CmdCache.lean ====
section
/-! DEFINITION. The ember cache: bank sets, traces, adaptation (R151-R173). One meaning for each command, over the shared operations. -/

namespace Sys2Proof.Machine

/-- FLIP_REQ (R152). -/
def execFlipReq (m : Master) (s : State) : Host.Outcome State Fault Refusal :=
  .next (onLive s fun s => wr s m 4 false fun s => Sys2Proof.Machine.flipReq s m)

/-- FLIP_CANCEL (R152). -/
def execFlipCancel (m : Master) (s : State) : Host.Outcome State Fault Refusal :=
  .next (onLive s fun s => wr s m 4 false fun s => Sys2Proof.Machine.flipCancel s m)

/-- GOLD_CLEAR (R154). -/
def execGoldClear (m : Master) (s : State) : Host.Outcome State Fault Refusal :=
  .next (onLive s fun s => wr s m 4 false fun s => Sys2Proof.Machine.goldClear s m)

/-- STAGE_LOCK_SET (R156). -/
def execStageLockSet (m : Master) (s : State) : Host.Outcome State Fault Refusal :=
  .next (onLive s fun s => wr s m 4 false fun s => stageLock s m true)

/-- STAGE_LOCK_CLR (R156). -/
def execStageLockClr (m : Master) (s : State) : Host.Outcome State Fault Refusal :=
  .next (onLive s fun s => wr s m 4 false fun s => stageLock s m false)

/-- FLIP_HOLD_CLEAR (R153). -/
def execFlipHoldClear (m : Master) (v : Word) (s : State) : Host.Outcome State Fault Refusal :=
  .next (onLive s fun s => wr s m 4 true fun s => flipHoldWrite s v)

/-- BSET_MAP_WRITE (R151). -/
def execBsetMapWrite (m : Master) (v : Word) (s : State) : Host.Outcome State Fault Refusal :=
  .next (onLive s fun s => wr s m 4 false fun s => Sys2Proof.Machine.bsetMapWrite s m v)

/-- TRACE_WINDOW_EXPIRY (R158). -/
def execTraceWindowExpiry (c : Ch) (s : State) : Host.Outcome State Fault Refusal :=
  .next (onLive s fun s => traceExpiry s c)

/-- TRACE_JOURNAL_WRITE (R159). -/
def execTraceJournalWrite (c : Ch) (s : State) : Host.Outcome State Fault Refusal :=
  .next (onLive s fun s => settleAll (journalWrite s c))

/-- ADAPTATION_PASS (R166-R170). -/
def execAdaptationPass (s : State) : Host.Outcome State Fault Refusal :=
  .next (onLive s fun s => settleAll (adaptPass s))

end Sys2Proof.Machine
end

