-- ==== Sys2Proof/Machine/CmdFabric.lean ====
section
/-! DEFINITION. Flues, the pair link and the fabric (R369-R395, R413, R422). One meaning for each command, over the shared operations. -/

namespace Sys2Proof.Machine

/-- FLUE_SYMBOL_LOCK (R370). -/
def execFlueSymbolLock (f : Link) (s : State) : Host.Outcome State Fault Refusal :=
  .next (onLive s fun s => symbolLock s f)

/-- FLUE_TRAINED (R370). -/
def execFlueTrained (f : Link) (swap : Bool) (pol : BitVec 2) (s : State) : Host.Outcome State Fault Refusal :=
  .next (onLive s fun s => trained s f swap pol)

/-- TRAINING_TIMEOUT (R370). -/
def execTrainingTimeout (f : Link) (s : State) : Host.Outcome State Fault Refusal :=
  .next (onLive s fun s => trainTimeout s f)

/-- FLUE_RETRY (R370). -/
def execFlueRetry (f : Link) (s : State) : Host.Outcome State Fault Refusal :=
  .next (onLive s fun s => linkRetry s f)

/-- LINK_RX (R371). -/
def execLinkRx (f : Link) (arg : Word) (s : State) : Host.Outcome State Fault Refusal :=
  .next (onLive s fun s => Sys2Proof.Machine.linkRx s f arg)

/-- LINK_ACK_TIMER (R371). -/
def execLinkAckTimer (f : Link) (s : State) : Host.Outcome State Fault Refusal :=
  .next (onLive s fun s => linkAck s f)

/-- REPLAY_TIMEOUT (R371). -/
def execReplayTimeout (f : Link) (s : State) : Host.Outcome State Fault Refusal :=
  .next (onLive s fun s => Sys2Proof.Machine.replayTimeout s f)

/-- BAD_FRAME_RX (R374). -/
def execBadFrameRx (f : Link) (k : BadFrame) (s : State) : Host.Outcome State Fault Refusal :=
  .next (onLive s fun s => badFrame s f k)

/-- SYMBOL_LOCK_LOSS (R370). -/
def execSymbolLockLoss (l : Link) (s : State) : Host.Outcome State Fault Refusal :=
  .next (onLive s fun s => lockLoss s l)

/-- HELLO_RX (R376). -/
def execHelloRx (f : Flue) (fr : FabFrame) (s : State) : Host.Outcome State Fault Refusal :=
  .next (onLive s fun s => Sys2Proof.Machine.helloRx s f fr)

/-- HELLO_TIMER (R376). -/
def execHelloTimer (f : Flue) (s : State) : Host.Outcome State Fault Refusal :=
  .next (onLive s fun s => Sys2Proof.Machine.helloTimer s f)

/-- HELLO_LOSS (R376). -/
def execHelloLoss (f : Flue) (s : State) : Host.Outcome State Fault Refusal :=
  .next (onLive s fun s => Sys2Proof.Machine.helloLoss s f)

/-- TOPO_RX (R377). -/
def execTopoRx (f : Flue) (fr : FabFrame) (s : State) : Host.Outcome State Fault Refusal :=
  .next (onLive s fun s => Sys2Proof.Machine.topoRx s f fr)

/-- TOPO_TIMER (R377). -/
def execTopoTimer (s : State) : Host.Outcome State Fault Refusal :=
  .next (onLive s fun s => Sys2Proof.Machine.topoTimer s)

/-- TOPO_ENTRY_AGE (R377). -/
def execTopoEntryAge (s : State) : Host.Outcome State Fault Refusal :=
  .next (onLive s fun s => topoAge s)

/-- SETTLE (R379). -/
def execSettle (s : State) : Host.Outcome State Fault Refusal :=
  .next (onLive s fun s => settleTopo s)

/-- ASSIGN_RX (R378). -/
def execAssignRx (f : Flue) (fr : FabFrame) (s : State) : Host.Outcome State Fault Refusal :=
  .next (onLive s fun s => Sys2Proof.Machine.assignRx s f fr)

/-- REDISCOVER (R377). -/
def execRediscover (m : Master) (s : State) : Host.Outcome State Fault Refusal :=
  .next (onLive s fun s => Sys2Proof.Machine.rediscover s m)

/-- FRAME_FORWARD (R379). -/
def execFrameForward (f : Flue) (fr : FabFrame) (s : State) : Host.Outcome State Fault Refusal :=
  .next (onLive s fun s => forwardFrame s f fr)

/-- MSG_RX (R383). -/
def execMsgRx (f : Flue) (fr : FabFrame) (s : State) : Host.Outcome State Fault Refusal :=
  .next (onLive s fun s => Sys2Proof.Machine.msgRx s f fr)

/-- BULKSEG_RX (R383). -/
def execBulksegRx (f : Flue) (fr : FabFrame) (s : State) : Host.Outcome State Fault Refusal :=
  .next (onLive s fun s => Sys2Proof.Machine.bulksegRx s f fr)

/-- DLV_RX (R383). -/
def execDlvRx (f : Flue) (fr : FabFrame) (s : State) : Host.Outcome State Fault Refusal :=
  .next (onLive s fun s => Sys2Proof.Machine.dlvRx s f fr)

/-- PEER_RESEND (R383). -/
def execPeerResend (n : Inst) (s : State) : Host.Outcome State Fault Refusal :=
  .next (onLive s fun s => Sys2Proof.Machine.peerResend s n)

/-- PEER_SEND (R383). -/
def execPeerSend (n : Inst) (s : State) : Host.Outcome State Fault Refusal :=
  .next (onLive s fun s => Sys2Proof.Machine.peerSend s n)

/-- BCAST_GO (R386). -/
def execBcastGo (m : Master) (s : State) : Host.Outcome State Fault Refusal :=
  .next (onLive s fun s => Sys2Proof.Machine.bcastGo s m)

/-- BCAST_RX (R386). -/
def execBcastRx (f : Flue) (fr : FabFrame) (s : State) : Host.Outcome State Fault Refusal :=
  .next (onLive s fun s => Sys2Proof.Machine.bcastRx s f fr)

/-- ARRIVE (R387). -/
def execArrive (m : Master) (s : State) : Host.Outcome State Fault Refusal :=
  .next (onLive s fun s => Sys2Proof.Machine.arrive s m)

/-- ARRIVE_RX (R387). -/
def execArriveRx (f : Flue) (fr : FabFrame) (s : State) : Host.Outcome State Fault Refusal :=
  .next (onLive s fun s => Sys2Proof.Machine.arriveRx s f fr)

/-- RELEASE_RX (R387). -/
def execReleaseRx (f : Flue) (fr : FabFrame) (s : State) : Host.Outcome State Fault Refusal :=
  .next (onLive s fun s => Sys2Proof.Machine.releaseRx s f fr)

/-- SNAPSHOT_START (R388). -/
def execSnapshotStart (m : Master) (s : State) : Host.Outcome State Fault Refusal :=
  .next (onLive s fun s => snapStart s m)

/-- MARKER_RX (R388). -/
def execMarkerRx (f : Flue) (fr : FabFrame) (s : State) : Host.Outcome State Fault Refusal :=
  .next (onLive s fun s => Sys2Proof.Machine.markerRx s f fr)

/-- CLOSE_RX (R388). -/
def execCloseRx (f : Flue) (fr : FabFrame) (s : State) : Host.Outcome State Fault Refusal :=
  .next (onLive s fun s => Sys2Proof.Machine.closeRx s f fr)

/-- CLOSE_TIMEOUT (R388). -/
def execCloseTimeout (s : State) : Host.Outcome State Fault Refusal :=
  .next (onLive s fun s => Sys2Proof.Machine.closeTimeout s)

/-- SNAPSHOT_RECORD_SEND (R388). -/
def execSnapshotRecordSend (s : State) : Host.Outcome State Fault Refusal :=
  .next (onLive s fun s => settleAll (snapSend s))

/-- SNAPREC_RX (R390). -/
def execSnaprecRx (f : Flue) (fr : FabFrame) (s : State) : Host.Outcome State Fault Refusal :=
  .next (onLive s fun s => Sys2Proof.Machine.snaprecRx s f fr)

/-- COLLECTION_DEADLINE (R390). -/
def execCollectionDeadline (s : State) : Host.Outcome State Fault Refusal :=
  .next (onLive s fun s => collectEnd s)

/-- QUOTE_READY (R390). -/
def execQuoteReady (s : State) : Host.Outcome State Fault Refusal :=
  .next (onLive s fun s => settleAll (Sys2Proof.Machine.quoteReady s))

/-- FRESET (R392). -/
def execFreset (m : Master) (s : State) : Host.Outcome State Fault Refusal :=
  .next (onLive s fun s => Sys2Proof.Machine.freset s m)

/-- RESET_FRAME_RX (R392). -/
def execResetFrameRx (f : Flue) (fr : FabFrame) (s : State) : Host.Outcome State Fault Refusal :=
  .next (onLive s fun s => resetRx s f fr)

/-- RELAY_FRAME_RX (R393). -/
def execRelayFrameRx (f : Flue) (fr : FabFrame) (s : State) : Host.Outcome State Fault Refusal :=
  .next (onLive s fun s => relayRx s f fr)

/-- RELAY_FRAME_QUEUE (R413). -/
def execRelayFrameQueue (m : Master) (v : Word) (s : State) : Host.Outcome State Fault Refusal :=
  .next (onLive s fun s => relayQueue s m v)

/-- SERVE_WRITE (R422). -/
def execServeWrite (m : Master) (v : Word) (s : State) : Host.Outcome State Fault Refusal :=
  .next (onLive s fun s => Sys2Proof.Machine.serveWrite s m v)

/-- RECOVERY_SEG_RX (R422). -/
def execRecoverySegRx (fr : FabFrame) (s : State) : Host.Outcome State Fault Refusal :=
  .next (onLive s fun s => recoverySeg s fr)

end Sys2Proof.Machine
end

