-- ==== Sys2Proof/Machine/CmdFlash.lean ====
section
/-! DEFINITION. The flash-side ports: grants, fills, committed writes, raw transfers (R59-R62, R91, R140, R217). One meaning for each command, over the shared operations. -/

namespace Sys2Proof.Machine

/-- FLASH_ACCESS_GRANT (R217); a banked unit follows the access it samples (R223). -/
def execFlashAccessGrant (g : PortGrant) (s : State) : Host.Outcome State Fault Refusal :=
  .next (onLive s fun s => portServe s g.port g.seen)

/-- FILL_COMPLETE (R140). -/
def execFillComplete (p : Ch) (data : List Byte) (s : State) : Host.Outcome State Fault Refusal :=
  .next (onLive s fun s => settleAll (Sys2Proof.Machine.fillComplete s p data))

/-- WRITE_EXECUTE (R91). -/
def execWriteExecute (p : Ch) (s : State) : Host.Outcome State Fault Refusal :=
  .next (onLive s fun s => settleAll (Sys2Proof.Machine.writeExecute s p))

/-- STATUS_POLL (R91). -/
def execStatusPoll (p : Ch) (status : Byte) (s : State) : Host.Outcome State Fault Refusal :=
  .next (onLive s fun s => settleAll (Sys2Proof.Machine.statusPoll s p status))

/-- OWN_REQ (R60), on every channel the write reaches (R69). -/
def execOwnReq (m : Master) (v : Bool) (s : State) : Host.Outcome State Fault Refusal :=
  .next (onLive s fun s => wr s m 1 false fun s => settleAll (eachTarget s m (fun s c => ownReqAt s c v)))

/-- RAW_OWNERSHIP_GRANT (R60). -/
def execRawOwnershipGrant (p : Ch) (s : State) : Host.Outcome State Fault Refusal :=
  .next (onLive s fun s => settleAll (rawGrant s p))

/-- RAW_START (R61). -/
def execRawStart (m : Master) (s : State) : Host.Outcome State Fault Refusal :=
  .next (onLive s fun s => wr s m 1 false fun s => eachTarget s m rawStartAt)

/-- RAW_ABORT (R62). -/
def execRawAbort (m : Master) (edges : Nat) (bits : List Bool) (s : State) : Host.Outcome State Fault Refusal :=
  .next (onLive s fun s => wr s m 1 false fun s => eachTarget s m (fun s c => rawAbortAt s c edges bits))

/-- RAW_TRANSFER_END (R61). -/
def execRawTransferEnd (p : Ch) (bits : List Bool) (s : State) : Host.Outcome State Fault Refusal :=
  .next (onLive s fun s => rawEnd s p bits)

end Sys2Proof.Machine
end

