-- ==== Sys2Proof/Machine/CmdGrate.lean ====
section
/-! DEFINITION. The grate: escalation, adjustable descriptors, log drain (R81, R82, R92-R97, R219). One meaning for each command, over the shared operations. -/

namespace Sys2Proof.Machine

/-- ESC_HOLD_EXPIRY (R92). -/
def execEscHoldExpiry (c : Ch) (s : State) : Host.Outcome State Fault Refusal :=
  .next (onLive s fun s => settleAll (escExpire s c))

/-- ESC_RELEASE (R93). -/
def execEscRelease (m : Master) (s : State) : Host.Outcome State Fault Refusal :=
  .next (onLive s fun s => wr s m 2 true fun s => settleAll (eachTarget s m (fun s c => Sys2Proof.Machine.escRelease s c)))

/-- RGN_ACT_WRITE (R81). -/
def execRgnActWrite (m : Master) (i : Fin 64) (v : Word) (s : State) : Host.Outcome State Fault Refusal :=
  .next (onLive s fun s => wr s m 2 false fun s => settleAll (eachTarget s m (fun s c => rgnActAt s c i v)))

/-- SUBST_CLEAR (R82). -/
def execSubstClear (m : Master) (hi : Bool) (v : Word) (s : State) : Host.Outcome State Fault Refusal :=
  .next (onLive s fun s => wr s m 2 true fun s => settleAll (eachTarget s m (fun s c => substClearAt s c hi v)))

/-- LOG_DRAIN (R219). -/
def execLogDrain (failed : Bool) (s : State) : Host.Outcome State Fault Refusal :=
  .next (onLive s fun s => settleAll (Sys2Proof.Machine.logDrain s failed))

end Sys2Proof.Machine
end

