-- ==== Sys2Proof/Machine/CmdHearth.lean ====
section
/-! DEFINITION. The hearth: cores, region unit, job DMA, interrupts, debug (R234-R268, R334). One meaning for each command, over the shared operations. -/

namespace Sys2Proof.Machine

/-- CORE_START (R237). -/
def execCoreStart (m : Master) (c : Core) (s : State) : Host.Outcome State Fault Refusal :=
  .next (onLive s fun s => wr s m 8 true fun s => Sys2Proof.Machine.coreStart s c)

/-- CORE_INSTRUCTION (R234). -/
def execCoreInstruction (c : Core) (parity : Option Word) (s : State) : Host.Outcome State Fault Refusal :=
  .next (onLive s fun s => coreInstr s c parity)

/-- OWN_STORE_WINDOW_READ (R241). -/
def execOwnStoreWindowRead (c : Core) (failed : Bool) (s : State) : Host.Outcome State Fault Refusal :=
  .next (onLive s fun s => ownStoreRead s c failed)

/-- RU_INVALIDATE (R246). -/
def execRuInvalidate (m : Master) (v : Word) (s : State) : Host.Outcome State Fault Refusal :=
  .next (onLive s fun s => wr s m 8 true fun s => Sys2Proof.Machine.ruInvalidate s v)

/-- RU_ROOT_WRITE (R246). -/
def execRuRootWrite (m : Master) (r : Fin 20) (v : Word) (s : State) : Host.Outcome State Fault Refusal :=
  .next (onLive s fun s => wr s m 8 true fun s => Sys2Proof.Machine.ruRootWrite s r v)

/-- DMA_GO (R248). -/
def execDmaGo (m : Master) (k : Fin 16) (s : State) : Host.Outcome State Fault Refusal :=
  .next (onLive s fun s => wr s m 8 true fun s => dmaTake s m k (fun s => Sys2Proof.Machine.dmaGo s k))

/-- DMA_ABORT (R255). -/
def execDmaAbort (m : Master) (k : Fin 16) (s : State) : Host.Outcome State Fault Refusal :=
  .next (onLive s fun s => wr s m 8 true fun s => settleAll (dmaTake s m k (fun s => Sys2Proof.Machine.dmaAbort s k)))

/-- DMA_RESUME (R255). -/
def execDmaResume (m : Master) (k : Fin 16) (s : State) : Host.Outcome State Fault Refusal :=
  .next (onLive s fun s => wr s m 8 true fun s => dmaTake s m k (fun s => Sys2Proof.Machine.dmaResume s k))

/-- DMA_BEAT (R251). -/
def execDmaBeat (mv : Fin 4) (parity : Option Word) (s : State) : Host.Outcome State Fault Refusal :=
  .next (onLive s fun s => Sys2Proof.Machine.dmaBeat s mv parity)

/-- DMA_AGING (R253). -/
def execDmaAging (k : Fin 16) (s : State) : Host.Outcome State Fault Refusal :=
  .next (onLive s fun s => dmaAge s k)

/-- INT_CLAIM (R259). -/
def execIntClaim (m : Master) (c : Core) (src : Fin 32) (s : State) : Host.Outcome State Fault Refusal :=
  .next (onLive s fun s => wr s m 8 true fun s => Sys2Proof.Machine.intClaim s c src)

/-- INT_COMPLETE (R259). -/
def execIntComplete (m : Master) (c : Core) (src : Fin 32) (s : State) : Host.Outcome State Fault Refusal :=
  .next (onLive s fun s => wr s m 8 true fun s => Sys2Proof.Machine.intComplete s c src)

/-- MTIMECMP_MATCH (R262). -/
def execMtimecmpMatch (c : Core) (s : State) : Host.Outcome State Fault Refusal :=
  .next (onLive s fun s => mtimeMatch s c)

/-- TAP_INSTRUCTION (R334). -/
def execTapInstruction (ir : BitVec 5) (s : State) : Host.Outcome State Fault Refusal :=
  .next (tapSelect s ir)

/-- DEBUG_ACCESS (R334). -/
def execDebugAccess (a : DebugOp) (s : State) : Host.Outcome State Fault Refusal :=
  .next (onLive s fun s => Sys2Proof.Machine.debugAccess s a)

end Sys2Proof.Machine
end

