-- ==== Sys2Proof/Machine/CmdHost.lean ====
section
/-! DEFINITION. Host transactions by class (R33-R58, R83-R90, R501-R503). One meaning for each command, over the shared operations. -/

namespace Sys2Proof.Machine

/-- READ (R83). -/
def execRead (c : Ch) (t : HostTxn) (s : State) : Host.Outcome State Fault Refusal :=
  .next (onLive s fun s => hostRead s c t)

/-- PROGRAM (R89). -/
def execProgram (c : Ch) (t : HostTxn) (s : State) : Host.Outcome State Fault Refusal :=
  .next (onLive s fun s => hostProgram s c t)

/-- ERASE (R80). -/
def execErase (c : Ch) (t : HostTxn) (s : State) : Host.Outcome State Fault Refusal :=
  .next (onLive s fun s => hostErase s c t)

/-- WREN (R56). -/
def execWren (c : Ch) (t : HostTxn) (s : State) : Host.Outcome State Fault Refusal :=
  .next (onLive s fun s => hostWren s c t)

/-- WRDI (R56). -/
def execWrdi (c : Ch) (t : HostTxn) (s : State) : Host.Outcome State Fault Refusal :=
  .next (onLive s fun s => hostWrdi s c t)

/-- RDSR (R503). -/
def execRdsr (c : Ch) (t : HostTxn) (s : State) : Host.Outcome State Fault Refusal :=
  .next (onLive s fun s => hostRdsr s c t)

/-- RDREG (R503). -/
def execRdreg (c : Ch) (t : HostTxn) (s : State) : Host.Outcome State Fault Refusal :=
  .next (onLive s fun s => hostRdreg s c t)

/-- WRREG (R502). -/
def execWrreg (c : Ch) (t : HostTxn) (s : State) : Host.Outcome State Fault Refusal :=
  .next (onLive s fun s => hostWrreg s c t)

/-- SFDP (R55). -/
def execSfdp (c : Ch) (t : HostTxn) (s : State) : Host.Outcome State Fault Refusal :=
  .next (onLive s fun s => hostSfdp s c t)

/-- READ_ID (R40). -/
def execReadId (c : Ch) (t : HostTxn) (s : State) : Host.Outcome State Fault Refusal :=
  .next (onLive s fun s => hostReadId s c t)

/-- PROTO_SWITCH (R38). -/
def execProtoSwitch (c : Ch) (t : HostTxn) (s : State) : Host.Outcome State Fault Refusal :=
  .next (onLive s fun s => hostProto s c t)

/-- RESET_EN (R39). -/
def execResetEn (c : Ch) (t : HostTxn) (s : State) : Host.Outcome State Fault Refusal :=
  .next (onLive s fun s => hostResetEn s c t)

/-- RESET (R39). -/
def execReset (c : Ch) (t : HostTxn) (s : State) : Host.Outcome State Fault Refusal :=
  .next (onLive s fun s => hostReset s c t)

/-- SUSPEND (R58). -/
def execSuspend (c : Ch) (t : HostTxn) (s : State) : Host.Outcome State Fault Refusal :=
  .next (onLive s fun s => hostSuspend s c t)

/-- RESUME (R58). -/
def execResume (c : Ch) (t : HostTxn) (s : State) : Host.Outcome State Fault Refusal :=
  .next (onLive s fun s => hostResume s c t)

/-- UNKNOWN (R53). -/
def execUnknown (c : Ch) (t : HostTxn) (s : State) : Host.Outcome State Fault Refusal :=
  .next (onLive s fun s => hostUnknown s c t)

/-- ADDR4_ENTER (R38). -/
def execAddr4Enter (c : Ch) (t : HostTxn) (s : State) : Host.Outcome State Fault Refusal :=
  .next (onLive s fun s => hostAddr4 s c t true)

/-- ADDR4_EXIT (R38). -/
def execAddr4Exit (c : Ch) (t : HostTxn) (s : State) : Host.Outcome State Fault Refusal :=
  .next (onLive s fun s => hostAddr4 s c t false)

/-- TRUNCATED_TRANSACTION (R53). -/
def execTruncatedTransaction (c : Ch) (at_ : TruncAt) (t : HostTxn) (s : State) : Host.Outcome State Fault Refusal :=
  .next (onLive s fun s => hostTrunc s c at_ t)

end Sys2Proof.Machine
end

