-- ==== Sys2Proof/Machine/CmdImage.lean ====
section
/-! DEFINITION. The structure loader (R190-R202). One meaning for each command, over the shared operations. -/

namespace Sys2Proof.Machine

/-- LOAD (R190). -/
def execLoad (m : Master) (s : State) : Host.Outcome State Fault Refusal :=
  .next (onLive s fun s => wr s m 5 true fun s => stLoad s)

/-- LOAD_COMMIT (R192). -/
def execLoadCommit (s : State) : Host.Outcome State Fault Refusal :=
  .next (onLive s fun s => Sys2Proof.Machine.loadCommit s)

/-- LOAD_REJECT (R191). -/
def execLoadReject (readFail : Option Nat) (s : State) : Host.Outcome State Fault Refusal :=
  .next (onLive s fun s => stReject s readFail)

/-- LOCK (R194). -/
def execLock (m : Master) (s : State) : Host.Outcome State Fault Refusal :=
  .next (onLive s fun s => wr s m 5 true fun s => stLock s)

/-- RESTRUCTURE_START (R196). -/
def execRestructureStart (m : Master) (s : State) : Host.Outcome State Fault Refusal :=
  .next (onLive s fun s => wr s m 5 true fun s => rsStart s)

/-- RESTRUCTURE_COMMIT (R198). -/
def execRestructureCommit (s : State) : Host.Outcome State Fault Refusal :=
  .next (onLive s fun s => rsCommit s)

/-- RESTRUCTURE_HOLD_CLEAR (R198). -/
def execRestructureHoldClear (m : Master) (v : Word) (s : State) : Host.Outcome State Fault Refusal :=
  .next (onLive s fun s => wr s m 5 true fun s => rsHoldClear s v)

/-- ADVANCE (R202). -/
def execAdvance (m : Master) (s : State) : Host.Outcome State Fault Refusal :=
  .next (onLive s fun s => wr s m 5 true fun s => arbAdvance s)

/-- ADVANCE_DONE (R202). -/
def execAdvanceDone (otpFail : Bool) (s : State) : Host.Outcome State Fault Refusal :=
  .next (onLive s fun s => arbDone s otpFail)

end Sys2Proof.Machine
end

