-- ==== Sys2Proof/Machine/CmdLife.lean ====
section
/-! DEFINITION. The life-cycle engine (R320-R335). One meaning for each command, over the shared operations. -/

namespace Sys2Proof.Machine

/-- TO_TEST (R327): LC_CMD written with this OP and GO. -/
def execToTest (m : Master) (s : State) : Host.Outcome State Fault Refusal :=
  .next (onLive s fun s => wr s m 12 true fun s => lcCommand s m 1 lcToTest)

/-- TO_PRODUCTION (R327): LC_CMD written with this OP and GO. -/
def execToProduction (m : Master) (s : State) : Host.Outcome State Fault Refusal :=
  .next (onLive s fun s => wr s m 12 true fun s => lcCommand s m 2 lcToProduction)

/-- PROVISION (R327): LC_CMD written with this OP and GO. -/
def execProvision (m : Master) (s : State) : Host.Outcome State Fault Refusal :=
  .next (onLive s fun s => wr s m 12 true fun s => lcCommand s m 3 lcProvision)

/-- REDEEM (R332): LC_CMD written with this OP and GO. -/
def execRedeem (m : Master) (s : State) : Host.Outcome State Fault Refusal :=
  .next (onLive s fun s => wr s m 12 true fun s => lcCommand s m 4 lcRedeem)

/-- TO_EOL (R327): LC_CMD written with this OP and GO. -/
def execToEol (m : Master) (s : State) : Host.Outcome State Fault Refusal :=
  .next (onLive s fun s => wr s m 12 true fun s => lcCommand s m 5 lcToEol)

/-- NONCE (R330): LC_CMD written with this OP and GO. -/
def execNonce (m : Master) (s : State) : Host.Outcome State Fault Refusal :=
  .next (onLive s fun s => wr s m 12 true fun s => lcCommand s m 6 lcNonce)

/-- LC_TRANSITION_END (R327). -/
def execLcTransitionEnd (otpFail : Bool) (s : State) : Host.Outcome State Fault Refusal :=
  .next (onLive s fun s => lcEnd s otpFail)

/-- TOKEN_CHECK_END (R332). -/
def execTokenCheckEnd (s : State) : Host.Outcome State Fault Refusal :=
  .next (onLive s fun s => tokenEnd s)

end Sys2Proof.Machine
end

