-- ==== Sys2Proof/Machine/CmdMail.lean ====
section
/-! DEFINITION. Mailboxes, tallies, I3C and SPDM (R336-R368). One meaning for each command, over the shared operations. -/

namespace Sys2Proof.Machine

/-- MB_SEND (R339). -/
def execMbSend (m : Master) (s : State) : Host.Outcome State Fault Refusal :=
  .next (onLive s fun s => mbAccess s m 0x008 true (Sys2Proof.Machine.mbSend · m))

/-- MB_POP (R340). -/
def execMbPop (m : Master) (s : State) : Host.Outcome State Fault Refusal :=
  .next (onLive s fun s => mbAccess s m 0x00C true (Sys2Proof.Machine.mbPop · m))

/-- LOCK_READ (R345). -/
def execLockRead (m : Master) (k : Fin 16) (s : State) : Host.Outcome State Fault Refusal :=
  .next (onLive s fun s => mbAccess s m (0x840 + 4 * k.val) false (Sys2Proof.Machine.lockRead · m k))

/-- LOCK_WRITE (R345). -/
def execLockWrite (m : Master) (k : Fin 16) (v : Word) (s : State) : Host.Outcome State Fault Refusal :=
  .next (onLive s fun s => mbAccess s m (0x840 + 4 * k.val) true (Sys2Proof.Machine.lockWrite · m k v))

/-- TALLY_SNAPSHOT_READ (R356). -/
def execTallySnapshotRead (m : Master) (s : State) : Host.Outcome State Fault Refusal :=
  .next (onLive s fun s => mbAccess s m 0x884 false (tallySnap · m))

/-- EXTEND (R355). -/
def execExtend (m : Master) (s : State) : Host.Outcome State Fault Refusal :=
  .next (onLive s fun s => mbAccess s m 0x8D0 true (tallyExtend · m))

/-- TALLY_EXTENSION_DONE (R354). -/
def execTallyExtensionDone (t : Fin 64) (s : State) : Host.Outcome State Fault Refusal :=
  .next (onLive s fun s => settleAll (tallyDone s t))

/-- MCTP_PACKET_RX (R350). -/
def execMctpPacketRx (p : Fin 4) (pkt : List Byte) (s : State) : Host.Outcome State Fault Refusal :=
  .next (onLive s fun s => mctpRx s p pkt)

/-- MCTP_PACKET_READ (R349). -/
def execMctpPacketRead (p : Fin 4) (s : State) : Host.Outcome State Fault Refusal :=
  .next (onLive s fun s => i3cPacketRead s p)

/-- I3C_CCC (R348). -/
def execI3cCcc (p : Fin 4) (ccc : Byte) (directed : Bool) (data : List Byte) (s : State) : Host.Outcome State Fault Refusal :=
  .next (onLive s fun s => Sys2Proof.Machine.i3cCcc s p ccc directed data)

/-- I3C_REPLY_READ (R348). -/
def execI3cReplyRead (p : Fin 4) (s : State) : Host.Outcome State Fault Refusal :=
  .next (onLive s fun s => Sys2Proof.Machine.i3cReplyRead s p)

/-- I3C_REPLY_TIMEOUT (R348). -/
def execI3cReplyTimeout (p : Fin 4) (s : State) : Host.Outcome State Fault Refusal :=
  .next (onLive s fun s => i3cTimeout s p)

/-- GET_VERSION (R366). -/
def execGetVersion (n : Inst) (s : State) : Host.Outcome State Fault Refusal :=
  .next (onLive s fun s => spdmVersion s n)

/-- GET_CAPABILITIES (R365). -/
def execGetCapabilities (n : Inst) (s : State) : Host.Outcome State Fault Refusal :=
  .next (onLive s fun s => spdmCaps s n)

/-- NEGOTIATE_ALGORITHMS (R365). -/
def execNegotiateAlgorithms (n : Inst) (s : State) : Host.Outcome State Fault Refusal :=
  .next (onLive s fun s => spdmAlgs s n)

/-- GET_DIGESTS (R365). -/
def execGetDigests (n : Inst) (s : State) : Host.Outcome State Fault Refusal :=
  .next (onLive s fun s => spdmDigests s n)

/-- GET_CERTIFICATE (R364). -/
def execGetCertificate (n : Inst) (s : State) : Host.Outcome State Fault Refusal :=
  .next (onLive s fun s => spdmCert s n)

/-- CHALLENGE (R365). -/
def execChallenge (n : Inst) (s : State) : Host.Outcome State Fault Refusal :=
  .next (onLive s fun s => spdmChallenge s n)

/-- GET_MEASUREMENTS (R365). -/
def execGetMeasurements (n : Inst) (s : State) : Host.Outcome State Fault Refusal :=
  .next (onLive s fun s => spdmMeas s n)

/-- CHUNK_GET (R367). -/
def execChunkGet (n : Inst) (s : State) : Host.Outcome State Fault Refusal :=
  .next (onLive s fun s => spdmChunk s n)

/-- UNSUPPORTED_REQUEST (R365). -/
def execUnsupportedRequest (n : Inst) (s : State) : Host.Outcome State Fault Refusal :=
  .next (onLive s fun s => spdmOther s n)

/-- SPDM_RESPONSE_READY (R367). -/
def execSpdmResponseReady (n : Inst) (s : State) : Host.Outcome State Fault Refusal :=
  .next (onLive s fun s => settleAll (spdmReady s n))

end Sys2Proof.Machine
end

