-- ==== Sys2Proof/Machine/CmdPair.lean ====
section
/-! DEFINITION. The redundant pair (R439-R448). One meaning for each command, over the shared operations. -/

namespace Sys2Proof.Machine

/-- PAIR_ROLE_TIMER (R440). -/
def execPairRoleTimer (s : State) : Host.Outcome State Fault Refusal :=
  .next (onLive s fun s => roleTimer s)

/-- PAIR_HELLO_RX (R440). -/
def execPairHelloRx (h : PairHello) (s : State) : Host.Outcome State Fault Refusal :=
  .next (onLive s fun s => pairHello s h)

/-- PAIR_HELLO_DIAG_TIMER (R439). -/
def execPairHelloDiagTimer (s : State) : Host.Outcome State Fault Refusal :=
  .next (onLive s fun s => pairTimer s)

/-- LEASE_TIMER (R441). -/
def execLeaseTimer (s : State) : Host.Outcome State Fault Refusal :=
  .next (onLive s fun s => Sys2Proof.Machine.leaseTimer s)

/-- LEASE_RX (R441). -/
def execLeaseRx (no : Option Word) (s : State) : Host.Outcome State Fault Refusal :=
  .next (onLive s fun s => Sys2Proof.Machine.leaseRx s no)

/-- LACK_RX (R441). -/
def execLackRx (edge : Bool) (s : State) : Host.Outcome State Fault Refusal :=
  .next (onLive s fun s => Sys2Proof.Machine.lackRx s edge)

/-- LACK_LOSS (R441). -/
def execLackLoss (s : State) : Host.Outcome State Fault Refusal :=
  .next (onLive s fun s => Sys2Proof.Machine.lackLoss s)

/-- LEASE_EXPIRY (R442). -/
def execLeaseExpiry (busy : BitVec 32) (s : State) : Host.Outcome State Fault Refusal :=
  .next (onLive s fun s => Sys2Proof.Machine.leaseExpiry s busy)

/-- YIELD (R445). -/
def execYield (m : Master) (s : State) : Host.Outcome State Fault Refusal :=
  .next (onLive s fun s => pairYield s m)

/-- HANDOVER (R445). -/
def execHandover (busy : BitVec 32) (s : State) : Host.Outcome State Fault Refusal :=
  .next (onLive s fun s => Sys2Proof.Machine.handover s busy)

/-- CLAIM (R447). -/
def execClaim (s : State) : Host.Outcome State Fault Refusal :=
  .next (onLive s fun s => Sys2Proof.Machine.claim s)

/-- VBLOCK_RX (R446). -/
def execVblockRx (b : VerdictBlock) (s : State) : Host.Outcome State Fault Refusal :=
  .next (onLive s fun s => Sys2Proof.Machine.vblockRx s b)

/-- NOTICE_RX (R287). -/
def execNoticeRx (n : PairNotice) (s : State) : Host.Outcome State Fault Refusal :=
  .next (onLive s fun s => Sys2Proof.Machine.noticeRx s n)

/-- STATE_RX (R443). -/
def execStateRx (r : PairState) (s : State) : Host.Outcome State Fault Refusal :=
  .next (onLive s fun s => Sys2Proof.Machine.stateRx s r)

/-- CATCH_UP_PASS (R443). -/
def execCatchUpPass (s : State) : Host.Outcome State Fault Refusal :=
  .next (onLive s fun s => catchUp s)

/-- PAIR_MSG_SEND (R439). -/
def execPairMsgSend (m : Master) (s : State) : Host.Outcome State Fault Refusal :=
  .next (onLive s fun s => Sys2Proof.Machine.pairMsgSend s m)

/-- PAIR_MSG_POP (R439). -/
def execPairMsgPop (m : Master) (s : State) : Host.Outcome State Fault Refusal :=
  .next (onLive s fun s => Sys2Proof.Machine.pairMsgPop s m)

/-- PAIR_MSG_RX (R439). -/
def execPairMsgRx (ws : List Word) (s : State) : Host.Outcome State Fault Refusal :=
  .next (onLive s fun s => Sys2Proof.Machine.pairMsgRx s ws)

/-- DIAG_RX (R444). -/
def execDiagRx (d : PairDiag) (s : State) : Host.Outcome State Fault Refusal :=
  .next (onLive s fun s => Sys2Proof.Machine.diagRx s d)

end Sys2Proof.Machine
end

