-- ==== Sys2Proof/Machine/CmdReg.lean ====
section
/-! DEFINITION. Register accesses and portal frames (R5-R12, R63-R70, R494-R500). One meaning for each command, over the shared operations. -/

namespace Sys2Proof.Machine

/-- REGISTER_WRITE (R5, R6): a 32-bit, naturally aligned write acts on the register as its access codes state; any other access has
no effect on a register and is reported to its requester.
Log entry 11 (DEDUCED). -/
def execRegisterWrite (m : Master) (addr : BitVec 24) (width : Nat) (v : Word) (s : State) : Host.Outcome State Fault Refusal :=
  .next (onLive s fun s => writeCmd s m addr width v)

/-- RC_READ (R500): the value read is reduced from the counts, or the extremes restart. -/
def execRcRead (m : Master) (addr : BitVec 24) (s : State) : Host.Outcome State Fault Refusal :=
  .next (onLive s fun s => readCmd s m addr)

/-- BCAST_READ (R70): with BCAST set the lowest connected channel answers, and MISMATCH is set where another differs. -/
def execBcastRead (m : Master) (addr : BitVec 24) (s : State) : Host.Outcome State Fault Refusal :=
  .next (onLive s fun s => readCmd s m addr)

/-- PORTAL_READ_BURST (R63, R64, R67). -/
def execPortalReadBurst (x : Fin 6) (f : PortalFrame) (s : State) : Host.Outcome State Fault Refusal :=
  .next (onLive s fun s => portalRead s x f)

/-- PORTAL_WRITE_BURST (R63, R64). -/
def execPortalWriteBurst (x : Fin 6) (f : PortalFrame) (s : State) : Host.Outcome State Fault Refusal :=
  .next (onLive s fun s => portalWrite s x f)

/-- PORTAL_READ_STATUS (R63). -/
def execPortalReadStatus (x : Fin 6) (s : State) : Host.Outcome State Fault Refusal :=
  .next (onLive s fun s => portalStatus s x)

/-- PORTAL_FRAME_ERROR (R66). -/
def execPortalFrameError (x : Fin 6) (unknownFirst : Bool) (s : State) : Host.Outcome State Fault Refusal :=
  .next (onLive s fun s => portalError s x unknownFirst)

/-- PORTAL_BUSY_TIMEOUT (R65). -/
def execPortalBusyTimeout (x : Fin 6) (f : PortalFrame) (isWrite : Bool) (s : State) : Host.Outcome State Fault Refusal :=
  .next (onLive s fun s => portalTimeout s x f isWrite)

end Sys2Proof.Machine
end

