-- ==== Sys2Proof/Machine/CmdReset.lean ====
section
/-! DEFINITION. Resets, supplies, boot and recovery (R4, R31, R284, R293, R405, R419-R423, R474). One meaning for each command, over the shared operations. -/

namespace Sys2Proof.Machine

/-- DEV_RST_N_ASSERT (R482). -/
def execDevRstNAssert (lowNs : Nat) (s : State) : Host.Outcome State Fault Refusal :=
  .next (devRst s lowNs)

/-- DEVICE_RESET_RELEASE (R31). -/
def execDeviceResetRelease (straps : Straps) (s : State) : Host.Outcome State Fault Refusal :=
  .next (release s straps)

/-- TINDER_START (R31, R319). -/
def execTinderStart (s : State) : Host.Outcome State Fault Refusal :=
  .next (settleAll (tinder s))

/-- KINDLING_BOOT (R355, R405). -/
def execKindlingBoot (s : State) : Host.Outcome State Fault Refusal :=
  .next (onLive s fun s => kindlingBoot s)

/-- CORE_SUPPLY_LOW (R284). -/
def execCoreSupplyLow (lowNs : Nat) (s : State) : Host.Outcome State Fault Refusal :=
  .next (coreLow s lowNs)

/-- CORE_SUPPLY_RESTORED (R284). -/
def execCoreSupplyRestored (s : State) : Host.Outcome State Fault Refusal :=
  .next (coreRestored s)

/-- IO_BANK_LOW (R284). -/
def execIoBankLow (b : Fin 15) (lowNs : Nat) (s : State) : Host.Outcome State Fault Refusal :=
  .next (bankLow s b lowNs)

/-- IO_BANK_IN_RANGE (R474).
Log entry 40 (DESIGN CHOICE, DEDUCED). -/
def execIoBankInRange (b : Fin 15) (lvl33 : Bool) (s : State) : Host.Outcome State Fault Refusal :=
  .next (bankDetect s b lvl33)

/-- CLOCK_MONITOR_FAULT (R293). -/
def execClockMonitorFault (k : ClockFault) (s : State) : Host.Outcome State Fault Refusal :=
  .next (clockFault s k)

/-- RESET_NOW (R267). -/
def execResetNow (m : Master) (s : State) : Host.Outcome State Fault Refusal :=
  .next (onLive s fun s => Sys2Proof.Machine.resetNow s m)

/-- HARD_TIMER_EXPIRY (R431). -/
def execHardTimerExpiry (s : State) : Host.Outcome State Fault Refusal :=
  .next (onLive s fun s => hardExpiry s)

/-- RECOVERY_STATUS (R420). -/
def execRecoveryStatus (x : RecSrc) (s : State) : Host.Outcome State Fault Refusal :=
  .next (onLive s fun s => recStatus s x)

/-- RECOVERY_PIECE (R420, R421). -/
def execRecoveryPiece (x : RecSrc) (ofs : Nat) (data : List Byte) (s : State) : Host.Outcome State Fault Refusal :=
  .next (onLive s fun s => recPiece s x ofs data)

/-- RECOVERY_END (R421, R423). -/
def execRecoveryEnd (x : RecSrc) (total : Nat) (s : State) : Host.Outcome State Fault Refusal :=
  .next (onLive s fun s => recEnd s x total)

/-- IDLE_GATE (R292, Table 9.8): a unit idle for 10 us enters GATED.
Log entry 38 (DEDUCED). -/
def execIdleGate (d : IdleUnit) (s : State) : Host.Outcome State Fault Refusal :=
  .next (onLive s fun s => gateUnit s d)

end Sys2Proof.Machine
end

