-- ==== Sys2Proof/Machine/CmdSeq.lean ====
section
/-! DEFINITION. The power-up sequencer, platform faults and SMBus (R270-R290, R505). One meaning for each command, over the shared operations. -/

namespace Sys2Proof.Machine

/-- WAIT_IN_SETTLED (R274). -/
def execWaitInSettled (i : Fin 128) (s : State) : Host.Outcome State Fault Refusal :=
  .next (onLive s fun s => waitSettled s i)

/-- DELAY_EXPIRY (R274). -/
def execDelayExpiry (i : Fin 128) (s : State) : Host.Outcome State Fault Refusal :=
  .next (onLive s fun s => Sys2Proof.Machine.delayExpiry s i)

/-- STEP_TIMEOUT (R275). -/
def execStepTimeout (i : Fin 128) (s : State) : Host.Outcome State Fault Refusal :=
  .next (onLive s fun s => Sys2Proof.Machine.stepTimeout s i)

/-- PMB_TRANSACTION_END (R290). -/
def execPmbTransactionEnd (p : Fin 4) (r : SmbResult) (s : State) : Host.Outcome State Fault Refusal :=
  .next (onLive s fun s => pmbEnd s p r)

/-- SMB_RETRY (R290). -/
def execSmbRetry (i : Fin 128) (s : State) : Host.Outcome State Fault Refusal :=
  .next (onLive s fun s => Sys2Proof.Machine.smbRetry s i)

/-- PMB_POLL_INTERVAL (R274). -/
def execPmbPollInterval (i : Fin 128) (s : State) : Host.Outcome State Fault Refusal :=
  .next (onLive s fun s => pollInterval s i)

/-- PLATFORM_FAULT (R281). -/
def execPlatformFault (i : Fin 128) (s : State) : Host.Outcome State Fault Refusal :=
  .next (onLive s fun s => pfEvent s i)

/-- WATCH_REARM (R282). -/
def execWatchRearm (i : Fin 128) (s : State) : Host.Outcome State Fault Refusal :=
  .next (onLive s fun s => Sys2Proof.Machine.watchRearm s i)

/-- MIN_HOLD_EXPIRY (R279). -/
def execMinHoldExpiry (n : Fin 32) (s : State) : Host.Outcome State Fault Refusal :=
  .next (onLive s fun s => settleAll (Sys2Proof.Machine.minHoldExpiry s n))

/-- SMB_TRANSACTION_END (R505). -/
def execSmbTransactionEnd (r : SmbResult) (s : State) : Host.Outcome State Fault Refusal :=
  .next (onLive s fun s => smbEnd s r)

/-- SQ_IO_LEVEL_CHANGE (R281). -/
def execSqIoLevelChange (l : Fin 96) (v : Bool) (s : State) : Host.Outcome State Fault Refusal :=
  .next (onLive s fun s => ioChange s l v)

/-- RESTART (R278). -/
def execRestart (m : Master) (s : State) : Host.Outcome State Fault Refusal :=
  .next (onLive s fun s => wr s m 9 true fun s => sqRestart s)

/-- SHUTDOWN (R277). -/
def execShutdown (m : Master) (s : State) : Host.Outcome State Fault Refusal :=
  .next (onLive s fun s => wr s m 9 true fun s => sqShutdown s)

/-- PF_HOLD_CLEAR (R282). -/
def execPfHoldClear (m : Master) (v : Word) (s : State) : Host.Outcome State Fault Refusal :=
  .next (onLive s fun s => wr s m 9 true fun s => pfClear s v)

/-- HEARTH_HOLD_WRITE (R280). -/
def execHearthHoldWrite (m : Master) (v : Word) (s : State) : Host.Outcome State Fault Refusal :=
  .next (onLive s fun s => wr s m 9 true fun s => hearthHold s v)

/-- SMB_START (R505). -/
def execSmbStart (m : Master) (s : State) : Host.Outcome State Fault Refusal :=
  .next (onLive s fun s => wr s m 9 true fun s => Sys2Proof.Machine.smbStart s)

end Sys2Proof.Machine
end

