-- ==== Sys2Proof/Machine/CmdShare.lean ====
section
/-! DEFINITION. Billets, arbiters and instances (R205-R230). One meaning for each command, over the shared operations. -/

namespace Sys2Proof.Machine

/-- DEPENDENT_DRAW_GRANT (R212). -/
def execDependentDrawGrant (k : BilletClass) (s : State) : Host.Outcome State Fault Refusal :=
  .next (onLive s fun s => grantDependent s k)

/-- HEAD_AGED (R215). -/
def execHeadAged (a : Arbiter) (s : State) : Host.Outcome State Fault Refusal :=
  .next (onLive s fun s => Sys2Proof.Machine.headAged s a)

/-- TRACKER_PARITY_ERROR (R205). -/
def execTrackerParityError (b : Fin 4096) (s : State) : Host.Outcome State Fault Refusal :=
  .next (onLive s fun s => settleAll (trackerParity s b))

/-- CREATE (R225). -/
def execCreate (m : Master) (s : State) : Host.Outcome State Fault Refusal :=
  .next (onLive s fun s => wr s m 7 false fun s =>
    let n := (selOf s m).inst
    instTake s m n (fun s => instCreate s n))

/-- RESET_DRAIN (R226). -/
def execResetDrain (m : Master) (s : State) : Host.Outcome State Fault Refusal :=
  .next (onLive s fun s => wr s m 7 false fun s =>
    let n := (selOf s m).inst
    instTake s m n (fun s => instDrain s n))

/-- RESET_SQUASH (R227). -/
def execResetSquash (m : Master) (s : State) : Host.Outcome State Fault Refusal :=
  .next (onLive s fun s => wr s m 7 false fun s =>
    let n := (selOf s m).inst
    settleAll (instTake s m n (fun s => instReset s n)))

/-- REMOVE (R228). -/
def execRemove (m : Master) (s : State) : Host.Outcome State Fault Refusal :=
  .next (onLive s fun s => wr s m 7 false fun s =>
    let n := (selOf s m).inst
    settleAll (instTake s m n (fun s => instRemove s n)))

/-- DRAIN_COMPLETE (R226). -/
def execDrainComplete (n : Inst) (s : State) : Host.Outcome State Fault Refusal :=
  .next (onLive s fun s => drainDone s n)

/-- DRAIN_TIMEOUT (R226). -/
def execDrainTimeout (n : Inst) (s : State) : Host.Outcome State Fault Refusal :=
  .next (onLive s fun s => settleAll (drainExpire s n))

end Sys2Proof.Machine
end

