-- ==== Sys2Proof/Machine/CmdStore.lean ====
section
/-! DEFINITION. Own-store operations of kindling (R401, R435). One meaning for each command, over the shared operations. -/

namespace Sys2Proof.Machine

/-- OS_PROGRAM (R401): GC_OS_CTL written with this OP and GO. -/
def execOsProgram (m : Master) (s : State) : Host.Outcome State Fault Refusal :=
  .next (onLive s fun s => osGo s m 1)

/-- OS_ERASE_4K (R401): GC_OS_CTL written with this OP and GO. -/
def execOsErase4k (m : Master) (s : State) : Host.Outcome State Fault Refusal :=
  .next (onLive s fun s => osGo s m 2)

/-- OS_ERASE_64K (R401): GC_OS_CTL written with this OP and GO. -/
def execOsErase64k (m : Master) (s : State) : Host.Outcome State Fault Refusal :=
  .next (onLive s fun s => osGo s m 3)

/-- OWN_STORE_ERASE_ISSUE (R435). -/
def execOwnStoreEraseIssue (s : State) : Host.Outcome State Fault Refusal :=
  .next (onLive s fun s => eraseIssue s)

/-- OS_OPERATION_END (R401). -/
def execOsOperationEnd (failed : Bool) (s : State) : Host.Outcome State Fault Refusal :=
  .next (onLive s fun s => osEnd s failed)

/-- ERASE_MAX_EXPIRY (R401). -/
def execEraseMaxExpiry (s : State) : Host.Outcome State Fault Refusal :=
  .next (onLive s fun s => Sys2Proof.Machine.eraseMaxExpiry s)

end Sys2Proof.Machine
end

