-- ==== Sys2Proof/Machine/CmdTamper.lean ====
section
/-! DEFINITION. Tamper monitoring and the always-on domain (R450-R468). One meaning for each command, over the shared operations. -/

namespace Sys2Proof.Machine

/-- TAMPER_EVENT (R454). -/
def execTamperEvent (src : Fin 8) (det : Nat) (s : State) : Host.Outcome State Fault Refusal :=
  .next (settleAll (Sys2Proof.Machine.tamperEvent s src det))

/-- TAMPER_WINDOW_CLOSE (R454). -/
def execTamperWindowClose (src : Fin 8) (s : State) : Host.Outcome State Fault Refusal :=
  .next (tamperClose s src)

/-- SOURCE_IDLE (R454). -/
def execSourceIdle (src : Fin 8) (s : State) : Host.Outcome State Fault Refusal :=
  .next (Sys2Proof.Machine.sourceIdle s src)

/-- HALT_HOLD_EXPIRY (R458). -/
def execHaltHoldExpiry (s : State) : Host.Outcome State Fault Refusal :=
  .next (haltExpiry s)

/-- HOLD_CLEAR (R457). -/
def execHoldClear (m : Master) (s : State) : Host.Outcome State Fault Refusal :=
  .next (onLive s fun s => settleAll (Sys2Proof.Machine.holdClear s m))

/-- SOFT_ALARM (R452). -/
def execSoftAlarm (m : Master) (s : State) : Host.Outcome State Fault Refusal :=
  .next (onLive s fun s => settleAll (Sys2Proof.Machine.softAlarm s m))

/-- RTC_LOAD (R465). -/
def execRtcLoad (m : Master) (s : State) : Host.Outcome State Fault Refusal :=
  .next (onLive s fun s => Sys2Proof.Machine.rtcLoad s m)

/-- RTC_LO_READ (R465). -/
def execRtcLoRead (m : Master) (s : State) : Host.Outcome State Fault Refusal :=
  .next (onLive s fun s => rtcLatch s m)

/-- THERM_BIT_PROGRAMMED (R468). -/
def execThermBitProgrammed (s : State) : Host.Outcome State Fault Refusal :=
  .next (thermProgram s)

/-- AO_RESTART (R464). -/
def execAoRestart (s : State) : Host.Outcome State Fault Refusal :=
  .next (Sys2Proof.Machine.aoRestart s)

end Sys2Proof.Machine
end

