-- ==== Sys2Proof/Machine/CmdVault.lean ====
section
/-! DEFINITION. The key vault and the signing keys (R297-R317, R357-R362). One meaning for each command, over the shared operations. -/

namespace Sys2Proof.Machine

/-- ROOT_LOAD (R297), by a core. -/
def execRootLoad (m : Master) (s : State) : Host.Outcome State Fault Refusal :=
  .next (onLive s fun s => if isCore m then Sys2Proof.Machine.rootLoad s else s)

/-- ZEROISE (R311), by a core. -/
def execZeroise (m : Master) (s : State) : Host.Outcome State Fault Refusal :=
  .next (onLive s fun s => if isCore m then settleAll (zeroiseVault s) else s)

/-- REKINDLE (R314), by a core. -/
def execRekindle (m : Master) (s : State) : Host.Outcome State Fault Refusal :=
  .next (onLive s fun s => if isCore m then Sys2Proof.Machine.rekindle s else s)

/-- DERIVE (R302): KV_CMD(c) written with this OP and GO (Table 10.5). -/
def execDerive (c : Core) (s : State) : Host.Outcome State Fault Refusal :=
  .next (onLive s fun s => settleAll (kvCommand 1 s c))

/-- GENERATE (R306): KV_CMD(c) written with this OP and GO (Table 10.5). -/
def execGenerate (c : Core) (s : State) : Host.Outcome State Fault Refusal :=
  .next (onLive s fun s => settleAll (kvCommand 2 s c))

/-- UNWRAP (R307): KV_CMD(c) written with this OP and GO (Table 10.5). -/
def execUnwrap (c : Core) (s : State) : Host.Outcome State Fault Refusal :=
  .next (onLive s fun s => settleAll (kvCommand 3 s c))

/-- WRAP (R307): KV_CMD(c) written with this OP and GO (Table 10.5). -/
def execWrap (c : Core) (s : State) : Host.Outcome State Fault Refusal :=
  .next (onLive s fun s => settleAll (kvCommand 4 s c))

/-- REVOKE (R310): KV_CMD(c) written with this OP and GO (Table 10.5). -/
def execRevoke (c : Core) (s : State) : Host.Outcome State Fault Refusal :=
  .next (onLive s fun s => settleAll (kvCommand 5 s c))

/-- REPLACE (R309): KV_CMD(c) written with this OP and GO (Table 10.5). -/
def execReplace (c : Core) (s : State) : Host.Outcome State Fault Refusal :=
  .next (onLive s fun s => settleAll (kvCommand 6 s c))

/-- COMMIT (R310): KV_CMD(c) written with this OP and GO (Table 10.5). -/
def execCommit (c : Core) (s : State) : Host.Outcome State Fault Refusal :=
  .next (onLive s fun s => settleAll (kvCommand 7 s c))

/-- CANCEL (R306): KV_CMD(c) written with this OP and GO (Table 10.5). -/
def execCancel (c : Core) (s : State) : Host.Outcome State Fault Refusal :=
  .next (onLive s fun s => settleAll (kvCommand 8 s c))

/-- KCV (R306): KV_CMD(c) written with this OP and GO (Table 10.5). -/
def execKcv (c : Core) (s : State) : Host.Outcome State Fault Refusal :=
  .next (onLive s fun s => settleAll (kvCommand 9 s c))

/-- HMAC (R306): KV_CMD(c) written with this OP and GO (Table 10.5). -/
def execHmac (c : Core) (s : State) : Host.Outcome State Fault Refusal :=
  .next (onLive s fun s => settleAll (kvCommand 10 s c))

/-- GCM_ENC (R306): KV_CMD(c) written with this OP and GO (Table 10.5). -/
def execGcmEnc (c : Core) (s : State) : Host.Outcome State Fault Refusal :=
  .next (onLive s fun s => settleAll (kvCommand 11 s c))

/-- GCM_DEC (R306): KV_CMD(c) written with this OP and GO (Table 10.5). -/
def execGcmDec (c : Core) (s : State) : Host.Outcome State Fault Refusal :=
  .next (onLive s fun s => settleAll (kvCommand 12 s c))

/-- SIGN (R361): KV_CMD(c) written with this OP and GO (Table 10.5). -/
def execSign (c : Core) (s : State) : Host.Outcome State Fault Refusal :=
  .next (onLive s fun s => settleAll (kvCommand 13 s c))

/-- ALIAS (R362): KV_CMD(c) written with this OP and GO (Table 10.5). -/
def execAlias (c : Core) (s : State) : Host.Outcome State Fault Refusal :=
  .next (onLive s fun s => settleAll (kvCommand 14 s c))

/-- PUBKEY (R361): KV_CMD(c) written with this OP and GO (Table 10.5). -/
def execPubkey (c : Core) (s : State) : Host.Outcome State Fault Refusal :=
  .next (onLive s fun s => settleAll (kvCommand 15 s c))

/-- KV_OP_END (R305). -/
def execKvOpEnd (c : Core) (s : State) : Host.Outcome State Fault Refusal :=
  .next (onLive s fun s => settleAll (Sys2Proof.Machine.kvOpEnd s c))

/-- INVALIDATION_SWEEP (R301). -/
def execInvalidationSweep (s : State) : Host.Outcome State Fault Refusal :=
  .next (onLive s fun s => sweep s)

/-- ENTROPY_RETEST (R317).
Log entry 58 (DESIGN CHOICE). -/
def execEntropyRetest (pass : Bool) (s : State) : Host.Outcome State Fault Refusal :=
  .next (onLive s fun s => Sys2Proof.Machine.entropyRetest s pass)

/-- HEALTH_TEST_FAIL (R317). -/
def execHealthTestFail (s : State) : Host.Outcome State Fault Refusal :=
  .next (onLive s fun s => healthFail s)

/-- LEAF_JOURNAL_WRITE (R357). -/
def execLeafJournalWrite (j : Fin 2) (failed : Bool) (s : State) : Host.Outcome State Fault Refusal :=
  .next (onLive s fun s => leafJournal s j failed)

/-- LMS_TREE_GENERATED (R360). -/
def execLmsTreeGenerated (j : Fin 2) (s : State) : Host.Outcome State Fault Refusal :=
  .next (onLive s fun s => settleAll (treeDone s j))

end Sys2Proof.Machine
end

