-- ==== Sys2Proof/Machine/CmdVerify.lean ====
section
/-! DEFINITION. The verification engine: anchoring, checks, holds, scrub (R105-R133). One meaning for each command, over the shared operations. -/

namespace Sys2Proof.Machine

/-- ANCHORING (R108). -/
def execAnchoring (e : Fin 12) (parity : Bool) (s : State) : Host.Outcome State Fault Refusal :=
  .next (onLive s fun s => settleTraces (anchoringEnd (if parity then parityCount s else s) e parity))

/-- EMBER_CHECK (R109, R112, R113). -/
def execEmberCheck (e : Fin 12) (entry : Option (Nat × Nat)) (parity : Bool) (s : State) : Host.Outcome State Fault Refusal :=
  .next (onLive s fun s =>
    settleTraces (pumpBlocks (emberCheckEnd (if parity || entry.isSome then parityCount s else s) e entry parity)))

/-- HASH_PREEMPT (R117). -/
def execHashPreempt (e : Fin 12) (s : State) : Host.Outcome State Fault Refusal :=
  .next (onLive s fun s => preemptAt s e)

/-- KNOWN_ANSWER_TEST (R118): an engine that goes offline is a failing input of the pair (Table 15.7). -/
def execKnownAnswerTest (hashFail : BitVec 12) (aesFail : BitVec 2) (s : State) : Host.Outcome State Fault Refusal :=
  .next (onLive s fun s =>
    let t := knownAnswer s hashFail aesFail
    settleAll (if engCount t < engCount s then diagFail t 0 else t))

/-- STAGE_CHECK (R129). -/
def execStageCheck (m : Master) (s : State) : Host.Outcome State Fault Refusal :=
  .next (onLive s fun s => wr s m 3 false fun s => settleAll (bindStageCheck s m))

/-- CLIST_CLEAR (R128). -/
def execClistClear (m : Master) (s : State) : Host.Outcome State Fault Refusal :=
  .next (onLive s fun s => wr s m 3 false fun s => bindClistClear s m)

/-- CLINKER_HOLD_CLEAR (R127). -/
def execClinkerHoldClear (m : Master) (v : Word) (s : State) : Host.Outcome State Fault Refusal :=
  .next (onLive s fun s => wr s m 3 true fun s => clkHoldWrite s v)

/-- BIND_FLOOR_WRITE (R105). -/
def execBindFloorWrite (m : Master) (v : Word) (s : State) : Host.Outcome State Fault Refusal :=
  .next (onLive s fun s => wr s m 3 false fun s => Sys2Proof.Machine.bindFloorWrite s m v)

/-- SCRUB_STEP (R130). -/
def execScrubStep (b : Fin 255) (s : State) : Host.Outcome State Fault Refusal :=
  .next (onLive s fun s => Sys2Proof.Machine.scrubStep s b.val)

end Sys2Proof.Machine
end

