-- ==== Sys2Proof/Machine/CmdWatch.lean ====
section
/-! DEFINITION. Watchdogs, task sets (R426-R436). One meaning for each command, over the shared operations. -/

namespace Sys2Proof.Machine

/-- STOKE (R427): by a core; an external write has no effect. -/
def execStoke (m : Master) (w : Fin 5) (v : Word) (s : State) : Host.Outcome State Fault Refusal :=
  .next (onLive s fun s => match m with | .core c => wdStoke s w c v | .ext _ => s)

/-- WINDOW_OPEN (R426). -/
def execWindowOpen (w : Fin 5) (s : State) : Host.Outcome State Fault Refusal :=
  .next (onLive s fun s => wdOpen s w)

/-- WINDOW_EXPIRY (R431). -/
def execWindowExpiry (w : Fin 5) (s : State) : Host.Outcome State Fault Refusal :=
  .next (onLive s fun s => wdWindowExpiry s w)

/-- WD_ARM (R430): bit 0 of the write arms. -/
def execWdArm (m : Master) (w : Fin 5) (v : Word) (s : State) : Host.Outcome State Fault Refusal :=
  .next (onLive s fun s => match m with | .core c => onBit v 0 (fun s => Sys2Proof.Machine.wdArm s w c) s | .ext _ => s)

/-- TS_ARM (R433). -/
def execTsArm (m : Master) (v : Word) (s : State) : Host.Outcome State Fault Refusal :=
  .next (onLive s fun s => wr s m 15 true fun s => tsArmWrite s v)

/-- CHECKIN (R433). -/
def execCheckin (m : Master) (v : Word) (s : State) : Host.Outcome State Fault Refusal :=
  .next (onLive s fun s => match m with | .core c => checkinWrite s c v | .ext _ => s)

/-- PERIOD_END (R434). -/
def execPeriodEnd (i : Fin 16) (s : State) : Host.Outcome State Fault Refusal :=
  .next (onLive s fun s => tsPeriodEnd s i)

end Sys2Proof.Machine
end

