-- ==== Sys2Proof/Machine/Dispatch.lean ====
section
/-! DEFINITION. The dispatcher: one arm for each command of the operation table. -/

namespace Sys2Proof.Machine

/-- The effect of a command on everything but the queue. -/
def exec (i : Instr) (s : State) : Host.Outcome State Fault Refusal :=
  match i with
  | .registerWrite m addr width v => Sys2Proof.Machine.execRegisterWrite m addr width v s
  | .rcRead m addr => Sys2Proof.Machine.execRcRead m addr s
  | .bcastRead m addr => Sys2Proof.Machine.execBcastRead m addr s
  | .devRstNAssert lowNs => Sys2Proof.Machine.execDevRstNAssert lowNs s
  | .deviceResetRelease straps => Sys2Proof.Machine.execDeviceResetRelease straps s
  | .tinderStart => Sys2Proof.Machine.execTinderStart s
  | .kindlingBoot => Sys2Proof.Machine.execKindlingBoot s
  | .coreSupplyLow lowNs => Sys2Proof.Machine.execCoreSupplyLow lowNs s
  | .coreSupplyRestored => Sys2Proof.Machine.execCoreSupplyRestored s
  | .ioBankLow b lowNs => Sys2Proof.Machine.execIoBankLow b lowNs s
  | .clockMonitorFault k => Sys2Proof.Machine.execClockMonitorFault k s
  | .read c t => Sys2Proof.Machine.execRead c t s
  | .program c t => Sys2Proof.Machine.execProgram c t s
  | .erase c t => Sys2Proof.Machine.execErase c t s
  | .wren c t => Sys2Proof.Machine.execWren c t s
  | .wrdi c t => Sys2Proof.Machine.execWrdi c t s
  | .rdsr c t => Sys2Proof.Machine.execRdsr c t s
  | .rdreg c t => Sys2Proof.Machine.execRdreg c t s
  | .wrreg c t => Sys2Proof.Machine.execWrreg c t s
  | .sfdp c t => Sys2Proof.Machine.execSfdp c t s
  | .readId c t => Sys2Proof.Machine.execReadId c t s
  | .addr4Enter c t => Sys2Proof.Machine.execAddr4Enter c t s
  | .addr4Exit c t => Sys2Proof.Machine.execAddr4Exit c t s
  | .protoSwitch c t => Sys2Proof.Machine.execProtoSwitch c t s
  | .resetEn c t => Sys2Proof.Machine.execResetEn c t s
  | .reset c t => Sys2Proof.Machine.execReset c t s
  | .suspend c t => Sys2Proof.Machine.execSuspend c t s
  | .resume c t => Sys2Proof.Machine.execResume c t s
  | .unknown c t => Sys2Proof.Machine.execUnknown c t s
  | .truncatedTransaction c at_ t => Sys2Proof.Machine.execTruncatedTransaction c at_ t s
  | .flashAccessGrant g => Sys2Proof.Machine.execFlashAccessGrant g s
  | .fillComplete p data => Sys2Proof.Machine.execFillComplete p data s
  | .writeExecute p => Sys2Proof.Machine.execWriteExecute p s
  | .statusPoll p status => Sys2Proof.Machine.execStatusPoll p status s
  | .escHoldExpiry c => Sys2Proof.Machine.execEscHoldExpiry c s
  | .escRelease m => Sys2Proof.Machine.execEscRelease m s
  | .rgnActWrite m ix v => Sys2Proof.Machine.execRgnActWrite m ix v s
  | .substClear m hi v => Sys2Proof.Machine.execSubstClear m hi v s
  | .logDrain failed => Sys2Proof.Machine.execLogDrain failed s
  | .portalReadBurst x f => Sys2Proof.Machine.execPortalReadBurst x f s
  | .portalWriteBurst x f => Sys2Proof.Machine.execPortalWriteBurst x f s
  | .portalReadStatus x => Sys2Proof.Machine.execPortalReadStatus x s
  | .portalFrameError x unknownFirst => Sys2Proof.Machine.execPortalFrameError x unknownFirst s
  | .portalBusyTimeout x f isWrite => Sys2Proof.Machine.execPortalBusyTimeout x f isWrite s
  | .ownReq m v => Sys2Proof.Machine.execOwnReq m v s
  | .rawOwnershipGrant p => Sys2Proof.Machine.execRawOwnershipGrant p s
  | .rawStart m => Sys2Proof.Machine.execRawStart m s
  | .rawAbort m edges bits => Sys2Proof.Machine.execRawAbort m edges bits s
  | .rawTransferEnd p bits => Sys2Proof.Machine.execRawTransferEnd p bits s
  | .anchoring e parity => Sys2Proof.Machine.execAnchoring e parity s
  | .emberCheck e entry parity => Sys2Proof.Machine.execEmberCheck e entry parity s
  | .hashPreempt e => Sys2Proof.Machine.execHashPreempt e s
  | .knownAnswerTest hashFail aesFail => Sys2Proof.Machine.execKnownAnswerTest hashFail aesFail s
  | .stageCheck m => Sys2Proof.Machine.execStageCheck m s
  | .clistClear m => Sys2Proof.Machine.execClistClear m s
  | .clinkerHoldClear m v => Sys2Proof.Machine.execClinkerHoldClear m v s
  | .bindFloorWrite m v => Sys2Proof.Machine.execBindFloorWrite m v s
  | .scrubStep b => Sys2Proof.Machine.execScrubStep b s
  | .flipReq m => Sys2Proof.Machine.execFlipReq m s
  | .flipCancel m => Sys2Proof.Machine.execFlipCancel m s
  | .goldClear m => Sys2Proof.Machine.execGoldClear m s
  | .stageLockSet m => Sys2Proof.Machine.execStageLockSet m s
  | .stageLockClr m => Sys2Proof.Machine.execStageLockClr m s
  | .flipHoldClear m v => Sys2Proof.Machine.execFlipHoldClear m v s
  | .bsetMapWrite m v => Sys2Proof.Machine.execBsetMapWrite m v s
  | .traceWindowExpiry c => Sys2Proof.Machine.execTraceWindowExpiry c s
  | .traceJournalWrite c => Sys2Proof.Machine.execTraceJournalWrite c s
  | .adaptationPass => Sys2Proof.Machine.execAdaptationPass s
  | .load m => Sys2Proof.Machine.execLoad m s
  | .loadCommit => Sys2Proof.Machine.execLoadCommit s
  | .loadReject readFail => Sys2Proof.Machine.execLoadReject readFail s
  | .lock m => Sys2Proof.Machine.execLock m s
  | .restructureStart m => Sys2Proof.Machine.execRestructureStart m s
  | .restructureCommit => Sys2Proof.Machine.execRestructureCommit s
  | .restructureHoldClear m v => Sys2Proof.Machine.execRestructureHoldClear m v s
  | .advance m => Sys2Proof.Machine.execAdvance m s
  | .advanceDone otpFail => Sys2Proof.Machine.execAdvanceDone otpFail s
  | .dependentDrawGrant k => Sys2Proof.Machine.execDependentDrawGrant k s
  | .headAged a => Sys2Proof.Machine.execHeadAged a s
  | .trackerParityError b => Sys2Proof.Machine.execTrackerParityError b s
  | .create m => Sys2Proof.Machine.execCreate m s
  | .resetDrain m => Sys2Proof.Machine.execResetDrain m s
  | .resetSquash m => Sys2Proof.Machine.execResetSquash m s
  | .remove m => Sys2Proof.Machine.execRemove m s
  | .drainComplete n => Sys2Proof.Machine.execDrainComplete n s
  | .drainTimeout n => Sys2Proof.Machine.execDrainTimeout n s
  | .coreStart m c => Sys2Proof.Machine.execCoreStart m c s
  | .coreInstruction c parity => Sys2Proof.Machine.execCoreInstruction c parity s
  | .ownStoreWindowRead c failed => Sys2Proof.Machine.execOwnStoreWindowRead c failed s
  | .ruInvalidate m v => Sys2Proof.Machine.execRuInvalidate m v s
  | .ruRootWrite m r v => Sys2Proof.Machine.execRuRootWrite m r v s
  | .dmaGo m k => Sys2Proof.Machine.execDmaGo m k s
  | .dmaAbort m k => Sys2Proof.Machine.execDmaAbort m k s
  | .dmaResume m k => Sys2Proof.Machine.execDmaResume m k s
  | .dmaBeat mv parity => Sys2Proof.Machine.execDmaBeat mv parity s
  | .dmaAging k => Sys2Proof.Machine.execDmaAging k s
  | .intClaim m c src => Sys2Proof.Machine.execIntClaim m c src s
  | .intComplete m c src => Sys2Proof.Machine.execIntComplete m c src s
  | .mtimecmpMatch c => Sys2Proof.Machine.execMtimecmpMatch c s
  | .resetNow m => Sys2Proof.Machine.execResetNow m s
  | .waitInSettled ix => Sys2Proof.Machine.execWaitInSettled ix s
  | .delayExpiry ix => Sys2Proof.Machine.execDelayExpiry ix s
  | .stepTimeout ix => Sys2Proof.Machine.execStepTimeout ix s
  | .pmbTransactionEnd p r => Sys2Proof.Machine.execPmbTransactionEnd p r s
  | .smbRetry ix => Sys2Proof.Machine.execSmbRetry ix s
  | .pmbPollInterval ix => Sys2Proof.Machine.execPmbPollInterval ix s
  | .restart m => Sys2Proof.Machine.execRestart m s
  | .shutdown m => Sys2Proof.Machine.execShutdown m s
  | .platformFault ix => Sys2Proof.Machine.execPlatformFault ix s
  | .watchRearm ix => Sys2Proof.Machine.execWatchRearm ix s
  | .pfHoldClear m v => Sys2Proof.Machine.execPfHoldClear m v s
  | .hearthHoldWrite m v => Sys2Proof.Machine.execHearthHoldWrite m v s
  | .minHoldExpiry n => Sys2Proof.Machine.execMinHoldExpiry n s
  | .smbStart m => Sys2Proof.Machine.execSmbStart m s
  | .smbTransactionEnd r => Sys2Proof.Machine.execSmbTransactionEnd r s
  | .rootLoad m => Sys2Proof.Machine.execRootLoad m s
  | .zeroise m => Sys2Proof.Machine.execZeroise m s
  | .rekindle m => Sys2Proof.Machine.execRekindle m s
  | .derive c => Sys2Proof.Machine.execDerive c s
  | .generate c => Sys2Proof.Machine.execGenerate c s
  | .unwrap c => Sys2Proof.Machine.execUnwrap c s
  | .wrap c => Sys2Proof.Machine.execWrap c s
  | .revoke c => Sys2Proof.Machine.execRevoke c s
  | .replace c => Sys2Proof.Machine.execReplace c s
  | .commit c => Sys2Proof.Machine.execCommit c s
  | .cancel c => Sys2Proof.Machine.execCancel c s
  | .kcv c => Sys2Proof.Machine.execKcv c s
  | .hmac c => Sys2Proof.Machine.execHmac c s
  | .gcmEnc c => Sys2Proof.Machine.execGcmEnc c s
  | .gcmDec c => Sys2Proof.Machine.execGcmDec c s
  | .sign c => Sys2Proof.Machine.execSign c s
  | .alias_ c => Sys2Proof.Machine.execAlias c s
  | .pubkey c => Sys2Proof.Machine.execPubkey c s
  | .kvOpEnd c => Sys2Proof.Machine.execKvOpEnd c s
  | .invalidationSweep => Sys2Proof.Machine.execInvalidationSweep s
  | .entropyRetest pass => Sys2Proof.Machine.execEntropyRetest pass s
  | .leafJournalWrite j failed => Sys2Proof.Machine.execLeafJournalWrite j failed s
  | .lmsTreeGenerated j => Sys2Proof.Machine.execLmsTreeGenerated j s
  | .toTest m => Sys2Proof.Machine.execToTest m s
  | .toProduction m => Sys2Proof.Machine.execToProduction m s
  | .provision m => Sys2Proof.Machine.execProvision m s
  | .redeem m => Sys2Proof.Machine.execRedeem m s
  | .toEol m => Sys2Proof.Machine.execToEol m s
  | .nonce m => Sys2Proof.Machine.execNonce m s
  | .lcTransitionEnd otpFail => Sys2Proof.Machine.execLcTransitionEnd otpFail s
  | .tapInstruction ir => Sys2Proof.Machine.execTapInstruction ir s
  | .debugAccess a => Sys2Proof.Machine.execDebugAccess a s
  | .mbSend m => Sys2Proof.Machine.execMbSend m s
  | .mbPop m => Sys2Proof.Machine.execMbPop m s
  | .lockRead m k => Sys2Proof.Machine.execLockRead m k s
  | .lockWrite m k v => Sys2Proof.Machine.execLockWrite m k v s
  | .tallySnapshotRead m => Sys2Proof.Machine.execTallySnapshotRead m s
  | .extend m => Sys2Proof.Machine.execExtend m s
  | .tallyExtensionDone t => Sys2Proof.Machine.execTallyExtensionDone t s
  | .mctpPacketRx p pkt => Sys2Proof.Machine.execMctpPacketRx p pkt s
  | .mctpPacketRead p => Sys2Proof.Machine.execMctpPacketRead p s
  | .i3cCcc p ccc directed data => Sys2Proof.Machine.execI3cCcc p ccc directed data s
  | .i3cReplyRead p => Sys2Proof.Machine.execI3cReplyRead p s
  | .i3cReplyTimeout p => Sys2Proof.Machine.execI3cReplyTimeout p s
  | .getVersion n => Sys2Proof.Machine.execGetVersion n s
  | .getCapabilities n => Sys2Proof.Machine.execGetCapabilities n s
  | .negotiateAlgorithms n => Sys2Proof.Machine.execNegotiateAlgorithms n s
  | .getDigests n => Sys2Proof.Machine.execGetDigests n s
  | .getCertificate n => Sys2Proof.Machine.execGetCertificate n s
  | .challenge n => Sys2Proof.Machine.execChallenge n s
  | .getMeasurements n => Sys2Proof.Machine.execGetMeasurements n s
  | .chunkGet n => Sys2Proof.Machine.execChunkGet n s
  | .unsupportedRequest n => Sys2Proof.Machine.execUnsupportedRequest n s
  | .spdmResponseReady n => Sys2Proof.Machine.execSpdmResponseReady n s
  | .flueSymbolLock f => Sys2Proof.Machine.execFlueSymbolLock f s
  | .flueTrained f swap pol => Sys2Proof.Machine.execFlueTrained f swap pol s
  | .trainingTimeout f => Sys2Proof.Machine.execTrainingTimeout f s
  | .flueRetry f => Sys2Proof.Machine.execFlueRetry f s
  | .linkRx f arg => Sys2Proof.Machine.execLinkRx f arg s
  | .linkAckTimer f => Sys2Proof.Machine.execLinkAckTimer f s
  | .replayTimeout f => Sys2Proof.Machine.execReplayTimeout f s
  | .badFrameRx f k => Sys2Proof.Machine.execBadFrameRx f k s
  | .helloRx f fr => Sys2Proof.Machine.execHelloRx f fr s
  | .helloTimer f => Sys2Proof.Machine.execHelloTimer f s
  | .helloLoss f => Sys2Proof.Machine.execHelloLoss f s
  | .topoRx f fr => Sys2Proof.Machine.execTopoRx f fr s
  | .topoTimer => Sys2Proof.Machine.execTopoTimer s
  | .topoEntryAge => Sys2Proof.Machine.execTopoEntryAge s
  | .settle => Sys2Proof.Machine.execSettle s
  | .assignRx f fr => Sys2Proof.Machine.execAssignRx f fr s
  | .rediscover m => Sys2Proof.Machine.execRediscover m s
  | .msgRx f fr => Sys2Proof.Machine.execMsgRx f fr s
  | .bulksegRx f fr => Sys2Proof.Machine.execBulksegRx f fr s
  | .dlvRx f fr => Sys2Proof.Machine.execDlvRx f fr s
  | .peerResend n => Sys2Proof.Machine.execPeerResend n s
  | .peerSend n => Sys2Proof.Machine.execPeerSend n s
  | .bcastGo m => Sys2Proof.Machine.execBcastGo m s
  | .bcastRx f fr => Sys2Proof.Machine.execBcastRx f fr s
  | .arrive m => Sys2Proof.Machine.execArrive m s
  | .arriveRx f fr => Sys2Proof.Machine.execArriveRx f fr s
  | .releaseRx f fr => Sys2Proof.Machine.execReleaseRx f fr s
  | .snapshotStart m => Sys2Proof.Machine.execSnapshotStart m s
  | .markerRx f fr => Sys2Proof.Machine.execMarkerRx f fr s
  | .closeRx f fr => Sys2Proof.Machine.execCloseRx f fr s
  | .closeTimeout => Sys2Proof.Machine.execCloseTimeout s
  | .snapshotRecordSend => Sys2Proof.Machine.execSnapshotRecordSend s
  | .snaprecRx f fr => Sys2Proof.Machine.execSnaprecRx f fr s
  | .collectionDeadline => Sys2Proof.Machine.execCollectionDeadline s
  | .quoteReady => Sys2Proof.Machine.execQuoteReady s
  | .freset m => Sys2Proof.Machine.execFreset m s
  | .resetFrameRx f fr => Sys2Proof.Machine.execResetFrameRx f fr s
  | .relayFrameRx f fr => Sys2Proof.Machine.execRelayFrameRx f fr s
  | .relayFrameQueue m v => Sys2Proof.Machine.execRelayFrameQueue m v s
  | .serveWrite m v => Sys2Proof.Machine.execServeWrite m v s
  | .osProgram m => Sys2Proof.Machine.execOsProgram m s
  | .osErase4k m => Sys2Proof.Machine.execOsErase4k m s
  | .osErase64k m => Sys2Proof.Machine.execOsErase64k m s
  | .ownStoreEraseIssue => Sys2Proof.Machine.execOwnStoreEraseIssue s
  | .osOperationEnd failed => Sys2Proof.Machine.execOsOperationEnd failed s
  | .eraseMaxExpiry => Sys2Proof.Machine.execEraseMaxExpiry s
  | .recoveryStatus x => Sys2Proof.Machine.execRecoveryStatus x s
  | .recoveryPiece x ofs data => Sys2Proof.Machine.execRecoveryPiece x ofs data s
  | .recoveryEnd x total => Sys2Proof.Machine.execRecoveryEnd x total s
  | .stoke m w v => Sys2Proof.Machine.execStoke m w v s
  | .windowOpen w => Sys2Proof.Machine.execWindowOpen w s
  | .windowExpiry w => Sys2Proof.Machine.execWindowExpiry w s
  | .wdArm m w v => Sys2Proof.Machine.execWdArm m w v s
  | .hardTimerExpiry => Sys2Proof.Machine.execHardTimerExpiry s
  | .tsArm m v => Sys2Proof.Machine.execTsArm m v s
  | .checkin m v => Sys2Proof.Machine.execCheckin m v s
  | .periodEnd ix => Sys2Proof.Machine.execPeriodEnd ix s
  | .pairRoleTimer => Sys2Proof.Machine.execPairRoleTimer s
  | .pairHelloRx h => Sys2Proof.Machine.execPairHelloRx h s
  | .leaseTimer => Sys2Proof.Machine.execLeaseTimer s
  | .leaseRx no => Sys2Proof.Machine.execLeaseRx no s
  | .lackRx edge => Sys2Proof.Machine.execLackRx edge s
  | .lackLoss => Sys2Proof.Machine.execLackLoss s
  | .leaseExpiry busy => Sys2Proof.Machine.execLeaseExpiry busy s
  | .yield_ m => Sys2Proof.Machine.execYield m s
  | .handover busy => Sys2Proof.Machine.execHandover busy s
  | .claim => Sys2Proof.Machine.execClaim s
  | .vblockRx b => Sys2Proof.Machine.execVblockRx b s
  | .noticeRx n => Sys2Proof.Machine.execNoticeRx n s
  | .stateRx r => Sys2Proof.Machine.execStateRx r s
  | .catchUpPass => Sys2Proof.Machine.execCatchUpPass s
  | .pairMsgSend m => Sys2Proof.Machine.execPairMsgSend m s
  | .pairMsgPop m => Sys2Proof.Machine.execPairMsgPop m s
  | .pairMsgRx ws => Sys2Proof.Machine.execPairMsgRx ws s
  | .tamperEvent src det => Sys2Proof.Machine.execTamperEvent src det s
  | .tamperWindowClose src => Sys2Proof.Machine.execTamperWindowClose src s
  | .sourceIdle src => Sys2Proof.Machine.execSourceIdle src s
  | .haltHoldExpiry => Sys2Proof.Machine.execHaltHoldExpiry s
  | .holdClear m => Sys2Proof.Machine.execHoldClear m s
  | .softAlarm m => Sys2Proof.Machine.execSoftAlarm m s
  | .rtcLoad m => Sys2Proof.Machine.execRtcLoad m s
  | .rtcLoRead m => Sys2Proof.Machine.execRtcLoRead m s
  | .thermBitProgrammed => Sys2Proof.Machine.execThermBitProgrammed s
  | .aoRestart => Sys2Proof.Machine.execAoRestart s
  | .ioBankInRange b lvl33 => Sys2Proof.Machine.execIoBankInRange b lvl33 s
  | .symbolLockLoss l => Sys2Proof.Machine.execSymbolLockLoss l s
  | .frameForward f fr => Sys2Proof.Machine.execFrameForward f fr s
  | .recoverySegRx fr => Sys2Proof.Machine.execRecoverySegRx fr s
  | .healthTestFail => Sys2Proof.Machine.execHealthTestFail s
  | .idleGate d => Sys2Proof.Machine.execIdleGate d s
  | .sqIoLevelChange l v => Sys2Proof.Machine.execSqIoLevelChange l v s
  | .diagRx d => Sys2Proof.Machine.execDiagRx d s
  | .pairHelloDiagTimer => Sys2Proof.Machine.execPairHelloDiagTimer s
  | .tokenCheckEnd => Sys2Proof.Machine.execTokenCheckEnd s

end Sys2Proof.Machine
end

