-- ==== Sys2Proof/Machine/Step.lean ====
section
/-! DEFINITION. One step of the block: the command at the front of the queue, or one cycle of the core clock where none
waits. -/

namespace Sys2Proof.Machine

/-- With nothing to do, time passes: one cycle of the 500 MHz core clock. DESIGN CHOICE: the table has no row for a tick.
Log entry 2 (DESIGN CHOICE). -/
def idleTick (s : State) : State := { s with clk := { s.clk with now := s.clk.now + 1 } }

/-- Take the front command and give its outcome over the queue's rest; with an empty queue the block idles.
Log entry 2 (DESIGN CHOICE). -/
def step (s : State) : Host.Outcome State Fault Refusal :=
  match s.pending with
  | [] => .next (idleTick s)
  | c :: rest => exec c { s with pending := rest }

/-- The state with the command a word spells put at the front of its queue; no word spells one. -/
def State.withFetchWord (s : State) (nbits w : Nat) : State :=
  match decodeTableWord nbits w with
  | some c => { s with pending := c :: s.pending }
  | none => s

end Sys2Proof.Machine
end

