-- ==== Sys2Proof/Safety.lean ====
section
/-! DEFINITION. What counts as a safe run: every command ends in a next state, and the stores the device may only program
or append to never lose a bit they hold. -/

namespace Sys2Proof

/-- A command that neither faults nor is refused. -/
def Completes (c : Instr) (s : Machine.State) : Prop := ∃ t, Machine.exec c s = .next t

/-- An OTP bit once programmed stays programmed (chapter 11). -/
def OtpKept (s t : Machine.State) : Prop :=
  ∀ a : Nat, Machine.memGet 0 s.otp a &&& Machine.memGet 0 t.otp a = Machine.memGet 0 s.otp a

end Sys2Proof
end

