-- ==== Sys2Proof/Certificates/Slice0/Obligations.lean ====
section
/-! DEFINITION. The statements for the provers. -/

open Sys2Proof Sys2Proof.Machine

/-! The block's step, its queue and its invariants. -/

/-- A step takes the command at the front of the queue and executes it over the queue's rest. -/
def Obligations.StepExecutesTheFrontCommand : Prop :=
  ∀ (c : Instr) (rest : List Instr) (s : State), s.pending = c :: rest → step s = exec c { s with pending := rest }

/-- With no command waiting a step is one cycle of the core clock and nothing else (the model's choice, log entry 2). -/
def Obligations.IdleStepIsOneCoreCycle : Prop :=
  ∀ s : State, s.pending = [] → step s = .next { s with clk := { s.clk with now := s.clk.now + 1 } }

/-- The canonical form of the block's byte memories: the OTP, the hearth RAM, the own store and the AO SRAM. -/
def Sys2Proof.Machine.MemoriesCanonical (s : State) : Prop :=
  memWf 0 s.otp = true ∧ memWf 0 s.he.ram = true ∧ memWf 0xFF s.os.mem = true ∧ memWf 0 s.tp.ao.sram = true

/-- Every step of the block, whatever the command and whatever the state, keeps every memory in its canonical form. -/
def Obligations.EveryStepKeepsMemoriesCanonical : Prop :=
  ∀ s t : State, MemoriesCanonical s → step s = .next t → MemoriesCanonical t

/-- The memories are in canonical form after power-on. -/
def Obligations.MemoriesCanonicalAtReset : Prop := MemoriesCanonical State.reset

/-- No step clears an OTP bit: what a bit reads as 1 before, it reads as 1 after, over every command and every reset. -/
def Obligations.NoStepClearsAnOtpBit : Prop :=
  ∀ s t : State, MemoriesCanonical s → step s = .next t →
    ∀ a : Nat, memGet 0 s.otp a &&& memGet 0 t.otp a = memGet 0 s.otp a

/-- Every command of every row completes, in every state and with every operand: it ends in a next state, in which time has not
gone back, no free value is drawn a second time, no OTP bit is lost and the queue is as it was. No step turns time back, and a
step only takes the front command off the queue. -/
def Obligations.NoStepTurnsTimeBack : Prop :=
  (∀ s t : State, step s = .next t →
    s.clk.now ≤ t.clk.now ∧ s.clk.free ≤ t.clk.free ∧ t.pending = s.pending.tail) ∧
  (∀ (c : Instr) (s : State), MemoriesCanonical s → ∃ t : State, exec c s = .next t ∧
    s.clk.now ≤ t.clk.now ∧ s.clk.free ≤ t.clk.free ∧ t.pending = s.pending ∧ MemoriesCanonical t ∧
    ∀ a : Nat, memGet 0 s.otp a &&& memGet 0 t.otp a = memGet 0 s.otp a) ∧
  (∀ (c : Instr) (s : State), ∃ t : State, exec c s = .next t)

/-- The commands that act while the device reset is asserted. -/
def Sys2Proof.Machine.ActsInReset : Instr → Bool
  | .devRstNAssert _ | .deviceResetRelease _ | .coreSupplyLow _ | .coreSupplyRestored | .ioBankLow _ _ | .ioBankInRange _ _
  | .clockMonitorFault _ | .tapInstruction _ | .tamperEvent _ _ | .tamperWindowClose _ | .sourceIdle _ | .haltHoldExpiry
  | .thermBitProgrammed | .aoRestart | .tinderStart => true
  | _ => false

/-- While the device reset is asserted, and after its release until the tinder ROM has run its first two steps, only the supplies,
the clock monitor, the reset itself, the ROM's start, the TAP and the AO domain act: every other command leaves the whole
state as it is (for a device in reset the model's choice, log entry 5). -/
def Obligations.DeviceResetHoldsEverythingElse : Prop :=
  ∀ (c : Instr) (s : State), s.pd.inReset = true → ActsInReset c = false → exec c s = .next s

/-! The management address space and the portal. -/

/-- The registers a core's access in its mode reaches: word-aligned, in the register space, and outside the KV window in user mode
(R5, R246). -/
def Sys2Proof.Machine.CoreReaches (s : State) (c : Core) (a : Nat) : Prop :=
  a % 4 = 0 ∧ regsReach (0x40000000 + a) (!(s.he.cores[c]).user) = true

/-- A 32-bit, aligned write by a master that may write the window acts as the access codes state, and on nothing else. An access
of another width and an unaligned one have no effect on a register: a core takes a store access fault at the address, and an
external master finds ACCESS_ERR, as it does where its WRITE mask lacks the window. -/
def Obligations.RegisterWritesActAsTheirAccessCodesState : Prop :=
  (∀ (c : Core) (a : BitVec 24) (v : Word) (s : State), s.pd.inReset = false → CoreReaches s c a.toNat →
    exec (.registerWrite (.core c) a 32 v) s = .next (regWrite s (.core c) a.toNat v)) ∧
  (∀ (x : Fin 6) (a : BitVec 24) (v : Word) (s : State), s.pd.inReset = false →
    burstCheck s x { addr := a, count := 1, words := [v] } true = 0 →
    exec (.registerWrite (.ext x) a 32 v) s = .next (regWrite s (.ext x) a.toNat v)) ∧
  (∀ (c : Core) (v : Word) (s : State), s.pd.inReset = false →
    exec (.registerWrite (.core c) 0x050054 32 v) s = .next { s with st := { s.st with intEn := v &&& 31#32 } }) ∧
  (∀ (c : Core) (v : Word) (s : State), s.pd.inReset = false →
    exec (.registerWrite (.core c) 0x050050 32 v) s = .next { s with st := { s.st with intSts := s.st.intSts &&& ~~~v } }) ∧
  (∀ (x : Fin 6) (v : Word) (s : State), s.pd.inReset = false → (s.gc.portals[x]).writeMask.getLsbD 5 = true →
    lcDead s = false →
    exec (.registerWrite (.ext x) 0x050054 32 v) s = .next { s with st := { s.st with intEn := v &&& 31#32 } }) ∧
  (∀ (x : Fin 6) (v : Word) (s : State), s.pd.inReset = false → (s.gc.portals[x]).writeMask.getLsbD 5 = false →
    exec (.registerWrite (.ext x) 0x050054 32 v) s = .next (modPortal s x (fun p => { p with accessErr := true, lastStatus := 2 }))) ∧
  (∀ (x : Fin 6) (a : BitVec 24) (width : Nat) (v : Word) (s : State), s.pd.inReset = false → width ≠ 32 ∨ a.toNat % 4 ≠ 0 →
    exec (.registerWrite (.ext x) a width v) s = .next (modPortal s x (fun p => { p with accessErr := true, lastStatus := 2 }))) ∧
  (∀ (c : Core) (a : BitVec 24) (width : Nat) (v : Word) (s : State), s.pd.inReset = false → width ≠ 32 ∨ a.toNat % 4 ≠ 0 →
    (s.he.cores[c]).st ≠ .nmi → ∃ t, exec (.registerWrite (.core c) a width v) s = .next t ∧
      (t.he.cores[c]).mcause = 7 ∧ (t.he.cores[c]).mtval = BitVec.ofNat 32 (0x40000000 + a.toNat) ∧
      (t.he.cores[c]).mepc = (s.he.cores[c]).pc ∧ (t.he.cores[c]).regs = (s.he.cores[c]).regs ∧ t = { s with he := t.he } ∧
      (∀ d : Core, d ≠ c → t.he.cores[d] = s.he.cores[d]) ∧ t.he.ram = s.he.ram)

/-- Reading an RC field reduces it by the value the read returned, or restarts the extreme it holds; a broadcast read whose value
another connected channel does not share sets MISMATCH in the reader's own copy. Nothing else changes but what captures of the
same field that wait for their I3C reply still owe. A read that its master may not make has no such effect. -/
def Obligations.ReadsHaveTheirSideEffects : Prop :=
  (∀ (c : Core) (a : BitVec 24) (s : State), s.pd.inReset = false → CoreReaches s c a.toNat →
    exec (.rcRead (.core c) a) s = .next (regReadFx s (.core c) (readFxOf s (.core c) a.toNat)) ∧
    exec (.bcastRead (.core c) a) s = .next (regReadFx s (.core c) (readFxOf s (.core c) a.toNat))) ∧
  (∀ (x : Fin 6) (a : BitVec 24) (s : State), s.pd.inReset = false → burstCheck s x { addr := a, count := 1, words := [] } false = 0 →
    exec (.rcRead (.ext x) a) s = .next (readAt s (.ext x) a.toNat) ∧
    exec (.bcastRead (.ext x) a) s = .next (readAt s (.ext x) a.toNat)) ∧
  (∀ (x : Fin 6) (a : BitVec 24) (s : State), s.pd.inReset = false → burstCheck s x { addr := a, count := 1, words := [] } false ≠ 0 →
    exec (.rcRead (.ext x) a) s = .next (modPortal s x (fun p => { p with accessErr := true, lastStatus := 2 }))) ∧
  (∀ (c : Core) (s : State), s.pd.inReset = false → s.ec.parity ≤ 0xFFFF →
    ∃ t, exec (.rcRead (.core c) 0x040018) s = .next t ∧ t.ec = { s.ec with parity := 0 } ∧ t = { s with ec := t.ec, mb := t.mb } ∧
      t.mb = { s.mb with i3c := t.mb.i3c }) ∧
  (∀ (c : Core) (s : State), s.pd.inReset = false → s.bt.peakFill < 8192 →
    ∃ t, exec (.rcRead (.core c) 0x060018) s = .next t ∧ t.bt = { s.bt with peakFill := useOf s .fill } ∧
      t = { s with bt := t.bt, mb := t.mb } ∧ t.mb = { s.mb with i3c := t.mb.i3c }) ∧
  (∀ (c : Core) (s : State), s.pd.inReset = false → (selOf s (.core c)).bcast = true →
    exec (.bcastRead (.core c) 0x010008) s = .next
      (if (allCh.any (fun i => connected s.ch[i] && decide (chRead s i 8 ≠ chRead s (readCh s (.core c)) 8))) then
        modSel s (.core c) (fun x => { x with mismatch := true }) else s))

/-- Portal frames. A burst that passes its checks returns its words in ascending order, or writes them; one that fails is answered
with its status and no data; a frame that breaks off is counted and has no other effect; a frame that outwaits its 256 busy
bytes ends with the timeout token 0x5C, and a read ended so has no effect. On an I3C target the answer waits in the target's
reply until it is fetched. -/
def Obligations.PortalFramesAreAnswered : Prop :=
  (∀ (x : Fin 6) (f : PortalFrame) (s : State), s.pd.inReset = false → x.val < 2 → burstCheck s x f false ≠ 0 →
    ∃ t, exec (.portalReadBurst x f) s = .next t ∧ (t.gc.portals[x]).outStatus = burstCheck s x f false ∧
      (t.gc.portals[x]).outWords = [] ∧ t = { s with gc := t.gc }) ∧
  (∀ (x : Fin 6) (f : PortalFrame) (s : State), s.pd.inReset = false → x.val < 2 → burstCheck s x f false = 0 →
    f.addr = 0x060008#24 → f.count = 2 →
    ∃ t, exec (.portalReadBurst x f) s = .next t ∧ (t.gc.portals[x]).outStatus = 0 ∧
      (t.gc.portals[x]).outWords = [s.bt.intSts, s.bt.intEn] ∧ t = { s with gc := t.gc }) ∧
  (∀ (p : Fin 4) (f : PortalFrame) (s : State), s.pd.inReset = false →
    let x : Fin 6 := ⟨p.val + 2, by omega⟩
    burstCheck s x f false ≠ 0 → ∃ t, exec (.portalReadBurst x f) s = .next t ∧
      (t.mb.i3c[p]).reply = some ([BitVec.ofNat 8 (burstCheck s x f false)], s.clk.now) ∧ (t.mb.i3c[p]).fx = [] ∧
      t = { s with gc := t.gc, mb := t.mb }) ∧
  (∀ (x : Fin 6) (f : PortalFrame) (a b : Word) (s : State), s.pd.inReset = false → x.val < 2 → burstCheck s x f true = 0 →
    (s.gc.portals[x]).writeMask.getLsbD 6 = true → lcDead s = false →
    f.addr = 0x060008#24 → f.count = 2 → f.words = [a, b] →
    ∃ t, exec (.portalWriteBurst x f) s = .next t ∧ (t.gc.portals[x]).outStatus = 0 ∧
      t = { s with gc := t.gc, bt := { s.bt with intSts := s.bt.intSts &&& ~~~a, intEn := b &&& 63#32 } }) ∧
  (∀ (x : Fin 6) (f : PortalFrame) (s : State), s.pd.inReset = false → f.words.length ≠ f.count →
    ∃ t, exec (.portalWriteBurst x f) s = .next t ∧ (t.gc.portals[x]).frameErr = min 255 ((s.gc.portals[x]).frameErr + 1) ∧
      t = { s with gc := t.gc }) ∧
  (∀ (x : Fin 6) (s : State), s.pd.inReset = false → x.val < 2 → (s.gc.portals[x]).frameErr ≤ 255 →
    ∃ t, exec (.portalReadStatus x) s = .next t ∧ (t.gc.portals[x]).outWords = [portalSts s.gc.portals[x] x] ∧
      (t.gc.portals[x]).frameErr = 0 ∧ t = { s with gc := t.gc, mb := t.mb } ∧ t.mb = { s.mb with i3c := t.mb.i3c }) ∧
  (∀ (p : Fin 4) (s : State), s.pd.inReset = false →
    let x : Fin 6 := ⟨p.val + 2, by omega⟩
    ∃ t, exec (.portalReadStatus x) s = .next t ∧
      (t.mb.i3c[p]).reply = some (0 :: beBytes 4 (portalSts s.gc.portals[x] x).toNat, s.clk.now) ∧ t = { s with mb := t.mb }) ∧
  (∀ (x : Fin 6) (s : State), s.pd.inReset = false →
    exec (.portalFrameError x false) s = .next (modPortal s x (fun p => { p with frameErr := min 255 (p.frameErr + 1) }))) ∧
  (∀ (x : Fin 6) (s : State), s.pd.inReset = false →
    ∃ t, exec (.portalFrameError x true) s = .next t ∧ (t.gc.portals[x]).frameErr = min 255 ((s.gc.portals[x]).frameErr + 1) ∧
      (t.gc.portals[x]).outStatus = 0x5C ∧ (t.gc.portals[x]).outWords = [] ∧ t = { s with gc := t.gc }) ∧
  (∀ (x : Fin 6) (f : PortalFrame) (s : State), s.pd.inReset = false →
    exec (.portalBusyTimeout x f false) s = .next
      (modPortal s x (fun p => { p with busyTmo := true, outStatus := 0x5C, outWords := [] })))

/-! Power-on, resets, supplies and the boot. -/

/-- The state after power-on, field by field where the tables give a reset value: the device reset is asserted, every host line is
held, every channel is unlocked at its slowest clock, the stores are empty, core 0 is the only core not held, the FIRST and
only READ window open to an external master is GC, and no command waits. The general registers, the debug and trap registers
and the other values the tables leave open are the model's choice (log entries 6 and 7) and are not stated here. -/
def Obligations.PowerOnStateHasTheResetValues : Prop :=
  let s := State.reset
  s.pd.inReset = true ∧ s.sq.hrst = 0xFFFFFFFF#32 ∧ s.st.state = .empty ∧ s.kv.state = 0 ∧ s.bt.low = 3072 ∧
  s.ve.engOnline = 0xFFF#12 ∧ s.ve.aesOnline = 3#2 ∧ s.ve.katPeriod = 10 ∧ s.ec.intEn = 0 ∧ s.pr.burning = true ∧
  (∀ c : Ch, (s.ch[c]).locked = false ∧ (s.ch[c]).div = 160 ∧ (s.ch[c]).addr4 = false ∧ (s.ch[c]).altOn = false ∧
    (s.ch[c]).raw.own = false) ∧
  (∀ x : Fin 6, (s.gc.portals[x]).readMask = 1 ∧ (s.gc.portals[x]).writeMask = 0) ∧
  (∀ c : Core, (s.he.cores[c]).st = if c = 0 then .running else .held) ∧
  (∀ c : Core, s.he.mtimecmp[c] = BitVec.allOnes 64) ∧ (∀ k : Fin 128, (s.kv.slots[k]).typ = 0) ∧
  (∀ n : Inst, (s.inst[n]).st = .dormant ∧ (s.mb.box[n]).inq = []) ∧ (∀ f : Flue, (s.fb.flue[f]).st = .off) ∧
  (∀ w : Fin 5, (s.wd.w[w]).st = .stopped) ∧ s.tp.ao.haltHold = 100 ∧ (∀ i : Fin 64, s.tp.ao.th[i] = 128) ∧
  s.otp = [] ∧ s.pending = []

/-- What every device reset does to the block: everything but the OTP, the AO domain, the own store's cells, the supplies, the
TAP, the silicon revision, the sampled board levels and the clock takes its power-on value. The OTP changes only where a life-cycle
transition or an anti-rollback advance is cut, the own store only where an erase is; an active source of the AO domain is idle. -/
def Sys2Proof.Machine.ResetTo (s t : State) : Prop :=
  t.sel = State.reset.sel ∧ t.gc = { State.reset.gc with rev := s.gc.rev } ∧ t.ch = State.reset.ch ∧ t.port = State.reset.port ∧
  t.grLog = State.reset.grLog ∧ t.ec = State.reset.ec ∧ t.st = State.reset.st ∧ t.bt = State.reset.bt ∧
  t.inst = State.reset.inst ∧ t.he = State.reset.he ∧ t.kv = State.reset.kv ∧ t.mb = State.reset.mb ∧
  t.fb = State.reset.fb ∧ t.boot = State.reset.boot ∧ t.sq = { State.reset.sq with ioIn := s.sq.ioIn } ∧
  t.lc = { State.reset.lc with tapIr := s.lc.tapIr } ∧ t.pd.inReset = true ∧ t.pd.released = false ∧
  t.pd.bankLvl = s.pd.bankLvl ∧ t.pending = s.pending ∧
  (s.lc.run = none → t.tp.ao = aoReset s.tp.ao ∧ (s.st.advancing = false → t.otp = s.otp) ∧
    (s.os.op = none → t.os.mem = s.os.mem))

/-- Every source of a warm reset resets the device and records itself in CAUSE and BANK; the RWS floors keep their values unless
the core supply has been out of range, where the reset is cold and CAUSE is 0. A DEV_RST_N pulse under 100 ns is ignored;
between 100 ns and 1 us the specification leaves the outcome open, and the pulse does one of the two. -/
def Obligations.WarmResetsResetAndRecordTheirCause : Prop :=
  (∀ (low : Nat) (s : State), 1000 ≤ low → ∃ t, exec (.devRstNAssert low) s = .next t ∧ ResetTo s t ∧
    t.pd.cause = (if s.pd.cold then 0 else 1) ∧
    (s.lc.run = none → t.clk.now = s.clk.now ∧ t.ve.floors = (if s.pd.cold then [] else s.ve.floors))) ∧
  (∀ (low : Nat) (s : State), low < 100 → exec (.devRstNAssert low) s = .next s) ∧
  (∀ (low : Nat) (s : State), 100 ≤ low → low < 1000 → ∃ t, exec (.devRstNAssert low) s = .next t ∧
    (ResetTo s t ∨ t = { s with clk := { s.clk with free := s.clk.free + 1 } })) ∧
  (∀ (k : ClockFault) (s : State), s.pd.cold = false → ∃ t, exec (.clockMonitorFault k) s = .next t ∧ ResetTo s t ∧
    t.pd.cause = 6 ∧ (s.lc.run = none → t.ve.floors = s.ve.floors)) ∧
  (∀ (b : Fin 15) (low : Nat) (s : State), s.pd.cold = false → 1000 ≤ low → ∃ t, exec (.ioBankLow b low) s = .next t ∧
    ResetTo s t ∧ t.pd.cause = 7 ∧ t.pd.bank = BitVec.ofNat 4 b.val ∧ t.pd.bankOk = clrBit s.pd.bankOk b.val) ∧
  (∀ (c : Core) (s : State), s.pd.inReset = false → s.pd.cold = false → (s.he.cores[c]).st = .nmi →
    ∃ t, exec (.resetNow (.core c)) s = .next t ∧ ResetTo s t ∧ t.pd.cause = 3) ∧
  (∀ (c : Core) (s : State), (s.he.cores[c]).st ≠ .nmi → exec (.resetNow (.core c)) s = .next s) ∧
  (∀ (at_ : Nat) (s : State), s.pd.inReset = false → s.pd.cold = false → s.wd.hardAt = some at_ →
    ∃ t, exec .hardTimerExpiry s = .next t ∧ ResetTo s t ∧ t.pd.cause = 2 ∧
      (s.lc.run = none → t.clk.now = max s.clk.now (at_ + 500000)))

/-- The supplies and the release of a reset. A core supply low for 1 us resets cold, clears the RWS floors and holds the reset
with the AO domain on its battery, and a shorter dip makes the next device reset a cold one; its return ends that hold 1 ms
later. A released reset samples the levels, and the straps where it is DEV_RST_N that is released, marks the next reset warm,
starts the cores from their reset values and the master watchdog, and admits the tinder ROM alone; it is refused while the
supply or HALT_HOLD holds it. A bank's supply that is back in range is marked so, and the level found first is kept. -/
def Obligations.SuppliesHoldAndReleaseTheReset : Prop :=
  (∀ (low : Nat) (s : State), 1000 ≤ low → ∃ t, exec (.coreSupplyLow low) s = .next t ∧ ResetTo s t ∧ t.pd.cause = 0 ∧
    t.ve.floors = [] ∧ t.pd.coreOk = false ∧ t.pd.holdSupply = true ∧ t.pd.cold = true ∧ t.tp.battery = true) ∧
  (∀ (low : Nat) (s : State), low < 1000 → exec (.coreSupplyLow low) s = .next { s with pd := { s.pd with cold := true } }) ∧
  (∀ s : State, s.pd.holdSupply = true → exec .coreSupplyRestored s = .next { s with
    clk := { s.clk with now := s.clk.now + 500000 }
    pd := { s.pd with coreOk := true, holdSupply := false }
    tp := { s.tp with battery := false } }) ∧
  (∀ (x : Straps) (s : State), s.pd.inReset = true → s.pd.released = false → s.pd.holdSupply = false → s.pd.holdHalt = false →
    ∃ t, exec (.deviceResetRelease x) s = .next t ∧ t.pd.released = true ∧ t.pd.inReset = true ∧ t.pd.cold = false ∧
      t.pd.refOk = true ∧ t.clk.resetAt = s.clk.now ∧ t.kv.esFail = (s.kv.esFail || !x.entropyOk) ∧
      t.pr.ord = (if s.pd.cause.toNat ≤ 1 then x.pairStrap else s.pr.ord) ∧
      t.os.mode = (if s.pd.cause.toNat ≤ 1 then x.word.getLsbD 0 else s.os.mode) ∧
      (t.wd.w[(4 : Fin 5)]).st = .resetTiming ∧ (t.wd.w[(4 : Fin 5)]).openUs = 1000000 ∧ t.otp = s.otp ∧
      t.he = { s.he with cores := State.reset.he.cores } ∧ t.tp.ao = s.tp.ao ∧ t.ch = s.ch) ∧
  (∀ (x : Straps) (s : State), s.pd.inReset = false ∨ s.pd.released = true ∨ s.pd.holdSupply = true ∨ s.pd.holdHalt = true →
    exec (.deviceResetRelease x) s = .next s) ∧
  (∀ (b : Fin 15) (v : Bool) (s : State), (b.val = 14 → v = false) → s.pd.lvlSeen.getLsbD b.val = false →
    exec (.ioBankInRange b v) s = .next { s with pd := { s.pd with
      bankOk := setBit s.pd.bankOk b.val, lvlSeen := setBit s.pd.lvlSeen b.val, bankLvl := putBit s.pd.bankLvl b.val v } }) ∧
  (∀ (b : Fin 15) (v : Bool) (s : State), s.pd.lvlSeen.getLsbD b.val = true → s.pd.bankLvl.getLsbD b.val ≠ v →
    exec (.ioBankInRange b v) s = .next { s with pd := { s.pd with bankOk := clrBit s.pd.bankOk b.val } })

/-- The tinder ROM runs its steps once a reset and never starts kindling itself; on a BLANK device with no open life-cycle mark
and nothing deferred it stops after step 2, with no slot chosen and the vault's roots not loaded. KINDLING_BOOT extends TALLY0
with the chosen slot's image digest, locks it, and core 0 starts at the image's ENTRY; with no slot chosen it does nothing. A
unit idle for 10 us is gated. -/
def Obligations.BootRunsOnceAndExtendsTally0 : Prop :=
  (∀ s : State, s.boot.ran = true ∨ s.pd.released = false → exec .tinderStart s = .next (settleAll s)) ∧
  (∀ s : State, s.pd.released = true → s.boot.ran = false → ∃ t, exec .tinderStart s = .next t ∧ t.boot.ran = true ∧
    t.boot.kindling = s.boot.kindling) ∧
  (∀ s : State, s.pd.released = true → s.boot.ran = false → lcState s = .blank → openMarks s = [] → s.tp.ao.pend = 0 →
    s.tp.ao.unchained = 0 → s.tp.ao.deferResp = 0 → s.kv.loaded = false → exec .tinderStart s = .next (settleAll
      { s with
        pd := { s.pd with pllLock := true, inReset := false }
        boot := { s.boot with ran := true }
        kv := { s.kv with loaded := true, awkNew := false } })) ∧
  (∀ (k : Nat) (s : State), s.pd.inReset = false → s.boot.boot = some k → s.boot.kindling = false →
    (s.he.cores[(0 : Core)]).st = .running →
    ∃ t, exec .kindlingBoot s = .next t ∧ t.boot = { s.boot with kindling := true, on := false } ∧
      (t.mb.tallies[(0 : Fin 64)]).1 = tallyStep (s.mb.tallies[(0 : Fin 64)]).1 ((imageDigest s k).getD 0) ∧
      (t.mb.tallies[(0 : Fin 64)]).2 = (s.mb.tallies[(0 : Fin 64)]).2 + 1 ∧ t.mb.tallyLock.getLsbD 0 = true ∧
      (t.he.cores[(0 : Core)]).pc = BitVec.ofNat 32 (be32 (slotHdr s k) 28) ∧ (t.he.cores[(0 : Core)]).st = (s.he.cores[(0 : Core)]).st ∧
      t = { s with boot := t.boot, mb := t.mb, he := t.he }) ∧
  (∀ s : State, s.boot.boot = none → exec .kindlingBoot s = .next s) ∧
  (∀ (e : Fin 12) (s : State), s.pd.inReset = false → s.ve.engines[e] = none →
    exec (.idleGate (.hash e)) s = .next { s with pd := { s.pd with gatedHash := setBit s.pd.gatedHash e.val } }) ∧
  (∀ (e : Fin 12) (r : EngRun) (s : State), s.ve.engines[e] = some r → exec (.idleGate (.hash e)) s = .next s)

/-! Host transactions. -/

/-- The row of a host transaction by the class its opcode-table entry must have (Table 2.3; 0 is UNKNOWN). -/
def Sys2Proof.Machine.hostRow (cls : Nat) (c : Ch) (t : HostTxn) : Instr :=
  match cls with
  | 0 => .unknown c t
  | 1 => .read c t
  | 2 => .program c t
  | 3 => .erase c t
  | 4 => .wren c t
  | 5 => .wrdi c t
  | 6 => .rdsr c t
  | 7 => .rdreg c t
  | 8 => .wrreg c t
  | 9 => .sfdp c t
  | 10 => .readId c t
  | 11 => .addr4Enter c t
  | 12 => .addr4Exit c t
  | 13 => .protoSwitch c t
  | 14 => .resetEn c t
  | 15 => .reset c t
  | 16 => .suspend c t
  | _ => .resume c t

/-- The fall of H_CS_N: one host-service billet is bound, a mode change asked for before takes effect, nothing is driven yet,
RESET_EN's arming ends, and on a mirror channel the access on the flash side is cut. -/
def Sys2Proof.Machine.hostBegin (s : State) (c : Ch) : State :=
  let b := { s with
    bt := { s.bt with peakHs := max s.bt.peakHs (useOf s .hs + 1) }
    ch := s.ch.set c { hostFall s.ch[c] with hostOut := [], hostDriven := false, rstArmed := false } }
  if hasMirror (hostFall s.ch[c]) then cutPort b c true else b

/-- The opcode-table entry that decodes a transaction, in the mode that holds from the fall of H_CS_N. -/
def Sys2Proof.Machine.hostOpc (s : State) (c : Ch) (t : HostTxn) : Word := opcOf (hostFall s.ch[c]) t.op

/-- The transaction's end: closed verdict blocks go out, then the requesters run and the release gate is evaluated. -/
def Sys2Proof.Machine.hostEnd (c : Ch) (u : State) : Host.Outcome State Fault Refusal := .next (settle (pumpBlocks u) c)

/-- The port takes a transaction of the class given. -/
def Sys2Proof.Machine.HostTakes (s : State) (c : Ch) (t : HostTxn) (cls : Nat) : Prop :=
  s.pd.inReset = false ∧ s.ec.locked = true ∧ connected s.ch[c] = true ∧ s.pr.cut.getLsbD c.val = false ∧
    txnClass (hostFall s.ch[c]) t = cls

/-- It is not overspeed, its opcode's OPACT is the one given, and the opcode is not logged. -/
def Sys2Proof.Machine.HostActs (s : State) (c : Ch) (t : HostTxn) (act : Nat) : Prop :=
  overspeed (hostBegin s c).ch[c] (hostOpc s c t) t = false ∧ opcAct (hostOpc s c t) = act ∧
    opcLog (hostOpc s c t) = false

/-- The rows without an address that return data, and those that carry out a command. -/
def Sys2Proof.Machine.dataClasses : List Nat := [6, 7, 9, 10]
def Sys2Proof.Machine.commandClasses : List Nat := [4, 5, 8, 11, 12, 13, 14, 15, 16, 17]

/-- Completion by Table 2.7 of a row that carries out a command. -/
def Sys2Proof.Machine.hostDone (cls : Nat) (t : HostTxn) : Bool :=
  if cls = 8 then t.whole && decide (1 ≤ t.units) else t.whole && t.units == 0

/-- A transaction on an unconnected port, or before the lock, and one whose opcode is of another class than the row's, change
nothing. The transaction that a takeover cut off has its effect, but the port drives nothing of it, and is heard again
afterwards. All eighteen classes. -/
def Obligations.HostRowsNeedTheirClass : Prop :=
  (∀ (cls : Nat) (c : Ch) (t : HostTxn) (s : State), cls ≤ 17 → connected s.ch[c] = false ∨ s.ec.locked = false →
    exec (hostRow cls c t) s = .next s) ∧
  (∀ (cls : Nat) (c : Ch) (t : HostTxn) (s : State), cls ≤ 17 → txnClass (hostFall s.ch[c]) t ≠ cls →
    exec (hostRow cls c t) s = .next s) ∧
  (∀ (cls : Nat) (c : Ch) (t : HostTxn) (s : State), cls ≤ 17 → s.pd.inReset = false →
    s.ec.locked = true → connected s.ch[c] = true → s.pr.cut.getLsbD c.val = true → txnClass (hostFall s.ch[c]) t = cls →
    ∃ u, exec (hostRow cls c t) { s with pr := { s.pr with cut := clrBit s.pr.cut c.val } } = .next u ∧
      exec (hostRow cls c t) s = .next (modCh u c (fun k => { k with hostOut := [], hostDriven := false })))

/-- What the command rows do at commit under ALLOW: WREN, WRDI, RESET_EN, SUSPEND and RESUME change exactly their own bits of the
port; ADDR4_ENTER, ADDR4_EXIT, PROTO_SWITCH and RESET ask for a mode that holds from the next fall of H_CS_N, where the port's
address mode, its profile, or both with WEL and SUSP change; RESET acts only behind RESET_EN. -/
def Obligations.HostCommandsChangeTheirOwnBits : Prop :=
  ∀ (c : Ch) (t : HostTxn) (s : State), s.pd.inReset = false → HostActs s c t 1 → t.whole = true → t.units = 0 →
    let v := grVerdict (hostBegin s c) c 1
    (HostTakes s c t 4 → exec (.wren c t) s = hostEnd c (modCh v c (fun k => { k with wel := true }))) ∧
    (HostTakes s c t 5 → exec (.wrdi c t) s = hostEnd c (modCh v c (fun k => { k with wel := false }))) ∧
    (HostTakes s c t 11 → exec (.addr4Enter c t) s = hostEnd c (modCh v c (fun k => { k with next := some (.addr4 true) }))) ∧
    (HostTakes s c t 12 → exec (.addr4Exit c t) s = hostEnd c (modCh v c (fun k => { k with next := some (.addr4 false) }))) ∧
    (HostTakes s c t 13 → exec (.protoSwitch c t) s = hostEnd c (modCh v c (fun k => { k with next := some .proto }))) ∧
    (HostTakes s c t 14 → exec (.resetEn c t) s = hostEnd c (modCh v c (fun k => { k with rstArmed := true }))) ∧
    (HostTakes s c t 15 → s.ch[c].rstArmed = true → exec (.reset c t) s = hostEnd c (modCh v c (fun k =>
      { k with next := some .reset }))) ∧
    (HostTakes s c t 15 → s.ch[c].rstArmed = false → exec (.reset c t) s = hostEnd c v) ∧
    (HostTakes s c t 16 → exec (.suspend c t) s = hostEnd c (modCh v c (fun k => { k with susp := k.susp || k.wip }))) ∧
    (HostTakes s c t 17 → exec (.resume c t) s = hostEnd c (modCh v c (fun k => { k with susp := false }))) ∧
    (∀ k : Chan,
      (k.next = none → hostFall k = { k with txnAlt := k.altOn }) ∧
      (∀ on : Bool, k.next = some (.addr4 on) → hostFall k = { k with addr4 := on, next := none, txnAlt := k.altOn }) ∧
      (k.next = some .proto → hostFall k = { k with
        altOn := !k.altOn && k.cfg.alt.isSome, next := none, txnAlt := !k.altOn && k.cfg.alt.isSome }) ∧
      (k.next = some .reset → (hostFall k).altOn = false ∧ (hostFall k).addr4 = k.cfg.rst.addr4 ∧ (hostFall k).wel = false ∧
        (hostFall k).susp = false ∧ (hostFall k).next = none ∧ (hostFall k).wip = k.wip ∧ (hostFall k).img = k.img))

/-- WRREG: without WEL, or while WIP is set, it has no effect; else data byte k goes to register byte REG + k, only the writable
bits change, bytes past 7 are ignored and WEL clears. -/
def Obligations.WrregWritesTheWritableBits : Prop :=
  (∀ (c : Ch) (t : HostTxn) (s : State), HostTakes s c t 8 → HostActs s c t 1 → t.whole = true → 1 ≤ t.units →
    let v := grVerdict (hostBegin s c) c 1
    let d := t.data.take (t.units * unitLen v.ch[c])
    let reg := opcReg (hostOpc s c t)
    ((v.ch[c].wel = false ∨ v.ch[c].wip = true) → exec (.wrreg c t) s = hostEnd c v) ∧
    (v.ch[c].wel = true → v.ch[c].wip = false → v.ch[c].altOn = false → exec (.wrreg c t) s = hostEnd c (modCh v c (fun k =>
      { k with img := imgWrite k.cfg.rst.regWr reg d k.img, wel := false }))) ∧
    (v.ch[c].wel = true → v.ch[c].wip = false → v.ch[c].altOn = true → exec (.wrreg c t) s = hostEnd c (modCh v c (fun k =>
      { k with imgAlt := imgWrite (k.cfg.alt.getD k.cfg.rst).regWr reg d k.imgAlt, wel := false })))) ∧
  (∀ (mask img : Vector Byte 8) (reg : Nat) (d : List Byte) (i : Fin 8),
    (imgWrite mask reg d img)[i] =
      if reg ≤ i.val ∧ i.val < reg + d.length then (img[i] &&& ~~~mask[i]) ||| (byteAt d (i.val - reg) &&& mask[i]) else img[i])

/-- What the data rows return under ALLOW: RDSR the emulated status on every byte (while no status read of the channel's write
ends during it), RDREG its register on every byte, SFDP the composed space and 0xFF past its end, READ_ID the ID string and
0xFF after it. RDSR's byte shows WIP unless SUSP hides it, WEL, and bits 7 to 2 of the image. -/
def Obligations.HostDataRowsServeTheirRegisters : Prop :=
  (∀ (c : Ch) (t : HostTxn) (s : State), s.pd.inReset = false → HostActs s c t 1 →
    let v := grVerdict (hostBegin s c) c 1
    let k := (hostBegin s c).ch[c]
    let n := t.units * unitLen k
    let e := hostOpc s c t
    (HostTakes s c t 6 → t.polls = [] → exec (.rdsr c t) s = hostEnd c (hostServe v c (List.replicate n (statusByte k)))) ∧
    (HostTakes s c t 7 → exec (.rdreg c t) s = hostEnd c (hostServe v c
      (List.replicate n ((if k.altOn then k.imgAlt else k.img).toList.getD (opcReg e) 0)))) ∧
    (HostTakes s c t 9 → exec (.sfdp c t) s = hostEnd c (hostServe v c
      ((List.range n).map (fun i => k.cfg.sfdp.getD (txnAddr k e t + i) 0xFF)))) ∧
    (HostTakes s c t 10 → exec (.readId c t) s = hostEnd c (hostServe v c
      ((List.range n).map (fun i => (profOf k).id.getD i 0xFF))))) ∧
  (∀ k : Chan, (statusByte k).getLsbD 0 = (k.wip && !k.susp) ∧ (statusByte k).getLsbD 1 = k.wel ∧
    ∀ i : Nat, 2 ≤ i → i < 8 → (statusByte k).getLsbD i = ((if k.altOn then k.imgAlt else k.img)[0]).getLsbD i)

/-- What stops a row that carries no address: under DENY a data row returns deny data, a command row nothing, and both are
counted; an incomplete command is dropped, counted and recorded; an overspeed one is dropped, counted and recorded; under
ESCALATE the host is put into reset and the record says so. -/
def Obligations.DeniedAndAbnormalHostRows : Prop :=
  (∀ (cls : Nat) (c : Ch) (t : HostTxn) (s : State), cls ∈ dataClasses → HostTakes s c t cls → HostActs s c t 2 →
    exec (hostRow cls c t) s = hostEnd c (hostServe (cntDeny (grVerdict (hostBegin s c) c 0) c) c
      (List.replicate (t.units * unitLen (hostBegin s c).ch[c]) (denyByte (hostBegin s c).ch[c])))) ∧
  (∀ (cls : Nat) (c : Ch) (t : HostTxn) (s : State), cls ∈ commandClasses → HostTakes s c t cls → HostActs s c t 2 →
    hostDone cls t = true → exec (hostRow cls c t) s = hostEnd c (cntDeny (grVerdict (hostBegin s c) c 0) c)) ∧
  (∀ (cls : Nat) (c : Ch) (t : HostTxn) (s : State), cls ∈ commandClasses → HostTakes s c t cls → HostActs s c t 1 →
    hostDone cls t = false → exec (hostRow cls c t) s =
      hostEnd c (grRecord (evCount (grVerdict (hostBegin s c) c 1) c 1) c 0x11 t.op 0xFF 0 t.units 1)) ∧
  (∀ (cls : Nat) (c : Ch) (t : HostTxn) (s : State), cls ∈ dataClasses ∨ cls ∈ commandClasses → HostTakes s c t cls →
    overspeed (hostBegin s c).ch[c] (hostOpc s c t) t = true →
    let b := hostBegin s c
    exec (hostRow cls c t) s = hostEnd c (grRecord (evCount (useFree b 1) c 3) c 0x13 t.op 0xFF 0 t.units
      (Config.freeByte b.clk.free).toNat)) ∧
  (∀ (cls : Nat) (c : Ch) (t : HostTxn) (s : State), cls ∈ commandClasses → HostTakes s c t cls → HostActs s c t 3 →
    hostDone cls t = true → exec (hostRow cls c t) s =
      hostEnd c (grRecord (escalate (grVerdict (hostBegin s c) c 4) c none true) c 0x02 t.op 0xFF 0 t.units 4)) ∧
  (∀ (cls : Nat) (c : Ch) (t : HostTxn) (s : State), cls ∈ dataClasses → HostTakes s c t cls → HostActs s c t 3 →
    exec (hostRow cls c t) s = hostEnd c (grRecord (hostServe (escalate (cntDeny (grVerdict (hostBegin s c) c 4) c) c none true) c
      (List.replicate (t.units * unitLen (hostBegin s c).ch[c]) (denyByte (hostBegin s c).ch[c]))) c 0x02 t.op 0xFF 0 t.units 4)) ∧
  (∀ (c : Ch) (t : HostTxn) (s : State), HostTakes s c t 0 →
    let b := hostBegin s c
    let fast := tooFast b.ch[c] (opcEdges b.ch[c]) t
    let v := evCount (if fast then evCount b c 3 else b) c 2
    (unkEsc b.ch[c] = false ∨ fast = true → exec (.unknown c t) s = hostEnd c (grRecord (useFree v 1) c 0x12 t.op 0xFF 0 t.units
      (Config.freeByte b.clk.free).toNat)) ∧
    (unkEsc b.ch[c] = true → fast = false → exec (.unknown c t) s = hostEnd c
      (grRecord (escalate (grVerdict v c 4) c none true) c 0x02 t.op 0xFF 0 t.units 4))) ∧
  (∀ (c : Ch) (d : TruncAt) (t : HostTxn) (s : State), s.pd.inReset = false → s.ec.locked = true → connected s.ch[c] = true →
    ∃ u, exec (.truncatedTransaction c d t) s = .next (settle u c) ∧
      (u.ch[c]).evTrunc = satInc (hostFall s.ch[c]).evTrunc ∧ (u.ch[c]).hostDriven = false ∧ (u.ch[c]).hostOut = [] ∧
      (u.ch[c]).wel = (hostFall s.ch[c]).wel ∧ (u.ch[c]).img = (hostFall s.ch[c]).img ∧ u.ve = s.ve)

/-- READ. Within one ember: a VERIFIED region whose ember is resident serves the frame's bytes; no enabled descriptor, and OPACT
DENY, serve deny data and count it. -/
def Obligations.ReadServesTheResidentEmberOrDenyData : Prop :=
  ∀ (c : Ch) (t : HostTxn) (s : State), HostTakes s c t 1 →
    let b := hostBegin s c
    let k := b.ch[c]
    let e := hostOpc s c t
    let va := txnAddr k e t
    let n := t.units * unitLen k
    overspeed k e t = false → opcLog e = false → va % 4096 + n ≤ 4096 →
    (opcAct e = 2 → ∃ u, exec (.read c t) s = hostEnd c u ∧ (u.ch[c]).hostOut = List.replicate n (denyByte k) ∧
      (u.ch[c]).cntDeny = k.cntDeny + 1) ∧
    (opcAct e = 0 → windowAt b k c va = none → governing k (va / 4096) = none →
      ∃ u, exec (.read c t) s = hostEnd c u ∧ (u.ch[c]).hostOut = List.replicate n (denyByte k) ∧
        (u.ch[c]).cntDeny = k.cntDeny + 1) ∧
    (∀ (i : Fin 64) (id : EmberId) (f : Nat) (fr : Frame), opcAct e = 0 → windowAt b k c va = none →
      governing k (va / 4096) = some i → rgnRd k.cfg.desc[i] = 1 → isSubst k i = false → rgnOpen k.cfg.desc[i] = false →
      emberAt k c i false va = some id → residentFrame b id = some (f, fr) → t.parity = none →
      ∃ u, exec (.read c t) s = hostEnd c u ∧ (u.ch[c]).hostOut = slice fr.data (va % 4096) n ∧
        (u.ch[c]).hostDriven = (!isBanked u && bankUp u (chanBank c.val)))

/-- PROGRAM and ERASE outside an in-band window: without WEL or during WIP nothing follows; a denied one clears WEL and is
counted; an allowed one sets WIP, is counted and becomes the channel's committed write at its place on the flash; an
incomplete one is dropped. -/
def Obligations.ProgramAndEraseCommitOrDrop : Prop :=
  ∀ (er : Bool) (c : Ch) (t : HostTxn) (s : State),
    let row : Instr := if er then .erase c t else .program c t
    let b := hostBegin s c
    let k := b.ch[c]
    let e := hostOpc s c t
    let va := txnAddr k e t
    let v := wrJudge k e va er
    let kind : Nat → WriteKind := fun fa => if er then (if opcBig e then .erase64 else .erase4) else .prog (pageBytes k fa (t.data.take (t.units * unitLen k)))
    let whole : Bool := if er then bareDone t else progDone t k
    HostTakes s c t (if er then 3 else 2) → windowAt s (hostFall s.ch[c]) c (txnAddr (hostFall s.ch[c]) e t) = none → overspeed k e t = false →
    opcLog e = false → v.rgn.all (fun i => !rgnLog k.cfg.desc[i] && !rgnAlert k.cfg.desc[i]) = true →
    (v.code = 1 ∨ v.code = 5 → whole = true → (k.wel = false ∨ k.wip = true) →
      exec row s = hostEnd c (grVerdict b c v.code)) ∧
    (v.code = 0 → whole = true → k.wel = true → k.wip = false →
      exec row s = hostEnd c (modCh (cntDeny (grVerdict b c 0) c) c (fun k => { k with wel := false }))) ∧
    (v.code = 1 → whole = false →
      exec row s = hostEnd c (grRecord (evCount (grVerdict b c 1) c 1) c 0x11 t.op v.desc va t.units 1)) ∧
    (∀ (fp : Ch) (cs : Bool) (fa : Nat), v.code = 1 → whole = true → k.wel = true → k.wip = false →
      physIn k .a va = some (fp, cs, fa) →
      exec row s = hostEnd c (writeDraw (modCh (grVerdict b c 1) c (fun k => { k with
        wip := true, cntWcommit := k.cntWcommit + 1
        wr := some { fp := fp, cs := cs, addr := fa, kind := kind fa, staged := false, st := .pending, billet := none } })) c))

/-! Flash-side ports, raw transfers and the grate's own rows. -/

/-- The access a port has in progress ends what it was for. A grant gives an idle port its first head demand and leaves a busy or
owned port alone; a completed fill puts its data into its frame, returns its billet and sends the ember to its check; a
committed write's operation leaves its flash busy; a status read that shows the flash busy is asked again, and one that shows
it idle clears WIP and WEL together and ends the write. -/
def Obligations.FlashAccessesRunToTheirEnd : Prop :=
  (∀ (g : PortGrant) (s : State),
    (s.port[g.port].cur).isSome = true ∨ (s.ch[g.port].raw.own = true ∧ isBanked s = false) →
    exec (.flashAccessGrant g) s = .next s) ∧
  (∀ (p : Ch) (seen : Option PortSample) (i : QItem) (rest : List QItem) (s : State), s.pd.inReset = false → isBanked s = false →
    s.port[p].cur = none → s.ch[p].raw.own = false → s.port[p].heads = i :: rest →
    ∃ t, exec (.flashAccessGrant ⟨p, seen⟩) s = .next t ∧
      t.port[p] = { s.port[p] with
        heads := rest
        cur := some { item := i, kind := .read, head := true, aged := false, startAt := s.clk.now, div := s.ch[p].div }
        sent := (t.port[p]).sent } ∧
      (∀ q : Ch, q ≠ p → t.port[q] = s.port[q]) ∧ t = { s with port := t.port, bt := t.bt }) ∧
  (∀ (p : Ch) (data : List Byte) (a : Access) (u : Billet) (id : EmberId) (why : FillWhy) (f : Nat) (s : State),
    s.pd.inReset = false → s.port[p].cur = some a → a.kind = .read → data.length = 4096 → unitOf s a.item.id = some u →
    u.work = .fill id why f → s.ch[id.ch].slots.any (fun x => x.billet = a.item.id) = false →
    let d := setResume (portFree (reachTime s (a.startAt + readCycles s p id.cs a (4096 - u.resume))) p) a.item.id 0
    let v := slotTo (retire d a.item.id) id .queued
    isServing v id = true →
    exec (.fillComplete p data) s = .next (settleAll (settleAll (startCheck (frameFilled v f data) (some f) id data)))) ∧
  (∀ (p : Ch) (a : Access) (u : Billet) (c : Ch) (w : PendWrite) (s : State), s.pd.inReset = false →
    s.port[p].cur = some a → a.kind = .write → unitOf s a.item.id = some u → u.work = .write c → s.ch[c].wr = some w →
    w.cs = false → (∀ (c' : Ch) (w' : PendWrite), s.ch[c'].wr = some w' → w'.billet.isSome = true) →
    exec (.writeExecute p) s = .next (settleAll (modPort
      (modCh s c (fun k => { k with wr := some { w with st := .polling s.clk.now } })) p
      (fun x => { x with cur := none, status := x.status ++ [a.item.id], busy0 := some a.item.id })))) ∧
  (∀ (p : Ch) (st : Byte) (a : Access) (u : Billet) (c : Ch) (w : PendWrite) (s : State), s.pd.inReset = false →
    s.port[p].cur = some a → a.kind = .status → unitOf s a.item.id = some u → u.work = .write c → s.ch[c].wr = some w →
    w.cs = false →
    let v := portFree s p
    (st &&& (flashOf v p false).wipMask ≠ 0 → exec (.statusPoll p st) s = .next (settleAll (modPort
      (modCh v c (fun k => { k with wr := some { w with st := .polling v.clk.now } })) p
      (fun x => { x with status := x.status ++ [a.item.id] })))) ∧
    (st &&& (flashOf v p false).wipMask = 0 → exec (.statusPoll p st) s = .next (settleAll (pumpStage (settleAll (retire (modPort
      (modCh v c (fun k => { k with wr := none, wip := false, wel := false })) p
      (fun x => { x with busy0 := none })) a.item.id))))))

/-- Raw transfers of a port by a core that selects it alone. OWN_REQ 1 is a hold (no fill being queued there) and 0 ends ownership
and any transfer; ownership is granted when no fill uses the port and every host of it is held. START is rejected with a code
and clocks nothing without ownership, with OUT above LEN, and with eight lanes or DDR on a narrow channel; otherwise it clocks
ceil(LEN / b) edges. A unit that follows its partner is granted no port and clocks nothing. ABORT ends the transfer with code
4; the end captures the bits not driven. -/
def Obligations.RawTransfersFollowOwnership : Prop :=
  ∀ (m : Core) (p : Ch) (s : State), s.pd.inReset = false → selOf s (.core m) = { selOf s (.core m) with ch := p, bcast := false } →
    let r := s.ch[p].raw
    let put := fun (r : Raw) => { s with ch := s.ch.set p { s.ch[p] with raw := r } }
    let ddr : Nat := if r.ddr then 2 else 1
    let len : Nat := if r.len = 0 then 4096 else r.len.toNat
    (r.ownReq = false → queuedFills s p = [] →
      exec (.ownReq (.core m) true) s = .next (settleAll (settleAll (put { r with ownReq := true })))) ∧
    (exec (.ownReq (.core m) false) s =
      .next (settleAll (settleAll (put { r with ownReq := false, own := false, busy := false, held := false })))) ∧
    (isBanked s = false → r.ownReq = true → r.own = false → fillsOn s p = false → (∀ c : Ch, (portsOf s.ch[c]).contains p = true → hostHeld s c = true) →
      exec (.rawOwnershipGrant p) s = .next (settleAll (put { r with own := true }))) ∧
    (r.busy = false → r.own = false ∨ isBanked s = true → exec (.rawStart (.core m)) s = .next (put { r with err := true, errcode := 1 })) ∧
    (isBanked s = false → r.busy = false → r.own = true → len < r.out.toNat →
      exec (.rawStart (.core m)) s = .next (put { r with err := true, errcode := 2 })) ∧
    (isBanked s = false → r.busy = false → r.own = true → r.out.toNat ≤ len → 8 ≤ p.val ∧ (r.lanes = 3 ∨ r.ddr = true) →
      exec (.rawStart (.core m)) s = .next (put { r with err := true, errcode := 3 })) ∧
    (isBanked s = false → r.busy = false → r.own = true → r.out.toNat ≤ len → p.val < 8 ∨ (r.lanes ≠ 3 ∧ r.ddr = false) →
      exec (.rawStart (.core m)) s = .next (put { r with
        busy := true, errcode := 0, edges := cdiv len (2 ^ r.lanes.toNat * ddr), driven := (List.range r.out.toNat).map (rawBit r) })) ∧
    (∀ (n : Nat) (bits : List Bool), r.busy = true → ∃ x, exec (.rawAbort (.core m) n bits) s = .next (put x) ∧
      x.busy = false ∧ x.done = true ∧ x.err = true ∧ x.errcode = 4 ∧ x.held = false ∧ x.own = r.own ∧ x.len = r.len) ∧
    (∀ bits : List Bool, r.busy = true → ∃ x, exec (.rawTransferEnd p bits) s = .next (put x) ∧
      x.busy = false ∧ x.done = true ∧ x.held = r.holdCs ∧ x.own = r.own ∧
      (∀ j : Nat, j < len - r.out.toNat → rawBit x j = bits.getD j false) ∧
      (∀ j : Nat, len - r.out.toNat ≤ j → rawBit x j = rawBit r j))

/-- Escalation holds and the substituted state. Under REBOOT or GOLDEN the hold ends ESC_HOLD ms after HRST_N went low, unless it
is held as under HOLD; RELEASE by a core ends any hold and clears ESC_COUNT; an external master's RELEASE and its writes to
GR_SUBST have no effect; a core clears exactly the substituted bits it writes 1, and the frames that then serve no descriptor
are freed. -/
def Obligations.EscalationHoldsEndAsTheModeSays : Prop :=
  (∀ (c : Ch) (s : State), s.pd.inReset = false → s.ch[c].escHeld = true → s.ch[c].escForever = false →
    exec (.escHoldExpiry c) s = .next (settleAll (settle (modCh
      (reachTime s (s.ch[c].escAt + 500000 * escHoldMs s.ch[c])) c (fun k => { k with escHeld := false })) c))) ∧
  (∀ (c : Ch) (s : State), s.pd.inReset = false → s.ch[c].escForever = true →
    exec (.escHoldExpiry c) s = .next (settleAll s)) ∧
  (∀ (m : Core) (s : State), s.pd.inReset = false → (selOf s (.core m)).bcast = false →
    exec (.escRelease (.core m)) s = .next (settleAll (settle (modCh s (selOf s (.core m)).ch (fun k => { k with
      escHeld := false, escForever := false, escCount := 0 })) (selOf s (.core m)).ch))) ∧
  (∀ (x : Fin 6) (s : State), exec (.escRelease (.ext x)) s = .next s) ∧
  (∀ (m : Core) (v : Word) (s : State), s.pd.inReset = false → (selOf s (.core m)).bcast = false →
    exec (.substClear (.core m) false v) s = .next (settleAll (dropUnserved (modCh s (selOf s (.core m)).ch (fun k => { k with
      subst := k.subst &&& ~~~(v.setWidth 64) })) (selOf s (.core m)).ch)) ∧
    exec (.substClear (.core m) true v) s = .next (settleAll (dropUnserved (modCh s (selOf s (.core m)).ch (fun k => { k with
      subst := k.subst &&& ~~~((v.setWidth 64) <<< 32) })) (selOf s (.core m)).ch))) ∧
  (∀ (x : Fin 6) (hi : Bool) (v : Word) (s : State), exec (.substClear (.ext x) hi v) s = .next s)

/-- Writes of GR_RGN_ACT(i) at run time: without LOCKED, and with ADJ 0, they have no effect; with ADJ 1 either RD, WR, ER, MISS,
LOG and ALERT are taken, nothing else of the descriptor changes and the frames that then serve no descriptor are freed, or the
write is rejected whole and ADJ_REJ is set. -/
def Obligations.AdjustableDescriptorsTakeOnlyTheirFields : Prop :=
  ∀ (m : Core) (i : Fin 64) (v : Word) (s : State), s.pd.inReset = false → (selOf s (.core m)).bcast = false →
    let c := (selOf s (.core m)).ch
    let d := (s.ch[c]).cfg.desc[i]
    (s.ch[c].locked = false ∨ d.act.getLsbD 18 = false → exec (.rgnActWrite (.core m) i v) s = .next (settleAll s)) ∧
    (s.ch[c].locked = true → d.act.getLsbD 18 = true →
      exec (.rgnActWrite (.core m) i v) s = .next (settleAll { s with ch := s.ch.set c { s.ch[c] with adjRej := true } }) ∨
      exec (.rgnActWrite (.core m) i v) s = .next (settleAll (dropUnserved { s with
        ch := s.ch.set c { s.ch[c] with cfg := { (s.ch[c]).cfg with desc := (s.ch[c]).cfg.desc.set i { d with
          act := (d.act &&& 0xFFFCF800#32) ||| (v &&& 0x000307FF#32) } } } } c)))

/-- A log drain moves the oldest undrained record among the five sources into the own store, at the cost of a background billet:
the grate's record leaves its ring, in order, and stays where the program failed; with nothing to drain, while an own-store
erase runs, and before a leaf journal's record that is due, nothing changes. -/
def Obligations.LogDrainTakesTheOldestRecord : Prop :=
  (∀ (f : Bool) (s : State), s.pd.inReset = false → osErasing s = true ∨ leafPending s = true ∨ drainOrder s = [] →
    exec (.logDrain f) s = .next (settleAll s)) ∧
  (∀ (src t id : Nat) (s u : State), s.pd.inReset = false → osErasing s = false → leafPending s = false →
    oldest (drainOrder s) = some (src, t) → draw .bg .hearth none false .drain s = (some id, u) →
    exec (.logDrain true) s = .next (settleAll (settleAll (retire u id))) ∧
    exec (.logDrain false) s = .next (settleAll (settleAll (retire (drainOne u src) id)))) ∧
  (∀ s : State,
    drainOne s 1 = { logAppend s 1 (ringOldest 2048 s.grLog) with grLog := ringDrain 2048 (logAppend s 1 (ringOldest 2048 s.grLog)).grLog } ∧
    (logAppend s 1 (ringOldest 2048 s.grLog)).grLog = s.grLog ∧
    (ringDrain 2048 s.grLog).tail = (s.grLog.tail + 1) % 4096 ∧ (ringDrain 2048 s.grLog).times = s.grLog.times.tail)

/-! The verification engine. -/

/-- The checks that run on engines end. An anchoring whose head, signature or top page fails Table 4.4 rejects the bank with that
table's code; one that passes them anchors it; a parity error in what it read voids it. The engine's job ends first, and a
check that has jobs left waits for them. A data ember's check that passes makes its frame VALID and returns its billet; a
first mismatch reads the ember again; a second equal digest is a clinker of reason 1 and a different one of reason 2 with a
signal-integrity event; a node page that fails is a clinker of reason 3. A pass leaves the frame VALID with its data and
touches no other frame. -/
def Obligations.ChecksEndAsTheirDigestsSay : Prop :=
  (∀ (e : Fin 12) (j : HashJob) (u : Billet) (bind : Nat) (bk : BankId) (re : Bool) (b : Binding) (s : State),
    s.pd.inReset = false → engJob s e = some j → unitOf s j.billet = some u → u.work = .anchor bind bk re false →
    bindingOf s bind = some b → jobsLeft (hashEnd s e) j.billet = 0 →
    let v := hashEnd s e
    let area := u.pages.flatten
    let verdict := (headErr v b area).orElse (fun _ => sigErr v b area)
    (∀ r : Nat, u.phase = 1 → verdict = some r →
      exec (.anchoring e false) s = .next (settleTraces (pumpStage (settle (rejectBank (retire v j.billet) b bk r false) b.ch)))) ∧
    (u.phase = 1 → verdict = none →
      exec (.anchoring e false) s =
        .next (settleTraces (pumpStage (hashEnq (setPhase v j.billet 2) (unitTier v u.work) j.billet 65 u.owner)))) ∧
    (∀ r : Nat, u.phase ≠ 1 → topErr b area = some r →
      exec (.anchoring e false) s = .next (settleTraces (pumpStage (settle (rejectBank (retire v j.billet) b bk r false) b.ch)))) ∧
    (u.phase ≠ 1 → topErr b area = none →
      exec (.anchoring e false) s = .next (settleTraces (pumpStage (wakeBank (settle
        (anchorEmbers (retire (anchorOk v b bk (headOf area) area false) j.billet) b bk (headOf area) area) b.ch) b.bind bk))))) ∧
  (∀ (e : Fin 12) (j : HashJob) (u : Billet) (bind : Nat) (bk : BankId) (re st : Bool) (b : Binding) (s : State),
    s.pd.inReset = false → engJob s e = some j → unitOf s j.billet = some u → u.work = .anchor bind bk re st →
    bindingOf s bind = some b →
    exec (.anchoring e true) s = .next (settleTraces (voidUnit (hashEnd (parityCount s) e) j.billet))) ∧
  (∀ (e : Fin 12) (j : HashJob) (u : Billet) (id : EmberId) (why : FillWhy) (f : Option Nat) (first : Option Digest) (b : Binding)
    (bk : BankId) (o : EmberObj) (s : State),
    s.pd.inReset = false → engJob s e = some j → unitOf s j.billet = some u → u.work = .check id why f first → u.phase = 2 →
    let v := hashEnd s e
    jobsLeft v j.billet = 0 → bankReady v u.work = true → unitObj v u.work = some (b, bk, o) →
    let data := unitData v u
    let w := emberVerdict v b j.billet id why f first data (checkObj v b bk o data u.pages)
    exec (.emberCheck e none false) s = .next (settleTraces (pumpBlocks (pumpStage
      (if unitOf w j.billet = unitOf v j.billet then unitGo w j.billet else w))))) ∧
  (∀ (e : Fin 12) (j : HashJob) (u : Billet) (id : EmberId) (why : FillWhy) (f : Option Nat) (first : Option Digest) (s : State),
    s.pd.inReset = false → engJob s e = some j → unitOf s j.billet = some u → u.work = .check id why f first →
    exec (.emberCheck e none true) s =
      .next (settleTraces (pumpBlocks (pumpStage (voidUnit (hashEnd (parityCount s) e) j.billet))))) ∧
  (∀ (b : Binding) (uid : Nat) (id : EmberId) (why : FillWhy) (f : Option Nat) (data : List Byte) (s s' : State) (d : Digest),
    (f.isSome = true ∨ (slotOf (foldVerdict s' true b.bind 1) id).isSome = true →
      emberVerdict s b uid id why f none data (.mismatch s' d) =
        refetch (setPhase (dropPages (setWork (foldVerdict s' true b.bind 1) uid (.check id why f (some d))) uid) uid 0) uid id f) ∧
    emberVerdict s b uid id why f (some d) data (.mismatch s' d) = clinker (foldVerdict s' true b.bind 1) id 1 false ∧
    (∀ d0 : Digest, d0 ≠ d → emberVerdict s b uid id why f (some d0) data (.mismatch s' d) =
      clinker (siEvent (foldVerdict s' true b.bind 1) id.ch) id 2 false) ∧
    (∀ p : Nat, emberVerdict s b uid id why f none data (.node s' p) =
      clinker (nodeFail (foldVerdict s' true b.bind 2) b id.bank p) id 3 false)) ∧
  (∀ (uid : Nat) (id : EmberId) (f : Nat) (x : Frame) (s : State), aget s.ec.frames f = some x → arising s.ec.frames = true →
    slotOf s id = none → isServing s id = true → ∃ u v, emberPass s uid id (some f) = settle v id.ch ∧ v = strictPass u id ∧
      (∃ y, aget u.ec.frames f = some y ∧ y.st = .valid ∧ y.id = x.id ∧ y.data = x.data) ∧
      (∀ g : Nat, g ≠ f → aget u.ec.frames g = aget s.ec.frames g))

/-- Verification controls. A pre-empting job takes the victim's engine; engines that fail their test go offline and stay so; a
stage check is asked for on the inactive bank and starts when no write is outstanding there; CLIST_CLEAR drops the binding's
clinkers; a clinker hold clears only by a core's write of 1, and an external master's write does nothing; a write of
VE_BIND_FLOOR raises the floor or is ignored; a scrub step starts the next object's read where scrub is on. -/
def Obligations.VerificationControls : Prop :=
  (∀ (e : Fin 12) (r : EngRun) (t : Nat) (ag : Bool) (j : HashJob) (i : QItem) (s s' : State), s.pd.inReset = false →
    freeEng s = none → nextJob s = some (t, ag) → s.ve.engines[e] = some r → preemptVictim s t ag = some e →
    hashPick (reachTime s (blockEnd s r + 2)) = some (j, i, s') →
    ∃ v, exec (.hashPreempt e) s = .next v ∧ (v.ve.engines[e]).map (·.job) = some j ∧
      (∀ o : Fin 12, o ≠ e → v.ve.engines[o] = s'.ve.engines[o]) ∧ v.ec = s'.ec ∧ v.otp = s'.otp ∧ v.kv = s'.kv) ∧
  (∀ (e : Fin 12) (s : State), s.ve.engines[e] = none → exec (.hashPreempt e) s = .next s) ∧
  (∀ (hf : BitVec 12) (af : BitVec 2) (s : State), s.pd.inReset = false →
    let v := if (unitsWhere s (fun u => match u.work with | .kat _ => true | _ => false)).isEmpty then katStart s else s
    ∃ u, exec (.knownAnswerTest hf af) s = .next (settleAll u) ∧
      (∀ e : Fin 12, u.ve.engOnline.getLsbD e.val =
        (v.ve.engOnline.getLsbD e.val && !(hf.getLsbD e.val && (katUnit v e).isSome)))) ∧
  (∀ (m : Core) (b : Binding) (bk : BankId) (s : State), s.pd.inReset = false →
    bindingOf s (selOf s (.core m)).bind.toNat = some b → bindInactive s b = some bk →
    stageRunning s b.bind bk = false → (bankRt s b.bind bk).st ≠ .revoked →
    exec (.stageCheck (.core m)) s =
      .next (settleAll (pumpStage (setBank s b.bind bk (fun r => { r with stageReq := true }))))) ∧
  (∀ (m : Core) (b : Binding) (s : State), s.pd.inReset = false → bindingOf s (selOf s (.core m)).bind.toNat = some b →
    exec (.clistClear (.core m)) s = .next (settleAll { s with ve := { s.ve with
      clist := s.ve.clist.filter (fun e => e.bind ≠ b.bind)
      clistFull := s.ve.clistFull && decide (256 ≤ (s.ve.clist.filter (fun e => e.bind ≠ b.bind)).length) } })) ∧
  (∀ (m : Core) (v : Word) (s : State), s.pd.inReset = false → ∃ u,
    exec (.clinkerHoldClear (.core m) v) s = .next (settleAll u) ∧ u.ve.clkHold = s.ve.clkHold &&& ~~~v ∧ u.otp = s.otp) ∧
  (∀ (x : Fin 6) (v : Word) (s : State), exec (.clinkerHoldClear (.ext x) v) s = .next s) ∧
  (∀ (m : Core) (v : Word) (s : State), s.pd.inReset = false → (selOf s (.core m)).bind ≠ 0xFF →
    let b := (selOf s (.core m)).bind.toNat
    let cur := ((aget s.ve.floors b).getD 0).toNat
    exec (.bindFloorWrite (.core m) v) s =
      .next (if v.toNat ≤ cur then s else { s with ve := { s.ve with floors := aput s.ve.floors b v } })) ∧
  (∀ (b : Fin 255) (s : State), s.ve.scrubEn = false → exec (.scrubStep b) s = .next s) ∧
  (∀ (b : Fin 255) (d : Binding) (bk : BankId) (id : EmberId) (n : Nat) (s u : State), s.pd.inReset = false →
    s.ve.scrubEn = true → bindingOf s b.val = some d → d.scrubPeriod ≠ 0 → scrubBank s d = some bk →
    objEmber s d bk ((scrubObj d (bankRt s b.val bk) (bankRt s b.val bk).scrubCur).getD (.man 0)) = some id →
    flashBusy s id.fp false = false → flashBusy s id.fp true = false →
    unitsWhere s (fun u => match u.work with | .scrub bi _ _ _ _ => bi = b.val | _ => false) = [] →
    draw .bg (.ch d.ch) none false (.scrub b.val bk (bankRt s b.val bk).scrubCur id none) s = (some n, u) →
    exec (.scrubStep b) s = .next (portEnq u id.fp n false))

/-! The ember cache. -/

/-- Bank-set controls by a core on its selected bank set. A flip request is accepted only with the inactive bank ARMED for every
binding, and is applied at once where the host is held; FLIP_CANCEL withdraws it; GOLD_CLEAR is refused under a clinker hold;
STAGE_LOCK freezes staging; EC_FLIP_HOLD clears by a core's write of 1 only; ACTIVE and GOLDEN_SEL take a write only before
the lock, and never GOLDEN_SEL without a golden bank. -/
def Obligations.BankSetControls : Prop :=
  ∀ (m : Core) (c : Ch) (i : Fin 15) (b : BankSet) (s : State), s.pd.inReset = false → selBset s (.core m) = some (c, i, b) →
    (flipOk s c i = false → exec (.flipReq (.core m)) s = .next (setBset s c i (fun r => { r with reqRej := true }))) ∧
    (flipOk s c i = true → hostHeld s c = false →
      exec (.flipReq (.core m)) s = .next (settle (setBset s c i (fun r => { r with flipPend := true })) c)) ∧
    (flipOk s c i = true → hostHeld s c = true →
      exec (.flipReq (.core m)) s = .next (settle (applyFlip (setBset s c i (fun r => { r with flipPend := true })) c i) c)) ∧
    exec (.flipCancel (.core m)) s = .next (setBset s c i (fun r => { r with flipPend := false })) ∧
    (s.ve.clkHold.getLsbD c.val = true →
      exec (.goldClear (.core m)) s = .next (setBset s c i (fun r => { r with reqRej := true }))) ∧
    (s.ve.clkHold.getLsbD c.val = false → hostHeld s c = false →
      exec (.goldClear (.core m)) s = .next (settle (setBset s c i (fun r => { r with gclrPend := true })) c)) ∧
    (s.ve.clkHold.getLsbD c.val = false → hostHeld s c = true → exec (.goldClear (.core m)) s =
      .next (settle (applyGclr (applyFlip (setBset s c i (fun r => { r with gclrPend := true })) c i) c i) c)) ∧
    exec (.stageLockSet (.core m)) s = .next (setBset s c i (fun r => { r with stageLock := true })) ∧
    exec (.stageLockClr (.core m)) s = .next (setBset s c i (fun r => { r with stageLock := false })) ∧
    (∀ v : Word, exec (.flipHoldClear (.core m) v) s =
      .next (settleAll { s with ec := { s.ec with flipHold := s.ec.flipHold &&& ~~~v } })) ∧
    (∀ (x : Fin 6) (v : Word), exec (.flipHoldClear (.ext x) v) s = .next s) ∧
    (∀ v : Word, s.ec.locked = true → v.getLsbD 8 = false → v.getLsbD 9 = false → exec (.bsetMapWrite (.core m) v) s = .next s) ∧
    (∀ v : Word, s.ec.locked = false → v.getLsbD 8 = false → v.getLsbD 9 = false →
      exec (.bsetMapWrite (.core m) v) s =
        .next (setBset s c i (fun r => { r with activeB := v.getLsbD 2, goldSel := v.getLsbD 3 && b.g.isSome })))

/-- Learned prefetch. The trace window's end stops the recording as END 2 and keeps a trace of 1,024 entries or more for its
journal, as it stands then; a kept trace is sealed once its SEAL's job has ended, and written to the slot that does not hold
the newest when it is its turn at the own store, on a background billet; the adaptation pass runs every 100 ms from the lock,
starts a new interval for every channel, changes nothing before the lock, and in the banked unit makes no change of its own. -/
def Obligations.TracesAndAdaptation : Prop :=
  (∀ (c : Ch) (s : State), s.pd.inReset = false → s.ch[c].trace.recording = true →
    let v := reachTime s (s.ch[c].trace.startAt + 500000 * (1000 * s.ch[c].cfg.adapt.traceWindow))
    let w := modCh v c (fun k => { k with trace := { k.trace with recording := false, ended := 2, endAt := v.clk.now } })
    exec (.traceWindowExpiry c) s = .next (if 1024 ≤ s.ch[c].trace.entries.length then
      modCh w c (fun k => { k with trace := { k.trace with kept := k.trace.kept ++ [journalBytes w c] } }) else w)) ∧
  (∀ (c : Ch) (s : State), s.ch[c].trace.recording = false → exec (.traceWindowExpiry c) s = .next s) ∧
  (∀ (c : Ch) (s : State), s.pd.inReset = false → s.ch[c].trace.kept = [] →
    exec (.traceJournalWrite c) s = .next (settleAll s)) ∧
  (∀ (c : Ch) (key b : List Byte) (rest : List (List Byte)) (id : Nat) (s u v w : State), s.pd.inReset = false →
    s.ch[c].trace.kept = b :: rest → secretOf s 8 = some key → journalUnit s c b.length = (some id, u) → unitDone id 1 u = some v →
    osGrant (osAsk v (osJournalId c) 64 (b.length + 32)) (osJournalId c) = some w →
    exec (.traceJournalWrite c) s = .next (settleAll (journalPut w c id b rest key)) ∧
    (journalPut w c id b rest key).ch[c].trace.kept = rest ∧
    (journalPut w c id b rest key).ch[c].trace.newest = (if w.ch[c].trace.newest = 1 then 2 else 1)) ∧
  (∀ s : State, s.pd.inReset = false → s.st.state ≠ .locked → s.st.state ≠ .restructuring →
    exec .adaptationPass s = .next (settleAll s)) ∧
  (∀ s : State, s.pd.inReset = false → s.st.state = .locked ∨ s.st.state = .restructuring →
    let v := reachTime s (s.clk.lockAt + 50000000 * (s.ec.passes + 1))
    let v := { v with ec := { v.ec with passes := v.ec.passes + 1 } }
    (isBanked s = true → exec .adaptationPass s = .next (settleAll (forCh (applyAdapts v) nextInterval))) ∧
    (isBanked s = false → ∃ u,
      (exec .adaptationPass s = .next (settleAll u) ∨ exec .adaptationPass s = .next (settleAll (settleAll u))) ∧
      u.ec.passes = s.ec.passes + 1 ∧ u.clk.now = v.clk.now ∧ u.otp = s.otp ∧
      (∀ c : Ch, u.ch[c].siPass = 0 ∧ u.ch[c].pfIssued = 0 ∧ u.ch[c].pfUsed = 0 ∧ u.ch[c].lastMiss = u.ch[c].cntMiss)))

/-! The structure loader, the tracker and the instances. -/

/-- A request of the loader refused in the wrong state: ST_ERR, ERR and REJECT, and nothing else. -/
def Sys2Proof.Machine.loaderRefuses (s : State) (code : Nat) : State :=
  { s with st := { s.st with err := true, errCode := code, errSection := 0, errOfs := 0, intSts := setBit s.st.intSts 1 } }

/-- The loader's states. LOAD from EMPTY or LOADED begins LOADING with the image as its source reads it, discarding loaded tables;
a load whose checks pass, its signature's jobs ended, commits to LOADED, and one that fails returns to EMPTY with the first
error of its order, a read of the source that fails behind a good header being error 1 at its offset; LOCK in LOADED locks the
loader, the cache and every connected channel and shows the image's digest; each of them outside its state is refused with
0x40, and external masters command none of them. -/
def Obligations.LoaderMovesThroughItsStates : Prop :=
  (∀ (m : Core) (s : State), s.pd.inReset = false → s.st.state = .empty → ∃ t, exec (.load (.core m)) s = .next t ∧
    t.st.state = .loading ∧ t.st.stage = captureImage s ∧ t.st.skipped = 0 ∧ t.ch = s.ch ∧ t.inst = s.inst ∧ t.kv = s.kv) ∧
  (∀ (m : Core) (s : State), s.pd.inReset = false → s.st.state = .loaded → ∃ t, exec (.load (.core m)) s = .next t ∧
    t.st.state = .loading ∧ t.ve.bindings = [] ∧ t.sq.cfg = {} ∧ t.st.anchors = [] ∧ t.inst = s.inst) ∧
  (∀ (m : Core) (s : State), s.pd.inReset = false → s.st.state ≠ .empty → s.st.state ≠ .loaded →
    exec (.load (.core m)) s = .next (loaderRefuses s 0x40)) ∧
  (∀ s v : State, s.pd.inReset = false → s.st.state = .loading → imageErr s s.st.stage (arbCount s) [] = none → sigEnd s = some v →
    ∃ t, exec .loadCommit s = .next t ∧ t.st.state = .loaded ∧ t.st.err = false ∧ t.st.intSts = setBit v.st.intSts 0 ∧
      t.ve.bindings = parseBindings (sectsOf v.st.stage) ∧ t.sq.cfg = parseSeq (bodyOf (sectsOf v.st.stage) 0x30 0xFF) ∧
      t.st.anchors = parseAnchors (sectsOf v.st.stage) ∧ t.otp = v.otp ∧ t.os = v.os) ∧
  (∀ s : State, s.pd.inReset = false → s.st.state = .loading → imageErr s s.st.stage (arbCount s) [] = none → sigEnd s = none →
    exec .loadCommit s = .next (sigStart s)) ∧
  (∀ s : State, s.st.state ≠ .loading ∨ imageErr s s.st.stage (arbCount s) [] ≠ none → exec .loadCommit s = .next s) ∧
  (∀ (r : Option Nat) (o p code : Nat) (s : State), s.pd.inReset = false → s.st.state = .loading → sourceErr s r = some (o, p, code) →
    exec (.loadReject r) s = .next (loadReject { s with st := { s.st with skipped := skippedIn s s.st.stage } } code p o)) ∧
  (∀ (r : Option Nat) (o p code : Nat) (s v : State), s.pd.inReset = false → s.st.state = .loading → sourceErr s r = none →
    imageErr s s.st.stage (arbCount s) [] = some (o, p, code) → sigEnd s = some v →
    exec (.loadReject r) s = .next (loadReject { v with st := { v.st with skipped := skippedIn v v.st.stage } } code p o)) ∧
  (∀ (code p o : Nat) (s : State),
    (loadReject s code p o).st = { s.st with
      state := .empty, stage := [], err := true, errCode := code, errSection := p, errOfs := o, intSts := setBit s.st.intSts 1 } ∧
    (loadReject s code p o).ch = s.ch ∧ (loadReject s code p o).otp = s.otp ∧ (loadReject s code p o).os = s.os) ∧
  (∀ (o : Nat) (s : State), s.st.srcRam = false → o < max 128 (imgLen s.st.stage) → firstErr (headerErrs s s.st.stage) = none →
    sourceErr s (some o) = some (o, 0, 0x01)) ∧
  (∀ (m : Core) (s : State), s.pd.inReset = false → s.st.state ≠ .loaded →
    exec (.lock (.core m)) s = .next (loaderRefuses s 0x40)) ∧
  (∀ (m : Core) (s : State), s.pd.inReset = false → s.st.state = .loaded → ∃ u, exec (.lock (.core m)) s = .next (settleAll u) ∧
    u.st.state = .locked ∧ u.st.hdr = hdrOf s.st.stage ∧ u.st.digest = sha256 (hdrOf s.st.stage).bytes ∧ u.ec.locked = true ∧
    u.clk.lockAt = s.clk.now ∧ (∀ c : Ch, (u.ch[c]).locked = decide ((s.ch[c]).cfg.segs ≠ [])) ∧ u.sq.ioDriven = true) ∧
  (∀ (x : Fin 6) (s : State), exec (.load (.ext x)) s = .next s ∧ exec (.lock (.ext x)) s = .next s ∧
    exec (.restructureStart (.ext x)) s = .next s ∧ exec (.advance (.ext x)) s = .next s)

/-- Live restructure and the anti-rollback floor. START is refused with 0x40, 0x41, 0x42 or 0x44 in that order and otherwise
begins RESTRUCTURING on the channel selected; a commit, its committed write and its signature's jobs ended, returns to LOCKED
under the new header with the restructure hold set and RS_DONE; the hold clears by a core's write of 1. ADVANCE is refused
with FAIL outside LOCKED, during an advance, or without slot 9; a target not above C ends at once; the end of an advance sets
DONE. -/
def Obligations.RestructureAndAntiRollback : Prop :=
  ∀ (m : Core) (s : State), s.pd.inReset = false →
    (s.st.state ≠ .locked → exec (.restructureStart (.core m)) s = .next (loaderRefuses s 0x40)) ∧
    (s.st.state = .locked → hostHeld s s.st.rsCh = false → exec (.restructureStart (.core m)) s = .next (loaderRefuses s 0x41)) ∧
    (s.st.state = .locked → hostHeld s s.st.rsCh = true → s.st.hdr.restruct.getLsbD s.st.rsCh.val = false →
      exec (.restructureStart (.core m)) s = .next (loaderRefuses s 0x42)) ∧
    (s.st.state = .locked → hostHeld s s.st.rsCh = true → s.st.hdr.restruct.getLsbD s.st.rsCh.val = true →
      (s.st.rsBusy = true ∨ s.st.advancing = true) →
      exec (.restructureStart (.core m)) s = .next (loaderRefuses s 0x44)) ∧
    (s.st.state = .locked → hostHeld s s.st.rsCh = true → s.st.hdr.restruct.getLsbD s.st.rsCh.val = true →
      s.st.rsBusy = false → s.st.advancing = false → rawInUse s s.st.rsCh (parseChan (sectsOf (captureImage s)) s.st.rsCh) = false →
      ∃ t, exec (.restructureStart (.core m)) s = .next t ∧ t.st.state = .restructuring ∧ t.st.rsTarget = s.st.rsCh ∧
        t.st.rsBusy = true ∧ t.st.stage = captureImage s ∧ t.ch = s.ch) ∧
    (∀ v : State, s.st.state = .restructuring → (s.ch[s.st.rsTarget]).wr = none → rsErr s = none → sigEnd s = some v →
      ∃ u, exec .restructureCommit s = .next (settleAll u) ∧ u.st.state = .locked ∧ u.st.rsBusy = false ∧
        u.st.hdr = hdrOf v.st.stage ∧ u.st.rsHold.getLsbD s.st.rsTarget.val = true ∧ u.st.intSts.getLsbD 2 = true ∧
        (u.ch[s.st.rsTarget]).escHeld = false ∧ u.ve.clkHold.getLsbD s.st.rsTarget.val = false) ∧
    (s.st.state = .restructuring → (s.ch[s.st.rsTarget]).wr = none → rsErr s = none → sigEnd s = none →
      exec .restructureCommit s = .next (sigStart s)) ∧
    (rsErr s ≠ none ∨ (s.ch[s.st.rsTarget]).wr ≠ none → exec .restructureCommit s = .next s) ∧
    (s.st.state ≠ .restructuring → exec .restructureCommit s = .next s) ∧
    (∀ v : Word, exec (.restructureHoldClear (.core m) v) s =
      .next (settleAll { s with st := { s.st with rsHold := s.st.rsHold &&& ~~~v } })) ∧
    (s.st.state ≠ .locked ∨ s.st.advancing = true ∨ secretOf s 9 = none →
      exec (.advance (.core m)) s = .next { s with st := { s.st with arbFail := true } }) ∧
    (∀ k : List Byte, s.st.state = .locked → s.st.advancing = false → secretOf s 9 = some k → s.st.hdr.rollback ≤ arbCount s →
      exec (.advance (.core m)) s = .next { s with st := { s.st with
        arbTarget := s.st.hdr.rollback, arbDone := true, intSts := setBit s.st.intSts 3 } }) ∧
    (s.st.advancing = true → ∃ t, exec (.advanceDone false) s = .next t ∧
      t.st = { s.st with advancing := false, arbDone := true, intSts := setBit s.st.intSts 3 } ∧ t.ch = s.ch ∧ t.kv = s.kv) ∧
    (s.st.advancing = true → ∃ t, exec (.advanceDone true) s = .next t ∧
      t.st = { s.st with advancing := false, arbFail := true } ∧ t.os = s.os)

/-- IN_CTL on the selected instance, by a core: of several masters' writes in one cycle every one after the first is refused with
1. CREATE makes a DORMANT instance with a transport and a free address ACTIVE with empty queues, and is refused with 2 or 3;
RESET_DRAIN starts a drain, and is refused with 3 while DORMANT; RESET_SQUASH and REMOVE are refused with 3 while DORMANT, and
otherwise end every unit of the instance at once. A drain completes when the instance holds nothing, and is a squash after 50
ms. -/
def Obligations.InstanceCommands : Prop :=
  ∀ (m : Core) (n : Inst) (s : State), s.pd.inReset = false → (selOf s (.core m)).inst = n →
    let by_ := some (s.clk.now, Master.core m)
    let refused := fun (code : Nat) => { s with inst := s.inst.set n { s.inst[n] with ctlBy := by_, refused := true, refcode := code } }
    (takenNow (s.inst[n]).ctlBy s.clk.now (Master.core m) = true →
      let other := { s with inst := s.inst.set n { s.inst[n] with refused := true, refcode := 1 } }
      exec (.create (.core m)) s = .next other ∧ exec (.resetDrain (.core m)) s = .next other ∧
      exec (.resetSquash (.core m)) s = .next (settleAll other) ∧ exec (.remove (.core m)) s = .next (settleAll other)) ∧
    (takenNow (s.inst[n]).ctlBy s.clk.now (Master.core m) = false →
    ((s.inst[n]).st ≠ .dormant → exec (.create (.core m)) s = .next (refused 3)) ∧
    ((s.inst[n]).st = .dormant → (s.inst[n]).cfg.transport = 0 ∨ instTaken s n = true ∨ inBandBlocked s n = true →
      exec (.create (.core m)) s = .next (refused 2)) ∧
    ((s.inst[n]).st = .dormant → (s.inst[n]).cfg.transport ≠ 0 → instTaken s n = false → inBandBlocked s n = false →
      ∃ t, exec (.create (.core m)) s = .next t ∧ t.inst = s.inst.set n { s.inst[n] with ctlBy := by_, st := .active } ∧
        t.mb.box[n] = {} ∧ (∀ o : Inst, o ≠ n → t.mb.box[o] = s.mb.box[o]) ∧ t.mb.tallies = s.mb.tallies ∧ t.kv = s.kv) ∧
    ((s.inst[n]).st = .dormant → exec (.resetDrain (.core m)) s = .next (refused 3) ∧
      exec (.resetSquash (.core m)) s = .next (settleAll (refused 3)) ∧ exec (.remove (.core m)) s = .next (settleAll (refused 3))) ∧
    ((s.inst[n]).st = .active → exec (.resetDrain (.core m)) s = .next { s with
      inst := s.inst.set n { s.inst[n] with ctlBy := by_, st := .draining, drainAt := s.clk.now } }) ∧
    ((s.inst[n]).st = .draining → exec (.resetDrain (.core m)) s = .next (refused 1)) ∧
    ((s.inst[n]).st ≠ .dormant → ∃ u, exec (.resetSquash (.core m)) s = .next (settleAll (settleAll u)) ∧
      (u.inst[n]).st = .active ∧ u.mb.box[n] = {} ∧ u.mb.tallies = s.mb.tallies ∧ u.otp = s.otp) ∧
    ((s.inst[n]).st ≠ .dormant → ∃ u, exec (.remove (.core m)) s = .next (settleAll (settleAll u)) ∧
      (u.inst[n]).st = .dormant ∧ u.mb.box[n] = {} ∧ u.mb.tallies = s.mb.tallies)) ∧
    ((s.inst[n]).st = .draining → instUnits s n = [] → (s.mb.box[n]).outq = [] → ∃ t, exec (.drainComplete n) s = .next t ∧
      t.inst = s.inst.set n { s.inst[n] with st := .active } ∧ t.mb.box[n] = {}) ∧
    ((s.inst[n]).st ≠ .draining → exec (.drainComplete n) s = .next s ∧ exec (.drainTimeout n) s = .next (settleAll s)) ∧
    ((s.inst[n]).st = .draining → instUnits s n ≠ [] → ∃ u, exec (.drainTimeout n) s = .next (settleAll (settleAll u)) ∧
      (u.inst[n]).st = .active ∧ u.mb.box[n] = {} ∧ u.bt.intSts.getLsbD 5 = true ∧
      u.clk.now = max s.clk.now ((s.inst[n]).drainAt + 25000000))

/-- The tracker and the arbiters. A dependent draw that waits, its parent below three dependents, is granted in the order of
request when its class can be drawn; a head that reaches its arbiter's age limit joins the aged list and raises HASH_AGED or
PORT_AGED; a parity error in an entry is counted and squashes its unit. -/
def Obligations.TrackerGrantsAgesAndSquashes : Prop :=
  (∀ (k : BilletClass) (s : State), s.bt.waiting.find? (fun w => w.cls = k && !depsFull s (some w.parent)) = none →
    exec (.dependentDrawGrant k) s = .next s) ∧
  (∀ (k : BilletClass) (w : WaitingDraw) (id : Nat) (s u : State), s.pd.inReset = false →
    s.bt.waiting.find? (fun w => w.cls = k && !depsFull s (some w.parent)) = some w → draw k w.owner (some w.parent) false w.work s = (some id, u) →
    exec (.dependentDrawGrant k) s =
      .next (startDependent { u with bt := { u.bt with waiting := u.bt.waiting.erase w } } id w)) ∧
  (∀ (t : Fin 3) (at_ : Nat) (s : State), s.pd.inReset = false →
    agesAt (msCyc s.bt.arb.ageMs) (tierRing s (t.val + 1)) = some at_ →
    ∃ u, exec (.headAged (.hash t)) s = .next u ∧ u.clk.now = max s.clk.now at_ ∧ u.bt.intSts.getLsbD 2 = true ∧
      tierRing u (t.val + 1) = arbAge (max s.clk.now at_) (msCyc s.bt.arb.ageMs) (tierRing s (t.val + 1)) ∧ u.ch = s.ch) ∧
  (∀ (p : Ch) (at_ : Nat) (s : State), s.pd.inReset = false → agesAt (msCyc s.bt.arb.portAgeMs) s.port[p].arb = some at_ →
    ∃ u, exec (.headAged (.port p)) s = .next u ∧ u.clk.now = max s.clk.now at_ ∧ u.bt.intSts.getLsbD 3 = true ∧
      (u.port[p]).arb = arbAge (max s.clk.now at_) (msCyc s.bt.arb.portAgeMs) s.port[p].arb ∧ u.ch = s.ch) ∧
  (∀ (b : Fin 4096) (u : Billet) (s : State), s.pd.inReset = false → unitOf s b.val = some u →
    let v := parityCount (btInt { s with bt := { s.bt with parity := min 0xFFFF (s.bt.parity + 1) } } 4)
    (∃ t, exec (.trackerParityError b) s = .next (settleAll (settleAll t))) ∧
    ((∀ c : Ch, s.ch[c].slots = []) → exec (.trackerParityError b) s = .next (settleAll (settleAll (squashAll v [b.val])))) ∧
    v.bt.parity = min 0xFFFF (s.bt.parity + 1) ∧ v.bt.intSts.getLsbD 4 = true ∧
    ((∀ c : Core, (s.kv.cmd[c]).run = none) → unitOf (squashAll v [b.val]) b.val = none)) ∧
  (∀ (b : Fin 4096) (s : State), s.pd.inReset = false → unitOf s b.val = none → ¬(b.val < 1024 ∧ b.val % 32 < 2) →
    exec (.trackerParityError b) s =
      .next (settleAll (parityCount (btInt { s with bt := { s.bt with parity := min 0xFFFF (s.bt.parity + 1) } } 4))))

/-! The hearth. -/

/-- Core `c` is about to run the 32-bit instruction `w`: it runs, no interrupt is taken, and both halves of `w` are fetched at
its pc without a fault and without changing anything. -/
def Sys2Proof.Machine.CoreAt (s : State) (c : Core) (w : Word) : Prop :=
  s.pd.inReset = false ∧ coreRuns s c = true ∧ (s.he.cores[c]).st = .running ∧ (s.he.cores[c]).wfi = false ∧
  (s.he.cores[c]).osWait = false ∧ dbgOpen s = false ∧ rvInterrupt s c = none ∧ w &&& 3#32 = 3#32 ∧
  fetchHalf s c (s.he.cores[c]).pc.toNat = (.ok (w.extractLsb' 0 16), s) ∧
  fetchHalf s c ((s.he.cores[c]).pc + 2).toNat = (.ok (w.extractLsb' 16 16), s)

/-- The integer instructions of a core: LUI, AUIPC, JAL, JALR, the branches, ADDI, ADD, SUB, MUL and DIVU write their register and
nothing else, and the core goes on at the address the instruction gives; every instruction ends as its own meaning says; x0
holds 0 whatever is written to it. -/
def Obligations.CoresExecuteIntegerInstructions : Prop :=
  (∀ (c : Core) (w : Word) (s : State), CoreAt s c w →
    let pc := (s.he.cores[c]).pc
    let a := rvGet s c (rvRs1 w)
    let b := rvGet s c (rvRs2 w)
    let put := fun (v nx : Word) => (Host.Outcome.next (rvRetire (rvPut s c (rvRd w) v) c nx) : Host.Outcome State Fault Refusal)
    let run := exec (.coreInstruction c none) s
    (rvOp w = 0x37 → run = put (w &&& 0xFFFFF000#32) (pc + 4)) ∧
    (rvOp w = 0x17 → run = put (pc + (w &&& 0xFFFFF000#32)) (pc + 4)) ∧
    (rvOp w = 0x6F → run = put (pc + 4) (pc + rvImmJ w)) ∧
    (rvOp w = 0x67 → rvF3 w = 0 → run = put (pc + 4) (a + rvImmI w)) ∧
    (rvOp w = 0x63 → rvF3 w = 0 → run = .next (rvRetire s c (if a = b then pc + rvImmB w else pc + 4))) ∧
    (rvOp w = 0x63 → rvF3 w = 4 → run = .next (rvRetire s c (if a.toInt < b.toInt then pc + rvImmB w else pc + 4))) ∧
    (rvOp w = 0x63 → rvF3 w = 6 → run = .next (rvRetire s c (if a.toNat < b.toNat then pc + rvImmB w else pc + 4))) ∧
    (rvOp w = 0x13 → rvF3 w = 0 → run = put (a + rvImmI w) (pc + 4)) ∧
    (rvOp w = 0x33 → rvF7 w = 0 → rvF3 w = 0 → run = put (a + b) (pc + 4)) ∧
    (rvOp w = 0x33 → rvF7 w = 0x20 → rvF3 w = 0 → run = put (a - b) (pc + 4)) ∧
    (rvOp w = 0x33 → rvF7 w = 1 → rvF3 w = 0 → run = put (a * b) (pc + 4)) ∧
    (rvOp w = 0x33 → rvF7 w = 1 → rvF3 w = 5 → b = 0 → run = put 0xFFFFFFFF#32 (pc + 4)) ∧
    (∀ e : RvEnd, rvRun s c .ask (pc + 4) w = some e → run = .next (rvFinish c e))) ∧
  (∀ (c : Core) (v : Word) (s : State), rvPut s c 0 v = s) ∧
  (∀ (c : Core) (r : Nat) (v : Word) (s : State), 0 < r → r < 32 → rvGet (rvPut s c r v) c r = v ∧
    (∀ q : Nat, q ≠ r → rvGet (rvPut s c r v) c q = rvGet s c q) ∧
    (∀ d : Core, d ≠ c → (rvPut s c r v).he.cores[d] = s.he.cores[d]))

/-- Memory and traps of a core. An aligned LW from hearth RAM returns its four bytes, least significant first; an SW stores them;
a misaligned one traps with cause 4 or 6; ECALL traps with cause 8 from user mode and 11 from machine mode; an instruction
that is none traps with cause 2. A trap saves the pc and the mode, turns interrupts off, clears the reservation and enters the
vector in machine mode. -/
def Obligations.CoresLoadStoreAndTrap : Prop :=
  ∀ (c : Core) (w : Word) (s : State), CoreAt s c w →
    let k := s.he.cores[c]
    let a := rvGet s c (rvRs1 w)
    let b := rvGet s c (rvRs2 w)
    let lva := (a + rvImmI w).toNat
    let sva := (a + rvImmS w).toNat
    let run := exec (.coreInstruction c none) s
    let traps := fun (cause : Nat) (t : State) => (t.he.cores[c]).mepc = k.pc ∧ (t.he.cores[c]).mcause = BitVec.ofNat 32 cause ∧
      (t.he.cores[c]).pc = k.mtvec &&& 0xFFFFFFFC#32 ∧ (t.he.cores[c]).user = false ∧ (t.he.cores[c]).reserve = none ∧
      (t.he.cores[c]).mstatus.getLsbD 3 = false ∧ (t.he.cores[c]).mstatus.getLsbD 7 = k.mstatus.getLsbD 3 ∧
      (t.he.cores[c]).regs = k.regs ∧ t.he.ram = s.he.ram ∧ (∀ d : Core, d ≠ c → t.he.cores[d] = s.he.cores[d])
    (∀ m : Nat, rvOp w = 0x03 → rvF3 w = 2 → lva % 4 = 0 →
      coreTranslate s c (dataUser k) .load lva 4 = (.ok (sharedBase + m), s) → m + 4 ≤ sharedSize →
      ramBad s (sharedBase + m) 4 = false →
      run = .next (rvRetire (rvPut s c (rvRd w) (BitVec.ofNat 32 (leNat (ramRead s (sharedBase + m) 4)))) c (k.pc + 4))) ∧
    (∀ m : Nat, rvOp w = 0x23 → rvF3 w = 2 → sva % 4 = 0 →
      coreTranslate s c (dataUser k) .store sva 4 = (.ok (sharedBase + m), s) → m + 4 ≤ sharedSize →
      run = .next (ramWrite (rvRetire s c (k.pc + 4)) (some c) (sharedBase + m) (leBytes 4 b.toNat))) ∧
    (rvOp w = 0x03 → rvF3 w = 2 → lva % 4 ≠ 0 → ∃ t, run = .next t ∧ traps 4 t ∧ (t.he.cores[c]).mtval = BitVec.ofNat 32 lva) ∧
    (rvOp w = 0x23 → rvF3 w = 2 → sva % 4 ≠ 0 → ∃ t, run = .next t ∧ traps 6 t ∧ (t.he.cores[c]).mtval = BitVec.ofNat 32 sva) ∧
    (w = 0x00000073#32 → ∃ t, run = .next t ∧ traps (if k.user then 8 else 11) t ∧ (t.he.cores[c]).mtval = 0) ∧
    (rvRun s c .ask (k.pc + 4) w = none → ∃ t, run = .next t ∧ traps 2 t ∧
      ((t.he.cores[c]).mtval = 0 ∨ (t.he.cores[c]).mtval = w))

/-- Core control and the region unit. START runs a HELD core 1-3 at its entry with every other register at reset, its cycle
counter from 0 and its watchdog started where the option asks it, and is ignored for an entry outside the code memories, for a
core not HELD, and from an external master; a core that is held or waits runs nothing; an own-store read returns when it is
its core's turn; HE_RU_INV drops one requester's page or all its entries; HE_RU_ROOT drops all of them, and a DMA channel's is
refused unless it is IDLE or FAULTED. -/
def Obligations.CoreControlAndTranslation : Prop :=
  (∀ (m c : Core) (s : State), s.pd.inReset = false → c ≠ 0 → (s.he.cores[c]).st = .held →
    rowOf (s.he.entry[c]).toNat ∈ [some .shared, some .rom, some .ownTcm, some .tcm] →
    exec (.coreStart (.core m) c) s =
      .next (modCore (if optCwdHw s then wdStart s ⟨c.val, Nat.lt_succ_of_lt c.isLt⟩ else s) c (fun _ =>
        { st := .running, pc := s.he.entry[c], mcycleOfs := 0 - BitVec.ofNat 64 (s.clk.now - s.clk.resetAt) })) ∧
    (s.clk.resetAt ≤ s.clk.now → ∀ u : State, exec (.coreStart (.core m) c) s = .next u → rvCycle u c = 0)) ∧
  (∀ (m c : Core) (s : State), c = 0 ∨ (s.he.cores[c]).st ≠ .held ∨
      rowOf (s.he.entry[c]).toNat ∉ [some .shared, some .rom, some .ownTcm, some .tcm] →
    exec (.coreStart (.core m) c) s = .next s) ∧
  (∀ (x : Fin 6) (c : Core) (s : State), exec (.coreStart (.ext x) c) s = .next s) ∧
  (∀ (c : Core) (p : Option Word) (s : State), coreRuns s c = false → exec (.coreInstruction c p) s = .next s) ∧
  (∀ (c : Core) (f : Bool) (s : State), (s.he.cores[c]).osWait = false → exec (.ownStoreWindowRead c f) s = .next s) ∧
  (∀ (c : Core) (f : Bool) (s u : State), s.pd.inReset = false → (s.he.cores[c]).osWait = true → coreRuns s c = true →
    osErasing s = false → osGrant s (17 + c.val) = some u →
    exec (.ownStoreWindowRead c f) s = .next (rvInstr (modCore (osDequeue u (17 + c.val)) c
      (fun k => { k with osWait := false })) c (if f then .failed else .good))) ∧
  (∀ (c : Core) (f : Bool) (s : State), s.pd.inReset = false → (s.he.cores[c]).osWait = true → coreRuns s c = true →
    osErasing s = false → osGrant s (17 + c.val) = none → exec (.ownStoreWindowRead c f) s = .next s) ∧
  (∀ (m : Core) (v : Word) (r : Fin 20) (s : State), s.pd.inReset = false → bf v 0 5 = r.val → v.getLsbD 5 = true →
    exec (.ruInvalidate (.core m) v) s = .next { s with he := { s.he with tlb := s.he.tlb.set r [] } }) ∧
  (∀ (m : Core) (v : Word) (r : Fin 20) (s : State), s.pd.inReset = false → bf v 0 5 = r.val → v.getLsbD 5 = false →
    exec (.ruInvalidate (.core m) v) s =
      .next { s with he := { s.he with tlb := s.he.tlb.set r (s.he.tlb[r].filter (fun e => e.vpn ≠ bf v 12 20)) } }) ∧
  (∀ (m : Core) (v : Word) (s : State), 20 ≤ bf v 0 5 → exec (.ruInvalidate (.core m) v) s = .next s) ∧
  (∀ (m : Core) (r : Fin 20) (v : Word) (s : State), s.pd.inReset = false → r.val < 4 →
    exec (.ruRootWrite (.core m) r v) s = .next { s with he := { s.he with
      tlb := s.he.tlb.set r [], root := s.he.root.set r (v &&& 0xFFFFF001#32) } }) ∧
  (∀ (m : Core) (k : Fin 16) (r : Fin 20) (v : Word) (s : State), s.pd.inReset = false → r.val = 4 + k.val →
    (s.he.dma[k]).st ≠ .idle → (s.he.dma[k]).st ≠ .faulted →
    exec (.ruRootWrite (.core m) r v) s =
      .next { s with he := { s.he with dma := s.he.dma.set k { s.he.dma[k] with cmdRej := true } } })

/-- Job DMA. Of several cores' commands to a channel in one cycle every one after the first is refused with CMD_REJ. GO is refused
with CMD_REJ outside IDLE or with CLASS 0, sets BUSY where no billet can be drawn, and otherwise the job waits or runs with
its billet; ABORT outside IDLE ends the job with END = ABORTED; RESUME moves a FAULTED channel on; a beat of a FILL writes its
pattern and moves PROGRESS, and one that passes a multiple of 512 bytes may be the job's last for now; a channel that has
waited 1 ms is aged or on a mover. -/
def Obligations.JobDmaCommands : Prop :=
  ∀ (m : Core) (k : Fin 16) (s : State), s.pd.inReset = false →
    let d := s.he.dma[k]
    let m1 := some (s.clk.now, Master.core m)
    let rejected := { s with he := { s.he with dma := s.he.dma.set k { d with ctlBy := m1, cmdRej := true } } }
    let s1 := { s with he := { s.he with dma := s.he.dma.set k { d with ctlBy := m1 } } }
    (takenNow d.ctlBy s.clk.now (Master.core m) = true →
      let other := { s with he := { s.he with dma := s.he.dma.set k { d with cmdRej := true } } }
      exec (.dmaGo (.core m) k) s = .next other ∧ exec (.dmaAbort (.core m) k) s = .next (settleAll other) ∧
      exec (.dmaResume (.core m) k) s = .next other) ∧
    (takenNow d.ctlBy s.clk.now (Master.core m) = false →
    (kvOwner d.owner = none → exec (.dmaGo (.core m) k) s = .next rejected) ∧
    (∀ o : Owner, kvOwner d.owner = some o → d.st ≠ .idle ∨ d.cls = 0 → exec (.dmaGo (.core m) k) s = .next rejected) ∧
    (∀ (o : Owner) (u : State), kvOwner d.owner = some o → d.st = .idle → d.cls ≠ 0 →
      draw (dmaClass d) o none false (.dma k) s1 = (none, u) →
      exec (.dmaGo (.core m) k) s = .next (modDma u k (fun d => { d with busy := true }))) ∧
    (∀ (o : Owner) (id : Nat) (u : State), kvOwner d.owner = some o → d.st = .idle → d.cls ≠ 0 →
      draw (dmaClass d) o none false (.dma k) s1 = (some id, u) →
      ∃ t, exec (.dmaGo (.core m) k) s = .next t ∧ ((t.he.dma[k]).st = .waiting ∨ (t.he.dma[k]).st = .running) ∧
        (t.he.dma[k]).billet = some id ∧ (t.he.dma[k]).ended = 0 ∧ (t.he.dma[k]).progress = 0 ∧ (t.he.dma[k]).held = none ∧
        t.he.ram = s.he.ram) ∧
    (d.st = .idle → exec (.dmaAbort (.core m) k) s = .next (settleAll rejected)) ∧
    (d.st ≠ .idle → ∃ u, exec (.dmaAbort (.core m) k) s = .next (settleAll u) ∧ (u.he.dma[k]).st = .idle ∧
      (u.he.dma[k]).ended = 2 ∧ (u.he.dma[k]).billet = none) ∧
    (d.st ≠ .faulted → exec (.dmaResume (.core m) k) s = .next rejected) ∧
    (d.st = .faulted → ∃ t, exec (.dmaResume (.core m) k) s = .next t ∧
      ((t.he.dma[k]).st = .waiting ∨ (t.he.dma[k]).st = .running) ∧ (t.he.dma[k]).progress = d.progress ∧
      (t.he.dma[k]).held = (if d.progress = 0 then none else d.held) ∧ t.he.ram = s.he.ram)) ∧
    (∀ (mv : Fin 4) (at_ : Nat) (x : Vector Word 8) (u : State), s.he.movers[mv] = some (k, at_) → d.held = some x → dOp x = 1 →
      d.progress + dmaBeatLen x d.progress < dLen x →
      dmaWrite s k ((x[2].toNat + if dDfix x then 0 else d.progress) % 2 ^ 32) (dDfix x)
        (dmaPattern x[1] d.progress (dmaBeatLen x d.progress)) = (none, u) → (u.he.dma[k]).st = .running →
      let v := modDma u k (fun y => { y with progress := d.progress + dmaBeatLen x d.progress })
      exec (.dmaBeat mv none) s = .next (
        if d.progress / 512 < (d.progress + dmaBeatLen x d.progress) / 512 then dmaPreempt v k else v)) ∧
    (d.st = .waiting → d.aged = false → ∃ t, exec (.dmaAging k) s = .next t ∧ t.clk.now = max s.clk.now (d.leftAt + 500000) ∧
      ((t.he.dma[k]).aged = true ∨ (t.he.dma[k]).st = .running))

/-- Interrupts, the machine timer, and debug. A claim puts a deliverable source in service for its core and is ignored otherwise;
only the claiming core completes it; MTIMECMP_MATCH brings mtime to the compare value; with debug closed the TAP offers BYPASS
for EXTEST, DTMCS and DMI, and the debug module does nothing; with it open a DMI read returns the register. -/
def Obligations.InterruptsTimerAndDebug : Prop :=
  (∀ (m c : Core) (i : Fin 32) (s : State), s.pd.inReset = false → exec (.intClaim (.core m) c i) s = .next
    (if deliverable s c i then { s with he := { s.he with service := s.he.service.set i (some c) } } else s)) ∧
  (∀ (m c : Core) (i : Fin 32) (s : State), s.pd.inReset = false → exec (.intComplete (.core m) c i) s = .next
    (if s.he.service[i] = some c then { s with he := { s.he with service := s.he.service.set i none } } else s)) ∧
  (∀ (x : Fin 6) (c : Core) (i : Fin 32) (s : State), exec (.intClaim (.ext x) c i) s = .next s ∧
    exec (.intComplete (.ext x) c i) s = .next s) ∧
  (∀ (c : Core) (s : State), s.pd.inReset = false → ∃ t, exec (.mtimecmpMatch c) s = .next t ∧ timerPending t c = true ∧
    t = { s with clk := { s.clk with now := max s.clk.now (s.clk.resetAt + 500 * (s.he.mtimecmp[c]).toNat) } }) ∧
  (∀ (ir : BitVec 5) (s : State), dbgOpen s = false → factoryOpen s = false → ir ≠ Config.tapSample →
    exec (.tapInstruction ir) s = .next { s with lc := { s.lc with tapIr := 0x1F } }) ∧
  (∀ (ir : BitVec 5) (s : State), dbgOpen s = true → ir = 0x10 ∨ ir = 0x11 ∨ ir = Config.tapExtest ∨ ir = Config.tapSample →
    exec (.tapInstruction ir) s = .next { s with lc := { s.lc with tapIr := ir } }) ∧
  (∀ (a : DebugOp) (s : State), dbgOpen s = false ∨ s.lc.tapIr ≠ 0x11 → exec (.debugAccess a) s = .next s) ∧
  (∀ (r : BitVec 7) (s : State), s.pd.inReset = false → dbgOpen s = true → s.lc.tapIr = 0x11 → r ≠ 0x3C →
    exec (.debugAccess (.dmiRead r)) s = .next { s with lc := { s.lc with dmiOut := dmRead s r.toNat } })

/-! The sequencer. -/

/-- Steps of the sequencer end as Table 9.3 says. A WAIT_IN whose line has held its level for its filter time, a DELAY whose time
has passed and a PMB step whose transaction is acknowledged (and, for a poll, whose value compares) are DONE; a step whose
TIME passes is DONE with ON_FAIL CONTINUE and else FAILED, and names itself in SQ_FAULT, but a WAIT_IN whose filter time is
over by then is DONE, and a banked unit's PMB step waits for the burning unit's outcome; a transaction in error waits for its
retry and a poll that does not compare for its interval; no step that is DONE leaves it, and an expiry that is not due does
nothing. -/
def Obligations.SequencerStepsEndAsTheirOperationsSay : Prop :=
  ∀ (i : Fin 128) (c : Step) (s : State), s.pd.inReset = false → stepCfg s i.val = some c → (s.sq.steps[i]).st = .running →
    let kept := fun (t : State) => (∀ j : Fin 128, (s.sq.steps[j]).st = .done → (t.sq.steps[j]).st = .done) ∧
      t.sq.cfg = s.sq.cfg ∧ t.sq.ioIn = s.sq.ioIn ∧ t.sq.pfHold = s.sq.pfHold ∧ t.kv = s.kv ∧ t.otp = s.otp ∧ t.lc = s.lc
    (∀ h : Nat, c.op = 2 → (s.sq.steps[i]).heldSince = some h → ∃ t, exec (.waitInSettled i) s = .next t ∧ kept t ∧
      (t.sq.steps[i]).st = .done ∧ (t.sq.steps[i]).doneAt = max s.clk.now (h + waitFilter c)) ∧
    (c.op = 3 → ∃ t, exec (.delayExpiry i) s = .next t ∧ kept t ∧ (t.sq.steps[i]).st = .done ∧
      (t.sq.steps[i]).doneAt = max s.clk.now ((s.sq.steps[i]).startAt + usCyc c.time)) ∧
    (∀ h : Nat, c.op = 2 → (s.sq.steps[i]).heldSince = some h → h + waitFilter c ≤ (s.sq.steps[i]).startAt + usCyc c.time →
      ∃ t, exec (.stepTimeout i) s = .next t ∧ kept t ∧ (t.sq.steps[i]).st = .done ∧
        (t.sq.steps[i]).doneAt = max s.clk.now (h + waitFilter c)) ∧
    (isPmb c = true → isBanked s = true → exec (.stepTimeout i) s = .next s) ∧
    (let due := (s.sq.steps[i]).startAt + usCyc c.time
     (c.op = 2 ∧ (∀ h : Nat, (s.sq.steps[i]).heldSince = some h → due < h + waitFilter c)) ∨ (isPmb c = true ∧ isBanked s = false) →
      ∃ t, exec (.stepTimeout i) s = .next t ∧ kept t ∧
      (t.sq.steps[i]).st = (if c.onFailContinue then .done else .failed) ∧ t.sq.intSts.getLsbD 0 = true ∧
      ((∀ j : Fin 128, faultDue (reachTime s due) j = false) → t.sq.faultStep = BitVec.ofNat 7 i.val ∧ t.sq.faultPf = false) ∧
      max s.clk.now due ≤ t.clk.now ∧ (c.onFailContinue = true → (t.sq.steps[i]).doneAt = max s.clk.now due) ∧
      (c.onFailContinue = false → c.shutdownGraph = true → t.sq.downStopped = true ∧
        t.sq.graph = if s.sq.graph = .shutting then .faulted else s.sq.graph) ∧
      (c.onFailContinue = false → c.shutdownGraph = false → s.sq.graph = .running →
        t.sq.upStopped = true ∧ (if hasDown s then t.sq.graph = .shutting ∨ t.sq.graph = .off else t.sq.graph = .faulted))) ∧
    (∀ (p : Fin 4) (d : BitVec 16), s.sq.portBusy[p] = some i.val → (s.sq.steps[i]).smb = 2 →
      ∃ t, exec (.pmbTransactionEnd p (.ok d)) s = .next t ∧ kept t ∧
        (if c.op = 4 ∨ smbMask (c.p0 / 8 % 4) d &&& (c.p2 % 65536) = c.p2 / 65536 then (t.sq.steps[i]).st = .done
         else (t.sq.steps[i]).st = .running ∧ (t.sq.steps[i]).smb = 4)) ∧
    (∀ (p : Fin 4) (r : SmbResult), s.sq.portBusy[p] = some i.val → (s.sq.steps[i]).smb = 2 → smbErrNo r ≠ 0 →
      ∃ t, exec (.pmbTransactionEnd p r) s = .next t ∧ kept t ∧ (t.sq.steps[i]).st = .running ∧ (t.sq.steps[i]).smb = 3 ∧
        (t.sq.steps[i]).smbAt = s.clk.now ∧ t.sq.faultSmb = BitVec.ofNat 2 (smbErrNo r)) ∧
    ((s.sq.steps[i]).smb = 3 → ∃ t, exec (.smbRetry i) s = .next t ∧ kept t ∧ (t.sq.steps[i]).st = .running ∧
      ((t.sq.steps[i]).smb = 1 ∨ (t.sq.steps[i]).smb = 2) ∧ t.clk.now = max s.clk.now ((s.sq.steps[i]).smbAt + usCyc 100)) ∧
    ((s.sq.steps[i]).smb = 4 → ∃ t, exec (.pmbPollInterval i) s = .next t ∧ kept t ∧ (t.sq.steps[i]).st = .running ∧
      ((t.sq.steps[i]).smb = 1 ∨ (t.sq.steps[i]).smb = 2) ∧
      t.clk.now = max s.clk.now ((s.sq.steps[i]).smbAt + usCyc s.sq.cfg.pollUs)) ∧
    (c.op ≠ 2 ∨ (s.sq.steps[i]).heldSince = none → exec (.waitInSettled i) s = .next s) ∧
    (c.op ≠ 3 → exec (.delayExpiry i) s = .next s) ∧
    ((s.sq.steps[i]).smb ≠ 3 → exec (.smbRetry i) s = .next s) ∧
    ((s.sq.steps[i]).smb ≠ 4 → exec (.pmbPollInterval i) s = .next s)

/-- Commands and faults of the sequencer. RESTART runs only from OFF or FAULTED and SHUTDOWN only from RUNNING or UP, and
otherwise each sets CMD_REJ and nothing else; a platform fault is recorded, holds the lines of its mask unless its action is
LOG, and spends its watch, which WATCH_REARM arms again; other faults due by then act with it; SQ_PF_HOLD clears by writing 1;
SQ_HEARTH_HOLD asserts its lines; a changed line level restarts a waiting step's filter; an external master does none of it. -/
def Obligations.SequencerCommandsAndPlatformFaults : Prop :=
  (∀ (m : Core) (s : State), s.pd.inReset = false → s.sq.graph = .off ∨ s.sq.graph = .faulted →
    ∃ t, exec (.restart (.core m)) s = .next t ∧ (t.sq.graph = .running ∨ t.sq.graph = .up) ∧ t.sq.pfHold = 0 ∧
      t.sq.cfg = s.sq.cfg ∧ t.sq.hearthHold = s.sq.hearthHold ∧
      (∀ (i : Fin 128) (c : Step), stepCfg s i.val = some c → c.shutdownGraph = true → t.sq.steps[i] = {})) ∧
  (∀ (m : Core) (s : State), s.pd.inReset = false → s.sq.graph ≠ .off → s.sq.graph ≠ .faulted →
    exec (.restart (.core m)) s = .next { s with sq := { s.sq with intSts := s.sq.intSts ||| 0x20#32 } }) ∧
  (∀ (m : Core) (s : State), s.pd.inReset = false → s.sq.graph = .running ∨ s.sq.graph = .up →
    ∃ t, exec (.shutdown (.core m)) s = .next t ∧ t.sq.upStopped = true ∧ (∀ i : Fin 128, (t.sq.steps[i]).watch = 0) ∧
      (t.sq.graph = .shutting ∨ t.sq.graph = .off) ∧ (hasDown s = false → t.sq.graph = .off ∧ t.sq.released = 0)) ∧
  (∀ (m : Core) (s : State), s.pd.inReset = false → s.sq.graph ≠ .running → s.sq.graph ≠ .up →
    exec (.shutdown (.core m)) s = .next { s with sq := { s.sq with intSts := s.sq.intSts ||| 0x20#32 } }) ∧
  (∀ (i : Fin 128) (c : Step) (a : Nat) (s : State), s.pd.inReset = false → stepCfg s i.val = some c →
    (s.sq.steps[i]).watch = 1 → (s.sq.steps[i]).awaySince = some a →
    let v := reachTime s (a + waitFilter c)
    exec (.platformFault i) s = .next (platformFaults v ((allSteps v).filter (fun j => j = i || faultDue v j))) ∧
    ((∀ j : Fin 128, j ≠ i → faultDue v j = false) →
    ∃ t, exec (.platformFault i) s = .next t ∧ v.clk.now ≤ t.clk.now ∧
      t.sq.pfHold = s.sq.pfHold ||| BitVec.ofNat 32 (if c.pfAct = 2 then 0 else c.p2) ∧ t.sq.intSts.getLsbD 1 = true ∧
      t.sq.faultStep = BitVec.ofNat 7 i.val ∧ t.sq.faultPf = true ∧ t.sq.faultLine = BitVec.ofNat 7 c.p0 ∧
      (if c.pfAct = 1 ∧ (s.sq.graph = .running ∨ s.sq.graph = .up) then t.sq.graph = .shutting ∨ t.sq.graph = .off
       else (t.sq.steps[i]).watch = 2 ∧ t.sq.graph = s.sq.graph ∧ t.clk.now = v.clk.now))) ∧
  (∀ (i : Fin 128) (s : State), (s.sq.steps[i]).watch ≠ 1 ∨ (s.sq.steps[i]).awaySince = none →
    exec (.platformFault i) s = .next s) ∧
  (∀ (i : Fin 128) (c : Step) (h : Nat) (s : State), s.pd.inReset = false → stepCfg s i.val = some c →
    (s.sq.steps[i]).watch = 2 → (s.sq.steps[i]).heldSince = some h → ∃ t, exec (.watchRearm i) s = .next t ∧
      (t.sq.steps[i]).watch = 1 ∧ (t.sq.steps[i]).awaySince = none ∧ t.clk.now = max s.clk.now (h + max 1 (waitFilter c)) ∧
      (∀ j : Fin 128, j ≠ i → t.sq.steps[j] = s.sq.steps[j]) ∧ t.sq.pfHold = s.sq.pfHold ∧ t.sq.log = s.sq.log) ∧
  (∀ (m : Core) (v : Word) (s : State), s.pd.inReset = false →
    (∀ (j : Fin 128) (c : Step), stepCfg s j.val = some c → waitFilter c ≠ 0) →
    ∃ t, exec (.pfHoldClear (.core m) v) s = .next t ∧ t.sq.pfHold = s.sq.pfHold &&& ~~~v ∧
      (∀ (j : Fin 128) (c : Step), stepCfg s j.val = some c → t.sq.steps[j] =
        if (s.sq.steps[j]).watch = 2 ∧ c.pfAct ≠ 2 ∧ (s.sq.pfHold &&& v) &&& BitVec.ofNat 32 c.p2 ≠ 0 ∧
            lineAt s c.p0 ≠ waitLevel c
        then { s.sq.steps[j] with watch := 1, awaySince := some s.clk.now, heldSince := none } else s.sq.steps[j])) ∧
  (∀ (m : Core) (v : Word) (s : State), s.pd.inReset = false → ∃ t, exec (.hearthHoldWrite (.core m) v) s = .next t ∧
    t.sq.hearthHold = v ∧ t.sq.steps = s.sq.steps ∧ (∀ n : Fin 32, v.getLsbD n.val = true → t.sq.hrst.getLsbD n.val = true)) ∧
  (∀ (n : Fin 32) (x : Nat) (s : State), s.pd.inReset = false → s.sq.minHoldTo[n] = some x →
    exec (.minHoldExpiry n) s = .next (settleAll (regate { s with
      clk := { s.clk with now := max s.clk.now x }, sq := { s.sq with minHoldTo := s.sq.minHoldTo.set n none } }))) ∧
  (∀ (l : Fin 96) (v : Bool) (s : State), s.sq.ioIn.getLsbD l.val = v → exec (.sqIoLevelChange l v) s = .next s) ∧
  (∀ (l : Fin 96) (v : Bool) (i : Fin 128) (c : Step) (s : State), s.pd.inReset = false → s.sq.ioIn.getLsbD l.val = !v →
    stepCfg s i.val = some c → c.op = 2 → c.p0 = l.val → waitFilter c ≠ 0 → (s.sq.steps[i]).st = .running →
    (∀ j : Fin 128, faultNow s l v j = false ∧ levelEnds s l v j = false) →
    ∃ t, exec (.sqIoLevelChange l v) s = .next t ∧ t.sq.ioIn = putBit s.sq.ioIn l.val v ∧ (t.sq.steps[i]).st = .running ∧
      (t.sq.steps[i]).heldSince = (if v = waitLevel c then some s.clk.now else none) ∧ t.clk.now = s.clk.now) ∧
  (∀ (x : Fin 6) (v : Word) (s : State), exec (.restart (.ext x)) s = .next s ∧ exec (.shutdown (.ext x)) s = .next s ∧
    exec (.pfHoldClear (.ext x) v) s = .next s ∧ exec (.hearthHoldWrite (.ext x) v) s = .next s)

/-- Kindling's SMBus transaction (R505). An accepted START copies SQ_SMB_CTL and SQ_SMB_DATA as they stand into the transaction;
writes of those registers while BUSY is 1 leave it as it is; a START while BUSY sets CMD_REJ and nothing else; a START refused
for its port or its LEN sets ERR 4 and SMB_DONE at once; the end of the transaction clears BUSY, sets SMB_DONE and shows the
outcome in ERR. -/
def Obligations.KindlingSmbusTransactions : Prop :=
  (∀ (m : Core) (s : State), s.pd.inReset = false → s.sq.smbBusy = false → s.sq.cfg.smbSpeed[s.sq.smbPort] ≠ 0 →
    s.sq.smbLen ≠ 3 → (s.sq.smbRead = true → s.sq.smbLen ≠ 0) →
    ∃ t, exec (.smbStart (.core m)) s = .next t ∧ t.sq.smbBusy = true ∧ t.sq.smbErr = 0 ∧
      t.sq.smbTxn = some (smbCtl s, s.sq.smbData) ∧ t.sq.smbData = s.sq.smbData ∧ t.sq.intSts = s.sq.intSts) ∧
  (∀ (m : Core) (v : Word) (s : State), s.sq.smbBusy = true →
    (∃ t, exec (.registerWrite (.core m) 0x090080 32 v) s = .next t ∧ t.sq.smbTxn = s.sq.smbTxn ∧ t.sq.smbBusy = true) ∧
    (∃ t, exec (.registerWrite (.core m) 0x090084 32 v) s = .next t ∧ t.sq.smbTxn = s.sq.smbTxn ∧ t.sq.smbBusy = true)) ∧
  (∀ (m : Core) (s : State), s.pd.inReset = false → s.sq.smbBusy = true →
    exec (.smbStart (.core m)) s = .next { s with sq := { s.sq with intSts := s.sq.intSts ||| 0x20#32 } }) ∧
  (∀ (m : Core) (s : State), s.pd.inReset = false → s.sq.smbBusy = false →
    s.sq.cfg.smbSpeed[s.sq.smbPort] = 0 ∨ (s.sq.smbRead = true ∧ s.sq.smbLen = 0) ∨ s.sq.smbLen = 3 →
    exec (.smbStart (.core m)) s = .next { s with sq := { s.sq with smbErr := 4, intSts := s.sq.intSts ||| 0x10#32 } }) ∧
  (∀ (r : SmbResult) (x : Word × BitVec 16) (p : Fin 4) (s : State), s.pd.inReset = false → s.sq.smbTxn = some x →
    s.sq.portBusy[p] = some 128 → ∃ t, exec (.smbTransactionEnd r) s = .next t ∧ t.sq.smbBusy = false ∧ t.sq.smbTxn = none ∧
      t.sq.smbErr = BitVec.ofNat 3 (smbErrNo r) ∧ t.sq.intSts = s.sq.intSts ||| 0x10#32 ∧
      (∀ d : BitVec 16, r = .ok d → x.1.getLsbD 7 = true →
        t.sq.smbData = BitVec.ofNat 16 (smbMask (bf x.1 18 2) d)) ∧
      ((∀ d : BitVec 16, r ≠ .ok d) ∨ x.1.getLsbD 7 = false → t.sq.smbData = s.sq.smbData)) ∧
  (∀ (r : SmbResult) (s : State), s.sq.smbTxn = none → exec (.smbTransactionEnd r) s = .next s) ∧
  (∀ (x : Fin 6) (s : State), exec (.smbStart (.ext x)) s = .next s)

/-! The key vault. -/

/-- The row that writes KV_CMD(c) with operation code `op` of Table 10.5 and GO. -/
def Sys2Proof.Machine.kvRow (op : Fin 15) (c : Core) : Instr :=
  match op.val with
  | 0 => .derive c
  | 1 => .generate c
  | 2 => .unwrap c
  | 3 => .wrap c
  | 4 => .revoke c
  | 5 => .replace c
  | 6 => .commit c
  | 7 => .cancel c
  | 8 => .kcv c
  | 9 => .hmac c
  | 10 => .gcmEnc c
  | 11 => .gcmDec c
  | 12 => .sign c
  | 13 => .alias_ c
  | _ => .pubkey c

/-- An operation `op` written to core `c`'s command set starts at once: none is outstanding, its owner exists, billet `id` is drawn
for it, the operation unit is idle but for operations it has taken, no zeroising mark is open, no COMMIT in flight makes it wait,
and `v` is the state in which the unit takes it from its owner's queue. -/
def Sys2Proof.Machine.KvStarts (op : BitVec 5) (c : Core) (s : State) (id : Nat) (v : State) : Prop :=
  s.pd.inReset = false ∧ (s.kv.cmd[c]).run = none ∧ ∃ (o : Owner) (u : State) (i : QItem) (ag : Bool) (a : Arb),
    kvOwner (s.kv.cmd[c]).owner = some o ∧
    draw (if (s.kv.cmd[c]).bg ∧ op ≠ 14 then .bg else .ver) o none false (.vault c) (modKvc s c (fun k => { k with op := op })) =
      (some id, u) ∧
    (let run : KvRun := { op := op.toNat, owner := (s.kv.cmd[c]).owner, billet := id, uses := [], dst := 0, dstLen := 0, code := 0,
                          out0 := 0, out1 := 0, commit := none, waits := false, taken := false }
     let w := kvQueue (modKvc u c (fun k => { k with run := some run })) { id := id, q := ownerQ o, cost := 1, enq := u.clk.now }
     kvInFlight w < 8 ∧ zeroMark w = false ∧ arbPick w.clk.now (hashAge w) 97 1 (kvWeight w) w.kv.arb = some (i, ag, a) ∧
     i.id = id ∧ a.items = [] ∧ a.aged = [] ∧ v = { w with kv := { w.kv with arb := a } }) ∧
    (∀ d : Core, d ≠ c → ∀ r : KvRun, (s.kv.cmd[d]).run = some r → r.taken = true) ∧
    commitAhead v c (kvArg v.kv.cmd[c] 0 % 128) = false ∧ (op = 4 → commitAhead v c (kvArg v.kv.cmd[c] 1 % 128) = false)

/-- Row `i` answers a state in which core `c`'s operation is outstanding as `r` and, against `v`, no key slot and no byte of hearth
RAM has changed. -/
def Sys2Proof.Machine.KvTakes (i : Instr) (s v : State) (c : Core) (r : KvRun) : Prop :=
  ∃ t, exec i s = .next (settleAll t) ∧ (t.kv.cmd[c]).run = some r ∧ t.kv.slots = v.kv.slots ∧ t.he.ram = v.he.ram

/-- An operation as it stands once the unit has taken it: what it uses, its result and what its end writes. -/
def Sys2Proof.Machine.kvRan (op id : Nat) (owner : BitVec 8) (uses : List Nat) (code : Nat) (o0 o1 : Word)
    (fill : Option (Nat × Slot)) (dst len : Nat) (bytes : List Byte) (commit : Option Nat) : KvRun :=
  ⟨op, owner, id, uses, dst, len, code, o0, o1, commit, false, true, fill, bytes⟩

/-- The vault turns operations away and ends them. A GO while one is outstanding sets REJ; without a billet the operation ends
with BUSY; KV_OP_END waits for the operation's jobs, then writes the slot and the bytes it comes to, posts the result, returns
the billet and raises DONE; a COMMIT takes effect there: the pending half is current, the slot's GEN one higher; a COMMIT
whose slot is in use waits, as does an operation that names a slot under a COMMIT. -/
def Obligations.VaultTurnsOperationsAwayAndEndsThem : Prop :=
  (∀ (op : Fin 15) (c : Core) (s : State), s.pd.inReset = false → (s.kv.cmd[c]).run.isSome = true →
    exec (kvRow op c) s = .next (settleAll (modKvc s c (fun k => { k with op := BitVec.ofNat 5 (op.val + 1), rej := true })))) ∧
  (∀ (op : Fin 15) (c : Core) (o : Owner) (s u : State), s.pd.inReset = false → (s.kv.cmd[c]).run = none →
    kvOwner (s.kv.cmd[c]).owner = some o →
    draw (if (s.kv.cmd[c]).bg ∧ op ≠ 13 then .bg else .ver) o none false (.vault c)
      (modKvc s c (fun k => { k with op := BitVec.ofNat 5 (op.val + 1) })) = (none, u) →
    ∃ t, exec (kvRow op c) s = .next (settleAll t) ∧ (t.kv.cmd[c]).code = 1 ∧ (t.kv.cmd[c]).done = true ∧
      (t.kv.cmd[c]).run = none ∧ t.kv.slots = s.kv.slots ∧ t.he.ram = s.he.ram ∧ t.kv.intSts = s.kv.intSts ||| 1#32) ∧
  (∀ (c : Core) (s : State), s.pd.inReset = false → (s.kv.cmd[c]).run = none → exec (.kvOpEnd c) s = .next (settleAll s)) ∧
  (∀ (c : Core) (r : KvRun) (s : State), s.pd.inReset = false → (s.kv.cmd[c]).run = some r →
    (r.waits = true ∧ r.uses.any (commitAhead s c) = true) ∨ kvWorked s r = none → exec (.kvOpEnd c) s = .next (settleAll s)) ∧
  (∀ (c : Core) (r : KvRun) (s v : State), s.pd.inReset = false → (s.kv.cmd[c]).run = some r → r.waits = false → r.commit = none →
    kvWorked s r = some v → r.op ≠ 14 →
    exec (.kvOpEnd c) s = .next (settleAll (kvServe 8 (kvPost (retire (kvApply v r) r.billet) c r.code r.out0 r.out1)))) ∧
  (∀ (c : Core) (r : KvRun) (s v : State), s.pd.inReset = false → (s.kv.cmd[c]).run = some r → r.waits = false → r.commit = none →
    kvWorked s r = some v → r.op = 14 → r.code = 0 →
    ∃ x, exec (.kvOpEnd c) s = .next (settleAll (kvServe 8 x)) ∧ x.mb.epoch = r.out1 ∧
      x.kv = (kvPost (retire (kvApply v r) r.billet) c 0 r.out0 r.out1).kv) ∧
  (∀ (c : Core) (code : Nat) (o0 o1 : Word) (s : State), (kvPost s c code o0 o1).kv = { s.kv with
    intSts := s.kv.intSts ||| 1#32
    cmd := s.kv.cmd.set c { s.kv.cmd[c] with code := BitVec.ofNat 4 code, done := true, out0 := o0, out1 := o1, run := none } }) ∧
  (∀ (r : KvRun) (i : Fin 128) (x : Slot) (s : State), r.fill = some (i.val, x) → x.gen = (s.kv.slots[i]).gen →
    (kvApply s r).kv.slots = s.kv.slots.set i x) ∧
  (∀ (r : KvRun) (s : State), r.fill = none → (kvApply s r).kv.slots = s.kv.slots) ∧
  (∀ (r : KvRun) (s : State), (kvApply s r).he.ram = if r.bytes = [] then s.he.ram else (ramWrite s none r.dst r.bytes).he.ram) ∧
  (∀ (c : Core) (r : KvRun) (j : Fin 128) (s v : State), s.pd.inReset = false → (s.kv.cmd[c]).run = some r → r.waits = false →
    r.commit = some j.val → kvWorked s r = some v → usedBy s c j.val = false →
    ∃ x, exec (.kvOpEnd c) s = .next (settleAll (kvServe 8 x)) ∧ (x.kv.cmd[c]).code = 0 ∧ (x.kv.cmd[c]).done = true ∧
      (x.kv.cmd[c]).run = none ∧ (x.kv.cmd[c]).out0 = handleOf x j ∧ aget x.bt.units r.billet = none ∧
      x.kv.slots = v.kv.slots.set j { v.kv.slots[j] with
        material := (v.kv.slots[j]).pend.getD (v.kv.slots[j]).material, pend := none, gen := ((v.kv.slots[j]).gen + 1) % 65536 }) ∧
  (∀ (c : Core) (r : KvRun) (j : Fin 128) (s : State), s.pd.inReset = false → (s.kv.cmd[c]).run = some r →
    r.commit = some j.val → usedBy s c j.val = true → exec (.kvOpEnd c) s = .next (settleAll s))

/-- Key operations of the vault. DERIVE, GENERATE and UNWRAP fill the child slot alone at their end, with derived, fresh or
unwrapped material; WRAP writes the blob of Table 10.6 alone; REVOKE empties the slot and raises its GEN, and refuses a locked
one; REPLACE fills the pending half and gives its KCV; COMMIT with the wrong KCV discards it; CANCEL discards it; KCV gives
the current material's. What the end of each writes and posts is named by the operation that stands in flight. -/
def Obligations.VaultKeyOperationsFillReplaceAndRevoke : Prop :=
  ∀ (c : Core) (s : State) (id : Nat) (v : State),
    let k := v.kv.cmd[c]
    let ow := (s.kv.cmd[c]).owner
    (∀ (p i : Fin 128) (typ usage : Nat) (l ctx : List Byte), KvStarts 1 c s id v → kvHandle v k (kvArg k 0) = .inr p →
      childArg (kvArg k 1) = some (i, typ, usage) → childCheck v p 0 i.val = 0 → typ = 1 ∨ typ = 2 → usageOk v p typ usage = true →
      labelCtx v (kvArg k 2) (kvArg k 3 % 128) = .inr (l, ctx) →
      KvTakes (.derive c) s v c (kvRan 1 id ow [p.val, i.val] 0 (handleOf v i) 0 (some (i.val, childOf v p i typ 2 usage ow.toNat false
        (expandB (v.kv.slots[p]).material (deriveCtx l typ ((v.kv.slots[p]).depth + 1) usage ow.toNat ctx) (matLen typ)))) 0 0 [] none)) ∧
    (∀ (p i : Fin 128) (typ usage : Nat) (m : List Byte) (w : State), KvStarts 2 c s id v → kvHandle v k (kvArg k 0) = .inr p →
      childArg (kvArg k 1) = some (i, typ, usage) → childCheck v p 0 i.val = 0 → typ = 1 ∨ typ = 2 → usageOk v p typ usage = true →
      entropyBytes v (matLen typ) = (some m, w) →
      KvTakes (.generate c) s v c (kvRan 2 id ow [p.val, i.val] 0 (handleOf v i) 0
        (some (i.val, childOf v p i typ 3 usage ow.toNat false m)) 0 0 [] none)) ∧
    (∀ (p i : Fin 128), KvStarts 3 c s id v → kvHandle v k (kvArg k 0) = .inr p → i.val = kvArg k 1 % 128 → 10 < i.val →
      childCheck v p 4 i.val = 0 → kvRange (kvArg k 2) 96 = true →
      let b := ramRead v (kvArg k 2) 96
      let key := (v.kv.slots[p]).material
      be32 b 0 = 0x545A5742 → be8 b 4 = 1 ∨ be8 b 4 = 2 → be16 b 6 ≤ 255 → usageOk v p (be8 b 4) (be16 b 6) = true →
      gcmTag key (slice b 8 12) (b.take 20) (slice b 20 48) = slice b 68 16 →
      KvTakes (.unwrap c) s v c (kvRan 3 id ow [p.val, i.val] 0 (handleOf v i) 0
        (some (i.val, childOf v p i (be8 b 4) 4 (be16 b 6) ow.toNat false
          ((gcmCrypt key (slice b 8 12) (slice b 20 48)).take (matLen (be8 b 4))))) 0 0 [] none)) ∧
    (∀ (w i : Fin 128) (nonce : List Byte) (x : State), KvStarts 4 c s id v → kvHandle v k (kvArg k 0) = .inr w →
      kvHandle v k (kvArg k 1) = .inr i → (v.kv.slots[w]).typ = 1 → hasUse v w 4 = true → hasUse v i 5 = true →
      kvRange (kvArg k 2) 96 = true → entropyBytes v 12 = (some nonce, x) →
      KvTakes (.wrap c) s v c (kvRan 4 id ow [w.val, i.val] 0 0 0 none (kvArg k 2) 96
        (wrapBlob (v.kv.slots[w]).material nonce v.kv.slots[i]) none)) ∧
    (∀ i : Fin 128, KvStarts 5 c s id v → kvHandle v k (kvArg k 0) = .inr i → (v.kv.slots[i]).lock = false →
      ∃ t, exec (.revoke c) s = .next (settleAll t) ∧ (t.kv.cmd[c]).run = some (kvRan 5 id ow [] 0 0 0 none 0 0 [] none) ∧
        t.kv.slots = v.kv.slots.set i { gen := ((v.kv.slots[i]).gen + 1) % 65536 } ∧ t.kv.intSts.getLsbD 1 = true) ∧
    (∀ i : Fin 128, KvStarts 5 c s id v → kvHandle v k (kvArg k 0) = .inr i → (v.kv.slots[i]).lock = true →
      KvTakes (.revoke c) s v c (kvRan 5 id ow [] 13 0 0 none 0 0 [] none)) ∧
    (∀ (i : Fin 128) (m : List Byte) (x : State), KvStarts 6 c s id v → kvHandle v k (kvArg k 0) = .inr i →
      (v.kv.slots[i]).lock = false → (v.kv.slots[i]).typ ≠ 3 → (v.kv.slots[i]).pend = none → slotTaken v i.val = false →
      kvArg k 1 % 2 = 1 → entropyBytes v (matLen (v.kv.slots[i]).typ) = (some m, x) →
      KvTakes (.replace c) s v c (kvRan 6 id ow [i.val] 0 (wordBE (kcvOf m) 0) (wordBE (kcvOf m) 4)
        (some (i.val, { v.kv.slots[i] with pend := some m })) 0 0 [] none)) ∧
    (∀ (i : Fin 128) (m : List Byte), KvStarts 7 c s id v → kvHandle v k (kvArg k 0) = .inr i → (v.kv.slots[i]).pend = some m →
      KvTakes (.commit c) s v c (if wordBE (kcvOf m) 0 = k.arg[1] ∧ wordBE (kcvOf m) 4 = k.arg[2] then
          kvRan 7 id ow [i.val] 0 0 0 none 0 0 [] (some i.val)
        else kvRan 7 id ow [i.val] 10 0 0 (some (i.val, { v.kv.slots[i] with pend := none })) 0 0 [] none)) ∧
    (∀ i : Fin 128, KvStarts 8 c s id v → kvHandle v k (kvArg k 0) = .inr i →
      ∃ t, exec (.cancel c) s = .next (settleAll t) ∧ (t.kv.cmd[c]).run = some (kvRan 8 id ow [i.val] 0 0 0 none 0 0 [] none) ∧
        t.kv.slots = v.kv.slots.set i { v.kv.slots[i] with pend := none }) ∧
    (∀ i : Fin 128, KvStarts 9 c s id v → kvHandle v k (kvArg k 0) = .inr i →
      KvTakes (.kcv c) s v c (kvRan 9 id ow [i.val] 0 (wordBE (kcvOf (v.kv.slots[i]).material) 0)
        (wordBE (kcvOf (v.kv.slots[i]).material) 4) none 0 0 [] none))

/-- Data and signing operations of the vault. HMAC, GCM_ENC and GCM_DEC write their result to the destination at their end and
nothing else, and a GCM_DEC whose tag differs writes zeros; SIGN takes one leaf and writes the signature; ALIAS makes the
alias key once per reset; PUBKEY writes the public key; a journal write raises N by 1,024 or marks the key failed, and none
happens during an own-store erase; a generated tree makes its key ready. A signature's bytes are a free value. -/
def Obligations.VaultDataAndSigningOperations : Prop :=
  (∀ (c : Core) (s : State) (id : Nat) (v : State) (i : Fin 128),
    let k := v.kv.cmd[c]
    let ow := (s.kv.cmd[c]).owner
    kvHandle v k (kvArg k 0) = .inr i →
    (KvStarts 10 c s id v → (v.kv.slots[i]).typ = 1 → hasUse v i 1 = true → 0 < kvArg k 3 → kvArg k 3 ≤ 65536 →
      kvRange (kvArg k 1) 32 = true → kvRange (kvArg k 2) (kvArg k 3) = true →
      KvTakes (.hmac c) s v c (kvRan 10 id ow [i.val] 0 0 0 none (kvArg k 1) 32
        (digBytes (hmacB (v.kv.slots[i]).material (ramRead v (kvArg k 2) (kvArg k 3)))) none)) ∧
    (let pb := ramRead v (kvArg k 1) 32
     let w := fun (j : Nat) => leNat (slice pb (4 * j) 4)
     let key := (v.kv.slots[i]).material
     let aad := ramRead v (w 3) (w 4)
     let src := ramRead v (w 5) (w 7)
     let out := gcmCrypt key (pb.take 12) src
     (v.kv.slots[i]).typ = 1 → kvRange (kvArg k 1) 32 = true → w 4 ≤ 4096 → (w 4 = 0 ∨ kvRange (w 3) (w 4) = true) →
       0 < w 7 → w 7 ≤ 65536 →
      (KvStarts 11 c s id v → hasUse v i 2 = true → kvRange (w 5) (w 7) = true → kvRange (w 6) (w 7 + 16) = true →
        KvTakes (.gcmEnc c) s v c (kvRan 11 id ow [i.val] 0 0 0 none (w 6) (w 7 + 16)
          (out ++ gcmTag key (pb.take 12) aad out) none)) ∧
      (KvStarts 12 c s id v → hasUse v i 3 = true → kvRange (w 5) (w 7 + 16) = true → kvRange (w 6) (w 7) = true →
        KvTakes (.gcmDec c) s v c (if gcmTag key (pb.take 12) aad src = ramRead v (w 5 + w 7) 16 then
            kvRan 12 id ow [i.val] 0 0 0 none (w 6) (w 7) out none
          else kvRan 12 id ow [i.val] 11 0 0 none (w 6) (w 7) (fillBytes (w 7) 0) none))) ∧
    (∀ j : Fin 2, KvStarts 13 c s id v → lmsKeyOf v i = some j → maySign v ow = true → 0 < kvArg k 3 → kvArg k 3 ≤ 4096 →
      kvRange (kvArg k 1) sigLen = true → kvRange (kvArg k 2) (kvArg k 3) = true → lmsBusy v j = false →
      let q := (v.mb.lms[j]).p
      ∃ t, exec (.sign c) s = .next (settleAll t) ∧ (t.kv.cmd[c]).run = some (kvRan 13 id ow [i.val] 0 (BitVec.ofNat 32 q) 5396 none
          (kvArg k 1) sigLen ((List.range sigLen).map (Config.sigByte (v.kv.slots[(v.mb.lms[j]).slot]).material q
            (ramRead v (kvArg k 2) (kvArg k 3)))) none) ∧
        (t.mb.lms[j]).p = q + 1 ∧ (∀ x : Fin 2, x ≠ j → t.mb.lms[x] = v.mb.lms[x]) ∧ t.kv.slots = v.kv.slots ∧
        t.he.ram = v.he.ram) ∧
    (∀ j : Fin 2, KvStarts 13 c s id v → lmsKeyOf v i = some j → maySign v ow = true → 0 < kvArg k 3 → kvArg k 3 ≤ 4096 →
      kvRange (kvArg k 1) sigLen = true → kvRange (kvArg k 2) (kvArg k 3) = true → lmsBusy v j = true →
      KvTakes (.sign c) s v c (kvRan 13 id ow [] 1 0 0 none 0 0 [] none)) ∧
    (∀ a : Fin 128, KvStarts 14 c s id v → lmsKeyOf v i = some 0 → maySign v ow = true → v.mb.aliased = false →
      a.val = kvArg k 1 % 128 → 16 ≤ a.val → (v.kv.slots[a]).typ = 0 → kvRange (kvArg k 2) 5588 = true → lmsBusy v 0 = false →
      ∃ (t : State) (bs : List Byte), exec (.alias_ c) s = .next (settleAll t) ∧ t.mb.aliased = true ∧
        (t.mb.lms[(1 : Fin 2)]).valid = true ∧
        (t.mb.lms[(1 : Fin 2)]).slot = a ∧ (t.mb.lms[(0 : Fin 2)]).p = (v.mb.lms[(0 : Fin 2)]).p + 1 ∧
        (t.kv.slots[a]).typ = 2 ∧ (t.kv.slots[a]).usage = 0x40 ∧ (t.kv.slots[a]).parent = 0 ∧
        (∀ x : Fin 128, x ≠ a → t.kv.slots[x] = v.kv.slots[x]) ∧ t.he.ram = v.he.ram ∧
        (t.kv.cmd[c]).run = some (kvRan 14 id ow [i.val, a.val, 0] 0 (handleOf v a) (BitVec.ofNat 32 (aliasEpoch v + 1)) none
          (kvArg k 2) 5588 bs none)) ∧
    (∀ j : Fin 2, KvStarts 15 c s id v → lmsKeyOf v i = some j → maySign v ow = true → kvRange (kvArg k 1) 60 = true →
      lmsBusy v j = false →
      KvTakes (.pubkey c) s v c (kvRan 15 id ow [i.val] 0 0 0 none (kvArg k 1) 60 (pubKeyOf (v.mb.lms[j]).keyId) none))) ∧
  (∀ (j : Fin 2) (f : Bool) (s : State), (s.mb.lms[j]).valid = false ∨ (s.mb.lms[j]).jbusy = false ∨ osErasing s = true →
    exec (.leafJournalWrite j f) s = .next s) ∧
  (∀ (j : Fin 2) (s : State), s.pd.inReset = false → (s.mb.lms[j]).valid = true → (s.mb.lms[j]).jbusy = true → osErasing s = false →
    (∃ t, exec (.leafJournalWrite j true) s = .next t ∧ (t.mb.lms[j]).jfail = true ∧ (t.mb.lms[j]).n = (s.mb.lms[j]).n ∧
      (t.mb.lms[j]).p = (s.mb.lms[j]).p ∧ t.mb.intSts = s.mb.intSts ||| 2#32 ∧ t.os = s.os) ∧
    (∃ t, exec (.leafJournalWrite j false) s = .next t ∧ (t.mb.lms[j]).n = (s.mb.lms[j]).n + 1024 ∧
      (t.mb.lms[j]).seq = (s.mb.lms[j]).seq + 1 ∧ (t.mb.lms[j]).p = (s.mb.lms[j]).p ∧ (t.mb.lms[j]).jbusy = false ∧
      (t.mb.lms[j]).jfail = false ∧ (∀ x : Fin 2, x ≠ j → t.mb.lms[x] = s.mb.lms[x]) ∧ t.kv = s.kv)) ∧
  (∀ (j : Fin 2) (id : Nat) (l : List Nat) (s : State), s.pd.inReset = false → unitsWhere s (fun u => u.work = .tree j) = id :: l →
    allEng.any (fun e => match engJob s e with | some x => x.billet = id | none => false) = true → (s.mb.lms[j]).valid = true →
    let k := s.mb.lms[j]
    ∃ t, exec (.lmsTreeGenerated j) s = .next (settleAll t) ∧ (t.mb.lms[j]).ready = true ∧ (t.mb.lms[j]).top = true ∧
      (t.mb.lms[j]).lower = (if k.top then min 2 (k.lower + 1) else 2) ∧ (t.mb.lms[j]).p = k.p ∧
      t.mb.intSts = (if k.ready then s.mb.intSts else s.mb.intSts ||| 4#32) ∧
      (k.top = false ∨ 1 ≤ k.lower → aget t.bt.units id = none)) ∧
  (∀ (j : Fin 2) (id : Nat) (l : List Nat) (s : State), s.pd.inReset = false → unitsWhere s (fun u => u.work = .tree j) = id :: l →
    allEng.any (fun e => match engJob s e with | some x => x.billet = id | none => false) = false →
    exec (.lmsTreeGenerated j) s = .next (settleAll s))

/-- Roots, zeroisation and the entropy source. ROOT_LOAD loads once per reset, nothing in BLANK and nothing in ash, and with an
AWK, a unique secret and a generation it fills slot 0 and enters SERVICE; ZEROISE leaves every slot empty and the vault in ash
without its AWK; REKINDLE leaves the ash only under R314's conditions and else sets REJ; the sweep empties each invalid slot
and no other; a failed health test sets ES_FAIL; the retest comes 1 ms after it, and clears ES_FAIL where it passes. None of
the first three is open to an external master. -/
def Obligations.VaultRootsAshAndEntropy : Prop :=
  (∀ (m : Core) (s : State), s.kv.loaded = true → exec (.rootLoad (.core m)) s = .next s) ∧
  (∀ (m : Core) (s : State), s.pd.inReset = false → s.kv.loaded = false → lcState s = .blank →
    exec (.rootLoad (.core m)) s = .next { s with kv := { s.kv with loaded := true, awkNew := false } }) ∧
  (∀ (m : Core) (s : State), s.pd.inReset = false → s.kv.loaded = false → lcState s ≠ .blank → lcDead s = true ∨ s.tp.ao.ashed = true →
    exec (.rootLoad (.core m)) s = .next { s with kv := { s.kv with loaded := true, awkNew := false, state := 3 } }) ∧
  (∀ (m : Core) (uds : List Byte) (g : Nat) (awk : Digest) (s : State), s.pd.inReset = false → s.kv.loaded = false →
    lcState s ≠ .blank → lcDead s = false → s.tp.ao.ashed = false → s.tp.ao.awk = some awk → otpUds s = some uds →
    curGen s = some g → ∃ t, exec (.rootLoad (.core m)) s = .next t ∧ t.kv.loaded = true ∧ t.kv.state = 1 ∧ t.kv.ownerGen = g ∧
      (t.kv.slots[(0 : Fin 128)]).typ = 1 ∧ (t.kv.slots[(0 : Fin 128)]).isRoot = true ∧ (t.kv.slots[(0 : Fin 128)]).lock = true ∧
      (t.kv.slots[(0 : Fin 128)]).material = extractB (genSeed s g) uds ∧
      (t.kv.slots[(2 : Fin 128)]).material = extractB (digBytes awk) (extractB (genSeed s g) uds) ∧ t.tp.ao.awk = some awk ∧
      t.otp = s.otp) ∧
  (∀ (m : Core) (s : State), s.pd.inReset = false → s.kv.loaded = false → lcState s ≠ .blank → lcDead s = false →
    s.tp.ao.ashed = false → s.tp.ao.awk = none → optAolossAsh s = true →
    ∃ t, exec (.rootLoad (.core m)) s = .next t ∧ t.kv.state = 3 ∧ t.tp.ao.ashed = true ∧ t.kv.slots = s.kv.slots) ∧
  (∀ (m : Core) (s : State), s.pd.inReset = false → ∃ u, exec (.zeroise (.core m)) s = .next (settleAll u) ∧ u.kv.state = 3 ∧
    u.tp.ao.ashed = true ∧ u.tp.ao.awk = none ∧ u.kv.intSts.getLsbD 2 = true ∧
    (∀ i : Fin 128, (s.kv.slots[i]).typ ≠ 0 → u.kv.slots[i] = { gen := ((s.kv.slots[i]).gen + 1) % 65536 }) ∧
    (∀ i : Fin 128, (s.kv.slots[i]).typ = 0 → u.kv.slots[i] = s.kv.slots[i])) ∧
  (∀ (m : Core) (s : State), s.pd.inReset = false →
    s.kv.state ≠ 3 ∨ (lcState s ≠ .test ∧ lcState s ≠ .production) ∨ curGen s = none ∨ tamperActive s = true →
    exec (.rekindle (.core m)) s = .next { s with kv := { s.kv with rej := true } }) ∧
  (∀ (m : Core) (uds : List Byte) (s : State), s.pd.inReset = false → s.kv.state = 3 → lcState s = .test ∨ lcState s = .production →
    (curGen s).isSome = true → tamperActive s = false → s.kv.esFail = false → otpUds s = some uds →
    ∃ t, exec (.rekindle (.core m)) s = .next t ∧ t.kv.state = 1 ∧ t.kv.awkNew = true ∧ t.tp.ao.ashed = false ∧
      t.tp.ao.awk.isSome = true ∧ (t.kv.slots[(0 : Fin 128)]).typ = 1) ∧
  (∀ s : State, s.pd.inReset = false → ∃ t, exec .invalidationSweep s = .next t ∧ 
    t = { s with kv := { s.kv with slots := t.kv.slots }, mb := { s.mb with lms := t.mb.lms } } ∧
    (∀ i : Fin 128, t.kv.slots[i] = if (s.kv.slots[i]).typ ≠ 0 ∧ slotOk s i = false
      then { gen := ((s.kv.slots[i]).gen + 1) % 65536 } else s.kv.slots[i])) ∧
  (∀ s : State, s.pd.inReset = false → exec .healthTestFail s =
    .next { s with kv := { s.kv with esFail := true, esAt := s.clk.now, intSts := s.kv.intSts ||| 8#32 } }) ∧
  (∀ (p : Bool) (s : State), s.kv.esFail = false → exec (.entropyRetest p) s = .next s) ∧
  (∀ s : State, s.pd.inReset = false → s.kv.esFail = true →
    let at_ := max s.clk.now (s.kv.esAt + 500000)
    exec (.entropyRetest true) s = .next { s with clk := { s.clk with now := at_ }, kv := { s.kv with esFail := false } } ∧
    exec (.entropyRetest false) s = .next { s with clk := { s.clk with now := at_ }
                                                   kv := { s.kv with esAt := at_, intSts := s.kv.intSts ||| 8#32 } }) ∧
  (∀ (x : Fin 6) (s : State), exec (.rootLoad (.ext x)) s = .next s ∧ exec (.zeroise (.ext x)) s = .next s ∧
    exec (.rekindle (.ext x)) s = .next s)

/-! The life-cycle engine. -/

/-- Operation `op` of LC_CMD ends at once with result `code`. -/
def Sys2Proof.Machine.lcResult (s : State) (op code : Nat) : State :=
  { s with lc := { s.lc with
    cmdOp := BitVec.ofNat 4 op, code := BitVec.ofNat 4 code, done := true, intSts := s.lc.intSts ||| 1#32 } }

/-- The engine is free to take a command. -/
def Sys2Proof.Machine.LcFree (s : State) : Prop := s.pd.inReset = false ∧ s.lc.run = none ∧ s.lc.token = none

/-- In `t` transition `op` of generation `g` runs from intent slot `i`, begun in `s`, with these steps to do: its INTENT is programmed
and nothing else. -/
def Sys2Proof.Machine.LcRuns (s t : State) (op g i : Nat) (l : List LcAct) : Prop :=
  t.lc.run = some ⟨op, g, i, l⟩ ∧ t.lc.slot = BitVec.ofNat 5 i ∧ t.lc.code = s.lc.code ∧ t.lc.done = s.lc.done ∧ t.kv = s.kv ∧
  t.otp = (otpProg s (markAt i) [BitVec.ofNat 8 op, BitVec.ofNat 8 g, ~~~BitVec.ofNat 8 op, ~~~BitVec.ofNat 8 g]).otp

/-- The vault of `t` is in ash: no slot holds anything and the AWK is gone. -/
def Sys2Proof.Machine.VaultAsh (t : State) : Prop :=
  t.kv.state = 3 ∧ t.tp.ao.awk = none ∧ ∀ i : Fin 128, (t.kv.slots[i]).typ = 0

/-- Life-cycle transitions. Each is refused with STATE outside the states Table 11.5 allows, TO_TEST also without a serial number
or a healthy entropy source, and every one without a free intent slot; otherwise it programs its INTENT and runs, with the
steps of Table 11.5 to do, until LC_TRANSITION_END; a step programs its bytes or zeroises what Table 10.7 names. -/
def Obligations.LifeCycleTransitionsProgramTheirSteps : Prop :=
  (∀ (m : Core) (s : State), LcFree s →
    let mark := fun (i op g : Nat) =>
      otpProg s (markAt i) [BitVec.ofNat 8 op, BitVec.ofNat 8 g, ~~~BitVec.ofNat 8 op, ~~~BitVec.ofNat 8 g]
    (lcState s ≠ .blank → exec (.toTest (.core m)) s = .next (lcResult s 1 1)) ∧
    (lcState s = .blank → serialNum s = 0 → exec (.toTest (.core m)) s = .next (lcResult s 1 4)) ∧
    (lcState s = .blank → serialNum s ≠ 0 → s.kv.esFail = true → exec (.toTest (.core m)) s = .next (lcResult s 1 9)) ∧
    (lcState s = .blank → serialNum s ≠ 0 → s.kv.esFail = false → lcSlot s 0x11 = none →
      exec (.toTest (.core m)) s = .next (lcResult s 1 3)) ∧
    (∀ (i k : Nat) (u : List Byte) (v : State), lcState s = .blank → serialNum s ≠ 0 → lcSlot s 0x11 = some i →
      otpUds (mark i 0x11 0) = none → udsFree (mark i 0x11 0) = some k → entropyBytes s 32 = (some u, v) →
      ∃ t, exec (.toTest (.core m)) s = .next t ∧
        LcRuns s t 0x11 0 i [.prog (udsAt k) u, .prog (udsAt k + 32) (udsChk u), .prog 0 (beBytes 16 (stageWord 1))]) ∧
    (lcState s ≠ .test → exec (.toProduction (.core m)) s = .next (lcResult s 2 1)) ∧
    (∀ i : Nat, lcState s = .test → lcSlot s 0x22 = some i → ∃ t, exec (.toProduction (.core m)) s = .next t ∧
      LcRuns s t 0x22 0 i [.zeroise true, .prog 0x010 (beBytes 16 (stageWord 2))]) ∧
    (lcState s = .test → lcSlot s 0x22 = none → exec (.toProduction (.core m)) s = .next (lcResult s 2 3)) ∧
    (nextGen s = none ∨ lcState s ≠ .production ∨ curGen s ≠ none → exec (.provision (.core m)) s =
      .next { lcResult s 3 1 with lc := { (lcResult s 3 1).lc with prov := Vector.replicate 24 0 } }) ∧
    (∀ g i : Nat, nextGen s = some g → lcState s = .production → curGen s = none → lcSlot s 0x66 = some i →
      let w := otpProg (mark i 0x66 g) (genBase g) (provBytes s)
      ∃ t, exec (.provision (.core m)) s = .next t ∧ t.lc.prov = s.lc.prov ∧
        LcRuns s t 0x66 g i [.prog (genBase g) (provBytes s), .prog (genBase g + 0x60) (seedChk (genSeed w g)),
          .prog (genBase g + 0x68) (fillBytes 4 0xFF)]) ∧
    (lcState s ≠ .production ∨ curGen s ≠ none → exec (.toEol (.core m)) s = .next (lcResult s 5 1)) ∧
    (∀ i : Nat, lcState s = .production → curGen s = none → lcSlot s 0x33 = some i → ∃ t, exec (.toEol (.core m)) s = .next t ∧
      LcRuns s t 0x33 0 i ((List.range 4).map (fun g => .prog (genBase g + 0x6C) (fillBytes 4 0xFF)) ++
        [.zeroise false, .prog 0x020 (beBytes 16 (stageWord 3))])) ∧
    (∀ f : Bool, exec (.lcTransitionEnd f) s = .next s)) ∧
  (∀ (n : Nat) (s : State), lcRun n [] s = s) ∧
  (∀ (a n : Nat) (bs : List Byte) (l : List LcAct) (s : State), 0 < n → actUnits (.prog a bs) ≤ n →
    lcRun n (.prog a bs :: l) s = lcRun (n - actUnits (.prog a bs)) l (otpProg s a bs)) ∧
  (∀ (n : Nat) (l : List LcAct) (s : State), lcRun (n + 1) (.zeroise false :: l) s = lcRun n l (zeroiseVault s) ∧
    lcRun (n + 1) (.zeroise true :: l) s = lcRun n l (zeroiseTest s)) ∧
  (∀ s : State, VaultAsh (zeroiseVault s) ∧ (zeroiseVault s).otp = s.otp ∧ ((zeroiseTest s).kv.slots[(3 : Fin 128)]).typ = 0 ∧
    (zeroiseTest s).kv.testRoot = false ∧ (zeroiseTest s).otp = s.otp)

/-- Ends of transitions, tokens and nonces. LC_TRANSITION_END performs the steps and programs DONE with result PASS, or leaves the
mark open with OTP_FAIL after a number of bits that the specification does not say (log entry 43); NONCE takes a nonce or
fails with ENTROPY; REDEEM ends the nonce and its first failing check gives the result, else the signature is checked by jobs
of the hash bank; a token that passes starts the transition of its PURPOSE, which revokes the generation and puts the vault in
ash, and one whose signature fails ends with SIG; while a command runs every command ends with BUSY; an external master starts
none. -/
def Obligations.TransitionEndsTokensAndNonces : Prop :=
  (∀ (r : LcRun) (s : State), s.pd.inReset = false → s.lc.run = some r →
    let v := { s with lc := { s.lc with run := none, prov := if r.op = 0x66 then Vector.replicate 24 0 else s.lc.prov } }
    let w := lcRun (lcUnits r.acts) r.acts v
    exec (.lcTransitionEnd false) s = .next (lcFinish (otpProg w (markAt r.slot + 4) (fillBytes 4 0xFF)) 0) ∧
    (∃ n : Nat, n ≤ lcUnits r.acts ∧ ∃ t, exec (.lcTransitionEnd true) s = .next t ∧ t.lc.run = none ∧ t.lc.code = 10 ∧
      t.lc.done = true ∧ t.lc.intSts.getLsbD 1 = true ∧ t.otp = (lcRun n r.acts v).otp)) ∧
  (∀ (code : Nat) (s : State), lcFinish s code =
    { s with lc := { s.lc with code := BitVec.ofNat 4 code, done := true, intSts := s.lc.intSts ||| 1#32 } }) ∧
  (∀ (m : Core) (s : State), s.pd.inReset = false → s.lc.run.isSome = true ∨ s.lc.token.isSome = true →
    exec (.toTest (.core m)) s = .next (lcResult s 1 2) ∧ exec (.toProduction (.core m)) s = .next (lcResult s 2 2) ∧
    exec (.provision (.core m)) s =
      .next { lcResult s 3 2 with lc := { (lcResult s 3 2).lc with prov := Vector.replicate 24 0 } } ∧
    exec (.redeem (.core m)) s = .next (lcResult s 4 2) ∧
    exec (.toEol (.core m)) s = .next (lcResult s 5 2) ∧ exec (.nonce (.core m)) s = .next (lcResult s 6 2)) ∧
  (∀ (x : Fin 6) (s : State), exec (.toTest (.ext x)) s = .next s ∧ exec (.toProduction (.ext x)) s = .next s ∧
    exec (.provision (.ext x)) s = .next s ∧ exec (.redeem (.ext x)) s = .next s ∧ exec (.toEol (.ext x)) s = .next s ∧
    exec (.nonce (.ext x)) s = .next s) ∧
  (∀ (m : Core) (s : State), LcFree s →
    (s.kv.esFail = true → exec (.nonce (.core m)) s =
      .next { lcResult s 6 9 with lc := { (lcResult s 6 9).lc with nonce := none } }) ∧
    (∀ (b : List Byte) (v : State), entropyBytes s 32 = (some b, v) → ∃ t, exec (.nonce (.core m)) s = .next t ∧
      t.lc.nonce = some (digOf b) ∧ t.lc.code = 0 ∧ t.lc.done = true ∧ t.otp = s.otp ∧ t.kv = s.kv) ∧
    (let a := s.lc.tokenAddr.toNat
     let n := s.lc.tokenLen.toNat
     let w := ramRead s a n
     ∃ t, exec (.redeem (.core m)) s = .next t ∧ t.lc.nonce = none ∧ t.otp = s.otp ∧ t.kv.slots = s.kv.slots ∧
      (if tokenCheck s s.lc.nonce a n = 0 then
        t.lc.token = some (slice w 64 60, w.drop 128, w.take 128, be8 w 6, be8 w 7) ∧ t.lc.done = s.lc.done
      else t.lc.token = none ∧ t.lc.code = BitVec.ofNat 4 (tokenCheck s s.lc.nonce a n) ∧ t.lc.done = true))) ∧
  (∀ s : State, s.lc.token = none → exec .tokenCheckEnd s = .next s) ∧
  (∀ (key sig msg : List Byte) (p g : Nat) (s : State), s.pd.inReset = false → s.lc.token = some (key, sig, msg, p, g) →
    (unitsWhere (tokenStart s) (fun u => u.work = .token) = [] → exec .tokenCheckEnd s = .next (tokenStart s)) ∧
    (∀ (id : Nat) (l : List Nat), unitsWhere (tokenStart s) (fun u => u.work = .token) = id :: l →
      (unitDone id 12 (tokenStart s) = none → exec .tokenCheckEnd s = .next (tokenStart s)) ∧
      (∀ v : State, unitDone id 12 (tokenStart s) = some v →
        exec .tokenCheckEnd s = .next (tokenVerdict (retire v id) key sig msg p g)))) ∧
  (∀ (key sig msg : List Byte) (p g : Nat) (s : State),
    (hssVerify false key sig msg ≠ .pass → tokenVerdict s key sig msg p g =
      { s with lc := { s.lc with token := none, code := 8, done := true, intSts := s.lc.intSts ||| 1#32 } }) ∧
    (hssVerify false key sig msg = .pass → lcState s = .production → curGen s = some g →
      let rev : Nat → LcAct := fun g => .prog (genBase g + 0x6C) (fillBytes 4 0xFF)
      (∀ i : Nat, lcSlot s 0x44 = some i → p = 1 → (tokenVerdict s key sig msg p g).lc.token = none ∧
        LcRuns s (tokenVerdict s key sig msg p g) 0x44 g i [rev g, .zeroise false, .prog (genBase g + 0x70) (fillBytes 4 0xFF)]) ∧
      (∀ i : Nat, lcSlot s 0x55 = some i → p = 2 → (tokenVerdict s key sig msg p g).lc.token = none ∧
        LcRuns s (tokenVerdict s key sig msg p g) 0x55 g i [rev g, .zeroise false]) ∧
      (∀ i : Nat, lcSlot s 0x33 = some i → p = 3 → (tokenVerdict s key sig msg p g).lc.token = none ∧
        LcRuns s (tokenVerdict s key sig msg p g) 0x33 0 i ((List.range 4).map rev ++
          [.zeroise false, .prog 0x020 (beBytes 16 (stageWord 3))]))))

/-! Mailboxes, tallies and attestation. -/

/-- An access of the mailbox window at offset `o` by this master meets no condition that refuses it: a core's never does, an
external master's is checked as a frame of one word at that address (Table 2.11). -/
def Sys2Proof.Machine.mbOpen (s : State) (m : Master) (o : Nat) (write : Bool) : Bool :=
  match m with
  | .core _ => true
  | .ext x => burstCheck s x { addr := BitVec.ofNat 24 (0xC0000 + o), count := 1, words := [] } write = 0

/-- A master may use the mailbox window for the instance its IN_SEL names, at offset `o`. -/
def Sys2Proof.Machine.BoxOpen (s : State) (m : Master) (o : Nat) : Prop :=
  s.pd.inReset = false ∧ mbOpen s m o true = true ∧ mayWrite s m 13 false = true ∧ ownsInst s m (selOf s m).inst = true

/-- Mailboxes, locks and tallies. A send is refused with its code and changes nothing else, or the whole message joins the other
side's queue with its sender and sequence number, and BULK and SPDM hand the buffer over; one that finds no host-service
billet is refused as by a full queue; a pop removes the head and counts an acknowledgement; a read acquires a free lock alone
and only the owner's number plus 1 frees it; a snapshot takes the selected tally; an extension is queued or, locked, refused;
its end sets the tally to SHA-256(T ‖ D) and counts it; an external master's access that Table 2.11 refuses is an access
error. -/
def Obligations.MailboxesLocksAndTallies : Prop :=
  (∀ (m : Master) (s : State), s.pd.inReset = false →
    let n := (selOf s m).inst
    let k := txCopy m
    let b := s.mb.box[n]
    let ws := (List.range 16).map (txWord b k)
    let who := if isCore m then 0xFF else n.val
    (∀ e : Nat, BoxOpen s m 0x008 → e = sendCheck s n (isCore m) ws → e ≠ 0 → exec (.mbSend m) s =
      .next { s with mb := { s.mb with box := s.mb.box.set n { b with res := b.res.set k (BitVec.ofNat 3 e) } } }) ∧
    (∀ u : State, BoxOpen s m 0x008 → sendCheck s n (isCore m) ws = 0 →
      draw .hs (if isCore m then .hearth else .inst n) none false (.msg n) s = (none, u) →
      exec (.mbSend m) s = .next { u with mb := { u.mb with box := u.mb.box.set n { u.mb.box[n] with
        res := (u.mb.box[n]).res.set k 1 } } }) ∧
    (∀ (id : Nat) (u : State), BoxOpen s m 0x008 → sendCheck s n (isCore m) ws = 0 →
      draw .hs (if isCore m then .hearth else .inst n) none false (.msg n) s = (some id, u) →
      ∃ t, exec (.mbSend m) s = .next t ∧ (t.mb.box[n]).res[k] = 0 ∧ aget t.bt.units id = none ∧
      (∀ x : Inst, x ≠ n → t.mb.box[x] = s.mb.box[x]) ∧ t.mb.locks = s.mb.locks ∧
      (t.mb.box[n]).bulkDev = (if isBulk (ws.headD 0) then !isCore m else b.bulkDev) ∧ (t.mb.box[n]).bulk = b.bulk ∧
      (isCore m = true → (t.mb.box[n]).inq = b.inq ∧ (t.mb.box[n]).outq =
        b.outq ++ [stampHdr (ws.headD 0) who (nextSeqOf b.outSeq who) :: (ws.take (hdrLen (ws.headD 0))).drop 1]) ∧
      (isCore m = false → (t.mb.box[n]).outq = b.outq ∧ (t.mb.box[n]).inq =
        b.inq ++ [stampHdr (ws.headD 0) who (nextSeqOf b.inSeq who) :: (ws.take (hdrLen (ws.headD 0))).drop 1])) ∧
    (∀ (w : List Word) (q : List (List Word)), isCore m = true → takenHead s n = false → b.inq = w :: q → exec (.mbPop m) s =
      .next { s with mb := { s.mb with box := s.mb.box.set n { b with inq := q, inAck := b.inAck + 1 } } }) ∧
    (isCore m = true → takenHead s n = true → exec (.mbPop m) s = .next s) ∧
    (∀ (w : List Word) (q : List (List Word)), BoxOpen s m 0x00C → isCore m = false → b.outq = w :: q → exec (.mbPop m) s =
      .next { s with mb := { s.mb with box := s.mb.box.set n { b with outq := q, outAck := b.outAck + 1, outPos := 0 } } }) ∧
    (∀ (l : Fin 16) (v : Word), BoxOpen s m (0x840 + 4 * l.val) → exec (.lockWrite m l v) s = .next
      (if s.mb.locks[l] = some n ∧ v.toNat % 128 = n.val + 1 then { s with mb := { s.mb with locks := s.mb.locks.set l none } }
       else s)) ∧
    (∀ l : Fin 16, mbOpen s m (0x840 + 4 * l.val) false = true → mayRead s m 13 = true → ownsInst s m (selOf s m).inst = true →
      exec (.lockRead m l) s = .next
        (if s.mb.locks[l] = none then { s with mb := { s.mb with locks := s.mb.locks.set l (some (selOf s m).inst) } } else s)) ∧
    (mbOpen s m 0x008 true = false → exec (.mbSend m) s = .next (accessError s m 0xC0008 .store)) ∧
    (mbOpen s m 0x00C true = false → exec (.mbPop m) s = .next (accessError s m 0xC000C .store)) ∧
    (mbOpen s m 0x884 false = false → exec (.tallySnapshotRead m) s = .next (accessError s m 0xC0884 .load)) ∧
    (mbOpen s m 0x8D0 true = false → exec (.extend m) s = .next (accessError s m 0xC08D0 .store)) ∧
    (∀ (l : Fin 16) (v : Word), mbOpen s m (0x840 + 4 * l.val) true = false →
      exec (.lockWrite m l v) s = .next (accessError s m (0xC0840 + 4 * l.val) .store)) ∧
    (∀ l : Fin 16, mbOpen s m (0x840 + 4 * l.val) false = false →
      exec (.lockRead m l) s = .next (accessError s m (0xC0840 + 4 * l.val) .load))) ∧
  (∀ (x : Fin 6) (a : Nat) (k : MemKind) (s : State), accessError s (.ext x) a k = { s with
    gc := { s.gc with portals := s.gc.portals.set x { s.gc.portals[x] with accessErr := true, lastStatus := 2 } } }) ∧
  (∀ (m : Master) (s : State), s.pd.inReset = false → mbOpen s m 0x884 false = true → mayRead s m 13 = true →
    ∃ t, exec (.tallySnapshotRead m) s = .next t ∧
    (selOf t m).snapVal = (s.mb.tallies[(selOf s m).tally]).1 ∧ (selOf t m).snapCnt = (s.mb.tallies[(selOf s m).tally]).2 ∧
    t = { s with sel := t.sel } ∧ (∀ o : Master, mIdx o ≠ mIdx m → selOf t o = selOf s o)) ∧
  (∀ (x : Fin 6) (s : State), mbOpen s (.ext x) 0x8D0 true = true → exec (.extend (.ext x)) s = .next s) ∧
  (∀ (c : Core) (s : State), s.pd.inReset = false →
    let k := (selOf s (.core c)).tally
    (s.mb.tallyLock.getLsbD k.val = true → exec (.extend (.core c)) s =
      .next { s with mb := { s.mb with tallyRej := setBit s.mb.tallyRej c.val } }) ∧
    (s.mb.tallyLock.getLsbD k.val = false → ∃ t, exec (.extend (.core c)) s = .next t ∧ t.mb.tallies = s.mb.tallies ∧
      t.mb.tallyQ.map (fun r => (r.t, r.d, r.core)) =
        s.mb.tallyQ.map (fun r => (r.t, r.d, r.core)) ++ [(k, s.mb.tallyIn[c], some c)])) ∧
  (∀ (k : Fin 64) (r : TallyReq) (id : Nat) (e : Fin 12) (s : State), s.pd.inReset = false →
    s.mb.tallyQ.find? (fun r => r.t = k) = some r → r.billet = some id → engOf s id = some e →
    ∃ u, exec (.tallyExtensionDone k) s = .next (settleAll u) ∧ u.mb.tallies =
      s.mb.tallies.set k (sha256 (digBytes (s.mb.tallies[k]).1 ++ digBytes r.d), (s.mb.tallies[k]).2 + 1) ∧
      u.mb.tallyQ.map (fun r => (r.t, r.d, r.core)) = (s.mb.tallyQ.erase r).map (fun r => (r.t, r.d, r.core))) ∧
  (∀ (k : Fin 64) (s : State), s.pd.inReset = false → s.mb.tallyQ.find? (fun r => r.t = k) = none →
    exec (.tallyExtensionDone k) s = .next (settleAll s))

/-- I3C targets and MCTP. On a port without a dynamic address, which is under I2C fallback (log entry 45), a packet is a frame
error; a packet for another EID or without an instance is dropped and counted; one for a draining instance, a full or unowned
mailbox, or without a host-service billet is NACKed and changes nothing else; a control request is answered; a whole message
joins the instance's inbound queue with its bytes in the bulk buffer. A packet read gives a waiting control response, the next
packet of an outbound message, which is popped with its last, or a NACK; a reply read gives the reply, 0x5C once after a
timeout, or a NACK; common command codes change the address and the interrupt enable. -/
def Obligations.I3cTargetsAndMctpPackets : Prop :=
  (∀ (p : Fin 4) (pkt : List Byte) (s : State), s.pd.inReset = false →
    let x := s.mb.i3c[p]
    let control := (byteAt pkt 3).getLsbD 7 = true ∧ byteAt pkt 4 &&& 0x7F = 0
    let mine := byteAt pkt 1 = x.eid ∨ byteAt pkt 1 = 0
    let inst := mctpInst s p (byteAt pkt 2)
    let dropped := (Host.Outcome.next (mctpDropped s) : Host.Outcome State Fault Refusal)
    (x.dynAddr = none → exec (.mctpPacketRx p pkt) s = .next (portalBad s ⟨p.val + 2, by omega⟩)) ∧
    (x.dynAddr.isSome = true → (¬ mine → exec (.mctpPacketRx p pkt) s = dropped) ∧
    (mine → control → ∃ t, exec (.mctpPacketRx p pkt) s = .next t ∧ (t.mb.i3c[p]).ctl.length = x.ctl.length + 1 ∧
      t.mb.box = s.mb.box ∧ t.mb.mctpDrop = s.mb.mctpDrop) ∧
    (mine → ¬ control → inst = none → exec (.mctpPacketRx p pkt) s = dropped) ∧
    (∀ n : Inst, mine → ¬ control → inst = some n →
      (s.inst[n]).st ≠ .active ∨ (s.mb.box[n]).bulkDev = true ∨ outSpdm s.mb.box[n] = true ∨ qFree (s.mb.box[n]).inq < 2 →
      exec (.mctpPacketRx p pkt) s =
        .next { s with mb := { s.mb with i3c := s.mb.i3c.set p { x with nacked := true } } }) ∧
    (∀ (n : Inst) (u : State), mine → ¬ control → inst = some n → (s.inst[n]).st = .active → (s.mb.box[n]).bulkDev = false →
      outSpdm s.mb.box[n] = false → 2 ≤ qFree (s.mb.box[n]).inq → ((byteAt pkt 3).getLsbD 7 = false ∨ byteAt pkt 4 = 5) →
      draw .hs (.inst n) none false (.msg n) s = (none, u) → exec (.mctpPacketRx p pkt) s =
        .next { u with mb := { u.mb with i3c := u.mb.i3c.set p { u.mb.i3c[p] with nacked := true } } }) ∧
    (∀ (n : Inst) (id : Nat) (u : State), mine → inst = some n → (s.inst[n]).st = .active → (s.mb.box[n]).bulkDev = false → outSpdm s.mb.box[n] = false →
      2 ≤ qFree (s.mb.box[n]).inq → (s.mb.box[n]).asm = none → (byteAt pkt 3).getLsbD 7 = true → byteAt pkt 4 = 5 →
      let data := pkt.drop 5
      data ≠ [] → data.length ≤ 63 → draw .hs (.inst n) none false (.msg n) s = (some id, u) → ∃ t, exec (.mctpPacketRx p pkt) s = .next t ∧ t.mb.mctpDrop = s.mb.mctpDrop ∧
        (t.mb.box[n]).bulk = memWrite 0 (s.mb.box[n]).bulk 0 data ∧ (∀ y : Inst, y ≠ n → t.mb.box[y] = s.mb.box[y]) ∧
        (if (byteAt pkt 3).getLsbD 6 then (t.mb.box[n]).asm = none ∧ (t.mb.box[n]).bulkDev = true ∧ (t.mb.box[n]).inq =
          (s.mb.box[n]).inq ++ [[stampHdr 0x5002 n.val (nextSeqOf (s.mb.box[n]).inSeq n.val), BitVec.ofNat 32 data.length]]
        else (t.mb.box[n]).inq = (s.mb.box[n]).inq ∧ (t.mb.box[n]).bulkDev = false ∧
          (t.mb.box[n]).asm.map (fun a => (a.eid, a.bytes)) = some (byteAt pkt 2, data))))) ∧
  (∀ (p : Fin 4) (s : State), s.pd.inReset = false → (s.mb.i3c[p]).reply = none →
    (∀ (c : List Byte) (q : List (List Byte)), (s.mb.i3c[p]).ctl = c :: q → exec (.mctpPacketRead p) s = .next { s with
      mb := { s.mb with i3c := s.mb.i3c.set p { s.mb.i3c[p] with ctl := q, out := c, nacked := false } } }) ∧
    ((s.mb.i3c[p]).ctl = [] → mctpNext s p = none → exec (.mctpPacketRead p) s = .next { s with
      mb := { s.mb with i3c := s.mb.i3c.set p { s.mb.i3c[p] with nacked := true } } }) ∧
    (∀ (n : Inst) (h l : Word) (r : List Word) (q : List (List Word)), (s.mb.i3c[p]).ctl = [] → mctpNext s p = some n →
      (s.mb.box[n]).outq = (h :: l :: r) :: q →
      let b := s.mb.box[n]
      let msg := (5 : Byte) :: bulkRead b 0 (bf l 0 13)
      ∃ t, exec (.mctpPacketRead p) s = .next t ∧ ((t.mb.i3c[p]).out).drop 4 = slice msg b.outPos 64 ∧
        (if msg.length ≤ b.outPos + 64 then (t.mb.box[n]).outq = q ∧ (t.mb.box[n]).outAck = b.outAck + 1 ∧
            (t.mb.box[n]).bulkDev = false ∧ (t.mb.box[n]).outPos = 0
          else (t.mb.box[n]).outq = b.outq ∧ (t.mb.box[n]).outPos = b.outPos + 64 ∧ (t.mb.box[n]).bulkDev = b.bulkDev)) ∧
    ((s.mb.i3c[p]).fx = [] → (s.mb.i3c[p]).late = true → exec (.i3cReplyRead p) s = .next { s with
      mb := { s.mb with i3c := s.mb.i3c.set p { s.mb.i3c[p] with late := false, out := [0x5C], nacked := false } } }) ∧
    ((s.mb.i3c[p]).fx = [] → (s.mb.i3c[p]).late = false → exec (.i3cReplyRead p) s = .next { s with
      mb := { s.mb with i3c := s.mb.i3c.set p { s.mb.i3c[p] with nacked := true } } }) ∧
    exec (.i3cReplyTimeout p) s = .next s) ∧
  (∀ (p : Fin 4) (bs : List Byte) (at_ : Nat) (s : State), s.pd.inReset = false → (s.mb.i3c[p]).reply = some (bs, at_) →
    ((s.mb.i3c[p]).fx = [] → ∀ i : Instr, i = .i3cReplyRead p ∨ i = .mctpPacketRead p → exec i s = .next { s with
      mb := { s.mb with i3c := s.mb.i3c.set p { s.mb.i3c[p] with reply := none, fx := [], out := bs, nacked := false } } }) ∧
    (∃ t, exec (.i3cReplyTimeout p) s = .next t ∧ (t.mb.i3c[p]).reply = none ∧ (t.mb.i3c[p]).late = true ∧
      (t.mb.i3c[p]).fx = [] ∧ (t.gc.portals[p.val + 2]).busyTmo = true ∧ t.clk.now = max s.clk.now (at_ + msCyc 1) ∧
      t.mb.box = s.mb.box ∧ t.mb.locks = s.mb.locks)) ∧
  (∀ (p : Fin 4) (d : List Byte) (s : State), s.pd.inReset = false →
    let x := s.mb.i3c[p]
    let put := fun (y : I3c) => (Host.Outcome.next { s with mb := { s.mb with i3c := s.mb.i3c.set p y } } :
      Host.Outcome State Fault Refusal)
    exec (.i3cCcc p 0x00 false d) s = put { x with ibi := x.ibi || (byteAt d 0).getLsbD 0, nacked := false } ∧
    exec (.i3cCcc p 0x01 false d) s = put { x with ibi := x.ibi && !(byteAt d 0).getLsbD 0, nacked := false } ∧
    exec (.i3cCcc p 0x06 false d) s = put { x with dynAddr := none, nacked := false } ∧
    exec (.i3cCcc p 0x80 true d) s = put { x with ibi := x.ibi || (byteAt d 0).getLsbD 0, nacked := false } ∧
    exec (.i3cCcc p 0x81 true d) s = put { x with ibi := x.ibi && !(byteAt d 0).getLsbD 0, nacked := false } ∧
    (∃ t, exec (.i3cCcc p 0x8D true d) s = .next t ∧ ((t.mb.i3c[p]).out).length = 6 ∧ t.mb.box = s.mb.box) ∧
    (∀ c : Byte, c ∉ [0x80, 0x81, 0x86, 0x87, 0x8B, 0x8C, 0x8D, 0x8E, 0x8F] →
      exec (.i3cCcc p c true d) s = put { x with nacked := true }))

/-- What the SPDM responder does with the request `req` of code `code` it takes from instance `n`, before it works on it. -/
def Sys2Proof.Machine.spdmTaken (s : State) (n : Inst) (code : Nat) : State :=
  let s := popIn s n
  let s := if code = 0x85 then s else bigFree s n
  if code = 0xE0 ∨ code = 0x85 then s else modBox s n (fun b => { b with msgL := [] })

/-- The responder takes `req` from instance `n`, its bulk buffer being the device's, and draws billet `id` for it, leaving `u`. -/
def Sys2Proof.Machine.SpdmServed (s : State) (n : Inst) (req : List Byte) (id : Nat) (u : State) : Prop :=
  s.pd.inReset = false ∧ spdmHead s n = some req ∧ (s.mb.box[n]).bulkDev = true ∧
  byteAt req 0 = (if be8 req 1 = 0x84 then 0x10 else 0x12) ∧
  draw .ver (.inst n) none false (.sign n.val) (spdmTaken s n (be8 req 1)) = (some id, u)

/-- From `s` to `t` instance `n`'s next request is popped and the response `r` sent. -/
def Sys2Proof.Machine.SpdmAnswers (s t : State) (n : Inst) (r : List Byte) : Prop :=
  (t.mb.box[n]).inq = (s.mb.box[n]).inq.drop 1 ∧ (t.mb.box[n]).inAck = (s.mb.box[n]).inAck + 1 ∧
  (t.mb.box[n]).bulk = memWrite 0 (s.mb.box[n]).bulk 0 r ∧ (t.mb.box[n]).bulkDev = false ∧
  (t.mb.box[n]).outq = (s.mb.box[n]).outq ++
    [[stampHdr 0x5002 0xFF (nextSeqOf (s.mb.box[n]).outSeq 0xFF), BitVec.ofNat 32 r.length]] ∧
  (∀ x : Inst, x ≠ n → t.mb.box[x] = s.mb.box[x]) ∧ t.mb.tallies = s.mb.tallies ∧ t.kv = s.kv

/-- The SPDM responder. Nothing happens without a request of the row's code at the head; another version is answered with
VersionMismatch; a request out of turn is answered with UnexpectedRequest; each of the requests of Table 12.6 is answered with
its response, over 4,096 bytes through a store; CHALLENGE and signed measurements take a leaf of the alias key and answer when
the signature is ready; every other request is answered UnsupportedRequest. -/
def Obligations.SpdmResponderAnswersRequests : Prop :=
  ∀ (n : Inst) (s : State),
    (spdmHead s n = none → ∀ i ∈ [Instr.getVersion n, .getCapabilities n, .negotiateAlgorithms n, .getDigests n, .getCertificate n,
      .challenge n, .getMeasurements n, .chunkGet n, .unsupportedRequest n], exec i s = .next s) ∧
    (∀ (req : List Byte) (id : Nat) (u : State), SpdmServed s n req id u →
      let st := (s.mb.box[n]).spdm
      let c := be8 req 1
      let vca := (s.mb.box[n]).vca
      (c ≠ 0x84 → exec (.getVersion n) s = .next s) ∧
      (c = 0x84 → ∃ t, exec (.getVersion n) s = .next t ∧ SpdmAnswers s t n [0x10, 0x04, 0, 0, 0, 1, 0, 0x12] ∧
        (t.mb.box[n]).spdm = .version ∧ (t.mb.box[n]).vca = req ++ [0x10, 0x04, 0, 0, 0, 1, 0, 0x12]) ∧
      (c = 0xE1 → st = .version → let r := [0x12, 0x61, 0, 0, 0, 14, 0, 0] ++ leBytes 4 0x20016 ++ leBytes 4 4096 ++ leBytes 4 8192
        ∃ t, exec (.getCapabilities n) s = .next t ∧ SpdmAnswers s t n r ∧ (t.mb.box[n]).spdm = .caps ∧
          (t.mb.box[n]).vca = vca ++ req ++ r) ∧
      (c = 0xE3 → st = .caps → ∃ t r, exec (.negotiateAlgorithms n) s = .next t ∧ SpdmAnswers s t n r ∧ r.length = 40 ∧
        (t.mb.box[n]).spdm = .algs ∧ (t.mb.box[n]).vca = vca ++ req ++ r) ∧
      (c = 0x81 → st = .algs → s.mb.chainOk = false → ∃ t, exec (.getDigests n) s = .next t ∧
        SpdmAnswers s t n [0x12, 0x01, 0, 0]) ∧
      (c = 0x81 → st = .algs → s.mb.chainOk = true → ∃ t, exec (.getDigests n) s = .next t ∧
        SpdmAnswers s t n ([0x12, 0x01, 0, 1] ++ digBytes (sha256 (ramRead s s.mb.chainAddr.toNat s.mb.chainLen.toNat)))) ∧
      (∀ (ofs m : Nat) (ch : List Byte), c = 0x82 → st = .algs → chainBytes s = some ch → 8 ≤ req.length → be8 req 2 = 0 →
        ofs = leNat (slice req 4 2) → ofs < ch.length → m = min (leNat (slice req 6 2)) (min (ch.length - ofs) 8184) → m ≤ 4088 →
        ∃ t, exec (.getCertificate n) s = .next t ∧
          SpdmAnswers s t n ([0x12, 0x02, 0, 0] ++ leBytes 2 m ++ leBytes 2 (ch.length - ofs - m) ++ slice ch ofs m)) ∧
      (c = 0x82 → st = .algs → s.mb.chainOk = false → ∃ t, exec (.getCertificate n) s = .next t ∧
        SpdmAnswers s t n (spdmError 1 0)) ∧
      (c = 0xE0 → st = .algs → s.kv.esFail = false → be8 req 3 = 0 → be8 req 2 % 2 = 0 → 4 ≤ req.length →
        ∃ t r, exec (.getMeasurements n) s = .next t ∧ SpdmAnswers s t n r ∧ r.take 8 = [0x12, 0x60, 64, 0, 0, 0, 0, 0] ∧
          (t.mb.box[n]).msgL = (s.mb.box[n]).msgL ++ req ++ r) ∧
      (∀ (ch nc : List Byte) (v : State), c = 0x83 → st = .algs → chainBytes s = some ch → entropyBytes u 32 = (some nc, v) →
        36 ≤ req.length → be8 req 2 = 0 → be8 req 3 = 0 → maySign s (BitVec.ofNat 8 n.val) = true →
        (s.mb.lms[(1 : Fin 2)]).valid = true → lmsBusy s 1 = false →
        ∃ t, exec (.challenge n) s = .next t ∧ (t.mb.box[n]).inq = (s.mb.box[n]).inq.drop 1 ∧
          (t.mb.box[n]).outq = (s.mb.box[n]).outq ∧ (t.mb.lms[(1 : Fin 2)]).p = (s.mb.lms[(1 : Fin 2)]).p + 1 ∧
          (t.mb.box[n]).work.map (fun w => (w.billet, w.resp.take 70)) =
            some (some id, [0x12, 0x03, 0, 1] ++ digBytes (sha256 ch) ++ nc ++ [0, 0])) ∧
      (∀ (i : Fin 4) (b : BigResp), c = 0x85 → (List.finRange 4).find? (fun i => match s.mb.big[i] with
          | some b => b.n = n | none => false) = some i → s.mb.big[i] = some b → be8 req 3 = b.handle →
        leNat (slice req 4 2) = b.nextSeq → b.nextSeq ≠ 0 →
        let m := min (b.bytes.length - b.sent) 4084
        let last := decide (b.bytes.length ≤ b.sent + m)
        ∃ t, exec (.chunkGet n) s = .next t ∧ SpdmAnswers s t n ([0x12, 0x05, BitVec.ofNat 8 (b2n last), BitVec.ofNat 8 b.handle] ++
            leBytes 2 b.nextSeq ++ [0, 0] ++ leBytes 4 m ++ slice b.bytes b.sent m) ∧
          t.mb.big[i] = if last then none else some { b with nextSeq := b.nextSeq + 1, sent := b.sent + m }) ∧
      (c ∉ spdmCodes → ∃ t, exec (.unsupportedRequest n) s = .next t ∧ SpdmAnswers s t n (spdmError 7 (byteAt req 1))) ∧
      (∀ (i : Instr), (c = 0xE1 ∧ st ≠ .version ∧ i = .getCapabilities n) ∨ (c = 0xE3 ∧ st ≠ .caps ∧ i = .negotiateAlgorithms n) ∨
          (c = 0x81 ∧ st ≠ .algs ∧ i = .getDigests n) ∨ (c = 0x82 ∧ st ≠ .algs ∧ i = .getCertificate n) ∨
          (c = 0x83 ∧ st ≠ .algs ∧ i = .challenge n) ∨ (c = 0xE0 ∧ st ≠ .algs ∧ i = .getMeasurements n) →
        ∃ t, exec i s = .next t ∧ SpdmAnswers s t n (spdmError 4 0))) ∧
    (∀ (req : List Byte), s.pd.inReset = false → spdmHead s n = some req → (s.mb.box[n]).bulkDev = true → be8 req 1 = 0xE1 →
      byteAt req 0 ≠ 0x12 → ∃ t, exec (.getCapabilities n) s = .next t ∧ SpdmAnswers s t n (spdmError 0x41 0)) ∧
    ((s.mb.box[n]).work = none → s.pd.inReset = false → exec (.spdmResponseReady n) s = .next (settleAll s)) ∧
    (∀ (w : SpdmWork) (id : Nat), s.pd.inReset = false → (s.mb.box[n]).work = some w → w.billet = some id → unitDone id 12 s = none →
      exec (.spdmResponseReady n) s = .next (settleAll s)) ∧
    (∀ (w : SpdmWork) (id : Nat) (v : State), s.pd.inReset = false → (s.mb.box[n]).work = some w → w.billet = some id →
      unitDone id 12 s = some v → 2 ≤ qFree (s.mb.box[n]).outq →
      (s.mb.lms[(1 : Fin 2)]).valid = true → (s.mb.box[n]).bulkDev = true → (s.inst[n]).st = .active → 4096 < w.resp.length →
      (∃ i : Fin 4, s.mb.big[i] = none) →
      ∃ u, exec (.spdmResponseReady n) s = .next (settleAll u) ∧ (u.mb.box[n]).work = none ∧
        u.mb.handle = s.mb.handle % 255 + 1 ∧ (u.mb.box[n]).outq.length = (s.mb.box[n]).outq.length + 1 ∧
        (u.mb.box[n]).bulk = memWrite 0 (s.mb.box[n]).bulk 0 (spdmError 0x0F 0 ++ [BitVec.ofNat 8 u.mb.handle]) ∧
        (∃ i : Fin 4, u.mb.big[i] = some { n := n, handle := u.mb.handle, bytes := w.resp, nextSeq := 0, sent := 0 }))

/-! The fabric. -/

/-- The four flues and the pair link: training, acknowledgement, replay and loss. Symbol lock starts training, success enters UP
with fresh numbers and eight credits a VC, 5 ms without it or a loss of lock enters DOWN, and a waiting link may try again
after its time; LINK acknowledges and returns credits; owed credits are sent; a replay counts and the eighth in a row fails
the link; bad frames are counted and a CRC error asks for a NAK; each row does nothing outside its states. -/
def Obligations.LinksTrainAcknowledgeReplayAndFail : Prop :=
  ∀ (l : Link) (s : State), s.pd.inReset = false →
    let x := linkOf s l
    (x.st = .down → x.retry = false → ∃ t, exec (.flueSymbolLock l) s = .next t ∧ (linkOf t l).st = .training ∧
      (linkOf t l).since = s.clk.now ∧ (l.val < 4 → t.fb.intSts.getLsbD 0 = true)) ∧
    (x.st ≠ .down ∨ x.retry = true → exec (.flueSymbolLock l) s = .next s) ∧
    (∀ (sw : Bool) (pol : BitVec 2), x.st = .training → ∃ t, exec (.flueTrained l sw pol) s = .next t ∧ (linkOf t l).st = .up ∧
      (linkOf t l).txSeq = 0 ∧ (linkOf t l).rxSeq = 0 ∧ (linkOf t l).replay = [] ∧ (linkOf t l).waiting = [] ∧
      (linkOf t l).credits = Vector.replicate 4 8 ∧ (linkOf t l).laneSwap = sw ∧ (linkOf t l).pol = pol) ∧
    (∀ (sw : Bool) (pol : BitVec 2), x.st ≠ .training → exec (.flueTrained l sw pol) s = .next s ∧
      exec (.trainingTimeout l) s = .next s) ∧
    (x.st = .training → ∃ t, exec (.trainingTimeout l) s = .next t ∧ (linkOf t l).st = .down ∧ (linkOf t l).retry = true ∧
      (linkOf t l).neighValid = false ∧ t.clk.now = max s.clk.now (x.since + msCyc 5)) ∧
    (x.st = .down → x.retry = true → ∃ t, exec (.flueRetry l) s = .next t ∧ (linkOf t l).retry = false ∧ (linkOf t l).st = .down ∧
      t.clk.now = max s.clk.now (x.since + msCyc 100)) ∧
    (x.st = .failed → ∃ t, exec (.flueRetry l) s = .next t ∧ (linkOf t l).st = .down ∧
      t.clk.now = max s.clk.now (x.since + msCyc 1)) ∧
    (∀ a : Word, linkUp x = false → exec (.linkRx l a) s = .next s ∧ exec (.linkAckTimer l) s = .next s ∧
      exec (.replayTimeout l) s = .next s ∧ (∀ k : BadFrame, exec (.badFrameRx l k) s = .next s)) ∧
    (∀ a : Word, linkUp x = true → bf a 16 7 ≠ 0 → exec (.linkRx l a) s = .next (dropBad s)) ∧
    (∀ a : Word, linkUp x = true → bf a 16 7 = 0 → a.getLsbD 23 = false → x.waiting = [] →
      ∃ t, exec (.linkRx l a) s = .next t ∧
        (∀ i : Fin 4, (linkOf t l).credits[i] = min 8 (x.credits[i] + bf a (12 - 4 * i.val) 4)) ∧
        (if x.replay.any (fun fr => fr.lseq = BitVec.ofNat 8 (bf a 24 8)) then (linkOf t l).replays = 0 ∧
            (linkOf t l).replay = (x.replay.dropWhile (fun fr => fr.lseq ≠ BitVec.ofNat 8 (bf a 24 8))).drop 1
          else (linkOf t l).replay = x.replay ∧ (linkOf t l).replays = x.replays)) ∧
    (linkUp x = true → x.ackOwed = true ∨ x.nakOwed = true → ∃ t, exec (.linkAckTimer l) s = .next t ∧
      (linkOf t l).lastLink = linkArg x ∧ (linkOf t l).ackOwed = false ∧ (linkOf t l).nakOwed = false ∧
      (linkOf t l).owed = Vector.replicate 4 0) ∧
    (linkUp x = true → x.replay = [] → exec (.replayTimeout l) s = .next s) ∧
    (linkUp x = true → x.replay ≠ [] → ∃ t, exec (.replayTimeout l) s = .next t ∧
      t.clk.now = max s.clk.now (x.replayAt + usCyc 100) ∧ (linkOf t l).errReplay = satInc x.errReplay ∧
      (if x.replays < 7 then (linkOf t l).replays = x.replays + 1 ∧ (linkOf t l).replay = x.replay ∧ (linkOf t l).st = x.st
       else (linkOf t l).st = .failed ∧ (linkOf t l).replay = [] ∧ (linkOf t l).errFail = satInc x.errFail)) ∧
    (linkUp x = true → ∃ t, exec (.badFrameRx l .crc) s = .next t ∧ (linkOf t l).errCrc = satInc x.errCrc ∧
      (linkOf t l).nakOwed = true ∧ (linkOf t l).rxSeq = x.rxSeq ∧ t.mb = s.mb) ∧
    (linkUp x = true → ∃ t, exec (.badFrameRx l .malformed) s = .next t ∧ (linkOf t l).rxSeq = x.rxSeq + 1 ∧
      t.fb.dropBad = (if l.val < 4 then min 0xFFFF (s.fb.dropBad + 1) else s.fb.dropBad) ∧ t.mb = s.mb) ∧
    (x.st = .training ∨ linkUp x = true → ∃ t, exec (.symbolLockLoss l) s = .next t ∧ (linkOf t l).st = .down ∧
      (linkOf t l).retry = false ∧ (linkOf t l).replay = [] ∧ (linkOf t l).waiting = []) ∧
    (x.st ≠ .training → linkUp x = false → exec (.symbolLockLoss l) s = .next s)

/-- A frame is taken in order from a NEIGHBOUR flue out of serve mode, well formed, and, having been noted for a snapshot, leaves
`u` to its handler. -/
def Sys2Proof.Machine.FrameHeard (s : State) (f : Flue) (fr : FabFrame) (u : State) : Prop :=
  s.pd.inReset = false ∧ Sys2Proof.Machine.frameOk fr = true ∧ (s.fb.flue[f]).st = .neighbour ∧ serving s f = false ∧
  ∃ v, linkTake s (flueLink f) fr = (true, v) ∧ u = snapNote v f fr

/-- The rows in which a frame of a type of Table 13.2 arrives on flue `f`, each with its type. -/
def Sys2Proof.Machine.frameRows (f : Flue) (fr : FabFrame) : List (Byte × Instr) :=
  [(0x01, .helloRx f fr), (0x02, .topoRx f fr), (0x03, .assignRx f fr), (0x04, .dlvRx f fr), (0x10, .msgRx f fr),
   (0x11, .bulksegRx f fr), (0x20, .bcastRx f fr), (0x21, .arriveRx f fr), (0x22, .releaseRx f fr), (0x23, .markerRx f fr),
   (0x24, .closeRx f fr), (0x25, .snaprecRx f fr), (0x26, .resetFrameRx f fr), (0x30, .relayFrameRx f fr)]

/-- Frames and the topology. A frame on a link that is not up is not taken, one out of order only asks for an acknowledgement, a
malformed one is counted. HELLO is sent and heard and makes a flue NEIGHBOUR or ISOLATED, 3 ms without it UP; TOPO with a
newer version replaces its entry, an older one nothing; the timer raises VERSION; entries age; ASSIGN gives an ID; a settled
database runs the node; REDISCOVER restarts the count; a frame for another node is forwarded with HOPS one less, or dropped
and counted. -/
def Obligations.FramesAndTopology : Prop :=
  (∀ (f : Flue) (fr : FabFrame) (s : State), ∀ r ∈ frameRows f fr ++ [(fr.typ, .frameForward f fr)], s.pd.inReset = false →
    (linkUp s.fb.flue[f] = false → exec r.2 s = .next s) ∧
    (linkUp s.fb.flue[f] = true → fr.lseq ≠ (s.fb.flue[f]).rxSeq → exec r.2 s =
      .next { s with fb := { s.fb with flue := s.fb.flue.set f { s.fb.flue[f] with ackOwed := true } } }) ∧
    (∀ u : State, linkTake s (flueLink f) fr = (true, u) → fr.typ ≠ r.1 ∨ Sys2Proof.Machine.frameOk fr = false →
      exec r.2 s = .next (dropBad u))) ∧
  (∀ (f : Flue) (fr : FabFrame) (s u : State), s.pd.inReset = false → linkTake s (flueLink f) fr = (true, u) →
    Sys2Proof.Machine.frameOk fr = true → fr.typ = 0x01 → serving s f = false → s.fb.st ≠ .off →
    ∃ t, exec (.helloRx f fr) s = .next t ∧ (t.fb.flue[f]).serial = BitVec.ofNat 64 (be64 fr.payload 4) ∧
      (t.fb.flue[f]).neighValid = decide (be8 fr.payload 12 < 32) ∧ (t.fb.flue[f]).lastHello = s.clk.now ∧
      (t.fb.flue[f]).st = if wordBE fr.payload 0 = s.fb.cfg.fabricId then .neighbour else .isolated) ∧
  (∀ (f : Flue) (s : State), linkUp s.fb.flue[f] = false ∨ serving s f = true → exec (.helloTimer f) s = .next s) ∧
  (∀ (f : Flue) (s : State), s.pd.inReset = false → linkUp s.fb.flue[f] = true → serving s f = false → s.boot.on = false →
    ∃ t, exec (.helloTimer f) s = .next t ∧ (t.fb.flue[f]).waiting.length + (t.fb.flue[f]).replay.length =
      (s.fb.flue[f]).waiting.length + (s.fb.flue[f]).replay.length + 1 ∧ t.fb.topo = s.fb.topo ∧ t.mb = s.mb) ∧
  (∀ (f : Flue) (s : State), s.pd.inReset = false → (s.fb.flue[f]).st = .neighbour → ∃ t, exec (.helloLoss f) s = .next t ∧
    (t.fb.flue[f]).st = .up ∧ t.clk.now = max s.clk.now ((s.fb.flue[f]).lastHello + msCyc 3) ∧ t.fb.st ≠ .running) ∧
  (∀ (f : Flue) (s : State), (s.fb.flue[f]).st ≠ .neighbour → exec (.helloLoss f) s = .next s) ∧
  (∀ (f : Flue) (fr : FabFrame) (s u : State), FrameHeard s f fr u → fr.typ = 0x02 →
    let e := topoParse fr.payload s.clk.now
    (e.serial = serialNum s ∨ s.fb.st = .off → exec (.topoRx f fr) s = .next u) ∧
    (∀ o : TopoEnt, s.fb.topo.find? (fun x => x.serial = e.serial) = some o → newer e.version o.version = false →
      exec (.topoRx f fr) s = .next u) ∧
    (∀ o : TopoEnt, s.fb.topo.find? (fun x => x.serial = e.serial) = some o → newer e.version o.version = true →
      sameTopo e o = true → e.serial ≠ serialNum s → s.fb.st ≠ .off → ∃ t, exec (.topoRx f fr) s = .next t ∧
        t.fb.topo = e :: s.fb.topo.filter (fun x => x.serial ≠ e.serial) ∧ t.fb.changedAt = s.fb.changedAt ∧
        (if e.node.isSome ∧ e.node = s.fb.cfg.nodeId ∧ s.fb.node = e.node ∧ e.serial.toNat < (serialNum s).toNat then
          t.fb.st = .isolated ∧ t.fb.dup = true else t.fb.st = s.fb.st ∧ t.fb.dup = s.fb.dup))) ∧
  (∀ s : State, s.pd.inReset = false → s.fb.st ≠ .off → ∃ t, exec .topoTimer s = .next t ∧
    t.fb.version = (s.fb.version + 1) % 65536 ∧ t.fb.topo = s.fb.topo ∧ t.fb.st = s.fb.st) ∧
  (∀ s : State, s.fb.st = .off → exec .topoTimer s = .next s) ∧
  (∀ s : State, s.fb.topo = [] → exec .topoEntryAge s = .next s) ∧
  (∀ s : State, s.pd.inReset = false → s.fb.topo ≠ [] → ∃ t, exec .topoEntryAge s = .next t ∧ s.clk.now ≤ t.clk.now ∧
    ∀ e ∈ t.fb.topo, e ∈ s.fb.topo ∧ t.clk.now < e.at_ + msCyc 300) ∧
  (∀ s : State, s.fb.st ≠ .discovering → s.fb.st ≠ .settling → exec .settle s = .next s) ∧
  (∀ (co : TopoEnt) (me root : Fin 32) (s : State), s.pd.inReset = false → s.fb.st = .discovering ∨ s.fb.st = .settling →
    let w := { s with clk := { s.clk with now := max s.clk.now (s.fb.changedAt + msCyc s.fb.cfg.settleMs) } }
    coordOf (liveEntries w) = some co → needIds (liveEntries w) = [] → s.fb.node = some me → co.node = some root →
    s.fb.barAbortOwed = false → ∃ t, exec .settle s = .next t ∧ t.fb.st = .running ∧ t.fb.coordId = root.val ∧
      t.fb.coord = decide (co.serial = serialNum s) ∧ t.fb.fgen = s.fb.fgen + 1 ∧ t.fb.intSts = s.fb.intSts ||| 2#32 ∧
      t.clk.now = w.clk.now ∧ t.fb.rt[me] = {}) ∧
  (∀ (f : Flue) (fr : FabFrame) (s u : State), FrameHeard s f fr u → fr.typ = 0x03 → s.fb.st ≠ .off → s.fb.st ≠ .isolated →
    BitVec.ofNat 64 (be64 fr.payload 0) = serialNum s → s.fb.node = none → ∀ n : Fin 32, n.val = be8 fr.payload 8 →
    ∃ t, exec (.assignRx f fr) s = .next t ∧ t.fb.node = some n ∧ t.fb.st ≠ .running) ∧
  (∀ (m : Core) (s : State), s.pd.inReset = false → s.fb.st ≠ .off → ∃ t, exec (.rediscover (.core m)) s = .next t ∧
    t.fb.changedAt = s.clk.now ∧ t.fb.st ≠ .running ∧ t.fb.st ≠ .discovering) ∧
  (∀ (x : Fin 6) (s : State), exec (.rediscover (.ext x)) s = .next s) ∧
  (∀ (f g : Flue) (fr : FabFrame) (s u : State), FrameHeard s f fr u → fr.dst.toNat < 32 → fr.flags.getLsbD 3 = false →
    s.fb.st = .running → 1 < fr.hops.toNat → (s.fb.rt[fr.dst.toNat % 32]).up = some g → g ≠ f → linkUp s.fb.flue[g] = true →
    ∃ t, exec (.frameForward f fr) s = .next t ∧ (t.fb.flue[g]).waiting.length + (t.fb.flue[g]).replay.length =
      (s.fb.flue[g]).waiting.length + (s.fb.flue[g]).replay.length + 1 ∧ t.fb.dropTransit = s.fb.dropTransit ∧ t.mb = s.mb) ∧
  (∀ (f : Flue) (fr : FabFrame) (s u : State), FrameHeard s f fr u → fr.hops.toNat ≤ 1 →
    exec (.frameForward f fr) s = .next (dropTransit u))

/-- Fabric-peer messages. A MSG for this node joins its instance's inbound queue or is refused as a send would be; BULKSEG bytes
go into a client-owned buffer of an ACTIVE instance and else mark the next bulk MSG failed; a duplicate of a pair's frame is
counted and not accepted; DLV pops the message it accepts, or waits on FULL, or loses the message with its code; PEER_SEND
puts the head in flight and PEER_RESEND sends it again, FULL starting the count anew, and after eight sends it is popped as
PEER_LOST. -/
def Obligations.FabricPeerMessages : Prop :=
  (∀ (f : Flue) (fr : FabFrame) (n : Inst) (id : Nat) (s u v : State), FrameHeard s f fr u → fr.typ = 0x10 → forUs u fr = true →
    fr.flags.getLsbD 2 = false → peerInst u fr.src = some n →
    draw .hs (.inst n) none false (.msg n) u = (some id, v) →
    let b := s.mb.box[n]
    let ws := payloadWords fr.payload
    ∃ t, exec (.msgRx f fr) s = .next t ∧ (∀ x : Inst, x ≠ n → t.mb.box[x] = s.mb.box[x]) ∧
      (if sendCheck u n false ws = 0 ∧ ¬ (b.peerFail = true ∧ isBulk (ws.headD 0) = true) then
          (t.mb.box[n]).outq = b.outq ∧ (t.mb.box[n]).peerFail = false ∧ (t.mb.box[n]).inq =
          b.inq ++ [stampHdr (ws.headD 0) n.val (nextSeqOf b.inSeq n.val) :: (ws.take (hdrLen (ws.headD 0))).drop 1]
        else t.mb.box[n] = { b with peerFail := false })) ∧
  (∀ (f : Flue) (fr : FabFrame) (s u : State), FrameHeard s f fr u → fr.typ = 0x10 → forUs u fr = true →
    fr.flags.getLsbD 2 = false → peerInst u fr.src = none → ∃ t, exec (.msgRx f fr) s = .next t ∧ t.mb = s.mb) ∧
  (∀ (f : Flue) (fr : FabFrame) (s u : State), FrameHeard s f fr u → forUs u fr = true → (pairSeen u fr).1 = false →
    ∀ i : Instr, (fr.typ = 0x10 ∧ i = .msgRx f fr) ∨ (fr.typ = 0x11 ∧ i = .bulksegRx f fr) →
    ∃ t, exec i s = .next t ∧ t.mb = s.mb ∧ t.fb.seen = s.fb.seen ∧
      t.pr.dup = if s.pr.dup = BitVec.allOnes 32 then s.pr.dup else s.pr.dup + 1) ∧
  (∀ (f : Flue) (fr : FabFrame) (n : Inst) (id : Nat) (s u v : State), FrameHeard s f fr u → fr.typ = 0x11 → forUs u fr = true →
    fr.flags.getLsbD 2 = false → peerInst u fr.src = some n → draw .hs (.inst n) none false (.msg n) u = (some id, v) →
    ∃ t, exec (.bulksegRx f fr) s = .next t ∧ (t.mb.box[n]).inq = (s.mb.box[n]).inq ∧
      (if (s.inst[n]).st ≠ .active then t.mb.box[n] = s.mb.box[n]
       else if (s.mb.box[n]).bulkDev = true then (t.mb.box[n]).peerFail = true ∧ (t.mb.box[n]).bulk = (s.mb.box[n]).bulk
       else (t.mb.box[n]).peerFail = (s.mb.box[n]).peerFail ∧ (t.mb.box[n]).bulk =
         memWrite 0 (s.mb.box[n]).bulk (bf fr.arg 0 12) (fr.payload.take (4096 - bf fr.arg 0 12)))) ∧
  (∀ (f : Flue) (fr : FabFrame) (n : Inst) (s u : State), FrameHeard s f fr u → fr.typ = 0x04 →
    (List.finRange 64).find? (fun n => isPeer u n && (u.inst[n]).addr = fr.src &&
      (match (u.mb.box[n]).peer with | some p => p.eseq.toNat = bf fr.arg 0 16 | none => false)) = some n →
    ∃ t, exec (.dlvRx f fr) s = .next t ∧
      (fr.arg.getLsbD 31 = false → (t.mb.box[n]).peer = none ∧ (t.mb.box[n]).outq = (s.mb.box[n]).outq.drop 1 ∧
        t.fb.peerCode = s.fb.peerCode) ∧
      (fr.arg.getLsbD 31 = true → bf fr.arg 28 3 = 1 → (t.mb.box[n]).outq = (s.mb.box[n]).outq ∧
        (t.mb.box[n]).peer.map (fun p => (p.full, p.at_)) = some (true, s.clk.now)) ∧
      (fr.arg.getLsbD 31 = true → bf fr.arg 28 3 ≠ 1 → (t.mb.box[n]).peer = none ∧
        (t.mb.box[n]).outq = (s.mb.box[n]).outq.drop 1 ∧ t.fb.peerIn = BitVec.ofNat 6 n.val ∧
        t.fb.peerCode = BitVec.ofNat 3 (bf fr.arg 28 3))) ∧
  (∀ (n : Inst) (s : State), isPeer s n = false ∨ (s.mb.box[n]).peer ≠ none ∨ (s.mb.box[n]).outq = [] →
    exec (.peerSend n) s = .next s) ∧
  (∀ (n : Inst) (s : State), s.pd.inReset = false → isPeer s n = true → (s.mb.box[n]).peer = none → (s.mb.box[n]).outq ≠ [] →
    ∃ t, exec (.peerSend n) s = .next t ∧ (t.mb.box[n]).outq = (s.mb.box[n]).outq ∧
      (t.mb.box[n]).peer = some { sends := 1, eseq := s.fb.eseq, at_ := s.clk.now, full := false } ∧
      (∀ x : Inst, x ≠ n → t.mb.box[x] = s.mb.box[x])) ∧
  (∀ (n : Inst) (s : State), (s.mb.box[n]).peer = none → exec (.peerResend n) s = .next s) ∧
  (∀ (n : Inst) (p : PeerTx) (s : State), s.pd.inReset = false → (s.mb.box[n]).peer = some p →
    ∃ t, exec (.peerResend n) s = .next t ∧
      t.clk.now = max s.clk.now (p.at_ + (if p.full then usCyc 20 else msCyc 1)) ∧
      (if p.full = true ∨ p.sends < 8 then (t.mb.box[n]).outq = (s.mb.box[n]).outq ∧
          (t.mb.box[n]).peer = some { p with sends := (if p.full then 0 else p.sends) + 1, at_ := t.clk.now, full := false }
        else (t.mb.box[n]).peer = none ∧ (t.mb.box[n]).outq = (s.mb.box[n]).outq.drop 1 ∧ t.fb.peerCode = 5 ∧
          t.fb.peerIn = BitVec.ofNat 6 n.val))

/-- Broadcast, barrier, fabric reset and relay. Only the coordinator broadcasts; a broadcast is received whole; an ARRIVE is
refused unless RUNNING and not yet arrived, goes up with the last child, and at the coordinator releases and advances the
number; a RESET whose tag and sequence number pass restarts the device with cause 4 (the tag needs a verification-class
billet: log entry 50), and any other only raises its flag; a relay frame enters the ring or is counted; queued entries are
sent; SERVE is a topology change; an external master starts none of it. -/
def Obligations.FabricGlobalOperationsAndRelay : Prop :=
  (∀ (m : Core) (s : State), s.pd.inReset = false → exec (.bcastGo (.core m)) s = .next
    (if isCoord s then treeDown s (mkFrame s 0x20 2 0xFD (s.fb.bcTag.setWidth 32) (s.fb.bcTx.toList.flatMap wordBytes))
     else { s with fb := { s.fb with bcRej := true } })) ∧
  (∀ (x : Fin 6) (v : Word) (s : State), exec (.bcastGo (.ext x)) s = .next s ∧ exec (.arrive (.ext x)) s = .next s ∧
    exec (.freset (.ext x)) s = .next s ∧ exec (.relayFrameQueue (.ext x) v) s = .next s ∧ exec (.serveWrite (.ext x) v) s = .next s) ∧
  (∀ (f : Flue) (fr : FabFrame) (s u : State), FrameHeard s f fr u → fr.typ = 0x20 → ∃ t, exec (.bcastRx f fr) s = .next t ∧
    (∀ i : Fin 16, t.fb.bcRx[i] = wordBE fr.payload (4 * i.val)) ∧ t.fb.bcRxTag = fr.arg.setWidth 8 ∧ t.fb.bcNew = true ∧
    t.fb.bcLost = (s.fb.bcLost || s.fb.bcNew) ∧ t.fb.intSts = s.fb.intSts ||| 4#32 ∧ t.mb = s.mb) ∧
  (∀ (m : Core) (s : State), s.pd.inReset = false → s.fb.arrived = true ∨ s.fb.st ≠ .running →
    exec (.arrive (.core m)) s = .next { s with fb := { s.fb with barRej := true } }) ∧
  (∀ (m : Core) (s : State), s.pd.inReset = false → s.fb.arrived = false → s.fb.st = .running →
    ∃ t, exec (.arrive (.core m)) s = .next t ∧ t.fb.barRej = s.fb.barRej ∧
      (s.fb.children.all (fun c => s.fb.childArr.contains c.2) = false →
        t.fb.arrived = true ∧ t.fb.barWait = true ∧ t.fb.bseq = s.fb.bseq ∧ t.fb.sentUp = s.fb.sentUp) ∧
      (s.fb.children.all (fun c => s.fb.childArr.contains c.2) = true → s.fb.sentUp = false → s.fb.coord = true →
        t.fb.arrived = false ∧ t.fb.barDone = true ∧ t.fb.bseq = s.fb.bseq + 1 ∧ t.fb.childArr = [] ∧ t.fb.barWait = false) ∧
      (s.fb.children.all (fun c => s.fb.childArr.contains c.2) = true → s.fb.coord = false → s.fb.parentFlue ≠ none →
        t.fb.arrived = true ∧ t.fb.sentUp = true ∧ t.fb.bseq = s.fb.bseq)) ∧
  (∀ (f : Flue) (fr : FabFrame) (c : Flue × Nat) (s u : State), FrameHeard s f fr u → fr.typ = 0x21 →
    s.fb.children.find? (fun c => c.2 = fr.src.toNat) = some c →
    (s.fb.st ≠ .running ∨ fr.arg.toNat ≠ s.fb.bseq.toNat → exec (.arriveRx f fr) s = .next u) ∧
    (s.fb.st = .running → fr.arg.toNat = s.fb.bseq.toNat → s.fb.childArr.contains c.2 = false → s.fb.arrived = false →
      exec (.arriveRx f fr) s = .next { u with fb := { u.fb with childArr := c.2 :: s.fb.childArr } })) ∧
  (∀ (f : Flue) (fr : FabFrame) (s u : State), FrameHeard s f fr u → fr.typ = 0x22 → ∃ t, exec (.releaseRx f fr) s = .next t ∧
    t.fb.bseq = s.fb.bseq + 1 ∧ t.fb.arrived = false ∧ t.fb.childArr = [] ∧ t.fb.barWait = false ∧
    t.fb.barDone = (s.fb.barDone || !fr.arg.getLsbD 16) ∧ t.fb.barAborted = (s.fb.barAborted || fr.arg.getLsbD 16) ∧
    t.fb.intSts = s.fb.intSts ||| 8#32) ∧
  (∀ (f : Flue) (fr : FabFrame) (s u : State), FrameHeard s f fr u → fr.typ = 0x26 →
    (s.fb.cfg.allowReset = true → resetTag s fr = some (slice fr.payload 8 16) → s.tp.ao.rseq.toNat < be32 fr.payload 0 →
      s.pd.cold = false → ∃ t, exec (.resetFrameRx f fr) s = .next t ∧ t.pd.inReset = true ∧ t.pd.cause = 4 ∧
        t.tp.ao.rseq = wordBE fr.payload 0 ∧ (s.st.advancing = false → s.lc.run = none → t.otp = s.otp)) ∧
    (s.fb.cfg.allowReset = false ∨ resetTag s fr ≠ some (slice fr.payload 8 16) ∨ be32 fr.payload 0 ≤ s.tp.ao.rseq.toNat →
      exec (.resetFrameRx f fr) s = .next (fbInt (forwardDown u fr) 7))) ∧
  (∀ (m : Core) (s : State), isCoord s = false ∨ s.fb.cfg.fkey = none → exec (.freset (.core m)) s = .next s) ∧
  (∀ (m : Core) (i : Fin 128) (top : Nat) (s : State), s.pd.inReset = false → isCoord s = true → s.fb.cfg.fkey = some i →
    slotOk s i = true → hasUse s i 1 = true → (s.kv.slots[i]).typ = 1 → (s.kv.slots[i]).owner = 0xFF →
    s.kv.state ≠ 3 → (draw .ver .hearth none false (.sign 64) s).1.isSome = true → s.pd.cold = false →
    top = (liveEntries s).foldl (fun a e => max a e.rseq.toNat) 0 → top + 1 < 2 ^ 32 →
    ∃ t, exec (.freset (.core m)) s = .next t ∧
      (if s.fb.cfg.allowReset then t.pd.inReset = true ∧ t.pd.cause = 4 ∧ t.tp.ao.rseq = BitVec.ofNat 32 (top + 1)
       else t.pd.inReset = false ∧ t.fb.intSts = s.fb.intSts ||| 0x80#32 ∧ t.tp = s.tp)) ∧
  (∀ (f : Flue) (fr : FabFrame) (s u : State), s.pd.inReset = false → Sys2Proof.Machine.frameOk fr = true → fr.typ = 0x30 →
    linkTake s (flueLink f) fr = (true, u) → serving s f = true →
    (s.fb.cfg.acceptRelay = false → exec (.relayFrameRx f fr) s =
      .next { u with fb := { u.fb with rlyDrop := satInc s.fb.rlyDrop } }) ∧
    (∀ (id : Nat) (v : State), s.fb.cfg.acceptRelay = true → (s.fb.rxHead - s.fb.rxTail).toNat < 32 →
      inShared (rlyEntry s (s.fb.rxHead.toNat % 32)) 272 = true → draw .hs .hearth none false (.msg 0) u = (some id, v) →
      ∃ t, exec (.relayFrameRx f fr) s = .next t ∧ t.fb.rxHead = s.fb.rxHead + 1 ∧ t.fb.rlyDrop = s.fb.rlyDrop ∧
        t.he.ram = (ramWrite s none (rlyEntry s (s.fb.rxHead.toNat % 32)) (wordBytes fr.arg ++ beBytes 2 fr.payload.length ++
          [BitVec.ofNat 8 f.val] ++ fillBytes 9 0 ++ fr.payload)).he.ram)) ∧
  (∀ (m : Core) (v : Word) (s : State), s.pd.inReset = false → ∃ t, exec (.relayFrameQueue (.core m) v) s = .next t ∧
    t.fb.rxTail = BitVec.ofNat 6 (bf v 8 6) ∧ t.fb.txHead = BitVec.ofNat 6 (bf v 16 6) ∧ t.fb.txTail = t.fb.txHead ∧
    t.fb.rxHead = s.fb.rxHead ∧ t.he.ram = s.he.ram) ∧
  (∀ (m : Core) (v : Word) (s : State), s.pd.inReset = false → ∃ t, exec (.serveWrite (.core m) v) s = .next t ∧
    t.fb.serve = BitVec.ofNat 4 (bf v 0 4) ∧ (s.fb.serve = BitVec.ofNat 4 (bf v 0 4) → t = s) ∧
    (s.fb.serve ≠ BitVec.ofNat 4 (bf v 0 4) → s.fb.st ≠ .off → t.fb.changedAt = s.clk.now ∧ t.fb.st ≠ .running))

/-- Snapshots. START by the coordinator freezes this node under the next epoch with the tallies as they stand, and is else
refused; a MARKER or a CLOSE of a newer epoch freezes, one of an older does nothing; CLOSE closes its channel and MARK_TMO
times the open ones out; once the signature's hash job is done the record is sent, or stored at the coordinator; a received
segment is stored; the quote is signed once and ends the snapshot. -/
def Obligations.SnapshotsFreezeCollectAndQuote : Prop :=
  let busy := fun (s : State) => s.fb.snap.st = .recording ∨ s.fb.snap.st = .signing ∨ s.fb.snap.st = .collecting
  (∀ (x : Fin 6) (s : State), exec (.snapshotStart (.ext x)) s = .next s) ∧
  (∀ (m : Core) (s : State), s.pd.inReset = false → isCoord s = false ∨ busy s → exec (.snapshotStart (.core m)) s =
    .next { s with fb := { s.fb with snap := { s.fb.snap with rej := true } } }) ∧
  (∀ (m : Core) (s : State), s.pd.inReset = false → isCoord s = true → ¬ busy s →
    ∃ t, exec (.snapshotStart (.core m)) s = .next t ∧ busy t ∧ t.fb.snap.epoch = s.fb.snap.epoch + 1 ∧
      t.fb.snap.nonce = s.fb.snap.nonceReg ∧ t.fb.snap.tallies = s.mb.tallies.toList ∧ t.fb.snap.present = 0 ∧
      t.fb.snap.startAt = s.clk.now ∧ t.mb.tallies = s.mb.tallies ∧
      (∀ i : Fin 12, (t.fb.snap.chans[i]).state = if isNeighbour s (flueOf (i.val / 3)) then 3 else 0)) ∧
  (∀ (f : Flue) (fr : FabFrame) (s u : State), FrameHeard s f fr u → fr.typ = 0x23 →
    (s.fb.st ≠ .running ∨ fr.arg.toNat < s.fb.snap.epoch.toNat → exec (.markerRx f fr) s = .next u) ∧
    (s.fb.st = .running → fr.arg = s.fb.snap.epoch → s.fb.snap.st = .recording → exec (.markerRx f fr) s =
      .next { u with fb := { u.fb with snap := { u.fb.snap with nonce := digOf fr.payload } } }) ∧
    (s.fb.st = .running → s.fb.snap.epoch.toNat < fr.arg.toNat → ∃ t, exec (.markerRx f fr) s = .next t ∧
      t.fb.snap.epoch = fr.arg ∧ t.fb.snap.nonce = digOf fr.payload ∧ t.fb.snap.tallies = s.mb.tallies.toList ∧
      t.fb.snap.at_ = s.clk.now ∧ (busy s → t.fb.intSts.getLsbD 4 = true))) ∧
  (∀ (f : Flue) (fr : FabFrame) (s u : State), FrameHeard s f fr u → fr.typ = 0x24 →
    (s.fb.st ≠ .running ∨ fr.arg.toNat < s.fb.snap.epoch.toNat → exec (.closeRx f fr) s = .next u) ∧
    (s.fb.st = .running → fr.arg = s.fb.snap.epoch → s.fb.snap.st = .recording →
      (s.fb.snap.chans[snapIdx f (snapVc fr)]).state = 3 → ∃ t, exec (.closeRx f fr) s = .next t ∧
        (t.fb.snap.chans[snapIdx f (snapVc fr)]).state = 1 ∧
        (∀ i : Fin 12, i ≠ snapIdx f (snapVc fr) → t.fb.snap.chans[i] = s.fb.snap.chans[i]) ∧
        ((∃ i : Fin 12, i ≠ snapIdx f (snapVc fr) ∧ (s.fb.snap.chans[i]).state = 3) → t.fb.snap.st = .recording)) ∧
    (s.fb.st = .running → s.fb.snap.epoch.toNat < fr.arg.toNat → ∃ t, exec (.closeRx f fr) s = .next t ∧
      t.fb.snap.epoch = fr.arg ∧ t.fb.snap.tallies = s.mb.tallies.toList ∧
      (t.fb.snap.chans[snapIdx f (snapVc fr)]).state ≠ 3)) ∧
  (∀ s : State, s.fb.snap.st ≠ .recording → exec .closeTimeout s = .next s) ∧
  (∀ s : State, s.pd.inReset = false → s.fb.snap.st = .recording → ∃ t, exec .closeTimeout s = .next t ∧
    t.fb.snap.timedOut = true ∧ t.fb.snap.st ≠ .recording ∧
    t.clk.now = max s.clk.now (s.fb.snap.at_ + usCyc (100 * s.fb.cfg.markTmo)) ∧
    (∀ i : Fin 12, (t.fb.snap.chans[i]).state = if (s.fb.snap.chans[i]).state = 3 then 2 else (s.fb.snap.chans[i]).state)) ∧
  (∀ s : State, s.pd.inReset = false → s.fb.snap.st ≠ .signing → exec .snapshotRecordSend s = .next (settleAll s)) ∧
  (∀ s : State, s.pd.inReset = false → signDone s = none → exec .snapshotRecordSend s = .next (settleAll s)) ∧
  (∀ s u : State, s.pd.inReset = false → s.fb.snap.st = .signing → signDone s = some u →
    ∃ t, exec .snapshotRecordSend s = .next (settleAll t) ∧
    t.fb.snap.st = (if s.fb.coord then .collecting else .sent) ∧ t.fb.intSts = s.fb.intSts ||| 0x10#32 ∧
    t.fb.snap.sig = none ∧ t.fb.snap.billet = none ∧ t.fb.snap.epoch = s.fb.snap.epoch) ∧
  (∀ (f : Flue) (fr : FabFrame) (s u : State), FrameHeard s f fr u → fr.typ = 0x25 →
    (forUs s fr = false ∨ s.fb.coord = false → exec (.snaprecRx f fr) s = .next u) ∧
    (forUs s fr = true → s.fb.coord = true → fr.src.toNat < 32 → snapBufOk s = true → bf fr.arg 0 6 < 33 →
      bf fr.arg 16 16 = s.fb.snap.epoch.toNat % 65536 → busy s → ∃ t, exec (.snaprecRx f fr) s = .next t ∧
        t.he.ram = (ramWrite s none (snapSlot s fr.src.toNat + 256 * bf fr.arg 0 6) fr.payload).he.ram ∧
        t.fb.snap.st = s.fb.snap.st ∧ ((aget t.fb.snap.parts fr.src.toNat).getD []).contains (bf fr.arg 0 6) = true)) ∧
  (∀ s : State, s.fb.snap.st ≠ .collecting ∨ s.fb.snap.quoting = true → exec .collectionDeadline s = .next s) ∧
  (∀ s : State, s.pd.inReset = false → s.fb.snap.st = .collecting → s.fb.snap.quoting = false →
    ∃ t, exec .collectionDeadline s = .next t ∧ t.fb.snap.quoting = true ∧ t.fb.snap.st = .collecting ∧
      t.fb.snap.present = s.fb.snap.present ∧
      (if aliasReady s = true ∧ (draw .ver .hearth none false (.sign 64) s).1.isSome = true then t.fb.snap.sig.isSome = true
       else t.fb.snap.sig = none ∧ t.fb.snap.billet = none)) ∧
  (∀ s : State, s.pd.inReset = false → signDone s = none → exec .quoteReady s = .next (settleAll s)) ∧
  (∀ s u : State, s.pd.inReset = false → s.fb.snap.st = .collecting → s.fb.snap.quoting = true → signDone s = some u →
    ∃ t, exec .quoteReady s = .next (settleAll t) ∧ t.fb.snap.st = .done ∧ t.fb.snap.quoting = false ∧
      t.fb.intSts = s.fb.intSts ||| 0x20#32 ∧ t.fb.snap.present = s.fb.snap.present) ∧
  (∀ s : State, s.pd.inReset = false → s.fb.snap.st ≠ .collecting ∨ s.fb.snap.quoting = false →
    exec .quoteReady s = .next (settleAll s))

/-! The redundant pair. -/

/-- The pair. A unit without a lease takes the burning role at its time and one that hears a LEASE the banked role; the burning
unit renews the lease and loses its partner after 400 us of silence, the banked unit takes over when the lease expires; YIELD
and HANDOVER pass control at a boundary; HELLO and DIAG tell of the partner; STATE, NOTICE and the catch-up pass bring a
banked unit IN_STEP; verdict blocks that differ are counted while IN_STEP; a message is sent, received into an empty slot, and
popped. Each row does nothing where its role or its fit is missing. -/
def Obligations.PairRolesLeaseAndSynchronisation : Prop :=
  ∀ s : State, s.pd.inReset = false →
    let p := s.pr
    let lease := max p.frameAt p.edgeAt + usCyc 400
    let onLink := fun (t : State) => t.pr.link.waiting.length + t.pr.link.replay.length
    (p.fitted = true → p.role = 0 → ∃ t, exec .pairRoleTimer s = .next t ∧ t.pr.role = 1 ∧ t.pr.burning = true ∧
      t.pr.intSts = p.intSts ||| 1#32 ∧ t.clk.now = max s.clk.now (s.clk.lockAt + msCyc (if preferred s then 1 else 10))) ∧
    (p.fitted = false ∨ p.role ≠ 0 → exec .pairRoleTimer s = .next s) ∧
    (∀ (h : PairHello) (n : Option Word) (b : VerdictBlock) (d : PairDiag) (ws : List Word), p.fitted = false →
      exec (.pairHelloRx h) s = .next s ∧ exec .pairHelloDiagTimer s = .next s ∧ exec (.leaseRx n) s = .next s ∧
      exec (.vblockRx b) s = .next s ∧ exec (.pairMsgRx ws) s = .next s ∧ exec (.diagRx d) s = .next s) ∧
    (∀ h : PairHello, p.fitted = true → ∃ t, exec (.pairHelloRx h) s = .next t ∧ t.pr.partner = some h ∧
      t.pr.ordConflict = decide (h.ord = p.ord) ∧ t.pr.role = p.role ∧
      (h.digest ≠ s.st.digest → p.role = 2 → t.pr.step = 1 ∧ t.pr.diag.getLsbD 4 = true) ∧
      (h.digest = s.st.digest → p.role = 2 → p.step = 1 → p.stateDone = true → p.caughtUp = true →
        t.pr.step = 2 ∧ t.pr.intSts = p.intSts ||| 2#32) ∧
      (h.digest = s.st.digest → p.role = 1 → t.pr.step = if h.step = 2 then 2 else 1)) ∧
    (p.fitted = true → linkUp p.link = true → ∃ t, exec .pairHelloDiagTimer s = .next t ∧ onLink t = onLink s + 2 ∧
      t.pr.role = p.role ∧ t.pr.step = p.step) ∧
    (p.role = 1 → ∃ t, exec .leaseTimer s = .next t ∧ t.pr.leaseNo = p.leaseNo + 1 ∧ t.pr.leaseOut = !p.leaseOut ∧
      t.pr.leaseAt = t.clk.now ∧ t.clk.now = max s.clk.now (p.leaseAt + usCyc 100)) ∧
    (∀ e : Bool, p.role ≠ 1 → exec .leaseTimer s = .next s ∧ exec (.lackRx e) s = .next s ∧ exec .lackLoss s = .next s) ∧
    (∀ n : Word, p.fitted = true → p.role = 0 ∨ p.role = 2 → ∃ t, exec (.leaseRx (some n)) s = .next t ∧ t.pr.role = 2 ∧
      t.pr.leaseNo = n ∧ t.pr.frameAt = s.clk.now ∧ t.pr.leaseOut = !p.leaseOut ∧ (p.role = 0 → t.pr.step = 1)) ∧
    (∀ n : Word, p.fitted = true → p.role = 1 → ∃ t, exec (.leaseRx (some n)) s = .next t ∧
      t.pr.role = (if preferred s then 1 else 2) ∧ t.pr.intSts.getLsbD 3 = true) ∧
    (p.fitted = true → p.role = 2 → ∃ t, exec (.leaseRx none) s = .next t ∧ t.pr.role = 2 ∧ t.pr.edgeAt = s.clk.now ∧
      t.pr.frameAt = p.frameAt ∧ t.pr.leaseNo = p.leaseNo) ∧
    (∀ e : Bool, p.role = 1 → ∃ t, exec (.lackRx e) s = .next t ∧ t.pr.partnerLost = false ∧
      (if e then t.pr.edgeAt = s.clk.now else t.pr.frameAt = s.clk.now)) ∧
    (p.role = 1 → exec .lackLoss s = .next { s with
      clk := { s.clk with now := max s.clk.now lease }, pr := { s.pr with partnerLost := true } }) ∧
    (∀ b : BitVec 32, p.role ≠ 2 → exec (.leaseExpiry b) s = .next s) ∧
    (∀ b : BitVec 32, p.role = 2 → ∃ t, exec (.leaseExpiry b) s = .next t ∧ t.pr.role = 1 ∧ t.pr.burning = true ∧ t.pr.cut = b ∧
      t.pr.cntExp = satInc p.cntExp ∧ t.clk.now = max s.clk.now lease) ∧
    (∀ (m : Core) (h : PairHello), p.partner = some h → h.step = 2 → p.role = 1 → p.yielding = none →
      ∃ t, exec (.yield_ (.core m)) s = .next t ∧ t.pr.yielding = some s.clk.now ∧ t.pr.given = 0 ∧ t.pr.role = 1 ∧
        t.pr.handover = p.handover + 1 ∧ t.pr.cntHand = satInc p.cntHand) ∧
    (∀ m : Core, (∀ h : PairHello, p.partner = some h → h.step ≠ 2) → exec (.yield_ (.core m)) s = .next s) ∧
    (∀ x : Fin 6, exec (.yield_ (.ext x)) s = .next s ∧ exec (.pairMsgSend (.ext x)) s = .next s ∧
      exec (.pairMsgPop (.ext x)) s = .next s) ∧
    (∀ b : BitVec 32, p.role = 0 ∨ (p.role = 1 ∧ p.yielding = none) → exec (.handover b) s = .next s) ∧
    (∀ y : Nat, p.role = 1 → p.yielding = some y → ∃ t, exec (.handover 0) s = .next t ∧ t.pr.role = 2 ∧ t.pr.burning = false ∧
      t.pr.step = 2 ∧ t.pr.yielding = none ∧ t.pr.intSts.getLsbD 1 = true ∧ t.clk.now = s.clk.now) ∧
    (∀ (y : Nat) (b : BitVec 32), p.role = 1 → p.yielding = some y → connMask s &&& b &&& ~~~p.given ≠ 0 →
      ∃ t, exec (.handover b) s = .next t ∧ t.pr.role = 1 ∧ t.pr.yielding = some y ∧ t.pr.given = p.given ||| ~~~b ∧
        t.clk.now = max s.clk.now (y + msCyc p.handoverMs)) ∧
    (p.role = 2 → ∃ t, exec (.handover 0) s = .next t ∧ t.pr.role = 1 ∧ t.pr.burning = true ∧ t.pr.handover = p.handover + 1) ∧
    (p.role = 2 → p.reclaim = false ∨ preferred s = false ∨ p.step ≠ 2 ∨ cleanTime s < 10 → exec .claim s = .next s) ∧
    (p.role = 1 → p.yielding = none → ∃ t, exec .claim s = .next t ∧ t.pr.yielding = some s.clk.now ∧ t.pr.role = 1) ∧
    (∀ b : VerdictBlock, p.fitted = true → p.step ≠ 2 → ∃ t, exec (.vblockRx b) s = .next t ∧ t.pr.cntMis = p.cntMis ∧
      t.pr.intSts = p.intSts ∧ t.pr.role = p.role) ∧
    (∀ (b : VerdictBlock) (v : VStream) (c : Word), p.fitted = true → p.step = 2 →
      p.streams.find? (fun v => v.perBind = b.perBind && v.idx = b.idx.toNat) = some v → v.theirs = [] → v.mine = [(b.no, c)] →
      ∃ t, exec (.vblockRx b) s = .next t ∧ t.pr.cntMis = (if c = b.crc then p.cntMis else satInc p.cntMis) ∧
        t.pr.streams.head?.map (fun v => (v.mine, v.theirs)) = some ([], [])) ∧
    (∀ n : PairNotice, p.role ≠ 2 → exec (.noticeRx n) s = .next s) ∧
    (∀ (n : Fin 32) (q : BitVec 16) (c : Word), p.role = 2 → p.announced = [] →
      (p.copies.any (announces (n.val, q, c)) = false → exec (.noticeRx (.pseq n q c)) s = .next { s with pr := { p with
        pseq := aput p.pseq n.val (q + 1), announced := [(n.val, q, c)] } }) ∧
      (∀ fr : FabFrame, p.copies = [fr] → announces (n.val, q, c) fr = true → exec (.noticeRx (.pseq n q c)) s =
        .next (originate { s with pr := { p with pseq := aput p.pseq n.val (q + 1), announced := [], copies := [] } }
          { fr with pseq := q }))) ∧
    (∀ (i : Fin 128) (c : Step), p.role = 2 → stepCfg s i.val = some c → isPmb c = true → (s.sq.steps[i]).st = .running →
      ∃ t, exec (.noticeRx (.pmbStep i true)) s = .next t ∧ (t.sq.steps[i]).st = .done) ∧
    (∀ r : PairState, p.role ≠ 2 ∨ p.step ≠ 1 → exec (.stateRx r) s = .next s) ∧
    (∀ (k : Fin 16) (o : Option Inst), p.role = 2 → p.step = 1 → ∃ t, exec (.stateRx (.lock k o)) s = .next t ∧
      t.mb.locks = s.mb.locks.set k o ∧ t.pr.stateDone = true ∧ t.mb.box = s.mb.box) ∧
    (p.role = 0 → exec .catchUpPass s = .next s) ∧
    (p.role = 2 → ∃ t, exec .catchUpPass s = .next t ∧ t.pr.role = p.role ∧ t.pr.caughtUp = true) ∧
    (p.role = 1 → ∃ t, exec .catchUpPass s = .next t ∧ t.pr.role = p.role ∧
      t.pr.caughtUp = (p.caughtUp || (draw .bg .hearth none false .adapt s).1.isSome)) ∧
    (∀ m : Core, hdrLen p.tx[(0 : Fin 16)] = 0 ∨ 16 < hdrLen p.tx[(0 : Fin 16)] ∨ p.fitted = false →
      exec (.pairMsgSend (.core m)) s = .next s) ∧
    (∀ m : Core, 0 < hdrLen p.tx[(0 : Fin 16)] → hdrLen p.tx[(0 : Fin 16)] ≤ 16 → p.fitted = true → linkUp p.link = true →
      ∃ t, exec (.pairMsgSend (.core m)) s = .next t ∧ t.pr.txSeq = p.txSeq + 1 ∧ onLink t = onLink s + 1 ∧ t.pr.tx = p.tx ∧
        t.pr.rx = p.rx) ∧
    (∀ m : Core, exec (.pairMsgPop (.core m)) s = .next { s with pr := { s.pr with rx := none } }) ∧
    (∀ (h : Word) (ws : List Word), p.fitted = true → p.rx = none → exec (.pairMsgRx (h :: ws)) s = .next { s with
      pr := { s.pr with rx := some (stampHdr h 0xFE (bf h 16 8) :: ws), intSts := p.intSts ||| 0x10#32 } }) ∧
    (∀ ws : List Word, p.rx ≠ none → exec (.pairMsgRx ws) s = .next s) ∧
    (∀ d : PairDiag, p.fitted = true → ∃ t, exec (.diagRx d) s = .next t ∧ t.pr.partnerDiag = some (d, s.clk.now) ∧
      t.pr.role = p.role ∧ t.pr.step = p.step)

/-! The own store, recovery and the watchdogs. -/

/-- The own store and recovery. An operation is refused with its error or queued; an erase is issued in its turn and suspends the
watchdogs; an operation ends with its bytes programmed or erased, or with ERR 5; ERASE_MAX ends an erase that hangs. In
recovery a piece in order is programmed and counted and any other only answered; END boots a bootable slot; a segment on FL0
counts as a piece; out of recovery none has an effect. -/
def Obligations.OwnStoreOperationsAndRecovery : Prop :=
  (∀ (x : Fin 6) (s : State), exec (.osProgram (.ext x)) s = .next s ∧ exec (.osErase4k (.ext x)) s = .next s ∧
    exec (.osErase64k (.ext x)) s = .next s) ∧
  (∀ (m : Core) (s : State), s.pd.inReset = false →
    let a := s.os.addr.toNat
    let n := s.os.ctlLen.toNat
    let refused := fun (i : Instr) (op : BitVec 2) (e : BitVec 3) =>
      exec i s = .next { s with os := { s.os with ctlOp := op, err := e } }
    let queued := fun (i : Instr) (op : Nat) (d : List Byte) => ∃ t, exec i s = .next t ∧ t.os.err = 0 ∧ t.os.mem = s.os.mem ∧
      t.os.op = some { op := op, addr := a, data := d, issued := none } ∧ t.he = s.he
    (s.os.op.isSome = true → refused (.osProgram (.core m)) 1 1 ∧ refused (.osErase4k (.core m)) 2 1 ∧
      refused (.osErase64k (.core m)) 3 1) ∧
    (s.os.op = none → n = 0 ∨ 256 < n → refused (.osProgram (.core m)) 1 3) ∧
    (s.os.op = none → 0 < n → n ≤ 256 → 256 < a % 256 + n → refused (.osProgram (.core m)) 1 2) ∧
    (s.os.op = none → 0 < n → n ≤ 256 → a % 256 + n ≤ 256 → s.os.src.toNat % 4 = 0 → inRam s.os.src.toNat n = true →
      osFits a n = true → queued (.osProgram (.core m)) 1 (ramRead s s.os.src.toNat n)) ∧
    (s.os.op = none → 0 < n → n ≤ 256 → a % 256 + n ≤ 256 → s.os.src.toNat % 4 ≠ 0 ∨ inRam s.os.src.toNat n = false →
      refused (.osProgram (.core m)) 1 2) ∧
    (s.os.op = none → 0 < n → n ≤ 256 → a % 256 + n ≤ 256 → s.os.src.toNat % 4 = 0 → inRam s.os.src.toNat n = true →
      osFits a n = false → refused (.osProgram (.core m)) 1 4) ∧
    (s.os.op = none → a % 4096 ≠ 0 → refused (.osErase4k (.core m)) 2 2) ∧
    (s.os.op = none → a % 4096 = 0 → osFits a 4096 = true → queued (.osErase4k (.core m)) 2 []) ∧
    (s.os.op = none → a % 65536 ≠ 0 → refused (.osErase64k (.core m)) 3 2) ∧
    (s.os.op = none → a % 65536 = 0 → if osFits a 65536 then queued (.osErase64k (.core m)) 3 []
      else refused (.osErase64k (.core m)) 3 4)) ∧
  (∀ (f : Bool) (s : State), s.os.op = none → exec .ownStoreEraseIssue s = .next s ∧ exec (.osOperationEnd f) s = .next s ∧
    exec .eraseMaxExpiry s = .next s) ∧
  (∀ (o : OsOp) (s u : State), s.pd.inReset = false → s.os.op = some o →
    (o.op = 1 ∨ o.issued.isSome = true ∨ osGrant s osOpId = none → exec .ownStoreEraseIssue s = .next s) ∧
    (o.op ≠ 1 → o.issued = none → osGrant s osOpId = some u → ∃ t, exec .ownStoreEraseIssue s = .next t ∧
      t.os.op = some { o with issued := some s.clk.now } ∧ t.os.mem = s.os.mem ∧
      (s.wd.susp = none → (∀ w : Fin 5, wdRuns s.wd.w[w] = true → (s.wd.w[w]).extPend = false) → t.wd.susp = some s.clk.now)) ∧
    (∀ f : Bool, o.op = 1 → osGrant s osOpId = none → exec (.osOperationEnd f) s = .next s) ∧
    (o.op = 1 → osGrant s osOpId = some u → ∃ t, exec (.osOperationEnd false) s = .next t ∧ t.os.op = none ∧ t.os.done = true ∧
      t.os.err = 0 ∧ t.os.mem = (osProg s o.addr o.data).os.mem) ∧
    (o.op = 1 → osGrant s osOpId = some u → ∃ t, exec (.osOperationEnd true) s = .next t ∧ t.os.op = none ∧ t.os.done = true ∧
      t.os.err = 5) ∧
    (∀ i : Nat, o.op ≠ 1 → o.issued = some i →
      (∃ t, exec (.osOperationEnd false) s = .next t ∧ t.os.op = none ∧ t.os.done = true ∧ t.os.err = 0 ∧ t.wd.susp = none ∧
        t.os.mem = (osErase s o.addr (if o.op = 3 then 65536 else 4096)).os.mem) ∧
      (∃ t, exec (.osOperationEnd true) s = .next t ∧ t.os.op = none ∧ t.os.err = 5 ∧ t.wd.susp = none) ∧
      (∃ t, exec .eraseMaxExpiry s = .next t ∧ t.os.op = none ∧ t.os.done = true ∧ t.os.err = 5 ∧ t.wd.susp = none ∧
        t.clk.now = max s.clk.now (i + msCyc (10 * s.wd.eraseMax)))) ∧
    (o.issued = none → exec .eraseMaxExpiry s = .next s)) ∧
  (∀ (x : RecSrc) (r : List Byte) (s : State), (recReply s x r).boot = { s.boot with reply := r } ∧ (recReply s x r).os = s.os ∧
    (x = .i3c0 → ((recReply s x r).mb.i3c[(0 : Fin 4)]).reply = some (r, s.clk.now)) ∧ (x ≠ .i3c0 → (recReply s x r).mb = s.mb)) ∧
  (∀ (x : RecSrc) (a n : Nat) (d : List Byte) (s : State), s.boot.on = false ∨ x = .fl0 → exec (.recoveryStatus x) s = .next s ∧
    exec (.recoveryPiece x a d) s = .next s ∧ exec (.recoveryEnd x n) s = .next s) ∧
  (∀ (x : RecSrc) (a n : Nat) (d : List Byte) (s : State), s.pd.inReset = false → s.boot.on = true → x ≠ .fl0 →
    let reply := fun (t : State) (r : List Byte) => recReply t x r
    let took := { s with boot := { s.boot with src := some x } }
    (exec (.recoveryStatus x) s = .next (reply s
      ([if recBusy s x then 6 else 0] ++ beBytes 4 s.boot.count ++ [BitVec.ofNat 8 s.boot.slot, 0, 0, 0]))) ∧
    (recBusy s x = true → exec (.recoveryPiece x a d) s = .next (reply s [6]) ∧ exec (.recoveryEnd x n) s = .next (reply s [6])) ∧
    (recBusy s x = false → d = [] ∨ 256 < d.length → exec (.recoveryPiece x a d) s = .next (reply took [3])) ∧
    (recBusy s x = false → 0 < d.length → d.length ≤ 256 → a + d.length ≤ min 0x200000 (s.boot.total.getD 0x200000) →
      (s.boot.count < a → exec (.recoveryPiece x a d) s = .next (reply took [4])) ∧
      (a < s.boot.count → exec (.recoveryPiece x a d) s = .next (reply took [0])) ∧
      (a = s.boot.count → 128 ≤ a ∨ a + d.length < 128 → ∃ t, exec (.recoveryPiece x a d) s = .next t ∧ t.boot.reply = [0] ∧
        t.boot.count = a + d.length ∧ t.boot.src = some x ∧ t.os.mem = (recProgram s d).os.mem)) ∧
    (recBusy s x = false → s.boot.total ≠ some n → exec (.recoveryEnd x n) s = .next (reply s [5])) ∧
    (recBusy s x = false → s.boot.total = some n → ∃ t, exec (.recoveryEnd x n) s = .next t ∧
      (if bootable s s.boot.slot = true then t.boot.boot = some s.boot.slot ∧ t.boot.on = false ∧ t.boot.reply = [0]
       else t.boot.on = true ∧ t.boot.count = 0 ∧ t.boot.total = none ∧ t.boot.reply = [5] ∧ t.os = s.os))) ∧
  (∀ (fr : FabFrame) (s u : State), s.pd.inReset = false → linkTake s 0 fr = (true, u) →
    (s.boot.on = false → exec (.recoverySegRx fr) s = .next u) ∧
    (∀ d : List Byte, s.boot.on = true → Sys2Proof.Machine.frameOk fr = true → fr.typ = 0x30 → bf fr.arg 30 2 = 2 →
      bf fr.arg 16 14 = 0x3FFE → recBusy s .fl0 = false → be32 fr.payload 0 = s.boot.want → bf fr.arg 0 13 = s.boot.got →
      d = (fr.payload.drop 4).take (min (4096 - s.boot.got) (s.boot.total.getD 0x200000 - s.boot.count)) →
      128 ≤ s.boot.count → s.boot.total ≠ some (s.boot.count + d.length) → s.boot.got + d.length ≠ 4096 →
      ∃ t, exec (.recoverySegRx fr) s = .next t ∧ t.boot.count = s.boot.count + d.length ∧ t.boot.got = s.boot.got + d.length ∧
        t.boot.src = some .fl0 ∧ t.os.mem = (recProgram s d).os.mem))

/-- Watchdogs and task sets. A stoke from another core only marks it, and of several cores' stokes in one cycle every one after
the first sets DUP; early, or with a wrong token, it expires the watchdog; in the open phase with the right token it begins
the next window; the open phase opens after the closed one and expires; an expiry takes the non-maskable trap and starts the
hard timer; ARM is refused or starts window 0 with the section's timing; task sets are armed, counted, and renewed or expired
at their period's end. -/
def Obligations.WatchdogsStokeExpireAndArm : Prop :=
  (∀ (x : Fin 6) (w : Fin 5) (v : Word) (s : State), exec (.stoke (.ext x) w v) s = .next s ∧ exec (.wdArm (.ext x) w v) s = .next s ∧
    exec (.tsArm (.ext x) v) s = .next s ∧ exec (.checkin (.ext x) v) s = .next s) ∧
  (∀ (c : Core) (w : Fin 5) (v : Word) (s : State), s.pd.inReset = false →
    let k := s.wd.w[w]
    let put := fun (y : WdRt) => (Host.Outcome.next { s with wd := { s.wd with w := s.wd.w.set w y } } : Host.Outcome State Fault Refusal)
    let expired := fun (i : Instr) (fault : BitVec 2) => ∃ t, exec i s = .next t ∧ (t.wd.w[w]).st = .expired ∧
      (t.wd.w[w]).fault = fault ∧ t.wd.hardAt = some (s.wd.hardAt.getD t.clk.now) ∧ t.tp.ao.evCause.getLsbD 0 = true ∧
      (∀ y : Fin 5, y ≠ w → t.wd.w[y] = s.wd.w[y]) ∧
      (∀ d : Core, d.val = w.val ∨ w.val = 4 → (s.he.cores[d]).st = .running → (t.he.cores[d]).st = .nmi ∧
        (t.he.cores[d]).pc = 0x40 ∧ (t.he.cores[d]).dbg = false ∧
        t.he.nmiEpc[d] = (if (s.he.cores[d]).dbg then (s.he.cores[d]).dpc else (s.he.cores[d]).pc))
    let runs := k.st = .resetTiming ∨ k.st = .armed
    let due := k.at_ + usCyc (if k.ext then 1000 * s.wd.extMs else k.openUs)
    let mine := stokeCore w c = true ∧ takenNow k.stokeBy s.clk.now c = false
    (stokeCore w c = false → exec (.stoke (.core c) w v) s = put { k with foreign := true }) ∧
    (stokeCore w c = true → takenNow k.stokeBy s.clk.now c = true → exec (.stoke (.core c) w v) s = put { k with dup := true }) ∧
    (mine → ¬ runs → exec (.stoke (.core c) w v) s = .next s) ∧
    (mine → runs → s.wd.susp ≠ none → exec (.stoke (.core c) w v) s =
      put { k with stokeBy := some (s.clk.now, c), suspStoke := true }) ∧
    (mine → runs → s.wd.susp = none → k.open_ = false → expired (.stoke (.core c) w v) 1) ∧
    (mine → runs → s.wd.susp = none → k.open_ = true → v ≠ wdToken k → expired (.stoke (.core c) w v) 2) ∧
    (mine → runs → s.wd.susp = none → k.open_ = true → v = wdToken k →
      ∃ t, exec (.stoke (.core c) w v) s = .next t ∧ (t.wd.w[w]).st = k.st ∧ (t.wd.w[w]).win = k.win + 1 ∧
        (t.wd.w[w]).lfsr = lfsrRun 32 k.lfsr ∧ (t.wd.w[w]).at_ = s.clk.now + 1 ∧ (t.wd.w[w]).open_ = decide (k.closedUs = 0) ∧
        (∀ y : Fin 5, y ≠ w → t.wd.w[y] = s.wd.w[y]) ∧ t.he = s.he ∧ t.wd.hardAt = s.wd.hardAt) ∧
    (runs → k.open_ = false → s.wd.susp = none → ∃ t, exec (.windowOpen w) s = .next t ∧ (t.wd.w[w]).open_ = true ∧
      (t.wd.w[w]).win = k.win ∧ t.clk.now = max s.clk.now (k.at_ + usCyc k.closedUs)) ∧
    (¬ runs ∨ k.open_ = true ∨ s.wd.susp ≠ none → exec (.windowOpen w) s = .next s) ∧
    (runs → k.open_ = true → s.wd.susp = none → expired (.windowExpiry w) 3 ∧
      ∀ t, exec (.windowExpiry w) s = .next t → t.clk.now = max s.clk.now due) ∧
    (¬ runs ∨ k.open_ = false ∨ s.wd.susp ≠ none → exec (.windowExpiry w) s = .next s) ∧
    (v.getLsbD 0 = false → exec (.wdArm (.core c) w v) s = .next s) ∧
    (v.getLsbD 0 = true → (s.st.state ≠ .locked ∧ s.st.state ≠ .restructuring) ∨ k.wasArmed = true ∨ k.st = .expired ∨
      (w.val < 4 ∧ w.val ≠ c.val) → exec (.wdArm (.core c) w v) s = put { k with armRej := true }) ∧
    (v.getLsbD 0 = true → s.st.state = .locked ∨ s.st.state = .restructuring → k.wasArmed = false → k.st ≠ .expired →
      w.val = 4 ∨ w.val = c.val → ∃ t, exec (.wdArm (.core c) w v) s = .next t ∧ (t.wd.w[w]).st = .armed ∧
        (t.wd.w[w]).win = 0 ∧ (t.wd.w[w]).at_ = s.clk.now + 1 ∧ (t.wd.w[w]).closedUs = (s.wd.timing[w]).1 ∧ (t.wd.w[w]).openUs = (s.wd.timing[w]).2 ∧
        (t.wd.w[w]).secret = k.secretReg ∧ (t.wd.w[w]).wasArmed = true ∧ (t.wd.w[w]).fault = 0 ∧
        (t.wd.w[w]).open_ = decide ((s.wd.timing[w]).1 = 0))) ∧
  (∀ (m : Core) (v : Word) (s : State), s.pd.inReset = false → ∃ t, exec (.tsArm (.core m) v) s = .next t ∧ t.wd.w = s.wd.w ∧
    ∀ i : Fin 16, (t.wd.ts[i]).armed = ((s.wd.ts[i]).armed || (v.getLsbD i.val && decide (s.st.state = .locked ∨
      s.st.state = .restructuring) && decide ((s.wd.tsCfg[i]).tasks ≠ 0)))) ∧
  (∀ (c : Core) (i k : Fin 16) (v : Word) (s : State), s.pd.inReset = false → bf v 0 4 = i.val → bf v 8 4 = k.val →
    let r := s.wd.ts[i]
    (r.armed = false ∨ (s.wd.tsCfg[i]).tasks ≤ k.val → exec (.checkin (.core c) v) s = .next s) ∧
    (r.armed = true → k.val < (s.wd.tsCfg[i]).tasks → (s.wd.tsCfg[i]).cores.getLsbD c.val = false →
      exec (.checkin (.core c) v) s = .next { s with wd := { s.wd with ts := s.wd.ts.set i { r with foreign := true } } }) ∧
    (r.armed = true → k.val < (s.wd.tsCfg[i]).tasks → (s.wd.tsCfg[i]).cores.getLsbD c.val = true → s.wd.susp = none →
      exec (.checkin (.core c) v) s = .next { s with wd := { s.wd with
        ts := s.wd.ts.set i { r with counts := r.counts.set k (min 2 (r.counts[k] + 1)) } } }) ∧
    (r.armed = true → k.val < (s.wd.tsCfg[i]).tasks → (s.wd.tsCfg[i]).cores.getLsbD c.val = true → s.wd.susp ≠ none →
      exec (.checkin (.core c) v) s = .next { s with wd := { s.wd with
        w := s.wd.w.set (s.wd.tsCfg[i]).target { s.wd.w[(s.wd.tsCfg[i]).target] with suspStoke := true } } })) ∧
  (∀ (i : Fin 16) (s : State), (s.wd.ts[i]).armed = false ∨ (s.wd.ts[i]).expired = true ∨ s.wd.susp ≠ none → exec (.periodEnd i) s = .next s) ∧
  (∀ (i : Fin 16) (s : State), s.pd.inReset = false → (s.wd.ts[i]).armed = true → (s.wd.ts[i]).expired = false →
    s.wd.susp = none →
    let r := s.wd.ts[i]
    let c := s.wd.tsCfg[i]
    let due := r.at_ + usCyc (tsPeriod s i)
    ((∀ k : Fin 16, k.val < c.tasks → r.counts[k] = 1) → ∃ t, exec (.periodEnd i) s = .next t ∧ (t.wd.ts[i]).armed = true ∧
      (t.wd.ts[i]).periods = r.periods + 1 ∧ (t.wd.ts[i]).at_ = due ∧ (t.wd.ts[i]).inFirst = false ∧
      (t.wd.ts[i]).counts = Vector.replicate 16 0 ∧ t.wd.w = s.wd.w ∧ t.clk.now = max s.clk.now due) ∧
    ((∀ k : Fin 16, k.val < c.tasks → r.counts[k] ≠ 0) → (∃ k : Fin 16, k.val < c.tasks ∧ 2 ≤ r.counts[k]) → c.doubleFatal = false →
      ∃ t, exec (.periodEnd i) s = .next t ∧ (t.wd.ts[i]).expired = false ∧ (t.wd.ts[i]).periods = r.periods + 1 ∧
        (t.wd.ts[i]).at_ = due ∧ t.wd.intSts.getLsbD 0 = true ∧ t.wd.w = s.wd.w ∧
        ∀ k : Fin 16, k.val < c.tasks → 2 ≤ r.counts[k] → (t.wd.ts[i]).double.getLsbD k.val = true) ∧
    ((∃ k : Fin 16, k.val < c.tasks ∧ r.counts[k] = 0) ∨ ((∃ k : Fin 16, k.val < c.tasks ∧ 2 ≤ r.counts[k]) ∧ c.doubleFatal = true) → ∃ t, exec (.periodEnd i) s = .next t ∧ (t.wd.ts[i]).armed = true ∧
      (t.wd.ts[i]).expired = true ∧ (t.wd.ts[i]).periods = r.periods + 1 ∧ (t.wd.w[c.target]).st = .expired ∧ (t.wd.w[c.target]).fault = 3 ∧
      t.wd.hardAt.isSome = true))

/-! Tamper monitoring. -/

/-- Tamper monitoring and the always-on domain. An event of an enabled source counts in its window, and at its limit the source is
active and raises an alarm: the alarm number rises and the mask's responses act, ASH, HOLD_HOSTS, the interrupt, HALT, or on
battery are deferred but for the AWK; an active source only moves its last event; the window, the source and the HALT hold
end; HOLD_CLEAR is refused while a holding source is active; the clock is loaded and latched; a thermometer bit is programmed;
an AO restart loses the contents. -/
def Obligations.TamperSourcesAlarmsAndResponses : Prop :=
  (∀ (i : Fin 8) (d : Nat) (s : State), (s.tp.ao.src[i]).en = false ∨ tpSeen s i = false ∨ lightOk s i d = false →
    ∃ u, exec (.tamperEvent i d) s = .next (settleAll u) ∧ u.tp.ao = s.tp.ao ∧ u.pd = s.pd) ∧
  (∀ (i : Fin 8) (d : Nat) (s : State), (s.tp.ao.src[i]).en = true → tpSeen s i = true → lightOk s i d = true →
    let k := s.tp.ao.src[i]
    let c := if k.cnt = 0 ∨ k.openAt + tpWindow s i < s.clk.now then 1 else k.cnt + 1
    (k.active = true → ∃ u, exec (.tamperEvent i d) s = .next (settleAll u) ∧ (u.tp.ao.src[i]).lastAt = s.clk.now ∧
      (u.tp.ao.src[i]).active = true ∧ u.tp.ao.alarms = s.tp.ao.alarms ∧ u.tp.ao.head = s.tp.ao.head) ∧
    (k.active = false → c < k.n → i ≠ 5 → i ≠ 6 → ∃ u, exec (.tamperEvent i d) s = .next (settleAll u) ∧
      (u.tp.ao.src[i]).cnt = c ∧ (u.tp.ao.src[i]).active = false ∧ (u.tp.ao.src[i]).lastAt = s.clk.now ∧
      u.tp.ao.alarms = s.tp.ao.alarms) ∧
    (k.active = false → k.n ≤ c ∨ i = 5 ∨ i = 6 → s.tp.battery = false → ∃ u, exec (.tamperEvent i d) s = .next (settleAll u) ∧
      (u.tp.ao.src[i]).active = !k.resp.getLsbD 3 ∧ u.tp.ao.alarms = min 65535 (s.tp.ao.alarms + 1) ∧
      (k.resp.getLsbD 2 = true → u.tp.ao.ashed = true ∧ u.tp.ao.awk = none ∧ (k.resp.getLsbD 3 = false → VaultAsh u)) ∧
      (k.resp.getLsbD 1 = true → u.tp.ao.held = true) ∧
      (k.resp.getLsbD 3 = true → s.pd.cold = false → u.pd.inReset = true ∧ u.pd.cause = 5 ∧ u.pd.holdHalt = true) ∧
      (k.resp.getLsbD 3 = false → u.tp.intSts.getLsbD i.val = true ∧ u.pd.inReset = s.pd.inReset)) ∧
    (k.active = false → k.n ≤ c → s.tp.battery = true → ∃ u, exec (.tamperEvent i d) s = .next (settleAll u) ∧
      (u.tp.ao.src[i]).active = true ∧ u.tp.ao.alarms = min 65535 (s.tp.ao.alarms + 1) ∧
      u.tp.ao.deferResp = s.tp.ao.deferResp ||| k.resp ∧ u.tp.ao.awk = (if k.resp.getLsbD 2 then none else s.tp.ao.awk) ∧
      u.tp.ao.held = s.tp.ao.held ∧ u.pd = s.pd ∧ u.kv = s.kv)) ∧
  (∀ (i : Fin 8) (s : State),
    let k := s.tp.ao.src[i]
    let put := fun (now : Nat) (y : TpSrc) => (Host.Outcome.next { s with clk := { s.clk with now := max s.clk.now now }
                                                                          tp := { s.tp with ao := { s.tp.ao with
      src := s.tp.ao.src.set i y } } } : Host.Outcome State Fault Refusal)
    (k.active = false → 0 < k.cnt → exec (.tamperWindowClose i) s = put (k.openAt + tpWindow s i) { k with cnt := 0 }) ∧
    (k.active = true ∨ k.cnt = 0 → exec (.tamperWindowClose i) s = .next s) ∧
    (k.active = true → i ≠ 5 ∨ s.tp.mismatch = false → exec (.sourceIdle i) s =
      put (k.lastAt + tpWindow s i) { k with active := false, cnt := 0 }) ∧
    (k.active = false ∨ (i = 5 ∧ s.tp.mismatch = true) → exec (.sourceIdle i) s = .next s)) ∧
  (∀ s : State, s.tp.haltAt = none → exec .haltHoldExpiry s = .next s) ∧
  (∀ (x : Nat) (s : State), s.tp.haltAt = some x → exec .haltHoldExpiry s = .next { s with
    clk := { s.clk with now := max s.clk.now (x + msCyc s.tp.ao.haltHold) }, pd := { s.pd with holdHalt := false }
    tp := { s.tp with haltAt := none } }) ∧
  (∀ (x : Fin 6) (s : State), s.pd.inReset = false → exec (.holdClear (.ext x)) s = .next (settleAll s) ∧
    exec (.softAlarm (.ext x)) s = .next (settleAll s) ∧ exec (.rtcLoad (.ext x)) s = .next s) ∧
  (∀ (m : Core) (s : State), s.pd.inReset = false → ∃ u, exec (.holdClear (.core m)) s = .next (settleAll u) ∧
    (if s.tp.ao.src.any (fun k => k.active && k.resp.getLsbD 1) then u.tp.ao = { s.tp.ao with rej := true }
     else u.tp.ao = { s.tp.ao with held := false })) ∧
  (∀ (m : Core) (s : State), s.pd.inReset = false → (s.tp.ao.src[(7 : Fin 8)]).en = true →
    (s.tp.ao.src[(7 : Fin 8)]).active = false → (s.tp.ao.src[(7 : Fin 8)]).n ≤ 1 → s.tp.battery = false →
    ∃ u, exec (.softAlarm (.core m)) s = .next (settleAll u) ∧
      (u.tp.ao.src[(7 : Fin 8)]).active = !(s.tp.ao.src[(7 : Fin 8)]).resp.getLsbD 3 ∧
      u.tp.ao.alarms = min 65535 (s.tp.ao.alarms + 1)) ∧
  (∀ (m : Core) (s : State), s.pd.inReset = false → ∃ t, exec (.rtcLoad (.core m)) s = .next t ∧
    t.tp.ao.rtcBase = s.tp.rtcSet ∧ t.tp.ao.rtcAt = s.clk.now ∧ rtcNow t = s.tp.rtcSet ∧
    t.tp.ao.head = (if 1 < tpFree s ∧ s.tp.ao.overflow = false then (s.tp.ao.head + 1) % 256 else s.tp.ao.head)) ∧
  (∀ (m : Master) (s : State), s.pd.inReset = false → exec (.rtcLoRead m) s = .next (if mayRead s m 17 then
    { s with tp := { s.tp with ao := { s.tp.ao with rtcHi := BitVec.ofNat 16 ((rtcNow s).toNat >>> 32) } } } else s)) ∧
  (∀ s : State, s.tp.ao.pend = 0 ∨ 512 ≤ tamperCount s ∨ s.tp.battery = true → exec .thermBitProgrammed s = .next s) ∧
  (∀ s : State, 0 < s.tp.ao.pend → tamperCount s < 512 → s.tp.battery = false → ∃ t, exec .thermBitProgrammed s = .next t ∧
    t.otp = (otpProg s (0x320 + tamperCount s / 8) [1#8 <<< (tamperCount s % 8)]).otp ∧
    (if tamperCount s + 1 = 512 then t.tp.ao.sat = true ∧ t.tp.ao.pend = 0 ∧ t.tp.intSts = s.tp.intSts ||| 0x400#32
     else t.tp.ao.sat = s.tp.ao.sat ∧ t.tp.ao.pend = s.tp.ao.pend - 1 ∧ t.tp.intSts = s.tp.intSts)) ∧
  (∀ s : State, ∃ t, exec .aoRestart s = .next t ∧ t.tp.ao.awk = none ∧ t.tp.ao.ashed = false ∧ t.tp.ao.lost = true ∧
    t.tp.ao.held = false ∧ t.tp.ao.alarms = tamperCount s ∧ t.tp.ao.head = 1 ∧ t.tp.ao.tail = 0 ∧ t.otp = s.otp ∧ t.he = s.he)
end

