-- ==== Sys2Proof/Laws/Mem.lean ====
section
/-! SUPPORT. Byte memories: the canonical form is kept by every operation, and what a read gives after a write. -/

namespace Sys2Proof.Machine

theorem arising_iff {β : Type} (l : List (Nat × β)) : arising l = true ↔ l.Pairwise (fun a b => a.1 < b.1) := by
  induction l with
  | nil => simp [arising]
  | cons a t ih =>
    cases t with
    | nil => simp [arising]
    | cons b t =>
      simp only [arising, Bool.and_eq_true, decide_eq_true_eq, ih, List.pairwise_cons]
      constructor
      · rintro ⟨h, hb, ht⟩
        refine ⟨fun x hx => ?_, hb, ht⟩
        rcases List.mem_cons.mp hx with rfl | hx
        · exact h
        · exact h.trans (hb x hx)
      · rintro ⟨h, hb, ht⟩
        exact ⟨h b (by simp), hb, ht⟩

theorem mem_aput {β : Type} {l : List (Nat × β)} {k : Nat} {v : β} {x : Nat × β} (h : x ∈ aput l k v) :
    x = (k, v) ∨ x ∈ l := by
  induction l with
  | nil => simpa [aput] using h
  | cons a t ih =>
    simp only [aput] at h
    split at h
    · simpa using h
    · split at h
      · rcases List.mem_cons.mp h with h | h
        · exact .inl h
        · exact .inr (by simp [h])
      · rcases List.mem_cons.mp h with h | h
        · exact .inr (by simp [h])
        · rcases ih h with h | h
          · exact .inl h
          · exact .inr (by simp [h])

theorem aput_arising {β : Type} {l : List (Nat × β)} (k : Nat) (v : β) (h : arising l = true) : arising (aput l k v) = true := by
  rw [arising_iff] at h ⊢
  induction l with
  | nil => simp [aput]
  | cons a t ih =>
    obtain ⟨ha, ht⟩ := List.pairwise_cons.mp h
    simp only [aput]
    split
    · next hk =>
      refine List.pairwise_cons.mpr ⟨fun x hx => ?_, h⟩
      rcases List.mem_cons.mp hx with rfl | hx
      · exact hk
      · exact Nat.lt_trans hk (ha x hx)
    · split
      · next hk => subst hk; exact List.pairwise_cons.mpr ⟨ha, ht⟩
      · next h1 h2 =>
        refine List.pairwise_cons.mpr ⟨fun x hx => ?_, ih ht⟩
        rcases mem_aput hx with rfl | hx
        · simp only; omega
        · exact ha x hx

theorem filter_arising {β : Type} {l : List (Nat × β)} (p : Nat × β → Bool) (h : arising l = true) : arising (l.filter p) = true := by
  rw [arising_iff] at h ⊢
  exact h.filter p

theorem memWf_nil (d : Byte) : memWf d [] = true := rfl

theorem memSet_wf {d : Byte} {m : List Host.Cell} (a : Nat) (b : Byte) (h : memWf d m = true) : memWf d (memSet d m a b) = true := by
  simp only [memWf, Bool.and_eq_true, List.all_eq_true, decide_eq_true_eq] at h ⊢
  unfold memSet
  split
  · exact ⟨filter_arising _ h.1, fun x hx => h.2 x (List.mem_of_mem_filter hx)⟩
  · next hb =>
    refine ⟨aput_arising a b h.1, fun x hx => ?_⟩
    rcases mem_aput hx with rfl | hx
    · exact hb
    · exact h.2 x hx

theorem memWrite_wf {d : Byte} {m : List Host.Cell} (a : Nat) (bs : List Byte) (h : memWf d m = true) :
    memWf d (memWrite d m a bs) = true := by
  induction bs generalizing a m with
  | nil => exact h
  | cons b bs ih => exact ih (a + 1) (memSet_wf a b h)

theorem memAnd_wf {d : Byte} {m : List Host.Cell} (a : Nat) (bs : List Byte) (h : memWf d m = true) :
    memWf d (memAnd d m a bs) = true := by
  induction bs generalizing a m with
  | nil => exact h
  | cons b bs ih => exact ih (a + 1) (memSet_wf a _ h)

theorem memOr_wf {m : List Host.Cell} (a : Nat) (bs : List Byte) (h : memWf 0 m = true) : memWf 0 (memOr m a bs) = true := by
  induction bs generalizing a m with
  | nil => exact h
  | cons b bs ih => exact ih (a + 1) (memSet_wf a _ h)

theorem memErase_wf {d : Byte} {m : List Host.Cell} (a n : Nat) (h : memWf d m = true) : memWf d (memErase m a n) = true := by
  simp only [memWf, Bool.and_eq_true, List.all_eq_true, decide_eq_true_eq] at h ⊢
  exact ⟨filter_arising _ h.1, fun x hx => h.2 x (List.mem_of_mem_filter hx)⟩

theorem aget_aput {β : Type} {l : List (Nat × β)} (h : arising l = true) (k : Nat) (v : β) (x : Nat) :
    aget (aput l k v) x = if x = k then some v else aget l x := by
  rw [arising_iff] at h
  induction l with
  | nil => by_cases hx : x = k <;> simp [aput, aget, hx]; omega
  | cons a t ih =>
    obtain ⟨ha, ht⟩ := List.pairwise_cons.mp h
    have := ih ht
    simp only [aput]
    split
    · simp only [aget]; split_ifs <;> first | rfl | omega
    · split
      · simp only [aget]; split_ifs <;> first | rfl | omega
      · simp only [aget, this]; split_ifs <;> first | rfl | omega

theorem aget_none {β : Type} {l : List (Nat × β)} (k : Nat) (h : ∀ x ∈ l, x.1 ≠ k) : aget l k = none := by
  induction l with
  | nil => rfl
  | cons a t ih =>
    simp only [aget]
    rw [if_neg (h a (by simp)), ih (fun x hx => h x (by simp [hx]))]
    split <;> rfl

theorem aget_adel {β : Type} {l : List (Nat × β)} (h : arising l = true) (k x : Nat) :
    aget (adel l k) x = if x = k then none else aget l x := by
  rw [arising_iff] at h
  induction l with
  | nil => simp [adel, aget]
  | cons a t ih =>
    obtain ⟨ha, ht⟩ := List.pairwise_cons.mp h
    have := ih ht
    unfold adel at this ⊢
    by_cases hak : a.1 = k
    · rw [List.filter_cons_of_neg (by simp [hak]), this]
      simp only [aget]
      split_ifs with h1 h2 h3
      · rfl
      · omega
      · exact aget_none x (fun y hy => by have := ha y hy; omega)
      · rfl
    · rw [List.filter_cons_of_pos (by simp [hak])]
      simp only [aget, this]
      split_ifs <;> first | rfl | omega

/-- Reading a byte after writing one: the byte written there, and what was read before everywhere else. -/
theorem memGet_memSet {d : Byte} {m : List Host.Cell} (h : memWf d m = true) (a : Nat) (b : Byte) (x : Nat) :
    memGet d (memSet d m a b) x = if x = a then b else memGet d m x := by
  have hr : arising m = true := (Bool.and_eq_true _ _ ▸ h).1
  unfold memGet memSet
  split
  · next hb => rw [aget_adel hr]; split_ifs <;> simp [hb]
  · rw [aget_aput hr]; split_ifs <;> simp

theorem memGet_memWrite {d : Byte} {m : List Host.Cell} (h : memWf d m = true) (a : Nat) (bs : List Byte) (x : Nat) :
    memGet d (memWrite d m a bs) x = if a ≤ x ∧ x < a + bs.length then bs.getD (x - a) 0 else memGet d m x := by
  induction bs generalizing a m with
  | nil => simp [memWrite]
  | cons b bs ih =>
    simp only [memWrite, ih (memSet_wf a b h), memGet_memSet h, List.length_cons]
    by_cases hx : x = a
    · subst hx; simp
    · rcases Nat.lt_or_ge x a with hlt | hge
      · rw [if_neg (by omega), if_neg hx, if_neg (by omega)]
      · obtain ⟨k, rfl⟩ : ∃ k, x = a + 1 + k := ⟨x - (a + 1), by omega⟩
        have e : a + 1 + k - a = k + 1 := by omega
        simp only [hx, if_false, e, List.getD_cons_succ]
        have e2 : a + 1 + k - (a + 1) = k := by omega
        rw [e2]
        split_ifs <;> first | rfl | omega

/-- Programming OTP bytes clears no bit. -/
theorem memOr_keeps {m : List Host.Cell} (h : memWf 0 m = true) (a : Nat) (bs : List Byte) (x : Nat) :
    memGet 0 m x &&& memGet 0 (memOr m a bs) x = memGet 0 m x := by
  induction bs generalizing a m with
  | nil => simp [memOr]
  | cons b bs ih =>
    have h1 := ih (memSet_wf a (memGet 0 m a ||| b) h) (a + 1)
    have h2 := memGet_memSet h a (memGet 0 m a ||| b) x
    simp only [memOr]
    by_cases hx : x = a
    · subst hx
      rw [if_pos rfl] at h2
      rw [h2] at h1
      generalize memGet 0 (memOr _ _ _) x = q at h1 ⊢
      have e : memGet 0 m x &&& q = memGet 0 m x &&& ((memGet 0 m x ||| b) &&& q) := by
        ext i; simp; grind
      rw [e, h1]; ext i; simp; grind
    · rw [if_neg hx] at h2
      rw [h2] at h1
      exact h1

end Sys2Proof.Machine
end

