-- ==== Sys2Proof/Laws/Kept.lean ====
section
/-! SUPPORT. What every operation of the block keeps: the queue, the canonical form of the memories, programmed OTP bits,
the order of time and of the free values drawn. -/

namespace Sys2Proof.Machine

/-- From `s` to `t` the queue is the same, no memory loses its canonical form, no OTP bit is cleared, and neither the clock
nor the counter of free values has gone back. -/
structure Kept (s t : State) : Prop where
  pending : t.pending = s.pending
  otp : memWf 0 s.otp = true → memWf 0 t.otp = true ∧ OtpKept s t
  now : s.clk.now ≤ t.clk.now
  free : s.clk.free ≤ t.clk.free
  ram : memWf 0 s.he.ram = true → memWf 0 t.he.ram = true
  os : memWf 0xFF s.os.mem = true → memWf 0xFF t.os.mem = true
  sram : memWf 0 s.tp.ao.sram = true → memWf 0 t.tp.ao.sram = true

theorem Kept.refl (s : State) : Kept s s :=
  ⟨rfl, fun h => ⟨h, fun _ => BitVec.and_self⟩, Nat.le_refl _, Nat.le_refl _, id, id, id⟩

theorem Kept.trans {s t u : State} (h : Kept s t) (k : Kept t u) : Kept s u where
  pending := k.pending.trans h.pending
  otp w := by
    obtain ⟨w1, k1⟩ := h.otp w
    obtain ⟨w2, k2⟩ := k.otp w1
    refine ⟨w2, fun a => ?_⟩
    rw [← k1 a, BitVec.and_assoc, k2 a]
  now := h.now.trans k.now
  free := h.free.trans k.free
  ram w := k.ram (h.ram w)
  os w := k.os (h.os w)
  sram w := k.sram (h.sram w)

variable {s₀ s : State}

/-- A state that differs only in parts the relation does not speak of. -/
theorem Kept.frame (h : Kept s₀ s) {t : State} (hp : t.pending = s.pending) (ho : t.otp = s.otp) (hc : t.clk = s.clk)
    (hr : t.he.ram = s.he.ram) (hs : t.os.mem = s.os.mem) (ha : t.tp.ao.sram = s.tp.ao.sram) : Kept s₀ t :=
  h.trans ⟨hp, fun w => ⟨ho ▸ w, fun a => by rw [ho, BitVec.and_self]⟩, by rw [hc], by rw [hc], fun w => hr ▸ w, fun w => hs ▸ w,
    fun w => ha ▸ w⟩

/-- A record update that leaves the clock, the OTP and the queue alone. -/
theorem Kept.mk' (h : Kept s₀ s) {sel gc ch port grLog ve ec st bt inst sq pd he kv lc mb fb os boot wd pr tp}
    (hr : he.ram = s.he.ram) (hs : os.mem = s.os.mem) (ha : tp.ao.sram = s.tp.ao.sram) :
    Kept s₀ ⟨s.clk, sel, gc, ch, port, grLog, ve, ec, st, bt, inst, sq, pd, he, kv, lc, s.otp, mb, fb, os, boot, wd, pr, tp,
      s.pending⟩ := h.frame rfl rfl rfl hr hs ha

theorem Kept.ite {c : Prop} [Decidable c] {a b : State} (ha : Kept s₀ a) (hb : Kept s₀ b) : Kept s₀ (if c then a else b) := by
  split
  · exact ha
  · exact hb

theorem Kept.of_pair {β : Type} {p : β × State} {a : β} {t : State} (e : p = (a, t)) (h : Kept s₀ p.2) : Kept s₀ t := by
  rw [e] at h
  exact h

theorem Kept.foldl {β : Type} {l : List β} {g : State → β → State} (h : Kept s₀ s)
    (hg : ∀ t x, Kept s₀ t → Kept s₀ (g t x)) : Kept s₀ (l.foldl g s) := by
  induction l generalizing s with
  | nil => exact h
  | cons x l ih => exact ih (hg s x h)

theorem Kept.foldl_fst {β γ : Type} {l : List β} {g : State × γ → β → State × γ} {p : State × γ} (h : Kept s₀ p.1)
    (hg : ∀ q x, Kept s₀ q.1 → Kept s₀ (g q x).1) : Kept s₀ (l.foldl g p).1 := by
  induction l generalizing p with
  | nil => exact h
  | cons x l ih => exact ih (hg p x h)

theorem Kept.foldl_snd {β γ : Type} {l : List β} {g : γ × State → β → γ × State} {p : γ × State} (h : Kept s₀ p.2)
    (hg : ∀ q x, Kept s₀ q.2 → Kept s₀ (g q x).2) : Kept s₀ (l.foldl g p).2 := by
  induction l generalizing p with
  | nil => exact h
  | cons x l ih => exact ih (hg p x h)

end Sys2Proof.Machine
end

