-- ==== Sys2Proof/Laws/Ops.lean ====
section
/-! SUPPORT. What each operation of Machine/Ops.lean keeps (`Kept`). -/

set_option linter.unusedTactic false
set_option linter.unreachableTactic false

namespace Sys2Proof.Machine

theorem btInt_kept {s₀ : State} {i : Nat} {s : State} (hK : Kept s₀ s) : Kept s₀ (btInt s i) := by
  unfold btInt
  repeat' first
      | (with_reducible first | assumption | apply Kept.foldl | rfl) | (intro _) | with_reducible apply Kept.ite
      | split | with_reducible refine Kept.mk' ?_ ?_ ?_ ?_

theorem modSel_kept {s₀ : State} {m : Master} {f : Sel → Sel} {s : State} (hK : Kept s₀ s) : Kept s₀ (modSel s m
    f) := by
  unfold modSel
  repeat' first
      | (with_reducible first | assumption | apply Kept.foldl | rfl) | (intro _) | with_reducible apply Kept.ite
      | split | with_reducible refine Kept.mk' ?_ ?_ ?_ ?_

theorem modCh_kept {s₀ : State} {c : Ch} {f : Chan → Chan} {s : State} (hK : Kept s₀ s) : Kept s₀ (modCh s c f) := by
  unfold modCh
  repeat' first
      | (with_reducible first | assumption | apply Kept.foldl | rfl) | (intro _) | with_reducible apply Kept.ite
      | split | with_reducible refine Kept.mk' ?_ ?_ ?_ ?_

theorem modRaw_kept {s₀ : State} {c : Ch} {f : Raw → Raw} {s : State} (hK : Kept s₀ s) : Kept s₀ (modRaw s c f) := by
  unfold modRaw
  repeat' first
      | (with_reducible first | assumption | apply modCh_kept | apply Kept.foldl | rfl) | (intro _)
      | with_reducible apply Kept.ite | split | with_reducible refine Kept.mk' ?_ ?_ ?_ ?_

theorem veRecordReserved_kept {s₀ : State} {c kind bind info obj win : Nat} {s : State} (hK : Kept s₀ s) : Kept s₀
    (veRecordReserved s c kind bind info obj win) := by
  unfold veRecordReserved
  repeat' first
      | (with_reducible first | assumption | apply Kept.foldl | rfl) | (intro _) | with_reducible apply Kept.ite
      | split | with_reducible refine Kept.mk' ?_ ?_ ?_ ?_

theorem veInt_kept {s₀ : State} {i : Nat} {s : State} (hK : Kept s₀ s) : Kept s₀ (veInt s i) := by
  unfold veInt
  repeat' first
      | (with_reducible first | assumption | apply Kept.foldl | rfl) | (intro _) | with_reducible apply Kept.ite
      | split | with_reducible refine Kept.mk' ?_ ?_ ?_ ?_

theorem sqRecord_kept {s₀ : State} {kind step line mask info : Nat} {s : State} (hK : Kept s₀ s) : Kept s₀
    (sqRecord s kind step line mask info) := by
  unfold sqRecord
  repeat' first
      | (with_reducible first | assumption | apply Kept.foldl | rfl) | (intro _) | with_reducible apply Kept.ite
      | split | with_reducible refine Kept.mk' ?_ ?_ ?_ ?_

theorem ecInt_kept {s₀ : State} {i : Nat} {s : State} (hK : Kept s₀ s) : Kept s₀ (ecInt s i) := by
  unfold ecInt
  repeat' first
      | (with_reducible first | assumption | apply Kept.foldl | rfl) | (intro _) | with_reducible apply Kept.ite
      | split | with_reducible refine Kept.mk' ?_ ?_ ?_ ?_

theorem ecRecord_kept {s₀ : State} {c : Ch} {kind arg old new : Nat} {essential : Bool} {s : State} (hK : Kept s₀
    s) : Kept s₀ (ecRecord s c kind arg old new essential) := by
  unfold ecRecord
  repeat' first
      | (with_reducible first | assumption | apply ecInt_kept | apply Kept.foldl | rfl) | (intro _)
      | with_reducible apply Kept.ite | split | with_reducible refine Kept.mk' ?_ ?_ ?_ ?_

theorem forCh_kept {s₀ : State} {f : State → Ch → State} {s : State} (hK : Kept s₀ s) (hf : ∀ t x0, Kept s₀ t →
    Kept s₀ (f t x0)) : Kept s₀ (forCh s f) := by
  unfold forCh
  repeat' first
      | (with_reducible first | assumption) | apply hf | (with_reducible first | apply Kept.foldl | rfl) | (intro _)
      | with_reducible apply Kept.ite | split | with_reducible refine Kept.mk' ?_ ?_ ?_ ?_

theorem modPort_kept {s₀ : State} {p : Ch} {f : Port → Port} {s : State} (hK : Kept s₀ s) : Kept s₀ (modPort s p
    f) := by
  unfold modPort
  repeat' first
      | (with_reducible first | assumption | apply Kept.foldl | rfl) | (intro _) | with_reducible apply Kept.ite
      | split | with_reducible refine Kept.mk' ?_ ?_ ?_ ?_

theorem useFree_kept {s₀ : State} {n : Nat} {s : State} (h : Kept s₀ s) : Kept s₀ (useFree s n) :=
  h.trans ⟨rfl, fun w => ⟨w, fun _ => BitVec.and_self⟩, Nat.le_refl _, Nat.le_add_right _ _, id, id, id⟩

theorem stInt_kept {s₀ : State} {i : Nat} {s : State} (hK : Kept s₀ s) : Kept s₀ (stInt s i) := by
  unfold stInt
  repeat' first
      | (with_reducible first | assumption | apply Kept.foldl | rfl) | (intro _) | with_reducible apply Kept.ite
      | split | with_reducible refine Kept.mk' ?_ ?_ ?_ ?_

theorem reachTime_kept {s₀ : State} {t : Nat} {s : State} (h : Kept s₀ s) : Kept s₀ (reachTime s t) :=
  h.trans ⟨rfl, fun w => ⟨w, fun _ => BitVec.and_self⟩, Nat.le_max_left _ _, Nat.le_refl _, id, id, id⟩

theorem sqInt_kept {s₀ : State} {i : Nat} {s : State} (hK : Kept s₀ s) : Kept s₀ (sqInt s i) := by
  unfold sqInt
  repeat' first
      | (with_reducible first | assumption | apply Kept.foldl | rfl) | (intro _) | with_reducible apply Kept.ite
      | split | with_reducible refine Kept.mk' ?_ ?_ ?_ ?_

theorem osProg_kept {s₀ : State} {a : Nat} {bs : List Byte} {s : State} (h : Kept s₀ s) : Kept s₀ (osProg s a bs) :=
  h.trans ⟨rfl, fun w => ⟨w, fun _ => BitVec.and_self⟩, Nat.le_refl _, Nat.le_refl _, id, memAnd_wf a bs, id⟩

theorem osErase_kept {s₀ : State} {a n : Nat} {s : State} (h : Kept s₀ s) : Kept s₀ (osErase s a n) :=
  h.trans ⟨rfl, fun w => ⟨w, fun _ => BitVec.and_self⟩, Nat.le_refl _, Nat.le_refl _, id, memErase_wf a n, id⟩

theorem evLowSet_kept {s₀ : State} {old : Bool} {s : State} (hK : Kept s₀ s) : Kept s₀ (evLowSet old s) := by
  unfold evLowSet
  repeat' first
      | (with_reducible first | assumption | apply Kept.foldl | rfl) | (intro _) | with_reducible apply Kept.ite
      | split | with_reducible refine Kept.mk' ?_ ?_ ?_ ?_

theorem veRecord_kept {s₀ : State} {c kind bind info obj win : Nat} {essential : Bool} {s : State} (hK : Kept s₀
    s) : Kept s₀ (veRecord s c kind bind info obj win essential) := by
  unfold veRecord
  repeat' first
      | (with_reducible first | assumption | apply evLowSet_kept | apply Kept.foldl | rfl) | (intro _)
      | with_reducible apply Kept.ite | split | with_reducible refine Kept.mk' ?_ ?_ ?_ ?_

theorem foldVerdict_kept {s₀ : State} {perBind : Bool} {idx code : Nat} {s : State} (hK : Kept s₀ s) : Kept s₀
    (foldVerdict s perBind idx code) := by
  unfold foldVerdict
  repeat' first
      | (with_reducible first | assumption | apply Kept.foldl | rfl) | (intro _) | with_reducible apply Kept.ite
      | split | with_reducible refine Kept.mk' ?_ ?_ ?_ ?_

theorem grRecord_kept {s₀ : State} {c : Ch} {kind : Nat} {op : Byte} {desc addr units verdict : Nat} {s : State}
    (hK : Kept s₀ s) : Kept s₀ (grRecord s c kind op desc addr units verdict) := by
  unfold grRecord
  repeat' first
      | (with_reducible first | assumption | apply modCh_kept | apply Kept.foldl | rfl) | (intro _)
      | with_reducible apply Kept.ite | split | with_reducible refine Kept.mk' ?_ ?_ ?_ ?_

end Sys2Proof.Machine
end

