-- ==== Sys2Proof/Laws/Billets.lean ====
section
/-! SUPPORT. What each operation of Machine/Billets.lean keeps (`Kept`). -/

set_option linter.unusedTactic false
set_option linter.unreachableTactic false

namespace Sys2Proof.Machine

theorem btTrack_kept {s₀ : State} {f0 : Nat} {s : State} (hK : Kept s₀ s) : Kept s₀ (btTrack f0 s) := by
  unfold btTrack
  repeat' first
      | (with_reducible first | assumption | apply Kept.foldl | rfl) | (intro _) | with_reducible apply Kept.ite
      | split | with_reducible refine Kept.mk' ?_ ?_ ?_ ?_

theorem btPlace_kept {s₀ : State} {id : Nat} {b : Billet} {s : State} (hK : Kept s₀ s) : Kept s₀ (btPlace s id b) := by
  unfold btPlace
  repeat' first
      | (with_reducible first | assumption | apply btTrack_kept | apply Kept.foldl | rfl) | (intro _)
      | with_reducible apply Kept.ite | split | with_reducible refine Kept.mk' ?_ ?_ ?_ ?_

theorem draw_kept2 {s₀ : State} {k : BilletClass} {o : Owner} {parent : Option Nat} {prov : Bool} {w : Work} {s :
    State} (hK : Kept s₀ s) : Kept s₀ (draw k o parent prov w s).2 := by
  unfold draw
  dsimp only
  repeat' first
      | (with_reducible first | assumption | apply btPlace_kept | apply btInt_kept | apply Kept.foldl | rfl)
      | (intro _) | with_reducible apply Kept.ite | split | with_reducible refine Kept.mk' ?_ ?_ ?_ ?_

theorem draw_kept {s₀ : State} {k : BilletClass} {o : Owner} {parent : Option Nat} {prov : Bool} {w : Work} {s :
    State} {p0 t} (hK : Kept s₀ s) (e : (draw k o parent prov w s) = (p0, t)) : Kept s₀ t := by
  have := draw_kept2 (k := k) (o := o) (parent := parent) (prov := prov) (w := w) hK
  rw [e] at this
  exact this

theorem retire_kept {s₀ : State} {id : Nat} {s : State} (hK : Kept s₀ s) : Kept s₀ (retire s id) := by
  unfold retire
  repeat' first
      | (with_reducible first | assumption | apply Kept.foldl | rfl) | (intro _) | with_reducible apply Kept.ite
      | split | with_reducible refine Kept.mk' ?_ ?_ ?_ ?_

theorem setUnitSt_kept {s₀ : State} {id : Nat} {x : BilletSt} {s : State} (hK : Kept s₀ s) : Kept s₀ (setUnitSt s
    id x) := by
  unfold setUnitSt
  repeat' first
      | (with_reducible first | assumption | apply Kept.foldl | rfl) | (intro _) | with_reducible apply Kept.ite
      | split | with_reducible refine Kept.mk' ?_ ?_ ?_ ?_

theorem setResume_kept {s₀ : State} {id n : Nat} {s : State} (hK : Kept s₀ s) : Kept s₀ (setResume s id n) := by
  unfold setResume
  repeat' first
      | (with_reducible first | assumption | apply Kept.foldl | rfl) | (intro _) | with_reducible apply Kept.ite
      | split | with_reducible refine Kept.mk' ?_ ?_ ?_ ?_

theorem setWork_kept {s₀ : State} {id : Nat} {w : Work} {s : State} (hK : Kept s₀ s) : Kept s₀ (setWork s id w) := by
  unfold setWork
  repeat' first
      | (with_reducible first | assumption | apply Kept.foldl | rfl) | (intro _) | with_reducible apply Kept.ite
      | split | with_reducible refine Kept.mk' ?_ ?_ ?_ ?_

end Sys2Proof.Machine
end

