-- ==== Sys2Proof/Laws/Otp.lean ====
section
/-! SUPPORT. What each operation of Machine/Otp.lean keeps (`Kept`). -/

set_option linter.unusedTactic false
set_option linter.unreachableTactic false

namespace Sys2Proof.Machine

theorem otpProg_kept {s₀ : State} {a : Nat} {bs : List Byte} {s : State} (h : Kept s₀ s) : Kept s₀ (otpProg s a bs) :=
  h.trans ⟨rfl, fun w => ⟨memOr_wf a bs w, memOr_keeps w a bs⟩, Nat.le_refl _, Nat.le_refl _, id, id, id⟩

theorem thermBit_kept {s₀ : State} {a c : Nat} {s : State} (hK : Kept s₀ s) : Kept s₀ (thermBit s a c) := by
  unfold thermBit
  repeat' first
      | (with_reducible first | assumption | apply otpProg_kept | apply Kept.foldl | rfl) | (intro _)
      | with_reducible apply Kept.ite | split | with_reducible refine Kept.mk' ?_ ?_ ?_ ?_

theorem arbProgram_kept {s₀ : State} {c n : Nat} {s : State} (hK : Kept s₀ s) : Kept s₀ (arbProgram s c n) := by
  unfold arbProgram
  repeat' first
      | (with_reducible first | assumption | apply thermBit_kept | apply Kept.foldl | rfl) | (intro _)
      | with_reducible apply Kept.ite | split | with_reducible refine Kept.mk' ?_ ?_ ?_ ?_

end Sys2Proof.Machine
end

