-- ==== Sys2Proof/Laws/HearthRam.lean ====
section
/-! SUPPORT. What each operation of Machine/HearthRam.lean keeps (`Kept`). -/

set_option linter.unusedTactic false
set_option linter.unreachableTactic false

namespace Sys2Proof.Machine

theorem ramWrite_kept {s₀ : State} {by_ : Option Core} {a : Nat} {bs : List Byte} {s : State} (hK : Kept s₀ s) :
    Kept s₀ (ramWrite s by_ a bs) :=
  hK.trans ⟨rfl, fun w => ⟨w, fun _ => BitVec.and_self⟩, Nat.le_refl _, Nat.le_refl _, memWrite_wf a bs, id, id⟩

theorem modDma_kept {s₀ : State} {k : Fin 16} {f : DmaCh → DmaCh} {s : State} (hK : Kept s₀ s) : Kept s₀ (modDma s
    k f) := by
  unfold modDma
  repeat' first
      | (with_reducible first | assumption | apply Kept.foldl | rfl) | (intro _) | with_reducible apply Kept.ite
      | split | with_reducible refine Kept.mk' ?_ ?_ ?_ ?_

theorem modCore_kept {s₀ : State} {c : Core} {f : CoreRt → CoreRt} {s : State} (hK : Kept s₀ s) : Kept s₀ (modCore
    s c f) := by
  unfold modCore
  repeat' first
      | (with_reducible first | assumption | apply Kept.foldl | rfl) | (intro _) | with_reducible apply Kept.ite
      | split | with_reducible refine Kept.mk' ?_ ?_ ?_ ?_

theorem ramSpoil_kept {s₀ : State} {a : Nat} {s : State} (hK : Kept s₀ s) : Kept s₀ (ramSpoil s a) := by
  unfold ramSpoil
  repeat' first
      | (with_reducible first | assumption | apply Kept.foldl | rfl) | (intro _) | with_reducible apply Kept.ite
      | split | with_reducible refine Kept.mk' ?_ ?_ ?_ ?_

end Sys2Proof.Machine
end

