-- ==== Sys2Proof/Laws/Record.lean ====
section
/-! SUPPORT. What each operation of Machine/Record.lean keeps (`Kept`). -/

set_option linter.unusedTactic false
set_option linter.unreachableTactic false

namespace Sys2Proof.Machine

theorem wdInt_kept {s₀ : State} {i : Nat} {s : State} (hK : Kept s₀ s) : Kept s₀ (wdInt s i) := by
  unfold wdInt
  repeat' first
      | (with_reducible first | assumption | apply Kept.foldl | rfl) | (intro _) | with_reducible apply Kept.ite
      | split | with_reducible refine Kept.mk' ?_ ?_ ?_ ?_

theorem wdResume_kept {s₀ s : State} (hK : Kept s₀ s) : Kept s₀ (wdResume s) := by
  unfold wdResume
  repeat' first
      | (with_reducible first | assumption | apply wdInt_kept | apply Kept.foldl | rfl) | (intro _)
      | with_reducible apply Kept.ite | split | with_reducible refine Kept.mk' ?_ ?_ ?_ ?_

theorem wdSuspend_kept {s₀ s : State} (hK : Kept s₀ s) : Kept s₀ (wdSuspend s) := by
  unfold wdSuspend
  repeat' first
      | (with_reducible first | assumption | apply Kept.foldl | rfl) | (intro _) | with_reducible apply Kept.ite
      | split | with_reducible refine Kept.mk' ?_ ?_ ?_ ?_

theorem ownErase_kept {s₀ : State} {a n : Nat} {s : State} (hK : Kept s₀ s) : Kept s₀ (ownErase s a n) := by
  unfold ownErase
  repeat' first
      | (with_reducible first
          | assumption | apply wdSuspend_kept | apply osErase_kept | apply wdResume_kept | apply Kept.foldl | rfl)
      | (intro _) | with_reducible apply Kept.ite | split | with_reducible refine Kept.mk' ?_ ?_ ?_ ?_

theorem recWrite_kept {s₀ : State} {base : Nat} {cur : Option Nat} {rec_ : List Byte} {s : State} (hK : Kept s₀ s)
    : Kept s₀ (recWrite s base cur rec_) := by
  unfold recWrite
  repeat' first
      | (with_reducible first | assumption | apply osProg_kept | apply ownErase_kept | apply Kept.foldl | rfl)
      | (intro _) | with_reducible apply Kept.ite | split | with_reducible refine Kept.mk' ?_ ?_ ?_ ?_

theorem eraseOldest_kept {s₀ s : State} (hK : Kept s₀ s) : Kept s₀ (eraseOldest s) := by
  unfold eraseOldest
  repeat' first
      | (with_reducible first | assumption | apply ownErase_kept | apply Kept.foldl | rfl) | (intro _)
      | with_reducible apply Kept.ite | split | with_reducible refine Kept.mk' ?_ ?_ ?_ ?_

theorem openPage_kept {s₀ : State} {src : Nat} {s : State} (hK : Kept s₀ s) : Kept s₀ (openPage s src) := by
  unfold openPage
  repeat' first
      | (with_reducible first | assumption | apply eraseOldest_kept | apply osProg_kept | apply Kept.foldl | rfl)
      | (intro _) | with_reducible apply Kept.ite | split | with_reducible refine Kept.mk' ?_ ?_ ?_ ?_

theorem logAppend_kept {s₀ : State} {src : Nat} {r : List Byte} {s : State} (hK : Kept s₀ s) : Kept s₀ (logAppend
    s src r) := by
  unfold logAppend
  repeat' first
      | (with_reducible first | assumption | apply osProg_kept | apply openPage_kept | apply Kept.foldl | rfl)
      | (intro _) | with_reducible apply Kept.ite | split | with_reducible refine Kept.mk' ?_ ?_ ?_ ?_

end Sys2Proof.Machine
end

