-- ==== Sys2Proof/Laws/Cache.lean ====
section
/-! SUPPORT. What each operation of Machine/Cache.lean keeps (`Kept`). -/

set_option linter.unusedTactic false
set_option linter.unreachableTactic false

namespace Sys2Proof.Machine

theorem freeFrame_kept {s₀ : State} {f : Nat} {s : State} (hK : Kept s₀ s) : Kept s₀ (freeFrame s f) := by
  unfold freeFrame
  repeat' first
      | (with_reducible first | assumption | apply Kept.foldl | rfl) | (intro _) | with_reducible apply Kept.ite
      | split | with_reducible refine Kept.mk' ?_ ?_ ?_ ?_

theorem setBank_kept {s₀ : State} {b : Nat} {k : BankId} {f : BankRt → BankRt} {s : State} (hK : Kept s₀ s) : Kept
    s₀ (setBank s b k f) := by
  unfold setBank
  repeat' first
      | (with_reducible first | assumption | apply Kept.foldl | rfl) | (intro _) | with_reducible apply Kept.ite
      | split | with_reducible refine Kept.mk' ?_ ?_ ?_ ?_

theorem stashCheck_kept {s₀ : State} {f : Nat} {data : List Byte} {s : State} (hK : Kept s₀ s) : Kept s₀
    (stashCheck s f data) := by
  unfold stashCheck
  repeat' first
      | (with_reducible first | assumption | apply Kept.foldl | rfl) | (intro _) | with_reducible apply Kept.ite
      | split | with_reducible refine Kept.mk' ?_ ?_ ?_ ?_

theorem freeFrames_kept {s₀ : State} {p : Frame → Bool} {s : State} (hK : Kept s₀ s) : Kept s₀ (freeFrames s p) := by
  unfold freeFrames
  repeat' first
      | (with_reducible first | assumption | apply stashCheck_kept | apply freeFrame_kept | apply Kept.foldl | rfl)
      | (intro _) | with_reducible apply Kept.ite | split | with_reducible refine Kept.mk' ?_ ?_ ?_ ?_

theorem clistDrop_kept {s₀ : State} {p : ClinkerEnt → Bool} {s : State} (hK : Kept s₀ s) : Kept s₀ (clistDrop s p) := by
  unfold clistDrop
  repeat' first
      | (with_reducible first | assumption | apply Kept.foldl | rfl) | (intro _) | with_reducible apply Kept.ite
      | split | with_reducible refine Kept.mk' ?_ ?_ ?_ ?_

theorem takeFrame_kept {s₀ : State} {f : Nat} {id : EmberId} {pf : Bool} {s : State} (hK : Kept s₀ s) : Kept s₀
    (takeFrame s f id pf) := by
  unfold takeFrame
  repeat' first
      | (with_reducible first | assumption | apply Kept.foldl | rfl) | (intro _) | with_reducible apply Kept.ite
      | split | with_reducible refine Kept.mk' ?_ ?_ ?_ ?_

theorem nodeDrop_kept {s₀ : State} {p : NodeEnt → Bool} {s : State} (hK : Kept s₀ s) : Kept s₀ (nodeDrop s p) := by
  unfold nodeDrop
  repeat' first
      | (with_reducible first | assumption | apply Kept.foldl | rfl) | (intro _) | with_reducible apply Kept.ite
      | split | with_reducible refine Kept.mk' ?_ ?_ ?_ ?_

theorem setFrame_kept {s₀ : State} {f : Nat} {g : Frame → Frame} {s : State} (hK : Kept s₀ s) : Kept s₀ (setFrame
    s f g) := by
  unfold setFrame
  repeat' first
      | (with_reducible first | assumption | apply Kept.foldl | rfl) | (intro _) | with_reducible apply Kept.ite
      | split | with_reducible refine Kept.mk' ?_ ?_ ?_ ?_

theorem touchFrame_kept {s₀ : State} {f : Nat} {s : State} (hK : Kept s₀ s) : Kept s₀ (touchFrame s f) := by
  unfold touchFrame
  repeat' first
      | (with_reducible first | assumption | apply Kept.foldl | rfl) | (intro _) | with_reducible apply Kept.ite
      | split | with_reducible refine Kept.mk' ?_ ?_ ?_ ?_

theorem nodePut_kept {s₀ : State} {b : Nat} {bk : BankId} {lv i : Nat} {d : Digest} {pin : Bool} {s : State} (hK :
    Kept s₀ s) : Kept s₀ (nodePut s b bk lv i d pin) := by
  unfold nodePut
  repeat' first
      | (with_reducible first | assumption | apply Kept.foldl | rfl) | (intro _) | with_reducible apply Kept.ite
      | split | with_reducible refine Kept.mk' ?_ ?_ ?_ ?_

theorem nodeTouch_kept {s₀ : State} {b : Nat} {bk : BankId} {lv i : Nat} {s : State} (hK : Kept s₀ s) : Kept s₀
    (nodeTouch s b bk lv i) := by
  unfold nodeTouch
  repeat' first
      | (with_reducible first | assumption | apply Kept.foldl | rfl) | (intro _) | with_reducible apply Kept.ite
      | split | with_reducible refine Kept.mk' ?_ ?_ ?_ ?_

end Sys2Proof.Machine
end

