-- ==== Sys2Proof/Laws/HashBank.lean ====
section
/-! SUPPORT. What each operation of Machine/HashBank.lean keeps (`Kept`). -/

set_option linter.unusedTactic false
set_option linter.unreachableTactic false

namespace Sys2Proof.Machine

theorem aesStart_kept {s₀ : State} {e : Fin 2} {j : HashJob} {s : State} (hK : Kept s₀ s) : Kept s₀ (aesStart s e
    j) := by
  unfold aesStart
  repeat' first
      | (with_reducible first | assumption | apply setUnitSt_kept | apply Kept.foldl | rfl) | (intro _)
      | with_reducible apply Kept.ite | split | with_reducible refine Kept.mk' ?_ ?_ ?_ ?_

theorem aesGrant_kept {s₀ : State} {a1 : Nat} {a2 : State} (hK : Kept s₀ a2) : Kept s₀ (aesGrant a1 a2) := by
  induction a1 generalizing a2 with
  | zero =>
    unfold aesGrant
    repeat' first
        | (with_reducible first | assumption | apply aesStart_kept | apply Kept.foldl | rfl) | (intro _)
        | with_reducible apply Kept.ite | split | with_reducible refine Kept.mk' ?_ ?_ ?_ ?_
  | succ _ ih =>
    unfold aesGrant
    repeat' first
        | with_reducible apply ih | (with_reducible first
            | assumption | apply aesStart_kept | apply Kept.foldl | rfl)
        | (intro _) | with_reducible apply Kept.ite | split | with_reducible refine Kept.mk' ?_ ?_ ?_ ?_

theorem aesDrop_kept {s₀ : State} {id : Nat} {s : State} (hK : Kept s₀ s) : Kept s₀ (aesDrop s id) := by
  unfold aesDrop
  repeat' first
      | (with_reducible first | assumption | apply aesGrant_kept | apply Kept.foldl | rfl) | (intro _)
      | with_reducible apply Kept.ite | split | with_reducible refine Kept.mk' ?_ ?_ ?_ ?_

theorem ageRings_kept {s₀ s : State} (hK : Kept s₀ s) : Kept s₀ (ageRings s) := by
  unfold ageRings
  repeat' first
      | (with_reducible first | assumption | apply Kept.foldl | rfl) | (intro _) | with_reducible apply Kept.ite
      | split | with_reducible refine Kept.mk' ?_ ?_ ?_ ?_

theorem setRing_kept {s₀ : State} {t : Nat} {a : Arb} {s : State} (hK : Kept s₀ s) : Kept s₀ (setRing s t a) := by
  unfold setRing
  repeat' first
      | (with_reducible first | assumption | apply Kept.foldl | rfl) | (intro _) | with_reducible apply Kept.ite
      | split | with_reducible refine Kept.mk' ?_ ?_ ?_ ?_

theorem hashPick_kept {s₀ s : State} {p0 p1 t} (hK : Kept s₀ s)
    (e : hashPick s = some (p0, p1, t)) : Kept s₀ t := by
  unfold hashPick at e
  dsimp only at e
  repeat' split at e
  all_goals simp only [Option.some.injEq, Prod.mk.injEq, reduceCtorEq] at e
  all_goals obtain ⟨_, _, rfl⟩ := e
  · exact Kept.mk' hK rfl rfl rfl
  · exact setRing_kept (ageRings_kept hK)

theorem slotTo_kept {s₀ : State} {id : EmberId} {st : SlotSt} {s : State} (hK : Kept s₀ s) : Kept s₀ (slotTo s id
    st) := by
  unfold slotTo
  repeat' first
      | (with_reducible first | assumption | apply modCh_kept | apply Kept.foldl | rfl) | (intro _)
      | with_reducible apply Kept.ite | split | with_reducible refine Kept.mk' ?_ ?_ ?_ ?_

theorem slotJob_kept {s₀ : State} {uid : Nat} {st : SlotSt} {s : State} (hK : Kept s₀ s) : Kept s₀ (slotJob s uid
    st) := by
  unfold slotJob
  repeat' first
      | (with_reducible first | assumption | apply slotTo_kept | apply Kept.foldl | rfl) | (intro _)
      | with_reducible apply Kept.ite | split | with_reducible refine Kept.mk' ?_ ?_ ?_ ?_

theorem hashStart_kept {s₀ : State} {e : Fin 12} {j : HashJob} {s : State} (hK : Kept s₀ s) : Kept s₀ (hashStart s
    e j) := by
  unfold hashStart
  repeat' first
      | (with_reducible first | assumption | apply setUnitSt_kept | apply slotJob_kept | apply Kept.foldl | rfl)
      | (intro _) | with_reducible apply Kept.ite | split | with_reducible refine Kept.mk' ?_ ?_ ?_ ?_

theorem hashGrant_kept {s₀ : State} {a1 : Nat} {a2 : State} (hK : Kept s₀ a2) : Kept s₀ (hashGrant a1 a2) := by
  induction a1 generalizing a2 with
  | zero =>
    unfold hashGrant
    repeat' first
        | (with_reducible first | assumption) | refine hashPick_kept ?_ (by with_reducible assumption)
        | (with_reducible first | apply hashStart_kept | apply Kept.foldl | rfl) | (intro _)
        | with_reducible apply Kept.ite | split | with_reducible refine Kept.mk' ?_ ?_ ?_ ?_
  | succ _ ih =>
    unfold hashGrant
    repeat' first
        | with_reducible apply ih | (with_reducible first | assumption)
        | refine hashPick_kept ?_ (by with_reducible assumption)
        | (with_reducible first | apply hashStart_kept | apply Kept.foldl | rfl) | (intro _)
        | with_reducible apply Kept.ite | split | with_reducible refine Kept.mk' ?_ ?_ ?_ ?_

theorem hashDrop_kept {s₀ : State} {id : Nat} {s : State} (hK : Kept s₀ s) : Kept s₀ (hashDrop s id) := by
  unfold hashDrop
  repeat' first
      | (with_reducible first | assumption | apply hashGrant_kept | apply Kept.foldl | rfl) | (intro _)
      | with_reducible apply Kept.ite | split | with_reducible refine Kept.mk' ?_ ?_ ?_ ?_

theorem hashPut_kept {s₀ : State} {tier id cost : Nat} {o : Owner} {s : State} (hK : Kept s₀ s) : Kept s₀ (hashPut
    s tier id cost o) := by
  unfold hashPut
  repeat' first
      | (with_reducible first | assumption | apply setRing_kept | apply Kept.foldl | rfl) | (intro _)
      | with_reducible apply Kept.ite | split | with_reducible refine Kept.mk' ?_ ?_ ?_ ?_

theorem treeRoll_kept {s₀ s : State} (hK : Kept s₀ s) : Kept s₀ (treeRoll s) := by
  unfold treeRoll
  repeat' first
      | (with_reducible first | assumption | apply Kept.foldl | rfl) | (intro _) | with_reducible apply Kept.ite
      | split | with_reducible refine Kept.mk' ?_ ?_ ?_ ?_

theorem hashJobs_kept {s₀ : State} {tier id : Nat} {costs : List Nat} {o : Owner} {s : State} (hK : Kept s₀ s) :
    Kept s₀ (hashJobs s tier id costs o) := by
  unfold hashJobs
  repeat' first
      | (with_reducible first
          | assumption | apply setUnitSt_kept | apply treeRoll_kept | apply hashPut_kept | apply hashGrant_kept
          | apply Kept.foldl | rfl)
      | (intro _) | with_reducible apply Kept.ite | split | with_reducible refine Kept.mk' ?_ ?_ ?_ ?_

theorem hashEnq_kept {s₀ : State} {tier id cost : Nat} {o : Owner} {s : State} (hK : Kept s₀ s) : Kept s₀ (hashEnq
    s tier id cost o) := by
  unfold hashEnq
  repeat' first
      | (with_reducible first | assumption | apply hashJobs_kept | apply Kept.foldl | rfl) | (intro _)
      | with_reducible apply Kept.ite | split | with_reducible refine Kept.mk' ?_ ?_ ?_ ?_

theorem aesEnq_kept {s₀ : State} {id cost : Nat} {o : Owner} {s : State} (hK : Kept s₀ s) : Kept s₀ (aesEnq s id
    cost o) := by
  unfold aesEnq
  repeat' first
      | (with_reducible first | assumption | apply aesGrant_kept | apply setUnitSt_kept | apply Kept.foldl | rfl)
      | (intro _) | with_reducible apply Kept.ite | split | with_reducible refine Kept.mk' ?_ ?_ ?_ ?_

theorem dropWork_kept {s₀ : State} {w : Work} {s : State} (hK : Kept s₀ s) : Kept s₀ (dropWork s w) := by
  unfold dropWork
  repeat' first
      | (with_reducible first | assumption | apply hashDrop_kept | apply retire_kept | apply Kept.foldl | rfl)
      | (intro _) | with_reducible apply Kept.ite | split | with_reducible refine Kept.mk' ?_ ?_ ?_ ?_

theorem hashRaise_kept {s₀ : State} {id : Nat} {s : State} (hK : Kept s₀ s) : Kept s₀ (hashRaise s id) := by
  unfold hashRaise
  repeat' first
      | (with_reducible first | assumption | apply Kept.foldl | rfl) | (intro _) | with_reducible apply Kept.ite
      | split | with_reducible refine Kept.mk' ?_ ?_ ?_ ?_

theorem hashEnd_kept {s₀ : State} {e : Fin 12} {s : State} (hK : Kept s₀ s) : Kept s₀ (hashEnd s e) := by
  unfold hashEnd
  repeat' first
      | (with_reducible first
          | assumption | apply reachTime_kept | apply hashGrant_kept | apply treeRoll_kept | apply Kept.foldl | rfl)
      | (intro _) | with_reducible apply Kept.ite | split | with_reducible refine Kept.mk' ?_ ?_ ?_ ?_

theorem preemptAt_kept {s₀ : State} {e : Fin 12} {s : State} (hK : Kept s₀ s) : Kept s₀ (preemptAt s e) := by
  unfold preemptAt
  repeat' first
      | (with_reducible first | assumption | apply setRing_kept | apply hashStart_kept | apply reachTime_kept)
      | refine hashPick_kept ?_ (by with_reducible assumption)
      | (with_reducible first | apply slotJob_kept | apply Kept.foldl | rfl) | (intro _)
      | with_reducible apply Kept.ite | split | with_reducible refine Kept.mk' ?_ ?_ ?_ ?_

theorem aesEnd_kept {s₀ : State} {e : Fin 2} {s : State} (hK : Kept s₀ s) : Kept s₀ (aesEnd s e) := by
  unfold aesEnd
  repeat' first
      | (with_reducible first | assumption | apply reachTime_kept | apply aesGrant_kept | apply Kept.foldl | rfl)
      | (intro _) | with_reducible apply Kept.ite | split | with_reducible refine Kept.mk' ?_ ?_ ?_ ?_

theorem unitDone_kept {s₀ : State} {id n : Nat} {s t : State} (hK : Kept s₀ s) (e : unitDone id n s = some t) :
    Kept s₀ t := by
  induction n generalizing s with
  | zero =>
    simp only [unitDone, Option.ite_none_right_eq_some, Option.some.injEq] at e
    exact e.2 ▸ hK
  | succ n ih =>
    unfold unitDone at e
    split at e
    · exact ih (hashEnd_kept hK) e
    · simp only [Option.ite_none_right_eq_some, Option.some.injEq] at e
      exact e.2 ▸ hK

theorem aesDone_kept {s₀ : State} {id : Nat} {s : State} {t} (hK : Kept s₀ s) (e : (aesDone id s) = some t) : Kept
    s₀ t := by
  unfold aesDone at e
  repeat' split at e
  all_goals (cases e)
  all_goals (repeat' first
      | (with_reducible first | assumption | apply aesEnd_kept | apply Kept.foldl | rfl) | (intro _)
      | with_reducible apply Kept.ite | split | with_reducible refine Kept.mk' ?_ ?_ ?_ ?_)

end Sys2Proof.Machine
end

