-- ==== Sys2Proof/Laws/FlashPort.lean ====
section
/-! SUPPORT. What each operation of Machine/FlashPort.lean keeps (`Kept`). -/

set_option linter.unusedTactic false
set_option linter.unreachableTactic false

namespace Sys2Proof.Machine

theorem bankUndo_kept {s₀ : State} {b : Nat} {bk : BankId} {stage : Bool} {s : State} (hK : Kept s₀ s) : Kept s₀
    (bankUndo s b bk stage) := by
  unfold bankUndo
  repeat' first
      | (with_reducible first | assumption | apply setBank_kept | apply Kept.foldl | rfl) | (intro _)
      | with_reducible apply Kept.ite | split | with_reducible refine Kept.mk' ?_ ?_ ?_ ?_

theorem osCut_kept {s₀ : State} {id : Nat} {s : State} (hK : Kept s₀ s) : Kept s₀ (osCut s id) := by
  unfold osCut
  repeat' first
      | (with_reducible first | assumption | apply Kept.foldl | rfl) | (intro _) | with_reducible apply Kept.ite
      | split | with_reducible refine Kept.mk' ?_ ?_ ?_ ?_

theorem dropUnit_kept {s₀ : State} {id : Nat} {s : State} (hK : Kept s₀ s) : Kept s₀ (dropUnit s id) := by
  unfold dropUnit
  repeat' first
      | (with_reducible first
          | assumption | apply bankUndo_kept | apply aesDrop_kept | apply osCut_kept | apply hashDrop_kept
          | apply freeFrame_kept | apply retire_kept | apply Kept.foldl | rfl)
      | (intro _) | with_reducible apply Kept.ite | split | with_reducible refine Kept.mk' ?_ ?_ ?_ ?_

theorem squash_kept {s₀ : State} {ids : List Nat} {s : State} (hK : Kept s₀ s) : Kept s₀ (squash s ids) := by
  unfold squash
  repeat' first
      | (with_reducible first | assumption | apply dropUnit_kept | apply Kept.foldl | rfl) | (intro _)
      | with_reducible apply Kept.ite | split | with_reducible refine Kept.mk' ?_ ?_ ?_ ?_

theorem noteResume_kept {s₀ : State} {p : Ch} {a : Access} {s : State} (hK : Kept s₀ s) : Kept s₀ (noteResume s p
    a) := by
  unfold noteResume
  repeat' first
      | (with_reducible first | assumption | apply setResume_kept | apply Kept.foldl | rfl) | (intro _)
      | with_reducible apply Kept.ite | split | with_reducible refine Kept.mk' ?_ ?_ ?_ ?_

theorem cutPort_kept {s₀ : State} {p : Ch} {byHost : Bool} {s : State} (hK : Kept s₀ s) : Kept s₀ (cutPort s p
    byHost) := by
  unfold cutPort
  repeat' first
      | (with_reducible first
          | assumption | apply setUnitSt_kept | apply modPort_kept | apply noteResume_kept | apply Kept.foldl | rfl)
      | (intro _) | with_reducible apply Kept.ite | split | with_reducible refine Kept.mk' ?_ ?_ ?_ ?_

theorem portEnq_kept {s₀ : State} {p : Ch} {id : Nat} {demand : Bool} {s : State} (hK : Kept s₀ s) : Kept s₀
    (portEnq s p id demand) := by
  unfold portEnq
  repeat' first
      | (with_reducible first
          | assumption | apply setUnitSt_kept | apply modPort_kept | apply cutPort_kept | apply Kept.foldl | rfl)
      | (intro _) | with_reducible apply Kept.ite | split | with_reducible refine Kept.mk' ?_ ?_ ?_ ?_

theorem portStart_kept {s₀ : State} {p : Ch} {i : QItem} {k : AccKind} {head aged : Bool} {s : State} (hK : Kept
    s₀ s) : Kept s₀ (portStart s p i k head aged) := by
  unfold portStart
  repeat' first
      | (with_reducible first | assumption | apply setUnitSt_kept | apply modPort_kept | apply Kept.foldl | rfl)
      | (intro _) | with_reducible apply Kept.ite | split | with_reducible refine Kept.mk' ?_ ?_ ?_ ?_

theorem portFollow_kept {s₀ : State} {p : Ch} {x : PortSample} {s : State} (hK : Kept s₀ s) : Kept s₀ (portFollow
    s p x) := by
  unfold portFollow
  repeat' first
      | (with_reducible first | assumption | apply modPort_kept | apply portStart_kept | apply Kept.foldl | rfl)
      | (intro _) | with_reducible apply Kept.ite | split | with_reducible refine Kept.mk' ?_ ?_ ?_ ?_

theorem portNext_kept {s₀ : State} {p : Ch} {s : State} (hK : Kept s₀ s) : Kept s₀ (portNext s p) := by
  unfold portNext
  repeat' first
      | (with_reducible first
          | assumption | apply reachTime_kept | apply portStart_kept | apply modPort_kept | apply Kept.foldl | rfl)
      | (intro _) | with_reducible apply Kept.ite | split | with_reducible refine Kept.mk' ?_ ?_ ?_ ?_

theorem portGrant_kept {s₀ : State} {p : Ch} {seen : Option PortSample} {s : State} (hK : Kept s₀ s) : Kept s₀
    (portGrant s p seen) := by
  unfold portGrant
  repeat' first
      | (with_reducible first | assumption | apply portFollow_kept | apply portNext_kept | apply Kept.foldl | rfl)
      | (intro _) | with_reducible apply Kept.ite | split | with_reducible refine Kept.mk' ?_ ?_ ?_ ?_

end Sys2Proof.Machine
end

