-- ==== Sys2Proof/Laws/Fill.lean ====
section
/-! SUPPORT. What each operation of Machine/Fill.lean keeps (`Kept`). -/

set_option linter.unusedTactic false
set_option linter.unreachableTactic false

namespace Sys2Proof.Machine

theorem closeSlot_kept {s₀ : State} {c : Ch} {x : ProvSlot} {kind resp reason : Nat} {s : State} (hK : Kept s₀ s)
    : Kept s₀ (closeSlot s c x kind resp reason) := by
  unfold closeSlot
  repeat' first
      | (with_reducible first
          | assumption | apply modCh_kept | apply veRecordReserved_kept | apply retire_kept | apply Kept.foldl | rfl)
      | (intro _) | with_reducible apply Kept.ite | split | with_reducible refine Kept.mk' ?_ ?_ ?_ ?_

theorem abandonSlot_kept {s₀ : State} {c : Ch} {x : ProvSlot} {s : State} (hK : Kept s₀ s) : Kept s₀ (abandonSlot
    s c x) := by
  unfold abandonSlot
  repeat' first
      | (with_reducible first
          | assumption | apply modCh_kept | apply closeSlot_kept | apply veInt_kept | apply Kept.foldl | rfl)
      | (intro _) | with_reducible apply Kept.ite | split | with_reducible refine Kept.mk' ?_ ?_ ?_ ?_

theorem squashFills_kept {s₀ : State} {c : Ch} {p : EmberId → Bool} {s : State} (hK : Kept s₀ s) : Kept s₀
    (squashFills s c p) := by
  unfold squashFills
  repeat' first
      | (with_reducible first | assumption | apply squash_kept | apply abandonSlot_kept | apply Kept.foldl | rfl)
      | (intro _) | with_reducible apply Kept.ite | split | with_reducible refine Kept.mk' ?_ ?_ ?_ ?_

theorem repin_kept {s₀ : State} {c : Ch} {s : State} (hK : Kept s₀ s) : Kept s₀ (repin s c) := by
  unfold repin
  repeat' first
      | (with_reducible first | assumption | apply Kept.foldl | rfl) | (intro _) | with_reducible apply Kept.ite
      | split | with_reducible refine Kept.mk' ?_ ?_ ?_ ?_

theorem setStrict_kept {s₀ : State} {c : Ch} {i : Fin 64} {f : StrictRt → StrictRt} {s : State} (hK : Kept s₀ s) :
    Kept s₀ (setStrict s c i f) := by
  unfold setStrict
  repeat' first
      | (with_reducible first | assumption | apply modCh_kept | apply Kept.foldl | rfl) | (intro _)
      | with_reducible apply Kept.ite | split | with_reducible refine Kept.mk' ?_ ?_ ?_ ?_

theorem strictPend_kept {s₀ : State} {c : Ch} {p : Fin 64 → Bool} {s : State} (hK : Kept s₀ s) : Kept s₀
    (strictPend s c p) := by
  unfold strictPend
  repeat' first
      | (with_reducible first | assumption | apply setStrict_kept | apply Kept.foldl | rfl) | (intro _)
      | with_reducible apply Kept.ite | split | with_reducible refine Kept.mk' ?_ ?_ ?_ ?_

theorem startCheck_kept {s₀ : State} {f : Option Nat} {id : EmberId} {data : List Byte} {s : State} (hK : Kept s₀
    s) : Kept s₀ (startCheck s f id data) := by
  unfold startCheck
  repeat' first
      | (with_reducible first | assumption | apply draw_kept2) | refine draw_kept ?_ (by with_reducible assumption)
      | (with_reducible first | apply hashEnq_kept | apply Kept.foldl | rfl) | (intro _)
      | with_reducible apply Kept.ite | split | with_reducible refine Kept.mk' ?_ ?_ ?_ ?_

theorem pumpChecks_kept {s₀ : State} {c : Ch} {s : State} (hK : Kept s₀ s) : Kept s₀ (pumpChecks s c) := by
  unfold pumpChecks
  repeat' first
      | (with_reducible first | assumption | apply startCheck_kept | apply Kept.foldl | rfl) | (intro _)
      | with_reducible apply Kept.ite | split | with_reducible refine Kept.mk' ?_ ?_ ?_ ?_

theorem unitRead_kept {s₀ : State} {up : Nat} {e : EmberId} {s : State} (hK : Kept s₀ s) : Kept s₀ (unitRead s up
    e) := by
  unfold unitRead
  repeat' first
      | (with_reducible first | assumption | apply portEnq_kept | apply draw_kept2)
      | refine draw_kept ?_ (by with_reducible assumption)
      | (with_reducible first | apply setUnitSt_kept | apply Kept.foldl | rfl) | (intro _)
      | with_reducible apply Kept.ite | split | with_reducible refine Kept.mk' ?_ ?_ ?_ ?_

theorem startAnchor_kept {s₀ : State} {b : Binding} {bk : BankId} {re : Bool} {s : State} (hK : Kept s₀ s) : Kept
    s₀ (startAnchor s b bk re) := by
  unfold startAnchor
  repeat' first
      | (with_reducible first | assumption | apply setBank_kept | apply unitRead_kept | apply draw_kept2)
      | refine draw_kept ?_ (by with_reducible assumption) | (with_reducible first | apply Kept.foldl | rfl)
      | (intro _) | with_reducible apply Kept.ite | split | with_reducible refine Kept.mk' ?_ ?_ ?_ ?_

theorem pumpAnchor_kept {s₀ : State} {c : Ch} {s : State} (hK : Kept s₀ s) : Kept s₀ (pumpAnchor s c) := by
  unfold pumpAnchor
  repeat' first
      | (with_reducible first | assumption | apply startAnchor_kept | apply Kept.foldl | rfl) | (intro _)
      | with_reducible apply Kept.ite | split | with_reducible refine Kept.mk' ?_ ?_ ?_ ?_

theorem issueFill_kept2 {s₀ : State} {id : EmberId} {why : FillWhy} {maxStep : Nat} {s : State} (hK : Kept s₀ s) :
    Kept s₀ (issueFill s id why maxStep).2 := by
  unfold issueFill
  dsimp only
  repeat' first
      | (with_reducible first
          | assumption | apply modCh_kept | apply takeFrame_kept | apply portEnq_kept | apply freeFrame_kept
          | apply draw_kept2)
      | refine draw_kept ?_ (by with_reducible assumption)
      | (with_reducible first | apply ecInt_kept | apply ecRecord_kept | apply Kept.foldl | rfl) | (intro _)
      | with_reducible apply Kept.ite | split | with_reducible refine Kept.mk' ?_ ?_ ?_ ?_

theorem issueFill_kept {s₀ : State} {id : EmberId} {why : FillWhy} {maxStep : Nat} {s : State} {p0 t} (hK : Kept
    s₀ s) (e : (issueFill s id why maxStep) = (p0, t)) : Kept s₀ t := by
  have := issueFill_kept2 (id := id) (why := why) (maxStep := maxStep) hK
  rw [e] at this
  exact this

theorem pumpStrictRgn_kept {s₀ : State} {c : Ch} {i : Fin 64} {s : State} (hK : Kept s₀ s) : Kept s₀
    (pumpStrictRgn s c i) := by
  unfold pumpStrictRgn
  repeat' first
      | (with_reducible first | assumption | apply setStrict_kept | apply issueFill_kept2)
      | refine issueFill_kept ?_ (by with_reducible assumption) | (with_reducible first | apply Kept.foldl | rfl)
      | (intro _) | with_reducible apply Kept.ite | split | with_reducible refine Kept.mk' ?_ ?_ ?_ ?_

theorem pumpStrict_kept {s₀ : State} {c : Ch} {s : State} (hK : Kept s₀ s) : Kept s₀ (pumpStrict s c) := by
  unfold pumpStrict
  repeat' first
      | (with_reducible first | assumption | apply pumpStrictRgn_kept | apply Kept.foldl | rfl) | (intro _)
      | with_reducible apply Kept.ite | split | with_reducible refine Kept.mk' ?_ ?_ ?_ ?_

theorem strictClose_kept {s₀ : State} {c : Ch} {i : Fin 64} {s : State} (hK : Kept s₀ s) : Kept s₀ (strictClose s
    c i) := by
  unfold strictClose
  repeat' first
      | (with_reducible first | assumption | apply setStrict_kept | apply Kept.foldl | rfl) | (intro _)
      | with_reducible apply Kept.ite | split | with_reducible refine Kept.mk' ?_ ?_ ?_ ?_

theorem pumpLeaf_kept {s₀ : State} {c : Ch} {s : State} (hK : Kept s₀ s) : Kept s₀ (pumpLeaf s c) := by
  unfold pumpLeaf
  repeat' first
      | (with_reducible first | assumption | apply unitRead_kept | apply draw_kept2)
      | refine draw_kept ?_ (by with_reducible assumption) | (with_reducible first | apply Kept.foldl | rfl)
      | (intro _) | with_reducible apply Kept.ite | split | with_reducible refine Kept.mk' ?_ ?_ ?_ ?_

theorem pumpFollow_kept {s₀ : State} {c : Ch} {s : State} (hK : Kept s₀ s) : Kept s₀ (pumpFollow s c) := by
  unfold pumpFollow
  repeat' first
      | (with_reducible first | assumption | apply issueFill_kept2)
      | refine issueFill_kept ?_ (by with_reducible assumption) | (with_reducible first | apply Kept.foldl | rfl)
      | (intro _) | with_reducible apply Kept.ite | split | with_reducible refine Kept.mk' ?_ ?_ ?_ ?_

theorem preStep_kept {s₀ : State} {c : Ch} {v : Nat} {s : State} (hK : Kept s₀ s) : Kept s₀ (preStep s c v) := by
  unfold preStep
  repeat' first
      | (with_reducible first | assumption | apply modCh_kept | apply issueFill_kept2)
      | refine issueFill_kept ?_ (by with_reducible assumption) | (with_reducible first | apply Kept.foldl | rfl)
      | (intro _) | with_reducible apply Kept.ite | split | with_reducible refine Kept.mk' ?_ ?_ ?_ ?_

theorem preWalk_kept {s₀ : State} {c : Ch} {a1 : Nat} {a2 : State} (hK : Kept s₀ a2) : Kept s₀ (preWalk c a1 a2) := by
  induction a1 generalizing a2 with
  | zero =>
    unfold preWalk
    repeat' first
        | (with_reducible first | assumption | apply modCh_kept | apply preStep_kept | apply Kept.foldl | rfl)
        | (intro _) | with_reducible apply Kept.ite | split | with_reducible refine Kept.mk' ?_ ?_ ?_ ?_
  | succ _ ih =>
    unfold preWalk
    repeat' first
        | with_reducible apply ih | (with_reducible first
            | assumption | apply modCh_kept | apply preStep_kept | apply Kept.foldl | rfl)
        | (intro _) | with_reducible apply Kept.ite | split | with_reducible refine Kept.mk' ?_ ?_ ?_ ?_

theorem pumpPre_kept {s₀ : State} {c : Ch} {s : State} (hK : Kept s₀ s) : Kept s₀ (pumpPre s c) := by
  unfold pumpPre
  repeat' first
      | (with_reducible first | assumption | apply preWalk_kept | apply Kept.foldl | rfl) | (intro _)
      | with_reducible apply Kept.ite | split | with_reducible refine Kept.mk' ?_ ?_ ?_ ?_

theorem pumpCh_kept {s₀ : State} {c : Ch} {s : State} (hK : Kept s₀ s) : Kept s₀ (pumpCh s c) := by
  unfold pumpCh
  repeat' first
      | (with_reducible first
          | assumption | apply pumpAnchor_kept | apply pumpStrict_kept | apply pumpChecks_kept | apply pumpPre_kept
          | apply strictClose_kept | apply pumpLeaf_kept | apply pumpFollow_kept | apply Kept.foldl | rfl)
      | (intro _) | with_reducible apply Kept.ite | split | with_reducible refine Kept.mk' ?_ ?_ ?_ ?_

theorem openSlot_kept {s₀ : State} {id : EmberId} {i : Fin 64} {billet : Nat} {s : State} (hK : Kept s₀ s) : Kept
    s₀ (openSlot s id i billet) := by
  unfold openSlot
  repeat' first
      | (with_reducible first
          | assumption | apply modCh_kept | apply hashRaise_kept | apply evLowSet_kept | apply Kept.foldl | rfl)
      | (intro _) | with_reducible apply Kept.ite | split | with_reducible refine Kept.mk' ?_ ?_ ?_ ?_

theorem joinSlot_kept {s₀ : State} {id : EmberId} {i : Fin 64} {s : State} {p0 t} (hK : Kept s₀ s) (e : (joinSlot
    s id i) = some (p0, t)) : Kept s₀ t := by
  unfold joinSlot at e
  repeat' split at e
  all_goals (cases e)
  all_goals (repeat' first
      | (with_reducible first | assumption | apply openSlot_kept | apply draw_kept2)
      | refine draw_kept ?_ (by with_reducible assumption) | (with_reducible first | apply Kept.foldl | rfl)
      | (intro _) | with_reducible apply Kept.ite | split | with_reducible refine Kept.mk' ?_ ?_ ?_ ?_)

theorem portServe_kept {s₀ : State} {p : Ch} {seen : Option PortSample} {s : State} (hK : Kept s₀ s) : Kept s₀
    (portServe s p seen) := by
  unfold portServe
  repeat' first
      | (with_reducible first | assumption | apply portGrant_kept | apply issueFill_kept2)
      | refine issueFill_kept ?_ (by with_reducible assumption) | (with_reducible first | apply Kept.foldl | rfl)
      | (intro _) | with_reducible apply Kept.ite | split | with_reducible refine Kept.mk' ?_ ?_ ?_ ?_

end Sys2Proof.Machine
end

