-- ==== Sys2Proof/Laws/Gate.lean ====
section
/-! SUPPORT. What each operation of Machine/Gate.lean keeps (`Kept`). -/

set_option linter.unusedTactic false
set_option linter.unreachableTactic false

namespace Sys2Proof.Machine

theorem releaseLine_kept {s₀ : State} {n : Fin 32} {s : State} (hK : Kept s₀ s) : Kept s₀ (releaseLine s n) := by
  unfold releaseLine
  repeat' first
      | (with_reducible first | assumption | apply modCh_kept | apply sqRecord_kept | apply Kept.foldl | rfl)
      | (intro _) | with_reducible apply Kept.ite | split | with_reducible refine Kept.mk' ?_ ?_ ?_ ?_

theorem endTrace_kept {s₀ : State} {c : Ch} {how : Nat} {discard : Bool} {s : State} (hK : Kept s₀ s) : Kept s₀
    (endTrace s c how discard) := by
  unfold endTrace
  repeat' first
      | (with_reducible first | assumption | apply modCh_kept | apply Kept.foldl | rfl) | (intro _)
      | with_reducible apply Kept.ite | split | with_reducible refine Kept.mk' ?_ ?_ ?_ ?_

theorem setBset_kept {s₀ : State} {c : Ch} {i : Fin 15} {f : BsetRt → BsetRt} {s : State} (hK : Kept s₀ s) : Kept
    s₀ (setBset s c i f) := by
  unfold setBset
  repeat' first
      | (with_reducible first | assumption | apply modCh_kept | apply Kept.foldl | rfl) | (intro _)
      | with_reducible apply Kept.ite | split | with_reducible refine Kept.mk' ?_ ?_ ?_ ?_

theorem dropJournal_kept {s₀ : State} {c : Ch} {s : State} (hK : Kept s₀ s) : Kept s₀ (dropJournal s c) := by
  unfold dropJournal
  repeat' first
      | (with_reducible first | assumption | apply modCh_kept | apply Kept.foldl | rfl) | (intro _)
      | with_reducible apply Kept.ite | split | with_reducible refine Kept.mk' ?_ ?_ ?_ ?_

theorem applyGclr_kept {s₀ : State} {c : Ch} {i : Fin 15} {s : State} (hK : Kept s₀ s) : Kept s₀ (applyGclr s c i) := by
  unfold applyGclr
  repeat' first
      | (with_reducible first
          | assumption | apply modCh_kept | apply repin_kept | apply freeFrames_kept | apply strictPend_kept
          | apply squashFills_kept | apply dropJournal_kept | apply setBset_kept | apply ecInt_kept
          | apply ecRecord_kept | apply Kept.foldl | rfl)
      | (intro _) | with_reducible apply Kept.ite | split | with_reducible refine Kept.mk' ?_ ?_ ?_ ?_

theorem applyFlip_kept {s₀ : State} {c : Ch} {i : Fin 15} {s : State} (hK : Kept s₀ s) : Kept s₀ (applyFlip s c i) := by
  unfold applyFlip
  repeat' first
      | (with_reducible first
          | assumption | apply repin_kept | apply freeFrames_kept | apply setBank_kept | apply strictPend_kept
          | apply squashFills_kept | apply dropJournal_kept | apply clistDrop_kept | apply setBset_kept
          | apply ecInt_kept | apply ecRecord_kept | apply Kept.foldl | rfl)
      | (intro _) | with_reducible apply Kept.ite | split | with_reducible refine Kept.mk' ?_ ?_ ?_ ?_

theorem applyPending_kept {s₀ : State} {c : Ch} {s : State} (hK : Kept s₀ s) : Kept s₀ (applyPending s c) := by
  unfold applyPending
  repeat' first
      | (with_reducible first | assumption | apply applyFlip_kept | apply applyGclr_kept | apply Kept.foldl | rfl)
      | (intro _) | with_reducible apply Kept.ite | split | with_reducible refine Kept.mk' ?_ ?_ ?_ ?_

theorem assertLine_kept {s₀ : State} {n : Fin 32} {h : Nat} {s : State} (hK : Kept s₀ s) : Kept s₀ (assertLine s n
    h) := by
  unfold assertLine
  repeat' first
      | (with_reducible first
          | assumption | apply modCh_kept | apply applyPending_kept | apply sqRecord_kept | apply endTrace_kept
          | apply Kept.foldl | rfl)
      | (intro _) | with_reducible apply Kept.ite | split | with_reducible refine Kept.mk' ?_ ?_ ?_ ?_

theorem gateLine_kept {s₀ : State} {n : Fin 32} {s : State} (hK : Kept s₀ s) : Kept s₀ (gateLine s n) := by
  unfold gateLine
  repeat' first
      | (with_reducible first | assumption | apply assertLine_kept | apply releaseLine_kept | apply Kept.foldl | rfl)
      | (intro _) | with_reducible apply Kept.ite | split | with_reducible refine Kept.mk' ?_ ?_ ?_ ?_

theorem regate_kept {s₀ s : State} (hK : Kept s₀ s) : Kept s₀ (regate s) := by
  unfold regate
  repeat' first
      | (with_reducible first | assumption | apply gateLine_kept | apply Kept.foldl | rfl) | (intro _)
      | with_reducible apply Kept.ite | split | with_reducible refine Kept.mk' ?_ ?_ ?_ ?_

theorem settleAll_kept {s₀ s : State} (hK : Kept s₀ s) : Kept s₀ (settleAll s) := by
  unfold settleAll
  repeat' first
      | (with_reducible first
          | assumption | apply forCh_kept | apply pumpCh_kept | apply regate_kept | apply Kept.foldl | rfl)
      | (intro _) | with_reducible apply Kept.ite | split | with_reducible refine Kept.mk' ?_ ?_ ?_ ?_

theorem settle_kept {s₀ : State} {c : Ch} {s : State} (hK : Kept s₀ s) : Kept s₀ (settle s c) := by
  unfold settle
  repeat' first
      | (with_reducible first | assumption | apply pumpCh_kept | apply regate_kept | apply Kept.foldl | rfl)
      | (intro _) | with_reducible apply Kept.ite | split | with_reducible refine Kept.mk' ?_ ?_ ?_ ?_

theorem escRelease_kept {s₀ : State} {c : Ch} {s : State} (hK : Kept s₀ s) : Kept s₀ (escRelease s c) := by
  unfold escRelease
  repeat' first
      | (with_reducible first | assumption | apply modCh_kept | apply settle_kept | apply Kept.foldl | rfl)
      | (intro _) | with_reducible apply Kept.ite | split | with_reducible refine Kept.mk' ?_ ?_ ?_ ?_

theorem selectGolden_kept {s₀ : State} {c : Ch} {i : Fin 15} {s : State} (hK : Kept s₀ s) : Kept s₀ (selectGolden
    s c i) := by
  unfold selectGolden
  repeat' first
      | (with_reducible first
          | assumption | apply freeFrames_kept | apply ecInt_kept | apply repin_kept | apply ecRecord_kept
          | apply strictPend_kept | apply squashFills_kept | apply setBset_kept | apply applyGclr_kept
          | apply dropJournal_kept | apply applyFlip_kept | apply Kept.foldl | rfl)
      | (intro _) | with_reducible apply Kept.ite | split | with_reducible refine Kept.mk' ?_ ?_ ?_ ?_

theorem grAlert_kept {s₀ : State} {c : Ch} {s : State} (hK : Kept s₀ s) : Kept s₀ (grAlert s c) := by
  unfold grAlert
  repeat' first
      | (with_reducible first | assumption | apply Kept.foldl | rfl) | (intro _) | with_reducible apply Kept.ite
      | split | with_reducible refine Kept.mk' ?_ ?_ ?_ ?_

theorem escalate_kept {s₀ : State} {c : Ch} {desc : Option (Fin 64)} {opc : Bool} {s : State} (hK : Kept s₀ s) :
    Kept s₀ (escalate s c desc opc) := by
  unfold escalate
  repeat' first
      | (with_reducible first
          | assumption | apply modCh_kept | apply grAlert_kept | apply selectGolden_kept | apply settle_kept
          | apply Kept.foldl | rfl)
      | (intro _) | with_reducible apply Kept.ite | split | with_reducible refine Kept.mk' ?_ ?_ ?_ ?_

theorem escExpire_kept {s₀ : State} {c : Ch} {s : State} (hK : Kept s₀ s) : Kept s₀ (escExpire s c) := by
  unfold escExpire
  repeat' first
      | (with_reducible first
          | assumption | apply modCh_kept | apply reachTime_kept | apply settle_kept | apply Kept.foldl | rfl)
      | (intro _) | with_reducible apply Kept.ite | split | with_reducible refine Kept.mk' ?_ ?_ ?_ ?_

end Sys2Proof.Machine
end

