-- ==== Sys2Proof/Laws/Tally.lean ====
section
/-! SUPPORT. What each operation of Machine/Tally.lean keeps (`Kept`). -/

set_option linter.unusedTactic false
set_option linter.unreachableTactic false

namespace Sys2Proof.Machine

theorem pumpTally_kept {s₀ s : State} (hK : Kept s₀ s) : Kept s₀ (pumpTally s) := by
  unfold pumpTally
  repeat' first
      | (with_reducible first | assumption | apply draw_kept2) | refine draw_kept ?_ (by with_reducible assumption)
      | (with_reducible first | apply hashEnq_kept | apply Kept.foldl | rfl) | (intro _)
      | with_reducible apply Kept.ite | split | with_reducible refine Kept.mk' ?_ ?_ ?_ ?_

theorem tallyRequest_kept {s₀ : State} {t : Fin 64} {d : Digest} {o : Owner} {core : Option Core} {s : State} (hK
    : Kept s₀ s) : Kept s₀ (tallyRequest s t d o core) := by
  unfold tallyRequest
  repeat' first
      | (with_reducible first | assumption | apply pumpTally_kept | apply Kept.foldl | rfl) | (intro _)
      | with_reducible apply Kept.ite | split | with_reducible refine Kept.mk' ?_ ?_ ?_ ?_

theorem tallyDone_kept {s₀ : State} {t : Fin 64} {s : State} (hK : Kept s₀ s) : Kept s₀ (tallyDone s t) := by
  unfold tallyDone
  repeat' first
      | (with_reducible first
          | assumption | apply hashEnd_kept | apply pumpTally_kept | apply retire_kept | apply Kept.foldl | rfl)
      | (intro _) | with_reducible apply Kept.ite | split | with_reducible refine Kept.mk' ?_ ?_ ?_ ?_

end Sys2Proof.Machine
end

