-- ==== Sys2Proof/Laws/Manifest.lean ====
section
/-! SUPPORT. What each operation of Machine/Manifest.lean keeps (`Kept`). -/

set_option linter.unusedTactic false
set_option linter.unreachableTactic false

namespace Sys2Proof.Machine

theorem insertPage_kept {s₀ : State} {b : Binding} {bk : BankId} {k j : Nat} {page : List Byte} {pin : Bool} {s :
    State} (hK : Kept s₀ s) : Kept s₀ (insertPage s b bk k j page pin) := by
  unfold insertPage
  repeat' first
      | (with_reducible first | assumption | apply nodePut_kept | apply Kept.foldl | rfl) | (intro _)
      | with_reducible apply Kept.ite | split | with_reducible refine Kept.mk' ?_ ?_ ?_ ?_

/-- What a walk keeps, where it ends in a state. -/
def WalkRes.Ok (s₀ : State) : WalkRes → Prop
  | .proved s => Kept s₀ s
  | .failed s _ => Kept s₀ s
  | .short => True

theorem provePage_ok {s₀ : State} {b : Binding} {bk : BankId} (l : List (List Byte)) :
    ∀ (k j : Nat) (s : State), Kept s₀ s → (provePage b bk k j l s).Ok s₀ := by
  induction l with
  | nil => intro k j s _; simp [provePage, WalkRes.Ok]
  | cons pg up ih =>
    intro k j s h
    have key : ∀ (t : State) (d : Digest) (p : Nat), Kept s₀ t →
        (if pageParent t b bk k j = some d then WalkRes.proved (insertPage (nodeTouch t b.bind bk k j) b bk k j pg
            false) else .failed t p).Ok s₀ := by
      intro t d p ht
      split
      · exact insertPage_kept (nodeTouch_kept ht)
      · exact ht
    rw [provePage]
    split
    · exact key s _ _ h
    · have := ih (k + 1) (j / 128) s h
      revert this
      cases provePage b bk (k + 1) (j / 128) up s with
      | proved t => exact fun ht => key t _ _ ht
      | failed t p => exact id
      | short => exact id

theorem provePage_proved {s₀ : State} {b : Binding} {bk : BankId} {l : List (List Byte)} {k j : Nat} {s t : State}
    (h : Kept s₀ s) (e : provePage b bk k j l s = .proved t) : Kept s₀ t := by
  have := provePage_ok (b := b) (bk := bk) l k j s h
  rw [e] at this
  exact this

theorem provePage_failed {s₀ : State} {b : Binding} {bk : BankId} {l : List (List Byte)} {k j p : Nat} {s t : State}
    (h : Kept s₀ s) (e : provePage b bk k j l s = .failed t p) : Kept s₀ t := by
  have := provePage_ok (b := b) (bk := bk) l k j s h
  rw [e] at this
  exact this

/-- What a check keeps, where it ends in a state. -/
def CheckRes.Ok (s₀ : State) : CheckRes → Prop
  | .pass s => Kept s₀ s
  | .mismatch s _ => Kept s₀ s
  | .node s _ => Kept s₀ s
  | .short => True

theorem checkObj_ok {s₀ : State} {b : Binding} {bk : BankId} {o : EmberObj} {data : List Byte} {pages : List (List
    Byte)} {s : State}
    (h : Kept s₀ s) : (checkObj s b bk o data pages).Ok s₀ := by
  unfold checkObj
  dsimp only
  repeat' split
  all_goals first
    | exact h
    | exact nodeTouch_kept h
    | exact provePage_proved h (by assumption)
    | exact provePage_failed h (by assumption)
    | exact nodeTouch_kept (provePage_proved h (by assumption))
    | trivial

theorem checkObj_pass {s₀ : State} {b : Binding} {bk : BankId} {o : EmberObj} {data : List Byte} {pages : List
    (List Byte)} {s t : State}
    (h : Kept s₀ s) (e : checkObj s b bk o data pages = .pass t) : Kept s₀ t := by
  have := checkObj_ok (b := b) (bk := bk) (o := o) (data := data) (pages := pages) h
  rw [e] at this
  exact this

theorem checkObj_mismatch {s₀ : State} {b : Binding} {bk : BankId} {o : EmberObj} {data : List Byte} {pages : List
    (List Byte)}
    {s t : State} {d : Digest} (h : Kept s₀ s) (e : checkObj s b bk o data pages = .mismatch t d) : Kept s₀ t := by
  have := checkObj_ok (b := b) (bk := bk) (o := o) (data := data) (pages := pages) h
  rw [e] at this
  exact this

theorem checkObj_node {s₀ : State} {b : Binding} {bk : BankId} {o : EmberObj} {data : List Byte} {pages : List
    (List Byte)}
    {s t : State} {p : Nat} (h : Kept s₀ s) (e : checkObj s b bk o data pages = .node t p) : Kept s₀ t := by
  have := checkObj_ok (b := b) (bk := bk) (o := o) (data := data) (pages := pages) h
  rw [e] at this
  exact this

end Sys2Proof.Machine
end

