-- ==== Sys2Proof/Laws/Verify.lean ====
section
/-! SUPPORT. What each operation of Machine/Verify.lean keeps (`Kept`). -/

set_option linter.unusedTactic false
set_option linter.unreachableTactic false

namespace Sys2Proof.Machine

theorem dropUnserved_kept {s₀ : State} {c : Ch} {s : State} (hK : Kept s₀ s) : Kept s₀ (dropUnserved s c) := by
  unfold dropUnserved
  repeat' first
      | (with_reducible first | assumption | apply freeFrames_kept | apply repin_kept | apply Kept.foldl | rfl)
      | (intro _) | with_reducible apply Kept.ite | split | with_reducible refine Kept.mk' ?_ ?_ ?_ ?_

theorem clkHoldClear_kept {s₀ : State} {c : Ch} {s : State} (hK : Kept s₀ s) : Kept s₀ (clkHoldClear s c) := by
  unfold clkHoldClear
  repeat' first
      | (with_reducible first | assumption | apply setBank_kept | apply strictPend_kept | apply Kept.foldl | rfl)
      | (intro _) | with_reducible apply Kept.ite | split | with_reducible refine Kept.mk' ?_ ?_ ?_ ?_

theorem pumpStage_kept {s₀ s : State} (hK : Kept s₀ s) : Kept s₀ (pumpStage s) := by
  unfold pumpStage
  repeat' first
      | (with_reducible first | assumption | apply setBank_kept | apply unitRead_kept | apply draw_kept2)
      | refine draw_kept ?_ (by with_reducible assumption) | (with_reducible first | apply Kept.foldl | rfl)
      | (intro _) | with_reducible apply Kept.ite | split | with_reducible refine Kept.mk' ?_ ?_ ?_ ?_

theorem stageCheck_kept {s₀ : State} {b : Binding} {s : State} (hK : Kept s₀ s) : Kept s₀ (stageCheck s b) := by
  unfold stageCheck
  repeat' first
      | (with_reducible first | assumption | apply setBank_kept | apply pumpStage_kept | apply Kept.foldl | rfl)
      | (intro _) | with_reducible apply Kept.ite | split | with_reducible refine Kept.mk' ?_ ?_ ?_ ?_

theorem strictFailBind_kept {s₀ : State} {b : Binding} {s : State} (hK : Kept s₀ s) : Kept s₀ (strictFailBind s b) := by
  unfold strictFailBind
  repeat' first
      | (with_reducible first | assumption | apply setStrict_kept | apply Kept.foldl | rfl) | (intro _)
      | with_reducible apply Kept.ite | split | with_reducible refine Kept.mk' ?_ ?_ ?_ ?_

theorem setClkHold_kept {s₀ : State} {c : Ch} {s : State} (hK : Kept s₀ s) : Kept s₀ (setClkHold s c) := by
  unfold setClkHold
  repeat' first
      | (with_reducible first | assumption | apply regate_kept | apply Kept.foldl | rfl) | (intro _)
      | with_reducible apply Kept.ite | split | with_reducible refine Kept.mk' ?_ ?_ ?_ ?_

theorem squashChannel_kept {s₀ : State} {c : Ch} {s : State} (hK : Kept s₀ s) : Kept s₀ (squashChannel s c) := by
  unfold squashChannel
  repeat' first
      | (with_reducible first | assumption | apply squash_kept | apply abandonSlot_kept | apply Kept.foldl | rfl)
      | (intro _) | with_reducible apply Kept.ite | split | with_reducible refine Kept.mk' ?_ ?_ ?_ ?_

theorem strictFailAt_kept {s₀ : State} {c : Ch} {vem : Nat} {s : State} (hK : Kept s₀ s) : Kept s₀ (strictFailAt s
    c vem) := by
  unfold strictFailAt
  repeat' first
      | (with_reducible first | assumption | apply setStrict_kept | apply Kept.foldl | rfl) | (intro _)
      | with_reducible apply Kept.ite | split | with_reducible refine Kept.mk' ?_ ?_ ?_ ?_

theorem holdNoWay_kept {s₀ : State} {id : EmberId} {s : State} (hK : Kept s₀ s) : Kept s₀ (holdNoWay s id) := by
  unfold holdNoWay
  repeat' first
      | (with_reducible first
          | assumption | apply strictFailAt_kept | apply setClkHold_kept | apply strictPend_kept
          | apply squashChannel_kept | apply Kept.foldl | rfl)
      | (intro _) | with_reducible apply Kept.ite | split | with_reducible refine Kept.mk' ?_ ?_ ?_ ?_

theorem holdReboot_kept {s₀ : State} {id : EmberId} {b : Binding} {s : State} (hK : Kept s₀ s) : Kept s₀
    (holdReboot s id b) := by
  unfold holdReboot
  repeat' first
      | (with_reducible first
          | assumption | apply modCh_kept | apply freeFrames_kept | apply strictPend_kept | apply holdNoWay_kept
          | apply setClkHold_kept | apply selectGolden_kept | apply squashChannel_kept | apply Kept.foldl | rfl)
      | (intro _) | with_reducible apply Kept.ite | split | with_reducible refine Kept.mk' ?_ ?_ ?_ ?_

theorem substitute_kept {s₀ : State} {id : EmberId} {b : Binding} {s : State} (hK : Kept s₀ s) : Kept s₀
    (substitute s id b) := by
  unfold substitute
  repeat' first
      | (with_reducible first
          | assumption | apply modCh_kept | apply dropUnserved_kept | apply strictPend_kept | apply holdNoWay_kept
          | apply Kept.foldl | rfl)
      | (intro _) | with_reducible apply Kept.ite | split | with_reducible refine Kept.mk' ?_ ?_ ?_ ?_

theorem listClinker_kept {s₀ : State} {id : EmberId} {s : State} (hK : Kept s₀ s) : Kept s₀ (listClinker s id) := by
  unfold listClinker
  repeat' first
      | (with_reducible first | assumption | apply setStrict_kept | apply Kept.foldl | rfl) | (intro _)
      | with_reducible apply Kept.ite | split | with_reducible refine Kept.mk' ?_ ?_ ?_ ?_

theorem clinkerResponse_kept {s₀ : State} {id : EmberId} {s : State} (hK : Kept s₀ s) : Kept s₀ (clinkerResponse s
    id) := by
  unfold clinkerResponse
  repeat' first
      | (with_reducible first
          | assumption | apply listClinker_kept | apply holdNoWay_kept | apply substitute_kept
          | apply holdReboot_kept | apply settle_kept | apply Kept.foldl | rfl)
      | (intro _) | with_reducible apply Kept.ite | split | with_reducible refine Kept.mk' ?_ ?_ ?_ ?_

theorem revokeBinding_kept {s₀ : State} {b : Binding} {s : State} (hK : Kept s₀ s) : Kept s₀ (revokeBinding s b) := by
  unfold revokeBinding
  repeat' first
      | (with_reducible first
          | assumption | apply modCh_kept | apply nodeDrop_kept | apply freeFrames_kept | apply strictFailBind_kept
          | apply setBank_kept | apply clinkerResponse_kept | apply squash_kept | apply veRecord_kept
          | apply closeSlot_kept | apply veInt_kept | apply settle_kept | apply Kept.foldl | rfl)
      | (intro _) | with_reducible apply Kept.ite | split | with_reducible refine Kept.mk' ?_ ?_ ?_ ?_

theorem revokeAnchors_kept {s₀ : State} {p : Fin 128 → Bool} {s : State} (hK : Kept s₀ s) : Kept s₀ (revokeAnchors
    s p) := by
  unfold revokeAnchors
  repeat' first
      | (with_reducible first | assumption | apply revokeBinding_kept | apply Kept.foldl | rfl) | (intro _)
      | with_reducible apply Kept.ite | split | with_reducible refine Kept.mk' ?_ ?_ ?_ ?_

theorem markStaged_kept {s₀ : State} {c : Ch} {va : Nat} {bk : BankId} {s : State} (hK : Kept s₀ s) : Kept s₀
    (markStaged s c va bk) := by
  unfold markStaged
  repeat' first
      | (with_reducible first | assumption | apply squash_kept | apply setBank_kept | apply Kept.foldl | rfl)
      | (intro _) | with_reducible apply Kept.ite | split | with_reducible refine Kept.mk' ?_ ?_ ?_ ?_

theorem modUnit_kept {s₀ : State} {id : Nat} {f : Billet → Billet} {s : State} (hK : Kept s₀ s) : Kept s₀ (modUnit
    s id f) := by
  unfold modUnit
  repeat' first
      | (with_reducible first | assumption | apply Kept.foldl | rfl) | (intro _) | with_reducible apply Kept.ite
      | split | with_reducible refine Kept.mk' ?_ ?_ ?_ ?_

theorem setPhase_kept {s₀ : State} {id n : Nat} {s : State} (hK : Kept s₀ s) : Kept s₀ (setPhase s id n) := by
  unfold setPhase
  repeat' first
      | (with_reducible first | assumption | apply modUnit_kept | apply Kept.foldl | rfl) | (intro _)
      | with_reducible apply Kept.ite | split | with_reducible refine Kept.mk' ?_ ?_ ?_ ?_

theorem anchorGo_kept {s₀ : State} {uid : Nat} {b : Binding} {bk : BankId} {s : State} (hK : Kept s₀ s) : Kept s₀
    (anchorGo s uid b bk) := by
  unfold anchorGo
  repeat' first
      | (with_reducible first
          | assumption | apply hashJobs_kept | apply unitRead_kept | apply setPhase_kept | apply Kept.foldl | rfl)
      | (intro _) | with_reducible apply Kept.ite | split | with_reducible refine Kept.mk' ?_ ?_ ?_ ?_

theorem pushPage_kept {s₀ : State} {id : Nat} {pg : List Byte} {s : State} (hK : Kept s₀ s) : Kept s₀ (pushPage s
    id pg) := by
  unfold pushPage
  repeat' first
      | (with_reducible first | assumption | apply modUnit_kept | apply Kept.foldl | rfl) | (intro _)
      | with_reducible apply Kept.ite | split | with_reducible refine Kept.mk' ?_ ?_ ?_ ?_

theorem nodeFail_kept {s₀ : State} {b : Binding} {bk : BankId} {p : Nat} {s : State} (hK : Kept s₀ s) : Kept s₀
    (nodeFail s b bk p) := by
  unfold nodeFail
  repeat' first
      | (with_reducible first | assumption | apply veRecord_kept | apply Kept.foldl | rfl) | (intro _)
      | with_reducible apply Kept.ite | split | with_reducible refine Kept.mk' ?_ ?_ ?_ ?_

theorem leafVerdict_kept {s₀ : State} {b : Binding} {uid : Nat} {bk : BankId} {r : WalkRes} {s : State} (hK : Kept s₀ s)
    (hr : r.Ok s₀) : Kept s₀ (leafVerdict s b uid bk r) := by
  cases r with
  | short => exact hK
  | proved t => exact settle_kept (retire_kept (foldVerdict_kept hr))
  | failed t p => exact nodeFail_kept (retire_kept (foldVerdict_kept hr))

theorem learnPage_kept {s₀ : State} {b : Binding} {bk : BankId} {o : EmberObj} {data : List Byte} {s : State} (hK
    : Kept s₀ s) : Kept s₀ (learnPage s b bk o data) := by
  unfold learnPage
  repeat' first
      | (with_reducible first | assumption | apply insertPage_kept | apply Kept.foldl | rfl) | (intro _)
      | with_reducible apply Kept.ite | split | with_reducible refine Kept.mk' ?_ ?_ ?_ ?_

theorem siEvent_kept {s₀ : State} {c : Ch} {s : State} (hK : Kept s₀ s) : Kept s₀ (siEvent s c) := by
  unfold siEvent
  repeat' first
      | (with_reducible first | assumption | apply modCh_kept | apply veInt_kept | apply Kept.foldl | rfl)
      | (intro _) | with_reducible apply Kept.ite | split | with_reducible refine Kept.mk' ?_ ?_ ?_ ?_

theorem siPassed_kept {s₀ : State} {b : Binding} {bk : BankId} {o : EmberObj} {s : State} (hK : Kept s₀ s) : Kept
    s₀ (siPassed s b bk o) := by
  unfold siPassed
  repeat' first
      | (with_reducible first | assumption | apply veRecord_kept | apply siEvent_kept | apply Kept.foldl | rfl)
      | (intro _) | with_reducible apply Kept.ite | split | with_reducible refine Kept.mk' ?_ ?_ ?_ ?_

theorem strictPass_kept {s₀ : State} {id : EmberId} {s : State} (hK : Kept s₀ s) : Kept s₀ (strictPass s id) := by
  unfold strictPass
  repeat' first
      | (with_reducible first | assumption | apply setStrict_kept | apply Kept.foldl | rfl) | (intro _)
      | with_reducible apply Kept.ite | split | with_reducible refine Kept.mk' ?_ ?_ ?_ ?_

theorem emberPass_kept {s₀ : State} {uid : Nat} {id : EmberId} {f : Option Nat} {s : State} (hK : Kept s₀ s) :
    Kept s₀ (emberPass s uid id f) := by
  unfold emberPass
  repeat' first
      | (with_reducible first
          | assumption | apply strictPass_kept | apply closeSlot_kept | apply setFrame_kept | apply settle_kept
          | apply freeFrame_kept | apply retire_kept | apply Kept.foldl | rfl)
      | (intro _) | with_reducible apply Kept.ite | split | with_reducible refine Kept.mk' ?_ ?_ ?_ ?_

theorem refetch_kept {s₀ : State} {uid : Nat} {id : EmberId} {f : Option Nat} {s : State} (hK : Kept s₀ s) : Kept
    s₀ (refetch s uid id f) := by
  unfold refetch
  repeat' first
      | (with_reducible first
          | assumption | apply portEnq_kept | apply unitRead_kept | apply setFrame_kept | apply slotTo_kept
          | apply setWork_kept | apply Kept.foldl | rfl)
      | (intro _) | with_reducible apply Kept.ite | split | with_reducible refine Kept.mk' ?_ ?_ ?_ ?_

theorem dropPages_kept {s₀ : State} {id : Nat} {s : State} (hK : Kept s₀ s) : Kept s₀ (dropPages s id) := by
  unfold dropPages
  repeat' first
      | (with_reducible first | assumption | apply modUnit_kept | apply Kept.foldl | rfl) | (intro _)
      | with_reducible apply Kept.ite | split | with_reducible refine Kept.mk' ?_ ?_ ?_ ?_

theorem clinker_kept {s₀ : State} {id : EmberId} {reason : Nat} {scrub : Bool} {s : State} (hK : Kept s₀ s) : Kept
    s₀ (clinker s id reason scrub) := by
  unfold clinker
  repeat' first
      | (with_reducible first
          | assumption | apply modCh_kept | apply setBank_kept | apply clinkerResponse_kept | apply freeFrame_kept
          | apply squash_kept | apply veRecord_kept | apply closeSlot_kept | apply veInt_kept | apply settle_kept
          | apply Kept.foldl | rfl)
      | (intro _) | with_reducible apply Kept.ite | split | with_reducible refine Kept.mk' ?_ ?_ ?_ ?_

theorem emberVerdict_kept {s₀ : State} {b : Binding} {uid : Nat} {id : EmberId} {why : FillWhy} {f : Option Nat}
    {first : Option Digest} {data : List Byte} {r : CheckRes} {s : State} (hK : Kept s₀ s) (hr : r.Ok s₀) :
    Kept s₀ (emberVerdict s b uid id why f first data r) := by
  cases r with
  | short => exact hK
  | pass t =>
    have h := learnPage_kept (b := b) (bk := id.bank) (o := objOf s id) (data := data)
      (foldVerdict_kept (perBind := true) (idx := b.bind) (code := 0) (reachTime_kept (t := t.clk.now + 10) hr))
    exact emberPass_kept (Kept.ite (siPassed_kept h) h)
  | mismatch t d =>
    have h := foldVerdict_kept (perBind := true) (idx := b.bind) (code := 1) hr
    cases first with
    | none => exact Kept.ite (retire_kept h) (refetch_kept (setPhase_kept (dropPages_kept (setWork_kept h))))
    | some d0 =>
      unfold emberVerdict
      dsimp only
      split
      · exact clinker_kept h
      · exact clinker_kept (siEvent_kept h)
  | node t p =>
    unfold emberVerdict
    exact clinker_kept (nodeFail_kept (foldVerdict_kept hr))

theorem scrubNext_kept {s₀ : State} {b : Binding} {bk : BankId} {s : State} (hK : Kept s₀ s) : Kept s₀ (scrubNext
    s b bk) := by
  unfold scrubNext
  repeat' first
      | (with_reducible first | assumption | apply setBank_kept | apply Kept.foldl | rfl) | (intro _)
      | with_reducible apply Kept.ite | split | with_reducible refine Kept.mk' ?_ ?_ ?_ ?_

theorem scrubVerdict_kept {s₀ : State} {b : Binding} {uid : Nat} {bk : BankId} {n : Nat} {id : EmberId} {first :
    Option Digest}
    {o : EmberObj} {r : CheckRes} {s : State} (hK : Kept s₀ s) (hr : r.Ok s₀) :
    Kept s₀ (scrubVerdict s b uid bk n id first o r) := by
  cases r with
  | short => exact hK
  | pass t =>
    have h := foldVerdict_kept (perBind := true) (idx := b.bind) (code := 0) (retire_kept (id := uid) hr)
    exact scrubNext_kept (clistDrop_kept (Kept.ite (siPassed_kept h) h))
  | mismatch t d =>
    have h := foldVerdict_kept (perBind := true) (idx := b.bind) (code := 1) hr
    cases first with
    | none => exact portEnq_kept (setPhase_kept (dropPages_kept (setWork_kept h)))
    | some d0 =>
      have h := scrubNext_kept (b := b) (bk := bk) (retire_kept (id := uid) h)
      unfold scrubVerdict
      dsimp only
      split
      · exact clinker_kept h
      · exact clinker_kept (siEvent_kept h)
  | node t p =>
    unfold scrubVerdict
    exact clinker_kept (nodeFail_kept (scrubNext_kept (retire_kept (foldVerdict_kept hr))))

theorem stagePass_kept {s₀ : State} {uid : Nat} {b : Binding} {bk : BankId} {s : State} (hK : Kept s₀ s) : Kept s₀
    (stagePass s uid b bk) := by
  unfold stagePass
  repeat' first
      | (with_reducible first
          | assumption | apply setBank_kept | apply veInt_kept | apply veRecord_kept | apply retire_kept
          | apply Kept.foldl | rfl)
      | (intro _) | with_reducible apply Kept.ite | split | with_reducible refine Kept.mk' ?_ ?_ ?_ ?_

theorem stageRead_kept {s₀ : State} {uid : Nat} {s : State} (hK : Kept s₀ s) : Kept s₀ (stageRead s uid) := by
  unfold stageRead
  repeat' first
      | (with_reducible first | assumption | apply unitRead_kept | apply setPhase_kept | apply Kept.foldl | rfl)
      | (intro _) | with_reducible apply Kept.ite | split | with_reducible refine Kept.mk' ?_ ?_ ?_ ?_

theorem stageGo_kept {s₀ : State} {uid : Nat} {b : Binding} {bk : BankId} {n : Nat} {s : State} (hK : Kept s₀ s) :
    Kept s₀ (stageGo s uid b bk n) := by
  unfold stageGo
  repeat' first
      | (with_reducible first
          | assumption | apply dropPages_kept | apply stageRead_kept | apply stagePass_kept | apply setWork_kept
          | apply Kept.foldl | rfl)
      | (intro _) | with_reducible apply Kept.ite | split | with_reducible refine Kept.mk' ?_ ?_ ?_ ?_

theorem stageFail_kept {s₀ : State} {uid : Nat} {b : Binding} {bk : BankId} {o : EmberObj} {reason : Nat} {s :
    State} (hK : Kept s₀ s) : Kept s₀ (stageFail s uid b bk o reason) := by
  unfold stageFail
  repeat' first
      | (with_reducible first
          | assumption | apply squash_kept | apply setBank_kept | apply veInt_kept | apply veRecord_kept
          | apply Kept.foldl | rfl)
      | (intro _) | with_reducible apply Kept.ite | split | with_reducible refine Kept.mk' ?_ ?_ ?_ ?_

theorem stageVerdict_kept {s₀ : State} {b : Binding} {uid : Nat} {bk : BankId} {n : Nat} {first : Option Digest}
    {o : EmberObj}
    {data : List Byte} {r : CheckRes} {s : State} (hK : Kept s₀ s) (hr : r.Ok s₀) :
    Kept s₀ (stageVerdict s b uid bk n first o data r) := by
  cases r with
  | short => exact hK
  | pass t =>
    have h := learnPage_kept (b := b) (bk := bk) (o := o) (data := data)
      (foldVerdict_kept (perBind := true) (idx := b.bind) (code := 0) hr)
    exact stageGo_kept (Kept.ite (siPassed_kept h) h)
  | mismatch t d =>
    have h := foldVerdict_kept (perBind := true) (idx := b.bind) (code := 1) hr
    cases first with
    | none => exact stageRead_kept (dropPages_kept (setWork_kept h))
    | some d0 => exact Kept.ite (stageFail_kept h) (stageFail_kept (siEvent_kept h))
  | node t p => exact stageFail_kept (nodeFail_kept (foldVerdict_kept hr))

theorem unitJudge_kept {s₀ : State} {uid : Nat} {u : Billet} {s : State} (hK : Kept s₀ s) : Kept s₀ (unitJudge s
    uid u) := by
  unfold unitJudge
  repeat' first
      | (with_reducible first
          | assumption | apply leafVerdict_kept | apply scrubVerdict_kept | apply stageVerdict_kept
          | apply emberVerdict_kept | apply checkObj_ok)
      | refine checkObj_pass ?_ (by with_reducible assumption)
      | refine checkObj_mismatch ?_ (by with_reducible assumption)
      | refine checkObj_node ?_ (by with_reducible assumption)
      | refine provePage_proved ?_ (by with_reducible assumption)
      | refine provePage_failed ?_ (by with_reducible assumption)
      | (with_reducible first | apply provePage_ok | apply Kept.foldl | rfl) | (intro _)
      | with_reducible apply Kept.ite | split | with_reducible refine Kept.mk' ?_ ?_ ?_ ?_

theorem unitGo_kept {s₀ : State} {uid : Nat} {s : State} (hK : Kept s₀ s) : Kept s₀ (unitGo s uid) := by
  unfold unitGo
  repeat' first
      | (with_reducible first
          | assumption | apply unitRead_kept | apply setUnitSt_kept | apply hashEnq_kept | apply unitJudge_kept
          | apply setPhase_kept | apply retire_kept | apply Kept.foldl | rfl)
      | (intro _) | with_reducible apply Kept.ite | split | with_reducible refine Kept.mk' ?_ ?_ ?_ ?_

theorem unitTake_kept {s₀ : State} {uid : Nat} {data : List Byte} {s : State} (hK : Kept s₀ s) : Kept s₀ (unitTake
    s uid data) := by
  unfold unitTake
  repeat' first
      | (with_reducible first
          | assumption | apply anchorGo_kept | apply pushPage_kept | apply unitGo_kept | apply setFrame_kept
          | apply slotTo_kept | apply hashEnq_kept | apply modUnit_kept | apply Kept.foldl | rfl)
      | (intro _) | with_reducible apply Kept.ite | split | with_reducible refine Kept.mk' ?_ ?_ ?_ ?_

theorem scrubTake_kept {s₀ : State} {uid : Nat} {data : List Byte} {s : State} (hK : Kept s₀ s) : Kept s₀
    (scrubTake s uid data) := by
  unfold scrubTake
  repeat' first
      | (with_reducible first
          | assumption | apply hashJobs_kept | apply pushPage_kept | apply portEnq_kept | apply setWork_kept
          | apply hashEnq_kept | apply modUnit_kept | apply Kept.foldl | rfl)
      | (intro _) | with_reducible apply Kept.ite | split | with_reducible refine Kept.mk' ?_ ?_ ?_ ?_

theorem voidUnit_kept {s₀ : State} {uid : Nat} {s : State} (hK : Kept s₀ s) : Kept s₀ (voidUnit s uid) := by
  unfold voidUnit
  repeat' first
      | (with_reducible first
          | assumption | apply veRecord_kept | apply unitGo_kept | apply portEnq_kept | apply unitRead_kept
          | apply setWork_kept | apply dropPages_kept | apply refetch_kept | apply hashDrop_kept
          | apply stageRead_kept | apply setPhase_kept | apply Kept.foldl | rfl)
      | (intro _) | with_reducible apply Kept.ite | split | with_reducible refine Kept.mk' ?_ ?_ ?_ ?_

theorem strictFailBank_kept {s₀ : State} {b : Binding} {bk : BankId} {s : State} (hK : Kept s₀ s) : Kept s₀
    (strictFailBank s b bk) := by
  unfold strictFailBank
  repeat' first
      | (with_reducible first | assumption | apply setStrict_kept | apply Kept.foldl | rfl) | (intro _)
      | with_reducible apply Kept.ite | split | with_reducible refine Kept.mk' ?_ ?_ ?_ ?_

theorem rejectBank_kept {s₀ : State} {b : Binding} {bk : BankId} {reason : Nat} {stage : Bool} {s : State} (hK :
    Kept s₀ s) : Kept s₀ (rejectBank s b bk reason stage) := by
  unfold rejectBank
  repeat' first
      | (with_reducible first
          | assumption | apply squash_kept | apply clinker_kept | apply strictFailBank_kept | apply nodeDrop_kept
          | apply veRecord_kept | apply freeFrames_kept | apply setBank_kept | apply setClkHold_kept
          | apply veInt_kept | apply settle_kept | apply Kept.foldl | rfl)
      | (intro _) | with_reducible apply Kept.ite | split | with_reducible refine Kept.mk' ?_ ?_ ?_ ?_

theorem anchorOk_kept {s₀ : State} {b : Binding} {bk : BankId} {x : Anchored} {area : List Byte} {stage : Bool} {s
    : State} (hK : Kept s₀ s) : Kept s₀ (anchorOk s b bk x area stage) := by
  unfold anchorOk
  repeat' first
      | (with_reducible first
          | assumption | apply insertPage_kept | apply clistDrop_kept | apply setBank_kept | apply veRecord_kept
          | apply nodePut_kept | apply tallyRequest_kept | apply Kept.foldl | rfl)
      | (intro _) | with_reducible apply Kept.ite | split | with_reducible refine Kept.mk' ?_ ?_ ?_ ?_

theorem wakeBank_kept {s₀ : State} {bind : Nat} {bk : BankId} {s : State} (hK : Kept s₀ s) : Kept s₀ (wakeBank s
    bind bk) := by
  unfold wakeBank
  repeat' first
      | (with_reducible first | assumption | apply unitGo_kept | apply Kept.foldl | rfl) | (intro _)
      | with_reducible apply Kept.ite | split | with_reducible refine Kept.mk' ?_ ?_ ?_ ?_

theorem placeVerified_kept {s₀ : State} {id : EmberId} {pin : Bool} {data : List Byte} {s : State} (hK : Kept s₀
    s) : Kept s₀ (placeVerified s id pin data) := by
  unfold placeVerified
  repeat' first
      | (with_reducible first
          | assumption | apply takeFrame_kept | apply setFrame_kept | apply freeFrame_kept | apply Kept.foldl | rfl)
      | (intro _) | with_reducible apply Kept.ite | split | with_reducible refine Kept.mk' ?_ ?_ ?_ ?_

theorem anchorEmbers_kept {s₀ : State} {b : Binding} {bk : BankId} {x : Anchored} {area : List Byte} {s : State}
    (hK : Kept s₀ s) : Kept s₀ (anchorEmbers s b bk x area) := by
  unfold anchorEmbers
  repeat' first
      | (with_reducible first
          | assumption | apply strictPass_kept | apply placeVerified_kept | apply Kept.foldl | rfl)
      | (intro _) | with_reducible apply Kept.ite | split | with_reducible refine Kept.mk' ?_ ?_ ?_ ?_

theorem anchorVerdict_kept {s₀ : State} {uid : Nat} {u : Billet} {b : Binding} {bk : BankId} {stage : Bool} {s :
    State} (hK : Kept s₀ s) : Kept s₀ (anchorVerdict s uid u b bk stage) := by
  unfold anchorVerdict
  repeat' first
      | (with_reducible first
          | assumption | apply wakeBank_kept | apply hashEnq_kept | apply anchorOk_kept | apply anchorEmbers_kept
          | apply rejectBank_kept | apply settle_kept | apply setPhase_kept | apply retire_kept | apply stageGo_kept
          | apply Kept.foldl | rfl)
      | (intro _) | with_reducible apply Kept.ite | split | with_reducible refine Kept.mk' ?_ ?_ ?_ ?_

theorem anchoringEnd_kept {s₀ : State} {e : Fin 12} {parity : Bool} {s : State} (hK : Kept s₀ s) : Kept s₀
    (anchoringEnd s e parity) := by
  unfold anchoringEnd
  repeat' first
      | (with_reducible first
          | assumption | apply voidUnit_kept | apply hashEnd_kept | apply pumpStage_kept | apply anchorVerdict_kept
          | apply Kept.foldl | rfl)
      | (intro _) | with_reducible apply Kept.ite | split | with_reducible refine Kept.mk' ?_ ?_ ?_ ?_

theorem scrubSignature_kept {s₀ : State} {b : Binding} {uid : Nat} {bk : BankId} {id : EmberId} {first : Option
    Digest} {pages : List (List Byte)} {s : State} (hK : Kept s₀ s) : Kept s₀ (scrubSignature s b uid bk id first
    pages) := by
  unfold scrubSignature
  repeat' first
      | (with_reducible first
          | assumption | apply foldVerdict_kept | apply dropPages_kept | apply scrubNext_kept | apply portEnq_kept
          | apply rejectBank_kept | apply siEvent_kept | apply siPassed_kept | apply setWork_kept | apply retire_kept
          | apply Kept.foldl | rfl)
      | (intro _) | with_reducible apply Kept.ite | split | with_reducible refine Kept.mk' ?_ ?_ ?_ ?_

theorem nodeLost_kept {s₀ : State} {bi : Nat} {bk : BankId} {lv i : Nat} {s : State} (hK : Kept s₀ s) : Kept s₀
    (nodeLost s bi bk lv i) := by
  unfold nodeLost
  repeat' first
      | (with_reducible first
          | assumption | apply setBank_kept | apply nodeDrop_kept | apply settle_kept | apply Kept.foldl | rfl)
      | (intro _) | with_reducible apply Kept.ite | split | with_reducible refine Kept.mk' ?_ ?_ ?_ ?_

theorem emberCheckEnd_kept {s₀ : State} {e : Fin 12} {entry : Option (Nat × Nat)} {parity : Bool} {s : State} (hK : Kept s₀ s) :
    Kept s₀ (emberCheckEnd s e entry parity) := by
  unfold emberCheckEnd
  repeat' first
      | (with_reducible first
          | assumption | apply scrubSignature_kept | apply hashEnd_kept | apply unitGo_kept | apply voidUnit_kept
          | apply unitJudge_kept | apply pumpStage_kept | apply nodeLost_kept | apply Kept.foldl | rfl)
      | (intro _) | with_reducible apply Kept.ite | split | with_reducible refine Kept.mk' ?_ ?_ ?_ ?_

theorem katStart_kept {s₀ s : State} (hK : Kept s₀ s) : Kept s₀ (katStart s) := by
  unfold katStart
  repeat' first
      | (with_reducible first
          | assumption | apply reachTime_kept | apply aesEnq_kept | apply hashGrant_kept | apply draw_kept2)
      | refine draw_kept ?_ (by with_reducible assumption)
      | (with_reducible first | apply setUnitSt_kept | apply hashPut_kept | apply Kept.foldl | rfl) | (intro _)
      | with_reducible apply Kept.ite | split | with_reducible refine Kept.mk' ?_ ?_ ?_ ?_

theorem katFail_kept {s₀ : State} {e : Fin 12} {s : State} (hK : Kept s₀ s) : Kept s₀ (katFail s e) := by
  unfold katFail
  repeat' first
      | (with_reducible first
          | assumption | apply hashGrant_kept | apply setUnitSt_kept | apply slotJob_kept | apply setRing_kept
          | apply veRecord_kept | apply hashDrop_kept | apply veInt_kept | apply modUnit_kept | apply retire_kept
          | apply Kept.foldl | rfl)
      | (intro _) | with_reducible apply Kept.ite | split | with_reducible refine Kept.mk' ?_ ?_ ?_ ?_

theorem aesKatFail_kept {s₀ : State} {e : Fin 2} {s : State} (hK : Kept s₀ s) : Kept s₀ (aesKatFail s e) := by
  unfold aesKatFail
  repeat' first
      | (with_reducible first
          | assumption | apply aesGrant_kept | apply setUnitSt_kept | apply veRecord_kept | apply aesDrop_kept
          | apply veInt_kept | apply retire_kept | apply Kept.foldl | rfl)
      | (intro _) | with_reducible apply Kept.ite | split | with_reducible refine Kept.mk' ?_ ?_ ?_ ?_

theorem knownAnswer_kept {s₀ : State} {hf : BitVec 12} {af : BitVec 2} {s : State} (hK : Kept s₀ s) : Kept s₀
    (knownAnswer s hf af) := by
  unfold knownAnswer
  repeat' first
      | (with_reducible first
          | assumption | apply hashEnd_kept | apply aesEnd_kept | apply katFail_kept | apply katStart_kept
          | apply aesKatFail_kept | apply retire_kept | apply Kept.foldl | rfl)
      | (intro _) | with_reducible apply Kept.ite | split | with_reducible refine Kept.mk' ?_ ?_ ?_ ?_

theorem scrubStep_kept {s₀ : State} {bind : Nat} {s : State} (hK : Kept s₀ s) : Kept s₀ (scrubStep s bind) := by
  unfold scrubStep
  repeat' first
      | (with_reducible first | assumption | apply portEnq_kept | apply draw_kept2)
      | refine draw_kept ?_ (by with_reducible assumption) | (with_reducible first | apply Kept.foldl | rfl)
      | (intro _) | with_reducible apply Kept.ite | split | with_reducible refine Kept.mk' ?_ ?_ ?_ ?_

end Sys2Proof.Machine
end

