-- ==== Sys2Proof/Laws/Vault.lean ====
section
/-! SUPPORT. What each operation of Machine/Vault.lean keeps (`Kept`). -/

set_option linter.unusedTactic false
set_option linter.unreachableTactic false

namespace Sys2Proof.Machine

theorem stRefuse_kept {s₀ : State} {code sec ofs : Nat} {s : State} (hK : Kept s₀ s) : Kept s₀ (stRefuse s code
    sec ofs) := by
  unfold stRefuse
  repeat' first
      | (with_reducible first | assumption | apply stInt_kept | apply Kept.foldl | rfl) | (intro _)
      | with_reducible apply Kept.ite | split | with_reducible refine Kept.mk' ?_ ?_ ?_ ?_

theorem modSlot_kept {s₀ : State} {i : Fin 128} {f : Slot → Slot} {s : State} (hK : Kept s₀ s) : Kept s₀ (modSlot
    s i f) := by
  unfold modSlot
  repeat' first
      | (with_reducible first | assumption | apply Kept.foldl | rfl) | (intro _) | with_reducible apply Kept.ite
      | split | with_reducible refine Kept.mk' ?_ ?_ ?_ ?_

theorem emptySlot_kept {s₀ : State} {i : Fin 128} {s : State} (hK : Kept s₀ s) : Kept s₀ (emptySlot s i) := by
  unfold emptySlot
  repeat' first
      | (with_reducible first | assumption | apply modSlot_kept | apply Kept.foldl | rfl) | (intro _)
      | with_reducible apply Kept.ite | split | with_reducible refine Kept.mk' ?_ ?_ ?_ ?_

theorem entropyBytes_kept2 {s₀ : State} {n : Nat} {s : State} (hK : Kept s₀ s) : Kept s₀ (entropyBytes s n).2 := by
  unfold entropyBytes
  repeat' first
      | (with_reducible first | assumption | apply useFree_kept | apply Kept.foldl | rfl) | (intro _)
      | with_reducible apply Kept.ite | split | with_reducible refine Kept.mk' ?_ ?_ ?_ ?_

theorem entropyBytes_kept {s₀ : State} {n : Nat} {s : State} {p0 t} (hK : Kept s₀ s) (e : (entropyBytes s n) =
    (p0, t)) : Kept s₀ t := by
  have := entropyBytes_kept2 (n := n) hK
  rw [e] at this
  exact this

theorem lmsDrop_kept {s₀ s : State} (hK : Kept s₀ s) : Kept s₀ (lmsDrop s) := by
  unfold lmsDrop
  repeat' first
      | (with_reducible first | assumption | apply Kept.foldl | rfl) | (intro _) | with_reducible apply Kept.ite
      | split | with_reducible refine Kept.mk' ?_ ?_ ?_ ?_

theorem kvInt_kept {s₀ : State} {i : Nat} {s : State} (hK : Kept s₀ s) : Kept s₀ (kvInt s i) := by
  unfold kvInt
  repeat' first
      | (with_reducible first | assumption | apply Kept.foldl | rfl) | (intro _) | with_reducible apply Kept.ite
      | split | with_reducible refine Kept.mk' ?_ ?_ ?_ ?_

theorem modKvc_kept {s₀ : State} {c : Core} {f : KvCore → KvCore} {s : State} (hK : Kept s₀ s) : Kept s₀ (modKvc s
    c f) := by
  unfold modKvc
  repeat' first
      | (with_reducible first | assumption | apply Kept.foldl | rfl) | (intro _) | with_reducible apply Kept.ite
      | split | with_reducible refine Kept.mk' ?_ ?_ ?_ ?_

theorem abortOps_kept {s₀ : State} {p : Nat → Bool} {late : Nat} {s : State} (hK : Kept s₀ s) : Kept s₀ (abortOps
    s p late) := by
  unfold abortOps
  repeat' first
      | (with_reducible first
          | assumption | apply hashDrop_kept | apply ramWrite_kept | apply modKvc_kept | apply aesDrop_kept
          | apply Kept.foldl | rfl)
      | (intro _) | with_reducible apply Kept.ite | split | with_reducible refine Kept.mk' ?_ ?_ ?_ ?_

theorem cascade_kept {s₀ : State} {i : Nat} {s : State} (hK : Kept s₀ s) : Kept s₀ (cascade s i) := by
  unfold cascade
  repeat' first
      | (with_reducible first | assumption | apply abortOps_kept | apply kvInt_kept | apply Kept.foldl | rfl)
      | (intro _) | with_reducible apply Kept.ite | split | with_reducible refine Kept.mk' ?_ ?_ ?_ ?_

theorem revokeSlot_kept {s₀ : State} {i : Fin 128} {s : State} (hK : Kept s₀ s) : Kept s₀ (revokeSlot s i) := by
  unfold revokeSlot
  repeat' first
      | (with_reducible first
          | assumption | apply lmsDrop_kept | apply emptySlot_kept | apply cascade_kept | apply revokeAnchors_kept
          | apply Kept.foldl | rfl)
      | (intro _) | with_reducible apply Kept.ite | split | with_reducible refine Kept.mk' ?_ ?_ ?_ ?_

theorem modLms_kept {s₀ : State} {j : Fin 2} {f : LmsKey → LmsKey} {s : State} (hK : Kept s₀ s) : Kept s₀ (modLms
    s j f) := by
  unfold modLms
  repeat' first
      | (with_reducible first | assumption | apply Kept.foldl | rfl) | (intro _) | with_reducible apply Kept.ite
      | split | with_reducible refine Kept.mk' ?_ ?_ ?_ ?_

theorem startTrees_kept {s₀ : State} {j : Fin 2} {parent : Option Nat} {s : State} (hK : Kept s₀ s) : Kept s₀
    (startTrees s j parent) := by
  unfold startTrees
  repeat' first
      | (with_reducible first | assumption | apply draw_kept2) | refine draw_kept ?_ (by with_reducible assumption)
      | (with_reducible first | apply hashEnq_kept | apply Kept.foldl | rfl) | (intro _)
      | with_reducible apply Kept.ite | split | with_reducible refine Kept.mk' ?_ ?_ ?_ ?_

theorem childSlot_kept {s₀ : State} {p i : Fin 128} {typ origin usage owner : Nat} {lock : Bool} {mat : List Byte}
    {s : State} (hK : Kept s₀ s) : Kept s₀ (childSlot s p i typ origin usage owner lock mat) := by
  unfold childSlot
  repeat' first
      | (with_reducible first | assumption | apply modSlot_kept | apply Kept.foldl | rfl) | (intro _)
      | with_reducible apply Kept.ite | split | with_reducible refine Kept.mk' ?_ ?_ ?_ ?_

theorem leafWrite_kept {s₀ : State} {j : Fin 2} {epoch next seq : Nat} {kid : BitVec 128} {s : State} (hK : Kept s₀ s) :
    Kept s₀ (leafWrite s j epoch next seq kid) := by
  unfold leafWrite
  split
  · exact hK
  · exact (recWrite_kept hK).trans ⟨rfl, fun w => ⟨w, fun _ => BitVec.and_self⟩, Nat.le_refl _, Nat.le_refl _, id,
      id, memWrite_wf _ _⟩

theorem revokeOwner_kept {s₀ : State} {n : Inst} {s : State} (hK : Kept s₀ s) : Kept s₀ (revokeOwner s n) := by
  unfold revokeOwner
  repeat' first
      | (with_reducible first | assumption | apply revokeSlot_kept | apply Kept.foldl | rfl) | (intro _)
      | with_reducible apply Kept.ite | split | with_reducible refine Kept.mk' ?_ ?_ ?_ ?_

theorem zeroSlots_kept {s₀ : State} {p : Fin 128 → Bool} {s : State} (hK : Kept s₀ s) : Kept s₀ (zeroSlots s p) := by
  unfold zeroSlots
  repeat' first
      | (with_reducible first
          | assumption | apply lmsDrop_kept | apply emptySlot_kept | apply abortOps_kept | apply revokeAnchors_kept
          | apply Kept.foldl | rfl)
      | (intro _) | with_reducible apply Kept.ite | split | with_reducible refine Kept.mk' ?_ ?_ ?_ ?_

theorem ashHeld_kept {s₀ s : State} (hK : Kept s₀ s) : Kept s₀ (ashHeld s) := by
  unfold ashHeld
  repeat' first
      | (with_reducible first | assumption | apply modKvc_kept | apply Kept.foldl | rfl) | (intro _)
      | with_reducible apply Kept.ite | split | with_reducible refine Kept.mk' ?_ ?_ ?_ ?_

theorem zeroiseTest_kept {s₀ s : State} (hK : Kept s₀ s) : Kept s₀ (zeroiseTest s) := by
  unfold zeroiseTest
  repeat' first
      | (with_reducible first
          | assumption | apply kvInt_kept | apply zeroSlots_kept | apply ashHeld_kept | apply Kept.foldl | rfl)
      | (intro _) | with_reducible apply Kept.ite | split | with_reducible refine Kept.mk' ?_ ?_ ?_ ?_

theorem loadReject_kept {s₀ : State} {code sec ofs : Nat} {s : State} (hK : Kept s₀ s) : Kept s₀ (loadReject s
    code sec ofs) := by
  unfold loadReject
  repeat' first
      | (with_reducible first | assumption | apply stRefuse_kept | apply dropWork_kept | apply Kept.foldl | rfl)
      | (intro _) | with_reducible apply Kept.ite | split | with_reducible refine Kept.mk' ?_ ?_ ?_ ?_

theorem enterAsh_kept {s₀ s : State} (hK : Kept s₀ s) : Kept s₀ (enterAsh s) := by
  unfold enterAsh
  repeat' first
      | (with_reducible first | assumption | apply Kept.foldl | rfl) | (intro _) | with_reducible apply Kept.ite
      | split | with_reducible refine Kept.mk' ?_ ?_ ?_ ?_

theorem zeroiseVault_kept {s₀ s : State} (hK : Kept s₀ s) : Kept s₀ (zeroiseVault s) := by
  unfold zeroiseVault
  repeat' first
      | (with_reducible first
          | assumption | apply ashHeld_kept | apply abortOps_kept | apply kvInt_kept | apply loadReject_kept
          | apply zeroSlots_kept | apply enterAsh_kept | apply Kept.foldl | rfl)
      | (intro _) | with_reducible apply Kept.ite | split | with_reducible refine Kept.mk' ?_ ?_ ?_ ?_

theorem rootSlot_kept {s₀ : State} {i : Fin 128} {mat : List Byte} {s : State} (hK : Kept s₀ s) : Kept s₀
    (rootSlot s i mat) := by
  unfold rootSlot
  repeat' first
      | (with_reducible first | assumption | apply modSlot_kept | apply Kept.foldl | rfl) | (intro _)
      | with_reducible apply Kept.ite | split | with_reducible refine Kept.mk' ?_ ?_ ?_ ?_

theorem fixedKey_kept {s₀ : State} {k : Fin 128 × Fin 128 × String × Nat × Nat} {s : State} (hK : Kept s₀ s) :
    Kept s₀ (fixedKey s k) := by
  unfold fixedKey
  repeat' first
      | (with_reducible first | assumption | apply childSlot_kept | apply Kept.foldl | rfl) | (intro _)
      | with_reducible apply Kept.ite | split | with_reducible refine Kept.mk' ?_ ?_ ?_ ?_

theorem lmsStart_kept {s₀ : State} {j : Fin 2} {i : Fin 128} {s : State} (hK : Kept s₀ s) : Kept s₀ (lmsStart s j
    i) := by
  unfold lmsStart
  repeat' first
      | (with_reducible first | assumption | apply startTrees_kept | apply modLms_kept | apply Kept.foldl | rfl)
      | (intro _) | with_reducible apply Kept.ite | split | with_reducible refine Kept.mk' ?_ ?_ ?_ ?_

theorem loadRoots_kept {s₀ s : State} (hK : Kept s₀ s) : Kept s₀ (loadRoots s) := by
  unfold loadRoots
  repeat' first
      | (with_reducible first
          | assumption | apply fixedKey_kept | apply lmsStart_kept | apply rootSlot_kept | apply Kept.foldl | rfl)
      | (intro _) | with_reducible apply Kept.ite | split | with_reducible refine Kept.mk' ?_ ?_ ?_ ?_

theorem rekindle_kept {s₀ s : State} (hK : Kept s₀ s) : Kept s₀ (rekindle s) := by
  unfold rekindle
  repeat' first
      | (with_reducible first | assumption | apply kvInt_kept | apply entropyBytes_kept2)
      | refine entropyBytes_kept ?_ (by with_reducible assumption)
      | (with_reducible first | apply loadRoots_kept | apply Kept.foldl | rfl) | (intro _)
      | with_reducible apply Kept.ite | split | with_reducible refine Kept.mk' ?_ ?_ ?_ ?_

theorem rootLoad_kept {s₀ s : State} (hK : Kept s₀ s) : Kept s₀ (rootLoad s) := by
  unfold rootLoad
  repeat' first
      | (with_reducible first | assumption | apply kvInt_kept | apply enterAsh_kept | apply entropyBytes_kept2)
      | refine entropyBytes_kept ?_ (by with_reducible assumption)
      | (with_reducible first | apply loadRoots_kept | apply Kept.foldl | rfl) | (intro _)
      | with_reducible apply Kept.ite | split | with_reducible refine Kept.mk' ?_ ?_ ?_ ?_

theorem lcInt_kept {s₀ : State} {i : Nat} {s : State} (hK : Kept s₀ s) : Kept s₀ (lcInt s i) := by
  unfold lcInt
  repeat' first
      | (with_reducible first | assumption | apply Kept.foldl | rfl) | (intro _) | with_reducible apply Kept.ite
      | split | with_reducible refine Kept.mk' ?_ ?_ ?_ ?_

theorem healthFail_kept {s₀ s : State} (hK : Kept s₀ s) : Kept s₀ (healthFail s) := by
  unfold healthFail
  repeat' first
      | (with_reducible first | assumption | apply kvInt_kept | apply Kept.foldl | rfl) | (intro _)
      | with_reducible apply Kept.ite | split | with_reducible refine Kept.mk' ?_ ?_ ?_ ?_

theorem sweep_kept {s₀ s : State} (hK : Kept s₀ s) : Kept s₀ (sweep s) := by
  unfold sweep
  repeat' first
      | (with_reducible first | assumption | apply lmsDrop_kept | apply emptySlot_kept | apply Kept.foldl | rfl)
      | (intro _) | with_reducible apply Kept.ite | split | with_reducible refine Kept.mk' ?_ ?_ ?_ ?_

theorem entropyRetest_kept {s₀ : State} {pass : Bool} {s : State} (hK : Kept s₀ s) : Kept s₀ (entropyRetest s
    pass) := by
  unfold entropyRetest
  repeat' first
      | (with_reducible first | assumption | apply reachTime_kept | apply healthFail_kept | apply Kept.foldl | rfl)
      | (intro _) | with_reducible apply Kept.ite | split | with_reducible refine Kept.mk' ?_ ?_ ?_ ?_

theorem mbInt_kept {s₀ : State} {i : Nat} {s : State} (hK : Kept s₀ s) : Kept s₀ (mbInt s i) := by
  unfold mbInt
  repeat' first
      | (with_reducible first | assumption | apply Kept.foldl | rfl) | (intro _) | with_reducible apply Kept.ite
      | split | with_reducible refine Kept.mk' ?_ ?_ ?_ ?_

end Sys2Proof.Machine
end

