-- ==== Sys2Proof/Laws/KvOps.lean ====
section
/-! SUPPORT. What each operation of Machine/KvOps.lean keeps (`Kept`). -/

set_option linter.unusedTactic false
set_option linter.unreachableTactic false

namespace Sys2Proof.Machine

theorem kvRefuse_kept {s₀ : State} {code : Nat} {s : State} (hK : Kept s₀ s) : Kept s₀ (kvRefuse s code).s := by
  unfold kvRefuse
  repeat' first
      | (with_reducible first | assumption | apply Kept.foldl | rfl) | (intro _) | with_reducible apply Kept.ite
      | split | with_reducible refine Kept.mk' ?_ ?_ ?_ ?_

theorem kvDerive_kept {s₀ : State} {k : KvCore} {s : State} (hK : Kept s₀ s) : Kept s₀ (kvDerive s k).s := by
  unfold kvDerive
  dsimp only
  repeat' first
      | (with_reducible first | assumption | apply kvRefuse_kept | apply Kept.foldl | rfl) | (intro _)
      | with_reducible apply Kept.ite | split | with_reducible refine Kept.mk' ?_ ?_ ?_ ?_

theorem kvGenerate_kept {s₀ : State} {k : KvCore} {s : State} (hK : Kept s₀ s) : Kept s₀ (kvGenerate s k).s := by
  unfold kvGenerate
  dsimp only
  repeat' first
      | (with_reducible first | assumption | apply entropyBytes_kept2)
      | refine entropyBytes_kept ?_ (by with_reducible assumption)
      | (with_reducible first | apply kvRefuse_kept | apply Kept.foldl | rfl) | (intro _)
      | with_reducible apply Kept.ite | split | with_reducible refine Kept.mk' ?_ ?_ ?_ ?_

theorem kvUnwrap_kept {s₀ : State} {k : KvCore} {s : State} (hK : Kept s₀ s) : Kept s₀ (kvUnwrap s k).s := by
  unfold kvUnwrap
  dsimp only
  repeat' first
      | (with_reducible first | assumption | apply kvRefuse_kept | apply Kept.foldl | rfl) | (intro _)
      | with_reducible apply Kept.ite | split | with_reducible refine Kept.mk' ?_ ?_ ?_ ?_

theorem kvWrap_kept {s₀ : State} {k : KvCore} {s : State} (hK : Kept s₀ s) : Kept s₀ (kvWrap s k).s := by
  unfold kvWrap
  repeat' first
      | (with_reducible first | assumption | apply entropyBytes_kept2)
      | refine entropyBytes_kept ?_ (by with_reducible assumption)
      | (with_reducible first | apply kvRefuse_kept | apply Kept.foldl | rfl) | (intro _)
      | with_reducible apply Kept.ite | split | with_reducible refine Kept.mk' ?_ ?_ ?_ ?_

theorem kvRevoke_kept {s₀ : State} {k : KvCore} {s : State} (hK : Kept s₀ s) : Kept s₀ (kvRevoke s k).s := by
  unfold kvRevoke
  repeat' first
      | (with_reducible first | assumption | apply revokeSlot_kept | apply kvRefuse_kept | apply Kept.foldl | rfl)
      | (intro _) | with_reducible apply Kept.ite | split | with_reducible refine Kept.mk' ?_ ?_ ?_ ?_

theorem kvReplace_kept {s₀ : State} {k : KvCore} {s : State} (hK : Kept s₀ s) : Kept s₀ (kvReplace s k).s := by
  unfold kvReplace
  dsimp only
  repeat' first
      | (with_reducible first | assumption | apply entropyBytes_kept2)
      | refine entropyBytes_kept ?_ (by with_reducible assumption)
      | (with_reducible first | apply kvRefuse_kept | apply Kept.foldl | rfl) | (intro _)
      | with_reducible apply Kept.ite | split | with_reducible refine Kept.mk' ?_ ?_ ?_ ?_

theorem kvCommit_kept {s₀ : State} {k : KvCore} {s : State} (hK : Kept s₀ s) : Kept s₀ (kvCommit s k).s := by
  unfold kvCommit
  repeat' first
      | (with_reducible first | assumption | apply kvRefuse_kept | apply Kept.foldl | rfl) | (intro _)
      | with_reducible apply Kept.ite | split | with_reducible refine Kept.mk' ?_ ?_ ?_ ?_

theorem kvCancel_kept {s₀ : State} {k : KvCore} {s : State} (hK : Kept s₀ s) : Kept s₀ (kvCancel s k).s := by
  unfold kvCancel
  repeat' first
      | (with_reducible first | assumption | apply modSlot_kept | apply kvRefuse_kept | apply Kept.foldl | rfl)
      | (intro _) | with_reducible apply Kept.ite | split | with_reducible refine Kept.mk' ?_ ?_ ?_ ?_

theorem kvKcv_kept {s₀ : State} {k : KvCore} {s : State} (hK : Kept s₀ s) : Kept s₀ (kvKcv s k).s := by
  unfold kvKcv
  repeat' first
      | (with_reducible first | assumption | apply kvRefuse_kept | apply Kept.foldl | rfl) | (intro _)
      | with_reducible apply Kept.ite | split | with_reducible refine Kept.mk' ?_ ?_ ?_ ?_

theorem kvHmac_kept {s₀ : State} {k : KvCore} {s : State} (hK : Kept s₀ s) : Kept s₀ (kvHmac s k).s := by
  unfold kvHmac
  dsimp only
  repeat' first
      | (with_reducible first | assumption | apply kvRefuse_kept | apply Kept.foldl | rfl) | (intro _)
      | with_reducible apply Kept.ite | split | with_reducible refine Kept.mk' ?_ ?_ ?_ ?_

theorem kvGcm_kept {s₀ : State} {enc : Bool} {k : KvCore} {s : State} (hK : Kept s₀ s) : Kept s₀ (kvGcm enc s k).s := by
  unfold kvGcm
  dsimp only
  repeat' first
      | (with_reducible first | assumption | apply kvRefuse_kept | apply Kept.foldl | rfl) | (intro _)
      | with_reducible apply Kept.ite | split | with_reducible refine Kept.mk' ?_ ?_ ?_ ?_

theorem nextTree_kept {s₀ : State} {j : Fin 2} {s : State} (hK : Kept s₀ s) : Kept s₀ (nextTree s j) := by
  unfold nextTree
  repeat' first
      | (with_reducible first | assumption | apply startTrees_kept | apply modLms_kept | apply Kept.foldl | rfl)
      | (intro _) | with_reducible apply Kept.ite | split | with_reducible refine Kept.mk' ?_ ?_ ?_ ?_

theorem takeLeaf_kept {s₀ : State} {j : Fin 2} {s : State} (hK : Kept s₀ s) : Kept s₀ (takeLeaf s j) := by
  unfold takeLeaf
  repeat' first
      | (with_reducible first | assumption | apply modLms_kept | apply nextTree_kept | apply Kept.foldl | rfl)
      | (intro _) | with_reducible apply Kept.ite | split | with_reducible refine Kept.mk' ?_ ?_ ?_ ?_

theorem signWith_kept2 {s₀ : State} {j : Fin 2} {msg : List Byte} {s : State} (hK : Kept s₀ s) : Kept s₀ (signWith
    s j msg).2 := by
  unfold signWith
  repeat' first
      | (with_reducible first | assumption | apply takeLeaf_kept | apply Kept.foldl | rfl) | (intro _)
      | with_reducible apply Kept.ite | split | with_reducible refine Kept.mk' ?_ ?_ ?_ ?_

theorem signWith_kept {s₀ : State} {j : Fin 2} {msg : List Byte} {s : State} {p0 t} (hK : Kept s₀ s) (e :
    (signWith s j msg) = (p0, t)) : Kept s₀ t := by
  have := signWith_kept2 (j := j) (msg := msg) hK
  rw [e] at this
  exact this

theorem kvSign_kept {s₀ : State} {k : KvCore} {s : State} (hK : Kept s₀ s) : Kept s₀ (kvSign s k).s := by
  unfold kvSign
  dsimp only
  repeat' first
      | (with_reducible first | assumption | apply signWith_kept2)
      | refine signWith_kept ?_ (by with_reducible assumption)
      | (with_reducible first | apply kvRefuse_kept | apply Kept.foldl | rfl) | (intro _)
      | with_reducible apply Kept.ite | split | with_reducible refine Kept.mk' ?_ ?_ ?_ ?_

theorem kvAlias_kept {s₀ : State} {billet : Nat} {k : KvCore} {s : State} (hK : Kept s₀ s) : Kept s₀ (kvAlias
    billet s k).s := by
  unfold kvAlias
  dsimp only
  repeat' first
      | (with_reducible first
          | assumption | apply startTrees_kept | apply kvRefuse_kept | apply modLms_kept | apply signWith_kept2)
      | refine signWith_kept ?_ (by with_reducible assumption)
      | (with_reducible first | apply childSlot_kept | apply leafWrite_kept | apply Kept.foldl | rfl) | (intro _)
      | with_reducible apply Kept.ite | split | with_reducible refine Kept.mk' ?_ ?_ ?_ ?_

theorem kvPubkey_kept {s₀ : State} {k : KvCore} {s : State} (hK : Kept s₀ s) : Kept s₀ (kvPubkey s k).s := by
  unfold kvPubkey
  repeat' first
      | (with_reducible first | assumption | apply kvRefuse_kept | apply Kept.foldl | rfl) | (intro _)
      | with_reducible apply Kept.ite | split | with_reducible refine Kept.mk' ?_ ?_ ?_ ?_

theorem kvOpFn_kept {s₀ : State} {op billet : Nat} {k : KvCore} {s : State} (hK : Kept s₀ s) : Kept s₀ (kvOpFn op
    billet s k).s := by
  unfold kvOpFn
  repeat' first
      | (with_reducible first
          | assumption | apply kvCommit_kept | apply kvRevoke_kept | apply kvKcv_kept | apply kvAlias_kept
          | apply kvUnwrap_kept | apply kvSign_kept | apply kvWrap_kept | apply kvReplace_kept | apply kvDerive_kept
          | apply kvPubkey_kept | apply kvGenerate_kept | apply kvHmac_kept | apply kvRefuse_kept
          | apply kvCancel_kept | apply kvGcm_kept | apply Kept.foldl | rfl)
      | (intro _) | with_reducible apply Kept.ite | split | with_reducible refine Kept.mk' ?_ ?_ ?_ ?_

theorem kvTake_kept {s₀ : State} {c : Core} {s : State} (hK : Kept s₀ s) : Kept s₀ (kvTake s c) := by
  unfold kvTake
  repeat' first
      | (with_reducible first
          | assumption | apply aesEnq_kept | apply modKvc_kept | apply kvOpFn_kept | apply hashEnq_kept
          | apply Kept.foldl | rfl)
      | (intro _) | with_reducible apply Kept.ite | split | with_reducible refine Kept.mk' ?_ ?_ ?_ ?_

theorem kvServe_kept {s₀ : State} {a1 : Nat} {a2 : State} (hK : Kept s₀ a2) : Kept s₀ (kvServe a1 a2) := by
  induction a1 generalizing a2 with
  | zero =>
    unfold kvServe
    repeat' first
        | (with_reducible first | assumption | apply kvTake_kept | apply Kept.foldl | rfl) | (intro _)
        | with_reducible apply Kept.ite | split | with_reducible refine Kept.mk' ?_ ?_ ?_ ?_
  | succ _ ih =>
    unfold kvServe
    repeat' first
        | with_reducible apply ih | (with_reducible first | assumption | apply kvTake_kept | apply Kept.foldl | rfl)
        | (intro _) | with_reducible apply Kept.ite | split | with_reducible refine Kept.mk' ?_ ?_ ?_ ?_

theorem kvPost_kept {s₀ : State} {c : Core} {code : Nat} {o0 o1 : Word} {s : State} (hK : Kept s₀ s) : Kept s₀
    (kvPost s c code o0 o1) := by
  unfold kvPost
  repeat' first
      | (with_reducible first | assumption | apply kvInt_kept | apply modKvc_kept | apply Kept.foldl | rfl)
      | (intro _) | with_reducible apply Kept.ite | split | with_reducible refine Kept.mk' ?_ ?_ ?_ ?_

theorem kvQueue_kept {s₀ : State} {i : QItem} {s : State} (hK : Kept s₀ s) : Kept s₀ (kvQueue s i) := by
  unfold kvQueue
  repeat' first
      | (with_reducible first | assumption | apply Kept.foldl | rfl) | (intro _) | with_reducible apply Kept.ite
      | split | with_reducible refine Kept.mk' ?_ ?_ ?_ ?_

theorem kvGo_kept {s₀ : State} {c : Core} {s : State} (hK : Kept s₀ s) : Kept s₀ (kvGo s c) := by
  unfold kvGo
  repeat' first
      | (with_reducible first
          | assumption | apply kvQueue_kept | apply kvServe_kept | apply kvPost_kept | apply modKvc_kept
          | apply draw_kept2)
      | refine draw_kept ?_ (by with_reducible assumption) | (with_reducible first | apply Kept.foldl | rfl)
      | (intro _) | with_reducible apply Kept.ite | split | with_reducible refine Kept.mk' ?_ ?_ ?_ ?_

theorem kvCommand_kept {s₀ : State} {op : BitVec 5} {c : Core} {s : State} (hK : Kept s₀ s) : Kept s₀ (kvCommand
    op s c) := by
  unfold kvCommand
  repeat' first
      | (with_reducible first | assumption | apply kvGo_kept | apply modKvc_kept | apply Kept.foldl | rfl)
      | (intro _) | with_reducible apply Kept.ite | split | with_reducible refine Kept.mk' ?_ ?_ ?_ ?_

theorem kvWorked_kept {s₀ : State} {r : KvRun} {s t : State} (hK : Kept s₀ s) (e : kvWorked s r = some t) : Kept
    s₀ t := by
  unfold kvWorked at e
  split at e
  · cases e
  · obtain ⟨u, hu, ht⟩ := Option.bind_eq_some_iff.1 e
    exact aesDone_kept (unitDone_kept hK hu) ht

theorem kvApply_kept {s₀ : State} {r : KvRun} {s : State} (hK : Kept s₀ s) : Kept s₀ (kvApply s r) := by
  unfold kvApply
  repeat' first
      | (with_reducible first | assumption | apply ramWrite_kept | apply modSlot_kept | apply Kept.foldl | rfl)
      | (intro _) | with_reducible apply Kept.ite | split | with_reducible refine Kept.mk' ?_ ?_ ?_ ?_

theorem kvOpEnd_kept {s₀ : State} {c : Core} {s : State} (hK : Kept s₀ s) : Kept s₀ (kvOpEnd s c) := by
  unfold kvOpEnd
  repeat' first
      | (with_reducible first | assumption | apply kvInt_kept)
      | refine kvWorked_kept ?_ (by with_reducible assumption)
      | (with_reducible first
          | apply lmsDrop_kept | apply kvPost_kept | apply modSlot_kept | apply abortOps_kept | apply modKvc_kept
          | apply kvServe_kept | apply kvApply_kept | apply retire_kept | apply Kept.foldl | rfl)
      | (intro _) | with_reducible apply Kept.ite | split | with_reducible refine Kept.mk' ?_ ?_ ?_ ?_

theorem leafJournal_kept {s₀ : State} {j : Fin 2} {failed : Bool} {s : State} (hK : Kept s₀ s) : Kept s₀
    (leafJournal s j failed) := by
  unfold leafJournal
  repeat' first
      | (with_reducible first
          | assumption | apply mbInt_kept | apply leafWrite_kept | apply modLms_kept | apply Kept.foldl | rfl)
      | (intro _) | with_reducible apply Kept.ite | split | with_reducible refine Kept.mk' ?_ ?_ ?_ ?_

theorem treesStand_kept {s₀ : State} {j : Fin 2} {s : State} (hK : Kept s₀ s) : Kept s₀ (treesStand s j) := by
  unfold treesStand
  repeat' first
      | (with_reducible first
          | assumption | apply startTrees_kept | apply mbInt_kept | apply modLms_kept | apply Kept.foldl | rfl)
      | (intro _) | with_reducible apply Kept.ite | split | with_reducible refine Kept.mk' ?_ ?_ ?_ ?_

theorem treeDone_kept {s₀ : State} {j : Fin 2} {s : State} (hK : Kept s₀ s) : Kept s₀ (treeDone s j) := by
  unfold treeDone
  repeat' first
      | (with_reducible first
          | assumption | apply startTrees_kept | apply treesStand_kept | apply hashDrop_kept | apply retire_kept
          | apply Kept.foldl | rfl)
      | (intro _) | with_reducible apply Kept.ite | split | with_reducible refine Kept.mk' ?_ ?_ ?_ ?_

end Sys2Proof.Machine
end

