-- ==== Sys2Proof/Laws/Link.lean ====
section
/-! SUPPORT. What each operation of Machine/Link.lean keeps (`Kept`). -/

set_option linter.unusedTactic false
set_option linter.unreachableTactic false

namespace Sys2Proof.Machine

theorem modLink_kept {s₀ : State} {l : Link} {f : FlueRt → FlueRt} {s : State} (hK : Kept s₀ s) : Kept s₀ (modLink
    s l f) := by
  unfold modLink
  repeat' first
      | (with_reducible first | assumption | apply Kept.foldl | rfl) | (intro _) | with_reducible apply Kept.ite
      | split | with_reducible refine Kept.mk' ?_ ?_ ?_ ?_

theorem pumpLink_kept {s₀ : State} {l : Link} {s : State} (hK : Kept s₀ s) : Kept s₀ (pumpLink s l) := by
  unfold pumpLink
  repeat' first
      | (with_reducible first | assumption | apply modLink_kept | apply Kept.foldl | rfl) | (intro _)
      | with_reducible apply Kept.ite | split | with_reducible refine Kept.mk' ?_ ?_ ?_ ?_

theorem sendOn_kept {s₀ : State} {l : Link} {fr : FabFrame} {s : State} (hK : Kept s₀ s) : Kept s₀ (sendOn s l fr) := by
  unfold sendOn
  repeat' first
      | (with_reducible first | assumption | apply pumpLink_kept | apply modLink_kept | apply Kept.foldl | rfl)
      | (intro _) | with_reducible apply Kept.ite | split | with_reducible refine Kept.mk' ?_ ?_ ?_ ?_

theorem pairSend_kept {s₀ : State} {typ : Byte} {arg : Word} {payload : List Byte} {s : State} (hK : Kept s₀ s) :
    Kept s₀ (pairSend s typ arg payload) := by
  unfold pairSend
  repeat' first
      | (with_reducible first | assumption | apply sendOn_kept | apply Kept.foldl | rfl) | (intro _)
      | with_reducible apply Kept.ite | split | with_reducible refine Kept.mk' ?_ ?_ ?_ ?_

theorem fbInt_kept {s₀ : State} {i : Nat} {s : State} (hK : Kept s₀ s) : Kept s₀ (fbInt s i) := by
  unfold fbInt
  repeat' first
      | (with_reducible first | assumption | apply Kept.foldl | rfl) | (intro _) | with_reducible apply Kept.ite
      | split | with_reducible refine Kept.mk' ?_ ?_ ?_ ?_

theorem startYield_kept {s₀ s : State} (hK : Kept s₀ s) : Kept s₀ (startYield s) := by
  unfold startYield
  repeat' first
      | (with_reducible first | assumption | apply pairSend_kept | apply Kept.foldl | rfl) | (intro _)
      | with_reducible apply Kept.ite | split | with_reducible refine Kept.mk' ?_ ?_ ?_ ?_

theorem diagFail_kept {s₀ : State} {b : Nat} {s : State} (hK : Kept s₀ s) : Kept s₀ (diagFail s b) := by
  unfold diagFail
  repeat' first
      | (with_reducible first | assumption | apply startYield_kept | apply Kept.foldl | rfl) | (intro _)
      | with_reducible apply Kept.ite | split | with_reducible refine Kept.mk' ?_ ?_ ?_ ?_

theorem tpInt_kept {s₀ : State} {i : Nat} {s : State} (hK : Kept s₀ s) : Kept s₀ (tpInt s i) := by
  unfold tpInt
  repeat' first
      | (with_reducible first | assumption | apply Kept.foldl | rfl) | (intro _) | with_reducible apply Kept.ite
      | split | with_reducible refine Kept.mk' ?_ ?_ ?_ ?_

theorem prInt_kept {s₀ : State} {i : Nat} {s : State} (hK : Kept s₀ s) : Kept s₀ (prInt s i) := by
  unfold prInt
  repeat' first
      | (with_reducible first | assumption | apply Kept.foldl | rfl) | (intro _) | with_reducible apply Kept.ite
      | split | with_reducible refine Kept.mk' ?_ ?_ ?_ ?_

theorem parityCount_kept {s₀ s : State} (hK : Kept s₀ s) : Kept s₀ (parityCount s) := by
  unfold parityCount
  repeat' first
      | (with_reducible first | assumption | apply diagFail_kept | apply Kept.foldl | rfl) | (intro _)
      | with_reducible apply Kept.ite | split | with_reducible refine Kept.mk' ?_ ?_ ?_ ?_

theorem linkAck_kept {s₀ : State} {l : Link} {s : State} (hK : Kept s₀ s) : Kept s₀ (linkAck s l) := by
  unfold linkAck
  repeat' first
      | (with_reducible first | assumption | apply modLink_kept | apply Kept.foldl | rfl) | (intro _)
      | with_reducible apply Kept.ite | split | with_reducible refine Kept.mk' ?_ ?_ ?_ ?_

theorem linkTake_kept2 {s₀ : State} {l : Link} {fr : FabFrame} {s : State} (hK : Kept s₀ s) : Kept s₀ (linkTake s
    l fr).2 := by
  unfold linkTake
  dsimp only
  repeat' first
      | (with_reducible first | assumption | apply modLink_kept | apply Kept.foldl | rfl) | (intro _)
      | with_reducible apply Kept.ite | split | with_reducible refine Kept.mk' ?_ ?_ ?_ ?_

theorem linkTake_kept {s₀ : State} {l : Link} {fr : FabFrame} {s : State} {p0 t} (hK : Kept s₀ s) (e : (linkTake s
    l fr) = (p0, t)) : Kept s₀ t := by
  have := linkTake_kept2 (l := l) (fr := fr) hK
  rw [e] at this
  exact this

end Sys2Proof.Machine
end

