-- ==== Sys2Proof/Laws/Watchdog.lean ====
section
/-! SUPPORT. What each operation of Machine/Watchdog.lean keeps (`Kept`). -/

set_option linter.unusedTactic false
set_option linter.unreachableTactic false

namespace Sys2Proof.Machine

theorem modTs_kept {s₀ : State} {i : Fin 16} {f : TsRt → TsRt} {s : State} (hK : Kept s₀ s) : Kept s₀ (modTs s i
    f) := by
  unfold modTs
  repeat' first
      | (with_reducible first | assumption | apply Kept.foldl | rfl) | (intro _) | with_reducible apply Kept.ite
      | split | with_reducible refine Kept.mk' ?_ ?_ ?_ ?_

theorem tsArm_kept {s₀ : State} {i : Fin 16} {s : State} (hK : Kept s₀ s) : Kept s₀ (tsArm s i) := by
  unfold tsArm
  repeat' first
      | (with_reducible first | assumption | apply modTs_kept | apply Kept.foldl | rfl) | (intro _)
      | with_reducible apply Kept.ite | split | with_reducible refine Kept.mk' ?_ ?_ ?_ ?_

theorem modWd_kept {s₀ : State} {w : Fin 5} {f : WdRt → WdRt} {s : State} (hK : Kept s₀ s) : Kept s₀ (modWd s w f) := by
  unfold modWd
  repeat' first
      | (with_reducible first | assumption | apply Kept.foldl | rfl) | (intro _) | with_reducible apply Kept.ite
      | split | with_reducible refine Kept.mk' ?_ ?_ ?_ ?_

theorem wdSeed_kept {s₀ : State} {w : Fin 5} {start : Bool} {s : State} (hK : Kept s₀ s) : Kept s₀ (wdSeed s w
    start) := by
  unfold wdSeed
  repeat' first
      | (with_reducible first | assumption | apply entropyBytes_kept2)
      | refine entropyBytes_kept ?_ (by with_reducible assumption)
      | (with_reducible first | apply modWd_kept | apply wdInt_kept | apply Kept.foldl | rfl) | (intro _)
      | with_reducible apply Kept.ite | split | with_reducible refine Kept.mk' ?_ ?_ ?_ ?_

theorem wdStart_kept {s₀ : State} {w : Fin 5} {s : State} (hK : Kept s₀ s) : Kept s₀ (wdStart s w) := by
  unfold wdStart
  repeat' first
      | (with_reducible first | assumption | apply wdSeed_kept | apply modWd_kept | apply Kept.foldl | rfl)
      | (intro _) | with_reducible apply Kept.ite | split | with_reducible refine Kept.mk' ?_ ?_ ?_ ?_

theorem tsCheckin_kept {s₀ : State} {i t : Fin 16} {c : Core} {s : State} (hK : Kept s₀ s) : Kept s₀ (tsCheckin s
    i t c) := by
  unfold tsCheckin
  repeat' first
      | (with_reducible first | assumption | apply modWd_kept | apply modTs_kept | apply Kept.foldl | rfl)
      | (intro _) | with_reducible apply Kept.ite | split | with_reducible refine Kept.mk' ?_ ?_ ?_ ?_

theorem nmiCauseBit_kept {s₀ : State} {c : Core} {b : Nat} {s : State} (hK : Kept s₀ s) : Kept s₀ (nmiCauseBit s c
    b) := by
  unfold nmiCauseBit
  repeat' first
      | (with_reducible first | assumption | apply Kept.foldl | rfl) | (intro _) | with_reducible apply Kept.ite
      | split | with_reducible refine Kept.mk' ?_ ?_ ?_ ?_

theorem nmiTrap_kept {s₀ : State} {c : Core} {b : Nat} {s : State} (hK : Kept s₀ s) : Kept s₀ (nmiTrap s c b) := by
  unfold nmiTrap
  have h := nmiCauseBit_kept (c := c) (b := b) hK
  extract_lets s1 s2
  exact Kept.ite (modCore_kept (Kept.mk' h rfl rfl rfl)) h

theorem captureEvidence_kept {s₀ : State} {w : Fin 5} {fault : Nat} {set : Option (Nat × Nat)} {s : State} (hK :
    Kept s₀ s) : Kept s₀ (captureEvidence s w fault set) := by
  unfold captureEvidence
  repeat' first
      | (with_reducible first | assumption | apply Kept.foldl | rfl) | (intro _) | with_reducible apply Kept.ite
      | split | with_reducible refine Kept.mk' ?_ ?_ ?_ ?_

theorem wdExpire_kept {s₀ : State} {w : Fin 5} {fault : Nat} {set : Option (Nat × Nat)} {s : State} (hK : Kept s₀
    s) : Kept s₀ (wdExpire s w fault set) := by
  unfold wdExpire
  repeat' first
      | (with_reducible first
          | assumption | apply modWd_kept | apply captureEvidence_kept | apply diagFail_kept | apply nmiTrap_kept
          | apply Kept.foldl | rfl)
      | (intro _) | with_reducible apply Kept.ite | split | with_reducible refine Kept.mk' ?_ ?_ ?_ ?_

theorem wdStoke_kept {s₀ : State} {w : Fin 5} {c : Core} {tok : Word} {s : State} (hK : Kept s₀ s) : Kept s₀
    (wdStoke s w c tok) := by
  unfold wdStoke
  repeat' first
      | (with_reducible first | assumption | apply modWd_kept | apply wdExpire_kept | apply Kept.foldl | rfl)
      | (intro _) | with_reducible apply Kept.ite | split | with_reducible refine Kept.mk' ?_ ?_ ?_ ?_

theorem wdArm_kept {s₀ : State} {w : Fin 5} {c : Core} {s : State} (hK : Kept s₀ s) : Kept s₀ (wdArm s w c) := by
  unfold wdArm
  repeat' first
      | (with_reducible first | assumption | apply wdSeed_kept | apply modWd_kept | apply Kept.foldl | rfl)
      | (intro _) | with_reducible apply Kept.ite | split | with_reducible refine Kept.mk' ?_ ?_ ?_ ?_

theorem romStoke_kept {s₀ s : State} (hK : Kept s₀ s) : Kept s₀ (romStoke s) := by
  unfold romStoke
  repeat' first
      | (with_reducible first | assumption | apply modWd_kept | apply Kept.foldl | rfl) | (intro _)
      | with_reducible apply Kept.ite | split | with_reducible refine Kept.mk' ?_ ?_ ?_ ?_

theorem wdOpen_kept {s₀ : State} {w : Fin 5} {s : State} (hK : Kept s₀ s) : Kept s₀ (wdOpen s w) := by
  unfold wdOpen
  repeat' first
      | (with_reducible first | assumption | apply modWd_kept | apply reachTime_kept | apply Kept.foldl | rfl)
      | (intro _) | with_reducible apply Kept.ite | split | with_reducible refine Kept.mk' ?_ ?_ ?_ ?_

theorem wdWindowExpiry_kept {s₀ : State} {w : Fin 5} {s : State} (hK : Kept s₀ s) : Kept s₀ (wdWindowExpiry s w) := by
  unfold wdWindowExpiry
  repeat' first
      | (with_reducible first | assumption | apply wdExpire_kept | apply reachTime_kept | apply Kept.foldl | rfl)
      | (intro _) | with_reducible apply Kept.ite | split | with_reducible refine Kept.mk' ?_ ?_ ?_ ?_

theorem tsPeriodEnd_kept {s₀ : State} {i : Fin 16} {s : State} (hK : Kept s₀ s) : Kept s₀ (tsPeriodEnd s i) := by
  unfold tsPeriodEnd
  repeat' first
      | (with_reducible first
          | assumption | apply modTs_kept | apply reachTime_kept | apply wdInt_kept | apply wdExpire_kept
          | apply diagFail_kept | apply Kept.foldl | rfl)
      | (intro _) | with_reducible apply Kept.ite | split | with_reducible refine Kept.mk' ?_ ?_ ?_ ?_

end Sys2Proof.Machine
end

