-- ==== Sys2Proof/Laws/LifeCycle.lean ====
section
/-! SUPPORT. What each operation of Machine/LifeCycle.lean keeps (`Kept`). -/

set_option linter.unusedTactic false
set_option linter.unreachableTactic false

namespace Sys2Proof.Machine

theorem onLive_kept {s₀ : State} {f : State → State} {s : State} (hK : Kept s₀ s) (hf : ∀ t, Kept s₀ t → Kept s₀
    (f t )) : Kept s₀ (onLive s f) := by
  unfold onLive
  repeat' first
      | (with_reducible first | assumption) | apply hf | (with_reducible first | apply Kept.foldl | rfl) | (intro _)
      | with_reducible apply Kept.ite | split | with_reducible refine Kept.mk' ?_ ?_ ?_ ?_

theorem lcRun_kept {s₀ : State} {n : Nat} {l : List LcAct} {s : State} (hK : Kept s₀ s) : Kept s₀ (lcRun n l s) := by
  induction l generalizing n s with
  | nil => simpa only [lcRun] using hK
  | cons x l ih =>
    cases n with
    | zero => simpa only [lcRun] using hK
    | succ n =>
      cases x with
      | zeroise test =>
        rw [lcRun]
        · exact ih (Kept.ite (zeroiseTest_kept hK) (zeroiseVault_kept hK))
        · exact Nat.succ_ne_zero n
      | prog a bs =>
        rw [lcRun]
        · exact Kept.ite (ih (otpProg_kept hK)) (otpProg_kept hK)
        · exact Nat.succ_ne_zero n

theorem lcCut_kept {s₀ : State} {r : LcRun} {s : State} (hK : Kept s₀ s) : Kept s₀ (lcCut s r) := by
  unfold lcCut
  repeat' first
      | (with_reducible first | assumption | apply lcRun_kept | apply useFree_kept | apply Kept.foldl | rfl)
      | (intro _) | with_reducible apply Kept.ite | split | with_reducible refine Kept.mk' ?_ ?_ ?_ ?_

theorem lcTorn_kept {s₀ s : State} (hK : Kept s₀ s) : Kept s₀ (lcTorn s) := by
  unfold lcTorn
  repeat' first
      | (with_reducible first | assumption | apply lcCut_kept | apply Kept.foldl | rfl) | (intro _)
      | with_reducible apply Kept.ite | split | with_reducible refine Kept.mk' ?_ ?_ ?_ ?_

theorem lcFinish_kept {s₀ : State} {code : Nat} {s : State} (hK : Kept s₀ s) : Kept s₀ (lcFinish s code) := by
  unfold lcFinish
  repeat' first
      | (with_reducible first | assumption | apply lcInt_kept | apply Kept.foldl | rfl) | (intro _)
      | with_reducible apply Kept.ite | split | with_reducible refine Kept.mk' ?_ ?_ ?_ ?_

theorem provClear_kept {s₀ s : State} (hK : Kept s₀ s) : Kept s₀ (provClear s) := by
  unfold provClear
  repeat' first
      | (with_reducible first | assumption | apply Kept.foldl | rfl) | (intro _) | with_reducible apply Kept.ite
      | split | with_reducible refine Kept.mk' ?_ ?_ ?_ ?_

theorem lcCommand_kept {s₀ : State} {m : Master} {op : Nat} {f : State → State} {s : State} (hK : Kept s₀ s) (hf :
    ∀ t, Kept s₀ t → Kept s₀ (f t )) : Kept s₀ (lcCommand s m op f) := by
  unfold lcCommand
  repeat' first
      | (with_reducible first | assumption) | apply hf
      | (with_reducible first | apply lcFinish_kept | apply provClear_kept | apply Kept.foldl | rfl) | (intro _)
      | with_reducible apply Kept.ite | split | with_reducible refine Kept.mk' ?_ ?_ ?_ ?_

theorem actsToTest_kept2 {s₀ s : State} (hK : Kept s₀ s) : Kept s₀ (actsToTest s).2 := by
  unfold actsToTest
  repeat' first
      | (with_reducible first | assumption | apply entropyBytes_kept2)
      | refine entropyBytes_kept ?_ (by with_reducible assumption) | (with_reducible first | apply Kept.foldl | rfl)
      | (intro _) | with_reducible apply Kept.ite | split | with_reducible refine Kept.mk' ?_ ?_ ?_ ?_

theorem actsToTest_kept {s₀ s : State} {p0 t} (hK : Kept s₀ s) (e : (actsToTest s) = (p0, t)) : Kept s₀ t := by
  have := actsToTest_kept2  hK
  rw [e] at this
  exact this

theorem lcActs_kept2 {s₀ : State} {op g : Nat} {resumed : Bool} {s : State} (hK : Kept s₀ s) : Kept s₀ (lcActs s
    op g resumed).2 := by
  unfold lcActs
  repeat' first
      | (with_reducible first | assumption | apply actsToTest_kept2)
      | refine actsToTest_kept ?_ (by with_reducible assumption) | (with_reducible first | apply Kept.foldl | rfl)
      | (intro _) | with_reducible apply Kept.ite | split | with_reducible refine Kept.mk' ?_ ?_ ?_ ?_

theorem lcActs_kept {s₀ : State} {op g : Nat} {resumed : Bool} {s : State} {p0 t} (hK : Kept s₀ s) (e : (lcActs s
    op g resumed) = (p0, t)) : Kept s₀ t := by
  have := lcActs_kept2 (op := op) (g := g) (resumed := resumed) hK
  rw [e] at this
  exact this

theorem lcStart_kept {s₀ : State} {op g : Nat} {s : State} (hK : Kept s₀ s) : Kept s₀ (lcStart s op g) := by
  unfold lcStart
  repeat' first
      | (with_reducible first | assumption | apply lcFinish_kept | apply otpProg_kept | apply lcActs_kept2)
      | refine lcActs_kept ?_ (by with_reducible assumption) | (with_reducible first | apply Kept.foldl | rfl)
      | (intro _) | with_reducible apply Kept.ite | split | with_reducible refine Kept.mk' ?_ ?_ ?_ ?_

theorem lcToTest_kept {s₀ s : State} (hK : Kept s₀ s) : Kept s₀ (lcToTest s) := by
  unfold lcToTest
  repeat' first
      | (with_reducible first | assumption | apply lcStart_kept | apply lcFinish_kept | apply Kept.foldl | rfl)
      | (intro _) | with_reducible apply Kept.ite | split | with_reducible refine Kept.mk' ?_ ?_ ?_ ?_

theorem lcToProduction_kept {s₀ s : State} (hK : Kept s₀ s) : Kept s₀ (lcToProduction s) := by
  unfold lcToProduction
  repeat' first
      | (with_reducible first | assumption | apply lcStart_kept | apply lcFinish_kept | apply Kept.foldl | rfl)
      | (intro _) | with_reducible apply Kept.ite | split | with_reducible refine Kept.mk' ?_ ?_ ?_ ?_

theorem lcProvision_kept {s₀ s : State} (hK : Kept s₀ s) : Kept s₀ (lcProvision s) := by
  unfold lcProvision
  repeat' first
      | (with_reducible first
          | assumption | apply lcStart_kept | apply lcFinish_kept | apply provClear_kept | apply Kept.foldl | rfl)
      | (intro _) | with_reducible apply Kept.ite | split | with_reducible refine Kept.mk' ?_ ?_ ?_ ?_

theorem tokenStart_kept {s₀ s : State} (hK : Kept s₀ s) : Kept s₀ (tokenStart s) := by
  unfold tokenStart
  repeat' first
      | (with_reducible first | assumption | apply hashJobs_kept | apply draw_kept2)
      | refine draw_kept ?_ (by with_reducible assumption) | (with_reducible first | apply Kept.foldl | rfl)
      | (intro _) | with_reducible apply Kept.ite | split | with_reducible refine Kept.mk' ?_ ?_ ?_ ?_

theorem lcRedeem_kept {s₀ s : State} (hK : Kept s₀ s) : Kept s₀ (lcRedeem s) := by
  unfold lcRedeem
  repeat' first
      | (with_reducible first | assumption | apply lcFinish_kept | apply tokenStart_kept | apply Kept.foldl | rfl)
      | (intro _) | with_reducible apply Kept.ite | split | with_reducible refine Kept.mk' ?_ ?_ ?_ ?_

theorem lcToEol_kept {s₀ s : State} (hK : Kept s₀ s) : Kept s₀ (lcToEol s) := by
  unfold lcToEol
  repeat' first
      | (with_reducible first | assumption | apply lcStart_kept | apply lcFinish_kept | apply Kept.foldl | rfl)
      | (intro _) | with_reducible apply Kept.ite | split | with_reducible refine Kept.mk' ?_ ?_ ?_ ?_

theorem lcNonce_kept {s₀ s : State} (hK : Kept s₀ s) : Kept s₀ (lcNonce s) := by
  unfold lcNonce
  repeat' first
      | (with_reducible first | assumption | apply lcFinish_kept | apply entropyBytes_kept2)
      | refine entropyBytes_kept ?_ (by with_reducible assumption) | (with_reducible first | apply Kept.foldl | rfl)
      | (intro _) | with_reducible apply Kept.ite | split | with_reducible refine Kept.mk' ?_ ?_ ?_ ?_

theorem lcResume_kept {s₀ s : State} (hK : Kept s₀ s) : Kept s₀ (lcResume s) := by
  unfold lcResume
  repeat' first
      | (with_reducible first
          | assumption | apply lcInt_kept | apply otpProg_kept | apply lcRun_kept | apply lcActs_kept2)
      | refine lcActs_kept ?_ (by with_reducible assumption) | (with_reducible first | apply Kept.foldl | rfl)
      | (intro _) | with_reducible apply Kept.ite | split | with_reducible refine Kept.mk' ?_ ?_ ?_ ?_

theorem lcEnd_kept {s₀ : State} {otpFail : Bool} {s : State} (hK : Kept s₀ s) : Kept s₀ (lcEnd s otpFail) := by
  unfold lcEnd
  repeat' first
      | (with_reducible first
          | assumption | apply lcFinish_kept | apply provClear_kept | apply lcInt_kept | apply otpProg_kept
          | apply lcRun_kept | apply lcCut_kept | apply Kept.foldl | rfl)
      | (intro _) | with_reducible apply Kept.ite | split | with_reducible refine Kept.mk' ?_ ?_ ?_ ?_

theorem tokenVerdict_kept {s₀ : State} {key sig msg : List Byte} {purpose g : Nat} {s : State} (hK : Kept s₀ s) :
    Kept s₀ (tokenVerdict s key sig msg purpose g) := by
  unfold tokenVerdict
  repeat' first
      | (with_reducible first | assumption | apply lcFinish_kept | apply lcStart_kept | apply Kept.foldl | rfl)
      | (intro _) | with_reducible apply Kept.ite | split | with_reducible refine Kept.mk' ?_ ?_ ?_ ?_

theorem tokenEnd_kept {s₀ s : State} (hK : Kept s₀ s) : Kept s₀ (tokenEnd s) := by
  unfold tokenEnd
  repeat' first
      | (with_reducible first | assumption | apply tokenStart_kept)
      | refine unitDone_kept ?_ (by with_reducible assumption)
      | (with_reducible first | apply tokenVerdict_kept | apply retire_kept | apply Kept.foldl | rfl) | (intro _)
      | with_reducible apply Kept.ite | split | with_reducible refine Kept.mk' ?_ ?_ ?_ ?_

end Sys2Proof.Machine
end

