-- ==== Sys2Proof/Laws/Reset.lean ====
section
/-! SUPPORT. What each operation of Machine/Reset.lean keeps (`Kept`). -/

set_option linter.unusedTactic false
set_option linter.unreachableTactic false

namespace Sys2Proof.Machine

theorem arbTorn_kept {s₀ s : State} (hK : Kept s₀ s) : Kept s₀ (arbTorn s) := by
  unfold arbTorn
  repeat' first
      | (with_reducible first | assumption | apply useFree_kept | apply arbProgram_kept | apply Kept.foldl | rfl)
      | (intro _) | with_reducible apply Kept.ite | split | with_reducible refine Kept.mk' ?_ ?_ ?_ ?_

theorem osTorn_kept {s₀ s : State} (hK : Kept s₀ s) : Kept s₀ (osTorn s) := by
  unfold osTorn
  split
  · split
    · exact useFree_kept (hK.trans ⟨rfl, fun w => ⟨w, fun _ => BitVec.and_self⟩, Nat.le_refl _, Nat.le_refl _, id,
        memWrite_wf _ _, id⟩)
    · exact hK
  · exact hK

theorem devReset_kept {s₀ : State} {cause bank : Nat} {cold : Bool} {s : State} (hK : Kept s₀ s) :
    Kept s₀ (devReset s cause bank cold) := by
  unfold devReset
  exact (arbTorn_kept (osTorn_kept (lcTorn_kept hK))).trans
    ⟨rfl, fun w => ⟨w, fun _ => BitVec.and_self⟩, Nat.le_refl _, Nat.le_refl _, fun _ => memWf_nil 0, id, id⟩

theorem warmReset_kept {s₀ : State} {cause bank : Nat} {s : State} (hK : Kept s₀ s) : Kept s₀ (warmReset s cause
    bank) := by
  unfold warmReset
  repeat' first
      | (with_reducible first | assumption | apply devReset_kept | apply Kept.foldl | rfl) | (intro _)
      | with_reducible apply Kept.ite | split | with_reducible refine Kept.mk' ?_ ?_ ?_ ?_

theorem resetNow_kept {s₀ : State} {m : Master} {s : State} (hK : Kept s₀ s) : Kept s₀ (resetNow s m) := by
  unfold resetNow
  repeat' first
      | (with_reducible first | assumption | apply warmReset_kept | apply Kept.foldl | rfl) | (intro _)
      | with_reducible apply Kept.ite | split | with_reducible refine Kept.mk' ?_ ?_ ?_ ?_

theorem devRst_kept {s₀ : State} {lowNs : Nat} {s : State} (hK : Kept s₀ s) : Kept s₀ (devRst s lowNs) := by
  unfold devRst
  repeat' first
      | (with_reducible first | assumption | apply useFree_kept | apply warmReset_kept | apply Kept.foldl | rfl)
      | (intro _) | with_reducible apply Kept.ite | split | with_reducible refine Kept.mk' ?_ ?_ ?_ ?_

theorem bankDetect_kept {s₀ : State} {b : Fin 15} {v : Bool} {s : State} (hK : Kept s₀ s) : Kept s₀ (bankDetect s
    b v) := by
  unfold bankDetect
  repeat' first
      | (with_reducible first | assumption | apply Kept.foldl | rfl) | (intro _) | with_reducible apply Kept.ite
      | split | with_reducible refine Kept.mk' ?_ ?_ ?_ ?_

theorem release_kept {s₀ : State} {x : Straps} {s : State} (hK : Kept s₀ s) : Kept s₀ (release s x) := by
  have mark : ∀ (t : State) (m : Bool), Kept s₀ t → Kept s₀ { t with
      pd := { t.pd with released := true, cold := false, refOk := true }
      clk := { t.clk with resetAt := t.clk.now }
      he := { t.he with cores := State.reset.he.cores }
      pr := { t.pr with ord := if m then x.pairStrap else t.pr.ord }
      os := { t.os with mode := if m then x.word.getLsbD 0 else t.os.mode } } := fun t m ht =>
    ht.trans ⟨rfl, fun w => ⟨w, fun _ => BitVec.and_self⟩, Nat.le_refl _, Nat.le_refl _, id, id, id⟩
  unfold release
  split
  · have h1 : Kept s₀ (if s.pd.cold then
        (List.finRange 15).foldl (fun s b => if s.pd.bankOk.getLsbD b.val then bankDetect s b (x.bankLvl.getLsbD
            b.val) else s)
          { s with pd := { s.pd with lvlSeen := 0, bankLvl := 0 } }
      else s) := by
      split
      · refine Kept.foldl (Kept.mk' hK rfl rfl rfl) fun t b ht => ?_
        split
        · exact bankDetect_kept ht
        · exact ht
      · exact hK
    have last : ∀ t : State, Kept s₀ t → Kept s₀ (if optCwdHw (wdStart (if x.entropyOk then t else healthFail t) 4) then
        wdStart (wdStart (if x.entropyOk then t else healthFail t) 4) 0
      else wdStart (if x.entropyOk then t else healthFail t) 4) := by
      intro t ht
      have h := wdStart_kept (w := 4) (Kept.ite (c := x.entropyOk = true) ht (healthFail_kept ht))
      exact Kept.ite (wdStart_kept h) h
    exact last _ (mark _ _ h1)
  · exact hK

theorem coreLow_kept {s₀ : State} {lowNs : Nat} {s : State} (hK : Kept s₀ s) : Kept s₀ (coreLow s lowNs) := by
  unfold coreLow
  repeat' first
      | (with_reducible first | assumption | apply devReset_kept | apply Kept.foldl | rfl) | (intro _)
      | with_reducible apply Kept.ite | split | with_reducible refine Kept.mk' ?_ ?_ ?_ ?_

theorem coreRestored_kept {s₀ s : State} (hK : Kept s₀ s) : Kept s₀ (coreRestored s) := by
  unfold coreRestored
  repeat' first
      | (with_reducible first | assumption | apply reachTime_kept | apply Kept.foldl | rfl) | (intro _)
      | with_reducible apply Kept.ite | split | with_reducible refine Kept.mk' ?_ ?_ ?_ ?_

theorem bankLow_kept {s₀ : State} {b : Fin 15} {lowNs : Nat} {s : State} (hK : Kept s₀ s) : Kept s₀ (bankLow s b
    lowNs) := by
  unfold bankLow
  repeat' first
      | (with_reducible first | assumption | apply warmReset_kept | apply Kept.foldl | rfl) | (intro _)
      | with_reducible apply Kept.ite | split | with_reducible refine Kept.mk' ?_ ?_ ?_ ?_

theorem clockFault_kept {s₀ : State} {_k : ClockFault} {s : State} (hK : Kept s₀ s) : Kept s₀ (clockFault s _k) := by
  unfold clockFault
  repeat' first
      | (with_reducible first | assumption | apply warmReset_kept | apply Kept.foldl | rfl) | (intro _)
      | with_reducible apply Kept.ite | split | with_reducible refine Kept.mk' ?_ ?_ ?_ ?_

theorem hardExpiry_kept {s₀ s : State} (hK : Kept s₀ s) : Kept s₀ (hardExpiry s) := by
  unfold hardExpiry
  repeat' first
      | (with_reducible first | assumption | apply reachTime_kept | apply warmReset_kept | apply Kept.foldl | rfl)
      | (intro _) | with_reducible apply Kept.ite | split | with_reducible refine Kept.mk' ?_ ?_ ?_ ?_

end Sys2Proof.Machine
end

