-- ==== Sys2Proof/Laws/Tamper.lean ====
section
/-! SUPPORT. What each operation of Machine/Tamper.lean keeps (`Kept`). -/

set_option linter.unusedTactic false
set_option linter.unreachableTactic false

namespace Sys2Proof.Machine

theorem modAo_kept {s₀ : State} {f : Ao → Ao} {s : State} (hK : Kept s₀ s)
    (hf : ∀ a : Ao, memWf 0 a.sram = true → memWf 0 (f a).sram = true) : Kept s₀ (modAo s f) :=
  hK.trans ⟨rfl, fun w => ⟨w, fun _ => BitVec.and_self⟩, Nat.le_refl _, Nat.le_refl _, id, id, hf _⟩

theorem holdClear_kept {s₀ : State} {m : Master} {s : State} (hK : Kept s₀ s) : Kept s₀ (holdClear s m) := by
  unfold holdClear
  repeat' first
      | (with_reducible first
          | assumption | apply regate_kept | apply modAo_kept | exact memWrite_wf _ _ (by with_reducible assumption))
      | exact memWf_nil 0 | (with_reducible first | apply Kept.foldl | rfl) | (intro _)
      | with_reducible apply Kept.ite | split | with_reducible refine Kept.mk' ?_ ?_ ?_ ?_

theorem tpChain_kept {s₀ : State} {pos : Nat} {s : State} (hK : Kept s₀ s) : Kept s₀ (tpChain s pos) := by
  unfold tpChain
  repeat' first
      | (with_reducible first | assumption | apply modAo_kept | exact memWrite_wf _ _ (by with_reducible assumption))
      | exact memWf_nil 0 | (with_reducible first | apply Kept.foldl | rfl) | (intro _)
      | with_reducible apply Kept.ite | split | with_reducible refine Kept.mk' ?_ ?_ ?_ ?_

theorem tpPut_kept {s₀ : State} {time source kind detail resp count : Nat} {s : State} (hK : Kept s₀ s) : Kept s₀
    (tpPut s time source kind detail resp count) := by
  unfold tpPut
  repeat' first
      | (with_reducible first
          | assumption | apply modAo_kept | apply tpChain_kept
          | exact memWrite_wf _ _ (by with_reducible assumption))
      | exact memWf_nil 0 | (with_reducible first | apply Kept.foldl | rfl) | (intro _)
      | with_reducible apply Kept.ite | split | with_reducible refine Kept.mk' ?_ ?_ ?_ ?_

theorem rtcLoad_kept {s₀ : State} {m : Master} {s : State} (hK : Kept s₀ s) : Kept s₀ (rtcLoad s m) := by
  unfold rtcLoad
  repeat' first
      | (with_reducible first
          | assumption | apply tpPut_kept | apply modAo_kept | exact memWrite_wf _ _ (by with_reducible assumption))
      | exact memWf_nil 0 | (with_reducible first | apply Kept.foldl | rfl) | (intro _)
      | with_reducible apply Kept.ite | split | with_reducible refine Kept.mk' ?_ ?_ ?_ ?_

theorem modSrc_kept {s₀ : State} {i : Fin 8} {f : TpSrc → TpSrc} {s : State} (hK : Kept s₀ s) : Kept s₀ (modSrc s
    i f) := by
  unfold modSrc
  repeat' first
      | (with_reducible first | assumption | apply modAo_kept | exact memWrite_wf _ _ (by with_reducible assumption))
      | exact memWf_nil 0 | (with_reducible first | apply Kept.foldl | rfl) | (intro _)
      | with_reducible apply Kept.ite | split | with_reducible refine Kept.mk' ?_ ?_ ?_ ?_

theorem tpMerge_kept {s₀ : State} {resp : Nat} {s : State} (hK : Kept s₀ s) : Kept s₀ (tpMerge s resp) := by
  unfold tpMerge
  repeat' first
      | (with_reducible first | assumption | apply modAo_kept | exact memWrite_wf _ _ (by with_reducible assumption))
      | exact memWf_nil 0 | (with_reducible first | apply Kept.foldl | rfl) | (intro _)
      | with_reducible apply Kept.ite | split | with_reducible refine Kept.mk' ?_ ?_ ?_ ?_

theorem tpLogAlarm_kept {s₀ : State} {src : Fin 8} {detail resp count : Nat} {s : State} (hK : Kept s₀ s) : Kept
    s₀ (tpLogAlarm s src detail resp count) := by
  unfold tpLogAlarm
  repeat' first
      | (with_reducible first
          | assumption | apply tpPut_kept | apply modAo_kept | apply tpInt_kept | apply tpMerge_kept
          | exact memWrite_wf _ _ (by with_reducible assumption))
      | exact memWf_nil 0 | (with_reducible first | apply Kept.foldl | rfl) | (intro _)
      | with_reducible apply Kept.ite | split | with_reducible refine Kept.mk' ?_ ?_ ?_ ?_

theorem respondBattery_kept {s₀ : State} {src : Fin 8} {r : BitVec 4} {s : State} (hK : Kept s₀ s) : Kept s₀
    (respondBattery s src r) := by
  unfold respondBattery
  repeat' first
      | (with_reducible first | assumption | apply modAo_kept | exact memWrite_wf _ _ (by with_reducible assumption))
      | exact memWf_nil 0 | (with_reducible first | apply Kept.foldl | rfl) | (intro _)
      | with_reducible apply Kept.ite | split | with_reducible refine Kept.mk' ?_ ?_ ?_ ?_

theorem holdHosts_kept {s₀ s : State} (hK : Kept s₀ s) : Kept s₀ (holdHosts s) := by
  unfold holdHosts
  repeat' first
      | (with_reducible first
          | assumption | apply regate_kept | apply modAo_kept | exact memWrite_wf _ _ (by with_reducible assumption))
      | exact memWf_nil 0 | (with_reducible first | apply Kept.foldl | rfl) | (intro _)
      | with_reducible apply Kept.ite | split | with_reducible refine Kept.mk' ?_ ?_ ?_ ?_

theorem haltReset_kept {s₀ s : State} (hK : Kept s₀ s) : Kept s₀ (haltReset s) := by
  unfold haltReset
  repeat' first
      | (with_reducible first | assumption | apply warmReset_kept | apply Kept.foldl | rfl) | (intro _)
      | with_reducible apply Kept.ite | split | with_reducible refine Kept.mk' ?_ ?_ ?_ ?_

theorem respondMain_kept {s₀ : State} {src : Fin 8} {r : BitVec 4} {s : State} (hK : Kept s₀ s) : Kept s₀
    (respondMain s src r) := by
  unfold respondMain
  repeat' first
      | (with_reducible first
          | assumption | apply haltReset_kept | apply tpInt_kept | apply zeroiseVault_kept | apply holdHosts_kept
          | apply Kept.foldl | rfl)
      | (intro _) | with_reducible apply Kept.ite | split | with_reducible refine Kept.mk' ?_ ?_ ?_ ?_

theorem alarm_kept {s₀ : State} {src : Fin 8} {detail count : Nat} {s : State} (hK : Kept s₀ s) : Kept s₀ (alarm s
    src detail count) := by
  unfold alarm
  repeat' first
      | (with_reducible first
          | assumption | apply respondBattery_kept | apply tpLogAlarm_kept | apply modAo_kept
          | apply respondMain_kept | apply diagFail_kept | exact memWrite_wf _ _ (by with_reducible assumption))
      | exact memWf_nil 0 | (with_reducible first | apply Kept.foldl | rfl) | (intro _)
      | with_reducible apply Kept.ite | split | with_reducible refine Kept.mk' ?_ ?_ ?_ ?_

theorem tpCount_kept {s₀ : State} {src : Fin 8} {det : Nat} {s : State} (hK : Kept s₀ s) : Kept s₀ (tpCount s src
    det) := by
  unfold tpCount
  repeat' first
      | (with_reducible first | assumption | apply alarm_kept | apply modSrc_kept | apply Kept.foldl | rfl)
      | (intro _) | with_reducible apply Kept.ite | split | with_reducible refine Kept.mk' ?_ ?_ ?_ ?_

theorem tamperEvent_kept {s₀ : State} {src : Fin 8} {det : Nat} {s : State} (hK : Kept s₀ s) : Kept s₀
    (tamperEvent s src det) := by
  unfold tamperEvent
  repeat' first
      | (with_reducible first | assumption | apply tpCount_kept | apply Kept.foldl | rfl) | (intro _)
      | with_reducible apply Kept.ite | split | with_reducible refine Kept.mk' ?_ ?_ ?_ ?_

theorem softAlarm_kept {s₀ : State} {m : Master} {s : State} (hK : Kept s₀ s) : Kept s₀ (softAlarm s m) := by
  unfold softAlarm
  repeat' first
      | (with_reducible first | assumption | apply tamperEvent_kept | apply Kept.foldl | rfl) | (intro _)
      | with_reducible apply Kept.ite | split | with_reducible refine Kept.mk' ?_ ?_ ?_ ?_

theorem rtcLatch_kept {s₀ : State} {m : Master} {s : State} (hK : Kept s₀ s) : Kept s₀ (rtcLatch s m) := by
  unfold rtcLatch
  repeat' first
      | (with_reducible first | assumption | apply modAo_kept | exact memWrite_wf _ _ (by with_reducible assumption))
      | exact memWf_nil 0 | (with_reducible first | apply Kept.foldl | rfl) | (intro _)
      | with_reducible apply Kept.ite | split | with_reducible refine Kept.mk' ?_ ?_ ?_ ?_

theorem thermProgram_kept {s₀ s : State} (hK : Kept s₀ s) : Kept s₀ (thermProgram s) := by
  unfold thermProgram
  repeat' first
      | (with_reducible first
          | assumption | apply tpInt_kept | apply modAo_kept | apply thermBit_kept
          | exact memWrite_wf _ _ (by with_reducible assumption))
      | exact memWf_nil 0 | (with_reducible first | apply Kept.foldl | rfl) | (intro _)
      | with_reducible apply Kept.ite | split | with_reducible refine Kept.mk' ?_ ?_ ?_ ?_

theorem tpChainAll_kept {s₀ s : State} (hK : Kept s₀ s) : Kept s₀ (tpChainAll s) := by
  unfold tpChainAll
  repeat' first
      | (with_reducible first
          | assumption | apply modAo_kept | apply tpChain_kept
          | exact memWrite_wf _ _ (by with_reducible assumption))
      | exact memWf_nil 0 | (with_reducible first | apply Kept.foldl | rfl) | (intro _)
      | with_reducible apply Kept.ite | split | with_reducible refine Kept.mk' ?_ ?_ ?_ ?_

theorem deferred_kept {s₀ s : State} (hK : Kept s₀ s) : Kept s₀ (deferred s) := by
  unfold deferred
  extract_lets s1 s2 r a b c _ d
  have h1 : Kept s₀ s1 := Kept.foldl hK (fun t x ht => thermProgram_kept ht)
  have h2 : Kept s₀ s2 := tpChainAll_kept h1
  have ha : Kept s₀ a := Kept.ite (zeroiseVault_kept h2) h2
  clear_value a
  have hb : Kept s₀ b := Kept.ite (holdHosts_kept ha) ha
  clear_value b
  have hc : Kept s₀ c := Kept.ite (reachTime_kept hb) hb
  clear_value c
  have hd : Kept s₀ d := Kept.ite (Kept.mk' hc rfl rfl rfl) hc
  clear_value d
  exact Kept.ite h2 (tpInt_kept (modAo_kept hd fun a w => w))

theorem tpCloseOverflow_kept {s₀ s : State} (hK : Kept s₀ s) : Kept s₀ (tpCloseOverflow s) := by
  unfold tpCloseOverflow
  repeat' first
      | (with_reducible first
          | assumption | apply modAo_kept | apply tpChain_kept
          | exact memWrite_wf _ _ (by with_reducible assumption))
      | exact memWf_nil 0 | (with_reducible first | apply Kept.foldl | rfl) | (intro _)
      | with_reducible apply Kept.ite | split | with_reducible refine Kept.mk' ?_ ?_ ?_ ?_

theorem tamperClose_kept {s₀ : State} {src : Fin 8} {s : State} (hK : Kept s₀ s) : Kept s₀ (tamperClose s src) := by
  unfold tamperClose
  repeat' first
      | (with_reducible first | assumption | apply reachTime_kept | apply modSrc_kept | apply Kept.foldl | rfl)
      | (intro _) | with_reducible apply Kept.ite | split | with_reducible refine Kept.mk' ?_ ?_ ?_ ?_

theorem sourceIdle_kept {s₀ : State} {src : Fin 8} {s : State} (hK : Kept s₀ s) : Kept s₀ (sourceIdle s src) := by
  unfold sourceIdle
  repeat' first
      | (with_reducible first | assumption | apply reachTime_kept | apply modSrc_kept | apply Kept.foldl | rfl)
      | (intro _) | with_reducible apply Kept.ite | split | with_reducible refine Kept.mk' ?_ ?_ ?_ ?_

theorem haltExpiry_kept {s₀ s : State} (hK : Kept s₀ s) : Kept s₀ (haltExpiry s) := by
  unfold haltExpiry
  repeat' first
      | (with_reducible first | assumption | apply reachTime_kept | apply Kept.foldl | rfl) | (intro _)
      | with_reducible apply Kept.ite | split | with_reducible refine Kept.mk' ?_ ?_ ?_ ?_

theorem aoRestart_kept {s₀ s : State} (hK : Kept s₀ s) : Kept s₀ (aoRestart s) := by
  unfold aoRestart
  repeat' first
      | (with_reducible first
          | assumption | apply tpPut_kept | apply modAo_kept | exact memWrite_wf _ _ (by with_reducible assumption))
      | exact memWf_nil 0 | (with_reducible first | apply Kept.foldl | rfl) | (intro _)
      | with_reducible apply Kept.ite | split | with_reducible refine Kept.mk' ?_ ?_ ?_ ?_

end Sys2Proof.Machine
end

