-- ==== Sys2Proof/Laws/Boot.lean ====
section
/-! SUPPORT. What each operation of Machine/Boot.lean keeps (`Kept`). -/

set_option linter.unusedTactic false
set_option linter.unreachableTactic false

namespace Sys2Proof.Machine

theorem enterRecovery_kept {s₀ s : State} (hK : Kept s₀ s) : Kept s₀ (enterRecovery s) := by
  unfold enterRecovery
  repeat' first
      | (with_reducible first | assumption | apply modLink_kept | apply Kept.foldl | rfl) | (intro _)
      | with_reducible apply Kept.ite | split | with_reducible refine Kept.mk' ?_ ?_ ?_ ?_

theorem bootOr_kept {s₀ : State} {k : Option Nat} {s : State} (hK : Kept s₀ s) : Kept s₀ (bootOr s k) := by
  unfold bootOr
  repeat' first
      | (with_reducible first | assumption | apply enterRecovery_kept | apply Kept.foldl | rfl) | (intro _)
      | with_reducible apply Kept.ite | split | with_reducible refine Kept.mk' ?_ ?_ ?_ ?_

theorem bootWrite_kept {s₀ : State} {slot flags tries : Nat} {s : State} (hK : Kept s₀ s) : Kept s₀ (bootWrite s
    slot flags tries) := by
  unfold bootWrite
  repeat' first
      | (with_reducible first | assumption | apply recWrite_kept | apply Kept.foldl | rfl) | (intro _)
      | with_reducible apply Kept.ite | split | with_reducible refine Kept.mk' ?_ ?_ ?_ ?_

theorem kindlingLog_kept {s₀ s : State} (hK : Kept s₀ s) : Kept s₀ (kindlingLog s) := by
  unfold kindlingLog
  repeat' first
      | (with_reducible first | assumption | apply useFree_kept | apply logAppend_kept | apply Kept.foldl | rfl)
      | (intro _) | with_reducible apply Kept.ite | split | with_reducible refine Kept.mk' ?_ ?_ ?_ ?_

theorem chooseImage_kept {s₀ s : State} (hK : Kept s₀ s) : Kept s₀ (chooseImage s) := by
  unfold chooseImage
  repeat' first
      | (with_reducible first
          | assumption | apply bootWrite_kept | apply kindlingLog_kept | apply enterRecovery_kept | apply bootOr_kept
          | apply Kept.foldl | rfl)
      | (intro _) | with_reducible apply Kept.ite | split | with_reducible refine Kept.mk' ?_ ?_ ?_ ?_

theorem jrnWrite_kept {s₀ : State} {st slot arg : Nat} {head : List Byte} {s : State} (hK : Kept s₀ s) : Kept s₀
    (jrnWrite s st slot arg head) := by
  unfold jrnWrite
  repeat' first
      | (with_reducible first | assumption | apply osProg_kept | apply Kept.foldl | rfl) | (intro _)
      | with_reducible apply Kept.ite | split | with_reducible refine Kept.mk' ?_ ?_ ?_ ?_

theorem rebuild_kept2 {s₀ : State} {slot last len : Nat} {out : List Byte} {fin : DeltaEnd} {chunksOk : Bool}
    {head : List Byte} {a1 a2 : Nat} {a3 : State} (hK : Kept s₀ a3) : Kept s₀ (rebuild slot last len out fin chunksOk
    head a1 a2 a3).2 := by
  induction a1 generalizing a2 a3 with
  | zero =>
    unfold rebuild
    dsimp only
    repeat' first
        | (with_reducible first
            | assumption | apply osProg_kept | apply romStoke_kept | apply ownErase_kept | apply jrnWrite_kept
            | apply Kept.foldl | rfl)
        | (intro _) | with_reducible apply Kept.ite | split | with_reducible refine Kept.mk' ?_ ?_ ?_ ?_
  | succ _ ih =>
    unfold rebuild
    dsimp only
    repeat' first
        | with_reducible apply ih | (with_reducible first
            | assumption | apply osProg_kept | apply romStoke_kept | apply ownErase_kept | apply jrnWrite_kept
            | apply Kept.foldl | rfl)
        | (intro _) | with_reducible apply Kept.ite | split | with_reducible refine Kept.mk' ?_ ?_ ?_ ?_

theorem rebuild_kept {s₀ : State} {slot last len : Nat} {out : List Byte} {fin : DeltaEnd} {chunksOk : Bool} {head
    : List Byte} {a1 a2 : Nat} {a3 : State} {p0 t} (hK : Kept s₀ a3) (e : (rebuild slot last len out fin chunksOk head
    a1 a2 a3) = (p0, t)) : Kept s₀ t := by
  have := rebuild_kept2 (slot := slot) (last := last) (len := len) (out := out) (fin := fin) (chunksOk :=
      chunksOk) (head := head) (a1 := a1) (a2 := a2) hK
  rw [e] at this
  exact this

theorem applyPackage_kept {s₀ s : State} (hK : Kept s₀ s) : Kept s₀ (applyPackage s) := by
  unfold applyPackage
  repeat' first
      | (with_reducible first | assumption | apply jrnWrite_kept | apply rebuild_kept2)
      | refine rebuild_kept ?_ (by with_reducible assumption)
      | (with_reducible first | apply bootWrite_kept | apply Kept.foldl | rfl) | (intro _)
      | with_reducible apply Kept.ite | split | with_reducible refine Kept.mk' ?_ ?_ ?_ ?_

theorem tinder_kept {s₀ s : State} (hK : Kept s₀ s) : Kept s₀ (tinder s) := by
  unfold tinder
  repeat' first
      | (with_reducible first
          | assumption | apply applyPackage_kept | apply lcResume_kept | apply chooseImage_kept | apply rootLoad_kept
          | apply deferred_kept | apply Kept.foldl | rfl)
      | (intro _) | with_reducible apply Kept.ite | split | with_reducible refine Kept.mk' ?_ ?_ ?_ ?_

theorem kindlingBoot_kept {s₀ s : State} (hK : Kept s₀ s) : Kept s₀ (kindlingBoot s) := by
  unfold kindlingBoot
  repeat' first
      | (with_reducible first | assumption | apply ramWrite_kept | apply modCore_kept | apply Kept.foldl | rfl)
      | (intro _) | with_reducible apply Kept.ite | split | with_reducible refine Kept.mk' ?_ ?_ ?_ ?_

theorem recReply_kept {s₀ : State} {x : RecSrc} {r : List Byte} {s : State} (hK : Kept s₀ s) : Kept s₀ (recReply s
    x r) := by
  unfold recReply
  repeat' first
      | (with_reducible first | assumption | apply Kept.foldl | rfl) | (intro _) | with_reducible apply Kept.ite
      | split | with_reducible refine Kept.mk' ?_ ?_ ?_ ?_

theorem recStatus_kept {s₀ : State} {x : RecSrc} {s : State} (hK : Kept s₀ s) : Kept s₀ (recStatus s x) := by
  unfold recStatus
  repeat' first
      | (with_reducible first | assumption | apply recReply_kept | apply Kept.foldl | rfl) | (intro _)
      | with_reducible apply Kept.ite | split | with_reducible refine Kept.mk' ?_ ?_ ?_ ?_

theorem recHeader_kept2 {s₀ : State} {before : Nat} {s : State} (hK : Kept s₀ s) : Kept s₀ (recHeader s before).2 := by
  unfold recHeader
  dsimp only
  repeat' first
      | (with_reducible first | assumption | apply Kept.foldl | rfl) | (intro _) | with_reducible apply Kept.ite
      | split | with_reducible refine Kept.mk' ?_ ?_ ?_ ?_

theorem recHeader_kept {s₀ : State} {before : Nat} {s : State} {p0 t} (hK : Kept s₀ s) (e : (recHeader s before) =
    (p0, t)) : Kept s₀ t := by
  have := recHeader_kept2 (before := before) hK
  rw [e] at this
  exact this

theorem recProgram_kept {s₀ : State} {data : List Byte} {s : State} (hK : Kept s₀ s) : Kept s₀ (recProgram s data) := by
  unfold recProgram
  repeat' first
      | (with_reducible first | assumption | apply osProg_kept | apply ownErase_kept | apply Kept.foldl | rfl)
      | (intro _) | with_reducible apply Kept.ite | split | with_reducible refine Kept.mk' ?_ ?_ ?_ ?_

theorem recPiece_kept {s₀ : State} {x : RecSrc} {ofs : Nat} {data : List Byte} {s : State} (hK : Kept s₀ s) : Kept
    s₀ (recPiece s x ofs data) := by
  unfold recPiece
  repeat' first
      | (with_reducible first | assumption | apply recHeader_kept2)
      | refine recHeader_kept ?_ (by with_reducible assumption)
      | (with_reducible first | apply recProgram_kept | apply recReply_kept | apply Kept.foldl | rfl) | (intro _)
      | with_reducible apply Kept.ite | split | with_reducible refine Kept.mk' ?_ ?_ ?_ ?_

theorem recFinish_kept2 {s₀ s : State} (hK : Kept s₀ s) : Kept s₀ (recFinish s).2 := by
  unfold recFinish
  dsimp only
  repeat' first
      | (with_reducible first | assumption | apply bootWrite_kept | apply Kept.foldl | rfl) | (intro _)
      | with_reducible apply Kept.ite | split | with_reducible refine Kept.mk' ?_ ?_ ?_ ?_

theorem recFinish_kept {s₀ s : State} {p0 t} (hK : Kept s₀ s) (e : (recFinish s) = (p0, t)) : Kept s₀ t := by
  have := recFinish_kept2  hK
  rw [e] at this
  exact this

theorem recEnd_kept {s₀ : State} {x : RecSrc} {total : Nat} {s : State} (hK : Kept s₀ s) : Kept s₀ (recEnd s x
    total) := by
  unfold recEnd
  repeat' first
      | (with_reducible first | assumption | apply recFinish_kept2)
      | refine recFinish_kept ?_ (by with_reducible assumption)
      | (with_reducible first | apply recReply_kept | apply Kept.foldl | rfl) | (intro _)
      | with_reducible apply Kept.ite | split | with_reducible refine Kept.mk' ?_ ?_ ?_ ?_

end Sys2Proof.Machine
end

