-- ==== Sys2Proof/Laws/Sequencer.lean ====
section
/-! SUPPORT. What each operation of Machine/Sequencer.lean keeps (`Kept`). -/

set_option linter.unusedTactic false
set_option linter.unreachableTactic false

namespace Sys2Proof.Machine

theorem modStep_kept {s₀ : State} {i : Fin 128} {f : StepRt → StepRt} {s : State} (hK : Kept s₀ s) : Kept s₀
    (modStep s i f) := by
  unfold modStep
  repeat' first
      | (with_reducible first | assumption | apply Kept.foldl | rfl) | (intro _) | with_reducible apply Kept.ite
      | split | with_reducible refine Kept.mk' ?_ ?_ ?_ ?_

theorem notify_kept {s₀ : State} {n : PairNotice} {s : State} (hK : Kept s₀ s) : Kept s₀ (notify s n) := by
  unfold notify
  repeat' first
      | (with_reducible first | assumption | apply pairSend_kept | apply Kept.foldl | rfl) | (intro _)
      | with_reducible apply Kept.ite | split | with_reducible refine Kept.mk' ?_ ?_ ?_ ?_

theorem endStep_kept {s₀ : State} {i : Fin 128} {c : Step} {ok : Bool} {s : State} (hK : Kept s₀ s) : Kept s₀
    (endStep s i c ok) := by
  unfold endStep
  repeat' first
      | (with_reducible first | assumption | apply modStep_kept | apply notify_kept | apply Kept.foldl | rfl)
      | (intro _) | with_reducible apply Kept.ite | split | with_reducible refine Kept.mk' ?_ ?_ ?_ ?_

theorem finishStep_kept {s₀ : State} {i : Fin 128} {c : Step} {s : State} (hK : Kept s₀ s) : Kept s₀ (finishStep s
    i c) := by
  unfold finishStep
  repeat' first
      | (with_reducible first | assumption | apply endStep_kept | apply Kept.foldl | rfl) | (intro _)
      | with_reducible apply Kept.ite | split | with_reducible refine Kept.mk' ?_ ?_ ?_ ?_

theorem driveLine_kept {s₀ : State} {l : Nat} {v : Bool} {s : State} (hK : Kept s₀ s) : Kept s₀ (driveLine s l v) := by
  unfold driveLine
  repeat' first
      | (with_reducible first | assumption | apply Kept.foldl | rfl) | (intro _) | with_reducible apply Kept.ite
      | split | with_reducible refine Kept.mk' ?_ ?_ ?_ ?_

theorem startStep_kept {s₀ : State} {i : Fin 128} {c : Step} {s : State} (hK : Kept s₀ s) : Kept s₀ (startStep s i
    c) := by
  unfold startStep
  repeat' first
      | (with_reducible first
          | assumption | apply finishStep_kept | apply driveLine_kept | apply regate_kept | apply modStep_kept
          | apply Kept.foldl | rfl)
      | (intro _) | with_reducible apply Kept.ite | split | with_reducible refine Kept.mk' ?_ ?_ ?_ ?_

theorem startSteps_kept {s₀ : State} {a1 : Nat} {a2 : State} (hK : Kept s₀ a2) : Kept s₀ (startSteps a1 a2) := by
  induction a1 generalizing a2 with
  | zero =>
    unfold startSteps
    repeat' first
        | (with_reducible first | assumption | apply reachTime_kept | apply startStep_kept | apply Kept.foldl | rfl)
        | (intro _) | with_reducible apply Kept.ite | split | with_reducible refine Kept.mk' ?_ ?_ ?_ ?_
  | succ _ ih =>
    unfold startSteps
    repeat' first
        | with_reducible apply ih | (with_reducible first
            | assumption | apply reachTime_kept | apply startStep_kept | apply Kept.foldl | rfl)
        | (intro _) | with_reducible apply Kept.ite | split | with_reducible refine Kept.mk' ?_ ?_ ?_ ?_

theorem graphUp_kept {s₀ s : State} (hK : Kept s₀ s) : Kept s₀ (graphUp s) := by
  unfold graphUp
  repeat' first
      | (with_reducible first | assumption | apply sqInt_kept | apply sqRecord_kept | apply Kept.foldl | rfl)
      | (intro _) | with_reducible apply Kept.ite | split | with_reducible refine Kept.mk' ?_ ?_ ?_ ?_

theorem graphOff_kept {s₀ : State} {g : GraphSt} {s : State} (hK : Kept s₀ s) : Kept s₀ (graphOff s g) := by
  unfold graphOff
  repeat' first
      | (with_reducible first | assumption | apply sqInt_kept | apply sqRecord_kept | apply Kept.foldl | rfl)
      | (intro _) | with_reducible apply Kept.ite | split | with_reducible refine Kept.mk' ?_ ?_ ?_ ?_

theorem takeSmb_kept {s₀ : State} {p : Fin 4} {j : Nat} {s : State} (hK : Kept s₀ s) : Kept s₀ (takeSmb s p j) := by
  unfold takeSmb
  repeat' first
      | (with_reducible first | assumption | apply Kept.foldl | rfl) | (intro _) | with_reducible apply Kept.ite
      | split | with_reducible refine Kept.mk' ?_ ?_ ?_ ?_

theorem pumpSmb_kept {s₀ s : State} (hK : Kept s₀ s) : Kept s₀ (pumpSmb s) := by
  unfold pumpSmb
  repeat' first
      | (with_reducible first | assumption | apply modStep_kept | apply takeSmb_kept | apply Kept.foldl | rfl)
      | (intro _) | with_reducible apply Kept.ite | split | with_reducible refine Kept.mk' ?_ ?_ ?_ ?_

theorem runGraph_kept {s₀ s : State} (hK : Kept s₀ s) : Kept s₀ (runGraph s) := by
  unfold runGraph
  repeat' first
      | (with_reducible first
          | assumption | apply pumpSmb_kept | apply startSteps_kept | apply graphOff_kept | apply graphUp_kept
          | apply Kept.foldl | rfl)
      | (intro _) | with_reducible apply Kept.ite | split | with_reducible refine Kept.mk' ?_ ?_ ?_ ?_

theorem sqLock_kept {s₀ s : State} (hK : Kept s₀ s) : Kept s₀ (sqLock s) := by
  unfold sqLock
  repeat' first
      | (with_reducible first | assumption | apply runGraph_kept | apply Kept.foldl | rfl) | (intro _)
      | with_reducible apply Kept.ite | split | with_reducible refine Kept.mk' ?_ ?_ ?_ ?_

theorem faultHold_kept {s₀ : State} {i : Fin 128} {c : Step} {act : Nat} {s : State} (hK : Kept s₀ s) : Kept s₀
    (faultHold s i c act) := by
  unfold faultHold
  repeat' first
      | (with_reducible first
          | assumption | apply regate_kept | apply sqInt_kept | apply modStep_kept | apply sqRecord_kept
          | apply Kept.foldl | rfl)
      | (intro _) | with_reducible apply Kept.ite | split | with_reducible refine Kept.mk' ?_ ?_ ?_ ?_

theorem logDue_kept {s₀ s : State} (hK : Kept s₀ s) : Kept s₀ (logDue s) := by
  unfold logDue
  repeat' first
      | (with_reducible first | assumption | apply faultHold_kept | apply Kept.foldl | rfl) | (intro _)
      | with_reducible apply Kept.ite | split | with_reducible refine Kept.mk' ?_ ?_ ?_ ?_

theorem startShutdown_kept {s₀ s : State} (hK : Kept s₀ s) : Kept s₀ (startShutdown s) := by
  unfold startShutdown
  repeat' first
      | (with_reducible first
          | assumption | apply regate_kept | apply runGraph_kept | apply logDue_kept | apply sqRecord_kept
          | apply Kept.foldl | rfl)
      | (intro _) | with_reducible apply Kept.ite | split | with_reducible refine Kept.mk' ?_ ?_ ?_ ?_

theorem sqReject_kept {s₀ s : State} (hK : Kept s₀ s) : Kept s₀ (sqReject s) := by
  unfold sqReject
  repeat' first
      | (with_reducible first | assumption | apply sqInt_kept | apply Kept.foldl | rfl) | (intro _)
      | with_reducible apply Kept.ite | split | with_reducible refine Kept.mk' ?_ ?_ ?_ ?_

theorem sqShutdown_kept {s₀ s : State} (hK : Kept s₀ s) : Kept s₀ (sqShutdown s) := by
  unfold sqShutdown
  repeat' first
      | (with_reducible first | assumption | apply startShutdown_kept | apply sqReject_kept | apply Kept.foldl | rfl)
      | (intro _) | with_reducible apply Kept.ite | split | with_reducible refine Kept.mk' ?_ ?_ ?_ ?_

theorem sqRestart_kept {s₀ s : State} (hK : Kept s₀ s) : Kept s₀ (sqRestart s) := by
  unfold sqRestart
  repeat' first
      | (with_reducible first
          | assumption | apply regate_kept | apply sqReject_kept | apply runGraph_kept | apply Kept.foldl | rfl)
      | (intro _) | with_reducible apply Kept.ite | split | with_reducible refine Kept.mk' ?_ ?_ ?_ ?_

theorem hearthHold_kept {s₀ : State} {v : Word} {s : State} (hK : Kept s₀ s) : Kept s₀ (hearthHold s v) := by
  unfold hearthHold
  repeat' first
      | (with_reducible first | assumption | apply regate_kept | apply Kept.foldl | rfl) | (intro _)
      | with_reducible apply Kept.ite | split | with_reducible refine Kept.mk' ?_ ?_ ?_ ?_

theorem platformFaults_kept {s₀ : State} {l : List (Fin 128)} {s : State} (hK : Kept s₀ s) : Kept s₀
    (platformFaults s l) := by
  unfold platformFaults
  repeat' first
      | (with_reducible first
          | assumption | apply startShutdown_kept | apply faultHold_kept | apply Kept.foldl | rfl)
      | (intro _) | with_reducible apply Kept.ite | split | with_reducible refine Kept.mk' ?_ ?_ ?_ ?_

theorem pfClear_kept {s₀ : State} {v : Word} {s : State} (hK : Kept s₀ s) : Kept s₀ (pfClear s v) := by
  unfold pfClear
  repeat' first
      | (with_reducible first
          | assumption | apply regate_kept | apply modStep_kept | apply platformFaults_kept | apply Kept.foldl | rfl)
      | (intro _) | with_reducible apply Kept.ite | split | with_reducible refine Kept.mk' ?_ ?_ ?_ ?_

theorem smbStart_kept {s₀ s : State} (hK : Kept s₀ s) : Kept s₀ (smbStart s) := by
  unfold smbStart
  repeat' first
      | (with_reducible first
          | assumption | apply sqInt_kept | apply pumpSmb_kept | apply sqReject_kept | apply Kept.foldl | rfl)
      | (intro _) | with_reducible apply Kept.ite | split | with_reducible refine Kept.mk' ?_ ?_ ?_ ?_

theorem waitSettled_kept {s₀ : State} {i : Fin 128} {s : State} (hK : Kept s₀ s) : Kept s₀ (waitSettled s i) := by
  unfold waitSettled
  repeat' first
      | (with_reducible first
          | assumption | apply finishStep_kept | apply runGraph_kept | apply reachTime_kept | apply Kept.foldl | rfl)
      | (intro _) | with_reducible apply Kept.ite | split | with_reducible refine Kept.mk' ?_ ?_ ?_ ?_

theorem delayExpiry_kept {s₀ : State} {i : Fin 128} {s : State} (hK : Kept s₀ s) : Kept s₀ (delayExpiry s i) := by
  unfold delayExpiry
  repeat' first
      | (with_reducible first
          | assumption | apply finishStep_kept | apply runGraph_kept | apply reachTime_kept | apply Kept.foldl | rfl)
      | (intro _) | with_reducible apply Kept.ite | split | with_reducible refine Kept.mk' ?_ ?_ ?_ ?_

theorem failStep_kept {s₀ : State} {i : Fin 128} {c : Step} {s : State} (hK : Kept s₀ s) : Kept s₀ (failStep s i
    c) := by
  unfold failStep
  repeat' first
      | (with_reducible first
          | assumption | apply startShutdown_kept | apply graphOff_kept | apply sqInt_kept | apply notify_kept
          | apply endStep_kept | apply modStep_kept | apply runGraph_kept | apply sqRecord_kept | apply Kept.foldl
          | rfl)
      | (intro _) | with_reducible apply Kept.ite | split | with_reducible refine Kept.mk' ?_ ?_ ?_ ?_

theorem stepTimeout_kept {s₀ : State} {i : Fin 128} {s : State} (hK : Kept s₀ s) : Kept s₀ (stepTimeout s i) := by
  unfold stepTimeout
  repeat' first
      | (with_reducible first
          | assumption | apply reachTime_kept | apply failStep_kept | apply finishStep_kept | apply runGraph_kept
          | apply Kept.foldl | rfl)
      | (intro _) | with_reducible apply Kept.ite | split | with_reducible refine Kept.mk' ?_ ?_ ?_ ?_

theorem leaveSmb_kept {s₀ : State} {p : Fin 4} {r : SmbResult} {s : State} (hK : Kept s₀ s) : Kept s₀ (leaveSmb s
    p r) := by
  unfold leaveSmb
  repeat' first
      | (with_reducible first | assumption | apply Kept.foldl | rfl) | (intro _) | with_reducible apply Kept.ite
      | split | with_reducible refine Kept.mk' ?_ ?_ ?_ ?_

theorem pmbEnd_kept {s₀ : State} {p : Fin 4} {r : SmbResult} {s : State} (hK : Kept s₀ s) : Kept s₀ (pmbEnd s p r) := by
  unfold pmbEnd
  dsimp only
  repeat' first
      | (with_reducible first
          | assumption | apply leaveSmb_kept | apply finishStep_kept | apply pumpSmb_kept | apply modStep_kept
          | apply runGraph_kept | apply sqRecord_kept | apply Kept.foldl | rfl)
      | (intro _) | with_reducible apply Kept.ite | split | with_reducible refine Kept.mk' ?_ ?_ ?_ ?_

theorem smbRetry_kept {s₀ : State} {i : Fin 128} {s : State} (hK : Kept s₀ s) : Kept s₀ (smbRetry s i) := by
  unfold smbRetry
  repeat' first
      | (with_reducible first
          | assumption | apply pumpSmb_kept | apply modStep_kept | apply reachTime_kept | apply Kept.foldl | rfl)
      | (intro _) | with_reducible apply Kept.ite | split | with_reducible refine Kept.mk' ?_ ?_ ?_ ?_

theorem pollInterval_kept {s₀ : State} {i : Fin 128} {s : State} (hK : Kept s₀ s) : Kept s₀ (pollInterval s i) := by
  unfold pollInterval
  repeat' first
      | (with_reducible first
          | assumption | apply pumpSmb_kept | apply modStep_kept | apply reachTime_kept | apply Kept.foldl | rfl)
      | (intro _) | with_reducible apply Kept.ite | split | with_reducible refine Kept.mk' ?_ ?_ ?_ ?_

theorem pfEvent_kept {s₀ : State} {i : Fin 128} {s : State} (hK : Kept s₀ s) : Kept s₀ (pfEvent s i) := by
  unfold pfEvent
  repeat' first
      | (with_reducible first
          | assumption | apply reachTime_kept | apply platformFaults_kept | apply Kept.foldl | rfl)
      | (intro _) | with_reducible apply Kept.ite | split | with_reducible refine Kept.mk' ?_ ?_ ?_ ?_

theorem watchRearm_kept {s₀ : State} {i : Fin 128} {s : State} (hK : Kept s₀ s) : Kept s₀ (watchRearm s i) := by
  unfold watchRearm
  repeat' first
      | (with_reducible first | assumption | apply modStep_kept | apply reachTime_kept | apply Kept.foldl | rfl)
      | (intro _) | with_reducible apply Kept.ite | split | with_reducible refine Kept.mk' ?_ ?_ ?_ ?_

theorem minHoldExpiry_kept {s₀ : State} {n : Fin 32} {s : State} (hK : Kept s₀ s) : Kept s₀ (minHoldExpiry s n) := by
  unfold minHoldExpiry
  repeat' first
      | (with_reducible first | assumption | apply reachTime_kept | apply regate_kept | apply Kept.foldl | rfl)
      | (intro _) | with_reducible apply Kept.ite | split | with_reducible refine Kept.mk' ?_ ?_ ?_ ?_

theorem smbEnd_kept {s₀ : State} {r : SmbResult} {s : State} (hK : Kept s₀ s) : Kept s₀ (smbEnd s r) := by
  unfold smbEnd
  repeat' first
      | (with_reducible first
          | assumption | apply leaveSmb_kept | apply sqInt_kept | apply pumpSmb_kept | apply Kept.foldl | rfl)
      | (intro _) | with_reducible apply Kept.ite | split | with_reducible refine Kept.mk' ?_ ?_ ?_ ?_

theorem restartPmb_kept {s₀ s : State} (hK : Kept s₀ s) : Kept s₀ (restartPmb s) := by
  unfold restartPmb
  repeat' first
      | (with_reducible first | assumption | apply pumpSmb_kept | apply modStep_kept | apply Kept.foldl | rfl)
      | (intro _) | with_reducible apply Kept.ite | split | with_reducible refine Kept.mk' ?_ ?_ ?_ ?_

theorem noticeStep_kept {s₀ : State} {i : Fin 128} {done : Bool} {s : State} (hK : Kept s₀ s) : Kept s₀
    (noticeStep s i done) := by
  unfold noticeStep
  repeat' first
      | (with_reducible first
          | assumption | apply finishStep_kept | apply runGraph_kept | apply failStep_kept | apply Kept.foldl | rfl)
      | (intro _) | with_reducible apply Kept.ite | split | with_reducible refine Kept.mk' ?_ ?_ ?_ ?_

theorem stepLevel_kept {s₀ : State} {i : Fin 128} {c : Step} {v : Bool} {s : State} (hK : Kept s₀ s) : Kept s₀
    (stepLevel s i c v) := by
  unfold stepLevel
  repeat' first
      | (with_reducible first | assumption | apply finishStep_kept | apply modStep_kept | apply Kept.foldl | rfl)
      | (intro _) | with_reducible apply Kept.ite | split | with_reducible refine Kept.mk' ?_ ?_ ?_ ?_

theorem stepsLevel_kept {s₀ : State} {l : Fin 96} {v : Bool} {now : List (Fin 128)} {s : State} (hK : Kept s₀ s) :
    Kept s₀ (stepsLevel s l v now) := by
  unfold stepsLevel
  repeat' first
      | (with_reducible first | assumption | apply stepLevel_kept | apply Kept.foldl | rfl) | (intro _)
      | with_reducible apply Kept.ite | split | with_reducible refine Kept.mk' ?_ ?_ ?_ ?_

theorem ioChange_kept {s₀ : State} {l : Fin 96} {v : Bool} {s : State} (hK : Kept s₀ s) : Kept s₀ (ioChange s l v) := by
  unfold ioChange
  repeat' first
      | (with_reducible first
          | assumption | apply stepsLevel_kept | apply runGraph_kept | apply platformFaults_kept | apply Kept.foldl
          | rfl)
      | (intro _) | with_reducible apply Kept.ite | split | with_reducible refine Kept.mk' ?_ ?_ ?_ ?_

end Sys2Proof.Machine
end

