-- ==== Sys2Proof/Laws/Mailbox.lean ====
section
/-! SUPPORT. What each operation of Machine/Mailbox.lean keeps (`Kept`). -/

set_option linter.unusedTactic false
set_option linter.unreachableTactic false

namespace Sys2Proof.Machine

theorem modPortal_kept {s₀ : State} {x : Fin 6} {f : Portal → Portal} {s : State} (hK : Kept s₀ s) : Kept s₀
    (modPortal s x f) := by
  unfold modPortal
  repeat' first
      | (with_reducible first | assumption | apply Kept.foldl | rfl) | (intro _) | with_reducible apply Kept.ite
      | split | with_reducible refine Kept.mk' ?_ ?_ ?_ ?_

theorem freeLocks_kept {s₀ : State} {n : Inst} {s : State} (hK : Kept s₀ s) : Kept s₀ (freeLocks s n) := by
  unfold freeLocks
  repeat' first
      | (with_reducible first | assumption | apply Kept.foldl | rfl) | (intro _) | with_reducible apply Kept.ite
      | split | with_reducible refine Kept.mk' ?_ ?_ ?_ ?_

theorem modBox_kept {s₀ : State} {n : Inst} {f : Box → Box} {s : State} (hK : Kept s₀ s) : Kept s₀ (modBox s n f) := by
  unfold modBox
  repeat' first
      | (with_reducible first | assumption | apply Kept.foldl | rfl) | (intro _) | with_reducible apply Kept.ite
      | split | with_reducible refine Kept.mk' ?_ ?_ ?_ ?_

theorem boxClear_kept {s₀ : State} {n : Inst} {s : State} (hK : Kept s₀ s) : Kept s₀ (boxClear s n) := by
  unfold boxClear
  repeat' first
      | (with_reducible first | assumption | apply modBox_kept | apply freeLocks_kept | apply Kept.foldl | rfl)
      | (intro _) | with_reducible apply Kept.ite | split | with_reducible refine Kept.mk' ?_ ?_ ?_ ?_

theorem enqueue_kept {s₀ : State} {n : Inst} {dev : Bool} {sender : Nat} {ws : List Word} {s : State} (hK : Kept
    s₀ s) : Kept s₀ (enqueue s n dev sender ws) := by
  unfold enqueue
  repeat' first
      | (with_reducible first | assumption | apply modBox_kept | apply Kept.foldl | rfl) | (intro _)
      | with_reducible apply Kept.ite | split | with_reducible refine Kept.mk' ?_ ?_ ?_ ?_

theorem xferSend_kept2 {s₀ : State} {n : Inst} {dev : Bool} {sender : Nat} {ws : List Word} {s : State} (hK : Kept
    s₀ s) : Kept s₀ (xferSend s n dev sender ws).2 := by
  unfold xferSend
  repeat' first
      | (with_reducible first | assumption | apply enqueue_kept | apply retire_kept | apply draw_kept2)
      | refine draw_kept ?_ (by with_reducible assumption) | (with_reducible first | apply Kept.foldl | rfl)
      | (intro _) | with_reducible apply Kept.ite | split | with_reducible refine Kept.mk' ?_ ?_ ?_ ?_

theorem xferSend_kept {s₀ : State} {n : Inst} {dev : Bool} {sender : Nat} {ws : List Word} {s : State} {p0 t} (hK
    : Kept s₀ s) (e : (xferSend s n dev sender ws) = (p0, t)) : Kept s₀ t := by
  have := xferSend_kept2 (n := n) (dev := dev) (sender := sender) (ws := ws) hK
  rw [e] at this
  exact this

theorem mbSend_kept {s₀ : State} {m : Master} {s : State} (hK : Kept s₀ s) : Kept s₀ (mbSend s m) := by
  unfold mbSend
  repeat' first
      | (with_reducible first | assumption | apply modBox_kept | apply xferSend_kept2)
      | refine xferSend_kept ?_ (by with_reducible assumption) | (with_reducible first | apply Kept.foldl | rfl)
      | (intro _) | with_reducible apply Kept.ite | split | with_reducible refine Kept.mk' ?_ ?_ ?_ ?_

theorem popIn_kept {s₀ : State} {n : Inst} {s : State} (hK : Kept s₀ s) : Kept s₀ (popIn s n) := by
  unfold popIn
  repeat' first
      | (with_reducible first | assumption | apply modBox_kept | apply Kept.foldl | rfl) | (intro _)
      | with_reducible apply Kept.ite | split | with_reducible refine Kept.mk' ?_ ?_ ?_ ?_

theorem popOut_kept {s₀ : State} {n : Inst} {s : State} (hK : Kept s₀ s) : Kept s₀ (popOut s n) := by
  unfold popOut
  repeat' first
      | (with_reducible first | assumption | apply modBox_kept | apply Kept.foldl | rfl) | (intro _)
      | with_reducible apply Kept.ite | split | with_reducible refine Kept.mk' ?_ ?_ ?_ ?_

theorem mbPop_kept {s₀ : State} {m : Master} {s : State} (hK : Kept s₀ s) : Kept s₀ (mbPop s m) := by
  unfold mbPop
  repeat' first
      | (with_reducible first | assumption | apply popIn_kept | apply popOut_kept | apply Kept.foldl | rfl)
      | (intro _) | with_reducible apply Kept.ite | split | with_reducible refine Kept.mk' ?_ ?_ ?_ ?_

theorem bulkPut_kept {s₀ : State} {n : Inst} {o : Nat} {bs : List Byte} {s : State} (hK : Kept s₀ s) : Kept s₀
    (bulkPut s n o bs) := by
  unfold bulkPut
  repeat' first
      | (with_reducible first | assumption | apply modBox_kept | apply Kept.foldl | rfl) | (intro _)
      | with_reducible apply Kept.ite | split | with_reducible refine Kept.mk' ?_ ?_ ?_ ?_

theorem bulkWrite_kept {s₀ : State} {n : Inst} {dev : Bool} {o : Nat} {bs : List Byte} {s : State} (hK : Kept s₀
    s) : Kept s₀ (bulkWrite s n dev o bs) := by
  unfold bulkWrite
  repeat' first
      | (with_reducible first | assumption | apply bulkPut_kept | apply Kept.foldl | rfl) | (intro _)
      | with_reducible apply Kept.ite | split | with_reducible refine Kept.mk' ?_ ?_ ?_ ?_

theorem tallyExtend_kept {s₀ : State} {m : Master} {s : State} (hK : Kept s₀ s) : Kept s₀ (tallyExtend s m) := by
  unfold tallyExtend
  repeat' first
      | (with_reducible first | assumption | apply tallyRequest_kept | apply Kept.foldl | rfl) | (intro _)
      | with_reducible apply Kept.ite | split | with_reducible refine Kept.mk' ?_ ?_ ?_ ?_

theorem lockWrite_kept {s₀ : State} {m : Master} {k : Fin 16} {v : Word} {s : State} (hK : Kept s₀ s) : Kept s₀
    (lockWrite s m k v) := by
  unfold lockWrite
  repeat' first
      | (with_reducible first | assumption | apply Kept.foldl | rfl) | (intro _) | with_reducible apply Kept.ite
      | split | with_reducible refine Kept.mk' ?_ ?_ ?_ ?_

theorem tallySnap_kept {s₀ : State} {m : Master} {s : State} (hK : Kept s₀ s) : Kept s₀ (tallySnap s m) := by
  unfold tallySnap
  repeat' first
      | (with_reducible first | assumption | apply modSel_kept | apply Kept.foldl | rfl) | (intro _)
      | with_reducible apply Kept.ite | split | with_reducible refine Kept.mk' ?_ ?_ ?_ ?_

theorem lockRead_kept {s₀ : State} {m : Master} {k : Fin 16} {s : State} (hK : Kept s₀ s) : Kept s₀ (lockRead s m
    k) := by
  unfold lockRead
  repeat' first
      | (with_reducible first | assumption | apply Kept.foldl | rfl) | (intro _) | with_reducible apply Kept.ite
      | split | with_reducible refine Kept.mk' ?_ ?_ ?_ ?_

theorem modI3c_kept {s₀ : State} {p : Fin 4} {f : I3c → I3c} {s : State} (hK : Kept s₀ s) : Kept s₀ (modI3c s p f) := by
  unfold modI3c
  repeat' first
      | (with_reducible first | assumption | apply Kept.foldl | rfl) | (intro _) | with_reducible apply Kept.ite
      | split | with_reducible refine Kept.mk' ?_ ?_ ?_ ?_

theorem portalBad_kept {s₀ : State} {x : Fin 6} {s : State} (hK : Kept s₀ s) : Kept s₀ (portalBad s x) := by
  unfold portalBad
  repeat' first
      | (with_reducible first | assumption | apply modPortal_kept | apply Kept.foldl | rfl) | (intro _)
      | with_reducible apply Kept.ite | split | with_reducible refine Kept.mk' ?_ ?_ ?_ ?_

theorem mctpDropped_kept {s₀ s : State} (hK : Kept s₀ s) : Kept s₀ (mctpDropped s) := by
  unfold mctpDropped
  repeat' first
      | (with_reducible first | assumption | apply mbInt_kept | apply Kept.foldl | rfl) | (intro _)
      | with_reducible apply Kept.ite | split | with_reducible refine Kept.mk' ?_ ?_ ?_ ?_

theorem mctpAnswer_kept {s₀ : State} {p : Fin 4} {pkt : List Byte} {s : State} (hK : Kept s₀ s) : Kept s₀
    (mctpAnswer s p pkt) := by
  unfold mctpAnswer
  repeat' first
      | (with_reducible first | assumption | apply modI3c_kept | apply Kept.foldl | rfl) | (intro _)
      | with_reducible apply Kept.ite | split | with_reducible refine Kept.mk' ?_ ?_ ?_ ?_

theorem mctpAssemble_kept {s₀ : State} {n : Inst} {src flags : Byte} {body : List Byte} {s : State} (hK : Kept s₀
    s) : Kept s₀ (mctpAssemble s n src flags body) := by
  unfold mctpAssemble
  repeat' first
      | (with_reducible first
          | assumption | apply modBox_kept | apply mctpDropped_kept | apply bulkPut_kept | apply enqueue_kept
          | apply Kept.foldl | rfl)
      | (intro _) | with_reducible apply Kept.ite | split | with_reducible refine Kept.mk' ?_ ?_ ?_ ?_

theorem mctpRx_kept {s₀ : State} {p : Fin 4} {pkt : List Byte} {s : State} (hK : Kept s₀ s) : Kept s₀ (mctpRx s p
    pkt) := by
  unfold mctpRx
  repeat' first
      | (with_reducible first | assumption | apply mctpAnswer_kept | apply draw_kept2)
      | refine draw_kept ?_ (by with_reducible assumption)
      | (with_reducible first
          | apply modBox_kept | apply mctpDropped_kept | apply mctpAssemble_kept | apply modI3c_kept
          | apply portalBad_kept | apply retire_kept | apply Kept.foldl | rfl)
      | (intro _) | with_reducible apply Kept.ite | split | with_reducible refine Kept.mk' ?_ ?_ ?_ ?_

theorem i3cReply_kept {s₀ : State} {p : Fin 4} {s : State} (hK : Kept s₀ s) : Kept s₀ (i3cReply s p) := by
  unfold i3cReply
  repeat' first
      | (with_reducible first | assumption | apply modI3c_kept | apply Kept.foldl | rfl) | (intro _)
      | with_reducible apply Kept.ite | split | with_reducible refine Kept.mk' ?_ ?_ ?_ ?_

theorem mctpRead_kept {s₀ : State} {p : Fin 4} {s : State} (hK : Kept s₀ s) : Kept s₀ (mctpRead s p) := by
  unfold mctpRead
  repeat' first
      | (with_reducible first
          | assumption | apply modBox_kept | apply popOut_kept | apply modI3c_kept | apply Kept.foldl | rfl)
      | (intro _) | with_reducible apply Kept.ite | split | with_reducible refine Kept.mk' ?_ ?_ ?_ ?_

theorem i3cFree_kept {s₀ : State} {p : Fin 4} {n : Nat} {s : State} (hK : Kept s₀ s) : Kept s₀ (i3cFree s p n) := by
  unfold i3cFree
  repeat' first
      | (with_reducible first | assumption | apply modI3c_kept | apply useFree_kept | apply Kept.foldl | rfl)
      | (intro _) | with_reducible apply Kept.ite | split | with_reducible refine Kept.mk' ?_ ?_ ?_ ?_

theorem i3cCcc_kept {s₀ : State} {p : Fin 4} {ccc : Byte} {directed : Bool} {data : List Byte} {s : State} (hK :
    Kept s₀ s) : Kept s₀ (i3cCcc s p ccc directed data) := by
  unfold i3cCcc
  repeat' first
      | (with_reducible first | assumption | apply modI3c_kept | apply i3cFree_kept | apply Kept.foldl | rfl)
      | (intro _) | with_reducible apply Kept.ite | split | with_reducible refine Kept.mk' ?_ ?_ ?_ ?_

theorem i3cTimeout_kept {s₀ : State} {p : Fin 4} {s : State} (hK : Kept s₀ s) : Kept s₀ (i3cTimeout s p) := by
  unfold i3cTimeout
  repeat' first
      | (with_reducible first
          | assumption | apply modPortal_kept | apply reachTime_kept | apply modI3c_kept | apply Kept.foldl | rfl)
      | (intro _) | with_reducible apply Kept.ite | split | with_reducible refine Kept.mk' ?_ ?_ ?_ ?_

theorem trySend_kept2 {s₀ : State} {n : Inst} {dev : Bool} {sender : Nat} {ws : List Word} {s : State} (hK : Kept
    s₀ s) : Kept s₀ (trySend s n dev sender ws).2 := by
  unfold trySend
  dsimp only
  repeat' first
      | (with_reducible first | assumption | apply enqueue_kept | apply Kept.foldl | rfl) | (intro _)
      | with_reducible apply Kept.ite | split | with_reducible refine Kept.mk' ?_ ?_ ?_ ?_

theorem trySend_kept {s₀ : State} {n : Inst} {dev : Bool} {sender : Nat} {ws : List Word} {s : State} {p0 t} (hK :
    Kept s₀ s) (e : (trySend s n dev sender ws) = (p0, t)) : Kept s₀ t := by
  have := trySend_kept2 (n := n) (dev := dev) (sender := sender) (ws := ws) hK
  rw [e] at this
  exact this

end Sys2Proof.Machine
end

