-- ==== Sys2Proof/Laws/Spdm.lean ====
section
/-! SUPPORT. What each operation of Machine/Spdm.lean keeps (`Kept`). -/

set_option linter.unusedTactic false
set_option linter.unreachableTactic false

namespace Sys2Proof.Machine

theorem bigFree_kept {s₀ : State} {n : Inst} {s : State} (hK : Kept s₀ s) : Kept s₀ (bigFree s n) := by
  unfold bigFree
  repeat' first
      | (with_reducible first | assumption | apply Kept.foldl | rfl) | (intro _) | with_reducible apply Kept.ite
      | split | with_reducible refine Kept.mk' ?_ ?_ ?_ ?_

theorem spdmSend_kept {s₀ : State} {n : Inst} {r : List Byte} {s : State} (hK : Kept s₀ s) : Kept s₀ (spdmSend s n
    r) := by
  unfold spdmSend
  repeat' first
      | (with_reducible first | assumption | apply trySend_kept2)
      | refine trySend_kept ?_ (by with_reducible assumption)
      | (with_reducible first | apply bulkPut_kept | apply Kept.foldl | rfl) | (intro _)
      | with_reducible apply Kept.ite | split | with_reducible refine Kept.mk' ?_ ?_ ?_ ?_

theorem spdmBusy_kept {s₀ : State} {n : Inst} {s : State} (hK : Kept s₀ s) : Kept s₀ (spdmBusy s n) := by
  unfold spdmBusy
  repeat' first
      | (with_reducible first | assumption | apply mbInt_kept | apply spdmSend_kept | apply Kept.foldl | rfl)
      | (intro _) | with_reducible apply Kept.ite | split | with_reducible refine Kept.mk' ?_ ?_ ?_ ?_

theorem spdmRespond_kept {s₀ : State} {n : Inst} {r : List Byte} {s : State} (hK : Kept s₀ s) : Kept s₀
    (spdmRespond s n r) := by
  unfold spdmRespond
  repeat' first
      | (with_reducible first | assumption | apply spdmSend_kept | apply spdmBusy_kept | apply Kept.foldl | rfl)
      | (intro _) | with_reducible apply Kept.ite | split | with_reducible refine Kept.mk' ?_ ?_ ?_ ?_

theorem spdmServe_kept {s₀ : State} {n : Inst} {isCode : Nat → Bool} {f : State → Nat → List Byte → Option (List
    Byte) × State} {s : State} (hK : Kept s₀ s) (hf : ∀ t x0 x1, Kept s₀ t → Kept s₀ (f t x0 x1).2) : Kept s₀
    (spdmServe s n isCode f) := by
  unfold spdmServe
  dsimp only
  repeat' first
      | (with_reducible first | assumption | apply hf)
      | refine Kept.of_pair (by with_reducible assumption) (hf _ _ _ ?_)
      | (with_reducible first
          | apply spdmRespond_kept | apply spdmBusy_kept | apply popIn_kept | apply spdmSend_kept
          | apply bigFree_kept | apply modBox_kept | apply retire_kept | apply draw_kept2)
      | refine draw_kept ?_ (by with_reducible assumption) | (with_reducible first | apply Kept.foldl | rfl)
      | (intro _) | with_reducible apply Kept.ite | split | with_reducible refine Kept.mk' ?_ ?_ ?_ ?_

theorem spdmVersion_kept {s₀ : State} {n : Inst} {s : State} (hK : Kept s₀ s) : Kept s₀ (spdmVersion s n) := by
  unfold spdmVersion
  repeat' first
      | (with_reducible first | assumption | apply modBox_kept | apply spdmServe_kept | apply Kept.foldl | rfl)
      | (intro _) | with_reducible apply Kept.ite | split | with_reducible refine Kept.mk' ?_ ?_ ?_ ?_

theorem spdmIn_kept2 {s₀ : State} {n : Inst} {st : SpdmSt} {r : Option (List Byte) × State} {s : State} (hK : Kept s₀ s)
    (hr : Kept s₀ r.2) : Kept s₀ (spdmIn s n st r).2 := by
  unfold spdmIn
  split <;> assumption

theorem spdmCaps_kept {s₀ : State} {n : Inst} {s : State} (hK : Kept s₀ s) : Kept s₀ (spdmCaps s n) := by
  unfold spdmCaps
  repeat' first
      | (with_reducible first | assumption | apply spdmIn_kept2)
      | refine spdmIn_kept ?_ (by with_reducible assumption)
      | (with_reducible first | apply modBox_kept | apply spdmServe_kept | apply Kept.foldl | rfl) | (intro _)
      | with_reducible apply Kept.ite | split | with_reducible refine Kept.mk' ?_ ?_ ?_ ?_

theorem spdmAlgs_kept {s₀ : State} {n : Inst} {s : State} (hK : Kept s₀ s) : Kept s₀ (spdmAlgs s n) := by
  unfold spdmAlgs
  repeat' first
      | (with_reducible first | assumption | apply spdmIn_kept2)
      | refine spdmIn_kept ?_ (by with_reducible assumption)
      | (with_reducible first | apply modBox_kept | apply spdmServe_kept | apply Kept.foldl | rfl) | (intro _)
      | with_reducible apply Kept.ite | split | with_reducible refine Kept.mk' ?_ ?_ ?_ ?_

theorem addB_kept {s₀ : State} {n : Inst} {m : List Byte} {s : State} (hK : Kept s₀ s) : Kept s₀ (addB s n m) := by
  unfold addB
  repeat' first
      | (with_reducible first | assumption | apply modBox_kept | apply Kept.foldl | rfl) | (intro _)
      | with_reducible apply Kept.ite | split | with_reducible refine Kept.mk' ?_ ?_ ?_ ?_

theorem spdmDigests_kept {s₀ : State} {n : Inst} {s : State} (hK : Kept s₀ s) : Kept s₀ (spdmDigests s n) := by
  unfold spdmDigests
  repeat' first
      | (with_reducible first | assumption | apply spdmServe_kept | apply addB_kept | apply spdmIn_kept2)
      | refine spdmIn_kept ?_ (by with_reducible assumption) | (with_reducible first | apply Kept.foldl | rfl)
      | (intro _) | with_reducible apply Kept.ite | split | with_reducible refine Kept.mk' ?_ ?_ ?_ ?_

theorem spdmCert_kept {s₀ : State} {n : Inst} {s : State} (hK : Kept s₀ s) : Kept s₀ (spdmCert s n) := by
  unfold spdmCert
  repeat' first
      | (with_reducible first | assumption | apply spdmServe_kept | apply addB_kept | apply spdmIn_kept2)
      | refine spdmIn_kept ?_ (by with_reducible assumption) | (with_reducible first | apply Kept.foldl | rfl)
      | (intro _) | with_reducible apply Kept.ite | split | with_reducible refine Kept.mk' ?_ ?_ ?_ ?_

theorem spdmSign_kept2 {s₀ : State} {n : Inst} {id : Nat} {code : Byte} {ctx : String} {transcript resp : List
    Byte} {s : State} (hK : Kept s₀ s) : Kept s₀ (spdmSign s n id code ctx transcript resp).2 := by
  unfold spdmSign
  repeat' first
      | (with_reducible first | assumption | apply signWith_kept2)
      | refine signWith_kept ?_ (by with_reducible assumption)
      | (with_reducible first | apply hashEnq_kept | apply modBox_kept | apply Kept.foldl | rfl) | (intro _)
      | with_reducible apply Kept.ite | split | with_reducible refine Kept.mk' ?_ ?_ ?_ ?_

theorem spdmSign_kept {s₀ : State} {n : Inst} {id : Nat} {code : Byte} {ctx : String} {transcript resp : List
    Byte} {s : State} {p0 t} (hK : Kept s₀ s) (e : (spdmSign s n id code ctx transcript resp) = (p0, t)) : Kept s₀ t
    := by
  have := spdmSign_kept2 (n := n) (id := id) (code := code) (ctx := ctx) (transcript := transcript) (resp := resp) hK
  rw [e] at this
  exact this

theorem spdmChallenge_kept {s₀ : State} {n : Inst} {s : State} (hK : Kept s₀ s) : Kept s₀ (spdmChallenge s n) := by
  unfold spdmChallenge
  dsimp only
  repeat' first
      | (with_reducible first | assumption | apply entropyBytes_kept2)
      | refine entropyBytes_kept ?_ (by with_reducible assumption) | (with_reducible first | apply spdmIn_kept2)
      | refine spdmIn_kept ?_ (by with_reducible assumption) | (with_reducible first | apply spdmSign_kept2)
      | refine spdmSign_kept ?_ (by with_reducible assumption)
      | (with_reducible first | apply modBox_kept | apply spdmServe_kept | apply Kept.foldl | rfl) | (intro _)
      | with_reducible apply Kept.ite | split | with_reducible refine Kept.mk' ?_ ?_ ?_ ?_

theorem spdmMeas_kept {s₀ : State} {n : Inst} {s : State} (hK : Kept s₀ s) : Kept s₀ (spdmMeas s n) := by
  unfold spdmMeas
  dsimp only
  repeat' first
      | (with_reducible first | assumption | apply entropyBytes_kept2)
      | refine entropyBytes_kept ?_ (by with_reducible assumption) | (with_reducible first | apply spdmIn_kept2)
      | refine spdmIn_kept ?_ (by with_reducible assumption) | (with_reducible first | apply spdmSign_kept2)
      | refine spdmSign_kept ?_ (by with_reducible assumption)
      | (with_reducible first | apply modBox_kept | apply spdmServe_kept | apply Kept.foldl | rfl) | (intro _)
      | with_reducible apply Kept.ite | split | with_reducible refine Kept.mk' ?_ ?_ ?_ ?_

theorem spdmChunk_kept {s₀ : State} {n : Inst} {s : State} (hK : Kept s₀ s) : Kept s₀ (spdmChunk s n) := by
  unfold spdmChunk
  dsimp only
  repeat' first
      | (with_reducible first | assumption | apply spdmServe_kept | apply Kept.foldl | rfl) | (intro _)
      | with_reducible apply Kept.ite | split | with_reducible refine Kept.mk' ?_ ?_ ?_ ?_

theorem spdmOther_kept {s₀ : State} {n : Inst} {s : State} (hK : Kept s₀ s) : Kept s₀ (spdmOther s n) := by
  unfold spdmOther
  repeat' first
      | (with_reducible first | assumption | apply spdmServe_kept | apply Kept.foldl | rfl) | (intro _)
      | with_reducible apply Kept.ite | split | with_reducible refine Kept.mk' ?_ ?_ ?_ ?_

theorem spdmReady_kept {s₀ : State} {n : Inst} {s : State} (hK : Kept s₀ s) : Kept s₀ (spdmReady s n) := by
  unfold spdmReady
  repeat' first
      | (with_reducible first | assumption | apply spdmRespond_kept | apply spdmSend_kept | apply modBox_kept)
      | refine unitDone_kept ?_ (by with_reducible assumption)
      | (with_reducible first | apply retire_kept | apply Kept.foldl | rfl) | (intro _)
      | with_reducible apply Kept.ite | split | with_reducible refine Kept.mk' ?_ ?_ ?_ ?_

end Sys2Proof.Machine
end

