-- ==== Sys2Proof/Laws/Fabric.lean ====
section
/-! SUPPORT. What each operation of Machine/Fabric.lean keeps (`Kept`). -/

set_option linter.unusedTactic false
set_option linter.unreachableTactic false

namespace Sys2Proof.Machine

theorem fabLock_kept {s₀ s : State} (hK : Kept s₀ s) : Kept s₀ (fabLock s) := by
  unfold fabLock
  repeat' first
      | (with_reducible first | assumption | apply Kept.foldl | rfl) | (intro _) | with_reducible apply Kept.ite
      | split | with_reducible refine Kept.mk' ?_ ?_ ?_ ?_

theorem modSnap_kept {s₀ : State} {g : Snap → Snap} {s : State} (hK : Kept s₀ s) : Kept s₀ (modSnap s g) := by
  unfold modSnap
  repeat' first
      | (with_reducible first | assumption | apply Kept.foldl | rfl) | (intro _) | with_reducible apply Kept.ite
      | split | with_reducible refine Kept.mk' ?_ ?_ ?_ ?_

theorem dropTransit_kept {s₀ s : State} (hK : Kept s₀ s) : Kept s₀ (dropTransit s) := by
  unfold dropTransit
  repeat' first
      | (with_reducible first | assumption | apply Kept.foldl | rfl) | (intro _) | with_reducible apply Kept.ite
      | split | with_reducible refine Kept.mk' ?_ ?_ ?_ ?_

theorem treeDown_kept {s₀ : State} {fr : FabFrame} {s : State} (hK : Kept s₀ s) : Kept s₀ (treeDown s fr) := by
  unfold treeDown
  repeat' first
      | (with_reducible first | assumption | apply sendOn_kept | apply Kept.foldl | rfl) | (intro _)
      | with_reducible apply Kept.ite | split | with_reducible refine Kept.mk' ?_ ?_ ?_ ?_

theorem forwardDown_kept {s₀ : State} {fr : FabFrame} {s : State} (hK : Kept s₀ s) : Kept s₀ (forwardDown s fr) := by
  unfold forwardDown
  repeat' first
      | (with_reducible first | assumption | apply treeDown_kept | apply dropTransit_kept | apply Kept.foldl | rfl)
      | (intro _) | with_reducible apply Kept.ite | split | with_reducible refine Kept.mk' ?_ ?_ ?_ ?_

theorem resetFrame_kept {s₀ : State} {fr : FabFrame} {s : State} (hK : Kept s₀ s) : Kept s₀ (resetFrame s fr) := by
  unfold resetFrame
  repeat' first
      | (with_reducible first
          | assumption | apply modAo_kept | apply fbInt_kept | apply warmReset_kept | apply forwardDown_kept
          | exact memWrite_wf _ _ (by with_reducible assumption))
      | exact memWf_nil 0 | (with_reducible first | apply Kept.foldl | rfl) | (intro _)
      | with_reducible apply Kept.ite | split | with_reducible refine Kept.mk' ?_ ?_ ?_ ?_

theorem freset_kept {s₀ : State} {m : Master} {s : State} (hK : Kept s₀ s) : Kept s₀ (freset s m) := by
  unfold freset
  repeat' first
      | (with_reducible first | assumption | apply resetFrame_kept | apply Kept.foldl | rfl) | (intro _)
      | with_reducible apply Kept.ite | split | with_reducible refine Kept.mk' ?_ ?_ ?_ ?_

theorem abortSnap_kept {s₀ s : State} (hK : Kept s₀ s) : Kept s₀ (abortSnap s) := by
  unfold abortSnap
  repeat' first
      | (with_reducible first
          | assumption | apply modSnap_kept | apply hashDrop_kept | apply fbInt_kept | apply retire_kept
          | apply Kept.foldl | rfl)
      | (intro _) | with_reducible apply Kept.ite | split | with_reducible refine Kept.mk' ?_ ?_ ?_ ?_

theorem abortBarrier_kept {s₀ s : State} (hK : Kept s₀ s) : Kept s₀ (abortBarrier s) := by
  unfold abortBarrier
  repeat' first
      | (with_reducible first | assumption | apply fbInt_kept | apply Kept.foldl | rfl) | (intro _)
      | with_reducible apply Kept.ite | split | with_reducible refine Kept.mk' ?_ ?_ ?_ ?_

theorem topoLearn_kept {s₀ s : State} (hK : Kept s₀ s) : Kept s₀ (topoLearn s) := by
  unfold topoLearn
  repeat' first
      | (with_reducible first | assumption | apply abortBarrier_kept | apply abortSnap_kept | apply Kept.foldl | rfl)
      | (intro _) | with_reducible apply Kept.ite | split | with_reducible refine Kept.mk' ?_ ?_ ?_ ?_

theorem rediscover_kept {s₀ : State} {m : Master} {s : State} (hK : Kept s₀ s) : Kept s₀ (rediscover s m) := by
  unfold rediscover
  repeat' first
      | (with_reducible first | assumption | apply topoLearn_kept | apply Kept.foldl | rfl) | (intro _)
      | with_reducible apply Kept.ite | split | with_reducible refine Kept.mk' ?_ ?_ ?_ ?_

theorem bcastGo_kept {s₀ : State} {m : Master} {s : State} (hK : Kept s₀ s) : Kept s₀ (bcastGo s m) := by
  unfold bcastGo
  repeat' first
      | (with_reducible first | assumption | apply treeDown_kept | apply Kept.foldl | rfl) | (intro _)
      | with_reducible apply Kept.ite | split | with_reducible refine Kept.mk' ?_ ?_ ?_ ?_

theorem barRelease_kept {s₀ : State} {aborted : Bool} {s : State} (hK : Kept s₀ s) : Kept s₀ (barRelease s
    aborted) := by
  unfold barRelease
  repeat' first
      | (with_reducible first | assumption | apply fbInt_kept | apply Kept.foldl | rfl) | (intro _)
      | with_reducible apply Kept.ite | split | with_reducible refine Kept.mk' ?_ ?_ ?_ ?_

theorem sendRelease_kept {s₀ : State} {aborted : Bool} {s : State} (hK : Kept s₀ s) : Kept s₀ (sendRelease s
    aborted) := by
  unfold sendRelease
  repeat' first
      | (with_reducible first | assumption | apply barRelease_kept | apply treeDown_kept | apply Kept.foldl | rfl)
      | (intro _) | with_reducible apply Kept.ite | split | with_reducible refine Kept.mk' ?_ ?_ ?_ ?_

theorem barTry_kept {s₀ s : State} (hK : Kept s₀ s) : Kept s₀ (barTry s) := by
  unfold barTry
  repeat' first
      | (with_reducible first | assumption | apply sendOn_kept | apply sendRelease_kept | apply Kept.foldl | rfl)
      | (intro _) | with_reducible apply Kept.ite | split | with_reducible refine Kept.mk' ?_ ?_ ?_ ?_

theorem arrive_kept {s₀ : State} {m : Master} {s : State} (hK : Kept s₀ s) : Kept s₀ (arrive s m) := by
  unfold arrive
  repeat' first
      | (with_reducible first | assumption | apply barTry_kept | apply Kept.foldl | rfl) | (intro _)
      | with_reducible apply Kept.ite | split | with_reducible refine Kept.mk' ?_ ?_ ?_ ?_

theorem floodBut_kept {s₀ : State} {but : Option Flue} {fr : FabFrame} {s : State} (hK : Kept s₀ s) : Kept s₀
    (floodBut s but fr) := by
  unfold floodBut
  repeat' first
      | (with_reducible first | assumption | apply sendOn_kept | apply Kept.foldl | rfl) | (intro _)
      | with_reducible apply Kept.ite | split | with_reducible refine Kept.mk' ?_ ?_ ?_ ?_

theorem relaySend_kept {s₀ s : State} (hK : Kept s₀ s) : Kept s₀ (relaySend s) := by
  unfold relaySend
  repeat' first
      | (with_reducible first | assumption | apply sendOn_kept | apply dropTransit_kept | apply Kept.foldl | rfl)
      | (intro _) | with_reducible apply Kept.ite | split | with_reducible refine Kept.mk' ?_ ?_ ?_ ?_

theorem relayRun_kept {s₀ : State} {a1 : Nat} {a2 : State} (hK : Kept s₀ a2) : Kept s₀ (relayRun a1 a2) := by
  induction a1 generalizing a2 with
  | zero =>
    unfold relayRun
    repeat' first
        | (with_reducible first | assumption | apply relaySend_kept | apply Kept.foldl | rfl) | (intro _)
        | with_reducible apply Kept.ite | split | with_reducible refine Kept.mk' ?_ ?_ ?_ ?_
  | succ _ ih =>
    unfold relayRun
    repeat' first
        | with_reducible apply ih | (with_reducible first
            | assumption | apply relaySend_kept | apply Kept.foldl | rfl)
        | (intro _) | with_reducible apply Kept.ite | split | with_reducible refine Kept.mk' ?_ ?_ ?_ ?_

theorem relayQueue_kept {s₀ : State} {m : Master} {v : Word} {s : State} (hK : Kept s₀ s) : Kept s₀ (relayQueue s
    m v) := by
  unfold relayQueue
  repeat' first
      | (with_reducible first | assumption | apply relayRun_kept | apply Kept.foldl | rfl) | (intro _)
      | with_reducible apply Kept.ite | split | with_reducible refine Kept.mk' ?_ ?_ ?_ ?_

theorem sendTopo_kept {s₀ s : State} (hK : Kept s₀ s) : Kept s₀ (sendTopo s) := by
  unfold sendTopo
  repeat' first
      | (with_reducible first | assumption | apply floodBut_kept | apply Kept.foldl | rfl) | (intro _)
      | with_reducible apply Kept.ite | split | with_reducible refine Kept.mk' ?_ ?_ ?_ ?_

theorem topoOwn_kept {s₀ s : State} (hK : Kept s₀ s) : Kept s₀ (topoOwn s) := by
  unfold topoOwn
  repeat' first
      | (with_reducible first | assumption | apply topoLearn_kept | apply sendTopo_kept | apply Kept.foldl | rfl)
      | (intro _) | with_reducible apply Kept.ite | split | with_reducible refine Kept.mk' ?_ ?_ ?_ ?_

theorem serveWrite_kept {s₀ : State} {m : Master} {v : Word} {s : State} (hK : Kept s₀ s) : Kept s₀ (serveWrite s
    m v) := by
  unfold serveWrite
  repeat' first
      | (with_reducible first | assumption | apply topoOwn_kept | apply Kept.foldl | rfl) | (intro _)
      | with_reducible apply Kept.ite | split | with_reducible refine Kept.mk' ?_ ?_ ?_ ?_

theorem modFlue_kept {s₀ : State} {f : Flue} {g : FlueRt → FlueRt} {s : State} (hK : Kept s₀ s) : Kept s₀ (modFlue
    s f g) := by
  unfold modFlue
  repeat' first
      | (with_reducible first | assumption | apply modLink_kept | apply Kept.foldl | rfl) | (intro _)
      | with_reducible apply Kept.ite | split | with_reducible refine Kept.mk' ?_ ?_ ?_ ?_

theorem flueEnter_kept {s₀ : State} {f : Flue} {st : FlueSt} {s : State} (hK : Kept s₀ s) : Kept s₀ (flueEnter s f
    st) := by
  unfold flueEnter
  repeat' first
      | (with_reducible first
          | assumption | apply fbInt_kept | apply topoOwn_kept | apply modFlue_kept | apply Kept.foldl | rfl)
      | (intro _) | with_reducible apply Kept.ite | split | with_reducible refine Kept.mk' ?_ ?_ ?_ ?_

theorem pairLinkDown_kept {s₀ s : State} (hK : Kept s₀ s) : Kept s₀ (pairLinkDown s) := by
  unfold pairLinkDown
  repeat' first
      | (with_reducible first | assumption | apply Kept.foldl | rfl) | (intro _) | with_reducible apply Kept.ite
      | split | with_reducible refine Kept.mk' ?_ ?_ ?_ ?_

theorem linkEnter_kept {s₀ : State} {l : Link} {st : FlueSt} {s : State} (hK : Kept s₀ s) : Kept s₀ (linkEnter s l
    st) := by
  unfold linkEnter
  repeat' first
      | (with_reducible first
          | assumption | apply modLink_kept | apply pairLinkDown_kept | apply flueEnter_kept | apply Kept.foldl
          | rfl)
      | (intro _) | with_reducible apply Kept.ite | split | with_reducible refine Kept.mk' ?_ ?_ ?_ ?_

theorem symbolLock_kept {s₀ : State} {l : Link} {s : State} (hK : Kept s₀ s) : Kept s₀ (symbolLock s l) := by
  unfold symbolLock
  repeat' first
      | (with_reducible first | assumption | apply linkEnter_kept | apply Kept.foldl | rfl) | (intro _)
      | with_reducible apply Kept.ite | split | with_reducible refine Kept.mk' ?_ ?_ ?_ ?_

theorem trained_kept {s₀ : State} {l : Link} {swap : Bool} {pol : BitVec 2} {s : State} (hK : Kept s₀ s) : Kept s₀
    (trained s l swap pol) := by
  unfold trained
  repeat' first
      | (with_reducible first | assumption | apply modLink_kept | apply linkEnter_kept | apply Kept.foldl | rfl)
      | (intro _) | with_reducible apply Kept.ite | split | with_reducible refine Kept.mk' ?_ ?_ ?_ ?_

theorem trainTimeout_kept {s₀ : State} {l : Link} {s : State} (hK : Kept s₀ s) : Kept s₀ (trainTimeout s l) := by
  unfold trainTimeout
  repeat' first
      | (with_reducible first
          | assumption | apply reachTime_kept | apply modLink_kept | apply linkEnter_kept | apply Kept.foldl | rfl)
      | (intro _) | with_reducible apply Kept.ite | split | with_reducible refine Kept.mk' ?_ ?_ ?_ ?_

theorem linkRetry_kept {s₀ : State} {l : Link} {s : State} (hK : Kept s₀ s) : Kept s₀ (linkRetry s l) := by
  unfold linkRetry
  repeat' first
      | (with_reducible first
          | assumption | apply reachTime_kept | apply modLink_kept | apply linkEnter_kept | apply Kept.foldl | rfl)
      | (intro _) | with_reducible apply Kept.ite | split | with_reducible refine Kept.mk' ?_ ?_ ?_ ?_

theorem dropBad_kept {s₀ s : State} (hK : Kept s₀ s) : Kept s₀ (dropBad s) := by
  unfold dropBad
  repeat' first
      | (with_reducible first | assumption | apply Kept.foldl | rfl) | (intro _) | with_reducible apply Kept.ite
      | split | with_reducible refine Kept.mk' ?_ ?_ ?_ ?_

theorem replayLink_kept {s₀ : State} {l : Link} {s : State} (hK : Kept s₀ s) : Kept s₀ (replayLink s l) := by
  unfold replayLink
  repeat' first
      | (with_reducible first | assumption | apply modLink_kept | apply linkEnter_kept | apply Kept.foldl | rfl)
      | (intro _) | with_reducible apply Kept.ite | split | with_reducible refine Kept.mk' ?_ ?_ ?_ ?_

theorem linkRx_kept {s₀ : State} {l : Link} {arg : Word} {s : State} (hK : Kept s₀ s) : Kept s₀ (linkRx s l arg) := by
  unfold linkRx
  repeat' first
      | (with_reducible first
          | assumption | apply pumpLink_kept | apply modLink_kept | apply dropBad_kept | apply replayLink_kept
          | apply Kept.foldl | rfl)
      | (intro _) | with_reducible apply Kept.ite | split | with_reducible refine Kept.mk' ?_ ?_ ?_ ?_

theorem replayTimeout_kept {s₀ : State} {l : Link} {s : State} (hK : Kept s₀ s) : Kept s₀ (replayTimeout s l) := by
  unfold replayTimeout
  repeat' first
      | (with_reducible first | assumption | apply reachTime_kept | apply replayLink_kept | apply Kept.foldl | rfl)
      | (intro _) | with_reducible apply Kept.ite | split | with_reducible refine Kept.mk' ?_ ?_ ?_ ?_

theorem badFrame_kept {s₀ : State} {l : Link} {k : BadFrame} {s : State} (hK : Kept s₀ s) : Kept s₀ (badFrame s l
    k) := by
  unfold badFrame
  repeat' first
      | (with_reducible first | assumption | apply modLink_kept | apply dropBad_kept | apply Kept.foldl | rfl)
      | (intro _) | with_reducible apply Kept.ite | split | with_reducible refine Kept.mk' ?_ ?_ ?_ ?_

theorem modSnapChan_kept {s₀ : State} {i : Fin 12} {g : SnapChan → SnapChan} {s : State} (hK : Kept s₀ s) : Kept
    s₀ (modSnapChan s i g) := by
  unfold modSnapChan
  repeat' first
      | (with_reducible first | assumption | apply modSnap_kept | apply Kept.foldl | rfl) | (intro _)
      | with_reducible apply Kept.ite | split | with_reducible refine Kept.mk' ?_ ?_ ?_ ?_

theorem snapNote_kept {s₀ : State} {f : Flue} {fr : FabFrame} {s : State} (hK : Kept s₀ s) : Kept s₀ (snapNote s f
    fr) := by
  unfold snapNote
  repeat' first
      | (with_reducible first | assumption | apply modSnapChan_kept | apply Kept.foldl | rfl) | (intro _)
      | with_reducible apply Kept.ite | split | with_reducible refine Kept.mk' ?_ ?_ ?_ ?_

theorem fabRx_kept {s₀ : State} {f : Flue} {fr : FabFrame} {typ : Byte} {k : State → State} {s : State} (hK : Kept
    s₀ s) (hk : ∀ t, Kept s₀ t → Kept s₀ (k t )) : Kept s₀ (fabRx s f fr typ k) := by
  unfold fabRx
  repeat' first
      | (with_reducible first | assumption) | apply hk | (with_reducible first | apply linkTake_kept2)
      | refine linkTake_kept ?_ (by with_reducible assumption)
      | (with_reducible first | apply snapNote_kept | apply dropBad_kept | apply Kept.foldl | rfl) | (intro _)
      | with_reducible apply Kept.ite | split | with_reducible refine Kept.mk' ?_ ?_ ?_ ?_

theorem helloRx_kept {s₀ : State} {f : Flue} {fr : FabFrame} {s : State} (hK : Kept s₀ s) : Kept s₀ (helloRx s f
    fr) := by
  unfold helloRx
  repeat' first
      | (with_reducible first
          | assumption | apply flueEnter_kept | apply fabRx_kept | apply modFlue_kept | apply Kept.foldl | rfl)
      | (intro _) | with_reducible apply Kept.ite | split | with_reducible refine Kept.mk' ?_ ?_ ?_ ?_

theorem recWant_kept {s₀ s : State} (hK : Kept s₀ s) : Kept s₀ (recWant s) := by
  unfold recWant
  repeat' first
      | (with_reducible first | assumption | apply sendOn_kept | apply Kept.foldl | rfl) | (intro _)
      | with_reducible apply Kept.ite | split | with_reducible refine Kept.mk' ?_ ?_ ?_ ?_

theorem helloTimer_kept {s₀ : State} {f : Flue} {s : State} (hK : Kept s₀ s) : Kept s₀ (helloTimer s f) := by
  unfold helloTimer
  repeat' first
      | (with_reducible first | assumption | apply recWant_kept | apply sendOn_kept | apply Kept.foldl | rfl)
      | (intro _) | with_reducible apply Kept.ite | split | with_reducible refine Kept.mk' ?_ ?_ ?_ ?_

theorem helloLoss_kept {s₀ : State} {f : Flue} {s : State} (hK : Kept s₀ s) : Kept s₀ (helloLoss s f) := by
  unfold helloLoss
  repeat' first
      | (with_reducible first | assumption | apply flueEnter_kept | apply reachTime_kept | apply Kept.foldl | rfl)
      | (intro _) | with_reducible apply Kept.ite | split | with_reducible refine Kept.mk' ?_ ?_ ?_ ?_

theorem floodOn_kept {s₀ : State} {f : Flue} {fr : FabFrame} {s : State} (hK : Kept s₀ s) : Kept s₀ (floodOn s f
    fr) := by
  unfold floodOn
  repeat' first
      | (with_reducible first | assumption | apply floodBut_kept | apply dropTransit_kept | apply Kept.foldl | rfl)
      | (intro _) | with_reducible apply Kept.ite | split | with_reducible refine Kept.mk' ?_ ?_ ?_ ?_

theorem topoRx_kept {s₀ : State} {f : Flue} {fr : FabFrame} {s : State} (hK : Kept s₀ s) : Kept s₀ (topoRx s f fr) := by
  unfold topoRx
  repeat' first
      | (with_reducible first
          | assumption | apply floodOn_kept | apply fabRx_kept | apply topoLearn_kept | apply Kept.foldl | rfl)
      | (intro _) | with_reducible apply Kept.ite | split | with_reducible refine Kept.mk' ?_ ?_ ?_ ?_

theorem topoTimer_kept {s₀ s : State} (hK : Kept s₀ s) : Kept s₀ (topoTimer s) := by
  unfold topoTimer
  repeat' first
      | (with_reducible first | assumption | apply sendTopo_kept | apply Kept.foldl | rfl) | (intro _)
      | with_reducible apply Kept.ite | split | with_reducible refine Kept.mk' ?_ ?_ ?_ ?_

theorem topoAge_kept {s₀ s : State} (hK : Kept s₀ s) : Kept s₀ (topoAge s) := by
  unfold topoAge
  repeat' first
      | (with_reducible first | assumption | apply topoLearn_kept | apply reachTime_kept | apply Kept.foldl | rfl)
      | (intro _) | with_reducible apply Kept.ite | split | with_reducible refine Kept.mk' ?_ ?_ ?_ ?_

theorem giveId_kept {s₀ : State} {ser : BitVec 64} {n : Fin 32} {s : State} (hK : Kept s₀ s) : Kept s₀ (giveId s
    ser n) := by
  unfold giveId
  repeat' first
      | (with_reducible first | assumption | apply Kept.foldl | rfl) | (intro _) | with_reducible apply Kept.ite
      | split | with_reducible refine Kept.mk' ?_ ?_ ?_ ?_

theorem assignIds_kept {s₀ : State} {l : List TopoEnt} {s : State} (hK : Kept s₀ s) : Kept s₀ (assignIds s l) := by
  unfold assignIds
  repeat' first
      | (with_reducible first | assumption | apply giveId_kept | apply floodBut_kept | apply Kept.foldl | rfl)
      | (intro _) | with_reducible apply Kept.ite | split | with_reducible refine Kept.mk' ?_ ?_ ?_ ?_

theorem settled_kept {s₀ : State} {l : List TopoEnt} {co : TopoEnt} {me root : Fin 32} {s : State} (hK : Kept s₀
    s) : Kept s₀ (settled s l co me root) := by
  unfold settled
  repeat' first
      | (with_reducible first | assumption | apply fbInt_kept | apply Kept.foldl | rfl) | (intro _)
      | with_reducible apply Kept.ite | split | with_reducible refine Kept.mk' ?_ ?_ ?_ ?_

theorem settleTopo_kept {s₀ s : State} (hK : Kept s₀ s) : Kept s₀ (settleTopo s) := by
  unfold settleTopo
  repeat' first
      | (with_reducible first
          | assumption | apply topoLearn_kept | apply reachTime_kept | apply sendRelease_kept | apply settled_kept
          | apply assignIds_kept | apply Kept.foldl | rfl)
      | (intro _) | with_reducible apply Kept.ite | split | with_reducible refine Kept.mk' ?_ ?_ ?_ ?_

theorem assignRx_kept {s₀ : State} {f : Flue} {fr : FabFrame} {s : State} (hK : Kept s₀ s) : Kept s₀ (assignRx s f
    fr) := by
  unfold assignRx
  repeat' first
      | (with_reducible first
          | assumption | apply topoLearn_kept | apply floodOn_kept | apply dropBad_kept | apply giveId_kept
          | apply fabRx_kept | apply topoOwn_kept | apply Kept.foldl | rfl)
      | (intro _) | with_reducible apply Kept.ite | split | with_reducible refine Kept.mk' ?_ ?_ ?_ ?_

theorem originate_kept {s₀ : State} {fr : FabFrame} {s : State} (hK : Kept s₀ s) : Kept s₀ (originate s fr) := by
  unfold originate
  repeat' first
      | (with_reducible first | assumption | apply dropTransit_kept | apply sendOn_kept | apply Kept.foldl | rfl)
      | (intro _) | with_reducible apply Kept.ite | split | with_reducible refine Kept.mk' ?_ ?_ ?_ ?_

theorem bcastRx_kept {s₀ : State} {f : Flue} {fr : FabFrame} {s : State} (hK : Kept s₀ s) : Kept s₀ (bcastRx s f
    fr) := by
  unfold bcastRx
  repeat' first
      | (with_reducible first
          | assumption | apply fbInt_kept | apply forwardDown_kept | apply fabRx_kept | apply Kept.foldl | rfl)
      | (intro _) | with_reducible apply Kept.ite | split | with_reducible refine Kept.mk' ?_ ?_ ?_ ?_

theorem arriveRx_kept {s₀ : State} {f : Flue} {fr : FabFrame} {s : State} (hK : Kept s₀ s) : Kept s₀ (arriveRx s f
    fr) := by
  unfold arriveRx
  repeat' first
      | (with_reducible first | assumption | apply fabRx_kept | apply barTry_kept | apply Kept.foldl | rfl)
      | (intro _) | with_reducible apply Kept.ite | split | with_reducible refine Kept.mk' ?_ ?_ ?_ ?_

theorem releaseRx_kept {s₀ : State} {f : Flue} {fr : FabFrame} {s : State} (hK : Kept s₀ s) : Kept s₀ (releaseRx s
    f fr) := by
  unfold releaseRx
  repeat' first
      | (with_reducible first
          | assumption | apply forwardDown_kept | apply barRelease_kept | apply fabRx_kept | apply Kept.foldl | rfl)
      | (intro _) | with_reducible apply Kept.ite | split | with_reducible refine Kept.mk' ?_ ?_ ?_ ?_

theorem resetRx_kept {s₀ : State} {f : Flue} {fr : FabFrame} {s : State} (hK : Kept s₀ s) : Kept s₀ (resetRx s f
    fr) := by
  unfold resetRx
  repeat' first
      | (with_reducible first | assumption | apply resetFrame_kept | apply fabRx_kept | apply Kept.foldl | rfl)
      | (intro _) | with_reducible apply Kept.ite | split | with_reducible refine Kept.mk' ?_ ?_ ?_ ?_

theorem relayRx_kept {s₀ : State} {f : Flue} {fr : FabFrame} {s : State} (hK : Kept s₀ s) : Kept s₀ (relayRx s f
    fr) := by
  unfold relayRx
  repeat' first
      | (with_reducible first | assumption | apply ramWrite_kept | apply draw_kept2)
      | refine draw_kept ?_ (by with_reducible assumption)
      | (with_reducible first | apply fabRx_kept | apply retire_kept | apply Kept.foldl | rfl) | (intro _)
      | with_reducible apply Kept.ite | split | with_reducible refine Kept.mk' ?_ ?_ ?_ ?_

theorem lockLoss_kept {s₀ : State} {l : Link} {s : State} (hK : Kept s₀ s) : Kept s₀ (lockLoss s l) := by
  unfold lockLoss
  repeat' first
      | (with_reducible first | assumption | apply modLink_kept | apply linkEnter_kept | apply Kept.foldl | rfl)
      | (intro _) | with_reducible apply Kept.ite | split | with_reducible refine Kept.mk' ?_ ?_ ?_ ?_

theorem forwardFrame_kept {s₀ : State} {f : Flue} {fr : FabFrame} {s : State} (hK : Kept s₀ s) : Kept s₀
    (forwardFrame s f fr) := by
  unfold forwardFrame
  repeat' first
      | (with_reducible first
          | assumption | apply sendOn_kept | apply dropBad_kept | apply snapNote_kept | apply dropTransit_kept
          | apply linkTake_kept2)
      | refine linkTake_kept ?_ (by with_reducible assumption) | (with_reducible first | apply Kept.foldl | rfl)
      | (intro _) | with_reducible apply Kept.ite | split | with_reducible refine Kept.mk' ?_ ?_ ?_ ?_

theorem recoverySeg_kept {s₀ : State} {fr : FabFrame} {s : State} (hK : Kept s₀ s) : Kept s₀ (recoverySeg s fr) := by
  unfold recoverySeg
  repeat' first
      | (with_reducible first | assumption | apply recFinish_kept2)
      | refine recFinish_kept ?_ (by with_reducible assumption)
      | (with_reducible first | apply recProgram_kept | apply linkTake_kept2)
      | refine linkTake_kept ?_ (by with_reducible assumption) | (with_reducible first | apply recHeader_kept2)
      | refine recHeader_kept ?_ (by with_reducible assumption)
      | (with_reducible first | apply recWant_kept | apply Kept.foldl | rfl) | (intro _)
      | with_reducible apply Kept.ite | split | with_reducible refine Kept.mk' ?_ ?_ ?_ ?_

end Sys2Proof.Machine
end

