-- ==== Sys2Proof/Laws/FabricMsg.lean ====
section
/-! SUPPORT. What each operation of Machine/FabricMsg.lean keeps (`Kept`). -/

set_option linter.unusedTactic false
set_option linter.unreachableTactic false

namespace Sys2Proof.Machine

theorem startSign_kept {s₀ : State} {msg : List Byte} {costs : List Nat} {s : State} (hK : Kept s₀ s) : Kept s₀
    (startSign s msg costs) := by
  unfold startSign
  repeat' first
      | (with_reducible first | assumption | apply hashJobs_kept | apply modSnap_kept | apply signWith_kept2)
      | refine signWith_kept ?_ (by with_reducible assumption) | (with_reducible first | apply draw_kept2)
      | refine draw_kept ?_ (by with_reducible assumption) | (with_reducible first | apply Kept.foldl | rfl)
      | (intro _) | with_reducible apply Kept.ite | split | with_reducible refine Kept.mk' ?_ ?_ ?_ ?_

theorem snapCheck_kept {s₀ s : State} (hK : Kept s₀ s) : Kept s₀ (snapCheck s) := by
  unfold snapCheck
  repeat' first
      | (with_reducible first | assumption | apply modSnap_kept | apply startSign_kept | apply Kept.foldl | rfl)
      | (intro _) | with_reducible apply Kept.ite | split | with_reducible refine Kept.mk' ?_ ?_ ?_ ?_

theorem freeze_kept {s₀ : State} {epoch : Word} {nonce : Digest} {s : State} (hK : Kept s₀ s) : Kept s₀ (freeze s
    epoch nonce) := by
  unfold freeze
  repeat' first
      | (with_reducible first
          | assumption | apply modSnap_kept | apply floodBut_kept | apply snapCheck_kept | apply Kept.foldl | rfl)
      | (intro _) | with_reducible apply Kept.ite | split | with_reducible refine Kept.mk' ?_ ?_ ?_ ?_

theorem snapStart_kept {s₀ : State} {m : Master} {s : State} (hK : Kept s₀ s) : Kept s₀ (snapStart s m) := by
  unfold snapStart
  repeat' first
      | (with_reducible first | assumption | apply modSnap_kept | apply freeze_kept | apply Kept.foldl | rfl)
      | (intro _) | with_reducible apply Kept.ite | split | with_reducible refine Kept.mk' ?_ ?_ ?_ ?_

theorem pairSeen_kept2 {s₀ : State} {fr : FabFrame} {s : State} (hK : Kept s₀ s) : Kept s₀ (pairSeen s fr).2 := by
  unfold pairSeen
  dsimp only
  repeat' first
      | (with_reducible first | assumption | apply Kept.foldl | rfl) | (intro _) | with_reducible apply Kept.ite
      | split | with_reducible refine Kept.mk' ?_ ?_ ?_ ?_

theorem pairSeen_kept {s₀ : State} {fr : FabFrame} {s : State} {p0 t} (hK : Kept s₀ s) (e : (pairSeen s fr) = (p0,
    t)) : Kept s₀ t := by
  have := pairSeen_kept2 (fr := fr) hK
  rw [e] at this
  exact this

theorem dlvStale_kept {s₀ : State} {d : Byte} {s : State} (hK : Kept s₀ s) : Kept s₀ (dlvStale s d) := by
  unfold dlvStale
  repeat' first
      | (with_reducible first | assumption | apply modFlue_kept | apply Kept.foldl | rfl) | (intro _)
      | with_reducible apply Kept.ite | split | with_reducible refine Kept.mk' ?_ ?_ ?_ ?_

theorem sendDlv_kept {s₀ : State} {fr : FabFrame} {code : Nat} {s : State} (hK : Kept s₀ s) : Kept s₀ (sendDlv s
    fr code) := by
  unfold sendDlv
  repeat' first
      | (with_reducible first | assumption | apply dlvStale_kept | apply originate_kept | apply Kept.foldl | rfl)
      | (intro _) | with_reducible apply Kept.ite | split | with_reducible refine Kept.mk' ?_ ?_ ?_ ?_

theorem msgRx_kept {s₀ : State} {f : Flue} {fr : FabFrame} {s : State} (hK : Kept s₀ s) : Kept s₀ (msgRx s f fr) := by
  unfold msgRx
  repeat' first
      | (with_reducible first
          | assumption | apply sendDlv_kept | apply fabRx_kept | apply modBox_kept | apply pairSeen_kept2)
      | refine pairSeen_kept ?_ (by with_reducible assumption) | (with_reducible first | apply trySend_kept2)
      | refine trySend_kept ?_ (by with_reducible assumption)
      | (with_reducible first | apply retire_kept | apply draw_kept2)
      | refine draw_kept ?_ (by with_reducible assumption) | (with_reducible first | apply Kept.foldl | rfl)
      | (intro _) | with_reducible apply Kept.ite | split | with_reducible refine Kept.mk' ?_ ?_ ?_ ?_

theorem bulksegRx_kept {s₀ : State} {f : Flue} {fr : FabFrame} {s : State} (hK : Kept s₀ s) : Kept s₀ (bulksegRx s
    f fr) := by
  unfold bulksegRx
  repeat' first
      | (with_reducible first | assumption | apply fabRx_kept | apply modBox_kept | apply pairSeen_kept2)
      | refine pairSeen_kept ?_ (by with_reducible assumption)
      | (with_reducible first | apply bulkWrite_kept | apply retire_kept | apply draw_kept2)
      | refine draw_kept ?_ (by with_reducible assumption) | (with_reducible first | apply Kept.foldl | rfl)
      | (intro _) | with_reducible apply Kept.ite | split | with_reducible refine Kept.mk' ?_ ?_ ?_ ?_

theorem peerLost_kept {s₀ : State} {n : Inst} {code : Nat} {s : State} (hK : Kept s₀ s) : Kept s₀ (peerLost s n
    code) := by
  unfold peerLost
  repeat' first
      | (with_reducible first
          | assumption | apply fbInt_kept | apply popOut_kept | apply modBox_kept | apply Kept.foldl | rfl)
      | (intro _) | with_reducible apply Kept.ite | split | with_reducible refine Kept.mk' ?_ ?_ ?_ ?_

theorem dlvRx_kept {s₀ : State} {f : Flue} {fr : FabFrame} {s : State} (hK : Kept s₀ s) : Kept s₀ (dlvRx s f fr) := by
  unfold dlvRx
  repeat' first
      | (with_reducible first
          | assumption | apply fabRx_kept | apply modBox_kept | apply peerLost_kept | apply popOut_kept
          | apply Kept.foldl | rfl)
      | (intro _) | with_reducible apply Kept.ite | split | with_reducible refine Kept.mk' ?_ ?_ ?_ ?_

theorem takeEseq_kept2 {s₀ s : State} (hK : Kept s₀ s) : Kept s₀ (takeEseq s).2 := by
  unfold takeEseq
  repeat' first
      | (with_reducible first | assumption | apply Kept.foldl | rfl) | (intro _) | with_reducible apply Kept.ite
      | split | with_reducible refine Kept.mk' ?_ ?_ ?_ ?_

theorem takeEseq_kept {s₀ s : State} {p0 t} (hK : Kept s₀ s) (e : (takeEseq s) = (p0, t)) : Kept s₀ t := by
  have := takeEseq_kept2  hK
  rw [e] at this
  exact this

theorem sendCopies_kept {s₀ : State} {a1 : Nat} {a2 : State} (hK : Kept s₀ a2) : Kept s₀ (sendCopies a1 a2) := by
  induction a1 generalizing a2 with
  | zero =>
    unfold sendCopies
    repeat' first
        | (with_reducible first | assumption | apply originate_kept | apply Kept.foldl | rfl) | (intro _)
        | with_reducible apply Kept.ite | split | with_reducible refine Kept.mk' ?_ ?_ ?_ ?_
  | succ _ ih =>
    unfold sendCopies
    repeat' first
        | with_reducible apply ih | (with_reducible first
            | assumption | apply originate_kept | apply Kept.foldl | rfl)
        | (intro _) | with_reducible apply Kept.ite | split | with_reducible refine Kept.mk' ?_ ?_ ?_ ?_

theorem peerFrame_kept {s₀ : State} {fr : FabFrame} {s : State} (hK : Kept s₀ s) : Kept s₀ (peerFrame s fr) := by
  unfold peerFrame
  repeat' first
      | (with_reducible first
          | assumption | apply sendCopies_kept | apply notify_kept | apply originate_kept | apply Kept.foldl | rfl)
      | (intro _) | with_reducible apply Kept.ite | split | with_reducible refine Kept.mk' ?_ ?_ ?_ ?_

theorem peerEmit_kept {s₀ : State} {n : Inst} {e : BitVec 16} {s : State} (hK : Kept s₀ s) : Kept s₀ (peerEmit s n
    e) := by
  unfold peerEmit
  repeat' first
      | (with_reducible first | assumption | apply takeEseq_kept2)
      | refine takeEseq_kept ?_ (by with_reducible assumption)
      | (with_reducible first | apply peerFrame_kept | apply Kept.foldl | rfl) | (intro _)
      | with_reducible apply Kept.ite | split | with_reducible refine Kept.mk' ?_ ?_ ?_ ?_

theorem peerResend_kept {s₀ : State} {n : Inst} {s : State} (hK : Kept s₀ s) : Kept s₀ (peerResend s n) := by
  unfold peerResend
  repeat' first
      | (with_reducible first
          | assumption | apply peerEmit_kept | apply reachTime_kept | apply modBox_kept | apply peerLost_kept
          | apply Kept.foldl | rfl)
      | (intro _) | with_reducible apply Kept.ite | split | with_reducible refine Kept.mk' ?_ ?_ ?_ ?_

theorem peerSend_kept {s₀ : State} {n : Inst} {s : State} (hK : Kept s₀ s) : Kept s₀ (peerSend s n) := by
  unfold peerSend
  repeat' first
      | (with_reducible first | assumption | apply peerEmit_kept | apply takeEseq_kept2)
      | refine takeEseq_kept ?_ (by with_reducible assumption)
      | (with_reducible first | apply modBox_kept | apply Kept.foldl | rfl) | (intro _)
      | with_reducible apply Kept.ite | split | with_reducible refine Kept.mk' ?_ ?_ ?_ ?_

theorem endSign_kept2 {s₀ s : State} (hK : Kept s₀ s) : Kept s₀ (endSign s).2 := by
  unfold endSign
  repeat' first
      | (with_reducible first
          | assumption | apply modSnap_kept | apply hashDrop_kept | apply retire_kept | apply Kept.foldl | rfl)
      | (intro _) | with_reducible apply Kept.ite | split | with_reducible refine Kept.mk' ?_ ?_ ?_ ?_

theorem endSign_kept {s₀ s : State} {p0 t} (hK : Kept s₀ s) (e : (endSign s) = (p0, t)) : Kept s₀ t := by
  have := endSign_kept2  hK
  rw [e] at this
  exact this

theorem abandonSnap_kept {s₀ s : State} (hK : Kept s₀ s) : Kept s₀ (abandonSnap s) := by
  unfold abandonSnap
  repeat' first
      | (with_reducible first | assumption | apply fbInt_kept | apply endSign_kept2)
      | refine endSign_kept ?_ (by with_reducible assumption) | (with_reducible first | apply Kept.foldl | rfl)
      | (intro _) | with_reducible apply Kept.ite | split | with_reducible refine Kept.mk' ?_ ?_ ?_ ?_

theorem markerRx_kept {s₀ : State} {f : Flue} {fr : FabFrame} {s : State} (hK : Kept s₀ s) : Kept s₀ (markerRx s f
    fr) := by
  unfold markerRx
  repeat' first
      | (with_reducible first
          | assumption | apply modSnap_kept | apply abandonSnap_kept | apply freeze_kept | apply fabRx_kept
          | apply Kept.foldl | rfl)
      | (intro _) | with_reducible apply Kept.ite | split | with_reducible refine Kept.mk' ?_ ?_ ?_ ?_

theorem closeRx_kept {s₀ : State} {f : Flue} {fr : FabFrame} {s : State} (hK : Kept s₀ s) : Kept s₀ (closeRx s f
    fr) := by
  unfold closeRx
  repeat' first
      | (with_reducible first
          | assumption | apply abandonSnap_kept | apply fabRx_kept | apply freeze_kept | apply modSnapChan_kept
          | apply snapCheck_kept | apply Kept.foldl | rfl)
      | (intro _) | with_reducible apply Kept.ite | split | with_reducible refine Kept.mk' ?_ ?_ ?_ ?_

theorem closeTimeout_kept {s₀ s : State} (hK : Kept s₀ s) : Kept s₀ (closeTimeout s) := by
  unfold closeTimeout
  repeat' first
      | (with_reducible first
          | assumption | apply modSnap_kept | apply reachTime_kept | apply snapCheck_kept | apply Kept.foldl | rfl)
      | (intro _) | with_reducible apply Kept.ite | split | with_reducible refine Kept.mk' ?_ ?_ ?_ ?_

theorem signDone_kept {s₀ s t : State} (hK : Kept s₀ s) (e : signDone s = some t) : Kept s₀ t := by
  unfold signDone at e
  split at e
  · exact unitDone_kept hK e
  · exact Option.some.inj e ▸ hK

theorem snapPresent_kept {s₀ : State} {n : Nat} {s : State} (hK : Kept s₀ s) : Kept s₀ (snapPresent s n) := by
  unfold snapPresent
  repeat' first
      | (with_reducible first | assumption | apply modSnap_kept | apply Kept.foldl | rfl) | (intro _)
      | with_reducible apply Kept.ite | split | with_reducible refine Kept.mk' ?_ ?_ ?_ ?_

theorem snapSend_kept {s₀ s : State} (hK : Kept s₀ s) : Kept s₀ (snapSend s) := by
  unfold snapSend
  split
  · exact hK
  · next t e =>
    have h : Kept s₀ t := by
      split at e
      · cases e
      · exact signDone_kept hK e
    have h := endSign_kept2 h
    dsimp only
    split
    · exact Kept.ite (snapPresent_kept (ramWrite_kept (fbInt_kept (modSnap_kept h)))) (fbInt_kept (modSnap_kept h))
    · refine fbInt_kept (modSnap_kept (Kept.foldl h fun q x hq => ?_))
      exact originate_kept (takeEseq_kept2 hq)

theorem snaprecRx_kept {s₀ : State} {f : Flue} {fr : FabFrame} {s : State} (hK : Kept s₀ s) : Kept s₀ (snaprecRx s
    f fr) := by
  unfold snaprecRx
  repeat' first
      | (with_reducible first
          | assumption | apply modSnap_kept | apply ramWrite_kept | apply fabRx_kept | apply snapPresent_kept
          | apply Kept.foldl | rfl)
      | (intro _) | with_reducible apply Kept.ite | split | with_reducible refine Kept.mk' ?_ ?_ ?_ ?_

theorem collectEnd_kept {s₀ s : State} (hK : Kept s₀ s) : Kept s₀ (collectEnd s) := by
  unfold collectEnd
  repeat' first
      | (with_reducible first
          | assumption | apply modSnap_kept | apply reachTime_kept | apply startSign_kept | apply Kept.foldl | rfl)
      | (intro _) | with_reducible apply Kept.ite | split | with_reducible refine Kept.mk' ?_ ?_ ?_ ?_

theorem quoteReady_kept {s₀ s : State} (hK : Kept s₀ s) : Kept s₀ (quoteReady s) := by
  unfold quoteReady
  split
  · exact hK
  · next t e =>
    have h : Kept s₀ t := by
      split at e
      · exact signDone_kept hK e
      · cases e
    have h := endSign_kept2 h
    exact fbInt_kept (modSnap_kept (Kept.ite (ramWrite_kept h) h))

end Sys2Proof.Machine
end

