-- ==== Sys2Proof/Laws/Pair.lean ====
section
/-! SUPPORT. What each operation of Machine/Pair.lean keeps (`Kept`). -/

set_option linter.unusedTactic false
set_option linter.unreachableTactic false

namespace Sys2Proof.Machine

theorem pairLock_kept {s₀ s : State} (hK : Kept s₀ s) : Kept s₀ (pairLock s) := by
  unfold pairLock
  repeat' first
      | (with_reducible first | assumption | apply Kept.foldl | rfl) | (intro _) | with_reducible apply Kept.ite
      | split | with_reducible refine Kept.mk' ?_ ?_ ?_ ?_

theorem pairYield_kept {s₀ : State} {m : Master} {s : State} (hK : Kept s₀ s) : Kept s₀ (pairYield s m) := by
  unfold pairYield
  repeat' first
      | (with_reducible first | assumption | apply startYield_kept | apply Kept.foldl | rfl) | (intro _)
      | with_reducible apply Kept.ite | split | with_reducible refine Kept.mk' ?_ ?_ ?_ ?_

theorem pairMsgPop_kept {s₀ : State} {m : Master} {s : State} (hK : Kept s₀ s) : Kept s₀ (pairMsgPop s m) := by
  unfold pairMsgPop
  repeat' first
      | (with_reducible first | assumption | apply Kept.foldl | rfl) | (intro _) | with_reducible apply Kept.ite
      | split | with_reducible refine Kept.mk' ?_ ?_ ?_ ?_

theorem pairMsgSend_kept {s₀ : State} {m : Master} {s : State} (hK : Kept s₀ s) : Kept s₀ (pairMsgSend s m) := by
  unfold pairMsgSend
  repeat' first
      | (with_reducible first | assumption | apply useFree_kept | apply pairSend_kept | apply Kept.foldl | rfl)
      | (intro _) | with_reducible apply Kept.ite | split | with_reducible refine Kept.mk' ?_ ?_ ?_ ?_

theorem putStream_kept {s₀ : State} {v : VStream} {s : State} (hK : Kept s₀ s) : Kept s₀ (putStream s v) := by
  unfold putStream
  repeat' first
      | (with_reducible first | assumption | apply Kept.foldl | rfl) | (intro _) | with_reducible apply Kept.ite
      | split | with_reducible refine Kept.mk' ?_ ?_ ?_ ?_

theorem verdictDiffers_kept {s₀ s : State} (hK : Kept s₀ s) : Kept s₀ (verdictDiffers s) := by
  unfold verdictDiffers
  repeat' first
      | (with_reducible first | assumption | apply startYield_kept | apply prInt_kept | apply Kept.foldl | rfl)
      | (intro _) | with_reducible apply Kept.ite | split | with_reducible refine Kept.mk' ?_ ?_ ?_ ?_

theorem verdictRun_kept {s₀ : State} {a1 : Nat} {a2 : State} (hK : Kept s₀ a2) : Kept s₀ (verdictRun a1 a2) := by
  induction a1 generalizing a2 with
  | zero =>
    unfold verdictRun
    repeat' first
        | (with_reducible first | assumption | apply verdictDiffers_kept | apply Kept.foldl | rfl) | (intro _)
        | with_reducible apply Kept.ite | split | with_reducible refine Kept.mk' ?_ ?_ ?_ ?_
  | succ _ ih =>
    unfold verdictRun
    repeat' first
        | with_reducible apply ih | (with_reducible first
            | assumption | apply verdictDiffers_kept | apply Kept.foldl | rfl)
        | (intro _) | with_reducible apply Kept.ite | split | with_reducible refine Kept.mk' ?_ ?_ ?_ ?_

theorem compareStream_kept {s₀ : State} {v : VStream} {s : State} (hK : Kept s₀ s) : Kept s₀ (compareStream s v) := by
  unfold compareStream
  repeat' first
      | (with_reducible first | assumption | apply putStream_kept | apply verdictRun_kept | apply Kept.foldl | rfl)
      | (intro _) | with_reducible apply Kept.ite | split | with_reducible refine Kept.mk' ?_ ?_ ?_ ?_

theorem pumpBlocks_kept {s₀ s : State} (hK : Kept s₀ s) : Kept s₀ (pumpBlocks s) := by
  unfold pumpBlocks
  repeat' first
      | (with_reducible first | assumption | apply compareStream_kept | apply pairSend_kept | apply Kept.foldl | rfl)
      | (intro _) | with_reducible apply Kept.ite | split | with_reducible refine Kept.mk' ?_ ?_ ?_ ?_

theorem applyAdapts_kept {s₀ s : State} (hK : Kept s₀ s) : Kept s₀ (applyAdapts s) := by
  unfold applyAdapts
  repeat' first
      | (with_reducible first | assumption | apply modCh_kept | apply Kept.foldl | rfl) | (intro _)
      | with_reducible apply Kept.ite | split | with_reducible refine Kept.mk' ?_ ?_ ?_ ?_

theorem takeRole_kept {s₀ : State} {r : Nat} {s : State} (hK : Kept s₀ s) : Kept s₀ (takeRole s r) := by
  unfold takeRole
  repeat' first
      | (with_reducible first | assumption | apply prInt_kept | apply Kept.foldl | rfl) | (intro _)
      | with_reducible apply Kept.ite | split | with_reducible refine Kept.mk' ?_ ?_ ?_ ?_

theorem roleTimer_kept {s₀ s : State} (hK : Kept s₀ s) : Kept s₀ (roleTimer s) := by
  unfold roleTimer
  repeat' first
      | (with_reducible first
          | assumption | apply reachTime_kept | apply restartPmb_kept | apply takeRole_kept | apply Kept.foldl | rfl)
      | (intro _) | with_reducible apply Kept.ite | split | with_reducible refine Kept.mk' ?_ ?_ ?_ ?_

theorem holdHosted_kept {s₀ s : State} (hK : Kept s₀ s) : Kept s₀ (holdHosted s) := by
  unfold holdHosted
  repeat' first
      | (with_reducible first | assumption | apply regate_kept | apply Kept.foldl | rfl) | (intro _)
      | with_reducible apply Kept.ite | split | with_reducible refine Kept.mk' ?_ ?_ ?_ ?_

theorem tryInStep_kept {s₀ s : State} (hK : Kept s₀ s) : Kept s₀ (tryInStep s) := by
  unfold tryInStep
  repeat' first
      | (with_reducible first | assumption | apply prInt_kept | apply Kept.foldl | rfl) | (intro _)
      | with_reducible apply Kept.ite | split | with_reducible refine Kept.mk' ?_ ?_ ?_ ?_

theorem pairHello_kept {s₀ : State} {h : PairHello} {s : State} (hK : Kept s₀ s) : Kept s₀ (pairHello s h) := by
  unfold pairHello
  repeat' first
      | (with_reducible first
          | assumption | apply tryInStep_kept | apply holdHosted_kept | apply diagFail_kept | apply Kept.foldl | rfl)
      | (intro _) | with_reducible apply Kept.ite | split | with_reducible refine Kept.mk' ?_ ?_ ?_ ?_

theorem leaseTimer_kept {s₀ s : State} (hK : Kept s₀ s) : Kept s₀ (leaseTimer s) := by
  unfold leaseTimer
  repeat' first
      | (with_reducible first | assumption | apply reachTime_kept | apply pairSend_kept | apply Kept.foldl | rfl)
      | (intro _) | with_reducible apply Kept.ite | split | with_reducible refine Kept.mk' ?_ ?_ ?_ ?_

theorem leaseHeard_kept {s₀ : State} {edge : Bool} {s : State} (hK : Kept s₀ s) : Kept s₀ (leaseHeard s edge) := by
  unfold leaseHeard
  repeat' first
      | (with_reducible first | assumption | apply Kept.foldl | rfl) | (intro _) | with_reducible apply Kept.ite
      | split | with_reducible refine Kept.mk' ?_ ?_ ?_ ?_

theorem yieldPort_kept {s₀ : State} {c : Ch} {s : State} (hK : Kept s₀ s) : Kept s₀ (yieldPort s c) := by
  unfold yieldPort
  repeat' first
      | (with_reducible first | assumption | apply cutPort_kept | apply modRaw_kept | apply Kept.foldl | rfl)
      | (intro _) | with_reducible apply Kept.ite | split | with_reducible refine Kept.mk' ?_ ?_ ?_ ?_

theorem leaseRx_kept {s₀ : State} {no : Option Word} {s : State} (hK : Kept s₀ s) : Kept s₀ (leaseRx s no) := by
  unfold leaseRx
  repeat' first
      | (with_reducible first
          | assumption | apply leaseHeard_kept | apply takeRole_kept | apply yieldPort_kept | apply prInt_kept
          | apply pairSend_kept | apply Kept.foldl | rfl)
      | (intro _) | with_reducible apply Kept.ite | split | with_reducible refine Kept.mk' ?_ ?_ ?_ ?_

theorem lackRx_kept {s₀ : State} {edge : Bool} {s : State} (hK : Kept s₀ s) : Kept s₀ (lackRx s edge) := by
  unfold lackRx
  repeat' first
      | (with_reducible first | assumption | apply leaseHeard_kept | apply Kept.foldl | rfl) | (intro _)
      | with_reducible apply Kept.ite | split | with_reducible refine Kept.mk' ?_ ?_ ?_ ?_

theorem lackLoss_kept {s₀ s : State} (hK : Kept s₀ s) : Kept s₀ (lackLoss s) := by
  unfold lackLoss
  repeat' first
      | (with_reducible first | assumption | apply reachTime_kept | apply Kept.foldl | rfl) | (intro _)
      | with_reducible apply Kept.ite | split | with_reducible refine Kept.mk' ?_ ?_ ?_ ?_

theorem leaseExpiry_kept {s₀ : State} {busy : BitVec 32} {s : State} (hK : Kept s₀ s) : Kept s₀ (leaseExpiry s
    busy) := by
  unfold leaseExpiry
  repeat' first
      | (with_reducible first
          | assumption | apply escalate_kept | apply cutPort_kept | apply reachTime_kept | apply restartPmb_kept
          | apply takeRole_kept | apply Kept.foldl | rfl)
      | (intro _) | with_reducible apply Kept.ite | split | with_reducible refine Kept.mk' ?_ ?_ ?_ ?_

theorem handover_kept {s₀ : State} {busy : BitVec 32} {s : State} (hK : Kept s₀ s) : Kept s₀ (handover s busy) := by
  unfold handover
  repeat' first
      | (with_reducible first
          | assumption | apply reachTime_kept | apply restartPmb_kept | apply takeRole_kept | apply yieldPort_kept
          | apply prInt_kept | apply Kept.foldl | rfl)
      | (intro _) | with_reducible apply Kept.ite | split | with_reducible refine Kept.mk' ?_ ?_ ?_ ?_

theorem claim_kept {s₀ s : State} (hK : Kept s₀ s) : Kept s₀ (claim s) := by
  unfold claim
  repeat' first
      | (with_reducible first | assumption | apply startYield_kept | apply pairSend_kept | apply Kept.foldl | rfl)
      | (intro _) | with_reducible apply Kept.ite | split | with_reducible refine Kept.mk' ?_ ?_ ?_ ?_

theorem vblockRx_kept {s₀ : State} {b : VerdictBlock} {s : State} (hK : Kept s₀ s) : Kept s₀ (vblockRx s b) := by
  unfold vblockRx
  repeat' first
      | (with_reducible first | assumption | apply compareStream_kept | apply Kept.foldl | rfl) | (intro _)
      | with_reducible apply Kept.ite | split | with_reducible refine Kept.mk' ?_ ?_ ?_ ?_

theorem noticeRx_kept {s₀ : State} {n : PairNotice} {s : State} (hK : Kept s₀ s) : Kept s₀ (noticeRx s n) := by
  unfold noticeRx
  repeat' first
      | (with_reducible first
          | assumption | apply sendCopies_kept | apply applyAdapts_kept | apply noticeStep_kept | apply Kept.foldl
          | rfl)
      | (intro _) | with_reducible apply Kept.ite | split | with_reducible refine Kept.mk' ?_ ?_ ?_ ?_

theorem applyState_kept {s₀ : State} {a1 : PairState} {s : State} (hK : Kept s₀ s) : Kept s₀ (applyState s a1) := by
  unfold applyState
  repeat' first
      | (with_reducible first
          | assumption | apply modCh_kept | apply modStep_kept | apply setBset_kept | apply modBox_kept
          | apply Kept.foldl | rfl)
      | (intro _) | with_reducible apply Kept.ite | split | with_reducible refine Kept.mk' ?_ ?_ ?_ ?_

theorem stateRx_kept {s₀ : State} {r : PairState} {s : State} (hK : Kept s₀ s) : Kept s₀ (stateRx s r) := by
  unfold stateRx
  repeat' first
      | (with_reducible first
          | assumption | apply tryInStep_kept | apply regate_kept | apply applyState_kept | apply Kept.foldl | rfl)
      | (intro _) | with_reducible apply Kept.ite | split | with_reducible refine Kept.mk' ?_ ?_ ?_ ?_

theorem catchUp_kept {s₀ s : State} (hK : Kept s₀ s) : Kept s₀ (catchUp s) := by
  unfold catchUp
  repeat' first
      | (with_reducible first | assumption | apply tryInStep_kept | apply draw_kept2)
      | refine draw_kept ?_ (by with_reducible assumption)
      | (with_reducible first | apply retire_kept | apply pairSend_kept | apply Kept.foldl | rfl) | (intro _)
      | with_reducible apply Kept.ite | split | with_reducible refine Kept.mk' ?_ ?_ ?_ ?_

theorem pairMsgRx_kept {s₀ : State} {ws : List Word} {s : State} (hK : Kept s₀ s) : Kept s₀ (pairMsgRx s ws) := by
  unfold pairMsgRx
  repeat' first
      | (with_reducible first | assumption | apply prInt_kept | apply Kept.foldl | rfl) | (intro _)
      | with_reducible apply Kept.ite | split | with_reducible refine Kept.mk' ?_ ?_ ?_ ?_

theorem diagRx_kept {s₀ : State} {d : PairDiag} {s : State} (hK : Kept s₀ s) : Kept s₀ (diagRx s d) := by
  unfold diagRx
  repeat' first
      | (with_reducible first | assumption | apply startYield_kept | apply prInt_kept | apply Kept.foldl | rfl)
      | (intro _) | with_reducible apply Kept.ite | split | with_reducible refine Kept.mk' ?_ ?_ ?_ ?_

theorem pairTimer_kept {s₀ s : State} (hK : Kept s₀ s) : Kept s₀ (pairTimer s) := by
  unfold pairTimer
  repeat' first
      | (with_reducible first | assumption | apply pairSend_kept | apply Kept.foldl | rfl) | (intro _)
      | with_reducible apply Kept.ite | split | with_reducible refine Kept.mk' ?_ ?_ ?_ ?_

end Sys2Proof.Machine
end

