-- ==== Sys2Proof/Laws/OwnStore.lean ====
section
/-! SUPPORT. What each operation of Machine/OwnStore.lean keeps (`Kept`). -/

set_option linter.unusedTactic false
set_option linter.unreachableTactic false

namespace Sys2Proof.Machine

theorem osKick_kept {s₀ s : State} (hK : Kept s₀ s) : Kept s₀ (osKick s) := by
  unfold osKick
  repeat' first
      | (with_reducible first | assumption | apply Kept.foldl | rfl) | (intro _) | with_reducible apply Kept.ite
      | split | with_reducible refine Kept.mk' ?_ ?_ ?_ ?_

theorem osEnq_kept {s₀ : State} {id q cost : Nat} {s : State} (hK : Kept s₀ s) : Kept s₀ (osEnq s id q cost) := by
  unfold osEnq
  repeat' first
      | (with_reducible first | assumption | apply osKick_kept | apply Kept.foldl | rfl) | (intro _)
      | with_reducible apply Kept.ite | split | with_reducible refine Kept.mk' ?_ ?_ ?_ ?_

theorem osGo_kept {s₀ : State} {m : Master} {op : Nat} {s : State} (hK : Kept s₀ s) : Kept s₀ (osGo s m op) := by
  unfold osGo
  repeat' first
      | (with_reducible first | assumption | apply osEnq_kept | apply Kept.foldl | rfl) | (intro _)
      | with_reducible apply Kept.ite | split | with_reducible refine Kept.mk' ?_ ?_ ?_ ?_

theorem osDequeue_kept {s₀ : State} {id : Nat} {s : State} (hK : Kept s₀ s) : Kept s₀ (osDequeue s id) := by
  unfold osDequeue
  repeat' first
      | (with_reducible first | assumption | apply osCut_kept | apply osKick_kept | apply Kept.foldl | rfl)
      | (intro _) | with_reducible apply Kept.ite | split | with_reducible refine Kept.mk' ?_ ?_ ?_ ?_

theorem osAsk_kept {s₀ : State} {id q cost : Nat} {s : State} (hK : Kept s₀ s) : Kept s₀ (osAsk s id q cost) := by
  unfold osAsk
  repeat' first
      | (with_reducible first | assumption | apply osEnq_kept | apply Kept.foldl | rfl) | (intro _)
      | with_reducible apply Kept.ite | split | with_reducible refine Kept.mk' ?_ ?_ ?_ ?_

theorem osGrant_kept {s₀ : State} {id : Nat} {s t : State} (hK : Kept s₀ s) (e : osGrant s id = some t) : Kept s₀
    t := by
  unfold osGrant at e
  dsimp only at e
  repeat' split at e
  all_goals first
    | exact Option.some.inj e ▸ hK
    | exact Option.some.inj e ▸ osKick_kept hK
    | cases e

theorem eraseIssue_kept {s₀ s : State} (hK : Kept s₀ s) : Kept s₀ (eraseIssue s) := by
  unfold eraseIssue
  repeat' first
      | (with_reducible first | assumption | apply wdSuspend_kept)
      | refine osGrant_kept ?_ (by with_reducible assumption) | (with_reducible first | apply Kept.foldl | rfl)
      | (intro _) | with_reducible apply Kept.ite | split | with_reducible refine Kept.mk' ?_ ?_ ?_ ?_

theorem osDone_kept {s₀ : State} {err : BitVec 3} {s : State} (hK : Kept s₀ s) : Kept s₀ (osDone s err) := by
  unfold osDone
  repeat' first
      | (with_reducible first | assumption | apply osDequeue_kept | apply wdResume_kept | apply Kept.foldl | rfl)
      | (intro _) | with_reducible apply Kept.ite | split | with_reducible refine Kept.mk' ?_ ?_ ?_ ?_

theorem osEnd_kept {s₀ : State} {failed : Bool} {s : State} (hK : Kept s₀ s) : Kept s₀ (osEnd s failed) := by
  unfold osEnd
  split
  · exact hK
  · split
    · split
      · exact hK
      · next e =>
        have h := osGrant_kept hK e
        split
        · exact useFree_kept (osDone_kept
            (h.trans ⟨rfl, fun w => ⟨w, fun _ => BitVec.and_self⟩, Nat.le_refl _, Nat.le_refl _, id, memWrite_wf _
                _, id⟩))
        · exact osDone_kept (osProg_kept h)
    · split
      · exact hK
      · split
        · exact osDone_kept (osTorn_kept hK)
        · exact osDone_kept (osErase_kept hK)

theorem eraseMaxExpiry_kept {s₀ s : State} (hK : Kept s₀ s) : Kept s₀ (eraseMaxExpiry s) := by
  unfold eraseMaxExpiry
  repeat' first
      | (with_reducible first
          | assumption | apply osDone_kept | apply reachTime_kept | apply osTorn_kept | apply Kept.foldl | rfl)
      | (intro _) | with_reducible apply Kept.ite | split | with_reducible refine Kept.mk' ?_ ?_ ?_ ?_

end Sys2Proof.Machine
end

