-- ==== Sys2Proof/Laws/FlashOps.lean ====
section
/-! SUPPORT. What each operation of Machine/FlashOps.lean keeps (`Kept`). -/

set_option linter.unusedTactic false
set_option linter.unreachableTactic false

namespace Sys2Proof.Machine

theorem ownReqAt_kept {s₀ : State} {c : Ch} {v : Bool} {s : State} (hK : Kept s₀ s) : Kept s₀ (ownReqAt s c v) := by
  unfold ownReqAt
  repeat' first
      | (with_reducible first
          | assumption | apply squash_kept | apply modRaw_kept | apply settleAll_kept | apply abandonSlot_kept
          | apply Kept.foldl | rfl)
      | (intro _) | with_reducible apply Kept.ite | split | with_reducible refine Kept.mk' ?_ ?_ ?_ ?_

theorem rawStartAt_kept {s₀ : State} {c : Ch} {s : State} (hK : Kept s₀ s) : Kept s₀ (rawStartAt s c) := by
  unfold rawStartAt
  repeat' first
      | (with_reducible first | assumption | apply modRaw_kept | apply Kept.foldl | rfl) | (intro _)
      | with_reducible apply Kept.ite | split | with_reducible refine Kept.mk' ?_ ?_ ?_ ?_

theorem rawAbortAt_kept {s₀ : State} {c : Ch} {edges : Nat} {bits : List Bool} {s : State} (hK : Kept s₀ s) : Kept
    s₀ (rawAbortAt s c edges bits) := by
  unfold rawAbortAt
  repeat' first
      | (with_reducible first | assumption | apply modRaw_kept | apply Kept.foldl | rfl) | (intro _)
      | with_reducible apply Kept.ite | split | with_reducible refine Kept.mk' ?_ ?_ ?_ ?_

theorem writeDraw_kept {s₀ : State} {c : Ch} {s : State} (hK : Kept s₀ s) : Kept s₀ (writeDraw s c) := by
  unfold writeDraw
  repeat' first
      | (with_reducible first | assumption | apply modCh_kept | apply portEnq_kept | apply draw_kept2)
      | refine draw_kept ?_ (by with_reducible assumption) | (with_reducible first | apply Kept.foldl | rfl)
      | (intro _) | with_reducible apply Kept.ite | split | with_reducible refine Kept.mk' ?_ ?_ ?_ ?_

theorem portFree_kept {s₀ : State} {p : Ch} {s : State} (hK : Kept s₀ s) : Kept s₀ (portFree s p) := by
  unfold portFree
  repeat' first
      | (with_reducible first | assumption | apply modPort_kept | apply portStart_kept | apply Kept.foldl | rfl)
      | (intro _) | with_reducible apply Kept.ite | split | with_reducible refine Kept.mk' ?_ ?_ ?_ ?_

theorem statusPoll_kept {s₀ : State} {p : Ch} {status : Byte} {s : State} (hK : Kept s₀ s) : Kept s₀ (statusPoll s
    p status) := by
  unfold statusPoll
  repeat' first
      | (with_reducible first
          | assumption | apply modCh_kept | apply portFree_kept | apply pumpStage_kept | apply settleAll_kept
          | apply modPort_kept | apply retire_kept | apply Kept.foldl | rfl)
      | (intro _) | with_reducible apply Kept.ite | split | with_reducible refine Kept.mk' ?_ ?_ ?_ ?_

theorem frameFilled_kept {s₀ : State} {f : Nat} {data : List Byte} {s : State} (hK : Kept s₀ s) : Kept s₀
    (frameFilled s f data) := by
  unfold frameFilled
  repeat' first
      | (with_reducible first | assumption | apply setFrame_kept | apply Kept.foldl | rfl) | (intro _)
      | with_reducible apply Kept.ite | split | with_reducible refine Kept.mk' ?_ ?_ ?_ ?_

theorem fillComplete_kept {s₀ : State} {p : Ch} {data : List Byte} {s : State} (hK : Kept s₀ s) : Kept s₀
    (fillComplete s p data) := by
  unfold fillComplete
  repeat' first
      | (with_reducible first
          | assumption | apply settleAll_kept | apply reachTime_kept | apply setResume_kept | apply startCheck_kept
          | apply unitTake_kept | apply scrubTake_kept | apply slotTo_kept | apply setWork_kept | apply portFree_kept
          | apply frameFilled_kept | apply freeFrame_kept | apply retire_kept | apply Kept.foldl | rfl)
      | (intro _) | with_reducible apply Kept.ite | split | with_reducible refine Kept.mk' ?_ ?_ ?_ ?_

theorem writeExecute_kept {s₀ : State} {p : Ch} {s : State} (hK : Kept s₀ s) : Kept s₀ (writeExecute s p) := by
  unfold writeExecute
  repeat' first
      | (with_reducible first
          | assumption | apply modCh_kept | apply writeDraw_kept | apply portFree_kept | apply modPort_kept
          | apply Kept.foldl | rfl)
      | (intro _) | with_reducible apply Kept.ite | split | with_reducible refine Kept.mk' ?_ ?_ ?_ ?_

theorem rawGrant_kept {s₀ : State} {p : Ch} {s : State} (hK : Kept s₀ s) : Kept s₀ (rawGrant s p) := by
  unfold rawGrant
  repeat' first
      | (with_reducible first | assumption | apply modRaw_kept | apply Kept.foldl | rfl) | (intro _)
      | with_reducible apply Kept.ite | split | with_reducible refine Kept.mk' ?_ ?_ ?_ ?_

theorem rawEnd_kept {s₀ : State} {p : Ch} {bits : List Bool} {s : State} (hK : Kept s₀ s) : Kept s₀ (rawEnd s p
    bits) := by
  unfold rawEnd
  repeat' first
      | (with_reducible first | assumption | apply modRaw_kept | apply Kept.foldl | rfl) | (intro _)
      | with_reducible apply Kept.ite | split | with_reducible refine Kept.mk' ?_ ?_ ?_ ?_

end Sys2Proof.Machine
end

