-- ==== Sys2Proof/Laws/HostPort.lean ====
section
/-! SUPPORT. What each operation of Machine/HostPort.lean keeps (`Kept`). -/

set_option linter.unusedTactic false
set_option linter.unreachableTactic false

namespace Sys2Proof.Machine

theorem quiet_kept {s₀ : State} {c : Ch} {s : State} (hK : Kept s₀ s) : Kept s₀ (quiet s c) := by
  unfold quiet
  repeat' first
      | (with_reducible first | assumption | apply modCh_kept | apply Kept.foldl | rfl) | (intro _)
      | with_reducible apply Kept.ite | split | with_reducible refine Kept.mk' ?_ ?_ ?_ ?_

theorem hostRun_kept {s₀ : State} {c : Ch} {t : HostTxn} {cls : Nat} {f : State → Word → State} {s : State} (hK :
    Kept s₀ s) (hf : ∀ t x0, Kept s₀ t → Kept s₀ (f t x0)) : Kept s₀ (hostRun s c t cls f) := by
  unfold hostRun
  repeat' first
      | (with_reducible first | assumption) | apply hf
      | (with_reducible first
          | apply modCh_kept | apply cutPort_kept | apply pumpBlocks_kept | apply settle_kept | apply Kept.foldl
          | rfl)
      | (intro _) | with_reducible apply Kept.ite | split | with_reducible refine Kept.mk' ?_ ?_ ?_ ?_

theorem uncut_kept {s₀ : State} {c : Ch} {s : State} (hK : Kept s₀ s) : Kept s₀ (uncut s c) := by
  unfold uncut
  repeat' first
      | (with_reducible first | assumption | apply Kept.foldl | rfl) | (intro _) | with_reducible apply Kept.ite
      | split | with_reducible refine Kept.mk' ?_ ?_ ?_ ?_

theorem hostTxn_kept {s₀ : State} {c : Ch} {t : HostTxn} {cls : Nat} {f : State → Word → State} {s : State} (hK :
    Kept s₀ s) (hf : ∀ t x0, Kept s₀ t → Kept s₀ (f t x0)) : Kept s₀ (hostTxn s c t cls f) := by
  unfold hostTxn
  repeat' first
      | (with_reducible first | assumption) | apply hf
      | (with_reducible first | apply uncut_kept | apply quiet_kept | apply hostRun_kept | apply Kept.foldl | rfl)
      | (intro _) | with_reducible apply Kept.ite | split | with_reducible refine Kept.mk' ?_ ?_ ?_ ?_

theorem evCount_kept {s₀ : State} {c : Ch} {n : Nat} {s : State} (hK : Kept s₀ s) : Kept s₀ (evCount s c n) := by
  unfold evCount
  repeat' first
      | (with_reducible first | assumption | apply modCh_kept | apply Kept.foldl | rfl) | (intro _)
      | with_reducible apply Kept.ite | split | with_reducible refine Kept.mk' ?_ ?_ ?_ ?_

theorem grVerdict_kept {s₀ : State} {c : Ch} {v : Nat} {s : State} (hK : Kept s₀ s) : Kept s₀ (grVerdict s c v) := by
  unfold grVerdict
  repeat' first
      | (with_reducible first | assumption | apply foldVerdict_kept | apply Kept.foldl | rfl) | (intro _)
      | with_reducible apply Kept.ite | split | with_reducible refine Kept.mk' ?_ ?_ ?_ ?_

theorem hostServe_kept {s₀ : State} {c : Ch} {bs : List Byte} {s : State} (hK : Kept s₀ s) : Kept s₀ (hostServe s
    c bs) := by
  unfold hostServe
  repeat' first
      | (with_reducible first | assumption | apply modCh_kept | apply Kept.foldl | rfl) | (intro _)
      | with_reducible apply Kept.ite | split | with_reducible refine Kept.mk' ?_ ?_ ?_ ?_

theorem overDrop_kept {s₀ : State} {c : Ch} {t : HostTxn} {desc addr : Nat} {s : State} (hK : Kept s₀ s) : Kept s₀
    (overDrop s c t desc addr) := by
  unfold overDrop
  repeat' first
      | (with_reducible first
          | assumption | apply evCount_kept | apply grRecord_kept | apply useFree_kept | apply Kept.foldl | rfl)
      | (intro _) | with_reducible apply Kept.ite | split | with_reducible refine Kept.mk' ?_ ?_ ?_ ?_

theorem cntDeny_kept {s₀ : State} {c : Ch} {s : State} (hK : Kept s₀ s) : Kept s₀ (cntDeny s c) := by
  unfold cntDeny
  repeat' first
      | (with_reducible first | assumption | apply modCh_kept | apply Kept.foldl | rfl) | (intro _)
      | with_reducible apply Kept.ite | split | with_reducible refine Kept.mk' ?_ ?_ ?_ ?_

theorem plainRecord_kept {s₀ : State} {c : Ch} {t : HostTxn} {e : Word} {kind units verdict : Nat} {s : State} (hK
    : Kept s₀ s) : Kept s₀ (plainRecord s c t e kind units verdict) := by
  unfold plainRecord
  repeat' first
      | (with_reducible first | assumption | apply grRecord_kept | apply Kept.foldl | rfl) | (intro _)
      | with_reducible apply Kept.ite | split | with_reducible refine Kept.mk' ?_ ?_ ?_ ?_

theorem cmdTxn_kept {s₀ : State} {c : Ch} {t : HostTxn} {cls : Nat} {complete : Bool} {f : Word → Chan → Chan} {s
    : State} (hK : Kept s₀ s) : Kept s₀ (cmdTxn s c t cls complete f) := by
  unfold cmdTxn
  repeat' first
      | (with_reducible first
          | assumption | apply modCh_kept | apply escalate_kept | apply grVerdict_kept | apply evCount_kept
          | apply plainRecord_kept | apply cntDeny_kept | apply hostTxn_kept | apply overDrop_kept | apply Kept.foldl
          | rfl)
      | (intro _) | with_reducible apply Kept.ite | split | with_reducible refine Kept.mk' ?_ ?_ ?_ ?_

theorem hostWren_kept {s₀ : State} {c : Ch} {t : HostTxn} {s : State} (hK : Kept s₀ s) : Kept s₀ (hostWren s c t) := by
  unfold hostWren
  repeat' first
      | (with_reducible first | assumption | apply cmdTxn_kept | apply Kept.foldl | rfl) | (intro _)
      | with_reducible apply Kept.ite | split | with_reducible refine Kept.mk' ?_ ?_ ?_ ?_

theorem hostWrdi_kept {s₀ : State} {c : Ch} {t : HostTxn} {s : State} (hK : Kept s₀ s) : Kept s₀ (hostWrdi s c t) := by
  unfold hostWrdi
  repeat' first
      | (with_reducible first | assumption | apply cmdTxn_kept | apply Kept.foldl | rfl) | (intro _)
      | with_reducible apply Kept.ite | split | with_reducible refine Kept.mk' ?_ ?_ ?_ ?_

theorem dataTxn_kept {s₀ : State} {c : Ch} {t : HostTxn} {cls : Nat} {serve : State → Word → Nat → State × List
    Byte} {s : State}
    (hK : Kept s₀ s) (hserve : ∀ t x0 x1, Kept s₀ t → Kept s₀ (serve t x0 x1).1) : Kept s₀ (dataTxn s c t cls
        serve) := by
  unfold dataTxn
  refine hostTxn_kept hK fun u e hu => ?_
  extract_lets k
  split
  · exact overDrop_kept hu
  · split
    · exact plainRecord_kept (hostServe_kept (cntDeny_kept (grVerdict_kept hu)))
    · exact plainRecord_kept (hostServe_kept (escalate_kept (cntDeny_kept (grVerdict_kept hu))))
    · exact plainRecord_kept (hostServe_kept (hserve _ _ _ (grVerdict_kept hu)))

theorem pollDuring_kept {s₀ : State} {c : Ch} {status : Byte} {s : State} (hK : Kept s₀ s) : Kept s₀ (pollDuring s
    c status) := by
  unfold pollDuring
  repeat' first
      | (with_reducible first | assumption | apply portGrant_kept | apply statusPoll_kept | apply Kept.foldl | rfl)
      | (intro _) | with_reducible apply Kept.ite | split | with_reducible refine Kept.mk' ?_ ?_ ?_ ?_

theorem rdsrUnits_kept2 {s₀ : State} {c : Ch} {t : HostTxn} {n i : Nat} {s : State} (hK : Kept s₀ s) :
    Kept s₀ (rdsrUnits c t n i s).1 := by
  induction n generalizing i s with
  | zero => exact hK
  | succ n ih => exact ih (Kept.foldl hK fun u x hu => pollDuring_kept hu)

theorem hostRdsr_kept {s₀ : State} {c : Ch} {t : HostTxn} {s : State} (hK : Kept s₀ s) : Kept s₀ (hostRdsr s c t) := by
  unfold hostRdsr
  exact dataTxn_kept hK fun u _ _ hu => rdsrUnits_kept2 hu

theorem hostRdreg_kept {s₀ : State} {c : Ch} {t : HostTxn} {s : State} (hK : Kept s₀ s) : Kept s₀ (hostRdreg s c
    t) := by
  unfold hostRdreg
  repeat' first
      | (with_reducible first | assumption | apply dataTxn_kept | apply Kept.foldl | rfl) | (intro _)
      | with_reducible apply Kept.ite | split | with_reducible refine Kept.mk' ?_ ?_ ?_ ?_

theorem hostWrreg_kept {s₀ : State} {c : Ch} {t : HostTxn} {s : State} (hK : Kept s₀ s) : Kept s₀ (hostWrreg s c
    t) := by
  unfold hostWrreg
  repeat' first
      | (with_reducible first | assumption | apply cmdTxn_kept | apply Kept.foldl | rfl) | (intro _)
      | with_reducible apply Kept.ite | split | with_reducible refine Kept.mk' ?_ ?_ ?_ ?_

theorem hostSfdp_kept {s₀ : State} {c : Ch} {t : HostTxn} {s : State} (hK : Kept s₀ s) : Kept s₀ (hostSfdp s c t) := by
  unfold hostSfdp
  repeat' first
      | (with_reducible first | assumption | apply dataTxn_kept | apply Kept.foldl | rfl) | (intro _)
      | with_reducible apply Kept.ite | split | with_reducible refine Kept.mk' ?_ ?_ ?_ ?_

theorem hostReadId_kept {s₀ : State} {c : Ch} {t : HostTxn} {s : State} (hK : Kept s₀ s) : Kept s₀ (hostReadId s c
    t) := by
  unfold hostReadId
  repeat' first
      | (with_reducible first | assumption | apply dataTxn_kept | apply Kept.foldl | rfl) | (intro _)
      | with_reducible apply Kept.ite | split | with_reducible refine Kept.mk' ?_ ?_ ?_ ?_

theorem hostAddr4_kept {s₀ : State} {c : Ch} {t : HostTxn} {on : Bool} {s : State} (hK : Kept s₀ s) : Kept s₀
    (hostAddr4 s c t on) := by
  unfold hostAddr4
  repeat' first
      | (with_reducible first | assumption | apply cmdTxn_kept | apply Kept.foldl | rfl) | (intro _)
      | with_reducible apply Kept.ite | split | with_reducible refine Kept.mk' ?_ ?_ ?_ ?_

theorem hostProto_kept {s₀ : State} {c : Ch} {t : HostTxn} {s : State} (hK : Kept s₀ s) : Kept s₀ (hostProto s c
    t) := by
  unfold hostProto
  repeat' first
      | (with_reducible first | assumption | apply cmdTxn_kept | apply Kept.foldl | rfl) | (intro _)
      | with_reducible apply Kept.ite | split | with_reducible refine Kept.mk' ?_ ?_ ?_ ?_

theorem hostResetEn_kept {s₀ : State} {c : Ch} {t : HostTxn} {s : State} (hK : Kept s₀ s) : Kept s₀ (hostResetEn s
    c t) := by
  unfold hostResetEn
  repeat' first
      | (with_reducible first | assumption | apply cmdTxn_kept | apply Kept.foldl | rfl) | (intro _)
      | with_reducible apply Kept.ite | split | with_reducible refine Kept.mk' ?_ ?_ ?_ ?_

theorem hostReset_kept {s₀ : State} {c : Ch} {t : HostTxn} {s : State} (hK : Kept s₀ s) : Kept s₀ (hostReset s c
    t) := by
  unfold hostReset
  repeat' first
      | (with_reducible first | assumption | apply cmdTxn_kept | apply Kept.foldl | rfl) | (intro _)
      | with_reducible apply Kept.ite | split | with_reducible refine Kept.mk' ?_ ?_ ?_ ?_

theorem hostSuspend_kept {s₀ : State} {c : Ch} {t : HostTxn} {s : State} (hK : Kept s₀ s) : Kept s₀ (hostSuspend s
    c t) := by
  unfold hostSuspend
  repeat' first
      | (with_reducible first | assumption | apply cmdTxn_kept | apply Kept.foldl | rfl) | (intro _)
      | with_reducible apply Kept.ite | split | with_reducible refine Kept.mk' ?_ ?_ ?_ ?_

theorem hostResume_kept {s₀ : State} {c : Ch} {t : HostTxn} {s : State} (hK : Kept s₀ s) : Kept s₀ (hostResume s c
    t) := by
  unfold hostResume
  repeat' first
      | (with_reducible first | assumption | apply cmdTxn_kept | apply Kept.foldl | rfl) | (intro _)
      | with_reducible apply Kept.ite | split | with_reducible refine Kept.mk' ?_ ?_ ?_ ?_

theorem hostUnknown_kept {s₀ : State} {c : Ch} {t : HostTxn} {s : State} (hK : Kept s₀ s) : Kept s₀ (hostUnknown s
    c t) := by
  unfold hostUnknown
  repeat' first
      | (with_reducible first
          | assumption | apply grRecord_kept | apply escalate_kept | apply evCount_kept | apply grVerdict_kept
          | apply useFree_kept | apply hostTxn_kept | apply Kept.foldl | rfl)
      | (intro _) | with_reducible apply Kept.ite | split | with_reducible refine Kept.mk' ?_ ?_ ?_ ?_

theorem hostTrunc_kept {s₀ : State} {c : Ch} {at_ : TruncAt} {t : HostTxn} {s : State} (hK : Kept s₀ s) : Kept s₀
    (hostTrunc s c at_ t) := by
  unfold hostTrunc
  repeat' first
      | (with_reducible first
          | assumption | apply modCh_kept | apply cutPort_kept | apply uncut_kept | apply useFree_kept
          | apply evCount_kept | apply grRecord_kept | apply settle_kept | apply Kept.foldl | rfl)
      | (intro _) | with_reducible apply Kept.ite | split | with_reducible refine Kept.mk' ?_ ?_ ?_ ?_

end Sys2Proof.Machine
end

