-- ==== Sys2Proof/Laws/Grate.lean ====
section
/-! SUPPORT. What each operation of Machine/Grate.lean keeps (`Kept`). -/

set_option linter.unusedTactic false
set_option linter.unreachableTactic false

namespace Sys2Proof.Machine

theorem Kept.ite_st {s₀ : State} {c : Prop} [Decidable c] {a b : RdRun} (ha : Kept s₀ a.st) (hb : Kept s₀ b.st) :
    Kept s₀ (if c then a else b).st := by
  split
  · exact ha
  · exact hb

theorem rdCount_kept {s₀ : State} {x : RdCtx} {r : RdRun} {f : Chan → Chan}  (hK : Kept s₀ r.st) : Kept s₀
    (rdCount x r f).st := by
  unfold rdCount
  repeat' first
      | (with_reducible first | assumption | apply modCh_kept | apply Kept.foldl | rfl) | (intro _)
      | with_reducible apply Kept.ite | split | with_reducible refine Kept.mk' ?_ ?_ ?_ ?_

theorem rdDeny_kept {s₀ : State} {x : RdCtx} {r : RdRun} {n : Nat} {d : Option Rgn}  (hK : Kept s₀ r.st) : Kept s₀
    (rdDeny x r n d).st := by
  unfold rdDeny
  repeat' first
      | (with_reducible first | assumption | apply rdCount_kept | apply Kept.foldl | rfl) | (intro _)
      | with_reducible apply Kept.ite | split | with_reducible refine Kept.mk' ?_ ?_ ?_ ?_

theorem rdDenied_kept {s₀ : State} {x : RdCtx} {r : RdRun} {va n : Nat} (hK : Kept s₀ r.st) :
    Kept s₀ (rdDenied x r va n).st := by
  unfold rdDenied
  generalize List.range ((va % 4096 + n - 1) / 4096) = l
  induction l generalizing r with
  | nil => exact hK
  | cons y l ih => exact ih (grVerdict_kept hK)

theorem rdVerdict_kept {s₀ : State} {x : RdCtx} {r : RdRun} {desc v : Nat}  (hK : Kept s₀ r.st) : Kept s₀
    (rdVerdict x r desc v).st := by
  unfold rdVerdict
  repeat' first
      | (with_reducible first | assumption | apply grVerdict_kept | apply Kept.foldl | rfl) | (intro _)
      | with_reducible apply Kept.ite | split | with_reducible refine Kept.mk' ?_ ?_ ?_ ?_

theorem rdOpen_kept {s₀ : State} {x : RdCtx} {r : RdRun} {va n : Nat} {i : Fin 64} (hK : Kept s₀ r.st) :
    Kept s₀ (rdOpen x r va n i).st := by
  unfold rdOpen
  extract_lets d carried
  clear_value carried
  exact Kept.ite_st hK (rdDeny_kept hK)

theorem seqPrefetch_kept {s₀ : State} {c : Ch} {j : Fin 64} {v : Nat} {s : State} (hK : Kept s₀ s) : Kept s₀
    (seqPrefetch s c j v) := by
  unfold seqPrefetch
  repeat' first
      | (with_reducible first | assumption | apply issueFill_kept2)
      | refine issueFill_kept ?_ (by with_reducible assumption) | (with_reducible first | apply Kept.foldl | rfl)
      | (intro _) | with_reducible apply Kept.ite | split | with_reducible refine Kept.mk' ?_ ?_ ?_ ?_

theorem followFetch_kept {s₀ : State} {c : Ch} {v : Nat} {s : State} (hK : Kept s₀ s) : Kept s₀ (followFetch s c
    v) := by
  unfold followFetch
  repeat' first
      | (with_reducible first
          | assumption | apply modCh_kept | apply pumpFollow_kept | apply ecRecord_kept | apply Kept.foldl | rfl)
      | (intro _) | with_reducible apply Kept.ite | split | with_reducible refine Kept.mk' ?_ ?_ ?_ ?_

theorem recordFetch_kept {s₀ : State} {c : Ch} {v : Nat} {miss seqn : Bool} {s : State} (hK : Kept s₀ s) : Kept s₀
    (recordFetch s c v miss seqn) := by
  unfold recordFetch
  repeat' first
      | (with_reducible first | assumption | apply modCh_kept | apply endTrace_kept | apply Kept.foldl | rfl)
      | (intro _) | with_reducible apply Kept.ite | split | with_reducible refine Kept.mk' ?_ ?_ ?_ ?_

theorem fetch_kept {s₀ : State} {c : Ch} {j : Fin 64} {v : Nat} {miss seqn : Bool} {s : State} (hK : Kept s₀ s) :
    Kept s₀ (fetch s c j v miss seqn) := by
  unfold fetch
  repeat' first
      | (with_reducible first
          | assumption | apply recordFetch_kept | apply followFetch_kept | apply seqPrefetch_kept | apply Kept.foldl
          | rfl)
      | (intro _) | with_reducible apply Kept.ite | split | with_reducible refine Kept.mk' ?_ ?_ ?_ ?_

theorem strictLost_kept {s₀ : State} {id : EmberId} {s : State} (hK : Kept s₀ s) : Kept s₀ (strictLost s id) := by
  unfold strictLost
  repeat' first
      | (with_reducible first | assumption | apply setStrict_kept | apply Kept.foldl | rfl) | (intro _)
      | with_reducible apply Kept.ite | split | with_reducible refine Kept.mk' ?_ ?_ ?_ ?_

theorem frameParity_kept {s₀ : State} {f : Nat} {id : EmberId} {s : State} (hK : Kept s₀ s) : Kept s₀ (frameParity
    s f id) := by
  unfold frameParity
  repeat' first
      | (with_reducible first
          | assumption | apply strictLost_kept | apply freeFrame_kept | apply ecInt_kept | apply ecRecord_kept
          | apply parityCount_kept | apply issueFill_kept2)
      | refine issueFill_kept ?_ (by with_reducible assumption) | (with_reducible first | apply Kept.foldl | rfl)
      | (intro _) | with_reducible apply Kept.ite | split | with_reducible refine Kept.mk' ?_ ?_ ?_ ?_

theorem rdMissDeny_kept {s₀ : State} {x : RdCtx} {r : RdRun} {n : Nat} {i : Fin 64} {id : EmberId}  (hK : Kept s₀
    r.st) : Kept s₀ (rdMissDeny x r n i id).st := by
  unfold rdMissDeny
  repeat' first
      | (with_reducible first | assumption | apply rdDeny_kept | apply issueFill_kept2)
      | refine issueFill_kept ?_ (by with_reducible assumption) | (with_reducible first | apply Kept.foldl | rfl)
      | (intro _) | with_reducible apply Kept.ite | split | with_reducible refine Kept.mk' ?_ ?_ ?_ ?_

theorem provTry_kept {s₀ : State} {x : RdCtx} {r : RdRun} {id : EmberId} {i : Fin 64} {redir : Bool} {p0 : Nat}
    {p1 : Bool} {t : State}
    (hK : Kept s₀ r.st) (e : provTry x r id i redir = some (p0, p1, t)) : Kept s₀ t := by
  unfold provTry at e
  dsimp only at e
  repeat' split at e
  all_goals simp only [Option.map_eq_some_iff, Option.some.injEq, Prod.mk.injEq, Prod.exists, reduceCtorEq] at e
  · obtain ⟨_, _, rfl⟩ := e
    exact hK
  · obtain ⟨_, _, h, _, _, rfl⟩ := e
    exact joinSlot_kept hK h
  · obtain ⟨_, _, rfl⟩ := e
    exact openSlot_kept (issueFill_kept hK (by assumption))

theorem heat_kept {s₀ : State} {id : EmberId} {s : State} (hK : Kept s₀ s) : Kept s₀ (heat s id) := by
  unfold heat
  repeat' first
      | (with_reducible first | assumption | apply setBank_kept | apply Kept.foldl | rfl) | (intro _)
      | with_reducible apply Kept.ite | split | with_reducible refine Kept.mk' ?_ ?_ ?_ ?_

theorem rdEsc_kept {s₀ : State} {x : RdCtx} {r : RdRun} {n : Nat} {i : Fin 64}  (hK : Kept s₀ r.st) : Kept s₀
    (rdEsc x r n i).st := by
  unfold rdEsc
  repeat' first
      | (with_reducible first | assumption | apply escalate_kept | apply rdDeny_kept | apply Kept.foldl | rfl)
      | (intro _) | with_reducible apply Kept.ite | split | with_reducible refine Kept.mk' ?_ ?_ ?_ ?_

theorem rdMiss_kept {s₀ : State} {x : RdCtx} {r : RdRun} {va n : Nat} {i j : Fin 64} {id : EmberId} {redir : Bool}
    (hK : Kept s₀ r.st) :
    Kept s₀ (rdMiss x r va n i j id redir).st := by
  unfold rdMiss
  extract_lets d r1
  have h1 : Kept s₀ r1.st := rdCount_kept hK
  clear_value r1
  split
  · split
    · exact by
        have h2 := modCh_kept (c := x.c) (f := fun k => { k with cntLate := k.cntLate + 1 }) h1
        exact rdMissDeny_kept h2
    · split
      · exact rdCount_kept (heat_kept (provTry_kept h1 (by assumption)))
      · exact rdMissDeny_kept (rdCount_kept h1)
  · exact rdEsc_kept h1
  · exact rdMissDeny_kept h1

theorem frameServed_kept {s₀ : State} {f : Nat} {x : Frame} {s : State} (hK : Kept s₀ s) : Kept s₀ (frameServed s
    f x) := by
  unfold frameServed
  repeat' first
      | (with_reducible first
          | assumption | apply modCh_kept | apply setFrame_kept | apply touchFrame_kept | apply Kept.foldl | rfl)
      | (intro _) | with_reducible apply Kept.ite | split | with_reducible refine Kept.mk' ?_ ?_ ?_ ?_

theorem rdHit_kept {s₀ : State} {x : RdCtx} {r : RdRun} {va n : Nat} {j : Fin 64} {id : EmberId} {f : Nat} {fr : Frame}
    (hK : Kept s₀ r.st) : Kept s₀ (rdHit x r va n j id f fr).st := by
  unfold rdHit
  extract_lets r1 s1 pos keep
  have h1 : Kept s₀ r1.st := rdCount_kept hK
  have h2 : Kept s₀ s1 := heat_kept (frameServed_kept h1)
  clear_value keep pos s1 r1
  split
  · exact Kept.ite_st (frameParity_kept h2) h2
  · exact h2

theorem rdVerified_kept {s₀ : State} {x : RdCtx} {r : RdRun} {va n : Nat} {i j : Fin 64} {va' : Nat} {gold redir : Bool}
    (hK : Kept s₀ r.st) : Kept s₀ (rdVerified x r va n i j va' gold redir).st := by
  unfold rdVerified
  split
  · exact rdDeny_kept hK
  · extract_lets tagBad
    clear_value tagBad
    split
    · refine Kept.ite_st (rdMiss_kept (fetch_kept (frameParity_kept hK))) ?_
      exact Kept.ite (fetch_kept (rdHit_kept hK)) (rdHit_kept hK)
    · exact Kept.ite (fetch_kept (rdMiss_kept hK)) (rdMiss_kept hK)

theorem rdEmber_kept {s₀ : State} {x : RdCtx} {r : RdRun} {va n : Nat} (hK : Kept s₀ r.st) : Kept s₀ (rdEmber x r
    va n).st := by
  have key : ∀ (rd va' : Nat) (i : Fin 64) (d : Rgn), Kept s₀ (match rd with
      | 1 => if rgnOpen d then rdOpen x r va n i else rdVerified x r va n i i va false false
      | 3 => rdVerified x r va n i i va true false
      | 2 =>
        (match governing x.k (va' / 4096) with
        | some j => rdVerified x r va n i j va' false true
        | none => rdDeny x r n (some d))
      | 4 => rdEsc x r n i
      | _ => rdDeny x r n (some d)).st := by
    intro rd va' i d
    split
    · exact Kept.ite_st (rdOpen_kept hK) (rdVerified_kept hK)
    · exact rdVerified_kept hK
    · split
      · exact rdVerified_kept hK
      · exact rdDeny_kept hK
    · exact rdEsc_kept hK
    · exact rdDeny_kept hK
  unfold rdEmber
  split
  · exact grVerdict_kept hK
  · split
    · exact Kept.ite (useFree_kept hK) hK
    · split
      · exact rdVerdict_kept (rdDeny_kept hK)
      · exact rdVerdict_kept (key _ _ _ _)

theorem rdLoop_kept {s₀ : State} {x : RdCtx} {k : Nat} {r : RdRun} {va n : Nat} (hK : Kept s₀ r.st) :
    Kept s₀ (rdLoop x k r va n).st := by
  induction k generalizing r va n with
  | zero => exact hK
  | succ k ih => exact Kept.ite_st (rdEmber_kept hK) (ih (rdEmber_kept hK))

theorem rdRecord_kept {s₀ : State} {x : RdCtx} {op : Byte} {addr : Nat} {fast : Bool} {r : RdRun}  (hK : Kept s₀
    r.st) : Kept s₀ (rdRecord x op addr fast r) := by
  unfold rdRecord
  repeat' first
      | (with_reducible first | assumption | apply grRecord_kept | apply Kept.foldl | rfl) | (intro _)
      | with_reducible apply Kept.ite | split | with_reducible refine Kept.mk' ?_ ?_ ?_ ?_

theorem rdComplete_kept {s₀ : State} {c : Ch} {l : List (Nat × Nat)} {s : State} (hK : Kept s₀ s) : Kept s₀
    (rdComplete s c l) := by
  unfold rdComplete
  repeat' first
      | (with_reducible first
          | assumption | apply modPort_kept | apply setResume_kept | apply portStart_kept | apply portEnq_kept
          | apply slotTo_kept | apply Kept.foldl | rfl)
      | (intro _) | with_reducible apply Kept.ite | split | with_reducible refine Kept.mk' ?_ ?_ ?_ ?_

theorem hostRead_kept {s₀ : State} {c : Ch} {t : HostTxn} {s : State} (hK : Kept s₀ s) : Kept s₀ (hostRead s c t) := by
  unfold hostRead
  repeat' first
      | (with_reducible first
          | assumption | apply escalate_kept | apply hostServe_kept | apply rdDenied_kept | apply grAlert_kept
          | apply rdLoop_kept | apply evCount_kept | apply hostTxn_kept | apply rdDeny_kept | apply rdComplete_kept
          | apply rdRecord_kept | apply rdVerdict_kept | apply Kept.foldl | rfl)
      | (intro _) | with_reducible apply Kept.ite | split | with_reducible refine Kept.mk' ?_ ?_ ?_ ?_

theorem wrAccept_kept {s₀ : State} {k : Chan} {c : Ch} {va code : Nat} {kind : Nat → WriteKind} {s : State} (hK :
    Kept s₀ s) : Kept s₀ (wrAccept s k c va code kind) := by
  unfold wrAccept
  repeat' first
      | (with_reducible first
          | assumption | apply modCh_kept | apply markStaged_kept | apply writeDraw_kept | apply Kept.foldl | rfl)
      | (intro _) | with_reducible apply Kept.ite | split | with_reducible refine Kept.mk' ?_ ?_ ?_ ?_

theorem wrCommit_kept {s₀ : State} {k : Chan} {c : Ch} {t : HostTxn} {va : Nat} {v : WrVerdict} {log : Bool} {kind
    : Nat → WriteKind} {s : State} (hK : Kept s₀ s) : Kept s₀ (wrCommit s k c t va v log kind) := by
  unfold wrCommit
  repeat' first
      | (with_reducible first
          | assumption | apply modCh_kept | apply wrAccept_kept | apply cntDeny_kept | apply grRecord_kept
          | apply Kept.foldl | rfl)
      | (intro _) | with_reducible apply Kept.ite | split | with_reducible refine Kept.mk' ?_ ?_ ?_ ?_

theorem hostWrite_kept {s₀ : State} {c : Ch} {t : HostTxn} {cls : Nat} {complete : Chan → Bool} {kind : Chan →
    Word → Nat → WriteKind} {s : State} (hK : Kept s₀ s) : Kept s₀ (hostWrite s c t cls complete kind) := by
  unfold hostWrite
  repeat' first
      | (with_reducible first
          | assumption | apply modCh_kept | apply escalate_kept | apply cntDeny_kept | apply grAlert_kept
          | apply evCount_kept | apply wrCommit_kept | apply hostTxn_kept | apply grRecord_kept
          | apply grVerdict_kept | apply overDrop_kept | apply Kept.foldl | rfl)
      | (intro _) | with_reducible apply Kept.ite | split | with_reducible refine Kept.mk' ?_ ?_ ?_ ?_

theorem windowDrop_kept {s₀ : State} {c : Ch} {t : HostTxn} {va : Nat} {s : State} (hK : Kept s₀ s) : Kept s₀
    (windowDrop s c t va) := by
  unfold windowDrop
  repeat' first
      | (with_reducible first
          | assumption | apply evCount_kept | apply grRecord_kept | apply useFree_kept | apply Kept.foldl | rfl)
      | (intro _) | with_reducible apply Kept.ite | split | with_reducible refine Kept.mk' ?_ ?_ ?_ ?_

theorem windowLog_kept {s₀ : State} {c : Ch} {t : HostTxn} {e : Word} {va : Nat} {s : State} (hK : Kept s₀ s) :
    Kept s₀ (windowLog s c t e va) := by
  unfold windowLog
  repeat' first
      | (with_reducible first | assumption | apply grRecord_kept | apply useFree_kept | apply Kept.foldl | rfl)
      | (intro _) | with_reducible apply Kept.ite | split | with_reducible refine Kept.mk' ?_ ?_ ?_ ?_

theorem windowWrite_kept {s₀ : State} {n : Inst} {o : Nat} {d : List (Nat × Byte)} {s : State} (hK : Kept s₀ s) :
    Kept s₀ (windowWrite s n o d) := by
  unfold windowWrite
  repeat' first
      | (with_reducible first
          | assumption | apply modBox_kept | apply bulkWrite_kept | apply popOut_kept | apply xferSend_kept2)
      | refine xferSend_kept ?_ (by with_reducible assumption) | (with_reducible first | apply Kept.foldl | rfl)
      | (intro _) | with_reducible apply Kept.ite | split | with_reducible refine Kept.mk' ?_ ?_ ?_ ?_

theorem hostProgram_kept {s₀ : State} {c : Ch} {t : HostTxn} {s : State} (hK : Kept s₀ s) : Kept s₀ (hostProgram s
    c t) := by
  unfold hostProgram
  repeat' first
      | (with_reducible first
          | assumption | apply modCh_kept | apply windowLog_kept | apply hostWrite_kept | apply windowDrop_kept
          | apply hostTxn_kept | apply windowWrite_kept | apply overDrop_kept | apply Kept.foldl | rfl)
      | (intro _) | with_reducible apply Kept.ite | split | with_reducible refine Kept.mk' ?_ ?_ ?_ ?_

theorem hostErase_kept {s₀ : State} {c : Ch} {t : HostTxn} {s : State} (hK : Kept s₀ s) : Kept s₀ (hostErase s c
    t) := by
  unfold hostErase
  repeat' first
      | (with_reducible first
          | assumption | apply windowDrop_kept | apply windowLog_kept | apply hostTxn_kept | apply overDrop_kept
          | apply hostWrite_kept | apply Kept.foldl | rfl)
      | (intro _) | with_reducible apply Kept.ite | split | with_reducible refine Kept.mk' ?_ ?_ ?_ ?_

end Sys2Proof.Machine
end

