-- ==== Sys2Proof/Laws/Trace.lean ====
section
/-! SUPPORT. What each operation of Machine/Trace.lean keeps (`Kept`). -/

set_option linter.unusedTactic false
set_option linter.unreachableTactic false

namespace Sys2Proof.Machine

theorem newestJournal_kept2 {s₀ : State} {c : Ch} {s : State} (hK : Kept s₀ s) : Kept s₀ (newestJournal s c).2 := by
  unfold newestJournal
  repeat' first
      | (with_reducible first | assumption | apply useFree_kept | apply Kept.foldl | rfl) | (intro _)
      | with_reducible apply Kept.ite | split | with_reducible refine Kept.mk' ?_ ?_ ?_ ?_

theorem newestJournal_kept {s₀ : State} {c : Ch} {s : State} {p0 t} (hK : Kept s₀ s) (e : (newestJournal s c) =
    (p0, t)) : Kept s₀ t := by
  have := newestJournal_kept2 (c := c) hK
  rw [e] at this
  exact this

theorem traceBad_kept {s₀ : State} {c : Ch} {why : Nat} {s : State} (hK : Kept s₀ s) : Kept s₀ (traceBad s c why) := by
  unfold traceBad
  repeat' first
      | (with_reducible first | assumption | apply ecInt_kept | apply ecRecord_kept | apply Kept.foldl | rfl)
      | (intro _) | with_reducible apply Kept.ite | split | with_reducible refine Kept.mk' ?_ ?_ ?_ ?_

theorem loadJournal_kept {s₀ : State} {c : Ch} {s : State} (hK : Kept s₀ s) : Kept s₀ (loadJournal s c) := by
  unfold loadJournal
  repeat' first
      | (with_reducible first | assumption | apply modCh_kept | apply traceBad_kept | apply newestJournal_kept2)
      | refine newestJournal_kept ?_ (by with_reducible assumption) | (with_reducible first | apply Kept.foldl | rfl)
      | (intro _) | with_reducible apply Kept.ite | split | with_reducible refine Kept.mk' ?_ ?_ ?_ ?_

theorem drainOne_kept {s₀ : State} {src : Nat} {s : State} (hK : Kept s₀ s) : Kept s₀ (drainOne s src) := by
  unfold drainOne
  repeat' first
      | (with_reducible first
          | assumption | apply modAo_kept | apply evLowSet_kept | apply tpCloseOverflow_kept | apply logAppend_kept
          | exact memWrite_wf _ _ (by with_reducible assumption))
      | exact memWf_nil 0 | (with_reducible first | apply Kept.foldl | rfl) | (intro _)
      | with_reducible apply Kept.ite | split | with_reducible refine Kept.mk' ?_ ?_ ?_ ?_

theorem logDrain_kept {s₀ : State} {failed : Bool} {s : State} (hK : Kept s₀ s) : Kept s₀ (logDrain s failed) := by
  unfold logDrain
  repeat' first
      | (with_reducible first
          | assumption | apply drainOne_kept | apply settleAll_kept | apply retire_kept | apply draw_kept2)
      | refine draw_kept ?_ (by with_reducible assumption) | (with_reducible first | apply Kept.foldl | rfl)
      | (intro _) | with_reducible apply Kept.ite | split | with_reducible refine Kept.mk' ?_ ?_ ?_ ?_

theorem decideTrace_kept {s₀ : State} {c : Ch} {s : State} (hK : Kept s₀ s) : Kept s₀ (decideTrace s c) := by
  unfold decideTrace
  repeat' first
      | (with_reducible first
          | assumption | apply modCh_kept | apply traceBad_kept | apply dropJournal_kept | apply Kept.foldl | rfl)
      | (intro _) | with_reducible apply Kept.ite | split | with_reducible refine Kept.mk' ?_ ?_ ?_ ?_

theorem settleTraces_kept {s₀ s : State} (hK : Kept s₀ s) : Kept s₀ (settleTraces s) := by
  unfold settleTraces
  repeat' first
      | (with_reducible first
          | assumption | apply settleAll_kept | apply forCh_kept | apply decideTrace_kept | apply Kept.foldl | rfl)
      | (intro _) | with_reducible apply Kept.ite | split | with_reducible refine Kept.mk' ?_ ?_ ?_ ?_

theorem traceExpiry_kept {s₀ : State} {c : Ch} {s : State} (hK : Kept s₀ s) : Kept s₀ (traceExpiry s c) := by
  unfold traceExpiry
  repeat' first
      | (with_reducible first | assumption | apply endTrace_kept | apply reachTime_kept | apply Kept.foldl | rfl)
      | (intro _) | with_reducible apply Kept.ite | split | with_reducible refine Kept.mk' ?_ ?_ ?_ ?_

theorem journalUnit_kept2 {s₀ : State} {c : Ch} {n : Nat} {s : State} (hK : Kept s₀ s) : Kept s₀ (journalUnit s c
    n).2 := by
  unfold journalUnit
  repeat' first
      | (with_reducible first | assumption | apply hashEnq_kept | apply draw_kept2)
      | refine draw_kept ?_ (by with_reducible assumption) | (with_reducible first | apply Kept.foldl | rfl)
      | (intro _) | with_reducible apply Kept.ite | split | with_reducible refine Kept.mk' ?_ ?_ ?_ ?_

theorem journalUnit_kept {s₀ : State} {c : Ch} {n : Nat} {s : State} {p0 t} (hK : Kept s₀ s) (e : (journalUnit s c
    n) = (p0, t)) : Kept s₀ t := by
  have := journalUnit_kept2 (c := c) (n := n) hK
  rw [e] at this
  exact this

theorem journalPut_kept {s₀ : State} {c : Ch} {id : Nat} {b : List Byte} {rest : List (List Byte)} {key : List
    Byte} {s : State} (hK : Kept s₀ s) : Kept s₀ (journalPut s c id b rest key) := by
  unfold journalPut
  repeat' first
      | (with_reducible first
          | assumption | apply modCh_kept | apply ownErase_kept | apply osDequeue_kept | apply ecRecord_kept
          | apply osProg_kept | apply retire_kept | apply Kept.foldl | rfl)
      | (intro _) | with_reducible apply Kept.ite | split | with_reducible refine Kept.mk' ?_ ?_ ?_ ?_

theorem journalWrite_kept {s₀ : State} {c : Ch} {s : State} (hK : Kept s₀ s) : Kept s₀ (journalWrite s c) := by
  unfold journalWrite
  repeat' first
      | (with_reducible first | assumption) | refine osGrant_kept ?_ (by with_reducible assumption)
      | refine unitDone_kept ?_ (by with_reducible assumption)
      | (with_reducible first | apply journalPut_kept | apply osAsk_kept | apply journalUnit_kept2)
      | refine journalUnit_kept ?_ (by with_reducible assumption) | (with_reducible first | apply Kept.foldl | rfl)
      | (intro _) | with_reducible apply Kept.ite | split | with_reducible refine Kept.mk' ?_ ?_ ?_ ?_

theorem nextInterval_kept {s₀ : State} {c : Ch} {s : State} (hK : Kept s₀ s) : Kept s₀ (nextInterval s c) := by
  unfold nextInterval
  repeat' first
      | (with_reducible first | assumption | apply modCh_kept | apply Kept.foldl | rfl) | (intro _)
      | with_reducible apply Kept.ite | split | with_reducible refine Kept.mk' ?_ ?_ ?_ ?_

theorem setQuota_kept {s₀ : State} {c : Ch} {q : Nat} {s : State} (hK : Kept s₀ s) : Kept s₀ (setQuota s c q) := by
  unfold setQuota
  repeat' first
      | (with_reducible first
          | assumption | apply modCh_kept | apply notify_kept | apply ecRecord_kept | apply Kept.foldl | rfl)
      | (intro _) | with_reducible apply Kept.ite | split | with_reducible refine Kept.mk' ?_ ?_ ?_ ?_

theorem quotaMoves_kept {s₀ : State} {el : List Ch} {a1 : Nat} {a2 a3 : List Ch} {a4 : State} (hK : Kept s₀ a4) :
    Kept s₀ (quotaMoves el a1 a2 a3 a4) := by
  induction a1 generalizing a2 a3 a4 with
  | zero =>
    unfold quotaMoves
    repeat' first
        | (with_reducible first | assumption | apply setQuota_kept | apply Kept.foldl | rfl) | (intro _)
        | with_reducible apply Kept.ite | split | with_reducible refine Kept.mk' ?_ ?_ ?_ ?_
  | succ _ ih =>
    unfold quotaMoves
    repeat' first
        | with_reducible apply ih | (with_reducible first
            | assumption | apply setQuota_kept | apply Kept.foldl | rfl)
        | (intro _) | with_reducible apply Kept.ite | split | with_reducible refine Kept.mk' ?_ ?_ ?_ ?_

theorem adaptDepth_kept {s₀ : State} {c : Ch} {s : State} (hK : Kept s₀ s) : Kept s₀ (adaptDepth s c) := by
  unfold adaptDepth
  repeat' first
      | (with_reducible first
          | assumption | apply modCh_kept | apply notify_kept | apply ecRecord_kept | apply Kept.foldl | rfl)
      | (intro _) | with_reducible apply Kept.ite | split | with_reducible refine Kept.mk' ?_ ?_ ?_ ?_

theorem setDiv_kept {s₀ : State} {c : Ch} {d : Nat} {s : State} (hK : Kept s₀ s) : Kept s₀ (setDiv s c d) := by
  unfold setDiv
  repeat' first
      | (with_reducible first
          | assumption | apply modCh_kept | apply ecInt_kept | apply notify_kept | apply ecRecord_kept
          | apply Kept.foldl | rfl)
      | (intro _) | with_reducible apply Kept.ite | split | with_reducible refine Kept.mk' ?_ ?_ ?_ ?_

theorem adaptClock_kept {s₀ : State} {c : Ch} {s : State} (hK : Kept s₀ s) : Kept s₀ (adaptClock s c) := by
  unfold adaptClock
  repeat' first
      | (with_reducible first | assumption | apply modCh_kept | apply setDiv_kept | apply Kept.foldl | rfl)
      | (intro _) | with_reducible apply Kept.ite | split | with_reducible refine Kept.mk' ?_ ?_ ?_ ?_

theorem adaptPass_kept {s₀ s : State} (hK : Kept s₀ s) : Kept s₀ (adaptPass s) := by
  unfold adaptPass
  repeat' first
      | (with_reducible first
          | assumption | apply adaptDepth_kept | apply settleAll_kept | apply reachTime_kept | apply quotaMoves_kept
          | apply draw_kept2)
      | refine draw_kept ?_ (by with_reducible assumption)
      | (with_reducible first
          | apply adaptClock_kept | apply applyAdapts_kept | apply nextInterval_kept | apply forCh_kept
          | apply retire_kept | apply Kept.foldl | rfl)
      | (intro _) | with_reducible apply Kept.ite | split | with_reducible refine Kept.mk' ?_ ?_ ?_ ?_

end Sys2Proof.Machine
end

