-- ==== Sys2Proof/Laws/Loader.lean ====
section
/-! SUPPORT. What each operation of Machine/Loader.lean keeps (`Kept`). -/

set_option linter.unusedTactic false
set_option linter.unreachableTactic false

namespace Sys2Proof.Machine

theorem substClearAt_kept {s₀ : State} {c : Ch} {hi : Bool} {v : Word} {s : State} (hK : Kept s₀ s) : Kept s₀
    (substClearAt s c hi v) := by
  unfold substClearAt
  repeat' first
      | (with_reducible first | assumption | apply modCh_kept | apply dropUnserved_kept | apply Kept.foldl | rfl)
      | (intro _) | with_reducible apply Kept.ite | split | with_reducible refine Kept.mk' ?_ ?_ ?_ ?_

theorem rgnActAt_kept {s₀ : State} {c : Ch} {i : Fin 64} {v : Word} {s : State} (hK : Kept s₀ s) : Kept s₀
    (rgnActAt s c i v) := by
  unfold rgnActAt
  repeat' first
      | (with_reducible first | assumption | apply modCh_kept | apply dropUnserved_kept | apply Kept.foldl | rfl)
      | (intro _) | with_reducible apply Kept.ite | split | with_reducible refine Kept.mk' ?_ ?_ ?_ ?_

theorem armAtLock_kept {s₀ s : State} (hK : Kept s₀ s) : Kept s₀ (armAtLock s) := by
  unfold armAtLock
  repeat' first
      | (with_reducible first | assumption | apply tsArm_kept | apply Kept.foldl | rfl) | (intro _)
      | with_reducible apply Kept.ite | split | with_reducible refine Kept.mk' ?_ ?_ ?_ ?_

theorem lockDevice_kept {s₀ : State} {l : List Sect} {s : State} (hK : Kept s₀ s) : Kept s₀ (lockDevice s l) :=
  hK.frame rfl rfl rfl rfl rfl rfl

theorem showDigest_kept {s₀ s : State} (hK : Kept s₀ s) : Kept s₀ (showDigest s) := by
  unfold showDigest
  repeat' first
      | (with_reducible first | assumption | apply tallyRequest_kept | apply Kept.foldl | rfl) | (intro _)
      | with_reducible apply Kept.ite | split | with_reducible refine Kept.mk' ?_ ?_ ?_ ?_

theorem lockChan_kept {s₀ : State} {c : Ch} {s : State} (hK : Kept s₀ s) : Kept s₀ (lockChan s c) := by
  unfold lockChan
  repeat' first
      | (with_reducible first
          | assumption | apply modCh_kept | apply loadJournal_kept | apply strictPend_kept | apply Kept.foldl | rfl)
      | (intro _) | with_reducible apply Kept.ite | split | with_reducible refine Kept.mk' ?_ ?_ ?_ ?_

theorem stLock_kept {s₀ s : State} (hK : Kept s₀ s) : Kept s₀ (stLock s) := by
  unfold stLock
  split
  · exact stRefuse_kept hK
  · extract_lets img l _ _ s1 s2 s3
    have h1 : Kept s₀ s1 :=
      hK.trans ⟨rfl, fun w => ⟨w, fun _ => BitVec.and_self⟩, Nat.le_refl _, Nat.le_refl _, id, id, id⟩
    clear_value s1
    have h2 : Kept s₀ s2 := armAtLock_kept (lockDevice_kept h1)
    clear_value s2
    have h3 : Kept s₀ s3 := showDigest_kept (forCh_kept h2 fun t c ht => lockChan_kept ht)
    clear_value s3
    exact settleAll_kept (fabLock_kept (sqLock_kept (Kept.ite (pairLock_kept h3) h3)))

theorem dropAnchor_kept {s₀ : State} {slot : Nat} {s : State} (hK : Kept s₀ s) : Kept s₀ (dropAnchor s slot) := by
  unfold dropAnchor
  repeat' first
      | (with_reducible first | assumption | apply emptySlot_kept | apply Kept.foldl | rfl) | (intro _)
      | with_reducible apply Kept.ite | split | with_reducible refine Kept.mk' ?_ ?_ ?_ ?_

theorem discardTables_kept {s₀ s : State} (hK : Kept s₀ s) : Kept s₀ (discardTables s) := by
  unfold discardTables
  repeat' first
      | (with_reducible first
          | assumption | apply modCh_kept | apply dropAnchor_kept | apply forCh_kept | apply Kept.foldl | rfl)
      | (intro _) | with_reducible apply Kept.ite | split | with_reducible refine Kept.mk' ?_ ?_ ?_ ?_

theorem sigStart_kept {s₀ s : State} (hK : Kept s₀ s) : Kept s₀ (sigStart s) := by
  unfold sigStart
  repeat' first
      | (with_reducible first | assumption | apply hashJobs_kept | apply draw_kept2)
      | refine draw_kept ?_ (by with_reducible assumption) | (with_reducible first | apply Kept.foldl | rfl)
      | (intro _) | with_reducible apply Kept.ite | split | with_reducible refine Kept.mk' ?_ ?_ ?_ ?_

theorem mirrorWrite_kept {s₀ : State} {state count target : Nat} {digest : List Byte} {s : State} (hK : Kept s₀ s)
    : Kept s₀ (mirrorWrite s state count target digest) := by
  unfold mirrorWrite
  repeat' first
      | (with_reducible first | assumption | apply recWrite_kept | apply Kept.foldl | rfl) | (intro _)
      | with_reducible apply Kept.ite | split | with_reducible refine Kept.mk' ?_ ?_ ?_ ?_

theorem mirrorSync_kept {s₀ s : State} (hK : Kept s₀ s) : Kept s₀ (mirrorSync s) := by
  unfold mirrorSync
  repeat' first
      | (with_reducible first
          | assumption | apply stInt_kept | apply arbProgram_kept | apply mirrorWrite_kept | apply Kept.foldl | rfl)
      | (intro _) | with_reducible apply Kept.ite | split | with_reducible refine Kept.mk' ?_ ?_ ?_ ?_

theorem stLoad_kept {s₀ s : State} (hK : Kept s₀ s) : Kept s₀ (stLoad s) := by
  unfold stLoad
  repeat' first
      | (with_reducible first
          | assumption | apply mirrorSync_kept | apply discardTables_kept | apply stRefuse_kept | apply sigStart_kept
          | apply Kept.foldl | rfl)
      | (intro _) | with_reducible apply Kept.ite | split | with_reducible refine Kept.mk' ?_ ?_ ?_ ?_

theorem rsStart_kept {s₀ s : State} (hK : Kept s₀ s) : Kept s₀ (rsStart s) := by
  unfold rsStart
  repeat' first
      | (with_reducible first
          | assumption | apply mirrorSync_kept | apply stRefuse_kept | apply sigStart_kept | apply Kept.foldl | rfl)
      | (intro _) | with_reducible apply Kept.ite | split | with_reducible refine Kept.mk' ?_ ?_ ?_ ?_

theorem rsHoldClear_kept {s₀ : State} {v : Word} {s : State} (hK : Kept s₀ s) : Kept s₀ (rsHoldClear s v) := by
  unfold rsHoldClear
  repeat' first
      | (with_reducible first | assumption | apply settleAll_kept | apply Kept.foldl | rfl) | (intro _)
      | with_reducible apply Kept.ite | split | with_reducible refine Kept.mk' ?_ ?_ ?_ ?_

theorem arbAdvance_kept {s₀ s : State} (hK : Kept s₀ s) : Kept s₀ (arbAdvance s) := by
  unfold arbAdvance
  repeat' first
      | (with_reducible first | assumption | apply mirrorWrite_kept | apply stInt_kept | apply Kept.foldl | rfl)
      | (intro _) | with_reducible apply Kept.ite | split | with_reducible refine Kept.mk' ?_ ?_ ?_ ?_

theorem sigEnd_kept {s₀ s t : State} (hK : Kept s₀ s) (e : sigEnd s = some t) : Kept s₀ t := by
  unfold sigEnd at e
  split at e
  · split at e
    · cases e
    · obtain ⟨u, hu, rfl⟩ := Option.map_eq_some_iff.1 e
      exact retire_kept (unitDone_kept (sigStart_kept hK) hu)
  · exact Option.some.inj e ▸ hK

theorem placeAnchor_kept {s₀ : State} {x : Nat × List Byte} {s : State} (hK : Kept s₀ s) : Kept s₀ (placeAnchor s
    x) := by
  unfold placeAnchor
  repeat' first
      | (with_reducible first | assumption | apply modSlot_kept | apply Kept.foldl | rfl) | (intro _)
      | with_reducible apply Kept.ite | split | with_reducible refine Kept.mk' ?_ ?_ ?_ ?_

theorem applyImage_kept {s₀ : State} {img : List Byte} {s : State} (hK : Kept s₀ s) : Kept s₀ (applyImage s img) := by
  unfold applyImage
  repeat' first
      | (with_reducible first
          | assumption | apply modCh_kept | apply placeAnchor_kept | apply forCh_kept | apply Kept.foldl | rfl)
      | (intro _) | with_reducible apply Kept.ite | split | with_reducible refine Kept.mk' ?_ ?_ ?_ ?_

theorem loadCommit_kept {s₀ s : State} (hK : Kept s₀ s) : Kept s₀ (loadCommit s) := by
  unfold loadCommit
  repeat' first
      | (with_reducible first | assumption) | refine sigEnd_kept ?_ (by with_reducible assumption)
      | (with_reducible first
          | apply applyImage_kept | apply stInt_kept | apply sigStart_kept | apply Kept.foldl | rfl)
      | (intro _) | with_reducible apply Kept.ite | split | with_reducible refine Kept.mk' ?_ ?_ ?_ ?_

theorem rsOver_kept {s₀ s : State} (hK : Kept s₀ s) : Kept s₀ (rsOver s) := by
  unfold rsOver
  repeat' first
      | (with_reducible first | assumption | apply dropWork_kept | apply Kept.foldl | rfl) | (intro _)
      | with_reducible apply Kept.ite | split | with_reducible refine Kept.mk' ?_ ?_ ?_ ?_

theorem stReject_kept {s₀ : State} {readFail : Option Nat} {s : State} (hK : Kept s₀ s) : Kept s₀ (stReject s
    readFail) := by
  unfold stReject
  repeat' first
      | (with_reducible first | assumption | apply loadReject_kept | apply rsOver_kept | apply stRefuse_kept)
      | refine sigEnd_kept ?_ (by with_reducible assumption)
      | (with_reducible first | apply sigStart_kept | apply Kept.foldl | rfl) | (intro _)
      | with_reducible apply Kept.ite | split | with_reducible refine Kept.mk' ?_ ?_ ?_ ?_

theorem rsDrop_kept {s₀ : State} {c : Ch} {s : State} (hK : Kept s₀ s) : Kept s₀ (rsDrop s c) := by
  unfold rsDrop
  repeat' first
      | (with_reducible first
          | assumption | apply squash_kept | apply clistDrop_kept | apply nodeDrop_kept | apply freeFrames_kept
          | apply squashChannel_kept | apply Kept.foldl | rfl)
      | (intro _) | with_reducible apply Kept.ite | split | with_reducible refine Kept.mk' ?_ ?_ ?_ ?_

theorem rsAnchors_kept {s₀ : State} {new : List (Nat × List Byte)} {binds : List Binding} {s : State} (hK : Kept
    s₀ s) : Kept s₀ (rsAnchors s new binds) := by
  unfold rsAnchors
  repeat' first
      | (with_reducible first | assumption | apply placeAnchor_kept | apply dropAnchor_kept | apply Kept.foldl | rfl)
      | (intro _) | with_reducible apply Kept.ite | split | with_reducible refine Kept.mk' ?_ ?_ ?_ ?_

theorem rsCommit_kept {s₀ s : State} (hK : Kept s₀ s) : Kept s₀ (rsCommit s) := by
  unfold rsCommit
  repeat' first
      | (with_reducible first | assumption | apply modCh_kept | apply rsOver_kept | apply strictPend_kept)
      | refine sigEnd_kept ?_ (by with_reducible assumption)
      | (with_reducible first
          | apply stInt_kept | apply settleAll_kept | apply rsAnchors_kept | apply showDigest_kept
          | apply endTrace_kept | apply rsDrop_kept | apply sigStart_kept | apply Kept.foldl | rfl)
      | (intro _) | with_reducible apply Kept.ite | split | with_reducible refine Kept.mk' ?_ ?_ ?_ ?_

theorem arbDone_kept {s₀ : State} {otpFail : Bool} {s : State} (hK : Kept s₀ s) : Kept s₀ (arbDone s otpFail) := by
  unfold arbDone
  repeat' first
      | (with_reducible first
          | assumption | apply mirrorWrite_kept | apply useFree_kept | apply stInt_kept | apply arbProgram_kept
          | apply Kept.foldl | rfl)
      | (intro _) | with_reducible apply Kept.ite | split | with_reducible refine Kept.mk' ?_ ?_ ?_ ?_

end Sys2Proof.Machine
end

