-- ==== Sys2Proof/Laws/Instances.lean ====
section
/-! SUPPORT. What each operation of Machine/Instances.lean keeps (`Kept`). -/

set_option linter.unusedTactic false
set_option linter.unreachableTactic false

namespace Sys2Proof.Machine

theorem modInst_kept {s₀ : State} {n : Inst} {f : InstRt → InstRt} {s : State} (hK : Kept s₀ s) : Kept s₀ (modInst
    s n f) := by
  unfold modInst
  repeat' first
      | (with_reducible first | assumption | apply Kept.foldl | rfl) | (intro _) | with_reducible apply Kept.ite
      | split | with_reducible refine Kept.mk' ?_ ?_ ?_ ?_

theorem instRefuse_kept {s₀ : State} {n : Inst} {code : Nat} {s : State} (hK : Kept s₀ s) : Kept s₀ (instRefuse s
    n code) := by
  unfold instRefuse
  repeat' first
      | (with_reducible first | assumption | apply modInst_kept | apply Kept.foldl | rfl) | (intro _)
      | with_reducible apply Kept.ite | split | with_reducible refine Kept.mk' ?_ ?_ ?_ ?_

theorem instTake_kept {s₀ : State} {m : Master} {n : Inst} {f : State → State} {s : State} (hK : Kept s₀ s)
    (hf : ∀ t, Kept s₀ t → Kept s₀ (f t)) : Kept s₀ (instTake s m n f) := by
  unfold instTake
  split
  · exact instRefuse_kept hK
  · exact hf _ (modInst_kept hK)

theorem instActivate_kept {s₀ : State} {n : Inst} {s : State} (hK : Kept s₀ s) : Kept s₀ (instActivate s n) := by
  unfold instActivate
  repeat' first
      | (with_reducible first | assumption | apply boxClear_kept | apply modInst_kept | apply Kept.foldl | rfl)
      | (intro _) | with_reducible apply Kept.ite | split | with_reducible refine Kept.mk' ?_ ?_ ?_ ?_

theorem instCreate_kept {s₀ : State} {n : Inst} {s : State} (hK : Kept s₀ s) : Kept s₀ (instCreate s n) := by
  unfold instCreate
  repeat' first
      | (with_reducible first
          | assumption | apply instRefuse_kept | apply instActivate_kept | apply Kept.foldl | rfl)
      | (intro _) | with_reducible apply Kept.ite | split | with_reducible refine Kept.mk' ?_ ?_ ?_ ?_

theorem instDrain_kept {s₀ : State} {n : Inst} {s : State} (hK : Kept s₀ s) : Kept s₀ (instDrain s n) := by
  unfold instDrain
  repeat' first
      | (with_reducible first | assumption | apply modInst_kept | apply instRefuse_kept | apply Kept.foldl | rfl)
      | (intro _) | with_reducible apply Kept.ite | split | with_reducible refine Kept.mk' ?_ ?_ ?_ ?_

theorem kvUndo_kept {s₀ : State} {r : KvRun} {s : State} (hK : Kept s₀ s) : Kept s₀ (kvUndo s r) := by
  unfold kvUndo
  repeat' first
      | (with_reducible first | assumption | apply modSlot_kept | apply modLms_kept | apply Kept.foldl | rfl)
      | (intro _) | with_reducible apply Kept.ite | split | with_reducible refine Kept.mk' ?_ ?_ ?_ ?_

theorem kvSquash_kept {s₀ : State} {ids : List Nat} {c : Core} {s : State} (hK : Kept s₀ s) : Kept s₀ (kvSquash
    ids s c) := by
  unfold kvSquash
  repeat' first
      | (with_reducible first
          | assumption | apply ramWrite_kept | apply kvPost_kept | apply kvUndo_kept | apply kvServe_kept
          | apply Kept.foldl | rfl)
      | (intro _) | with_reducible apply Kept.ite | split | with_reducible refine Kept.mk' ?_ ?_ ?_ ?_

theorem dmaBillet_kept {s₀ : State} {k : Fin 16} {st : BilletSt} {s : State} (hK : Kept s₀ s) : Kept s₀ (dmaBillet
    s k st) := by
  unfold dmaBillet
  repeat' first
      | (with_reducible first | assumption | apply Kept.foldl | rfl) | (intro _) | with_reducible apply Kept.ite
      | split | with_reducible refine Kept.mk' ?_ ?_ ?_ ?_

theorem dmaGrant_kept {s₀ : State} {a1 : Nat} {a2 : State} (hK : Kept s₀ a2) : Kept s₀ (dmaGrant a1 a2) := by
  induction a1 generalizing a2 with
  | zero =>
    unfold dmaGrant
    repeat' first
        | (with_reducible first | assumption | apply dmaBillet_kept | apply modDma_kept | apply Kept.foldl | rfl)
        | (intro _) | with_reducible apply Kept.ite | split | with_reducible refine Kept.mk' ?_ ?_ ?_ ?_
  | succ _ ih =>
    unfold dmaGrant
    repeat' first
        | with_reducible apply ih | (with_reducible first
            | assumption | apply dmaBillet_kept | apply modDma_kept | apply Kept.foldl | rfl)
        | (intro _) | with_reducible apply Kept.ite | split | with_reducible refine Kept.mk' ?_ ?_ ?_ ?_

theorem dmaOffMover_kept {s₀ : State} {k : Fin 16} {s : State} (hK : Kept s₀ s) : Kept s₀ (dmaOffMover s k) := by
  unfold dmaOffMover
  repeat' first
      | (with_reducible first | assumption | apply Kept.foldl | rfl) | (intro _) | with_reducible apply Kept.ite
      | split | with_reducible refine Kept.mk' ?_ ?_ ?_ ?_

theorem dmaSquash_kept {s₀ : State} {ids : List Nat} {k : Fin 16} {s : State} (hK : Kept s₀ s) : Kept s₀
    (dmaSquash ids s k) := by
  unfold dmaSquash
  repeat' first
      | (with_reducible first
          | assumption | apply osDequeue_kept | apply modDma_kept | apply dmaOffMover_kept | apply Kept.foldl | rfl)
      | (intro _) | with_reducible apply Kept.ite | split | with_reducible refine Kept.mk' ?_ ?_ ?_ ?_

theorem writeSquash_kept {s₀ : State} {ids : List Nat} {c : Ch} {s : State} (hK : Kept s₀ s) : Kept s₀
    (writeSquash ids s c) := by
  unfold writeSquash
  repeat' first
      | (with_reducible first | assumption | apply modCh_kept | apply modPort_kept | apply Kept.foldl | rfl)
      | (intro _) | with_reducible apply Kept.ite | split | with_reducible refine Kept.mk' ?_ ?_ ?_ ?_

theorem slotSquash_kept {s₀ : State} {ids : List Nat} {c : Ch} {s : State} (hK : Kept s₀ s) : Kept s₀ (slotSquash
    ids s c) := by
  unfold slotSquash
  repeat' first
      | (with_reducible first | assumption | apply abandonSlot_kept | apply Kept.foldl | rfl) | (intro _)
      | with_reducible apply Kept.ite | split | with_reducible refine Kept.mk' ?_ ?_ ?_ ?_

theorem boxSquash_kept {s₀ : State} {ids : List Nat} {n : Inst} {s : State} (hK : Kept s₀ s) : Kept s₀ (boxSquash
    ids s n) := by
  unfold boxSquash
  repeat' first
      | (with_reducible first | assumption | apply modBox_kept | apply Kept.foldl | rfl) | (intro _)
      | with_reducible apply Kept.ite | split | with_reducible refine Kept.mk' ?_ ?_ ?_ ?_

theorem squashAll_kept {s₀ : State} {ids : List Nat} {s : State} (hK : Kept s₀ s) : Kept s₀ (squashAll s ids) := by
  unfold squashAll
  repeat' first
      | (with_reducible first
          | assumption | apply squash_kept | apply dmaSquash_kept | apply slotSquash_kept | apply boxSquash_kept
          | apply modSnap_kept | apply forCh_kept | apply kvSquash_kept | apply dmaGrant_kept
          | apply writeSquash_kept | apply Kept.foldl | rfl)
      | (intro _) | with_reducible apply Kept.ite | split | with_reducible refine Kept.mk' ?_ ?_ ?_ ?_

theorem instSquash_kept {s₀ : State} {n : Inst} {s : State} (hK : Kept s₀ s) : Kept s₀ (instSquash s n) := by
  unfold instSquash
  repeat' first
      | (with_reducible first | assumption | apply boxClear_kept | apply squashAll_kept | apply Kept.foldl | rfl)
      | (intro _) | with_reducible apply Kept.ite | split | with_reducible refine Kept.mk' ?_ ?_ ?_ ?_

theorem instReset_kept {s₀ : State} {n : Inst} {s : State} (hK : Kept s₀ s) : Kept s₀ (instReset s n) := by
  unfold instReset
  repeat' first
      | (with_reducible first
          | assumption | apply instSquash_kept | apply settleAll_kept | apply instRefuse_kept
          | apply instActivate_kept | apply Kept.foldl | rfl)
      | (intro _) | with_reducible apply Kept.ite | split | with_reducible refine Kept.mk' ?_ ?_ ?_ ?_

theorem instRemove_kept {s₀ : State} {n : Inst} {s : State} (hK : Kept s₀ s) : Kept s₀ (instRemove s n) := by
  unfold instRemove
  repeat' first
      | (with_reducible first
          | assumption | apply modInst_kept | apply instSquash_kept | apply settleAll_kept | apply instRefuse_kept
          | apply revokeOwner_kept | apply Kept.foldl | rfl)
      | (intro _) | with_reducible apply Kept.ite | split | with_reducible refine Kept.mk' ?_ ?_ ?_ ?_

theorem startDependent_kept {s₀ : State} {id : Nat} {w : WaitingDraw} {s : State} (hK : Kept s₀ s) : Kept s₀
    (startDependent s id w) := by
  unfold startDependent
  repeat' first
      | (with_reducible first | assumption | apply portEnq_kept | apply hashEnq_kept | apply Kept.foldl | rfl)
      | (intro _) | with_reducible apply Kept.ite | split | with_reducible refine Kept.mk' ?_ ?_ ?_ ?_

theorem grantDependent_kept {s₀ : State} {k : BilletClass} {s : State} (hK : Kept s₀ s) : Kept s₀ (grantDependent
    s k) := by
  unfold grantDependent
  repeat' first
      | (with_reducible first | assumption | apply startDependent_kept | apply draw_kept2)
      | refine draw_kept ?_ (by with_reducible assumption) | (with_reducible first | apply Kept.foldl | rfl)
      | (intro _) | with_reducible apply Kept.ite | split | with_reducible refine Kept.mk' ?_ ?_ ?_ ?_

theorem ageHeads_kept {s₀ : State} {age i : Nat} {a : Arb} {put : State → Arb → State} {s : State} (hK : Kept s₀
    s) (hput : ∀ t x0, Kept s₀ t → Kept s₀ (put t x0)) : Kept s₀ (ageHeads s age i a put) := by
  unfold ageHeads
  repeat' first
      | (with_reducible first | assumption) | apply hput
      | (with_reducible first | apply reachTime_kept | apply btInt_kept | apply Kept.foldl | rfl) | (intro _)
      | with_reducible apply Kept.ite | split | with_reducible refine Kept.mk' ?_ ?_ ?_ ?_

theorem headAged_kept {s₀ : State} {a : Arbiter} {s : State} (hK : Kept s₀ s) : Kept s₀ (headAged s a) := by
  unfold headAged
  repeat' first
      | (with_reducible first
          | assumption | apply setRing_kept | apply ageHeads_kept | apply modPort_kept | apply Kept.foldl | rfl)
      | (intro _) | with_reducible apply Kept.ite | split | with_reducible refine Kept.mk' ?_ ?_ ?_ ?_

theorem trackerParity_kept {s₀ : State} {b : Fin 4096} {s : State} (hK : Kept s₀ s) : Kept s₀ (trackerParity s b) := by
  unfold trackerParity
  repeat' first
      | (with_reducible first
          | assumption | apply squashAll_kept | apply modCh_kept | apply abandonSlot_kept
          | apply clinkerResponse_kept | apply settleAll_kept | apply btInt_kept | apply parityCount_kept
          | apply Kept.foldl | rfl)
      | (intro _) | with_reducible apply Kept.ite | split | with_reducible refine Kept.mk' ?_ ?_ ?_ ?_

theorem drainDone_kept {s₀ : State} {n : Inst} {s : State} (hK : Kept s₀ s) : Kept s₀ (drainDone s n) := by
  unfold drainDone
  repeat' first
      | (with_reducible first | assumption | apply instActivate_kept | apply Kept.foldl | rfl) | (intro _)
      | with_reducible apply Kept.ite | split | with_reducible refine Kept.mk' ?_ ?_ ?_ ?_

theorem drainExpire_kept {s₀ : State} {n : Inst} {s : State} (hK : Kept s₀ s) : Kept s₀ (drainExpire s n) := by
  unfold drainExpire
  repeat' first
      | (with_reducible first
          | assumption | apply instSquash_kept | apply settleAll_kept | apply reachTime_kept
          | apply instActivate_kept | apply btInt_kept | apply Kept.foldl | rfl)
      | (intro _) | with_reducible apply Kept.ite | split | with_reducible refine Kept.mk' ?_ ?_ ?_ ?_

end Sys2Proof.Machine
end

