-- ==== Sys2Proof/Laws/Interrupts.lean ====
section
/-! SUPPORT. What each operation of Machine/Interrupts.lean keeps (`Kept`). -/

set_option linter.unusedTactic false
set_option linter.unreachableTactic false

namespace Sys2Proof.Machine

theorem intComplete_kept {s₀ : State} {c : Core} {i : Fin 32} {s : State} (hK : Kept s₀ s) : Kept s₀ (intComplete
    s c i) := by
  unfold intComplete
  repeat' first
      | (with_reducible first | assumption | apply Kept.foldl | rfl) | (intro _) | with_reducible apply Kept.ite
      | split | with_reducible refine Kept.mk' ?_ ?_ ?_ ?_

theorem intClaim_kept {s₀ : State} {c : Core} {i : Fin 32} {s : State} (hK : Kept s₀ s) : Kept s₀ (intClaim s c i) := by
  unfold intClaim
  repeat' first
      | (with_reducible first | assumption | apply Kept.foldl | rfl) | (intro _) | with_reducible apply Kept.ite
      | split | with_reducible refine Kept.mk' ?_ ?_ ?_ ?_

theorem mtimeMatch_kept {s₀ : State} {c : Core} {s : State} (hK : Kept s₀ s) : Kept s₀ (mtimeMatch s c) := by
  unfold mtimeMatch
  repeat' first
      | (with_reducible first | assumption | apply reachTime_kept | apply Kept.foldl | rfl) | (intro _)
      | with_reducible apply Kept.ite | split | with_reducible refine Kept.mk' ?_ ?_ ?_ ?_

end Sys2Proof.Machine
end

