-- ==== Sys2Proof/Laws/RegionUnit.lean ====
section
/-! SUPPORT. What each operation of Machine/RegionUnit.lean keeps (`Kept`). -/

set_option linter.unusedTactic false
set_option linter.unreachableTactic false

namespace Sys2Proof.Machine

theorem modTlb_kept {s₀ : State} {r : Fin 20} {f : List TlbEnt → List TlbEnt} {s : State} (hK : Kept s₀ s) : Kept
    s₀ (modTlb s r f) := by
  unfold modTlb
  repeat' first
      | (with_reducible first | assumption | apply Kept.foldl | rfl) | (intro _) | with_reducible apply Kept.ite
      | split | with_reducible refine Kept.mk' ?_ ?_ ?_ ?_

theorem ruInvalidate_kept {s₀ : State} {v : Word} {s : State} (hK : Kept s₀ s) : Kept s₀ (ruInvalidate s v) := by
  unfold ruInvalidate
  repeat' first
      | (with_reducible first | assumption | apply modTlb_kept | apply Kept.foldl | rfl) | (intro _)
      | with_reducible apply Kept.ite | split | with_reducible refine Kept.mk' ?_ ?_ ?_ ?_

theorem ruRootWrite_kept {s₀ : State} {r : Fin 20} {v : Word} {s : State} (hK : Kept s₀ s) : Kept s₀ (ruRootWrite
    s r v) := by
  unfold ruRootWrite
  repeat' first
      | (with_reducible first | assumption | apply modDma_kept | apply modTlb_kept | apply Kept.foldl | rfl)
      | (intro _) | with_reducible apply Kept.ite | split | with_reducible refine Kept.mk' ?_ ?_ ?_ ?_

theorem dmaReject_kept {s₀ : State} {k : Fin 16} {s : State} (hK : Kept s₀ s) : Kept s₀ (dmaReject s k) := by
  unfold dmaReject
  repeat' first
      | (with_reducible first | assumption | apply modDma_kept | apply Kept.foldl | rfl) | (intro _)
      | with_reducible apply Kept.ite | split | with_reducible refine Kept.mk' ?_ ?_ ?_ ?_

theorem dmaTake_kept {s₀ : State} {m : Master} {k : Fin 16} {f : State → State} {s : State} (hK : Kept s₀ s)
    (hf : ∀ t, Kept s₀ t → Kept s₀ (f t)) : Kept s₀ (dmaTake s m k f) := by
  unfold dmaTake
  split
  · exact dmaReject_kept hK
  · exact hf _ (modDma_kept hK)

theorem dmaGo_kept {s₀ : State} {k : Fin 16} {s : State} (hK : Kept s₀ s) : Kept s₀ (dmaGo s k) := by
  unfold dmaGo
  repeat' first
      | (with_reducible first
          | assumption | apply dmaBillet_kept | apply modDma_kept | apply dmaGrant_kept | apply dmaReject_kept
          | apply draw_kept2)
      | refine draw_kept ?_ (by with_reducible assumption) | (with_reducible first | apply Kept.foldl | rfl)
      | (intro _) | with_reducible apply Kept.ite | split | with_reducible refine Kept.mk' ?_ ?_ ?_ ?_

theorem dmaAbort_kept {s₀ : State} {k : Fin 16} {s : State} (hK : Kept s₀ s) : Kept s₀ (dmaAbort s k) := by
  unfold dmaAbort
  repeat' first
      | (with_reducible first
          | assumption | apply squashAll_kept | apply modDma_kept | apply dmaReject_kept | apply dmaGrant_kept
          | apply Kept.foldl | rfl)
      | (intro _) | with_reducible apply Kept.ite | split | with_reducible refine Kept.mk' ?_ ?_ ?_ ?_

theorem dmaResume_kept {s₀ : State} {k : Fin 16} {s : State} (hK : Kept s₀ s) : Kept s₀ (dmaResume s k) := by
  unfold dmaResume
  repeat' first
      | (with_reducible first
          | assumption | apply modDma_kept | apply dmaGrant_kept | apply dmaReject_kept | apply Kept.foldl | rfl)
      | (intro _) | with_reducible apply Kept.ite | split | with_reducible refine Kept.mk' ?_ ?_ ?_ ?_

theorem dmaCtl_kept {s₀ : State} {k : Fin 16} {v : Word} {s : State} (hK : Kept s₀ s) : Kept s₀ (dmaCtl s k v) := by
  unfold dmaCtl
  repeat' first
      | (with_reducible first
          | assumption | apply dmaAbort_kept | apply dmaResume_kept | apply dmaGo_kept | apply Kept.foldl | rfl)
      | (intro _) | with_reducible apply Kept.ite | split | with_reducible refine Kept.mk' ?_ ?_ ?_ ?_

theorem pageEntry_kept2 {s₀ : State} {r : Fin 20} {vpn : Nat} {s : State} (hK : Kept s₀ s) : Kept s₀ (pageEntry s
    r vpn).2 := by
  unfold pageEntry
  repeat' first
      | (with_reducible first | assumption | apply modTlb_kept | apply Kept.foldl | rfl) | (intro _)
      | with_reducible apply Kept.ite | split | with_reducible refine Kept.mk' ?_ ?_ ?_ ?_

theorem pageEntry_kept {s₀ : State} {r : Fin 20} {vpn : Nat} {s : State} {p0 t} (hK : Kept s₀ s) (e : (pageEntry s
    r vpn) = (p0, t)) : Kept s₀ t := by
  have := pageEntry_kept2 (r := r) (vpn := vpn) hK
  rw [e] at this
  exact this

theorem translate_kept2 {s₀ : State} {r : Fin 20} {k : MemKind} {va : Nat} {s : State} (hK : Kept s₀ s) : Kept s₀
    (translate s r k va).2 := by
  unfold translate
  repeat' first
      | (with_reducible first | assumption | apply pageEntry_kept2)
      | refine pageEntry_kept ?_ (by with_reducible assumption) | (with_reducible first | apply Kept.foldl | rfl)
      | (intro _) | with_reducible apply Kept.ite | split | with_reducible refine Kept.mk' ?_ ?_ ?_ ?_

theorem translate_kept {s₀ : State} {r : Fin 20} {k : MemKind} {va : Nat} {s : State} {p0 t} (hK : Kept s₀ s) (e :
    (translate s r k va) = (p0, t)) : Kept s₀ t := by
  have := translate_kept2 (r := r) (k := k) (va := va) hK
  rw [e] at this
  exact this

theorem coreTranslate_kept2 {s₀ : State} {c : Core} {user : Bool} {k : MemKind} {va n : Nat} {s : State} (hK :
    Kept s₀ s) : Kept s₀ (coreTranslate s c user k va n).2 := by
  unfold coreTranslate
  split
  next p t e =>
    have ht : Kept s₀ t := by
      refine Kept.of_pair e ?_
      repeat' first | exact hK | exact translate_kept2 hK | split
    split
    · exact ht
    · split <;> exact ht

theorem coreTranslate_kept {s₀ : State} {c : Core} {user : Bool} {k : MemKind} {va n : Nat} {s : State} {p0 t} (hK
    : Kept s₀ s) (e : (coreTranslate s c user k va n) = (p0, t)) : Kept s₀ t :=
  Kept.of_pair e (coreTranslate_kept2 hK)

theorem dmaTranslate_kept2 {s₀ : State} {c : Fin 16} {k : MemKind} {va n : Nat} {s : State} (hK : Kept s₀ s) :
    Kept s₀ (dmaTranslate s c k va n).2 := by
  unfold dmaTranslate
  split
  next p t e =>
    have ht : Kept s₀ t := by
      refine Kept.of_pair e ?_
      repeat' first | exact hK | exact translate_kept2 hK | split
    split
    · exact ht
    · split <;> exact ht

theorem dmaTranslate_kept {s₀ : State} {c : Fin 16} {k : MemKind} {va n : Nat} {s : State} {p0 t} (hK : Kept s₀ s)
    (e : (dmaTranslate s c k va n) = (p0, t)) : Kept s₀ t :=
  Kept.of_pair e (dmaTranslate_kept2 hK)

end Sys2Proof.Machine
end

