-- ==== Sys2Proof/Laws/RegWrite.lean ====
section
/-! SUPPORT. What each operation of Machine/RegWrite.lean keeps (`Kept`). -/

set_option linter.unusedTactic false
set_option linter.unreachableTactic false

namespace Sys2Proof.Machine

theorem wr_kept {s₀ : State} {m : Master} {w : Nat} {closed : Bool} {f : State → State} {s : State} (hK : Kept s₀
    s) (hf : ∀ t, Kept s₀ t → Kept s₀ (f t )) : Kept s₀ (wr s m w closed f) := by
  unfold wr
  repeat' first
      | (with_reducible first | assumption) | apply hf | (with_reducible first | apply Kept.foldl | rfl) | (intro _)
      | with_reducible apply Kept.ite | split | with_reducible refine Kept.mk' ?_ ?_ ?_ ?_

theorem gcWrite_kept {s₀ : State} {m : Master} {o : Nat} {v : Word} {s : State} (hK : Kept s₀ s) : Kept s₀
    (gcWrite s m o v) := by
  unfold gcWrite
  repeat' first
      | (with_reducible first
          | assumption | apply modPortal_kept | apply osGo_kept | apply wr_kept | apply Kept.foldl | rfl)
      | (intro _) | with_reducible apply Kept.ite | split | with_reducible refine Kept.mk' ?_ ?_ ?_ ?_

theorem selWr_kept {s₀ : State} {m : Master} {ws : List Nat} {f : Sel → Sel} {s : State} (hK : Kept s₀ s) : Kept
    s₀ (selWr s m ws f) := by
  unfold selWr
  repeat' first
      | (with_reducible first | assumption | apply modSel_kept | apply Kept.foldl | rfl) | (intro _)
      | with_reducible apply Kept.ite | split | with_reducible refine Kept.mk' ?_ ?_ ?_ ?_

theorem onBit_kept {s₀ : State} {v : Word} {i : Nat} {f : State → State} {s : State} (hK : Kept s₀ s) (hf : ∀ t,
    Kept s₀ t → Kept s₀ (f t )) : Kept s₀ (onBit v i f s) := by
  unfold onBit
  repeat' first
      | (with_reducible first | assumption) | apply hf | (with_reducible first | apply Kept.foldl | rfl) | (intro _)
      | with_reducible apply Kept.ite | split | with_reducible refine Kept.mk' ?_ ?_ ?_ ?_

theorem rawAbortFree_kept {s₀ : State} {c : Ch} {s : State} (hK : Kept s₀ s) : Kept s₀ (rawAbortFree s c) := by
  unfold rawAbortFree
  repeat' first
      | (with_reducible first | assumption | apply rawAbortAt_kept | apply useFree_kept | apply Kept.foldl | rfl)
      | (intro _) | with_reducible apply Kept.ite | split | with_reducible refine Kept.mk' ?_ ?_ ?_ ?_

theorem rawCtlAt_kept {s₀ : State} {v : Word} {c : Ch} {s : State} (hK : Kept s₀ s) : Kept s₀ (rawCtlAt v s c) := by
  unfold rawCtlAt
  repeat' first
      | (with_reducible first
          | assumption | apply modRaw_kept | apply rawAbortFree_kept | apply onBit_kept | apply rawStartAt_kept
          | apply ownReqAt_kept | apply Kept.foldl | rfl)
      | (intro _) | with_reducible apply Kept.ite | split | with_reducible refine Kept.mk' ?_ ?_ ?_ ?_

theorem chWriteAt_kept {s₀ : State} {o : Nat} {v : Word} {c : Ch} {s : State} (hK : Kept s₀ s) : Kept s₀
    (chWriteAt o v s c) := by
  unfold chWriteAt
  repeat' first
      | (with_reducible first | assumption | apply modRaw_kept | apply rawCtlAt_kept | apply Kept.foldl | rfl)
      | (intro _) | with_reducible apply Kept.ite | split | with_reducible refine Kept.mk' ?_ ?_ ?_ ?_

theorem chWrite_kept {s₀ : State} {m : Master} {o : Nat} {v : Word} {s : State} (hK : Kept s₀ s) : Kept s₀
    (chWrite s m o v) := by
  unfold chWrite
  repeat' first
      | (with_reducible first
          | assumption | apply wr_kept | apply chWriteAt_kept | apply selWr_kept | apply Kept.foldl | rfl)
      | (intro _) | with_reducible apply Kept.ite | split | with_reducible refine Kept.mk' ?_ ?_ ?_ ?_

theorem grWrite_kept {s₀ : State} {m : Master} {o : Nat} {v : Word} {s : State} (hK : Kept s₀ s) : Kept s₀
    (grWrite s m o v) := by
  unfold grWrite
  repeat' first
      | (with_reducible first
          | assumption | apply modCh_kept | apply wr_kept | apply rgnActAt_kept | apply escRelease_kept
          | apply substClearAt_kept | apply onBit_kept | apply Kept.foldl | rfl)
      | (intro _) | with_reducible apply Kept.ite | split | with_reducible refine Kept.mk' ?_ ?_ ?_ ?_

theorem eachBit_kept {s₀ : State} {v : Word} {f : State → Fin 32 → State} {s : State} (hK : Kept s₀ s) (hf : ∀ t
    x0, Kept s₀ t → Kept s₀ (f t x0)) : Kept s₀ (eachBit v f s) := by
  unfold eachBit
  repeat' first
      | (with_reducible first | assumption) | apply hf | (with_reducible first | apply Kept.foldl | rfl) | (intro _)
      | with_reducible apply Kept.ite | split | with_reducible refine Kept.mk' ?_ ?_ ?_ ?_

theorem clkHoldWrite_kept {s₀ : State} {v : Word} {s : State} (hK : Kept s₀ s) : Kept s₀ (clkHoldWrite s v) := by
  unfold clkHoldWrite
  repeat' first
      | (with_reducible first
          | assumption | apply eachBit_kept | apply settleAll_kept | apply clkHoldClear_kept | apply Kept.foldl
          | rfl)
      | (intro _) | with_reducible apply Kept.ite | split | with_reducible refine Kept.mk' ?_ ?_ ?_ ?_

theorem bindFloorWrite_kept {s₀ : State} {m : Master} {v : Word} {s : State} (hK : Kept s₀ s) : Kept s₀
    (bindFloorWrite s m v) := by
  unfold bindFloorWrite
  repeat' first
      | (with_reducible first | assumption | apply Kept.foldl | rfl) | (intro _) | with_reducible apply Kept.ite
      | split | with_reducible refine Kept.mk' ?_ ?_ ?_ ?_

theorem bindClistClear_kept {s₀ : State} {m : Master} {s : State} (hK : Kept s₀ s) : Kept s₀ (bindClistClear s m) := by
  unfold bindClistClear
  repeat' first
      | (with_reducible first | assumption | apply clistDrop_kept | apply settleAll_kept | apply Kept.foldl | rfl)
      | (intro _) | with_reducible apply Kept.ite | split | with_reducible refine Kept.mk' ?_ ?_ ?_ ?_

theorem bindStageCheck_kept {s₀ : State} {m : Master} {s : State} (hK : Kept s₀ s) : Kept s₀ (bindStageCheck s m) := by
  unfold bindStageCheck
  repeat' first
      | (with_reducible first | assumption | apply stageCheck_kept | apply Kept.foldl | rfl) | (intro _)
      | with_reducible apply Kept.ite | split | with_reducible refine Kept.mk' ?_ ?_ ?_ ?_

theorem veWrite_kept {s₀ : State} {m : Master} {o : Nat} {v : Word} {s : State} (hK : Kept s₀ s) : Kept s₀
    (veWrite s m o v) := by
  unfold veWrite
  repeat' first
      | (with_reducible first
          | assumption | apply clkHoldWrite_kept | apply wr_kept | apply bindStageCheck_kept
          | apply bindClistClear_kept | apply selWr_kept | apply onBit_kept | apply bindFloorWrite_kept
          | apply Kept.foldl | rfl)
      | (intro _) | with_reducible apply Kept.ite | split | with_reducible refine Kept.mk' ?_ ?_ ?_ ?_

theorem flipHoldWrite_kept {s₀ : State} {v : Word} {s : State} (hK : Kept s₀ s) : Kept s₀ (flipHoldWrite s v) := by
  unfold flipHoldWrite
  repeat' first
      | (with_reducible first | assumption | apply settleAll_kept | apply Kept.foldl | rfl) | (intro _)
      | with_reducible apply Kept.ite | split | with_reducible refine Kept.mk' ?_ ?_ ?_ ?_

theorem bsetMapWrite_kept {s₀ : State} {m : Master} {v : Word} {s : State} (hK : Kept s₀ s) : Kept s₀
    (bsetMapWrite s m v) := by
  unfold bsetMapWrite
  repeat' first
      | (with_reducible first | assumption | apply setBset_kept | apply Kept.foldl | rfl) | (intro _)
      | with_reducible apply Kept.ite | split | with_reducible refine Kept.mk' ?_ ?_ ?_ ?_

theorem onBset_kept {s₀ : State} {m : Master} {f : State → Ch → Fin 15 → State} {s : State} (hK : Kept s₀ s) (hf :
    ∀ t x0 x1, Kept s₀ t → Kept s₀ (f t x0 x1)) : Kept s₀ (onBset s m f) := by
  unfold onBset
  repeat' first
      | (with_reducible first | assumption) | apply hf | (with_reducible first | apply Kept.foldl | rfl) | (intro _)
      | with_reducible apply Kept.ite | split | with_reducible refine Kept.mk' ?_ ?_ ?_ ?_

theorem flipReq_kept {s₀ : State} {m : Master} {s : State} (hK : Kept s₀ s) : Kept s₀ (flipReq s m) := by
  unfold flipReq
  repeat' first
      | (with_reducible first
          | assumption | apply setBset_kept | apply applyFlip_kept | apply settle_kept | apply onBset_kept
          | apply Kept.foldl | rfl)
      | (intro _) | with_reducible apply Kept.ite | split | with_reducible refine Kept.mk' ?_ ?_ ?_ ?_

theorem flipCancel_kept {s₀ : State} {m : Master} {s : State} (hK : Kept s₀ s) : Kept s₀ (flipCancel s m) := by
  unfold flipCancel
  repeat' first
      | (with_reducible first | assumption | apply onBset_kept | apply setBset_kept | apply Kept.foldl | rfl)
      | (intro _) | with_reducible apply Kept.ite | split | with_reducible refine Kept.mk' ?_ ?_ ?_ ?_

theorem goldClear_kept {s₀ : State} {m : Master} {s : State} (hK : Kept s₀ s) : Kept s₀ (goldClear s m) := by
  unfold goldClear
  repeat' first
      | (with_reducible first
          | assumption | apply setBset_kept | apply applyGclr_kept | apply applyFlip_kept | apply settle_kept
          | apply onBset_kept | apply Kept.foldl | rfl)
      | (intro _) | with_reducible apply Kept.ite | split | with_reducible refine Kept.mk' ?_ ?_ ?_ ?_

theorem stageLock_kept {s₀ : State} {m : Master} {v : Bool} {s : State} (hK : Kept s₀ s) : Kept s₀ (stageLock s m
    v) := by
  unfold stageLock
  repeat' first
      | (with_reducible first | assumption | apply onBset_kept | apply setBset_kept | apply Kept.foldl | rfl)
      | (intro _) | with_reducible apply Kept.ite | split | with_reducible refine Kept.mk' ?_ ?_ ?_ ?_

theorem bsetCtl_kept {s₀ : State} {m : Master} {v : Word} {s : State} (hK : Kept s₀ s) : Kept s₀ (bsetCtl s m v) := by
  unfold bsetCtl
  repeat' first
      | (with_reducible first
          | assumption | apply onBit_kept | apply stageLock_kept | apply goldClear_kept | apply flipCancel_kept
          | apply flipReq_kept | apply Kept.foldl | rfl)
      | (intro _) | with_reducible apply Kept.ite | split | with_reducible refine Kept.mk' ?_ ?_ ?_ ?_

theorem ecWrite_kept {s₀ : State} {m : Master} {o : Nat} {v : Word} {s : State} (hK : Kept s₀ s) : Kept s₀
    (ecWrite s m o v) := by
  unfold ecWrite
  repeat' first
      | (with_reducible first
          | assumption | apply bsetMapWrite_kept | apply wr_kept | apply flipHoldWrite_kept | apply selWr_kept
          | apply bsetCtl_kept | apply Kept.foldl | rfl)
      | (intro _) | with_reducible apply Kept.ite | split | with_reducible refine Kept.mk' ?_ ?_ ?_ ?_

theorem stWrite_kept {s₀ : State} {m : Master} {o : Nat} {v : Word} {s : State} (hK : Kept s₀ s) : Kept s₀
    (stWrite s m o v) := by
  unfold stWrite
  repeat' first
      | (with_reducible first
          | assumption | apply wr_kept | apply rsStart_kept | apply arbAdvance_kept | apply onBit_kept
          | apply stLoad_kept | apply rsHoldClear_kept | apply stLock_kept | apply Kept.foldl | rfl)
      | (intro _) | with_reducible apply Kept.ite | split | with_reducible refine Kept.mk' ?_ ?_ ?_ ?_

theorem btWrite_kept {s₀ : State} {m : Master} {o : Nat} {v : Word} {s : State} (hK : Kept s₀ s) : Kept s₀
    (btWrite s m o v) := by
  unfold btWrite
  repeat' first
      | (with_reducible first | assumption | apply wr_kept | apply Kept.foldl | rfl) | (intro _)
      | with_reducible apply Kept.ite | split | with_reducible refine Kept.mk' ?_ ?_ ?_ ?_

theorem inCommand_kept {s₀ : State} {n : Inst} {b : Nat} {s : State} (hK : Kept s₀ s) : Kept s₀ (inCommand n b s) := by
  unfold inCommand
  repeat' first
      | (with_reducible first
          | assumption | apply instRemove_kept | apply instDrain_kept | apply instCreate_kept | apply instReset_kept
          | apply Kept.foldl | rfl)
      | (intro _) | with_reducible apply Kept.ite | split | with_reducible refine Kept.mk' ?_ ?_ ?_ ?_

theorem inBit_kept2 {s₀ : State} {n : Inst} {b : Nat} {x : State × Option Nat} (hK : Kept s₀ x.1) : Kept s₀ (inBit
    n b x).1 := by
  unfold inBit
  dsimp only
  split
  · exact instRefuse_kept hK
  · dsimp only
    exact modInst_kept (inCommand_kept (modInst_kept hK))

theorem inCtl_kept {s₀ : State} {n : Inst} {v : Word} {s : State} (hK : Kept s₀ s) : Kept s₀ (inCtl s n v) := by
  unfold inCtl
  exact Kept.foldl_fst hK fun q x hq => inBit_kept2 hq

theorem inWrite_kept {s₀ : State} {m : Master} {o : Nat} {v : Word} {s : State} (hK : Kept s₀ s) : Kept s₀
    (inWrite s m o v) := by
  unfold inWrite
  repeat' first
      | (with_reducible first
          | assumption | apply inCtl_kept | apply instTake_kept | apply wr_kept | apply modInst_kept | apply selWr_kept | apply Kept.foldl
          | rfl)
      | (intro _) | with_reducible apply Kept.ite | split | with_reducible refine Kept.mk' ?_ ?_ ?_ ?_

theorem coreStart_kept {s₀ : State} {c : Core} {s : State} (hK : Kept s₀ s) : Kept s₀ (coreStart s c) := by
  unfold coreStart
  repeat' first
      | (with_reducible first | assumption | apply modCore_kept | apply wdStart_kept | apply Kept.foldl | rfl)
      | (intro _) | with_reducible apply Kept.ite | split | with_reducible refine Kept.mk' ?_ ?_ ?_ ?_

theorem hookWrite_kept {s₀ : State} {v : Word} {s : State} (hK : Kept s₀ s) : Kept s₀ (hookWrite s v) := by
  unfold hookWrite
  repeat' first
      | (with_reducible first | assumption | apply Kept.foldl | rfl) | (intro _) | with_reducible apply Kept.ite
      | split | with_reducible refine Kept.mk' ?_ ?_ ?_ ?_

theorem dmaRegWrite_kept {s₀ : State} {m : Master} {k : Fin 16} {r : Nat} {v : Word} {s : State} (hK : Kept s₀ s) :
    Kept s₀ (dmaRegWrite s m k r v) := by
  unfold dmaRegWrite
  dsimp only
  repeat' first
      | (with_reducible first | assumption | apply dmaCtl_kept | apply dmaTake_kept | apply modDma_kept | apply Kept.foldl | rfl)
      | (intro _) | with_reducible apply Kept.ite | split | with_reducible refine Kept.mk' ?_ ?_ ?_ ?_

theorem intPrioWrite_kept {s₀ : State} {i : Fin 32} {v : Word} {s : State} (hK : Kept s₀ s) : Kept s₀
    (intPrioWrite s i v) := by
  unfold intPrioWrite
  repeat' first
      | (with_reducible first | assumption | apply Kept.foldl | rfl) | (intro _) | with_reducible apply Kept.ite
      | split | with_reducible refine Kept.mk' ?_ ?_ ?_ ?_

theorem intAckWrite_kept {s₀ : State} {c : Core} {v : Word} {s : State} (hK : Kept s₀ s) : Kept s₀ (intAckWrite s
    c v) := by
  unfold intAckWrite
  repeat' first
      | (with_reducible first
          | assumption | apply onBit_kept | apply intClaim_kept | apply intComplete_kept | apply Kept.foldl | rfl)
      | (intro _) | with_reducible apply Kept.ite | split | with_reducible refine Kept.mk' ?_ ?_ ?_ ?_

theorem heArrayWrite_kept {s₀ : State} {m : Master} {o : Nat} {v : Word} {s : State} (hK : Kept s₀ s) :
    Kept s₀ (heArrayWrite s m o v) := by
  unfold heArrayWrite
  repeat' first
      | (with_reducible first
          | assumption | apply ruRootWrite_kept | apply intAckWrite_kept | apply dmaRegWrite_kept
          | apply intPrioWrite_kept | apply Kept.foldl | rfl)
      | (intro _) | with_reducible apply Kept.ite | split | with_reducible refine Kept.mk' ?_ ?_ ?_ ?_

theorem heWrite_kept {s₀ : State} {m : Master} {o : Nat} {v : Word} {s : State} (hK : Kept s₀ s) : Kept s₀
    (heWrite s m o v) := by
  unfold heWrite
  repeat' first
      | (with_reducible first
          | assumption | apply hookWrite_kept | apply wr_kept | apply ruInvalidate_kept | apply resetNow_kept
          | apply coreStart_kept | apply onBit_kept | apply heArrayWrite_kept | apply Kept.foldl | rfl)
      | (intro _) | with_reducible apply Kept.ite | split | with_reducible refine Kept.mk' ?_ ?_ ?_ ?_

theorem ioSwWrite_kept {s₀ : State} {w : Nat} {v : Word} {s : State} (hK : Kept s₀ s) : Kept s₀ (ioSwWrite s w v) := by
  unfold ioSwWrite
  repeat' first
      | (with_reducible first | assumption | apply driveLine_kept | apply Kept.foldl | rfl) | (intro _)
      | with_reducible apply Kept.ite | split | with_reducible refine Kept.mk' ?_ ?_ ?_ ?_

theorem smbCtlWrite_kept {s₀ : State} {v : Word} {s : State} (hK : Kept s₀ s) : Kept s₀ (smbCtlWrite s v) := by
  unfold smbCtlWrite
  repeat' first
      | (with_reducible first | assumption | apply smbStart_kept | apply onBit_kept | apply Kept.foldl | rfl)
      | (intro _) | with_reducible apply Kept.ite | split | with_reducible refine Kept.mk' ?_ ?_ ?_ ?_

theorem sqWrite_kept {s₀ : State} {m : Master} {o : Nat} {v : Word} {s : State} (hK : Kept s₀ s) : Kept s₀
    (sqWrite s m o v) := by
  unfold sqWrite
  repeat' first
      | (with_reducible first
          | assumption | apply wr_kept | apply sqRestart_kept | apply hearthHold_kept | apply pfClear_kept
          | apply onBit_kept | apply smbCtlWrite_kept | apply sqShutdown_kept | apply ioSwWrite_kept
          | apply Kept.foldl | rfl)
      | (intro _) | with_reducible apply Kept.ite | split | with_reducible refine Kept.mk' ?_ ?_ ?_ ?_

theorem pdWrite_kept {s₀ : State} {m : Master} {o : Nat} {v : Word} {s : State} (hK : Kept s₀ s) : Kept s₀
    (pdWrite s m o v) := by
  unfold pdWrite
  repeat' first
      | (with_reducible first | assumption | apply wr_kept | apply selWr_kept | apply Kept.foldl | rfl) | (intro _)
      | with_reducible apply Kept.ite | split | with_reducible refine Kept.mk' ?_ ?_ ?_ ?_

theorem kvCmdWrite_kept {s₀ : State} {c : Core} {r : Nat} {v : Word} {s : State} (hK : Kept s₀ s) : Kept s₀
    (kvCmdWrite s c r v) := by
  unfold kvCmdWrite
  repeat' first
      | (with_reducible first
          | assumption | apply kvGo_kept | apply modKvc_kept | apply settleAll_kept | apply Kept.foldl | rfl)
      | (intro _) | with_reducible apply Kept.ite | split | with_reducible refine Kept.mk' ?_ ?_ ?_ ?_

theorem kvWrite_kept {s₀ : State} {m : Master} {o : Nat} {v : Word} {s : State} (hK : Kept s₀ s) : Kept s₀
    (kvWrite s m o v) := by
  unfold kvWrite
  repeat' first
      | (with_reducible first
          | assumption | apply zeroiseVault_kept | apply kvCmdWrite_kept | apply rekindle_kept | apply onBit_kept
          | apply rootLoad_kept | apply Kept.foldl | rfl)
      | (intro _) | with_reducible apply Kept.ite | split | with_reducible refine Kept.mk' ?_ ?_ ?_ ?_

theorem lcCmdWrite_kept {s₀ : State} {m : Master} {v : Word} {s : State} (hK : Kept s₀ s) : Kept s₀ (lcCmdWrite s
    m v) := by
  unfold lcCmdWrite
  extract_lets op
  clear_value op
  refine Kept.ite (lcCommand_kept hK fun t ht => ?_) (Kept.mk' hK rfl rfl rfl)
  split
  · exact lcToTest_kept ht
  · exact lcToProduction_kept ht
  · exact lcProvision_kept ht
  · exact lcRedeem_kept ht
  · exact lcToEol_kept ht
  · exact lcNonce_kept ht
  · exact lcFinish_kept ht

theorem lcWrite_kept {s₀ : State} {m : Master} {o : Nat} {v : Word} {s : State} (hK : Kept s₀ s) : Kept s₀
    (lcWrite s m o v) := by
  unfold lcWrite
  repeat' first
      | (with_reducible first | assumption | apply wr_kept | apply lcCmdWrite_kept | apply Kept.foldl | rfl)
      | (intro _) | with_reducible apply Kept.ite | split | with_reducible refine Kept.mk' ?_ ?_ ?_ ?_

theorem attWrite_kept {s₀ : State} {v : Word} {s : State} (hK : Kept s₀ s) : Kept s₀ (attWrite s v) := by
  unfold attWrite
  repeat' first
      | (with_reducible first | assumption | apply Kept.foldl | rfl) | (intro _) | with_reducible apply Kept.ite
      | split | with_reducible refine Kept.mk' ?_ ?_ ?_ ?_

theorem mbDevWrite_kept {s₀ : State} {m : Master} {o : Nat} {v : Word} {s : State} (hK : Kept s₀ s) : Kept s₀
    (mbDevWrite s m o v) := by
  unfold mbDevWrite
  repeat' first
      | (with_reducible first
          | assumption | apply lockWrite_kept | apply wr_kept | apply attWrite_kept | apply selWr_kept
          | apply onBit_kept | apply tallyExtend_kept | apply Kept.foldl | rfl)
      | (intro _) | with_reducible apply Kept.ite | split | with_reducible refine Kept.mk' ?_ ?_ ?_ ?_

theorem mbWrite_kept {s₀ : State} {m : Master} {o : Nat} {v : Word} {s : State} (hK : Kept s₀ s) : Kept s₀
    (mbWrite s m o v) := by
  unfold mbWrite
  repeat' first
      | (with_reducible first
          | assumption | apply mbSend_kept | apply wr_kept | apply mbPop_kept | apply modBox_kept
          | apply mbDevWrite_kept | apply bulkWrite_kept | apply Kept.foldl | rfl)
      | (intro _) | with_reducible apply Kept.ite | split | with_reducible refine Kept.mk' ?_ ?_ ?_ ?_

theorem bcCtlWrite_kept {s₀ : State} {m : Master} {v : Word} {s : State} (hK : Kept s₀ s) : Kept s₀ (bcCtlWrite s
    m v) := by
  unfold bcCtlWrite
  repeat' first
      | (with_reducible first | assumption | apply bcastGo_kept | apply onBit_kept | apply Kept.foldl | rfl)
      | (intro _) | with_reducible apply Kept.ite | split | with_reducible refine Kept.mk' ?_ ?_ ?_ ?_

theorem fbWrite_kept {s₀ : State} {m : Master} {o : Nat} {v : Word} {s : State} (hK : Kept s₀ s) : Kept s₀
    (fbWrite s m o v) := by
  unfold fbWrite
  repeat' first
      | (with_reducible first
          | assumption | apply wr_kept | apply bcCtlWrite_kept | apply snapStart_kept | apply freset_kept
          | apply rediscover_kept | apply modSnap_kept | apply onBit_kept | apply serveWrite_kept | apply arrive_kept
          | apply relayQueue_kept | apply Kept.foldl | rfl)
      | (intro _) | with_reducible apply Kept.ite | split | with_reducible refine Kept.mk' ?_ ?_ ?_ ?_

theorem tsArmWrite_kept {s₀ : State} {v : Word} {s : State} (hK : Kept s₀ s) : Kept s₀ (tsArmWrite s v) := by
  unfold tsArmWrite
  repeat' first
      | (with_reducible first | assumption | apply tsArm_kept | apply Kept.foldl | rfl) | (intro _)
      | with_reducible apply Kept.ite | split | with_reducible refine Kept.mk' ?_ ?_ ?_ ?_

theorem checkinWrite_kept {s₀ : State} {c : Core} {v : Word} {s : State} (hK : Kept s₀ s) : Kept s₀ (checkinWrite
    s c v) := by
  unfold checkinWrite
  repeat' first
      | (with_reducible first | assumption | apply tsCheckin_kept | apply Kept.foldl | rfl) | (intro _)
      | with_reducible apply Kept.ite | split | with_reducible refine Kept.mk' ?_ ?_ ?_ ?_

theorem wdOneWrite_kept {s₀ : State} {c : Core} {w : Fin 5} {r : Nat} {v : Word} {s : State} (hK : Kept s₀ s) :
    Kept s₀ (wdOneWrite s c w r v) := by
  unfold wdOneWrite
  repeat' first
      | (with_reducible first
          | assumption | apply modWd_kept | apply onBit_kept | apply wdStoke_kept | apply wdArm_kept
          | apply Kept.foldl | rfl)
      | (intro _) | with_reducible apply Kept.ite | split | with_reducible refine Kept.mk' ?_ ?_ ?_ ?_

theorem wdWrite_kept {s₀ : State} {m : Master} {o : Nat} {v : Word} {s : State} (hK : Kept s₀ s) : Kept s₀
    (wdWrite s m o v) := by
  unfold wdWrite
  repeat' first
      | (with_reducible first
          | assumption | apply wdOneWrite_kept | apply modAo_kept | apply modTs_kept | apply tsArmWrite_kept
          | apply checkinWrite_kept | exact memWrite_wf _ _ (by with_reducible assumption))
      | exact memWf_nil 0 | (with_reducible first | apply Kept.foldl | rfl) | (intro _)
      | with_reducible apply Kept.ite | split | with_reducible refine Kept.mk' ?_ ?_ ?_ ?_

theorem prWrite_kept {s₀ : State} {m : Master} {o : Nat} {v : Word} {s : State} (hK : Kept s₀ s) : Kept s₀
    (prWrite s m o v) := by
  unfold prWrite
  repeat' first
      | (with_reducible first
          | assumption | apply pairYield_kept | apply wr_kept | apply pairMsgPop_kept | apply pairMsgSend_kept
          | apply onBit_kept | apply Kept.foldl | rfl)
      | (intro _) | with_reducible apply Kept.ite | split | with_reducible refine Kept.mk' ?_ ?_ ?_ ?_

theorem sramWrite_kept {s₀ : State} {o : Nat} {v : Word} {s : State} (hK : Kept s₀ s) : Kept s₀ (sramWrite s o v) := by
  unfold sramWrite
  repeat' first
      | (with_reducible first | assumption | apply modAo_kept | exact memWrite_wf _ _ (by with_reducible assumption))
      | exact memWf_nil 0 | (with_reducible first | apply Kept.foldl | rfl) | (intro _)
      | with_reducible apply Kept.ite | split | with_reducible refine Kept.mk' ?_ ?_ ?_ ?_

theorem tpWrite_kept {s₀ : State} {m : Master} {o : Nat} {v : Word} {s : State} (hK : Kept s₀ s) : Kept s₀
    (tpWrite s m o v) := by
  unfold tpWrite
  repeat' first
      | (with_reducible first
          | assumption | apply softAlarm_kept | apply modAo_kept | apply wr_kept | apply rtcLoad_kept
          | apply holdClear_kept | apply onBit_kept | apply sramWrite_kept
          | exact memWrite_wf _ _ (by with_reducible assumption))
      | exact memWf_nil 0 | (with_reducible first | apply Kept.foldl | rfl) | (intro _)
      | with_reducible apply Kept.ite | split | with_reducible refine Kept.mk' ?_ ?_ ?_ ?_

theorem winWrite_kept {s₀ : State} {m : Master} {w o : Nat} {v : Word} {s : State} (hK : Kept s₀ s) : Kept s₀
    (winWrite s m w o v) := by
  unfold winWrite
  repeat' first
      | (with_reducible first
          | assumption | apply chWrite_kept | apply tpWrite_kept | apply veWrite_kept | apply sqWrite_kept
          | apply gcWrite_kept | apply prWrite_kept | apply btWrite_kept | apply heWrite_kept | apply mbWrite_kept
          | apply pdWrite_kept | apply stWrite_kept | apply lcWrite_kept | apply inWrite_kept | apply kvWrite_kept
          | apply ecWrite_kept | apply wdWrite_kept | apply fbWrite_kept | apply grWrite_kept | apply Kept.foldl
          | rfl)
      | (intro _) | with_reducible apply Kept.ite | split | with_reducible refine Kept.mk' ?_ ?_ ?_ ?_

theorem regWrite_kept {s₀ : State} {m : Master} {a : Nat} {v : Word} {s : State} (hK : Kept s₀ s) : Kept s₀
    (regWrite s m a v) := by
  unfold regWrite
  repeat' first
      | (with_reducible first | assumption | apply winWrite_kept | apply Kept.foldl | rfl) | (intro _)
      | with_reducible apply Kept.ite | split | with_reducible refine Kept.mk' ?_ ?_ ?_ ?_

theorem rcShare_kept {s₀ : State} {w o : Nat} {e : ReadFx} {s : State} (hK : Kept s₀ s) : Kept s₀ (rcShare s w o
    e) := by
  unfold rcShare
  repeat' first
      | (with_reducible first | assumption | apply Kept.foldl | rfl) | (intro _) | with_reducible apply Kept.ite
      | split | with_reducible refine Kept.mk' ?_ ?_ ?_ ?_

theorem gcReadFx_kept {s₀ : State} {o : Nat} {e : ReadFx} {s : State} (hK : Kept s₀ s) : Kept s₀ (gcReadFx s o e) := by
  unfold gcReadFx
  repeat' first
      | (with_reducible first | assumption | apply modPortal_kept | apply Kept.foldl | rfl) | (intro _)
      | with_reducible apply Kept.ite | split | with_reducible refine Kept.mk' ?_ ?_ ?_ ?_

theorem chReadFx_kept {s₀ : State} {m : Master} {w o : Nat} {e : ReadFx} {s : State} (hK : Kept s₀ s) : Kept s₀
    (chReadFx s m w o e) := by
  unfold chReadFx
  repeat' first
      | (with_reducible first | assumption | apply modCh_kept | apply modSel_kept | apply Kept.foldl | rfl)
      | (intro _) | with_reducible apply Kept.ite | split | with_reducible refine Kept.mk' ?_ ?_ ?_ ?_

theorem veReadFx_kept {s₀ : State} {o : Nat} {v : Word} {s : State} (hK : Kept s₀ s) : Kept s₀ (veReadFx s o v) := by
  unfold veReadFx
  repeat' first
      | (with_reducible first | assumption | apply modCh_kept | apply Kept.foldl | rfl) | (intro _)
      | with_reducible apply Kept.ite | split | with_reducible refine Kept.mk' ?_ ?_ ?_ ?_

theorem ecReadFx_kept {s₀ : State} {o : Nat} {v : Word} {s : State} (hK : Kept s₀ s) : Kept s₀ (ecReadFx s o v) := by
  unfold ecReadFx
  repeat' first
      | (with_reducible first | assumption | apply Kept.foldl | rfl) | (intro _) | with_reducible apply Kept.ite
      | split | with_reducible refine Kept.mk' ?_ ?_ ?_ ?_

theorem btReadFx_kept {s₀ : State} {o : Nat} {v : Word} {s : State} (hK : Kept s₀ s) : Kept s₀ (btReadFx s o v) := by
  unfold btReadFx
  repeat' first
      | (with_reducible first | assumption | apply Kept.foldl | rfl) | (intro _) | with_reducible apply Kept.ite
      | split | with_reducible refine Kept.mk' ?_ ?_ ?_ ?_

theorem mbReadFx_kept {s₀ : State} {m : Master} {o : Nat} {v : Word} {s : State} (hK : Kept s₀ s) : Kept s₀
    (mbReadFx s m o v) := by
  unfold mbReadFx
  repeat' first
      | (with_reducible first | assumption | apply tallySnap_kept | apply lockRead_kept | apply Kept.foldl | rfl)
      | (intro _) | with_reducible apply Kept.ite | split | with_reducible refine Kept.mk' ?_ ?_ ?_ ?_

theorem fbReadFx_kept {s₀ : State} {o : Nat} {v : Word} {s : State} (hK : Kept s₀ s) : Kept s₀ (fbReadFx s o v) := by
  unfold fbReadFx
  repeat' first
      | (with_reducible first | assumption | apply modFlue_kept | apply Kept.foldl | rfl) | (intro _)
      | with_reducible apply Kept.ite | split | with_reducible refine Kept.mk' ?_ ?_ ?_ ?_

theorem prReadFx_kept {s₀ : State} {o : Nat} {v : Word} {s : State} (hK : Kept s₀ s) : Kept s₀ (prReadFx s o v) := by
  unfold prReadFx
  repeat' first
      | (with_reducible first | assumption | apply Kept.foldl | rfl) | (intro _) | with_reducible apply Kept.ite
      | split | with_reducible refine Kept.mk' ?_ ?_ ?_ ?_

theorem winReadFx_kept {s₀ : State} {m : Master} {w o : Nat} {e : ReadFx} {s : State} (hK : Kept s₀ s) : Kept s₀
    (winReadFx s m w o e) := by
  unfold winReadFx
  repeat' first
      | (with_reducible first
          | assumption | apply fbReadFx_kept | apply btReadFx_kept | apply ecReadFx_kept | apply gcReadFx_kept
          | apply rtcLatch_kept | apply mbReadFx_kept | apply prReadFx_kept | apply chReadFx_kept
          | apply veReadFx_kept | apply Kept.foldl | rfl)
      | (intro _) | with_reducible apply Kept.ite | split | with_reducible refine Kept.mk' ?_ ?_ ?_ ?_

theorem regReadFx_kept {s₀ : State} {m : Master} {e : ReadFx} {s : State} (hK : Kept s₀ s) : Kept s₀ (regReadFx s
    m e) := by
  unfold regReadFx
  repeat' first
      | (with_reducible first | assumption | apply rcShare_kept | apply winReadFx_kept | apply Kept.foldl | rfl)
      | (intro _) | with_reducible apply Kept.ite | split | with_reducible refine Kept.mk' ?_ ?_ ?_ ?_

theorem readAt_kept {s₀ : State} {m : Master} {a : Nat} {s : State} (hK : Kept s₀ s) : Kept s₀ (readAt s m a) := by
  unfold readAt
  repeat' first
      | (with_reducible first | assumption | apply regReadFx_kept | apply Kept.foldl | rfl) | (intro _)
      | with_reducible apply Kept.ite | split | with_reducible refine Kept.mk' ?_ ?_ ?_ ?_

end Sys2Proof.Machine
end

