-- ==== Sys2Proof/Laws/CoreRun.lean ====
section
/-! SUPPORT. What each operation of Machine/CoreRun.lean keeps (`Kept`). -/

set_option linter.unusedTactic false
set_option linter.unreachableTactic false

namespace Sys2Proof.Machine

/-- The state an end of an instruction holds. -/
def RvEnd.state : RvEnd → State
  | .done s => s
  | .trap _ _ s => s
  | .stall s => s

/-- What an instruction keeps, where it is a legal one. -/
def RvEnd.Ok (s₀ : State) : Option RvEnd → Prop
  | none => True
  | some e => Kept s₀ e.state

theorem Kept.done {s₀ t : State} (h : Kept s₀ t) : Kept s₀ (RvEnd.done t).state := h

theorem Kept.stall {s₀ t : State} (h : Kept s₀ t) : Kept s₀ (RvEnd.stall t).state := h

theorem Kept.legal {s₀ : State} {e : RvEnd} (h : Kept s₀ e.state) : RvEnd.Ok s₀ (some e) := h

theorem Kept.ite_end {s₀ : State} {c : Prop} [Decidable c] {a b : RvEnd} (ha : Kept s₀ a.state) (hb : Kept s₀ b.state) :
    Kept s₀ (if c then a else b).state := by
  split
  · exact ha
  · exact hb

theorem RvEnd.Ok.ite {s₀ : State} {c : Prop} [Decidable c] {a b : Option RvEnd} (ha : RvEnd.Ok s₀ a) (hb :
    RvEnd.Ok s₀ b) :
    RvEnd.Ok s₀ (if c then a else b) := by
  split
  · exact ha
  · exact hb

theorem RvEnd.Ok.map {s₀ : State} {β : Type} {o : Option β} {f : β → RvEnd} (h : ∀ x, Kept s₀ (f x).state) :
    RvEnd.Ok s₀ (o.map f) := by
  cases o with
  | none => trivial
  | some x => exact h x

theorem RvEnd.Ok.get {s₀ : State} {o : Option RvEnd} {t : RvEnd} (h : RvEnd.Ok s₀ o) (e : o = some t) : Kept s₀
    t.state := by
  rw [e] at h
  exact h

theorem rvTrapEntry_kept {s₀ : State} {c : Core} {int : Bool} {cause : Nat} {tval : Word} {s : State} (hK : Kept s₀ s) :
    Kept s₀ (rvTrapEntry s c int cause tval) := modCore_kept hK

theorem rvException_kept {s₀ : State} {c : Core} {cause : Nat} {tval : Word} {s : State} (hK : Kept s₀ s) :
    Kept s₀ (rvException s c cause tval) := by
  unfold rvException
  split
  · exact modCore_kept (nmiCauseBit_kept hK)
  · exact rvTrapEntry_kept hK

theorem rvFinish_kept {s₀ : State} {c : Core} {e : RvEnd} (h : Kept s₀ e.state) : Kept s₀ (rvFinish c e) := by
  cases e with
  | done s => exact h
  | stall s => exact h
  | trap cause tval s => exact rvException_kept h

theorem memTrap_kept {s₀ : State} {c : Core} {user : Bool} {k : MemKind} {f : MemFault} {va : Nat} {s : State} (hK
    : Kept s₀ s) :
    Kept s₀ (memTrap s c user k f va).state := Kept.mk' hK rfl rfl rfl

theorem memParity_kept {s₀ : State} {f : MemFault} {s : State} (hK : Kept s₀ s) : Kept s₀ (memParity s f) :=
  Kept.ite (parityCount_kept hK) hK

theorem fetchHalf_kept2 {s₀ : State} {c : Core} {va : Nat} {s : State} (hK : Kept s₀ s) : Kept s₀ (fetchHalf s c
    va).2 := by
  unfold fetchHalf
  split
  · exact memParity_kept (coreTranslate_kept hK (by assumption))
  · next s1 e =>
    have h1 : Kept s₀ s1 := coreTranslate_kept hK e
    dsimp only
    split
    · split
      · exact h1
      · split
        · exact parityCount_kept h1
        · dsimp only
          exact modCore_kept h1
    · split
      · exact parityCount_kept h1
      · dsimp only
        exact modCore_kept h1

theorem fetchHalf_kept {s₀ : State} {c : Core} {va : Nat} {s : State} {p0 t} (hK : Kept s₀ s) (e : fetchHalf s c
    va = (p0, t)) :
    Kept s₀ t := Kept.of_pair e (fetchHalf_kept2 hK)

theorem rvFetchFault_kept {s₀ : State} {c : Core} {f : MemFault} {va : Nat} {s : State} (hK : Kept s₀ s) :
    Kept s₀ (rvFetchFault s c f va) := by
  have h := memTrap_kept (c := c) (user := (s.he.cores[c]).user) (k := .fetch) (f := f) (va := va) hK
  unfold rvFetchFault
  dsimp only
  revert h
  cases memTrap s c (s.he.cores[c]).user .fetch f va with
  | trap cause tval t =>
    intro h
    exact Kept.ite (nmiTrap_kept h) (rvException_kept h)
  | done t => exact id
  | stall t => exact id

theorem rvRetire_kept {s₀ : State} {c : Core} {pc : Word} {s : State} (hK : Kept s₀ s) : Kept s₀ (rvRetire s c pc)
    := modCore_kept hK

theorem rvPut_kept {s₀ : State} {c : Core} {r : Nat} {v : Word} {s : State} (hK : Kept s₀ s) : Kept s₀ (rvPut s c
    r v) := by
  unfold rvPut
  split
  · exact modCore_kept hK
  · exact hK

theorem rvLoadReg_kept {s₀ : State} {c : Core} {o : Nat} {k : Nat → State → RvEnd} {s : State}
    (hK : Kept s₀ s) (hk : ∀ v t, Kept s₀ t → Kept s₀ (k v t).state) : Kept s₀ (rvLoadReg s c o k).state := by
  unfold rvLoadReg
  split
  · exact Kept.ite_end (hk _ _ (regReadFx_kept hK)) (hk _ _ hK)
  · exact hk _ _ hK

theorem rvLoad_kept {s₀ : State} {c : Core} {os : OsAnswer} {va n : Nat} {k : Nat → State → RvEnd} {s : State}
    (hK : Kept s₀ s) (hk : ∀ v t, Kept s₀ t → Kept s₀ (k v t).state) : Kept s₀ (rvLoad s c os va n k).state := by
  unfold rvLoad
  extract_lets user
  refine Kept.ite_end hK ?_
  split
  · exact memTrap_kept (memParity_kept (coreTranslate_kept hK (by assumption)))
  · next pa s1 e =>
    have h1 : Kept s₀ s1 := coreTranslate_kept hK e
    have bad : ∀ (b : Bool) (pa : Nat), Kept s₀ (if b then memTrap (parityCount s1) c user .load (plainFault 4) va
        else k (leNat (codeBytes s1 c pa n)) s1).state :=
      fun _ _ => Kept.ite_end (memTrap_kept (parityCount_kept h1)) (hk _ _ h1)
    generalize rowOf _ = row
    cases row with
    | none => exact bad _ _
    | some r =>
      cases r
      case regs => exact rvLoadReg_kept h1 hk
      case otp => exact hk _ _ h1
      case ownStore => exact Kept.ite_end (memTrap_kept h1) (Kept.ite_end (Kept.stall (modCore_kept (osEnq_kept
          h1))) (hk _ _ h1))
      all_goals exact bad _ _

theorem rvStore_kept {s₀ : State} {c : Core} {pc : Word} {va n : Nat} {v : Word} {s : State} (hK : Kept s₀ s) :
    Kept s₀ (rvStore s c pc va n v).state := by
  unfold rvStore
  dsimp only
  refine Kept.ite_end hK ?_
  split
  · exact memTrap_kept (memParity_kept (coreTranslate_kept hK (by assumption)))
  · next s1 e =>
    have h1 : Kept s₀ s1 := coreTranslate_kept hK e
    split
    · exact Kept.done (ramWrite_kept (rvRetire_kept h1))
    · exact Kept.done (regWrite_kept (rvRetire_kept h1))

theorem rvAtomic_ok {s₀ : State} {c : Core} {pc w : Word} {s : State} (hK : Kept s₀ s) : RvEnd.Ok s₀ (rvAtomic s c
    pc w) := by
  unfold rvAtomic
  dsimp only
  refine .ite trivial (.ite trivial (.ite hK ?_))
  show Kept s₀ (RvEnd.state _)
  split
  · exact memTrap_kept (memParity_kept (coreTranslate_kept hK (by assumption)))
  · next s1 e =>
    have h1 : Kept s₀ s1 := coreTranslate_kept hK e
    split
    · exact memTrap_kept h1
    · refine Kept.ite_end (Kept.ite_end ?_ ?_) (Kept.ite_end ?_ (Kept.ite_end ?_ ?_))
      · exact Kept.done (ramWrite_kept (rvRetire_kept (modCore_kept (rvPut_kept h1))))
      · exact Kept.done (rvRetire_kept (modCore_kept (rvPut_kept h1)))
      · exact memTrap_kept (parityCount_kept h1)
      · exact Kept.done (rvRetire_kept (modCore_kept (rvPut_kept h1)))
      · exact Kept.done (ramWrite_kept (rvRetire_kept (rvPut_kept h1)))

theorem enterDebug_kept {s₀ : State} {c : Core} {cause : Nat} {s : State} (hK : Kept s₀ s) : Kept s₀ (enterDebug s
    c cause) :=
  modCore_kept (osDequeue_kept hK)

theorem rvMret_kept {s₀ : State} {c : Core} {s : State} (hK : Kept s₀ s) : Kept s₀ (rvMret s c) := by
  unfold rvMret
  dsimp only
  exact modCore_kept (rvRetire_kept hK)

theorem rvSetCycle_kept {s₀ : State} {c : Core} {v : BitVec 64} {s : State} (hK : Kept s₀ s) : Kept s₀ (rvSetCycle
    s c v) :=
  modCore_kept hK

theorem csrWrite_kept {s₀ : State} {c : Core} {a : Nat} {v : Word} {s : State} (hK : Kept s₀ s) : Kept s₀
    (csrWrite s c a v) := by
  unfold csrWrite
  dsimp only
  split
  all_goals first
    | exact hK
    | exact modCore_kept hK
    | exact rvSetCycle_kept (modCore_kept hK)
    | exact rvSetCycle_kept hK

theorem rvCsr_ok {s₀ : State} {c : Core} {pc w : Word} {s : State} (hK : Kept s₀ s) : RvEnd.Ok s₀ (rvCsr s c pc w) := by
  unfold rvCsr
  dsimp only
  split
  · trivial
  · refine .ite trivial ?_
    show Kept s₀ (RvEnd.state _)
    exact Kept.ite (csrWrite_kept (rvRetire_kept (rvPut_kept hK))) (rvRetire_kept (rvPut_kept hK))

theorem rvSystem_ok {s₀ : State} {c : Core} {pc w : Word} {s : State} (hK : Kept s₀ s) : RvEnd.Ok s₀ (rvSystem s c
    pc w) := by
  unfold rvSystem
  dsimp only
  refine .ite (.ite trivial ?_) (.ite trivial (rvCsr_ok hK))
  split
  · exact hK
  · exact .ite (enterDebug_kept hK) (useFree_kept hK)
  · exact .ite trivial (rvMret_kept hK)
  · refine .ite trivial ?_
    show Kept s₀ (RvEnd.state _)
    exact Kept.ite (modCore_kept (rvRetire_kept hK)) (rvRetire_kept hK)
  · trivial

theorem rvRun_ok {s₀ : State} {c : Core} {os : OsAnswer} {next w : Word} {s : State} (hK : Kept s₀ s) :
    RvEnd.Ok s₀ (rvRun s c os next w) := by
  unfold rvRun
  dsimp only
  split
  · exact rvRetire_kept (rvPut_kept hK)
  · exact rvRetire_kept (rvPut_kept hK)
  · exact rvRetire_kept (rvPut_kept hK)
  · exact .ite trivial (rvRetire_kept (rvPut_kept hK))
  · exact .map fun _ => rvRetire_kept hK
  · exact .ite trivial (rvLoad_kept hK fun _ _ h => rvRetire_kept (rvPut_kept h))
  · exact .ite trivial (rvStore_kept hK)
  · exact .map fun _ => rvRetire_kept (rvPut_kept hK)
  · exact .map fun _ => rvRetire_kept (rvPut_kept hK)
  · exact .ite (rvRetire_kept hK) (.ite (Kept.legal (Kept.done (modCore_kept (rvRetire_kept hK)))) trivial)
  · exact rvAtomic_ok hK
  · exact rvSystem_ok hK
  · trivial

theorem rvIllegal_kept {s₀ : State} {c : Core} {bits : Word} {s : State} (hK : Kept s₀ s) : Kept s₀ (rvIllegal s c
    bits) :=
  rvException_kept (useFree_kept hK)

theorem rvInstr_kept {s₀ : State} {c : Core} {os : OsAnswer} {s : State} (hK : Kept s₀ s) : Kept s₀ (rvInstr s c
    os) := by
  unfold rvInstr
  dsimp only
  split
  · exact rvFetchFault_kept (fetchHalf_kept hK (by assumption))
  · next s1 e =>
    have h1 : Kept s₀ s1 := fetchHalf_kept hK e
    refine Kept.ite ?_ ?_
    · split
      · split
        · exact rvFinish_kept ((rvRun_ok h1).get (by assumption))
        · exact rvIllegal_kept h1
      · exact rvIllegal_kept h1
    · split
      · exact rvFetchFault_kept (fetchHalf_kept h1 (by assumption))
      · next s2 e2 =>
        have h2 : Kept s₀ s2 := fetchHalf_kept h1 e2
        split
        · exact rvFinish_kept ((rvRun_ok h2).get (by assumption))
        · exact rvIllegal_kept h2

theorem osLeave_kept {s₀ : State} {c : Core} {s : State} (hK : Kept s₀ s) : Kept s₀ (osLeave s c) := by
  unfold osLeave
  repeat' first
      | (with_reducible first | assumption | apply osDequeue_kept | apply modCore_kept | apply Kept.foldl | rfl)
      | (intro _) | with_reducible apply Kept.ite | split | with_reducible refine Kept.mk' ?_ ?_ ?_ ?_

theorem nmiHandler_kept {s₀ : State} {c : Core} {s : State} (hK : Kept s₀ s) : Kept s₀ (nmiHandler s c) := by
  unfold nmiHandler
  repeat' first
      | (with_reducible first | assumption | apply modCore_kept | apply Kept.foldl | rfl) | (intro _)
      | with_reducible apply Kept.ite | split | with_reducible refine Kept.mk' ?_ ?_ ?_ ?_

theorem coreInstr_kept {s₀ : State} {c : Core} {parity : Option Word} {s : State} (hK : Kept s₀ s) : Kept s₀
    (coreInstr s c parity) := by
  unfold coreInstr
  repeat' first
      | (with_reducible first
          | assumption | apply ramSpoil_kept | apply modCore_kept | apply osLeave_kept | apply enterDebug_kept
          | apply rvTrapEntry_kept | apply nmiHandler_kept | apply rvInstr_kept | apply Kept.foldl | rfl)
      | (intro _) | with_reducible apply Kept.ite | split | with_reducible refine Kept.mk' ?_ ?_ ?_ ?_

theorem ownStoreRead_kept {s₀ : State} {c : Core} {failed : Bool} {s : State} (hK : Kept s₀ s) : Kept s₀
    (ownStoreRead s c failed) := by
  unfold ownStoreRead
  repeat' first
      | (with_reducible first | assumption) | refine osGrant_kept ?_ (by with_reducible assumption)
      | (with_reducible first | apply osLeave_kept | apply rvInstr_kept | apply Kept.foldl | rfl) | (intro _)
      | with_reducible apply Kept.ite | split | with_reducible refine Kept.mk' ?_ ?_ ?_ ?_

end Sys2Proof.Machine
end

