-- ==== Sys2Proof/Laws/Dma.lean ====
section
/-! SUPPORT. What each operation of Machine/Dma.lean keeps (`Kept`). -/

set_option linter.unusedTactic false
set_option linter.unreachableTactic false

namespace Sys2Proof.Machine

/-- The state an answer of the DMA holds. -/
def DmaIn.state : DmaIn → State
  | .ok _ s => s
  | .bad _ s => s
  | .wait s => s

theorem Kept.ite_in {s₀ : State} {c : Prop} [Decidable c] {a b : DmaIn} (ha : Kept s₀ a.state) (hb : Kept s₀ b.state) :
    Kept s₀ (if c then a else b).state := by
  split
  · exact ha
  · exact hb

theorem Kept.bad {s₀ t : State} {c : Nat} (h : Kept s₀ t) : Kept s₀ (DmaIn.bad c t).state := h

theorem Kept.gave {s₀ t : State} {bs : List Byte} (h : Kept s₀ t) : Kept s₀ (DmaIn.ok bs t).state := h

theorem DmaIn.get {s₀ : State} {x y : DmaIn} (h : Kept s₀ x.state) (e : x = y) : Kept s₀ y.state := e ▸ h

theorem beatRegs_kept {s₀ : State} {fixed : Bool} {a : Nat} {bs : List Byte} {s : State} (hK : Kept s₀ s) :
    Kept s₀ (beatRegs fixed a bs s) := by
  fun_induction beatRegs fixed a bs s with
  | case1 a b0 b1 b2 b3 bs s ih => exact ih (regWrite_kept hK)
  | case2 => exact hK

theorem dmaWrite_kept2 {s₀ : State} {k : Fin 16} {va : Nat} {fixed : Bool} {bs : List Byte} {s : State} (hK : Kept
    s₀ s) : Kept s₀ (dmaWrite s k va fixed bs).2 := by
  unfold dmaWrite
  repeat' first
      | (with_reducible first | assumption | apply ramWrite_kept | apply memParity_kept | apply dmaTranslate_kept2)
      | refine dmaTranslate_kept ?_ (by with_reducible assumption)
      | (with_reducible first | apply beatRegs_kept | apply Kept.foldl | rfl) | (intro _)
      | with_reducible apply Kept.ite | split | with_reducible refine Kept.mk' ?_ ?_ ?_ ?_

theorem dmaWrite_kept {s₀ : State} {k : Fin 16} {va : Nat} {fixed : Bool} {bs : List Byte} {s : State} {p0 t} (hK
    : Kept s₀ s) (e : (dmaWrite s k va fixed bs) = (p0, t)) : Kept s₀ t := by
  have := dmaWrite_kept2 (k := k) (va := va) (fixed := fixed) (bs := bs) hK
  rw [e] at this
  exact this

theorem dmaFault_kept {s₀ : State} {k : Fin 16} {code va : Nat} {s : State} (hK : Kept s₀ s) : Kept s₀ (dmaFault s
    k code va) := by
  unfold dmaFault
  repeat' first
      | (with_reducible first
          | assumption | apply dmaBillet_kept | apply dmaOffMover_kept | apply modDma_kept | apply dmaGrant_kept
          | apply Kept.foldl | rfl)
      | (intro _) | with_reducible apply Kept.ite | split | with_reducible refine Kept.mk' ?_ ?_ ?_ ?_

theorem dmaRetire_kept {s₀ : State} {k : Fin 16} {s : State} (hK : Kept s₀ s) : Kept s₀ (dmaRetire s k) := by
  unfold dmaRetire
  repeat' first
      | (with_reducible first
          | assumption | apply dmaOffMover_kept | apply settleAll_kept | apply modDma_kept | apply dmaGrant_kept
          | apply retire_kept | apply Kept.foldl | rfl)
      | (intro _) | with_reducible apply Kept.ite | split | with_reducible refine Kept.mk' ?_ ?_ ?_ ?_

theorem dmaPreempt_kept {s₀ : State} {k : Fin 16} {s : State} (hK : Kept s₀ s) : Kept s₀ (dmaPreempt s k) := by
  unfold dmaPreempt
  repeat' first
      | (with_reducible first
          | assumption | apply dmaOffMover_kept | apply dmaBillet_kept | apply modDma_kept | apply dmaGrant_kept
          | apply Kept.foldl | rfl)
      | (intro _) | with_reducible apply Kept.ite | split | with_reducible refine Kept.mk' ?_ ?_ ?_ ?_

theorem dmaDescEnd_kept {s₀ : State} {k : Fin 16} {d : Vector Word 8} {s : State} (hK : Kept s₀ s) : Kept s₀
    (dmaDescEnd s k d) := by
  unfold dmaDescEnd
  repeat' first
      | (with_reducible first | assumption | apply dmaPreempt_kept | apply dmaRetire_kept | apply dmaWrite_kept2)
      | refine dmaWrite_kept ?_ (by with_reducible assumption)
      | (with_reducible first | apply dmaFault_kept | apply modDma_kept | apply Kept.foldl | rfl) | (intro _)
      | with_reducible apply Kept.ite | split | with_reducible refine Kept.mk' ?_ ?_ ?_ ?_

theorem dmaRegRead_kept2 {s₀ : State} {fixed : Bool} {a1 a2 : Nat} {a3 : State} (hK : Kept s₀ a3) : Kept s₀
    (dmaRegRead fixed a1 a2 a3).2 := by
  induction a1 generalizing a2 a3 with
  | zero =>
    unfold dmaRegRead
    repeat' first
        | (with_reducible first | assumption | apply regReadFx_kept | apply Kept.foldl | rfl) | (intro _)
        | with_reducible apply Kept.ite | split | with_reducible refine Kept.mk' ?_ ?_ ?_ ?_
  | succ _ ih =>
    unfold dmaRegRead
    repeat' first
        | with_reducible apply ih | (with_reducible first
            | assumption | apply regReadFx_kept | apply Kept.foldl | rfl)
        | (intro _) | with_reducible apply Kept.ite | split | with_reducible refine Kept.mk' ?_ ?_ ?_ ?_

theorem dmaRegRead_kept {s₀ : State} {fixed : Bool} {a1 a2 : Nat} {a3 : State} {p0 t} (hK : Kept s₀ a3) (e :
    (dmaRegRead fixed a1 a2 a3) = (p0, t)) : Kept s₀ t := by
  have := dmaRegRead_kept2 (fixed := fixed) (a1 := a1) (a2 := a2) hK
  rw [e] at this
  exact this

theorem beatRead_kept {s₀ : State} {k : Fin 16} {va n : Nat} {fixed failed : Bool} {s : State} (hK : Kept s₀ s) :
    Kept s₀ (beatRead s k va n fixed failed).state := by
  unfold beatRead
  split
  · exact Kept.bad (memParity_kept (dmaTranslate_kept hK (by assumption)))
  · next pa s1 e =>
    have h1 : Kept s₀ s1 := dmaTranslate_kept hK e
    have ram : Kept s₀ (if ramBad s1 pa n then DmaIn.bad 4 (parityCount s1) else .ok (ramRead s1 pa n) s1).state :=
      Kept.ite_in (Kept.bad (parityCount_kept h1)) (Kept.gave h1)
    have grant : ∀ t : State, Kept s₀ t → Kept s₀ (match osGrant t k.val with
        | some s => DmaIn.ok (memRead 0xFF s.os.mem (pa - 0x50000000) n) (osDequeue s k.val)
        | none => .wait t).state := by
      intro t ht
      generalize hg : osGrant t k.val = g
      cases g with
      | none => exact ht
      | some u => exact Kept.gave (osDequeue_kept (osGrant_kept ht hg))
    generalize rowOf _ = row
    cases row with
    | none => exact ram
    | some r =>
      cases r
      case rom => exact Kept.gave h1
      case regs =>
        refine Kept.ite_in (Kept.bad h1) ?_
        generalize hr : dmaRegRead fixed (n / 4) _ s1 = q
        obtain ⟨bs, t⟩ := q
        exact Kept.gave (dmaRegRead_kept h1 hr)
      case ownStore =>
        refine Kept.ite_in (Kept.bad (osDequeue_kept h1)) ?_
        exact grant _ (osAsk_kept h1)
      all_goals exact ram

theorem dmaEmber_kept {s₀ : State} {k : Fin 16} {d : Vector Word 8} {p n : Nat} {bad : Bool} {s : State} (hK :
    Kept s₀ s) :
    Kept s₀ (dmaEmber s k d p n bad).state := by
  unfold dmaEmber
  split
  · exact hK
  · exact Kept.ite_in hK <| Kept.ite_in hK (Kept.ite_in (Kept.bad (frameParity_kept hK)) (Kept.gave (modDma_kept hK)))

theorem dmaFetch_kept2 {s₀ : State} {k : Fin 16} {d : Vector Word 8} {p n : Nat} {bad : Bool} {s : State} (hK :
    Kept s₀ s) :
    Kept s₀ (dmaFetch s k d p n bad).1.state := by
  unfold dmaFetch
  split
  · exact beatRead_kept hK
  · exact hK
  · exact dmaEmber_kept hK

theorem dmaFetch_kept {s₀ : State} {k : Fin 16} {d : Vector Word 8} {p n : Nat} {bad : Bool} {s : State} {x :
    DmaIn} {a : Nat}
    (hK : Kept s₀ s) (e : dmaFetch s k d p n bad = (x, a)) : Kept s₀ x.state := by
  have h := dmaFetch_kept2 (k := k) (d := d) (p := p) (n := n) (bad := bad) hK
  rw [e] at h
  exact h

theorem dmaMove_kept {s₀ : State} {k : Fin 16} {d : Vector Word 8} {bad : Bool} {s : State} (hK : Kept s₀ s) :
    Kept s₀ (dmaMove s k d bad) := by
  unfold dmaMove
  extract_lets p n
  clear_value n p
  refine Kept.ite (dmaDescEnd_kept hK) ?_
  split
  · next e => exact dmaFetch_kept hK e
  · next c t a e =>
    have h1 : Kept s₀ t := dmaFetch_kept hK e
    exact dmaFault_kept h1
  · next bs t a e =>
    have h1 : Kept s₀ t := dmaFetch_kept hK e
    dsimp only
    split
    · exact dmaFault_kept (dmaWrite_kept h1 (by assumption))
    · next u e2 =>
      have h2 : Kept s₀ u := dmaWrite_kept h1 e2
      exact Kept.ite h2 (Kept.ite (dmaDescEnd_kept (modDma_kept h2)) (Kept.ite (dmaPreempt_kept (modDma_kept h2))
          (modDma_kept h2)))

theorem dmaInRegs_kept2 {s₀ : State} {k : Fin 16} {kind : MemKind} {va : Nat} {s : State} (hK : Kept s₀ s) : Kept
    s₀ (dmaInRegs s k kind va).2 := by
  unfold dmaInRegs
  repeat' first
      | (with_reducible first | assumption | apply memParity_kept | apply dmaTranslate_kept2)
      | refine dmaTranslate_kept ?_ (by with_reducible assumption) | (with_reducible first | apply Kept.foldl | rfl)
      | (intro _) | with_reducible apply Kept.ite | split | with_reducible refine Kept.mk' ?_ ?_ ?_ ?_

theorem dmaInRegs_kept {s₀ : State} {k : Fin 16} {kind : MemKind} {va : Nat} {s : State} {p0 t} (hK : Kept s₀ s)
    (e : (dmaInRegs s k kind va) = (p0, t)) : Kept s₀ t := by
  have := dmaInRegs_kept2 (k := k) (kind := kind) (va := va) hK
  rw [e] at this
  exact this

theorem dmaEnd_kept2 {s₀ : State} {k : Fin 16} {kind : MemKind} {va len : Nat} {fixed : Bool} {s : State} (hK :
    Kept s₀ s) : Kept s₀ (dmaEnd s k kind va len fixed).2 := by
  unfold dmaEnd
  repeat' first
      | (with_reducible first | assumption | apply dmaInRegs_kept2)
      | refine dmaInRegs_kept ?_ (by with_reducible assumption) | (with_reducible first | apply Kept.foldl | rfl)
      | (intro _) | with_reducible apply Kept.ite | split | with_reducible refine Kept.mk' ?_ ?_ ?_ ?_

theorem dmaEnd_kept {s₀ : State} {k : Fin 16} {kind : MemKind} {va len : Nat} {fixed : Bool} {s : State} {p0 t}
    (hK : Kept s₀ s) (e : (dmaEnd s k kind va len fixed) = (p0, t)) : Kept s₀ t := by
  have := dmaEnd_kept2 (k := k) (kind := kind) (va := va) (len := len) (fixed := fixed) hK
  rw [e] at this
  exact this

theorem dmaCheck_kept2 {s₀ : State} {k : Fin 16} {d : Vector Word 8} {s : State} (hK : Kept s₀ s) :
    Kept s₀ (dmaCheck s k d).2 := by
  unfold dmaCheck
  split
  · exact hK
  · split
    next e t h =>
      have ht : Kept s₀ t := by
        refine Kept.of_pair h ?_
        split
        · exact dmaEnd_kept2 hK
        · exact hK
      split
      · exact ht
      · exact dmaEnd_kept2 ht

theorem dmaCheck_kept {s₀ : State} {k : Fin 16} {d : Vector Word 8} {s : State} {p0 t} (hK : Kept s₀ s)
    (e : dmaCheck s k d = (p0, t)) : Kept s₀ t := Kept.of_pair e (dmaCheck_kept2 hK)

theorem dmaBeat_kept {s₀ : State} {mv : Fin 4} {parity : Option Word} {s : State} (hK : Kept s₀ s) : Kept s₀
    (dmaBeat s mv parity) := by
  unfold dmaBeat
  split
  · exact hK
  · next k _ _ =>
    extract_lets s1 bad a
    have h1 : Kept s₀ s1 := by
      show Kept s₀ (match parity with | some a => ramSpoil s a.toNat | none => s)
      split
      · exact ramSpoil_kept hK
      · exact hK
    clear_value a s1
    split
    · exact dmaMove_kept h1
    · have h2 := beatRead_kept (k := k) (va := a) (n := 32) (fixed := false) (failed := bad) h1
      split
      · next e => exact DmaIn.get h2 e
      · next e => exact dmaFault_kept (DmaIn.get h2 e)
      · next e =>
        have h3 := DmaIn.get h2 e
        dsimp only
        split
        · exact dmaFault_kept (dmaCheck_kept h3 (by assumption))
        · exact dmaMove_kept (modDma_kept (dmaCheck_kept h3 (by assumption)))

theorem dmaAge_kept {s₀ : State} {k : Fin 16} {s : State} (hK : Kept s₀ s) : Kept s₀ (dmaAge s k) := by
  unfold dmaAge
  repeat' first
      | (with_reducible first
          | assumption | apply reachTime_kept | apply modDma_kept | apply dmaGrant_kept | apply Kept.foldl | rfl)
      | (intro _) | with_reducible apply Kept.ite | split | with_reducible refine Kept.mk' ?_ ?_ ?_ ?_

end Sys2Proof.Machine
end

