-- ==== Sys2Proof/Laws/Portal.lean ====
section
/-! SUPPORT. What each operation of Machine/Portal.lean keeps (`Kept`). -/

set_option linter.unusedTactic false
set_option linter.unreachableTactic false

namespace Sys2Proof.Machine

theorem accessError_kept {s₀ : State} {m : Master} {a : Nat} {k : MemKind} {s : State} (hK : Kept s₀ s) : Kept s₀
    (accessError s m a k) := by
  unfold accessError
  repeat' first
      | (with_reducible first
          | assumption | apply modPortal_kept | apply memTrap_kept | apply rvFinish_kept | apply Kept.foldl | rfl)
      | (intro _) | with_reducible apply Kept.ite | split | with_reducible refine Kept.mk' ?_ ?_ ?_ ?_

theorem writeCmd_kept {s₀ : State} {m : Master} {a : BitVec 24} {width : Nat} {v : Word} {s : State} (hK : Kept s₀
    s) : Kept s₀ (writeCmd s m a width v) := by
  unfold writeCmd
  repeat' first
      | (with_reducible first | assumption | apply regWrite_kept | apply accessError_kept | apply Kept.foldl | rfl)
      | (intro _) | with_reducible apply Kept.ite | split | with_reducible refine Kept.mk' ?_ ?_ ?_ ?_

theorem readCmd_kept {s₀ : State} {m : Master} {a : BitVec 24} {s : State} (hK : Kept s₀ s) : Kept s₀ (readCmd s m
    a) := by
  unfold readCmd
  repeat' first
      | (with_reducible first | assumption | apply accessError_kept | apply readAt_kept | apply Kept.foldl | rfl)
      | (intro _) | with_reducible apply Kept.ite | split | with_reducible refine Kept.mk' ?_ ?_ ?_ ?_

theorem readsFx_kept {s₀ : State} {x : Fin 6} {l : List ReadFx} {s : State} (hK : Kept s₀ s) : Kept s₀ (readsFx s
    x l) := by
  unfold readsFx
  repeat' first
      | (with_reducible first | assumption | apply regReadFx_kept | apply Kept.foldl | rfl) | (intro _)
      | with_reducible apply Kept.ite | split | with_reducible refine Kept.mk' ?_ ?_ ?_ ?_

theorem portalReply_kept {s₀ : State} {x : Fin 6} {st : Nat} {ws : List Word} {fx : List ReadFx} {s : State} (hK :
    Kept s₀ s) : Kept s₀ (portalReply s x st ws fx) := by
  unfold portalReply
  repeat' first
      | (with_reducible first
          | assumption | apply modPortal_kept | apply modI3c_kept | apply readsFx_kept | apply Kept.foldl | rfl)
      | (intro _) | with_reducible apply Kept.ite | split | with_reducible refine Kept.mk' ?_ ?_ ?_ ?_

theorem portalRead_kept {s₀ : State} {x : Fin 6} {f : PortalFrame} {s : State} (hK : Kept s₀ s) : Kept s₀
    (portalRead s x f) := by
  unfold portalRead
  repeat' first
      | (with_reducible first | assumption | apply portalReply_kept | apply Kept.foldl | rfl) | (intro _)
      | with_reducible apply Kept.ite | split | with_reducible refine Kept.mk' ?_ ?_ ?_ ?_

theorem burstWrite_kept {s₀ : State} {x : Fin 6} {w a o : Nat} {ws : List Word} {s : State} (hK : Kept s₀ s) :
    Kept s₀ (burstWrite s x w a o ws) := by
  induction ws generalizing s a o with
  | nil => exact hK
  | cons v vs ih => exact ih (Kept.ite (regWrite_kept hK) hK)

theorem portalApply_kept2 {s₀ : State} {x : Fin 6} {f : PortalFrame} {s : State} (hK : Kept s₀ s) : Kept s₀
    (portalApply s x f).1 := by
  unfold portalApply
  extract_lets st
  split
  · exact hK
  · split
    · exact hK
    · exact burstWrite_kept hK

theorem portalApply_kept {s₀ : State} {x : Fin 6} {f : PortalFrame} {s : State} {p0 t} (hK : Kept s₀ s)
    (e : portalApply s x f = (t, p0)) : Kept s₀ t := by
  have h := portalApply_kept2 (x := x) (f := f) hK
  rw [e] at h
  exact h

theorem portalWrite_kept {s₀ : State} {x : Fin 6} {f : PortalFrame} {s : State} (hK : Kept s₀ s) : Kept s₀
    (portalWrite s x f) := by
  unfold portalWrite
  repeat' first
      | (with_reducible first | assumption | apply portalReply_kept | apply portalBad_kept | apply portalApply_kept2)
      | refine portalApply_kept ?_ (by with_reducible assumption) | (with_reducible first | apply Kept.foldl | rfl)
      | (intro _) | with_reducible apply Kept.ite | split | with_reducible refine Kept.mk' ?_ ?_ ?_ ?_

theorem portalStatus_kept {s₀ : State} {x : Fin 6} {s : State} (hK : Kept s₀ s) : Kept s₀ (portalStatus s x) := by
  unfold portalStatus
  repeat' first
      | (with_reducible first
          | assumption | apply modPortal_kept | apply regReadFx_kept | apply modI3c_kept | apply Kept.foldl | rfl)
      | (intro _) | with_reducible apply Kept.ite | split | with_reducible refine Kept.mk' ?_ ?_ ?_ ?_

theorem portalError_kept {s₀ : State} {x : Fin 6} {unknownFirst : Bool} {s : State} (hK : Kept s₀ s) : Kept s₀
    (portalError s x unknownFirst) := by
  unfold portalError
  repeat' first
      | (with_reducible first | assumption | apply modPortal_kept | apply portalBad_kept | apply Kept.foldl | rfl)
      | (intro _) | with_reducible apply Kept.ite | split | with_reducible refine Kept.mk' ?_ ?_ ?_ ?_

theorem portalTimeout_kept {s₀ : State} {x : Fin 6} {f : PortalFrame} {isWrite : Bool} {s : State} (hK : Kept s₀
    s) : Kept s₀ (portalTimeout s x f isWrite) := by
  unfold portalTimeout
  repeat' first
      | (with_reducible first | assumption | apply modPortal_kept | apply portalBad_kept | apply portalApply_kept2)
      | refine portalApply_kept ?_ (by with_reducible assumption) | (with_reducible first | apply Kept.foldl | rfl)
      | (intro _) | with_reducible apply Kept.ite | split | with_reducible refine Kept.mk' ?_ ?_ ?_ ?_

theorem mbAccess_kept {s₀ : State} {m : Master} {o : Nat} {write : Bool} {f : State → State} {s : State} (hK :
    Kept s₀ s) (hf : ∀ t, Kept s₀ t → Kept s₀ (f t )) : Kept s₀ (mbAccess s m o write f) := by
  unfold mbAccess
  repeat' first
      | (with_reducible first | assumption) | apply hf
      | (with_reducible first | apply accessError_kept | apply Kept.foldl | rfl) | (intro _)
      | with_reducible apply Kept.ite | split | with_reducible refine Kept.mk' ?_ ?_ ?_ ?_

theorem i3cReplyRead_kept {s₀ : State} {p : Fin 4} {s : State} (hK : Kept s₀ s) : Kept s₀ (i3cReplyRead s p) := by
  unfold i3cReplyRead
  repeat' first
      | (with_reducible first | assumption | apply i3cReply_kept | apply readsFx_kept | apply Kept.foldl | rfl)
      | (intro _) | with_reducible apply Kept.ite | split | with_reducible refine Kept.mk' ?_ ?_ ?_ ?_

theorem i3cPacketRead_kept {s₀ : State} {p : Fin 4} {s : State} (hK : Kept s₀ s) : Kept s₀ (i3cPacketRead s p) := by
  unfold i3cPacketRead
  repeat' first
      | (with_reducible first | assumption | apply i3cReplyRead_kept | apply mctpRead_kept | apply Kept.foldl | rfl)
      | (intro _) | with_reducible apply Kept.ite | split | with_reducible refine Kept.mk' ?_ ?_ ?_ ?_

end Sys2Proof.Machine
end

