-- ==== Sys2Proof/Laws/Debug.lean ====
section
/-! SUPPORT. What each operation of Machine/Debug.lean keeps (`Kept`). -/

set_option linter.unusedTactic false
set_option linter.unreachableTactic false

namespace Sys2Proof.Machine

theorem tapSelect_kept {s₀ : State} {ir : BitVec 5} {s : State} (hK : Kept s₀ s) : Kept s₀ (tapSelect s ir) := by
  unfold tapSelect
  repeat' first
      | (with_reducible first | assumption | apply Kept.foldl | rfl) | (intro _) | with_reducible apply Kept.ite
      | split | with_reducible refine Kept.mk' ?_ ?_ ?_ ?_

theorem sbFail_kept {s₀ : State} {e : Nat} {s : State} (hK : Kept s₀ s) : Kept s₀ (sbFail s e) := by
  unfold sbFail
  repeat' first
      | (with_reducible first | assumption | apply Kept.foldl | rfl) | (intro _) | with_reducible apply Kept.ite
      | split | with_reducible refine Kept.mk' ?_ ?_ ?_ ?_

theorem sbBytes_kept {s₀ : State} {pa n : Nat} {s : State} {p0 t} (hK : Kept s₀ s) (e : (sbBytes s pa n) = some
    (p0, t)) : Kept s₀ t := by
  unfold sbBytes at e
  repeat' split at e
  all_goals (cases e)
  all_goals (repeat' first
      | (with_reducible first | assumption | apply regReadFx_kept | apply Kept.foldl | rfl) | (intro _)
      | with_reducible apply Kept.ite | split | with_reducible refine Kept.mk' ?_ ?_ ?_ ?_)

theorem sbNext_kept {s₀ : State} {n : Nat} {s : State} (hK : Kept s₀ s) : Kept s₀ (sbNext s n) := by
  unfold sbNext
  repeat' first
      | (with_reducible first | assumption | apply Kept.foldl | rfl) | (intro _) | with_reducible apply Kept.ite
      | split | with_reducible refine Kept.mk' ?_ ?_ ?_ ?_

theorem sbRead_kept {s₀ s : State} (hK : Kept s₀ s) : Kept s₀ (sbRead s) := by
  unfold sbRead
  repeat' first
      | (with_reducible first | assumption) | refine sbBytes_kept ?_ (by with_reducible assumption)
      | (with_reducible first | apply sbFail_kept | apply sbNext_kept | apply Kept.foldl | rfl) | (intro _)
      | with_reducible apply Kept.ite | split | with_reducible refine Kept.mk' ?_ ?_ ?_ ?_

theorem dmResume_kept {s₀ s : State} (hK : Kept s₀ s) : Kept s₀ (dmResume s) := by
  unfold dmResume
  repeat' first
      | (with_reducible first | assumption | apply modCore_kept | apply Kept.foldl | rfl) | (intro _)
      | with_reducible apply Kept.ite | split | with_reducible refine Kept.mk' ?_ ?_ ?_ ?_

theorem dmControl_kept {s₀ : State} {v : Word} {s : State} (hK : Kept s₀ s) : Kept s₀ (dmControl s v) := by
  unfold dmControl
  repeat' first
      | (with_reducible first | assumption | apply enterDebug_kept | apply dmResume_kept | apply Kept.foldl | rfl)
      | (intro _) | with_reducible apply Kept.ite | split | with_reducible refine Kept.mk' ?_ ?_ ?_ ?_

theorem dmFail_kept {s₀ : State} {e : BitVec 3} {s : State} (hK : Kept s₀ s) : Kept s₀ (dmFail s e) := by
  unfold dmFail
  repeat' first
      | (with_reducible first | assumption | apply Kept.foldl | rfl) | (intro _) | with_reducible apply Kept.ite
      | split | with_reducible refine Kept.mk' ?_ ?_ ?_ ?_

theorem dmRegWrite_kept {s₀ : State} {n : Nat} {v : Word} {s : State} (hK : Kept s₀ s) : Kept s₀ (dmRegWrite s n
    v) := by
  unfold dmRegWrite
  repeat' first
      | (with_reducible first
          | assumption | apply csrWrite_kept | apply modCore_kept | apply rvPut_kept | apply Kept.foldl | rfl)
      | (intro _) | with_reducible apply Kept.ite | split | with_reducible refine Kept.mk' ?_ ?_ ?_ ?_

theorem dmCommand_kept {s₀ : State} {v : Word} {s : State} (hK : Kept s₀ s) : Kept s₀ (dmCommand s v) := by
  unfold dmCommand
  repeat' first
      | (with_reducible first | assumption | apply dmRegWrite_kept | apply dmFail_kept | apply Kept.foldl | rfl)
      | (intro _) | with_reducible apply Kept.ite | split | with_reducible refine Kept.mk' ?_ ?_ ?_ ?_

theorem sbControl_kept {s₀ : State} {v : Word} {s : State} (hK : Kept s₀ s) : Kept s₀ (sbControl s v) := by
  unfold sbControl
  repeat' first
      | (with_reducible first | assumption | apply Kept.foldl | rfl) | (intro _) | with_reducible apply Kept.ite
      | split | with_reducible refine Kept.mk' ?_ ?_ ?_ ?_

theorem sbWrite_kept {s₀ s : State} (hK : Kept s₀ s) : Kept s₀ (sbWrite s) := by
  unfold sbWrite
  repeat' first
      | (with_reducible first
          | assumption | apply ramWrite_kept | apply regWrite_kept | apply sbFail_kept | apply sbNext_kept
          | apply Kept.foldl | rfl)
      | (intro _) | with_reducible apply Kept.ite | split | with_reducible refine Kept.mk' ?_ ?_ ?_ ?_

theorem dmWrite_kept {s₀ : State} {a : Nat} {v : Word} {s : State} (hK : Kept s₀ s) : Kept s₀ (dmWrite s a v) := by
  unfold dmWrite
  repeat' first
      | (with_reducible first
          | assumption | apply dmCommand_kept | apply sbControl_kept | apply sbRead_kept | apply sbWrite_kept
          | apply dmControl_kept | apply Kept.foldl | rfl)
      | (intro _) | with_reducible apply Kept.ite | split | with_reducible refine Kept.mk' ?_ ?_ ?_ ?_

theorem debugAccess_kept {s₀ : State} {a : DebugOp} {s : State} (hK : Kept s₀ s) : Kept s₀ (debugAccess s a) := by
  unfold debugAccess
  repeat' first
      | (with_reducible first | assumption | apply dmWrite_kept | apply sbRead_kept | apply Kept.foldl | rfl)
      | (intro _) | with_reducible apply Kept.ite | split | with_reducible refine Kept.mk' ?_ ?_ ?_ ?_

end Sys2Proof.Machine
end

