-- ==== Sys2Proof/Laws/CmdBase.lean ====
section
/-! SUPPORT. What each operation of Machine/CmdBase.lean keeps (`Kept`). -/

set_option linter.unusedTactic false
set_option linter.unreachableTactic false

namespace Sys2Proof.Machine

theorem eachTarget_kept {s₀ : State} {m : Master} {f : State → Ch → State} {s : State} (hK : Kept s₀ s) (hf : ∀ t
    x0, Kept s₀ t → Kept s₀ (f t x0)) : Kept s₀ (eachTarget s m f) := by
  unfold eachTarget
  repeat' first
      | (with_reducible first | assumption) | apply hf | (with_reducible first | apply Kept.foldl | rfl) | (intro _)
      | with_reducible apply Kept.ite | split | with_reducible refine Kept.mk' ?_ ?_ ?_ ?_

theorem gateUnit_kept {s₀ : State} {a1 : IdleUnit} {s : State} (hK : Kept s₀ s) : Kept s₀ (gateUnit s a1) := by
  unfold gateUnit
  repeat' first
      | (with_reducible first | assumption | apply Kept.foldl | rfl) | (intro _) | with_reducible apply Kept.ite
      | split | with_reducible refine Kept.mk' ?_ ?_ ?_ ?_

end Sys2Proof.Machine
end

