-- ==== Sys2Proof/Laws/CmdCache.lean ====
section
/-! SUPPORT. What each operation of Machine/CmdCache.lean keeps (`Kept`). -/

set_option linter.unusedTactic false
set_option linter.unreachableTactic false

namespace Sys2Proof.Machine

theorem execFlipReq_kept {s₀ : State} {m : Master} {s t₁ : State} (hK : Kept s₀ s) (e : (execFlipReq m s) = .next
    t₁) : Kept s₀ t₁ := by
  unfold execFlipReq at e
  cases e
  repeat' first
      | (with_reducible first
          | assumption | apply wr_kept | apply onLive_kept | apply flipReq_kept | apply Kept.foldl | rfl)
      | (intro _) | with_reducible apply Kept.ite | split | with_reducible refine Kept.mk' ?_ ?_ ?_ ?_

theorem execFlipCancel_kept {s₀ : State} {m : Master} {s t₁ : State} (hK : Kept s₀ s) (e : (execFlipCancel m s) =
    .next t₁) : Kept s₀ t₁ := by
  unfold execFlipCancel at e
  cases e
  repeat' first
      | (with_reducible first
          | assumption | apply wr_kept | apply onLive_kept | apply flipCancel_kept | apply Kept.foldl | rfl)
      | (intro _) | with_reducible apply Kept.ite | split | with_reducible refine Kept.mk' ?_ ?_ ?_ ?_

theorem execGoldClear_kept {s₀ : State} {m : Master} {s t₁ : State} (hK : Kept s₀ s) (e : (execGoldClear m s) =
    .next t₁) : Kept s₀ t₁ := by
  unfold execGoldClear at e
  cases e
  repeat' first
      | (with_reducible first
          | assumption | apply wr_kept | apply onLive_kept | apply goldClear_kept | apply Kept.foldl | rfl)
      | (intro _) | with_reducible apply Kept.ite | split | with_reducible refine Kept.mk' ?_ ?_ ?_ ?_

theorem execStageLockSet_kept {s₀ : State} {m : Master} {s t₁ : State} (hK : Kept s₀ s) (e : (execStageLockSet m
    s) = .next t₁) : Kept s₀ t₁ := by
  unfold execStageLockSet at e
  cases e
  repeat' first
      | (with_reducible first
          | assumption | apply wr_kept | apply onLive_kept | apply stageLock_kept | apply Kept.foldl | rfl)
      | (intro _) | with_reducible apply Kept.ite | split | with_reducible refine Kept.mk' ?_ ?_ ?_ ?_

theorem execStageLockClr_kept {s₀ : State} {m : Master} {s t₁ : State} (hK : Kept s₀ s) (e : (execStageLockClr m
    s) = .next t₁) : Kept s₀ t₁ := by
  unfold execStageLockClr at e
  cases e
  repeat' first
      | (with_reducible first
          | assumption | apply wr_kept | apply onLive_kept | apply stageLock_kept | apply Kept.foldl | rfl)
      | (intro _) | with_reducible apply Kept.ite | split | with_reducible refine Kept.mk' ?_ ?_ ?_ ?_

theorem execFlipHoldClear_kept {s₀ : State} {m : Master} {v : Word} {s t₁ : State} (hK : Kept s₀ s) (e :
    (execFlipHoldClear m v s) = .next t₁) : Kept s₀ t₁ := by
  unfold execFlipHoldClear at e
  cases e
  repeat' first
      | (with_reducible first
          | assumption | apply wr_kept | apply onLive_kept | apply flipHoldWrite_kept | apply Kept.foldl | rfl)
      | (intro _) | with_reducible apply Kept.ite | split | with_reducible refine Kept.mk' ?_ ?_ ?_ ?_

theorem execBsetMapWrite_kept {s₀ : State} {m : Master} {v : Word} {s t₁ : State} (hK : Kept s₀ s) (e :
    (execBsetMapWrite m v s) = .next t₁) : Kept s₀ t₁ := by
  unfold execBsetMapWrite at e
  cases e
  repeat' first
      | (with_reducible first
          | assumption | apply wr_kept | apply onLive_kept | apply bsetMapWrite_kept | apply Kept.foldl | rfl)
      | (intro _) | with_reducible apply Kept.ite | split | with_reducible refine Kept.mk' ?_ ?_ ?_ ?_

theorem execTraceWindowExpiry_kept {s₀ : State} {c : Ch} {s t₁ : State} (hK : Kept s₀ s) (e :
    (execTraceWindowExpiry c s) = .next t₁) : Kept s₀ t₁ := by
  unfold execTraceWindowExpiry at e
  cases e
  repeat' first
      | (with_reducible first | assumption | apply traceExpiry_kept | apply onLive_kept | apply Kept.foldl | rfl)
      | (intro _) | with_reducible apply Kept.ite | split | with_reducible refine Kept.mk' ?_ ?_ ?_ ?_

theorem execTraceJournalWrite_kept {s₀ : State} {c : Ch} {s t₁ : State} (hK : Kept s₀ s) (e :
    (execTraceJournalWrite c s) = .next t₁) : Kept s₀ t₁ := by
  unfold execTraceJournalWrite at e
  cases e
  repeat' first
      | (with_reducible first
          | assumption | apply settleAll_kept | apply onLive_kept | apply journalWrite_kept | apply Kept.foldl | rfl)
      | (intro _) | with_reducible apply Kept.ite | split | with_reducible refine Kept.mk' ?_ ?_ ?_ ?_

theorem execAdaptationPass_kept {s₀ s t₁ : State} (hK : Kept s₀ s) (e : (execAdaptationPass s) = .next t₁) : Kept
    s₀ t₁ := by
  unfold execAdaptationPass at e
  cases e
  repeat' first
      | (with_reducible first
          | assumption | apply settleAll_kept | apply onLive_kept | apply adaptPass_kept | apply Kept.foldl | rfl)
      | (intro _) | with_reducible apply Kept.ite | split | with_reducible refine Kept.mk' ?_ ?_ ?_ ?_

end Sys2Proof.Machine
end

