-- ==== Sys2Proof/Laws/CmdFabric.lean ====
section
/-! SUPPORT. What each operation of Machine/CmdFabric.lean keeps (`Kept`). -/

set_option linter.unusedTactic false
set_option linter.unreachableTactic false

namespace Sys2Proof.Machine

theorem execFlueSymbolLock_kept {s₀ : State} {f : Link} {s t₁ : State} (hK : Kept s₀ s) (e : (execFlueSymbolLock f
    s) = .next t₁) : Kept s₀ t₁ := by
  unfold execFlueSymbolLock at e
  cases e
  repeat' first
      | (with_reducible first | assumption | apply onLive_kept | apply symbolLock_kept | apply Kept.foldl | rfl)
      | (intro _) | with_reducible apply Kept.ite | split | with_reducible refine Kept.mk' ?_ ?_ ?_ ?_

theorem execFlueTrained_kept {s₀ : State} {f : Link} {swap : Bool} {pol : BitVec 2} {s t₁ : State} (hK : Kept s₀
    s) (e : (execFlueTrained f swap pol s) = .next t₁) : Kept s₀ t₁ := by
  unfold execFlueTrained at e
  cases e
  repeat' first
      | (with_reducible first | assumption | apply onLive_kept | apply trained_kept | apply Kept.foldl | rfl)
      | (intro _) | with_reducible apply Kept.ite | split | with_reducible refine Kept.mk' ?_ ?_ ?_ ?_

theorem execTrainingTimeout_kept {s₀ : State} {f : Link} {s t₁ : State} (hK : Kept s₀ s) (e : (execTrainingTimeout
    f s) = .next t₁) : Kept s₀ t₁ := by
  unfold execTrainingTimeout at e
  cases e
  repeat' first
      | (with_reducible first | assumption | apply trainTimeout_kept | apply onLive_kept | apply Kept.foldl | rfl)
      | (intro _) | with_reducible apply Kept.ite | split | with_reducible refine Kept.mk' ?_ ?_ ?_ ?_

theorem execFlueRetry_kept {s₀ : State} {f : Link} {s t₁ : State} (hK : Kept s₀ s) (e : (execFlueRetry f s) =
    .next t₁) : Kept s₀ t₁ := by
  unfold execFlueRetry at e
  cases e
  repeat' first
      | (with_reducible first | assumption | apply linkRetry_kept | apply onLive_kept | apply Kept.foldl | rfl)
      | (intro _) | with_reducible apply Kept.ite | split | with_reducible refine Kept.mk' ?_ ?_ ?_ ?_

theorem execLinkRx_kept {s₀ : State} {f : Link} {arg : Word} {s t₁ : State} (hK : Kept s₀ s) (e : (execLinkRx f
    arg s) = .next t₁) : Kept s₀ t₁ := by
  unfold execLinkRx at e
  cases e
  repeat' first
      | (with_reducible first | assumption | apply onLive_kept | apply linkRx_kept | apply Kept.foldl | rfl)
      | (intro _) | with_reducible apply Kept.ite | split | with_reducible refine Kept.mk' ?_ ?_ ?_ ?_

theorem execLinkAckTimer_kept {s₀ : State} {f : Link} {s t₁ : State} (hK : Kept s₀ s) (e : (execLinkAckTimer f s)
    = .next t₁) : Kept s₀ t₁ := by
  unfold execLinkAckTimer at e
  cases e
  repeat' first
      | (with_reducible first | assumption | apply linkAck_kept | apply onLive_kept | apply Kept.foldl | rfl)
      | (intro _) | with_reducible apply Kept.ite | split | with_reducible refine Kept.mk' ?_ ?_ ?_ ?_

theorem execReplayTimeout_kept {s₀ : State} {f : Link} {s t₁ : State} (hK : Kept s₀ s) (e : (execReplayTimeout f
    s) = .next t₁) : Kept s₀ t₁ := by
  unfold execReplayTimeout at e
  cases e
  repeat' first
      | (with_reducible first | assumption | apply replayTimeout_kept | apply onLive_kept | apply Kept.foldl | rfl)
      | (intro _) | with_reducible apply Kept.ite | split | with_reducible refine Kept.mk' ?_ ?_ ?_ ?_

theorem execBadFrameRx_kept {s₀ : State} {f : Link} {k : BadFrame} {s t₁ : State} (hK : Kept s₀ s) (e :
    (execBadFrameRx f k s) = .next t₁) : Kept s₀ t₁ := by
  unfold execBadFrameRx at e
  cases e
  repeat' first
      | (with_reducible first | assumption | apply onLive_kept | apply badFrame_kept | apply Kept.foldl | rfl)
      | (intro _) | with_reducible apply Kept.ite | split | with_reducible refine Kept.mk' ?_ ?_ ?_ ?_

theorem execHelloRx_kept {s₀ : State} {f : Flue} {fr : FabFrame} {s t₁ : State} (hK : Kept s₀ s) (e : (execHelloRx
    f fr s) = .next t₁) : Kept s₀ t₁ := by
  unfold execHelloRx at e
  cases e
  repeat' first
      | (with_reducible first | assumption | apply onLive_kept | apply helloRx_kept | apply Kept.foldl | rfl)
      | (intro _) | with_reducible apply Kept.ite | split | with_reducible refine Kept.mk' ?_ ?_ ?_ ?_

theorem execHelloTimer_kept {s₀ : State} {f : Flue} {s t₁ : State} (hK : Kept s₀ s) (e : (execHelloTimer f s) =
    .next t₁) : Kept s₀ t₁ := by
  unfold execHelloTimer at e
  cases e
  repeat' first
      | (with_reducible first | assumption | apply helloTimer_kept | apply onLive_kept | apply Kept.foldl | rfl)
      | (intro _) | with_reducible apply Kept.ite | split | with_reducible refine Kept.mk' ?_ ?_ ?_ ?_

theorem execHelloLoss_kept {s₀ : State} {f : Flue} {s t₁ : State} (hK : Kept s₀ s) (e : (execHelloLoss f s) =
    .next t₁) : Kept s₀ t₁ := by
  unfold execHelloLoss at e
  cases e
  repeat' first
      | (with_reducible first | assumption | apply helloLoss_kept | apply onLive_kept | apply Kept.foldl | rfl)
      | (intro _) | with_reducible apply Kept.ite | split | with_reducible refine Kept.mk' ?_ ?_ ?_ ?_

theorem execTopoRx_kept {s₀ : State} {f : Flue} {fr : FabFrame} {s t₁ : State} (hK : Kept s₀ s) (e : (execTopoRx f
    fr s) = .next t₁) : Kept s₀ t₁ := by
  unfold execTopoRx at e
  cases e
  repeat' first
      | (with_reducible first | assumption | apply topoRx_kept | apply onLive_kept | apply Kept.foldl | rfl)
      | (intro _) | with_reducible apply Kept.ite | split | with_reducible refine Kept.mk' ?_ ?_ ?_ ?_

theorem execTopoTimer_kept {s₀ s t₁ : State} (hK : Kept s₀ s) (e : (execTopoTimer s) = .next t₁) : Kept s₀ t₁ := by
  unfold execTopoTimer at e
  cases e
  repeat' first
      | (with_reducible first | assumption | apply onLive_kept | apply topoTimer_kept | apply Kept.foldl | rfl)
      | (intro _) | with_reducible apply Kept.ite | split | with_reducible refine Kept.mk' ?_ ?_ ?_ ?_

theorem execTopoEntryAge_kept {s₀ s t₁ : State} (hK : Kept s₀ s) (e : (execTopoEntryAge s) = .next t₁) : Kept s₀
    t₁ := by
  unfold execTopoEntryAge at e
  cases e
  repeat' first
      | (with_reducible first | assumption | apply onLive_kept | apply topoAge_kept | apply Kept.foldl | rfl)
      | (intro _) | with_reducible apply Kept.ite | split | with_reducible refine Kept.mk' ?_ ?_ ?_ ?_

theorem execSettle_kept {s₀ s t₁ : State} (hK : Kept s₀ s) (e : (execSettle s) = .next t₁) : Kept s₀ t₁ := by
  unfold execSettle at e
  cases e
  repeat' first
      | (with_reducible first | assumption | apply settleTopo_kept | apply onLive_kept | apply Kept.foldl | rfl)
      | (intro _) | with_reducible apply Kept.ite | split | with_reducible refine Kept.mk' ?_ ?_ ?_ ?_

theorem execAssignRx_kept {s₀ : State} {f : Flue} {fr : FabFrame} {s t₁ : State} (hK : Kept s₀ s) (e :
    (execAssignRx f fr s) = .next t₁) : Kept s₀ t₁ := by
  unfold execAssignRx at e
  cases e
  repeat' first
      | (with_reducible first | assumption | apply assignRx_kept | apply onLive_kept | apply Kept.foldl | rfl)
      | (intro _) | with_reducible apply Kept.ite | split | with_reducible refine Kept.mk' ?_ ?_ ?_ ?_

theorem execRediscover_kept {s₀ : State} {m : Master} {s t₁ : State} (hK : Kept s₀ s) (e : (execRediscover m s) =
    .next t₁) : Kept s₀ t₁ := by
  unfold execRediscover at e
  cases e
  repeat' first
      | (with_reducible first | assumption | apply onLive_kept | apply rediscover_kept | apply Kept.foldl | rfl)
      | (intro _) | with_reducible apply Kept.ite | split | with_reducible refine Kept.mk' ?_ ?_ ?_ ?_

theorem execMsgRx_kept {s₀ : State} {f : Flue} {fr : FabFrame} {s t₁ : State} (hK : Kept s₀ s) (e : (execMsgRx f
    fr s) = .next t₁) : Kept s₀ t₁ := by
  unfold execMsgRx at e
  cases e
  repeat' first
      | (with_reducible first | assumption | apply onLive_kept | apply msgRx_kept | apply Kept.foldl | rfl)
      | (intro _) | with_reducible apply Kept.ite | split | with_reducible refine Kept.mk' ?_ ?_ ?_ ?_

theorem execBulksegRx_kept {s₀ : State} {f : Flue} {fr : FabFrame} {s t₁ : State} (hK : Kept s₀ s) (e :
    (execBulksegRx f fr s) = .next t₁) : Kept s₀ t₁ := by
  unfold execBulksegRx at e
  cases e
  repeat' first
      | (with_reducible first | assumption | apply onLive_kept | apply bulksegRx_kept | apply Kept.foldl | rfl)
      | (intro _) | with_reducible apply Kept.ite | split | with_reducible refine Kept.mk' ?_ ?_ ?_ ?_

theorem execDlvRx_kept {s₀ : State} {f : Flue} {fr : FabFrame} {s t₁ : State} (hK : Kept s₀ s) (e : (execDlvRx f
    fr s) = .next t₁) : Kept s₀ t₁ := by
  unfold execDlvRx at e
  cases e
  repeat' first
      | (with_reducible first | assumption | apply dlvRx_kept | apply onLive_kept | apply Kept.foldl | rfl)
      | (intro _) | with_reducible apply Kept.ite | split | with_reducible refine Kept.mk' ?_ ?_ ?_ ?_

theorem execPeerResend_kept {s₀ : State} {n : Inst} {s t₁ : State} (hK : Kept s₀ s) (e : (execPeerResend n s) =
    .next t₁) : Kept s₀ t₁ := by
  unfold execPeerResend at e
  cases e
  repeat' first
      | (with_reducible first | assumption | apply onLive_kept | apply peerResend_kept | apply Kept.foldl | rfl)
      | (intro _) | with_reducible apply Kept.ite | split | with_reducible refine Kept.mk' ?_ ?_ ?_ ?_

theorem execPeerSend_kept {s₀ : State} {n : Inst} {s t₁ : State} (hK : Kept s₀ s) (e : (execPeerSend n s) = .next
    t₁) : Kept s₀ t₁ := by
  unfold execPeerSend at e
  cases e
  repeat' first
      | (with_reducible first | assumption | apply onLive_kept | apply peerSend_kept | apply Kept.foldl | rfl)
      | (intro _) | with_reducible apply Kept.ite | split | with_reducible refine Kept.mk' ?_ ?_ ?_ ?_

theorem execBcastGo_kept {s₀ : State} {m : Master} {s t₁ : State} (hK : Kept s₀ s) (e : (execBcastGo m s) = .next
    t₁) : Kept s₀ t₁ := by
  unfold execBcastGo at e
  cases e
  repeat' first
      | (with_reducible first | assumption | apply onLive_kept | apply bcastGo_kept | apply Kept.foldl | rfl)
      | (intro _) | with_reducible apply Kept.ite | split | with_reducible refine Kept.mk' ?_ ?_ ?_ ?_

theorem execBcastRx_kept {s₀ : State} {f : Flue} {fr : FabFrame} {s t₁ : State} (hK : Kept s₀ s) (e : (execBcastRx
    f fr s) = .next t₁) : Kept s₀ t₁ := by
  unfold execBcastRx at e
  cases e
  repeat' first
      | (with_reducible first | assumption | apply onLive_kept | apply bcastRx_kept | apply Kept.foldl | rfl)
      | (intro _) | with_reducible apply Kept.ite | split | with_reducible refine Kept.mk' ?_ ?_ ?_ ?_

theorem execArrive_kept {s₀ : State} {m : Master} {s t₁ : State} (hK : Kept s₀ s) (e : (execArrive m s) = .next
    t₁) : Kept s₀ t₁ := by
  unfold execArrive at e
  cases e
  repeat' first
      | (with_reducible first | assumption | apply arrive_kept | apply onLive_kept | apply Kept.foldl | rfl)
      | (intro _) | with_reducible apply Kept.ite | split | with_reducible refine Kept.mk' ?_ ?_ ?_ ?_

theorem execArriveRx_kept {s₀ : State} {f : Flue} {fr : FabFrame} {s t₁ : State} (hK : Kept s₀ s) (e :
    (execArriveRx f fr s) = .next t₁) : Kept s₀ t₁ := by
  unfold execArriveRx at e
  cases e
  repeat' first
      | (with_reducible first | assumption | apply arriveRx_kept | apply onLive_kept | apply Kept.foldl | rfl)
      | (intro _) | with_reducible apply Kept.ite | split | with_reducible refine Kept.mk' ?_ ?_ ?_ ?_

theorem execReleaseRx_kept {s₀ : State} {f : Flue} {fr : FabFrame} {s t₁ : State} (hK : Kept s₀ s) (e :
    (execReleaseRx f fr s) = .next t₁) : Kept s₀ t₁ := by
  unfold execReleaseRx at e
  cases e
  repeat' first
      | (with_reducible first | assumption | apply releaseRx_kept | apply onLive_kept | apply Kept.foldl | rfl)
      | (intro _) | with_reducible apply Kept.ite | split | with_reducible refine Kept.mk' ?_ ?_ ?_ ?_

theorem execSnapshotStart_kept {s₀ : State} {m : Master} {s t₁ : State} (hK : Kept s₀ s) (e : (execSnapshotStart m
    s) = .next t₁) : Kept s₀ t₁ := by
  unfold execSnapshotStart at e
  cases e
  repeat' first
      | (with_reducible first | assumption | apply onLive_kept | apply snapStart_kept | apply Kept.foldl | rfl)
      | (intro _) | with_reducible apply Kept.ite | split | with_reducible refine Kept.mk' ?_ ?_ ?_ ?_

theorem execMarkerRx_kept {s₀ : State} {f : Flue} {fr : FabFrame} {s t₁ : State} (hK : Kept s₀ s) (e :
    (execMarkerRx f fr s) = .next t₁) : Kept s₀ t₁ := by
  unfold execMarkerRx at e
  cases e
  repeat' first
      | (with_reducible first | assumption | apply markerRx_kept | apply onLive_kept | apply Kept.foldl | rfl)
      | (intro _) | with_reducible apply Kept.ite | split | with_reducible refine Kept.mk' ?_ ?_ ?_ ?_

theorem execCloseRx_kept {s₀ : State} {f : Flue} {fr : FabFrame} {s t₁ : State} (hK : Kept s₀ s) (e : (execCloseRx
    f fr s) = .next t₁) : Kept s₀ t₁ := by
  unfold execCloseRx at e
  cases e
  repeat' first
      | (with_reducible first | assumption | apply closeRx_kept | apply onLive_kept | apply Kept.foldl | rfl)
      | (intro _) | with_reducible apply Kept.ite | split | with_reducible refine Kept.mk' ?_ ?_ ?_ ?_

theorem execCloseTimeout_kept {s₀ s t₁ : State} (hK : Kept s₀ s) (e : (execCloseTimeout s) = .next t₁) : Kept s₀
    t₁ := by
  unfold execCloseTimeout at e
  cases e
  repeat' first
      | (with_reducible first | assumption | apply onLive_kept | apply closeTimeout_kept | apply Kept.foldl | rfl)
      | (intro _) | with_reducible apply Kept.ite | split | with_reducible refine Kept.mk' ?_ ?_ ?_ ?_

theorem execSnapshotRecordSend_kept {s₀ s t₁ : State} (hK : Kept s₀ s) (e : (execSnapshotRecordSend s) = .next t₁)
    : Kept s₀ t₁ := by
  unfold execSnapshotRecordSend at e
  cases e
  repeat' first
      | (with_reducible first
          | assumption | apply settleAll_kept | apply onLive_kept | apply snapSend_kept | apply Kept.foldl | rfl)
      | (intro _) | with_reducible apply Kept.ite | split | with_reducible refine Kept.mk' ?_ ?_ ?_ ?_

theorem execSnaprecRx_kept {s₀ : State} {f : Flue} {fr : FabFrame} {s t₁ : State} (hK : Kept s₀ s) (e :
    (execSnaprecRx f fr s) = .next t₁) : Kept s₀ t₁ := by
  unfold execSnaprecRx at e
  cases e
  repeat' first
      | (with_reducible first | assumption | apply snaprecRx_kept | apply onLive_kept | apply Kept.foldl | rfl)
      | (intro _) | with_reducible apply Kept.ite | split | with_reducible refine Kept.mk' ?_ ?_ ?_ ?_

theorem execCollectionDeadline_kept {s₀ s t₁ : State} (hK : Kept s₀ s) (e : (execCollectionDeadline s) = .next t₁)
    : Kept s₀ t₁ := by
  unfold execCollectionDeadline at e
  cases e
  repeat' first
      | (with_reducible first | assumption | apply onLive_kept | apply collectEnd_kept | apply Kept.foldl | rfl)
      | (intro _) | with_reducible apply Kept.ite | split | with_reducible refine Kept.mk' ?_ ?_ ?_ ?_

theorem execQuoteReady_kept {s₀ s t₁ : State} (hK : Kept s₀ s) (e : (execQuoteReady s) = .next t₁) : Kept s₀ t₁ := by
  unfold execQuoteReady at e
  cases e
  repeat' first
      | (with_reducible first
          | assumption | apply settleAll_kept | apply onLive_kept | apply quoteReady_kept | apply Kept.foldl | rfl)
      | (intro _) | with_reducible apply Kept.ite | split | with_reducible refine Kept.mk' ?_ ?_ ?_ ?_

theorem execFreset_kept {s₀ : State} {m : Master} {s t₁ : State} (hK : Kept s₀ s) (e : (execFreset m s) = .next
    t₁) : Kept s₀ t₁ := by
  unfold execFreset at e
  cases e
  repeat' first
      | (with_reducible first | assumption | apply freset_kept | apply onLive_kept | apply Kept.foldl | rfl)
      | (intro _) | with_reducible apply Kept.ite | split | with_reducible refine Kept.mk' ?_ ?_ ?_ ?_

theorem execResetFrameRx_kept {s₀ : State} {f : Flue} {fr : FabFrame} {s t₁ : State} (hK : Kept s₀ s) (e :
    (execResetFrameRx f fr s) = .next t₁) : Kept s₀ t₁ := by
  unfold execResetFrameRx at e
  cases e
  repeat' first
      | (with_reducible first | assumption | apply onLive_kept | apply resetRx_kept | apply Kept.foldl | rfl)
      | (intro _) | with_reducible apply Kept.ite | split | with_reducible refine Kept.mk' ?_ ?_ ?_ ?_

theorem execRelayFrameRx_kept {s₀ : State} {f : Flue} {fr : FabFrame} {s t₁ : State} (hK : Kept s₀ s) (e :
    (execRelayFrameRx f fr s) = .next t₁) : Kept s₀ t₁ := by
  unfold execRelayFrameRx at e
  cases e
  repeat' first
      | (with_reducible first | assumption | apply onLive_kept | apply relayRx_kept | apply Kept.foldl | rfl)
      | (intro _) | with_reducible apply Kept.ite | split | with_reducible refine Kept.mk' ?_ ?_ ?_ ?_

theorem execRelayFrameQueue_kept {s₀ : State} {m : Master} {v : Word} {s t₁ : State} (hK : Kept s₀ s) (e :
    (execRelayFrameQueue m v s) = .next t₁) : Kept s₀ t₁ := by
  unfold execRelayFrameQueue at e
  cases e
  repeat' first
      | (with_reducible first | assumption | apply relayQueue_kept | apply onLive_kept | apply Kept.foldl | rfl)
      | (intro _) | with_reducible apply Kept.ite | split | with_reducible refine Kept.mk' ?_ ?_ ?_ ?_

theorem execServeWrite_kept {s₀ : State} {m : Master} {v : Word} {s t₁ : State} (hK : Kept s₀ s) (e :
    (execServeWrite m v s) = .next t₁) : Kept s₀ t₁ := by
  unfold execServeWrite at e
  cases e
  repeat' first
      | (with_reducible first | assumption | apply onLive_kept | apply serveWrite_kept | apply Kept.foldl | rfl)
      | (intro _) | with_reducible apply Kept.ite | split | with_reducible refine Kept.mk' ?_ ?_ ?_ ?_

theorem execSymbolLockLoss_kept {s₀ : State} {l : Link} {s t₁ : State} (hK : Kept s₀ s) (e : (execSymbolLockLoss l
    s) = .next t₁) : Kept s₀ t₁ := by
  unfold execSymbolLockLoss at e
  cases e
  repeat' first
      | (with_reducible first | assumption | apply onLive_kept | apply lockLoss_kept | apply Kept.foldl | rfl)
      | (intro _) | with_reducible apply Kept.ite | split | with_reducible refine Kept.mk' ?_ ?_ ?_ ?_

theorem execFrameForward_kept {s₀ : State} {f : Flue} {fr : FabFrame} {s t₁ : State} (hK : Kept s₀ s) (e :
    (execFrameForward f fr s) = .next t₁) : Kept s₀ t₁ := by
  unfold execFrameForward at e
  cases e
  repeat' first
      | (with_reducible first | assumption | apply forwardFrame_kept | apply onLive_kept | apply Kept.foldl | rfl)
      | (intro _) | with_reducible apply Kept.ite | split | with_reducible refine Kept.mk' ?_ ?_ ?_ ?_

theorem execRecoverySegRx_kept {s₀ : State} {fr : FabFrame} {s t₁ : State} (hK : Kept s₀ s) (e :
    (execRecoverySegRx fr s) = .next t₁) : Kept s₀ t₁ := by
  unfold execRecoverySegRx at e
  cases e
  repeat' first
      | (with_reducible first | assumption | apply onLive_kept | apply recoverySeg_kept | apply Kept.foldl | rfl)
      | (intro _) | with_reducible apply Kept.ite | split | with_reducible refine Kept.mk' ?_ ?_ ?_ ?_

end Sys2Proof.Machine
end

