-- ==== Sys2Proof/Laws/CmdFlash.lean ====
section
/-! SUPPORT. What each operation of Machine/CmdFlash.lean keeps (`Kept`). -/

set_option linter.unusedTactic false
set_option linter.unreachableTactic false

namespace Sys2Proof.Machine

theorem execFlashAccessGrant_kept {s₀ : State} {g : PortGrant} {s t₁ : State} (hK : Kept s₀ s)
    (e : (execFlashAccessGrant g s) = .next t₁) : Kept s₀ t₁ := by
  unfold execFlashAccessGrant at e
  cases e
  repeat' first
      | (with_reducible first | assumption | apply portServe_kept | apply onLive_kept | apply Kept.foldl | rfl)
      | (intro _) | with_reducible apply Kept.ite | split | with_reducible refine Kept.mk' ?_ ?_ ?_ ?_

theorem execFillComplete_kept {s₀ : State} {p : Ch} {data : List Byte} {s t₁ : State} (hK : Kept s₀ s) (e :
    (execFillComplete p data s) = .next t₁) : Kept s₀ t₁ := by
  unfold execFillComplete at e
  cases e
  repeat' first
      | (with_reducible first
          | assumption | apply settleAll_kept | apply fillComplete_kept | apply onLive_kept | apply Kept.foldl | rfl)
      | (intro _) | with_reducible apply Kept.ite | split | with_reducible refine Kept.mk' ?_ ?_ ?_ ?_

theorem execWriteExecute_kept {s₀ : State} {p : Ch} {s t₁ : State} (hK : Kept s₀ s) (e : (execWriteExecute p s) =
    .next t₁) : Kept s₀ t₁ := by
  unfold execWriteExecute at e
  cases e
  repeat' first
      | (with_reducible first
          | assumption | apply settleAll_kept | apply onLive_kept | apply writeExecute_kept | apply Kept.foldl | rfl)
      | (intro _) | with_reducible apply Kept.ite | split | with_reducible refine Kept.mk' ?_ ?_ ?_ ?_

theorem execStatusPoll_kept {s₀ : State} {p : Ch} {status : Byte} {s t₁ : State} (hK : Kept s₀ s) (e :
    (execStatusPoll p status s) = .next t₁) : Kept s₀ t₁ := by
  unfold execStatusPoll at e
  cases e
  repeat' first
      | (with_reducible first
          | assumption | apply statusPoll_kept | apply settleAll_kept | apply onLive_kept | apply Kept.foldl | rfl)
      | (intro _) | with_reducible apply Kept.ite | split | with_reducible refine Kept.mk' ?_ ?_ ?_ ?_

theorem execOwnReq_kept {s₀ : State} {m : Master} {v : Bool} {s t₁ : State} (hK : Kept s₀ s) (e : (execOwnReq m v
    s) = .next t₁) : Kept s₀ t₁ := by
  unfold execOwnReq at e
  cases e
  repeat' first
      | (with_reducible first
          | assumption | apply settleAll_kept | apply ownReqAt_kept | apply wr_kept | apply onLive_kept
          | apply eachTarget_kept | apply Kept.foldl | rfl)
      | (intro _) | with_reducible apply Kept.ite | split | with_reducible refine Kept.mk' ?_ ?_ ?_ ?_

theorem execRawOwnershipGrant_kept {s₀ : State} {p : Ch} {s t₁ : State} (hK : Kept s₀ s) (e :
    (execRawOwnershipGrant p s) = .next t₁) : Kept s₀ t₁ := by
  unfold execRawOwnershipGrant at e
  cases e
  repeat' first
      | (with_reducible first
          | assumption | apply settleAll_kept | apply onLive_kept | apply rawGrant_kept | apply Kept.foldl | rfl)
      | (intro _) | with_reducible apply Kept.ite | split | with_reducible refine Kept.mk' ?_ ?_ ?_ ?_

theorem execRawStart_kept {s₀ : State} {m : Master} {s t₁ : State} (hK : Kept s₀ s) (e : (execRawStart m s) =
    .next t₁) : Kept s₀ t₁ := by
  unfold execRawStart at e
  cases e
  repeat' first
      | (with_reducible first
          | assumption | apply wr_kept | apply onLive_kept | apply eachTarget_kept | apply rawStartAt_kept
          | apply Kept.foldl | rfl)
      | (intro _) | with_reducible apply Kept.ite | split | with_reducible refine Kept.mk' ?_ ?_ ?_ ?_

theorem execRawAbort_kept {s₀ : State} {m : Master} {edges : Nat} {bits : List Bool} {s t₁ : State} (hK : Kept s₀
    s) (e : (execRawAbort m edges bits s) = .next t₁) : Kept s₀ t₁ := by
  unfold execRawAbort at e
  cases e
  repeat' first
      | (with_reducible first
          | assumption | apply wr_kept | apply onLive_kept | apply rawAbortAt_kept | apply eachTarget_kept
          | apply Kept.foldl | rfl)
      | (intro _) | with_reducible apply Kept.ite | split | with_reducible refine Kept.mk' ?_ ?_ ?_ ?_

theorem execRawTransferEnd_kept {s₀ : State} {p : Ch} {bits : List Bool} {s t₁ : State} (hK : Kept s₀ s) (e :
    (execRawTransferEnd p bits s) = .next t₁) : Kept s₀ t₁ := by
  unfold execRawTransferEnd at e
  cases e
  repeat' first
      | (with_reducible first | assumption | apply onLive_kept | apply rawEnd_kept | apply Kept.foldl | rfl)
      | (intro _) | with_reducible apply Kept.ite | split | with_reducible refine Kept.mk' ?_ ?_ ?_ ?_

end Sys2Proof.Machine
end

