-- ==== Sys2Proof/Laws/CmdGrate.lean ====
section
/-! SUPPORT. What each operation of Machine/CmdGrate.lean keeps (`Kept`). -/

set_option linter.unusedTactic false
set_option linter.unreachableTactic false

namespace Sys2Proof.Machine

theorem execEscHoldExpiry_kept {s₀ : State} {c : Ch} {s t₁ : State} (hK : Kept s₀ s) (e : (execEscHoldExpiry c s)
    = .next t₁) : Kept s₀ t₁ := by
  unfold execEscHoldExpiry at e
  cases e
  repeat' first
      | (with_reducible first
          | assumption | apply settleAll_kept | apply escExpire_kept | apply onLive_kept | apply Kept.foldl | rfl)
      | (intro _) | with_reducible apply Kept.ite | split | with_reducible refine Kept.mk' ?_ ?_ ?_ ?_

theorem execEscRelease_kept {s₀ : State} {m : Master} {s t₁ : State} (hK : Kept s₀ s) (e : (execEscRelease m s) =
    .next t₁) : Kept s₀ t₁ := by
  unfold execEscRelease at e
  cases e
  repeat' first
      | (with_reducible first
          | assumption | apply settleAll_kept | apply escRelease_kept | apply wr_kept | apply onLive_kept
          | apply eachTarget_kept | apply Kept.foldl | rfl)
      | (intro _) | with_reducible apply Kept.ite | split | with_reducible refine Kept.mk' ?_ ?_ ?_ ?_

theorem execRgnActWrite_kept {s₀ : State} {m : Master} {i : Fin 64} {v : Word} {s t₁ : State} (hK : Kept s₀ s) (e
    : (execRgnActWrite m i v s) = .next t₁) : Kept s₀ t₁ := by
  unfold execRgnActWrite at e
  cases e
  repeat' first
      | (with_reducible first
          | assumption | apply settleAll_kept | apply wr_kept | apply rgnActAt_kept | apply onLive_kept
          | apply eachTarget_kept | apply Kept.foldl | rfl)
      | (intro _) | with_reducible apply Kept.ite | split | with_reducible refine Kept.mk' ?_ ?_ ?_ ?_

theorem execSubstClear_kept {s₀ : State} {m : Master} {hi : Bool} {v : Word} {s t₁ : State} (hK : Kept s₀ s) (e :
    (execSubstClear m hi v s) = .next t₁) : Kept s₀ t₁ := by
  unfold execSubstClear at e
  cases e
  repeat' first
      | (with_reducible first
          | assumption | apply settleAll_kept | apply wr_kept | apply onLive_kept | apply eachTarget_kept
          | apply substClearAt_kept | apply Kept.foldl | rfl)
      | (intro _) | with_reducible apply Kept.ite | split | with_reducible refine Kept.mk' ?_ ?_ ?_ ?_

theorem execLogDrain_kept {s₀ : State} {failed : Bool} {s t₁ : State} (hK : Kept s₀ s) (e : (execLogDrain failed
    s) = .next t₁) : Kept s₀ t₁ := by
  unfold execLogDrain at e
  cases e
  repeat' first
      | (with_reducible first
          | assumption | apply settleAll_kept | apply logDrain_kept | apply onLive_kept | apply Kept.foldl | rfl)
      | (intro _) | with_reducible apply Kept.ite | split | with_reducible refine Kept.mk' ?_ ?_ ?_ ?_

end Sys2Proof.Machine
end

