-- ==== Sys2Proof/Laws/CmdHearth.lean ====
section
/-! SUPPORT. What each operation of Machine/CmdHearth.lean keeps (`Kept`). -/

set_option linter.unusedTactic false
set_option linter.unreachableTactic false

namespace Sys2Proof.Machine

theorem execCoreStart_kept {s₀ : State} {m : Master} {c : Core} {s t₁ : State} (hK : Kept s₀ s) (e :
    (execCoreStart m c s) = .next t₁) : Kept s₀ t₁ := by
  unfold execCoreStart at e
  cases e
  repeat' first
      | (with_reducible first
          | assumption | apply wr_kept | apply coreStart_kept | apply onLive_kept | apply Kept.foldl | rfl)
      | (intro _) | with_reducible apply Kept.ite | split | with_reducible refine Kept.mk' ?_ ?_ ?_ ?_

theorem execCoreInstruction_kept {s₀ : State} {c : Core} {parity : Option Word} {s t₁ : State} (hK : Kept s₀ s) (e
    : (execCoreInstruction c parity s) = .next t₁) : Kept s₀ t₁ := by
  unfold execCoreInstruction at e
  cases e
  repeat' first
      | (with_reducible first | assumption | apply onLive_kept | apply coreInstr_kept | apply Kept.foldl | rfl)
      | (intro _) | with_reducible apply Kept.ite | split | with_reducible refine Kept.mk' ?_ ?_ ?_ ?_

theorem execOwnStoreWindowRead_kept {s₀ : State} {c : Core} {failed : Bool} {s t₁ : State} (hK : Kept s₀ s) (e :
    (execOwnStoreWindowRead c failed s) = .next t₁) : Kept s₀ t₁ := by
  unfold execOwnStoreWindowRead at e
  cases e
  repeat' first
      | (with_reducible first | assumption | apply onLive_kept | apply ownStoreRead_kept | apply Kept.foldl | rfl)
      | (intro _) | with_reducible apply Kept.ite | split | with_reducible refine Kept.mk' ?_ ?_ ?_ ?_

theorem execRuInvalidate_kept {s₀ : State} {m : Master} {v : Word} {s t₁ : State} (hK : Kept s₀ s) (e :
    (execRuInvalidate m v s) = .next t₁) : Kept s₀ t₁ := by
  unfold execRuInvalidate at e
  cases e
  repeat' first
      | (with_reducible first
          | assumption | apply wr_kept | apply onLive_kept | apply ruInvalidate_kept | apply Kept.foldl | rfl)
      | (intro _) | with_reducible apply Kept.ite | split | with_reducible refine Kept.mk' ?_ ?_ ?_ ?_

theorem execRuRootWrite_kept {s₀ : State} {m : Master} {r : Fin 20} {v : Word} {s t₁ : State} (hK : Kept s₀ s) (e
    : (execRuRootWrite m r v s) = .next t₁) : Kept s₀ t₁ := by
  unfold execRuRootWrite at e
  cases e
  repeat' first
      | (with_reducible first
          | assumption | apply wr_kept | apply ruRootWrite_kept | apply onLive_kept | apply Kept.foldl | rfl)
      | (intro _) | with_reducible apply Kept.ite | split | with_reducible refine Kept.mk' ?_ ?_ ?_ ?_

theorem execDmaGo_kept {s₀ : State} {m : Master} {k : Fin 16} {s t₁ : State} (hK : Kept s₀ s) (e : (execDmaGo m k
    s) = .next t₁) : Kept s₀ t₁ := by
  unfold execDmaGo at e
  cases e
  repeat' first
      | (with_reducible first
          | assumption | apply wr_kept | apply onLive_kept | apply dmaTake_kept | apply dmaGo_kept | apply Kept.foldl | rfl)
      | (intro _) | with_reducible apply Kept.ite | split | with_reducible refine Kept.mk' ?_ ?_ ?_ ?_

theorem execDmaAbort_kept {s₀ : State} {m : Master} {k : Fin 16} {s t₁ : State} (hK : Kept s₀ s) (e :
    (execDmaAbort m k s) = .next t₁) : Kept s₀ t₁ := by
  unfold execDmaAbort at e
  cases e
  repeat' first
      | (with_reducible first
          | assumption | apply settleAll_kept | apply wr_kept | apply dmaTake_kept | apply dmaAbort_kept | apply onLive_kept
          | apply Kept.foldl | rfl)
      | (intro _) | with_reducible apply Kept.ite | split | with_reducible refine Kept.mk' ?_ ?_ ?_ ?_

theorem execDmaResume_kept {s₀ : State} {m : Master} {k : Fin 16} {s t₁ : State} (hK : Kept s₀ s) (e :
    (execDmaResume m k s) = .next t₁) : Kept s₀ t₁ := by
  unfold execDmaResume at e
  cases e
  repeat' first
      | (with_reducible first
          | assumption | apply wr_kept | apply onLive_kept | apply dmaTake_kept | apply dmaResume_kept | apply Kept.foldl | rfl)
      | (intro _) | with_reducible apply Kept.ite | split | with_reducible refine Kept.mk' ?_ ?_ ?_ ?_

theorem execDmaBeat_kept {s₀ : State} {mv : Fin 4} {parity : Option Word} {s t₁ : State} (hK : Kept s₀ s) (e :
    (execDmaBeat mv parity s) = .next t₁) : Kept s₀ t₁ := by
  unfold execDmaBeat at e
  cases e
  repeat' first
      | (with_reducible first | assumption | apply dmaBeat_kept | apply onLive_kept | apply Kept.foldl | rfl)
      | (intro _) | with_reducible apply Kept.ite | split | with_reducible refine Kept.mk' ?_ ?_ ?_ ?_

theorem execDmaAging_kept {s₀ : State} {k : Fin 16} {s t₁ : State} (hK : Kept s₀ s) (e : (execDmaAging k s) =
    .next t₁) : Kept s₀ t₁ := by
  unfold execDmaAging at e
  cases e
  repeat' first
      | (with_reducible first | assumption | apply onLive_kept | apply dmaAge_kept | apply Kept.foldl | rfl)
      | (intro _) | with_reducible apply Kept.ite | split | with_reducible refine Kept.mk' ?_ ?_ ?_ ?_

theorem execIntClaim_kept {s₀ : State} {m : Master} {c : Core} {src : Fin 32} {s t₁ : State} (hK : Kept s₀ s) (e :
    (execIntClaim m c src s) = .next t₁) : Kept s₀ t₁ := by
  unfold execIntClaim at e
  cases e
  repeat' first
      | (with_reducible first
          | assumption | apply wr_kept | apply onLive_kept | apply intClaim_kept | apply Kept.foldl | rfl)
      | (intro _) | with_reducible apply Kept.ite | split | with_reducible refine Kept.mk' ?_ ?_ ?_ ?_

theorem execIntComplete_kept {s₀ : State} {m : Master} {c : Core} {src : Fin 32} {s t₁ : State} (hK : Kept s₀ s)
    (e : (execIntComplete m c src s) = .next t₁) : Kept s₀ t₁ := by
  unfold execIntComplete at e
  cases e
  repeat' first
      | (with_reducible first
          | assumption | apply wr_kept | apply onLive_kept | apply intComplete_kept | apply Kept.foldl | rfl)
      | (intro _) | with_reducible apply Kept.ite | split | with_reducible refine Kept.mk' ?_ ?_ ?_ ?_

theorem execMtimecmpMatch_kept {s₀ : State} {c : Core} {s t₁ : State} (hK : Kept s₀ s) (e : (execMtimecmpMatch c
    s) = .next t₁) : Kept s₀ t₁ := by
  unfold execMtimecmpMatch at e
  cases e
  repeat' first
      | (with_reducible first | assumption | apply onLive_kept | apply mtimeMatch_kept | apply Kept.foldl | rfl)
      | (intro _) | with_reducible apply Kept.ite | split | with_reducible refine Kept.mk' ?_ ?_ ?_ ?_

theorem execTapInstruction_kept {s₀ : State} {ir : BitVec 5} {s t₁ : State} (hK : Kept s₀ s) (e :
    (execTapInstruction ir s) = .next t₁) : Kept s₀ t₁ := by
  unfold execTapInstruction at e
  cases e
  repeat' first
      | (with_reducible first | assumption | apply tapSelect_kept | apply Kept.foldl | rfl) | (intro _)
      | with_reducible apply Kept.ite | split | with_reducible refine Kept.mk' ?_ ?_ ?_ ?_

theorem execDebugAccess_kept {s₀ : State} {a : DebugOp} {s t₁ : State} (hK : Kept s₀ s) (e : (execDebugAccess a s)
    = .next t₁) : Kept s₀ t₁ := by
  unfold execDebugAccess at e
  cases e
  repeat' first
      | (with_reducible first | assumption | apply debugAccess_kept | apply onLive_kept | apply Kept.foldl | rfl)
      | (intro _) | with_reducible apply Kept.ite | split | with_reducible refine Kept.mk' ?_ ?_ ?_ ?_

end Sys2Proof.Machine
end

