-- ==== Sys2Proof/Laws/CmdHost.lean ====
section
/-! SUPPORT. What each operation of Machine/CmdHost.lean keeps (`Kept`). -/

set_option linter.unusedTactic false
set_option linter.unreachableTactic false

namespace Sys2Proof.Machine

theorem execRead_kept {s₀ : State} {c : Ch} {t : HostTxn} {s t₁ : State} (hK : Kept s₀ s) (e : (execRead c t s) =
    .next t₁) : Kept s₀ t₁ := by
  unfold execRead at e
  cases e
  repeat' first
      | (with_reducible first | assumption | apply onLive_kept | apply hostRead_kept | apply Kept.foldl | rfl)
      | (intro _) | with_reducible apply Kept.ite | split | with_reducible refine Kept.mk' ?_ ?_ ?_ ?_

theorem execProgram_kept {s₀ : State} {c : Ch} {t : HostTxn} {s t₁ : State} (hK : Kept s₀ s) (e : (execProgram c t
    s) = .next t₁) : Kept s₀ t₁ := by
  unfold execProgram at e
  cases e
  repeat' first
      | (with_reducible first | assumption | apply hostProgram_kept | apply onLive_kept | apply Kept.foldl | rfl)
      | (intro _) | with_reducible apply Kept.ite | split | with_reducible refine Kept.mk' ?_ ?_ ?_ ?_

theorem execErase_kept {s₀ : State} {c : Ch} {t : HostTxn} {s t₁ : State} (hK : Kept s₀ s) (e : (execErase c t s)
    = .next t₁) : Kept s₀ t₁ := by
  unfold execErase at e
  cases e
  repeat' first
      | (with_reducible first | assumption | apply onLive_kept | apply hostErase_kept | apply Kept.foldl | rfl)
      | (intro _) | with_reducible apply Kept.ite | split | with_reducible refine Kept.mk' ?_ ?_ ?_ ?_

theorem execWren_kept {s₀ : State} {c : Ch} {t : HostTxn} {s t₁ : State} (hK : Kept s₀ s) (e : (execWren c t s) =
    .next t₁) : Kept s₀ t₁ := by
  unfold execWren at e
  cases e
  repeat' first
      | (with_reducible first | assumption | apply onLive_kept | apply hostWren_kept | apply Kept.foldl | rfl)
      | (intro _) | with_reducible apply Kept.ite | split | with_reducible refine Kept.mk' ?_ ?_ ?_ ?_

theorem execWrdi_kept {s₀ : State} {c : Ch} {t : HostTxn} {s t₁ : State} (hK : Kept s₀ s) (e : (execWrdi c t s) =
    .next t₁) : Kept s₀ t₁ := by
  unfold execWrdi at e
  cases e
  repeat' first
      | (with_reducible first | assumption | apply hostWrdi_kept | apply onLive_kept | apply Kept.foldl | rfl)
      | (intro _) | with_reducible apply Kept.ite | split | with_reducible refine Kept.mk' ?_ ?_ ?_ ?_

theorem execRdsr_kept {s₀ : State} {c : Ch} {t : HostTxn} {s t₁ : State} (hK : Kept s₀ s) (e : (execRdsr c t s) =
    .next t₁) : Kept s₀ t₁ := by
  unfold execRdsr at e
  cases e
  repeat' first
      | (with_reducible first | assumption | apply onLive_kept | apply hostRdsr_kept | apply Kept.foldl | rfl)
      | (intro _) | with_reducible apply Kept.ite | split | with_reducible refine Kept.mk' ?_ ?_ ?_ ?_

theorem execRdreg_kept {s₀ : State} {c : Ch} {t : HostTxn} {s t₁ : State} (hK : Kept s₀ s) (e : (execRdreg c t s)
    = .next t₁) : Kept s₀ t₁ := by
  unfold execRdreg at e
  cases e
  repeat' first
      | (with_reducible first | assumption | apply onLive_kept | apply hostRdreg_kept | apply Kept.foldl | rfl)
      | (intro _) | with_reducible apply Kept.ite | split | with_reducible refine Kept.mk' ?_ ?_ ?_ ?_

theorem execWrreg_kept {s₀ : State} {c : Ch} {t : HostTxn} {s t₁ : State} (hK : Kept s₀ s) (e : (execWrreg c t s)
    = .next t₁) : Kept s₀ t₁ := by
  unfold execWrreg at e
  cases e
  repeat' first
      | (with_reducible first | assumption | apply onLive_kept | apply hostWrreg_kept | apply Kept.foldl | rfl)
      | (intro _) | with_reducible apply Kept.ite | split | with_reducible refine Kept.mk' ?_ ?_ ?_ ?_

theorem execSfdp_kept {s₀ : State} {c : Ch} {t : HostTxn} {s t₁ : State} (hK : Kept s₀ s) (e : (execSfdp c t s) =
    .next t₁) : Kept s₀ t₁ := by
  unfold execSfdp at e
  cases e
  repeat' first
      | (with_reducible first | assumption | apply onLive_kept | apply hostSfdp_kept | apply Kept.foldl | rfl)
      | (intro _) | with_reducible apply Kept.ite | split | with_reducible refine Kept.mk' ?_ ?_ ?_ ?_

theorem execReadId_kept {s₀ : State} {c : Ch} {t : HostTxn} {s t₁ : State} (hK : Kept s₀ s) (e : (execReadId c t
    s) = .next t₁) : Kept s₀ t₁ := by
  unfold execReadId at e
  cases e
  repeat' first
      | (with_reducible first | assumption | apply onLive_kept | apply hostReadId_kept | apply Kept.foldl | rfl)
      | (intro _) | with_reducible apply Kept.ite | split | with_reducible refine Kept.mk' ?_ ?_ ?_ ?_

theorem execAddr4Enter_kept {s₀ : State} {c : Ch} {t : HostTxn} {s t₁ : State} (hK : Kept s₀ s) (e :
    (execAddr4Enter c t s) = .next t₁) : Kept s₀ t₁ := by
  unfold execAddr4Enter at e
  cases e
  repeat' first
      | (with_reducible first | assumption | apply onLive_kept | apply hostAddr4_kept | apply Kept.foldl | rfl)
      | (intro _) | with_reducible apply Kept.ite | split | with_reducible refine Kept.mk' ?_ ?_ ?_ ?_

theorem execAddr4Exit_kept {s₀ : State} {c : Ch} {t : HostTxn} {s t₁ : State} (hK : Kept s₀ s) (e : (execAddr4Exit
    c t s) = .next t₁) : Kept s₀ t₁ := by
  unfold execAddr4Exit at e
  cases e
  repeat' first
      | (with_reducible first | assumption | apply onLive_kept | apply hostAddr4_kept | apply Kept.foldl | rfl)
      | (intro _) | with_reducible apply Kept.ite | split | with_reducible refine Kept.mk' ?_ ?_ ?_ ?_

theorem execProtoSwitch_kept {s₀ : State} {c : Ch} {t : HostTxn} {s t₁ : State} (hK : Kept s₀ s) (e :
    (execProtoSwitch c t s) = .next t₁) : Kept s₀ t₁ := by
  unfold execProtoSwitch at e
  cases e
  repeat' first
      | (with_reducible first | assumption | apply onLive_kept | apply hostProto_kept | apply Kept.foldl | rfl)
      | (intro _) | with_reducible apply Kept.ite | split | with_reducible refine Kept.mk' ?_ ?_ ?_ ?_

theorem execResetEn_kept {s₀ : State} {c : Ch} {t : HostTxn} {s t₁ : State} (hK : Kept s₀ s) (e : (execResetEn c t
    s) = .next t₁) : Kept s₀ t₁ := by
  unfold execResetEn at e
  cases e
  repeat' first
      | (with_reducible first | assumption | apply hostResetEn_kept | apply onLive_kept | apply Kept.foldl | rfl)
      | (intro _) | with_reducible apply Kept.ite | split | with_reducible refine Kept.mk' ?_ ?_ ?_ ?_

theorem execReset_kept {s₀ : State} {c : Ch} {t : HostTxn} {s t₁ : State} (hK : Kept s₀ s) (e : (execReset c t s)
    = .next t₁) : Kept s₀ t₁ := by
  unfold execReset at e
  cases e
  repeat' first
      | (with_reducible first | assumption | apply onLive_kept | apply hostReset_kept | apply Kept.foldl | rfl)
      | (intro _) | with_reducible apply Kept.ite | split | with_reducible refine Kept.mk' ?_ ?_ ?_ ?_

theorem execSuspend_kept {s₀ : State} {c : Ch} {t : HostTxn} {s t₁ : State} (hK : Kept s₀ s) (e : (execSuspend c t
    s) = .next t₁) : Kept s₀ t₁ := by
  unfold execSuspend at e
  cases e
  repeat' first
      | (with_reducible first | assumption | apply hostSuspend_kept | apply onLive_kept | apply Kept.foldl | rfl)
      | (intro _) | with_reducible apply Kept.ite | split | with_reducible refine Kept.mk' ?_ ?_ ?_ ?_

theorem execResume_kept {s₀ : State} {c : Ch} {t : HostTxn} {s t₁ : State} (hK : Kept s₀ s) (e : (execResume c t
    s) = .next t₁) : Kept s₀ t₁ := by
  unfold execResume at e
  cases e
  repeat' first
      | (with_reducible first | assumption | apply onLive_kept | apply hostResume_kept | apply Kept.foldl | rfl)
      | (intro _) | with_reducible apply Kept.ite | split | with_reducible refine Kept.mk' ?_ ?_ ?_ ?_

theorem execUnknown_kept {s₀ : State} {c : Ch} {t : HostTxn} {s t₁ : State} (hK : Kept s₀ s) (e : (execUnknown c t
    s) = .next t₁) : Kept s₀ t₁ := by
  unfold execUnknown at e
  cases e
  repeat' first
      | (with_reducible first | assumption | apply hostUnknown_kept | apply onLive_kept | apply Kept.foldl | rfl)
      | (intro _) | with_reducible apply Kept.ite | split | with_reducible refine Kept.mk' ?_ ?_ ?_ ?_

theorem execTruncatedTransaction_kept {s₀ : State} {c : Ch} {at_ : TruncAt} {t : HostTxn} {s t₁ : State} (hK :
    Kept s₀ s) (e : (execTruncatedTransaction c at_ t s) = .next t₁) : Kept s₀ t₁ := by
  unfold execTruncatedTransaction at e
  cases e
  repeat' first
      | (with_reducible first | assumption | apply onLive_kept | apply hostTrunc_kept | apply Kept.foldl | rfl)
      | (intro _) | with_reducible apply Kept.ite | split | with_reducible refine Kept.mk' ?_ ?_ ?_ ?_

end Sys2Proof.Machine
end

