-- ==== Sys2Proof/Laws/CmdImage.lean ====
section
/-! SUPPORT. What each operation of Machine/CmdImage.lean keeps (`Kept`). -/

set_option linter.unusedTactic false
set_option linter.unreachableTactic false

namespace Sys2Proof.Machine

theorem execLoad_kept {s₀ : State} {m : Master} {s t₁ : State} (hK : Kept s₀ s) (e : (execLoad m s) = .next t₁) :
    Kept s₀ t₁ := by
  unfold execLoad at e
  cases e
  repeat' first
      | (with_reducible first
          | assumption | apply wr_kept | apply onLive_kept | apply stLoad_kept | apply Kept.foldl | rfl)
      | (intro _) | with_reducible apply Kept.ite | split | with_reducible refine Kept.mk' ?_ ?_ ?_ ?_

theorem execLoadCommit_kept {s₀ s t₁ : State} (hK : Kept s₀ s) (e : (execLoadCommit s) = .next t₁) : Kept s₀ t₁ := by
  unfold execLoadCommit at e
  cases e
  repeat' first
      | (with_reducible first | assumption | apply onLive_kept | apply loadCommit_kept | apply Kept.foldl | rfl)
      | (intro _) | with_reducible apply Kept.ite | split | with_reducible refine Kept.mk' ?_ ?_ ?_ ?_

theorem execLoadReject_kept {s₀ : State} {readFail : Option Nat} {s t₁ : State} (hK : Kept s₀ s) (e :
    (execLoadReject readFail s) = .next t₁) : Kept s₀ t₁ := by
  unfold execLoadReject at e
  cases e
  repeat' first
      | (with_reducible first | assumption | apply onLive_kept | apply stReject_kept | apply Kept.foldl | rfl)
      | (intro _) | with_reducible apply Kept.ite | split | with_reducible refine Kept.mk' ?_ ?_ ?_ ?_

theorem execLock_kept {s₀ : State} {m : Master} {s t₁ : State} (hK : Kept s₀ s) (e : (execLock m s) = .next t₁) :
    Kept s₀ t₁ := by
  unfold execLock at e
  cases e
  repeat' first
      | (with_reducible first
          | assumption | apply wr_kept | apply stLock_kept | apply onLive_kept | apply Kept.foldl | rfl)
      | (intro _) | with_reducible apply Kept.ite | split | with_reducible refine Kept.mk' ?_ ?_ ?_ ?_

theorem execRestructureStart_kept {s₀ : State} {m : Master} {s t₁ : State} (hK : Kept s₀ s) (e :
    (execRestructureStart m s) = .next t₁) : Kept s₀ t₁ := by
  unfold execRestructureStart at e
  cases e
  repeat' first
      | (with_reducible first
          | assumption | apply wr_kept | apply onLive_kept | apply rsStart_kept | apply Kept.foldl | rfl)
      | (intro _) | with_reducible apply Kept.ite | split | with_reducible refine Kept.mk' ?_ ?_ ?_ ?_

theorem execRestructureCommit_kept {s₀ s t₁ : State} (hK : Kept s₀ s) (e : (execRestructureCommit s) = .next t₁) :
    Kept s₀ t₁ := by
  unfold execRestructureCommit at e
  cases e
  repeat' first
      | (with_reducible first | assumption | apply rsCommit_kept | apply onLive_kept | apply Kept.foldl | rfl)
      | (intro _) | with_reducible apply Kept.ite | split | with_reducible refine Kept.mk' ?_ ?_ ?_ ?_

theorem execRestructureHoldClear_kept {s₀ : State} {m : Master} {v : Word} {s t₁ : State} (hK : Kept s₀ s) (e :
    (execRestructureHoldClear m v s) = .next t₁) : Kept s₀ t₁ := by
  unfold execRestructureHoldClear at e
  cases e
  repeat' first
      | (with_reducible first
          | assumption | apply rsHoldClear_kept | apply wr_kept | apply onLive_kept | apply Kept.foldl | rfl)
      | (intro _) | with_reducible apply Kept.ite | split | with_reducible refine Kept.mk' ?_ ?_ ?_ ?_

theorem execAdvance_kept {s₀ : State} {m : Master} {s t₁ : State} (hK : Kept s₀ s) (e : (execAdvance m s) = .next
    t₁) : Kept s₀ t₁ := by
  unfold execAdvance at e
  cases e
  repeat' first
      | (with_reducible first
          | assumption | apply wr_kept | apply onLive_kept | apply arbAdvance_kept | apply Kept.foldl | rfl)
      | (intro _) | with_reducible apply Kept.ite | split | with_reducible refine Kept.mk' ?_ ?_ ?_ ?_

theorem execAdvanceDone_kept {s₀ : State} {otpFail : Bool} {s t₁ : State} (hK : Kept s₀ s) (e : (execAdvanceDone
    otpFail s) = .next t₁) : Kept s₀ t₁ := by
  unfold execAdvanceDone at e
  cases e
  repeat' first
      | (with_reducible first | assumption | apply onLive_kept | apply arbDone_kept | apply Kept.foldl | rfl)
      | (intro _) | with_reducible apply Kept.ite | split | with_reducible refine Kept.mk' ?_ ?_ ?_ ?_

end Sys2Proof.Machine
end

