-- ==== Sys2Proof/Laws/CmdLife.lean ====
section
/-! SUPPORT. What each operation of Machine/CmdLife.lean keeps (`Kept`). -/

set_option linter.unusedTactic false
set_option linter.unreachableTactic false

namespace Sys2Proof.Machine

theorem execToTest_kept {s₀ : State} {m : Master} {s t₁ : State} (hK : Kept s₀ s) (e : (execToTest m s) = .next
    t₁) : Kept s₀ t₁ := by
  unfold execToTest at e
  cases e
  repeat' first
      | (with_reducible first
          | assumption | apply lcToTest_kept | apply lcCommand_kept | apply wr_kept | apply onLive_kept
          | apply Kept.foldl | rfl)
      | (intro _) | with_reducible apply Kept.ite | split | with_reducible refine Kept.mk' ?_ ?_ ?_ ?_

theorem execToProduction_kept {s₀ : State} {m : Master} {s t₁ : State} (hK : Kept s₀ s) (e : (execToProduction m
    s) = .next t₁) : Kept s₀ t₁ := by
  unfold execToProduction at e
  cases e
  repeat' first
      | (with_reducible first
          | assumption | apply lcCommand_kept | apply wr_kept | apply onLive_kept | apply lcToProduction_kept
          | apply Kept.foldl | rfl)
      | (intro _) | with_reducible apply Kept.ite | split | with_reducible refine Kept.mk' ?_ ?_ ?_ ?_

theorem execProvision_kept {s₀ : State} {m : Master} {s t₁ : State} (hK : Kept s₀ s) (e : (execProvision m s) =
    .next t₁) : Kept s₀ t₁ := by
  unfold execProvision at e
  cases e
  repeat' first
      | (with_reducible first
          | assumption | apply lcCommand_kept | apply wr_kept | apply onLive_kept | apply lcProvision_kept
          | apply Kept.foldl | rfl)
      | (intro _) | with_reducible apply Kept.ite | split | with_reducible refine Kept.mk' ?_ ?_ ?_ ?_

theorem execRedeem_kept {s₀ : State} {m : Master} {s t₁ : State} (hK : Kept s₀ s) (e : (execRedeem m s) = .next
    t₁) : Kept s₀ t₁ := by
  unfold execRedeem at e
  cases e
  repeat' first
      | (with_reducible first
          | assumption | apply lcRedeem_kept | apply lcCommand_kept | apply wr_kept | apply onLive_kept
          | apply Kept.foldl | rfl)
      | (intro _) | with_reducible apply Kept.ite | split | with_reducible refine Kept.mk' ?_ ?_ ?_ ?_

theorem execToEol_kept {s₀ : State} {m : Master} {s t₁ : State} (hK : Kept s₀ s) (e : (execToEol m s) = .next t₁)
    : Kept s₀ t₁ := by
  unfold execToEol at e
  cases e
  repeat' first
      | (with_reducible first
          | assumption | apply lcToEol_kept | apply lcCommand_kept | apply wr_kept | apply onLive_kept
          | apply Kept.foldl | rfl)
      | (intro _) | with_reducible apply Kept.ite | split | with_reducible refine Kept.mk' ?_ ?_ ?_ ?_

theorem execNonce_kept {s₀ : State} {m : Master} {s t₁ : State} (hK : Kept s₀ s) (e : (execNonce m s) = .next t₁)
    : Kept s₀ t₁ := by
  unfold execNonce at e
  cases e
  repeat' first
      | (with_reducible first
          | assumption | apply lcNonce_kept | apply lcCommand_kept | apply wr_kept | apply onLive_kept
          | apply Kept.foldl | rfl)
      | (intro _) | with_reducible apply Kept.ite | split | with_reducible refine Kept.mk' ?_ ?_ ?_ ?_

theorem execLcTransitionEnd_kept {s₀ : State} {otpFail : Bool} {s t₁ : State} (hK : Kept s₀ s) (e :
    (execLcTransitionEnd otpFail s) = .next t₁) : Kept s₀ t₁ := by
  unfold execLcTransitionEnd at e
  cases e
  repeat' first
      | (with_reducible first | assumption | apply onLive_kept | apply lcEnd_kept | apply Kept.foldl | rfl)
      | (intro _) | with_reducible apply Kept.ite | split | with_reducible refine Kept.mk' ?_ ?_ ?_ ?_

theorem execTokenCheckEnd_kept {s₀ s t₁ : State} (hK : Kept s₀ s) (e : (execTokenCheckEnd s) = .next t₁) : Kept s₀
    t₁ := by
  unfold execTokenCheckEnd at e
  cases e
  repeat' first
      | (with_reducible first | assumption | apply onLive_kept | apply tokenEnd_kept | apply Kept.foldl | rfl)
      | (intro _) | with_reducible apply Kept.ite | split | with_reducible refine Kept.mk' ?_ ?_ ?_ ?_

end Sys2Proof.Machine
end

