-- ==== Sys2Proof/Laws/CmdMail.lean ====
section
/-! SUPPORT. What each operation of Machine/CmdMail.lean keeps (`Kept`). -/

set_option linter.unusedTactic false
set_option linter.unreachableTactic false

namespace Sys2Proof.Machine

theorem execMbSend_kept {s₀ : State} {m : Master} {s t₁ : State} (hK : Kept s₀ s) (e : (execMbSend m s) = .next
    t₁) : Kept s₀ t₁ := by
  unfold execMbSend at e
  cases e
  repeat' first
      | (with_reducible first
          | assumption | apply mbSend_kept | apply mbAccess_kept | apply onLive_kept | apply Kept.foldl | rfl)
      | (intro _) | with_reducible apply Kept.ite | split | with_reducible refine Kept.mk' ?_ ?_ ?_ ?_

theorem execMbPop_kept {s₀ : State} {m : Master} {s t₁ : State} (hK : Kept s₀ s) (e : (execMbPop m s) = .next t₁)
    : Kept s₀ t₁ := by
  unfold execMbPop at e
  cases e
  repeat' first
      | (with_reducible first
          | assumption | apply mbAccess_kept | apply mbPop_kept | apply onLive_kept | apply Kept.foldl | rfl)
      | (intro _) | with_reducible apply Kept.ite | split | with_reducible refine Kept.mk' ?_ ?_ ?_ ?_

theorem execLockRead_kept {s₀ : State} {m : Master} {k : Fin 16} {s t₁ : State} (hK : Kept s₀ s) (e :
    (execLockRead m k s) = .next t₁) : Kept s₀ t₁ := by
  unfold execLockRead at e
  cases e
  repeat' first
      | (with_reducible first
          | assumption | apply mbAccess_kept | apply onLive_kept | apply lockRead_kept | apply Kept.foldl | rfl)
      | (intro _) | with_reducible apply Kept.ite | split | with_reducible refine Kept.mk' ?_ ?_ ?_ ?_

theorem execLockWrite_kept {s₀ : State} {m : Master} {k : Fin 16} {v : Word} {s t₁ : State} (hK : Kept s₀ s) (e :
    (execLockWrite m k v s) = .next t₁) : Kept s₀ t₁ := by
  unfold execLockWrite at e
  cases e
  repeat' first
      | (with_reducible first
          | assumption | apply mbAccess_kept | apply onLive_kept | apply lockWrite_kept | apply Kept.foldl | rfl)
      | (intro _) | with_reducible apply Kept.ite | split | with_reducible refine Kept.mk' ?_ ?_ ?_ ?_

theorem execTallySnapshotRead_kept {s₀ : State} {m : Master} {s t₁ : State} (hK : Kept s₀ s) (e :
    (execTallySnapshotRead m s) = .next t₁) : Kept s₀ t₁ := by
  unfold execTallySnapshotRead at e
  cases e
  repeat' first
      | (with_reducible first
          | assumption | apply mbAccess_kept | apply tallySnap_kept | apply onLive_kept | apply Kept.foldl | rfl)
      | (intro _) | with_reducible apply Kept.ite | split | with_reducible refine Kept.mk' ?_ ?_ ?_ ?_

theorem execExtend_kept {s₀ : State} {m : Master} {s t₁ : State} (hK : Kept s₀ s) (e : (execExtend m s) = .next
    t₁) : Kept s₀ t₁ := by
  unfold execExtend at e
  cases e
  repeat' first
      | (with_reducible first
          | assumption | apply mbAccess_kept | apply tallyExtend_kept | apply onLive_kept | apply Kept.foldl | rfl)
      | (intro _) | with_reducible apply Kept.ite | split | with_reducible refine Kept.mk' ?_ ?_ ?_ ?_

theorem execTallyExtensionDone_kept {s₀ : State} {t : Fin 64} {s t₁ : State} (hK : Kept s₀ s) (e :
    (execTallyExtensionDone t s) = .next t₁) : Kept s₀ t₁ := by
  unfold execTallyExtensionDone at e
  cases e
  repeat' first
      | (with_reducible first
          | assumption | apply settleAll_kept | apply tallyDone_kept | apply onLive_kept | apply Kept.foldl | rfl)
      | (intro _) | with_reducible apply Kept.ite | split | with_reducible refine Kept.mk' ?_ ?_ ?_ ?_

theorem execMctpPacketRx_kept {s₀ : State} {p : Fin 4} {pkt : List Byte} {s t₁ : State} (hK : Kept s₀ s) (e :
    (execMctpPacketRx p pkt s) = .next t₁) : Kept s₀ t₁ := by
  unfold execMctpPacketRx at e
  cases e
  repeat' first
      | (with_reducible first | assumption | apply onLive_kept | apply mctpRx_kept | apply Kept.foldl | rfl)
      | (intro _) | with_reducible apply Kept.ite | split | with_reducible refine Kept.mk' ?_ ?_ ?_ ?_

theorem execMctpPacketRead_kept {s₀ : State} {p : Fin 4} {s t₁ : State} (hK : Kept s₀ s) (e : (execMctpPacketRead
    p s) = .next t₁) : Kept s₀ t₁ := by
  unfold execMctpPacketRead at e
  cases e
  repeat' first
      | (with_reducible first | assumption | apply onLive_kept | apply i3cPacketRead_kept | apply Kept.foldl | rfl)
      | (intro _) | with_reducible apply Kept.ite | split | with_reducible refine Kept.mk' ?_ ?_ ?_ ?_

theorem execI3cCcc_kept {s₀ : State} {p : Fin 4} {ccc : Byte} {directed : Bool} {data : List Byte} {s t₁ : State}
    (hK : Kept s₀ s) (e : (execI3cCcc p ccc directed data s) = .next t₁) : Kept s₀ t₁ := by
  unfold execI3cCcc at e
  cases e
  repeat' first
      | (with_reducible first | assumption | apply i3cCcc_kept | apply onLive_kept | apply Kept.foldl | rfl)
      | (intro _) | with_reducible apply Kept.ite | split | with_reducible refine Kept.mk' ?_ ?_ ?_ ?_

theorem execI3cReplyRead_kept {s₀ : State} {p : Fin 4} {s t₁ : State} (hK : Kept s₀ s) (e : (execI3cReplyRead p s)
    = .next t₁) : Kept s₀ t₁ := by
  unfold execI3cReplyRead at e
  cases e
  repeat' first
      | (with_reducible first | assumption | apply onLive_kept | apply i3cReplyRead_kept | apply Kept.foldl | rfl)
      | (intro _) | with_reducible apply Kept.ite | split | with_reducible refine Kept.mk' ?_ ?_ ?_ ?_

theorem execI3cReplyTimeout_kept {s₀ : State} {p : Fin 4} {s t₁ : State} (hK : Kept s₀ s) (e :
    (execI3cReplyTimeout p s) = .next t₁) : Kept s₀ t₁ := by
  unfold execI3cReplyTimeout at e
  cases e
  repeat' first
      | (with_reducible first | assumption | apply onLive_kept | apply i3cTimeout_kept | apply Kept.foldl | rfl)
      | (intro _) | with_reducible apply Kept.ite | split | with_reducible refine Kept.mk' ?_ ?_ ?_ ?_

theorem execGetVersion_kept {s₀ : State} {n : Inst} {s t₁ : State} (hK : Kept s₀ s) (e : (execGetVersion n s) =
    .next t₁) : Kept s₀ t₁ := by
  unfold execGetVersion at e
  cases e
  repeat' first
      | (with_reducible first | assumption | apply onLive_kept | apply spdmVersion_kept | apply Kept.foldl | rfl)
      | (intro _) | with_reducible apply Kept.ite | split | with_reducible refine Kept.mk' ?_ ?_ ?_ ?_

theorem execGetCapabilities_kept {s₀ : State} {n : Inst} {s t₁ : State} (hK : Kept s₀ s) (e : (execGetCapabilities
    n s) = .next t₁) : Kept s₀ t₁ := by
  unfold execGetCapabilities at e
  cases e
  repeat' first
      | (with_reducible first | assumption | apply onLive_kept | apply spdmCaps_kept | apply Kept.foldl | rfl)
      | (intro _) | with_reducible apply Kept.ite | split | with_reducible refine Kept.mk' ?_ ?_ ?_ ?_

theorem execNegotiateAlgorithms_kept {s₀ : State} {n : Inst} {s t₁ : State} (hK : Kept s₀ s) (e :
    (execNegotiateAlgorithms n s) = .next t₁) : Kept s₀ t₁ := by
  unfold execNegotiateAlgorithms at e
  cases e
  repeat' first
      | (with_reducible first | assumption | apply onLive_kept | apply spdmAlgs_kept | apply Kept.foldl | rfl)
      | (intro _) | with_reducible apply Kept.ite | split | with_reducible refine Kept.mk' ?_ ?_ ?_ ?_

theorem execGetDigests_kept {s₀ : State} {n : Inst} {s t₁ : State} (hK : Kept s₀ s) (e : (execGetDigests n s) =
    .next t₁) : Kept s₀ t₁ := by
  unfold execGetDigests at e
  cases e
  repeat' first
      | (with_reducible first | assumption | apply onLive_kept | apply spdmDigests_kept | apply Kept.foldl | rfl)
      | (intro _) | with_reducible apply Kept.ite | split | with_reducible refine Kept.mk' ?_ ?_ ?_ ?_

theorem execGetCertificate_kept {s₀ : State} {n : Inst} {s t₁ : State} (hK : Kept s₀ s) (e : (execGetCertificate n
    s) = .next t₁) : Kept s₀ t₁ := by
  unfold execGetCertificate at e
  cases e
  repeat' first
      | (with_reducible first | assumption | apply onLive_kept | apply spdmCert_kept | apply Kept.foldl | rfl)
      | (intro _) | with_reducible apply Kept.ite | split | with_reducible refine Kept.mk' ?_ ?_ ?_ ?_

theorem execChallenge_kept {s₀ : State} {n : Inst} {s t₁ : State} (hK : Kept s₀ s) (e : (execChallenge n s) =
    .next t₁) : Kept s₀ t₁ := by
  unfold execChallenge at e
  cases e
  repeat' first
      | (with_reducible first | assumption | apply onLive_kept | apply spdmChallenge_kept | apply Kept.foldl | rfl)
      | (intro _) | with_reducible apply Kept.ite | split | with_reducible refine Kept.mk' ?_ ?_ ?_ ?_

theorem execGetMeasurements_kept {s₀ : State} {n : Inst} {s t₁ : State} (hK : Kept s₀ s) (e : (execGetMeasurements
    n s) = .next t₁) : Kept s₀ t₁ := by
  unfold execGetMeasurements at e
  cases e
  repeat' first
      | (with_reducible first | assumption | apply spdmMeas_kept | apply onLive_kept | apply Kept.foldl | rfl)
      | (intro _) | with_reducible apply Kept.ite | split | with_reducible refine Kept.mk' ?_ ?_ ?_ ?_

theorem execChunkGet_kept {s₀ : State} {n : Inst} {s t₁ : State} (hK : Kept s₀ s) (e : (execChunkGet n s) = .next
    t₁) : Kept s₀ t₁ := by
  unfold execChunkGet at e
  cases e
  repeat' first
      | (with_reducible first | assumption | apply spdmChunk_kept | apply onLive_kept | apply Kept.foldl | rfl)
      | (intro _) | with_reducible apply Kept.ite | split | with_reducible refine Kept.mk' ?_ ?_ ?_ ?_

theorem execUnsupportedRequest_kept {s₀ : State} {n : Inst} {s t₁ : State} (hK : Kept s₀ s) (e :
    (execUnsupportedRequest n s) = .next t₁) : Kept s₀ t₁ := by
  unfold execUnsupportedRequest at e
  cases e
  repeat' first
      | (with_reducible first | assumption | apply onLive_kept | apply spdmOther_kept | apply Kept.foldl | rfl)
      | (intro _) | with_reducible apply Kept.ite | split | with_reducible refine Kept.mk' ?_ ?_ ?_ ?_

theorem execSpdmResponseReady_kept {s₀ : State} {n : Inst} {s t₁ : State} (hK : Kept s₀ s) (e :
    (execSpdmResponseReady n s) = .next t₁) : Kept s₀ t₁ := by
  unfold execSpdmResponseReady at e
  cases e
  repeat' first
      | (with_reducible first
          | assumption | apply settleAll_kept | apply spdmReady_kept | apply onLive_kept | apply Kept.foldl | rfl)
      | (intro _) | with_reducible apply Kept.ite | split | with_reducible refine Kept.mk' ?_ ?_ ?_ ?_

end Sys2Proof.Machine
end

