-- ==== Sys2Proof/Laws/CmdPair.lean ====
section
/-! SUPPORT. What each operation of Machine/CmdPair.lean keeps (`Kept`). -/

set_option linter.unusedTactic false
set_option linter.unreachableTactic false

namespace Sys2Proof.Machine

theorem execPairRoleTimer_kept {s₀ s t₁ : State} (hK : Kept s₀ s) (e : (execPairRoleTimer s) = .next t₁) : Kept s₀
    t₁ := by
  unfold execPairRoleTimer at e
  cases e
  repeat' first
      | (with_reducible first | assumption | apply roleTimer_kept | apply onLive_kept | apply Kept.foldl | rfl)
      | (intro _) | with_reducible apply Kept.ite | split | with_reducible refine Kept.mk' ?_ ?_ ?_ ?_

theorem execPairHelloRx_kept {s₀ : State} {h : PairHello} {s t₁ : State} (hK : Kept s₀ s) (e : (execPairHelloRx h
    s) = .next t₁) : Kept s₀ t₁ := by
  unfold execPairHelloRx at e
  cases e
  repeat' first
      | (with_reducible first | assumption | apply onLive_kept | apply pairHello_kept | apply Kept.foldl | rfl)
      | (intro _) | with_reducible apply Kept.ite | split | with_reducible refine Kept.mk' ?_ ?_ ?_ ?_

theorem execLeaseTimer_kept {s₀ s t₁ : State} (hK : Kept s₀ s) (e : (execLeaseTimer s) = .next t₁) : Kept s₀ t₁ := by
  unfold execLeaseTimer at e
  cases e
  repeat' first
      | (with_reducible first | assumption | apply leaseTimer_kept | apply onLive_kept | apply Kept.foldl | rfl)
      | (intro _) | with_reducible apply Kept.ite | split | with_reducible refine Kept.mk' ?_ ?_ ?_ ?_

theorem execLeaseRx_kept {s₀ : State} {no : Option Word} {s t₁ : State} (hK : Kept s₀ s) (e : (execLeaseRx no s) =
    .next t₁) : Kept s₀ t₁ := by
  unfold execLeaseRx at e
  cases e
  repeat' first
      | (with_reducible first | assumption | apply onLive_kept | apply leaseRx_kept | apply Kept.foldl | rfl)
      | (intro _) | with_reducible apply Kept.ite | split | with_reducible refine Kept.mk' ?_ ?_ ?_ ?_

theorem execLackRx_kept {s₀ : State} {edge : Bool} {s t₁ : State} (hK : Kept s₀ s) (e : (execLackRx edge s) =
    .next t₁) : Kept s₀ t₁ := by
  unfold execLackRx at e
  cases e
  repeat' first
      | (with_reducible first | assumption | apply onLive_kept | apply lackRx_kept | apply Kept.foldl | rfl)
      | (intro _) | with_reducible apply Kept.ite | split | with_reducible refine Kept.mk' ?_ ?_ ?_ ?_

theorem execLackLoss_kept {s₀ s t₁ : State} (hK : Kept s₀ s) (e : (execLackLoss s) = .next t₁) : Kept s₀ t₁ := by
  unfold execLackLoss at e
  cases e
  repeat' first
      | (with_reducible first | assumption | apply onLive_kept | apply lackLoss_kept | apply Kept.foldl | rfl)
      | (intro _) | with_reducible apply Kept.ite | split | with_reducible refine Kept.mk' ?_ ?_ ?_ ?_

theorem execLeaseExpiry_kept {s₀ : State} {busy : BitVec 32} {s t₁ : State} (hK : Kept s₀ s) (e : (execLeaseExpiry
    busy s) = .next t₁) : Kept s₀ t₁ := by
  unfold execLeaseExpiry at e
  cases e
  repeat' first
      | (with_reducible first | assumption | apply leaseExpiry_kept | apply onLive_kept | apply Kept.foldl | rfl)
      | (intro _) | with_reducible apply Kept.ite | split | with_reducible refine Kept.mk' ?_ ?_ ?_ ?_

theorem execYield_kept {s₀ : State} {m : Master} {s t₁ : State} (hK : Kept s₀ s) (e : (execYield m s) = .next t₁)
    : Kept s₀ t₁ := by
  unfold execYield at e
  cases e
  repeat' first
      | (with_reducible first | assumption | apply pairYield_kept | apply onLive_kept | apply Kept.foldl | rfl)
      | (intro _) | with_reducible apply Kept.ite | split | with_reducible refine Kept.mk' ?_ ?_ ?_ ?_

theorem execHandover_kept {s₀ : State} {busy : BitVec 32} {s t₁ : State} (hK : Kept s₀ s) (e : (execHandover busy
    s) = .next t₁) : Kept s₀ t₁ := by
  unfold execHandover at e
  cases e
  repeat' first
      | (with_reducible first | assumption | apply onLive_kept | apply handover_kept | apply Kept.foldl | rfl)
      | (intro _) | with_reducible apply Kept.ite | split | with_reducible refine Kept.mk' ?_ ?_ ?_ ?_

theorem execClaim_kept {s₀ s t₁ : State} (hK : Kept s₀ s) (e : (execClaim s) = .next t₁) : Kept s₀ t₁ := by
  unfold execClaim at e
  cases e
  repeat' first
      | (with_reducible first | assumption | apply onLive_kept | apply claim_kept | apply Kept.foldl | rfl)
      | (intro _) | with_reducible apply Kept.ite | split | with_reducible refine Kept.mk' ?_ ?_ ?_ ?_

theorem execVblockRx_kept {s₀ : State} {b : VerdictBlock} {s t₁ : State} (hK : Kept s₀ s) (e : (execVblockRx b s)
    = .next t₁) : Kept s₀ t₁ := by
  unfold execVblockRx at e
  cases e
  repeat' first
      | (with_reducible first | assumption | apply onLive_kept | apply vblockRx_kept | apply Kept.foldl | rfl)
      | (intro _) | with_reducible apply Kept.ite | split | with_reducible refine Kept.mk' ?_ ?_ ?_ ?_

theorem execNoticeRx_kept {s₀ : State} {n : PairNotice} {s t₁ : State} (hK : Kept s₀ s) (e : (execNoticeRx n s) =
    .next t₁) : Kept s₀ t₁ := by
  unfold execNoticeRx at e
  cases e
  repeat' first
      | (with_reducible first | assumption | apply noticeRx_kept | apply onLive_kept | apply Kept.foldl | rfl)
      | (intro _) | with_reducible apply Kept.ite | split | with_reducible refine Kept.mk' ?_ ?_ ?_ ?_

theorem execStateRx_kept {s₀ : State} {r : PairState} {s t₁ : State} (hK : Kept s₀ s) (e : (execStateRx r s) =
    .next t₁) : Kept s₀ t₁ := by
  unfold execStateRx at e
  cases e
  repeat' first
      | (with_reducible first | assumption | apply onLive_kept | apply stateRx_kept | apply Kept.foldl | rfl)
      | (intro _) | with_reducible apply Kept.ite | split | with_reducible refine Kept.mk' ?_ ?_ ?_ ?_

theorem execCatchUpPass_kept {s₀ s t₁ : State} (hK : Kept s₀ s) (e : (execCatchUpPass s) = .next t₁) : Kept s₀ t₁ := by
  unfold execCatchUpPass at e
  cases e
  repeat' first
      | (with_reducible first | assumption | apply catchUp_kept | apply onLive_kept | apply Kept.foldl | rfl)
      | (intro _) | with_reducible apply Kept.ite | split | with_reducible refine Kept.mk' ?_ ?_ ?_ ?_

theorem execPairMsgSend_kept {s₀ : State} {m : Master} {s t₁ : State} (hK : Kept s₀ s) (e : (execPairMsgSend m s)
    = .next t₁) : Kept s₀ t₁ := by
  unfold execPairMsgSend at e
  cases e
  repeat' first
      | (with_reducible first | assumption | apply onLive_kept | apply pairMsgSend_kept | apply Kept.foldl | rfl)
      | (intro _) | with_reducible apply Kept.ite | split | with_reducible refine Kept.mk' ?_ ?_ ?_ ?_

theorem execPairMsgPop_kept {s₀ : State} {m : Master} {s t₁ : State} (hK : Kept s₀ s) (e : (execPairMsgPop m s) =
    .next t₁) : Kept s₀ t₁ := by
  unfold execPairMsgPop at e
  cases e
  repeat' first
      | (with_reducible first | assumption | apply pairMsgPop_kept | apply onLive_kept | apply Kept.foldl | rfl)
      | (intro _) | with_reducible apply Kept.ite | split | with_reducible refine Kept.mk' ?_ ?_ ?_ ?_

theorem execPairMsgRx_kept {s₀ : State} {ws : List Word} {s t₁ : State} (hK : Kept s₀ s) (e : (execPairMsgRx ws s)
    = .next t₁) : Kept s₀ t₁ := by
  unfold execPairMsgRx at e
  cases e
  repeat' first
      | (with_reducible first | assumption | apply onLive_kept | apply pairMsgRx_kept | apply Kept.foldl | rfl)
      | (intro _) | with_reducible apply Kept.ite | split | with_reducible refine Kept.mk' ?_ ?_ ?_ ?_

theorem execDiagRx_kept {s₀ : State} {d : PairDiag} {s t₁ : State} (hK : Kept s₀ s) (e : (execDiagRx d s) = .next
    t₁) : Kept s₀ t₁ := by
  unfold execDiagRx at e
  cases e
  repeat' first
      | (with_reducible first | assumption | apply onLive_kept | apply diagRx_kept | apply Kept.foldl | rfl)
      | (intro _) | with_reducible apply Kept.ite | split | with_reducible refine Kept.mk' ?_ ?_ ?_ ?_

theorem execPairHelloDiagTimer_kept {s₀ s t₁ : State} (hK : Kept s₀ s) (e : (execPairHelloDiagTimer s) = .next t₁)
    : Kept s₀ t₁ := by
  unfold execPairHelloDiagTimer at e
  cases e
  repeat' first
      | (with_reducible first | assumption | apply pairTimer_kept | apply onLive_kept | apply Kept.foldl | rfl)
      | (intro _) | with_reducible apply Kept.ite | split | with_reducible refine Kept.mk' ?_ ?_ ?_ ?_

end Sys2Proof.Machine
end

