-- ==== Sys2Proof/Laws/CmdReg.lean ====
section
/-! SUPPORT. What each operation of Machine/CmdReg.lean keeps (`Kept`). -/

set_option linter.unusedTactic false
set_option linter.unreachableTactic false

namespace Sys2Proof.Machine

theorem execRegisterWrite_kept {s₀ : State} {m : Master} {addr : BitVec 24} {width : Nat} {v : Word} {s t₁ :
    State} (hK : Kept s₀ s) (e : (execRegisterWrite m addr width v s) = .next t₁) : Kept s₀ t₁ := by
  unfold execRegisterWrite at e
  cases e
  repeat' first
      | (with_reducible first | assumption | apply writeCmd_kept | apply onLive_kept | apply Kept.foldl | rfl)
      | (intro _) | with_reducible apply Kept.ite | split | with_reducible refine Kept.mk' ?_ ?_ ?_ ?_

theorem execRcRead_kept {s₀ : State} {m : Master} {addr : BitVec 24} {s t₁ : State} (hK : Kept s₀ s) (e :
    (execRcRead m addr s) = .next t₁) : Kept s₀ t₁ := by
  unfold execRcRead at e
  cases e
  repeat' first
      | (with_reducible first | assumption | apply onLive_kept | apply readCmd_kept | apply Kept.foldl | rfl)
      | (intro _) | with_reducible apply Kept.ite | split | with_reducible refine Kept.mk' ?_ ?_ ?_ ?_

theorem execBcastRead_kept {s₀ : State} {m : Master} {addr : BitVec 24} {s t₁ : State} (hK : Kept s₀ s) (e :
    (execBcastRead m addr s) = .next t₁) : Kept s₀ t₁ := by
  unfold execBcastRead at e
  cases e
  repeat' first
      | (with_reducible first | assumption | apply onLive_kept | apply readCmd_kept | apply Kept.foldl | rfl)
      | (intro _) | with_reducible apply Kept.ite | split | with_reducible refine Kept.mk' ?_ ?_ ?_ ?_

theorem execPortalReadBurst_kept {s₀ : State} {x : Fin 6} {f : PortalFrame} {s t₁ : State} (hK : Kept s₀ s) (e :
    (execPortalReadBurst x f s) = .next t₁) : Kept s₀ t₁ := by
  unfold execPortalReadBurst at e
  cases e
  repeat' first
      | (with_reducible first | assumption | apply onLive_kept | apply portalRead_kept | apply Kept.foldl | rfl)
      | (intro _) | with_reducible apply Kept.ite | split | with_reducible refine Kept.mk' ?_ ?_ ?_ ?_

theorem execPortalWriteBurst_kept {s₀ : State} {x : Fin 6} {f : PortalFrame} {s t₁ : State} (hK : Kept s₀ s) (e :
    (execPortalWriteBurst x f s) = .next t₁) : Kept s₀ t₁ := by
  unfold execPortalWriteBurst at e
  cases e
  repeat' first
      | (with_reducible first | assumption | apply portalWrite_kept | apply onLive_kept | apply Kept.foldl | rfl)
      | (intro _) | with_reducible apply Kept.ite | split | with_reducible refine Kept.mk' ?_ ?_ ?_ ?_

theorem execPortalReadStatus_kept {s₀ : State} {x : Fin 6} {s t₁ : State} (hK : Kept s₀ s) (e :
    (execPortalReadStatus x s) = .next t₁) : Kept s₀ t₁ := by
  unfold execPortalReadStatus at e
  cases e
  repeat' first
      | (with_reducible first | assumption | apply portalStatus_kept | apply onLive_kept | apply Kept.foldl | rfl)
      | (intro _) | with_reducible apply Kept.ite | split | with_reducible refine Kept.mk' ?_ ?_ ?_ ?_

theorem execPortalFrameError_kept {s₀ : State} {x : Fin 6} {unknownFirst : Bool} {s t₁ : State} (hK : Kept s₀ s)
    (e : (execPortalFrameError x unknownFirst s) = .next t₁) : Kept s₀ t₁ := by
  unfold execPortalFrameError at e
  cases e
  repeat' first
      | (with_reducible first | assumption | apply onLive_kept | apply portalError_kept | apply Kept.foldl | rfl)
      | (intro _) | with_reducible apply Kept.ite | split | with_reducible refine Kept.mk' ?_ ?_ ?_ ?_

theorem execPortalBusyTimeout_kept {s₀ : State} {x : Fin 6} {f : PortalFrame} {isWrite : Bool} {s t₁ : State} (hK
    : Kept s₀ s) (e : (execPortalBusyTimeout x f isWrite s) = .next t₁) : Kept s₀ t₁ := by
  unfold execPortalBusyTimeout at e
  cases e
  repeat' first
      | (with_reducible first | assumption | apply onLive_kept | apply portalTimeout_kept | apply Kept.foldl | rfl)
      | (intro _) | with_reducible apply Kept.ite | split | with_reducible refine Kept.mk' ?_ ?_ ?_ ?_

end Sys2Proof.Machine
end

