-- ==== Sys2Proof/Laws/CmdReset.lean ====
section
/-! SUPPORT. What each operation of Machine/CmdReset.lean keeps (`Kept`). -/

set_option linter.unusedTactic false
set_option linter.unreachableTactic false

namespace Sys2Proof.Machine

theorem execDevRstNAssert_kept {s₀ : State} {lowNs : Nat} {s t₁ : State} (hK : Kept s₀ s) (e : (execDevRstNAssert
    lowNs s) = .next t₁) : Kept s₀ t₁ := by
  unfold execDevRstNAssert at e
  cases e
  repeat' first
      | (with_reducible first | assumption | apply devRst_kept | apply Kept.foldl | rfl) | (intro _)
      | with_reducible apply Kept.ite | split | with_reducible refine Kept.mk' ?_ ?_ ?_ ?_

theorem execDeviceResetRelease_kept {s₀ : State} {straps : Straps} {s t₁ : State} (hK : Kept s₀ s) (e :
    (execDeviceResetRelease straps s) = .next t₁) : Kept s₀ t₁ := by
  unfold execDeviceResetRelease at e
  cases e
  repeat' first
      | (with_reducible first | assumption | apply release_kept | apply Kept.foldl | rfl) | (intro _)
      | with_reducible apply Kept.ite | split | with_reducible refine Kept.mk' ?_ ?_ ?_ ?_

theorem execTinderStart_kept {s₀ s t₁ : State} (hK : Kept s₀ s) (e : (execTinderStart s) = .next t₁) : Kept s₀ t₁ := by
  unfold execTinderStart at e
  cases e
  repeat' first
      | (with_reducible first | assumption | apply settleAll_kept | apply tinder_kept | apply Kept.foldl | rfl)
      | (intro _) | with_reducible apply Kept.ite | split | with_reducible refine Kept.mk' ?_ ?_ ?_ ?_

theorem execKindlingBoot_kept {s₀ s t₁ : State} (hK : Kept s₀ s) (e : (execKindlingBoot s) = .next t₁) : Kept s₀
    t₁ := by
  unfold execKindlingBoot at e
  cases e
  repeat' first
      | (with_reducible first | assumption | apply kindlingBoot_kept | apply onLive_kept | apply Kept.foldl | rfl)
      | (intro _) | with_reducible apply Kept.ite | split | with_reducible refine Kept.mk' ?_ ?_ ?_ ?_

theorem execCoreSupplyLow_kept {s₀ : State} {lowNs : Nat} {s t₁ : State} (hK : Kept s₀ s) (e : (execCoreSupplyLow
    lowNs s) = .next t₁) : Kept s₀ t₁ := by
  unfold execCoreSupplyLow at e
  cases e
  repeat' first
      | (with_reducible first | assumption | apply coreLow_kept | apply Kept.foldl | rfl) | (intro _)
      | with_reducible apply Kept.ite | split | with_reducible refine Kept.mk' ?_ ?_ ?_ ?_

theorem execCoreSupplyRestored_kept {s₀ s t₁ : State} (hK : Kept s₀ s) (e : (execCoreSupplyRestored s) = .next t₁)
    : Kept s₀ t₁ := by
  unfold execCoreSupplyRestored at e
  cases e
  repeat' first
      | (with_reducible first | assumption | apply coreRestored_kept | apply Kept.foldl | rfl) | (intro _)
      | with_reducible apply Kept.ite | split | with_reducible refine Kept.mk' ?_ ?_ ?_ ?_

theorem execIoBankLow_kept {s₀ : State} {b : Fin 15} {lowNs : Nat} {s t₁ : State} (hK : Kept s₀ s) (e :
    (execIoBankLow b lowNs s) = .next t₁) : Kept s₀ t₁ := by
  unfold execIoBankLow at e
  cases e
  repeat' first
      | (with_reducible first | assumption | apply bankLow_kept | apply Kept.foldl | rfl) | (intro _)
      | with_reducible apply Kept.ite | split | with_reducible refine Kept.mk' ?_ ?_ ?_ ?_

theorem execClockMonitorFault_kept {s₀ : State} {k : ClockFault} {s t₁ : State} (hK : Kept s₀ s) (e :
    (execClockMonitorFault k s) = .next t₁) : Kept s₀ t₁ := by
  unfold execClockMonitorFault at e
  cases e
  repeat' first
      | (with_reducible first | assumption | apply clockFault_kept | apply Kept.foldl | rfl) | (intro _)
      | with_reducible apply Kept.ite | split | with_reducible refine Kept.mk' ?_ ?_ ?_ ?_

theorem execResetNow_kept {s₀ : State} {m : Master} {s t₁ : State} (hK : Kept s₀ s) (e : (execResetNow m s) =
    .next t₁) : Kept s₀ t₁ := by
  unfold execResetNow at e
  cases e
  repeat' first
      | (with_reducible first | assumption | apply resetNow_kept | apply onLive_kept | apply Kept.foldl | rfl)
      | (intro _) | with_reducible apply Kept.ite | split | with_reducible refine Kept.mk' ?_ ?_ ?_ ?_

theorem execRecoveryStatus_kept {s₀ : State} {x : RecSrc} {s t₁ : State} (hK : Kept s₀ s) (e : (execRecoveryStatus
    x s) = .next t₁) : Kept s₀ t₁ := by
  unfold execRecoveryStatus at e
  cases e
  repeat' first
      | (with_reducible first | assumption | apply recStatus_kept | apply onLive_kept | apply Kept.foldl | rfl)
      | (intro _) | with_reducible apply Kept.ite | split | with_reducible refine Kept.mk' ?_ ?_ ?_ ?_

theorem execRecoveryPiece_kept {s₀ : State} {x : RecSrc} {ofs : Nat} {data : List Byte} {s t₁ : State} (hK : Kept
    s₀ s) (e : (execRecoveryPiece x ofs data s) = .next t₁) : Kept s₀ t₁ := by
  unfold execRecoveryPiece at e
  cases e
  repeat' first
      | (with_reducible first | assumption | apply onLive_kept | apply recPiece_kept | apply Kept.foldl | rfl)
      | (intro _) | with_reducible apply Kept.ite | split | with_reducible refine Kept.mk' ?_ ?_ ?_ ?_

theorem execRecoveryEnd_kept {s₀ : State} {x : RecSrc} {total : Nat} {s t₁ : State} (hK : Kept s₀ s) (e :
    (execRecoveryEnd x total s) = .next t₁) : Kept s₀ t₁ := by
  unfold execRecoveryEnd at e
  cases e
  repeat' first
      | (with_reducible first | assumption | apply onLive_kept | apply recEnd_kept | apply Kept.foldl | rfl)
      | (intro _) | with_reducible apply Kept.ite | split | with_reducible refine Kept.mk' ?_ ?_ ?_ ?_

theorem execHardTimerExpiry_kept {s₀ s t₁ : State} (hK : Kept s₀ s) (e : (execHardTimerExpiry s) = .next t₁) :
    Kept s₀ t₁ := by
  unfold execHardTimerExpiry at e
  cases e
  repeat' first
      | (with_reducible first | assumption | apply onLive_kept | apply hardExpiry_kept | apply Kept.foldl | rfl)
      | (intro _) | with_reducible apply Kept.ite | split | with_reducible refine Kept.mk' ?_ ?_ ?_ ?_

theorem execIoBankInRange_kept {s₀ : State} {b : Fin 15} {lvl33 : Bool} {s t₁ : State} (hK : Kept s₀ s) (e :
    (execIoBankInRange b lvl33 s) = .next t₁) : Kept s₀ t₁ := by
  unfold execIoBankInRange at e
  cases e
  repeat' first
      | (with_reducible first | assumption | apply bankDetect_kept | apply Kept.foldl | rfl) | (intro _)
      | with_reducible apply Kept.ite | split | with_reducible refine Kept.mk' ?_ ?_ ?_ ?_

theorem execIdleGate_kept {s₀ : State} {d : IdleUnit} {s t₁ : State} (hK : Kept s₀ s) (e : (execIdleGate d s) =
    .next t₁) : Kept s₀ t₁ := by
  unfold execIdleGate at e
  cases e
  repeat' first
      | (with_reducible first | assumption | apply onLive_kept | apply gateUnit_kept | apply Kept.foldl | rfl)
      | (intro _) | with_reducible apply Kept.ite | split | with_reducible refine Kept.mk' ?_ ?_ ?_ ?_

end Sys2Proof.Machine
end

