-- ==== Sys2Proof/Laws/CmdSeq.lean ====
section
/-! SUPPORT. What each operation of Machine/CmdSeq.lean keeps (`Kept`). -/

set_option linter.unusedTactic false
set_option linter.unreachableTactic false

namespace Sys2Proof.Machine

theorem execWaitInSettled_kept {s₀ : State} {i : Fin 128} {s t₁ : State} (hK : Kept s₀ s) (e : (execWaitInSettled
    i s) = .next t₁) : Kept s₀ t₁ := by
  unfold execWaitInSettled at e
  cases e
  repeat' first
      | (with_reducible first | assumption | apply waitSettled_kept | apply onLive_kept | apply Kept.foldl | rfl)
      | (intro _) | with_reducible apply Kept.ite | split | with_reducible refine Kept.mk' ?_ ?_ ?_ ?_

theorem execDelayExpiry_kept {s₀ : State} {i : Fin 128} {s t₁ : State} (hK : Kept s₀ s) (e : (execDelayExpiry i s)
    = .next t₁) : Kept s₀ t₁ := by
  unfold execDelayExpiry at e
  cases e
  repeat' first
      | (with_reducible first | assumption | apply onLive_kept | apply delayExpiry_kept | apply Kept.foldl | rfl)
      | (intro _) | with_reducible apply Kept.ite | split | with_reducible refine Kept.mk' ?_ ?_ ?_ ?_

theorem execStepTimeout_kept {s₀ : State} {i : Fin 128} {s t₁ : State} (hK : Kept s₀ s) (e : (execStepTimeout i s)
    = .next t₁) : Kept s₀ t₁ := by
  unfold execStepTimeout at e
  cases e
  repeat' first
      | (with_reducible first | assumption | apply onLive_kept | apply stepTimeout_kept | apply Kept.foldl | rfl)
      | (intro _) | with_reducible apply Kept.ite | split | with_reducible refine Kept.mk' ?_ ?_ ?_ ?_

theorem execPmbTransactionEnd_kept {s₀ : State} {p : Fin 4} {r : SmbResult} {s t₁ : State} (hK : Kept s₀ s) (e :
    (execPmbTransactionEnd p r s) = .next t₁) : Kept s₀ t₁ := by
  unfold execPmbTransactionEnd at e
  cases e
  repeat' first
      | (with_reducible first | assumption | apply onLive_kept | apply pmbEnd_kept | apply Kept.foldl | rfl)
      | (intro _) | with_reducible apply Kept.ite | split | with_reducible refine Kept.mk' ?_ ?_ ?_ ?_

theorem execSmbRetry_kept {s₀ : State} {i : Fin 128} {s t₁ : State} (hK : Kept s₀ s) (e : (execSmbRetry i s) =
    .next t₁) : Kept s₀ t₁ := by
  unfold execSmbRetry at e
  cases e
  repeat' first
      | (with_reducible first | assumption | apply onLive_kept | apply smbRetry_kept | apply Kept.foldl | rfl)
      | (intro _) | with_reducible apply Kept.ite | split | with_reducible refine Kept.mk' ?_ ?_ ?_ ?_

theorem execPmbPollInterval_kept {s₀ : State} {i : Fin 128} {s t₁ : State} (hK : Kept s₀ s) (e :
    (execPmbPollInterval i s) = .next t₁) : Kept s₀ t₁ := by
  unfold execPmbPollInterval at e
  cases e
  repeat' first
      | (with_reducible first | assumption | apply onLive_kept | apply pollInterval_kept | apply Kept.foldl | rfl)
      | (intro _) | with_reducible apply Kept.ite | split | with_reducible refine Kept.mk' ?_ ?_ ?_ ?_

theorem execRestart_kept {s₀ : State} {m : Master} {s t₁ : State} (hK : Kept s₀ s) (e : (execRestart m s) = .next
    t₁) : Kept s₀ t₁ := by
  unfold execRestart at e
  cases e
  repeat' first
      | (with_reducible first
          | assumption | apply wr_kept | apply onLive_kept | apply sqRestart_kept | apply Kept.foldl | rfl)
      | (intro _) | with_reducible apply Kept.ite | split | with_reducible refine Kept.mk' ?_ ?_ ?_ ?_

theorem execShutdown_kept {s₀ : State} {m : Master} {s t₁ : State} (hK : Kept s₀ s) (e : (execShutdown m s) =
    .next t₁) : Kept s₀ t₁ := by
  unfold execShutdown at e
  cases e
  repeat' first
      | (with_reducible first
          | assumption | apply wr_kept | apply sqShutdown_kept | apply onLive_kept | apply Kept.foldl | rfl)
      | (intro _) | with_reducible apply Kept.ite | split | with_reducible refine Kept.mk' ?_ ?_ ?_ ?_

theorem execPlatformFault_kept {s₀ : State} {i : Fin 128} {s t₁ : State} (hK : Kept s₀ s) (e : (execPlatformFault
    i s) = .next t₁) : Kept s₀ t₁ := by
  unfold execPlatformFault at e
  cases e
  repeat' first
      | (with_reducible first | assumption | apply onLive_kept | apply pfEvent_kept | apply Kept.foldl | rfl)
      | (intro _) | with_reducible apply Kept.ite | split | with_reducible refine Kept.mk' ?_ ?_ ?_ ?_

theorem execWatchRearm_kept {s₀ : State} {i : Fin 128} {s t₁ : State} (hK : Kept s₀ s) (e : (execWatchRearm i s) =
    .next t₁) : Kept s₀ t₁ := by
  unfold execWatchRearm at e
  cases e
  repeat' first
      | (with_reducible first | assumption | apply watchRearm_kept | apply onLive_kept | apply Kept.foldl | rfl)
      | (intro _) | with_reducible apply Kept.ite | split | with_reducible refine Kept.mk' ?_ ?_ ?_ ?_

theorem execPfHoldClear_kept {s₀ : State} {m : Master} {v : Word} {s t₁ : State} (hK : Kept s₀ s) (e :
    (execPfHoldClear m v s) = .next t₁) : Kept s₀ t₁ := by
  unfold execPfHoldClear at e
  cases e
  repeat' first
      | (with_reducible first
          | assumption | apply wr_kept | apply pfClear_kept | apply onLive_kept | apply Kept.foldl | rfl)
      | (intro _) | with_reducible apply Kept.ite | split | with_reducible refine Kept.mk' ?_ ?_ ?_ ?_

theorem execHearthHoldWrite_kept {s₀ : State} {m : Master} {v : Word} {s t₁ : State} (hK : Kept s₀ s) (e :
    (execHearthHoldWrite m v s) = .next t₁) : Kept s₀ t₁ := by
  unfold execHearthHoldWrite at e
  cases e
  repeat' first
      | (with_reducible first
          | assumption | apply hearthHold_kept | apply wr_kept | apply onLive_kept | apply Kept.foldl | rfl)
      | (intro _) | with_reducible apply Kept.ite | split | with_reducible refine Kept.mk' ?_ ?_ ?_ ?_

theorem execMinHoldExpiry_kept {s₀ : State} {n : Fin 32} {s t₁ : State} (hK : Kept s₀ s) (e : (execMinHoldExpiry n
    s) = .next t₁) : Kept s₀ t₁ := by
  unfold execMinHoldExpiry at e
  cases e
  repeat' first
      | (with_reducible first
          | assumption | apply settleAll_kept | apply minHoldExpiry_kept | apply onLive_kept | apply Kept.foldl
          | rfl)
      | (intro _) | with_reducible apply Kept.ite | split | with_reducible refine Kept.mk' ?_ ?_ ?_ ?_

theorem execSmbStart_kept {s₀ : State} {m : Master} {s t₁ : State} (hK : Kept s₀ s) (e : (execSmbStart m s) =
    .next t₁) : Kept s₀ t₁ := by
  unfold execSmbStart at e
  cases e
  repeat' first
      | (with_reducible first
          | assumption | apply wr_kept | apply onLive_kept | apply smbStart_kept | apply Kept.foldl | rfl)
      | (intro _) | with_reducible apply Kept.ite | split | with_reducible refine Kept.mk' ?_ ?_ ?_ ?_

theorem execSmbTransactionEnd_kept {s₀ : State} {r : SmbResult} {s t₁ : State} (hK : Kept s₀ s) (e :
    (execSmbTransactionEnd r s) = .next t₁) : Kept s₀ t₁ := by
  unfold execSmbTransactionEnd at e
  cases e
  repeat' first
      | (with_reducible first | assumption | apply smbEnd_kept | apply onLive_kept | apply Kept.foldl | rfl)
      | (intro _) | with_reducible apply Kept.ite | split | with_reducible refine Kept.mk' ?_ ?_ ?_ ?_

theorem execSqIoLevelChange_kept {s₀ : State} {l : Fin 96} {v : Bool} {s t₁ : State} (hK : Kept s₀ s) (e :
    (execSqIoLevelChange l v s) = .next t₁) : Kept s₀ t₁ := by
  unfold execSqIoLevelChange at e
  cases e
  repeat' first
      | (with_reducible first | assumption | apply onLive_kept | apply ioChange_kept | apply Kept.foldl | rfl)
      | (intro _) | with_reducible apply Kept.ite | split | with_reducible refine Kept.mk' ?_ ?_ ?_ ?_

end Sys2Proof.Machine
end

