-- ==== Sys2Proof/Laws/CmdShare.lean ====
section
/-! SUPPORT. What each operation of Machine/CmdShare.lean keeps (`Kept`). -/

set_option linter.unusedTactic false
set_option linter.unreachableTactic false

namespace Sys2Proof.Machine

theorem execDependentDrawGrant_kept {s₀ : State} {k : BilletClass} {s t₁ : State} (hK : Kept s₀ s) (e :
    (execDependentDrawGrant k s) = .next t₁) : Kept s₀ t₁ := by
  unfold execDependentDrawGrant at e
  cases e
  repeat' first
      | (with_reducible first | assumption | apply grantDependent_kept | apply onLive_kept | apply Kept.foldl | rfl)
      | (intro _) | with_reducible apply Kept.ite | split | with_reducible refine Kept.mk' ?_ ?_ ?_ ?_

theorem execHeadAged_kept {s₀ : State} {a : Arbiter} {s t₁ : State} (hK : Kept s₀ s) (e : (execHeadAged a s) =
    .next t₁) : Kept s₀ t₁ := by
  unfold execHeadAged at e
  cases e
  repeat' first
      | (with_reducible first | assumption | apply headAged_kept | apply onLive_kept | apply Kept.foldl | rfl)
      | (intro _) | with_reducible apply Kept.ite | split | with_reducible refine Kept.mk' ?_ ?_ ?_ ?_

theorem execTrackerParityError_kept {s₀ : State} {b : Fin 4096} {s t₁ : State} (hK : Kept s₀ s) (e :
    (execTrackerParityError b s) = .next t₁) : Kept s₀ t₁ := by
  unfold execTrackerParityError at e
  cases e
  repeat' first
      | (with_reducible first
          | assumption | apply trackerParity_kept | apply settleAll_kept | apply onLive_kept | apply Kept.foldl
          | rfl)
      | (intro _) | with_reducible apply Kept.ite | split | with_reducible refine Kept.mk' ?_ ?_ ?_ ?_

theorem execCreate_kept {s₀ : State} {m : Master} {s t₁ : State} (hK : Kept s₀ s) (e : (execCreate m s) = .next
    t₁) : Kept s₀ t₁ := by
  unfold execCreate at e
  cases e
  repeat' first
      | (with_reducible first
          | assumption | apply wr_kept | apply onLive_kept | apply instTake_kept | apply instCreate_kept | apply Kept.foldl | rfl)
      | (intro _) | with_reducible apply Kept.ite | split | with_reducible refine Kept.mk' ?_ ?_ ?_ ?_

theorem execResetDrain_kept {s₀ : State} {m : Master} {s t₁ : State} (hK : Kept s₀ s) (e : (execResetDrain m s) =
    .next t₁) : Kept s₀ t₁ := by
  unfold execResetDrain at e
  cases e
  repeat' first
      | (with_reducible first
          | assumption | apply wr_kept | apply onLive_kept | apply instTake_kept | apply instDrain_kept | apply Kept.foldl | rfl)
      | (intro _) | with_reducible apply Kept.ite | split | with_reducible refine Kept.mk' ?_ ?_ ?_ ?_

theorem execResetSquash_kept {s₀ : State} {m : Master} {s t₁ : State} (hK : Kept s₀ s) (e : (execResetSquash m s)
    = .next t₁) : Kept s₀ t₁ := by
  unfold execResetSquash at e
  cases e
  repeat' first
      | (with_reducible first
          | assumption | apply settleAll_kept | apply wr_kept | apply onLive_kept | apply instTake_kept | apply instReset_kept
          | apply Kept.foldl | rfl)
      | (intro _) | with_reducible apply Kept.ite | split | with_reducible refine Kept.mk' ?_ ?_ ?_ ?_

theorem execRemove_kept {s₀ : State} {m : Master} {s t₁ : State} (hK : Kept s₀ s) (e : (execRemove m s) = .next
    t₁) : Kept s₀ t₁ := by
  unfold execRemove at e
  cases e
  repeat' first
      | (with_reducible first
          | assumption | apply instTake_kept | apply instRemove_kept | apply settleAll_kept | apply wr_kept | apply onLive_kept
          | apply Kept.foldl | rfl)
      | (intro _) | with_reducible apply Kept.ite | split | with_reducible refine Kept.mk' ?_ ?_ ?_ ?_

theorem execDrainComplete_kept {s₀ : State} {n : Inst} {s t₁ : State} (hK : Kept s₀ s) (e : (execDrainComplete n
    s) = .next t₁) : Kept s₀ t₁ := by
  unfold execDrainComplete at e
  cases e
  repeat' first
      | (with_reducible first | assumption | apply onLive_kept | apply drainDone_kept | apply Kept.foldl | rfl)
      | (intro _) | with_reducible apply Kept.ite | split | with_reducible refine Kept.mk' ?_ ?_ ?_ ?_

theorem execDrainTimeout_kept {s₀ : State} {n : Inst} {s t₁ : State} (hK : Kept s₀ s) (e : (execDrainTimeout n s)
    = .next t₁) : Kept s₀ t₁ := by
  unfold execDrainTimeout at e
  cases e
  repeat' first
      | (with_reducible first
          | assumption | apply settleAll_kept | apply onLive_kept | apply drainExpire_kept | apply Kept.foldl | rfl)
      | (intro _) | with_reducible apply Kept.ite | split | with_reducible refine Kept.mk' ?_ ?_ ?_ ?_

end Sys2Proof.Machine
end

