-- ==== Sys2Proof/Laws/CmdStore.lean ====
section
/-! SUPPORT. What each operation of Machine/CmdStore.lean keeps (`Kept`). -/

set_option linter.unusedTactic false
set_option linter.unreachableTactic false

namespace Sys2Proof.Machine

theorem execOsProgram_kept {s₀ : State} {m : Master} {s t₁ : State} (hK : Kept s₀ s) (e : (execOsProgram m s) =
    .next t₁) : Kept s₀ t₁ := by
  unfold execOsProgram at e
  cases e
  repeat' first
      | (with_reducible first | assumption | apply osGo_kept | apply onLive_kept | apply Kept.foldl | rfl)
      | (intro _) | with_reducible apply Kept.ite | split | with_reducible refine Kept.mk' ?_ ?_ ?_ ?_

theorem execOsErase4k_kept {s₀ : State} {m : Master} {s t₁ : State} (hK : Kept s₀ s) (e : (execOsErase4k m s) =
    .next t₁) : Kept s₀ t₁ := by
  unfold execOsErase4k at e
  cases e
  repeat' first
      | (with_reducible first | assumption | apply osGo_kept | apply onLive_kept | apply Kept.foldl | rfl)
      | (intro _) | with_reducible apply Kept.ite | split | with_reducible refine Kept.mk' ?_ ?_ ?_ ?_

theorem execOsErase64k_kept {s₀ : State} {m : Master} {s t₁ : State} (hK : Kept s₀ s) (e : (execOsErase64k m s) =
    .next t₁) : Kept s₀ t₁ := by
  unfold execOsErase64k at e
  cases e
  repeat' first
      | (with_reducible first | assumption | apply osGo_kept | apply onLive_kept | apply Kept.foldl | rfl)
      | (intro _) | with_reducible apply Kept.ite | split | with_reducible refine Kept.mk' ?_ ?_ ?_ ?_

theorem execOwnStoreEraseIssue_kept {s₀ s t₁ : State} (hK : Kept s₀ s) (e : (execOwnStoreEraseIssue s) = .next t₁)
    : Kept s₀ t₁ := by
  unfold execOwnStoreEraseIssue at e
  cases e
  repeat' first
      | (with_reducible first | assumption | apply onLive_kept | apply eraseIssue_kept | apply Kept.foldl | rfl)
      | (intro _) | with_reducible apply Kept.ite | split | with_reducible refine Kept.mk' ?_ ?_ ?_ ?_

theorem execOsOperationEnd_kept {s₀ : State} {failed : Bool} {s t₁ : State} (hK : Kept s₀ s) (e :
    (execOsOperationEnd failed s) = .next t₁) : Kept s₀ t₁ := by
  unfold execOsOperationEnd at e
  cases e
  repeat' first
      | (with_reducible first | assumption | apply osEnd_kept | apply onLive_kept | apply Kept.foldl | rfl)
      | (intro _) | with_reducible apply Kept.ite | split | with_reducible refine Kept.mk' ?_ ?_ ?_ ?_

theorem execEraseMaxExpiry_kept {s₀ s t₁ : State} (hK : Kept s₀ s) (e : (execEraseMaxExpiry s) = .next t₁) : Kept
    s₀ t₁ := by
  unfold execEraseMaxExpiry at e
  cases e
  repeat' first
      | (with_reducible first | assumption | apply eraseMaxExpiry_kept | apply onLive_kept | apply Kept.foldl | rfl)
      | (intro _) | with_reducible apply Kept.ite | split | with_reducible refine Kept.mk' ?_ ?_ ?_ ?_

end Sys2Proof.Machine
end

