-- ==== Sys2Proof/Laws/CmdTamper.lean ====
section
/-! SUPPORT. What each operation of Machine/CmdTamper.lean keeps (`Kept`). -/

set_option linter.unusedTactic false
set_option linter.unreachableTactic false

namespace Sys2Proof.Machine

theorem execTamperEvent_kept {s₀ : State} {src : Fin 8} {det : Nat} {s t₁ : State} (hK : Kept s₀ s) (e :
    (execTamperEvent src det s) = .next t₁) : Kept s₀ t₁ := by
  unfold execTamperEvent at e
  cases e
  repeat' first
      | (with_reducible first | assumption | apply settleAll_kept | apply tamperEvent_kept | apply Kept.foldl | rfl)
      | (intro _) | with_reducible apply Kept.ite | split | with_reducible refine Kept.mk' ?_ ?_ ?_ ?_

theorem execTamperWindowClose_kept {s₀ : State} {src : Fin 8} {s t₁ : State} (hK : Kept s₀ s) (e :
    (execTamperWindowClose src s) = .next t₁) : Kept s₀ t₁ := by
  unfold execTamperWindowClose at e
  cases e
  repeat' first
      | (with_reducible first | assumption | apply tamperClose_kept | apply Kept.foldl | rfl) | (intro _)
      | with_reducible apply Kept.ite | split | with_reducible refine Kept.mk' ?_ ?_ ?_ ?_

theorem execSourceIdle_kept {s₀ : State} {src : Fin 8} {s t₁ : State} (hK : Kept s₀ s) (e : (execSourceIdle src s)
    = .next t₁) : Kept s₀ t₁ := by
  unfold execSourceIdle at e
  cases e
  repeat' first
      | (with_reducible first | assumption | apply sourceIdle_kept | apply Kept.foldl | rfl) | (intro _)
      | with_reducible apply Kept.ite | split | with_reducible refine Kept.mk' ?_ ?_ ?_ ?_

theorem execHaltHoldExpiry_kept {s₀ s t₁ : State} (hK : Kept s₀ s) (e : (execHaltHoldExpiry s) = .next t₁) : Kept
    s₀ t₁ := by
  unfold execHaltHoldExpiry at e
  cases e
  repeat' first
      | (with_reducible first | assumption | apply haltExpiry_kept | apply Kept.foldl | rfl) | (intro _)
      | with_reducible apply Kept.ite | split | with_reducible refine Kept.mk' ?_ ?_ ?_ ?_

theorem execHoldClear_kept {s₀ : State} {m : Master} {s t₁ : State} (hK : Kept s₀ s) (e : (execHoldClear m s) =
    .next t₁) : Kept s₀ t₁ := by
  unfold execHoldClear at e
  cases e
  repeat' first
      | (with_reducible first
          | assumption | apply settleAll_kept | apply holdClear_kept | apply onLive_kept | apply Kept.foldl | rfl)
      | (intro _) | with_reducible apply Kept.ite | split | with_reducible refine Kept.mk' ?_ ?_ ?_ ?_

theorem execSoftAlarm_kept {s₀ : State} {m : Master} {s t₁ : State} (hK : Kept s₀ s) (e : (execSoftAlarm m s) =
    .next t₁) : Kept s₀ t₁ := by
  unfold execSoftAlarm at e
  cases e
  repeat' first
      | (with_reducible first
          | assumption | apply settleAll_kept | apply onLive_kept | apply softAlarm_kept | apply Kept.foldl | rfl)
      | (intro _) | with_reducible apply Kept.ite | split | with_reducible refine Kept.mk' ?_ ?_ ?_ ?_

theorem execRtcLoad_kept {s₀ : State} {m : Master} {s t₁ : State} (hK : Kept s₀ s) (e : (execRtcLoad m s) = .next
    t₁) : Kept s₀ t₁ := by
  unfold execRtcLoad at e
  cases e
  repeat' first
      | (with_reducible first | assumption | apply onLive_kept | apply rtcLoad_kept | apply Kept.foldl | rfl)
      | (intro _) | with_reducible apply Kept.ite | split | with_reducible refine Kept.mk' ?_ ?_ ?_ ?_

theorem execRtcLoRead_kept {s₀ : State} {m : Master} {s t₁ : State} (hK : Kept s₀ s) (e : (execRtcLoRead m s) =
    .next t₁) : Kept s₀ t₁ := by
  unfold execRtcLoRead at e
  cases e
  repeat' first
      | (with_reducible first | assumption | apply onLive_kept | apply rtcLatch_kept | apply Kept.foldl | rfl)
      | (intro _) | with_reducible apply Kept.ite | split | with_reducible refine Kept.mk' ?_ ?_ ?_ ?_

theorem execThermBitProgrammed_kept {s₀ s t₁ : State} (hK : Kept s₀ s) (e : (execThermBitProgrammed s) = .next t₁)
    : Kept s₀ t₁ := by
  unfold execThermBitProgrammed at e
  cases e
  repeat' first
      | (with_reducible first | assumption | apply thermProgram_kept | apply Kept.foldl | rfl) | (intro _)
      | with_reducible apply Kept.ite | split | with_reducible refine Kept.mk' ?_ ?_ ?_ ?_

theorem execAoRestart_kept {s₀ s t₁ : State} (hK : Kept s₀ s) (e : (execAoRestart s) = .next t₁) : Kept s₀ t₁ := by
  unfold execAoRestart at e
  cases e
  repeat' first
      | (with_reducible first | assumption | apply aoRestart_kept | apply Kept.foldl | rfl) | (intro _)
      | with_reducible apply Kept.ite | split | with_reducible refine Kept.mk' ?_ ?_ ?_ ?_

end Sys2Proof.Machine
end

