-- ==== Sys2Proof/Laws/CmdVault.lean ====
section
/-! SUPPORT. What each operation of Machine/CmdVault.lean keeps (`Kept`). -/

set_option linter.unusedTactic false
set_option linter.unreachableTactic false

namespace Sys2Proof.Machine

theorem execRootLoad_kept {s₀ : State} {m : Master} {s t₁ : State} (hK : Kept s₀ s) (e : (execRootLoad m s) =
    .next t₁) : Kept s₀ t₁ := by
  unfold execRootLoad at e
  cases e
  repeat' first
      | (with_reducible first | assumption | apply rootLoad_kept | apply onLive_kept | apply Kept.foldl | rfl)
      | (intro _) | with_reducible apply Kept.ite | split | with_reducible refine Kept.mk' ?_ ?_ ?_ ?_

theorem execZeroise_kept {s₀ : State} {m : Master} {s t₁ : State} (hK : Kept s₀ s) (e : (execZeroise m s) = .next
    t₁) : Kept s₀ t₁ := by
  unfold execZeroise at e
  cases e
  repeat' first
      | (with_reducible first
          | assumption | apply settleAll_kept | apply onLive_kept | apply zeroiseVault_kept | apply Kept.foldl | rfl)
      | (intro _) | with_reducible apply Kept.ite | split | with_reducible refine Kept.mk' ?_ ?_ ?_ ?_

theorem execRekindle_kept {s₀ : State} {m : Master} {s t₁ : State} (hK : Kept s₀ s) (e : (execRekindle m s) =
    .next t₁) : Kept s₀ t₁ := by
  unfold execRekindle at e
  cases e
  repeat' first
      | (with_reducible first | assumption | apply onLive_kept | apply rekindle_kept | apply Kept.foldl | rfl)
      | (intro _) | with_reducible apply Kept.ite | split | with_reducible refine Kept.mk' ?_ ?_ ?_ ?_

theorem execDerive_kept {s₀ : State} {c : Core} {s t₁ : State} (hK : Kept s₀ s) (e : (execDerive c s) = .next t₁)
    : Kept s₀ t₁ := by
  unfold execDerive at e
  cases e
  repeat' first
      | (with_reducible first
          | assumption | apply settleAll_kept | apply onLive_kept | apply kvCommand_kept | apply Kept.foldl | rfl)
      | (intro _) | with_reducible apply Kept.ite | split | with_reducible refine Kept.mk' ?_ ?_ ?_ ?_

theorem execGenerate_kept {s₀ : State} {c : Core} {s t₁ : State} (hK : Kept s₀ s) (e : (execGenerate c s) = .next
    t₁) : Kept s₀ t₁ := by
  unfold execGenerate at e
  cases e
  repeat' first
      | (with_reducible first
          | assumption | apply settleAll_kept | apply onLive_kept | apply kvCommand_kept | apply Kept.foldl | rfl)
      | (intro _) | with_reducible apply Kept.ite | split | with_reducible refine Kept.mk' ?_ ?_ ?_ ?_

theorem execUnwrap_kept {s₀ : State} {c : Core} {s t₁ : State} (hK : Kept s₀ s) (e : (execUnwrap c s) = .next t₁)
    : Kept s₀ t₁ := by
  unfold execUnwrap at e
  cases e
  repeat' first
      | (with_reducible first
          | assumption | apply settleAll_kept | apply onLive_kept | apply kvCommand_kept | apply Kept.foldl | rfl)
      | (intro _) | with_reducible apply Kept.ite | split | with_reducible refine Kept.mk' ?_ ?_ ?_ ?_

theorem execWrap_kept {s₀ : State} {c : Core} {s t₁ : State} (hK : Kept s₀ s) (e : (execWrap c s) = .next t₁) :
    Kept s₀ t₁ := by
  unfold execWrap at e
  cases e
  repeat' first
      | (with_reducible first
          | assumption | apply settleAll_kept | apply onLive_kept | apply kvCommand_kept | apply Kept.foldl | rfl)
      | (intro _) | with_reducible apply Kept.ite | split | with_reducible refine Kept.mk' ?_ ?_ ?_ ?_

theorem execRevoke_kept {s₀ : State} {c : Core} {s t₁ : State} (hK : Kept s₀ s) (e : (execRevoke c s) = .next t₁)
    : Kept s₀ t₁ := by
  unfold execRevoke at e
  cases e
  repeat' first
      | (with_reducible first
          | assumption | apply settleAll_kept | apply onLive_kept | apply kvCommand_kept | apply Kept.foldl | rfl)
      | (intro _) | with_reducible apply Kept.ite | split | with_reducible refine Kept.mk' ?_ ?_ ?_ ?_

theorem execReplace_kept {s₀ : State} {c : Core} {s t₁ : State} (hK : Kept s₀ s) (e : (execReplace c s) = .next
    t₁) : Kept s₀ t₁ := by
  unfold execReplace at e
  cases e
  repeat' first
      | (with_reducible first
          | assumption | apply settleAll_kept | apply onLive_kept | apply kvCommand_kept | apply Kept.foldl | rfl)
      | (intro _) | with_reducible apply Kept.ite | split | with_reducible refine Kept.mk' ?_ ?_ ?_ ?_

theorem execCommit_kept {s₀ : State} {c : Core} {s t₁ : State} (hK : Kept s₀ s) (e : (execCommit c s) = .next t₁)
    : Kept s₀ t₁ := by
  unfold execCommit at e
  cases e
  repeat' first
      | (with_reducible first
          | assumption | apply settleAll_kept | apply onLive_kept | apply kvCommand_kept | apply Kept.foldl | rfl)
      | (intro _) | with_reducible apply Kept.ite | split | with_reducible refine Kept.mk' ?_ ?_ ?_ ?_

theorem execCancel_kept {s₀ : State} {c : Core} {s t₁ : State} (hK : Kept s₀ s) (e : (execCancel c s) = .next t₁)
    : Kept s₀ t₁ := by
  unfold execCancel at e
  cases e
  repeat' first
      | (with_reducible first
          | assumption | apply settleAll_kept | apply onLive_kept | apply kvCommand_kept | apply Kept.foldl | rfl)
      | (intro _) | with_reducible apply Kept.ite | split | with_reducible refine Kept.mk' ?_ ?_ ?_ ?_

theorem execKcv_kept {s₀ : State} {c : Core} {s t₁ : State} (hK : Kept s₀ s) (e : (execKcv c s) = .next t₁) : Kept
    s₀ t₁ := by
  unfold execKcv at e
  cases e
  repeat' first
      | (with_reducible first
          | assumption | apply settleAll_kept | apply onLive_kept | apply kvCommand_kept | apply Kept.foldl | rfl)
      | (intro _) | with_reducible apply Kept.ite | split | with_reducible refine Kept.mk' ?_ ?_ ?_ ?_

theorem execHmac_kept {s₀ : State} {c : Core} {s t₁ : State} (hK : Kept s₀ s) (e : (execHmac c s) = .next t₁) :
    Kept s₀ t₁ := by
  unfold execHmac at e
  cases e
  repeat' first
      | (with_reducible first
          | assumption | apply settleAll_kept | apply onLive_kept | apply kvCommand_kept | apply Kept.foldl | rfl)
      | (intro _) | with_reducible apply Kept.ite | split | with_reducible refine Kept.mk' ?_ ?_ ?_ ?_

theorem execGcmEnc_kept {s₀ : State} {c : Core} {s t₁ : State} (hK : Kept s₀ s) (e : (execGcmEnc c s) = .next t₁)
    : Kept s₀ t₁ := by
  unfold execGcmEnc at e
  cases e
  repeat' first
      | (with_reducible first
          | assumption | apply settleAll_kept | apply onLive_kept | apply kvCommand_kept | apply Kept.foldl | rfl)
      | (intro _) | with_reducible apply Kept.ite | split | with_reducible refine Kept.mk' ?_ ?_ ?_ ?_

theorem execGcmDec_kept {s₀ : State} {c : Core} {s t₁ : State} (hK : Kept s₀ s) (e : (execGcmDec c s) = .next t₁)
    : Kept s₀ t₁ := by
  unfold execGcmDec at e
  cases e
  repeat' first
      | (with_reducible first
          | assumption | apply settleAll_kept | apply onLive_kept | apply kvCommand_kept | apply Kept.foldl | rfl)
      | (intro _) | with_reducible apply Kept.ite | split | with_reducible refine Kept.mk' ?_ ?_ ?_ ?_

theorem execSign_kept {s₀ : State} {c : Core} {s t₁ : State} (hK : Kept s₀ s) (e : (execSign c s) = .next t₁) :
    Kept s₀ t₁ := by
  unfold execSign at e
  cases e
  repeat' first
      | (with_reducible first
          | assumption | apply settleAll_kept | apply onLive_kept | apply kvCommand_kept | apply Kept.foldl | rfl)
      | (intro _) | with_reducible apply Kept.ite | split | with_reducible refine Kept.mk' ?_ ?_ ?_ ?_

theorem execAlias_kept {s₀ : State} {c : Core} {s t₁ : State} (hK : Kept s₀ s) (e : (execAlias c s) = .next t₁) :
    Kept s₀ t₁ := by
  unfold execAlias at e
  cases e
  repeat' first
      | (with_reducible first
          | assumption | apply settleAll_kept | apply onLive_kept | apply kvCommand_kept | apply Kept.foldl | rfl)
      | (intro _) | with_reducible apply Kept.ite | split | with_reducible refine Kept.mk' ?_ ?_ ?_ ?_

theorem execPubkey_kept {s₀ : State} {c : Core} {s t₁ : State} (hK : Kept s₀ s) (e : (execPubkey c s) = .next t₁)
    : Kept s₀ t₁ := by
  unfold execPubkey at e
  cases e
  repeat' first
      | (with_reducible first
          | assumption | apply settleAll_kept | apply onLive_kept | apply kvCommand_kept | apply Kept.foldl | rfl)
      | (intro _) | with_reducible apply Kept.ite | split | with_reducible refine Kept.mk' ?_ ?_ ?_ ?_

theorem execKvOpEnd_kept {s₀ : State} {c : Core} {s t₁ : State} (hK : Kept s₀ s) (e : (execKvOpEnd c s) = .next
    t₁) : Kept s₀ t₁ := by
  unfold execKvOpEnd at e
  cases e
  repeat' first
      | (with_reducible first
          | assumption | apply settleAll_kept | apply onLive_kept | apply kvOpEnd_kept | apply Kept.foldl | rfl)
      | (intro _) | with_reducible apply Kept.ite | split | with_reducible refine Kept.mk' ?_ ?_ ?_ ?_

theorem execInvalidationSweep_kept {s₀ s t₁ : State} (hK : Kept s₀ s) (e : (execInvalidationSweep s) = .next t₁) :
    Kept s₀ t₁ := by
  unfold execInvalidationSweep at e
  cases e
  repeat' first
      | (with_reducible first | assumption | apply sweep_kept | apply onLive_kept | apply Kept.foldl | rfl)
      | (intro _) | with_reducible apply Kept.ite | split | with_reducible refine Kept.mk' ?_ ?_ ?_ ?_

theorem execEntropyRetest_kept {s₀ : State} {pass : Bool} {s t₁ : State} (hK : Kept s₀ s) (e : (execEntropyRetest
    pass s) = .next t₁) : Kept s₀ t₁ := by
  unfold execEntropyRetest at e
  cases e
  repeat' first
      | (with_reducible first | assumption | apply onLive_kept | apply entropyRetest_kept | apply Kept.foldl | rfl)
      | (intro _) | with_reducible apply Kept.ite | split | with_reducible refine Kept.mk' ?_ ?_ ?_ ?_

theorem execLeafJournalWrite_kept {s₀ : State} {j : Fin 2} {failed : Bool} {s t₁ : State} (hK : Kept s₀ s) (e :
    (execLeafJournalWrite j failed s) = .next t₁) : Kept s₀ t₁ := by
  unfold execLeafJournalWrite at e
  cases e
  repeat' first
      | (with_reducible first | assumption | apply leafJournal_kept | apply onLive_kept | apply Kept.foldl | rfl)
      | (intro _) | with_reducible apply Kept.ite | split | with_reducible refine Kept.mk' ?_ ?_ ?_ ?_

theorem execLmsTreeGenerated_kept {s₀ : State} {j : Fin 2} {s t₁ : State} (hK : Kept s₀ s) (e :
    (execLmsTreeGenerated j s) = .next t₁) : Kept s₀ t₁ := by
  unfold execLmsTreeGenerated at e
  cases e
  repeat' first
      | (with_reducible first
          | assumption | apply treeDone_kept | apply settleAll_kept | apply onLive_kept | apply Kept.foldl | rfl)
      | (intro _) | with_reducible apply Kept.ite | split | with_reducible refine Kept.mk' ?_ ?_ ?_ ?_

theorem execHealthTestFail_kept {s₀ s t₁ : State} (hK : Kept s₀ s) (e : (execHealthTestFail s) = .next t₁) : Kept
    s₀ t₁ := by
  unfold execHealthTestFail at e
  cases e
  repeat' first
      | (with_reducible first | assumption | apply healthFail_kept | apply onLive_kept | apply Kept.foldl | rfl)
      | (intro _) | with_reducible apply Kept.ite | split | with_reducible refine Kept.mk' ?_ ?_ ?_ ?_

end Sys2Proof.Machine
end

