-- ==== Sys2Proof/Laws/CmdVerify.lean ====
section
/-! SUPPORT. What each operation of Machine/CmdVerify.lean keeps (`Kept`). -/

set_option linter.unusedTactic false
set_option linter.unreachableTactic false

namespace Sys2Proof.Machine

theorem execAnchoring_kept {s₀ : State} {e : Fin 12} {parity : Bool} {s t₁ : State} (hK : Kept s₀ s) (e :
    (execAnchoring e parity s) = .next t₁) : Kept s₀ t₁ := by
  unfold execAnchoring at e
  cases e
  repeat' first
      | (with_reducible first
          | assumption | apply parityCount_kept | apply settleTraces_kept | apply onLive_kept
          | apply anchoringEnd_kept | apply Kept.foldl | rfl)
      | (intro _) | with_reducible apply Kept.ite | split | with_reducible refine Kept.mk' ?_ ?_ ?_ ?_

theorem execEmberCheck_kept {s₀ : State} {e : Fin 12} {entry : Option (Nat × Nat)} {parity : Bool} {s t₁ : State}
    (hK : Kept s₀ s) (e : (execEmberCheck e entry parity s) = .next t₁) : Kept s₀ t₁ := by
  unfold execEmberCheck at e
  cases e
  repeat' first
      | (with_reducible first
          | assumption | apply parityCount_kept | apply settleTraces_kept | apply onLive_kept
          | apply emberCheckEnd_kept | apply pumpBlocks_kept | apply Kept.foldl | rfl)
      | (intro _) | with_reducible apply Kept.ite | split | with_reducible refine Kept.mk' ?_ ?_ ?_ ?_

theorem execHashPreempt_kept {s₀ : State} {e : Fin 12} {s t₁ : State} (hK : Kept s₀ s) (e : (execHashPreempt e s)
    = .next t₁) : Kept s₀ t₁ := by
  unfold execHashPreempt at e
  cases e
  repeat' first
      | (with_reducible first | assumption | apply onLive_kept | apply preemptAt_kept | apply Kept.foldl | rfl)
      | (intro _) | with_reducible apply Kept.ite | split | with_reducible refine Kept.mk' ?_ ?_ ?_ ?_

theorem execKnownAnswerTest_kept {s₀ : State} {hashFail : BitVec 12} {aesFail : BitVec 2} {s t₁ : State} (hK :
    Kept s₀ s) (e : (execKnownAnswerTest hashFail aesFail s) = .next t₁) : Kept s₀ t₁ := by
  unfold execKnownAnswerTest at e
  cases e
  repeat' first
      | (with_reducible first
          | assumption | apply settleAll_kept | apply onLive_kept | apply diagFail_kept | apply knownAnswer_kept
          | apply Kept.foldl | rfl)
      | (intro _) | with_reducible apply Kept.ite | split | with_reducible refine Kept.mk' ?_ ?_ ?_ ?_

theorem execStageCheck_kept {s₀ : State} {m : Master} {s t₁ : State} (hK : Kept s₀ s) (e : (execStageCheck m s) =
    .next t₁) : Kept s₀ t₁ := by
  unfold execStageCheck at e
  cases e
  repeat' first
      | (with_reducible first
          | assumption | apply settleAll_kept | apply wr_kept | apply bindStageCheck_kept | apply onLive_kept
          | apply Kept.foldl | rfl)
      | (intro _) | with_reducible apply Kept.ite | split | with_reducible refine Kept.mk' ?_ ?_ ?_ ?_

theorem execClistClear_kept {s₀ : State} {m : Master} {s t₁ : State} (hK : Kept s₀ s) (e : (execClistClear m s) =
    .next t₁) : Kept s₀ t₁ := by
  unfold execClistClear at e
  cases e
  repeat' first
      | (with_reducible first
          | assumption | apply wr_kept | apply bindClistClear_kept | apply onLive_kept | apply Kept.foldl | rfl)
      | (intro _) | with_reducible apply Kept.ite | split | with_reducible refine Kept.mk' ?_ ?_ ?_ ?_

theorem execClinkerHoldClear_kept {s₀ : State} {m : Master} {v : Word} {s t₁ : State} (hK : Kept s₀ s) (e :
    (execClinkerHoldClear m v s) = .next t₁) : Kept s₀ t₁ := by
  unfold execClinkerHoldClear at e
  cases e
  repeat' first
      | (with_reducible first
          | assumption | apply wr_kept | apply onLive_kept | apply clkHoldWrite_kept | apply Kept.foldl | rfl)
      | (intro _) | with_reducible apply Kept.ite | split | with_reducible refine Kept.mk' ?_ ?_ ?_ ?_

theorem execBindFloorWrite_kept {s₀ : State} {m : Master} {v : Word} {s t₁ : State} (hK : Kept s₀ s) (e :
    (execBindFloorWrite m v s) = .next t₁) : Kept s₀ t₁ := by
  unfold execBindFloorWrite at e
  cases e
  repeat' first
      | (with_reducible first
          | assumption | apply wr_kept | apply onLive_kept | apply bindFloorWrite_kept | apply Kept.foldl | rfl)
      | (intro _) | with_reducible apply Kept.ite | split | with_reducible refine Kept.mk' ?_ ?_ ?_ ?_

theorem execScrubStep_kept {s₀ : State} {b : Fin 255} {s t₁ : State} (hK : Kept s₀ s) (e : (execScrubStep b s) =
    .next t₁) : Kept s₀ t₁ := by
  unfold execScrubStep at e
  cases e
  repeat' first
      | (with_reducible first | assumption | apply onLive_kept | apply scrubStep_kept | apply Kept.foldl | rfl)
      | (intro _) | with_reducible apply Kept.ite | split | with_reducible refine Kept.mk' ?_ ?_ ?_ ?_

end Sys2Proof.Machine
end

