-- ==== Sys2Proof/Laws/CmdWatch.lean ====
section
/-! SUPPORT. What each operation of Machine/CmdWatch.lean keeps (`Kept`). -/

set_option linter.unusedTactic false
set_option linter.unreachableTactic false

namespace Sys2Proof.Machine

theorem execStoke_kept {s₀ : State} {m : Master} {w : Fin 5} {v : Word} {s t₁ : State} (hK : Kept s₀ s) (e :
    (execStoke m w v s) = .next t₁) : Kept s₀ t₁ := by
  unfold execStoke at e
  cases e
  repeat' first
      | (with_reducible first | assumption | apply onLive_kept | apply wdStoke_kept | apply Kept.foldl | rfl)
      | (intro _) | with_reducible apply Kept.ite | split | with_reducible refine Kept.mk' ?_ ?_ ?_ ?_

theorem execWindowOpen_kept {s₀ : State} {w : Fin 5} {s t₁ : State} (hK : Kept s₀ s) (e : (execWindowOpen w s) =
    .next t₁) : Kept s₀ t₁ := by
  unfold execWindowOpen at e
  cases e
  repeat' first
      | (with_reducible first | assumption | apply wdOpen_kept | apply onLive_kept | apply Kept.foldl | rfl)
      | (intro _) | with_reducible apply Kept.ite | split | with_reducible refine Kept.mk' ?_ ?_ ?_ ?_

theorem execWindowExpiry_kept {s₀ : State} {w : Fin 5} {s t₁ : State} (hK : Kept s₀ s) (e : (execWindowExpiry w s)
    = .next t₁) : Kept s₀ t₁ := by
  unfold execWindowExpiry at e
  cases e
  repeat' first
      | (with_reducible first | assumption | apply wdWindowExpiry_kept | apply onLive_kept | apply Kept.foldl | rfl)
      | (intro _) | with_reducible apply Kept.ite | split | with_reducible refine Kept.mk' ?_ ?_ ?_ ?_

theorem execWdArm_kept {s₀ : State} {m : Master} {w : Fin 5} {v : Word} {s t₁ : State} (hK : Kept s₀ s) (e :
    (execWdArm m w v s) = .next t₁) : Kept s₀ t₁ := by
  unfold execWdArm at e
  cases e
  repeat' first
      | (with_reducible first
          | assumption | apply onBit_kept | apply onLive_kept | apply wdArm_kept | apply Kept.foldl | rfl)
      | (intro _) | with_reducible apply Kept.ite | split | with_reducible refine Kept.mk' ?_ ?_ ?_ ?_

theorem execTsArm_kept {s₀ : State} {m : Master} {v : Word} {s t₁ : State} (hK : Kept s₀ s) (e : (execTsArm m v s)
    = .next t₁) : Kept s₀ t₁ := by
  unfold execTsArm at e
  cases e
  repeat' first
      | (with_reducible first
          | assumption | apply wr_kept | apply tsArmWrite_kept | apply onLive_kept | apply Kept.foldl | rfl)
      | (intro _) | with_reducible apply Kept.ite | split | with_reducible refine Kept.mk' ?_ ?_ ?_ ?_

theorem execCheckin_kept {s₀ : State} {m : Master} {v : Word} {s t₁ : State} (hK : Kept s₀ s) (e : (execCheckin m
    v s) = .next t₁) : Kept s₀ t₁ := by
  unfold execCheckin at e
  cases e
  repeat' first
      | (with_reducible first | assumption | apply checkinWrite_kept | apply onLive_kept | apply Kept.foldl | rfl)
      | (intro _) | with_reducible apply Kept.ite | split | with_reducible refine Kept.mk' ?_ ?_ ?_ ?_

theorem execPeriodEnd_kept {s₀ : State} {i : Fin 16} {s t₁ : State} (hK : Kept s₀ s) (e : (execPeriodEnd i s) =
    .next t₁) : Kept s₀ t₁ := by
  unfold execPeriodEnd at e
  cases e
  repeat' first
      | (with_reducible first | assumption | apply onLive_kept | apply tsPeriodEnd_kept | apply Kept.foldl | rfl)
      | (intro _) | with_reducible apply Kept.ite | split | with_reducible refine Kept.mk' ?_ ?_ ?_ ?_

end Sys2Proof.Machine
end

