-- ==== Sys2Proof/Laws/Dispatch.lean ====
section
/-! SUPPORT. What each operation of Machine/Dispatch.lean keeps (`Kept`). -/

set_option linter.unusedTactic false
set_option linter.unreachableTactic false

namespace Sys2Proof.Machine

theorem exec_kept {s₀ : State} {i : Instr} {s t₁ : State} (hK : Kept s₀ s) (e : exec i s = .next t₁) : Kept s₀ t₁ := by
  cases i with
  | registerWrite => exact execRegisterWrite_kept hK e
  | rcRead => exact execRcRead_kept hK e
  | bcastRead => exact execBcastRead_kept hK e
  | devRstNAssert => exact execDevRstNAssert_kept hK e
  | deviceResetRelease => exact execDeviceResetRelease_kept hK e
  | tinderStart => exact execTinderStart_kept hK e
  | kindlingBoot => exact execKindlingBoot_kept hK e
  | coreSupplyLow => exact execCoreSupplyLow_kept hK e
  | coreSupplyRestored => exact execCoreSupplyRestored_kept hK e
  | ioBankLow => exact execIoBankLow_kept hK e
  | clockMonitorFault => exact execClockMonitorFault_kept hK e
  | read => exact execRead_kept hK e
  | program => exact execProgram_kept hK e
  | erase => exact execErase_kept hK e
  | wren => exact execWren_kept hK e
  | wrdi => exact execWrdi_kept hK e
  | rdsr => exact execRdsr_kept hK e
  | rdreg => exact execRdreg_kept hK e
  | wrreg => exact execWrreg_kept hK e
  | sfdp => exact execSfdp_kept hK e
  | readId => exact execReadId_kept hK e
  | addr4Enter => exact execAddr4Enter_kept hK e
  | addr4Exit => exact execAddr4Exit_kept hK e
  | protoSwitch => exact execProtoSwitch_kept hK e
  | resetEn => exact execResetEn_kept hK e
  | reset => exact execReset_kept hK e
  | suspend => exact execSuspend_kept hK e
  | resume => exact execResume_kept hK e
  | unknown => exact execUnknown_kept hK e
  | truncatedTransaction => exact execTruncatedTransaction_kept hK e
  | flashAccessGrant => exact execFlashAccessGrant_kept hK e
  | fillComplete => exact execFillComplete_kept hK e
  | writeExecute => exact execWriteExecute_kept hK e
  | statusPoll => exact execStatusPoll_kept hK e
  | escHoldExpiry => exact execEscHoldExpiry_kept hK e
  | escRelease => exact execEscRelease_kept hK e
  | rgnActWrite => exact execRgnActWrite_kept hK e
  | substClear => exact execSubstClear_kept hK e
  | logDrain => exact execLogDrain_kept hK e
  | portalReadBurst => exact execPortalReadBurst_kept hK e
  | portalWriteBurst => exact execPortalWriteBurst_kept hK e
  | portalReadStatus => exact execPortalReadStatus_kept hK e
  | portalFrameError => exact execPortalFrameError_kept hK e
  | portalBusyTimeout => exact execPortalBusyTimeout_kept hK e
  | ownReq => exact execOwnReq_kept hK e
  | rawOwnershipGrant => exact execRawOwnershipGrant_kept hK e
  | rawStart => exact execRawStart_kept hK e
  | rawAbort => exact execRawAbort_kept hK e
  | rawTransferEnd => exact execRawTransferEnd_kept hK e
  | anchoring => exact execAnchoring_kept hK e
  | emberCheck => exact execEmberCheck_kept hK e
  | hashPreempt => exact execHashPreempt_kept hK e
  | knownAnswerTest => exact execKnownAnswerTest_kept hK e
  | stageCheck => exact execStageCheck_kept hK e
  | clistClear => exact execClistClear_kept hK e
  | clinkerHoldClear => exact execClinkerHoldClear_kept hK e
  | bindFloorWrite => exact execBindFloorWrite_kept hK e
  | scrubStep => exact execScrubStep_kept hK e
  | flipReq => exact execFlipReq_kept hK e
  | flipCancel => exact execFlipCancel_kept hK e
  | goldClear => exact execGoldClear_kept hK e
  | stageLockSet => exact execStageLockSet_kept hK e
  | stageLockClr => exact execStageLockClr_kept hK e
  | flipHoldClear => exact execFlipHoldClear_kept hK e
  | bsetMapWrite => exact execBsetMapWrite_kept hK e
  | traceWindowExpiry => exact execTraceWindowExpiry_kept hK e
  | traceJournalWrite => exact execTraceJournalWrite_kept hK e
  | adaptationPass => exact execAdaptationPass_kept hK e
  | load => exact execLoad_kept hK e
  | loadCommit => exact execLoadCommit_kept hK e
  | loadReject => exact execLoadReject_kept hK e
  | lock => exact execLock_kept hK e
  | restructureStart => exact execRestructureStart_kept hK e
  | restructureCommit => exact execRestructureCommit_kept hK e
  | restructureHoldClear => exact execRestructureHoldClear_kept hK e
  | advance => exact execAdvance_kept hK e
  | advanceDone => exact execAdvanceDone_kept hK e
  | dependentDrawGrant => exact execDependentDrawGrant_kept hK e
  | headAged => exact execHeadAged_kept hK e
  | trackerParityError => exact execTrackerParityError_kept hK e
  | create => exact execCreate_kept hK e
  | resetDrain => exact execResetDrain_kept hK e
  | resetSquash => exact execResetSquash_kept hK e
  | remove => exact execRemove_kept hK e
  | drainComplete => exact execDrainComplete_kept hK e
  | drainTimeout => exact execDrainTimeout_kept hK e
  | coreStart => exact execCoreStart_kept hK e
  | coreInstruction => exact execCoreInstruction_kept hK e
  | ownStoreWindowRead => exact execOwnStoreWindowRead_kept hK e
  | ruInvalidate => exact execRuInvalidate_kept hK e
  | ruRootWrite => exact execRuRootWrite_kept hK e
  | dmaGo => exact execDmaGo_kept hK e
  | dmaAbort => exact execDmaAbort_kept hK e
  | dmaResume => exact execDmaResume_kept hK e
  | dmaBeat => exact execDmaBeat_kept hK e
  | dmaAging => exact execDmaAging_kept hK e
  | intClaim => exact execIntClaim_kept hK e
  | intComplete => exact execIntComplete_kept hK e
  | mtimecmpMatch => exact execMtimecmpMatch_kept hK e
  | resetNow => exact execResetNow_kept hK e
  | waitInSettled => exact execWaitInSettled_kept hK e
  | delayExpiry => exact execDelayExpiry_kept hK e
  | stepTimeout => exact execStepTimeout_kept hK e
  | pmbTransactionEnd => exact execPmbTransactionEnd_kept hK e
  | smbRetry => exact execSmbRetry_kept hK e
  | pmbPollInterval => exact execPmbPollInterval_kept hK e
  | restart => exact execRestart_kept hK e
  | shutdown => exact execShutdown_kept hK e
  | platformFault => exact execPlatformFault_kept hK e
  | watchRearm => exact execWatchRearm_kept hK e
  | pfHoldClear => exact execPfHoldClear_kept hK e
  | hearthHoldWrite => exact execHearthHoldWrite_kept hK e
  | minHoldExpiry => exact execMinHoldExpiry_kept hK e
  | smbStart => exact execSmbStart_kept hK e
  | smbTransactionEnd => exact execSmbTransactionEnd_kept hK e
  | rootLoad => exact execRootLoad_kept hK e
  | zeroise => exact execZeroise_kept hK e
  | rekindle => exact execRekindle_kept hK e
  | derive => exact execDerive_kept hK e
  | generate => exact execGenerate_kept hK e
  | unwrap => exact execUnwrap_kept hK e
  | wrap => exact execWrap_kept hK e
  | revoke => exact execRevoke_kept hK e
  | replace => exact execReplace_kept hK e
  | commit => exact execCommit_kept hK e
  | cancel => exact execCancel_kept hK e
  | kcv => exact execKcv_kept hK e
  | hmac => exact execHmac_kept hK e
  | gcmEnc => exact execGcmEnc_kept hK e
  | gcmDec => exact execGcmDec_kept hK e
  | sign => exact execSign_kept hK e
  | alias_ => exact execAlias_kept hK e
  | pubkey => exact execPubkey_kept hK e
  | kvOpEnd => exact execKvOpEnd_kept hK e
  | invalidationSweep => exact execInvalidationSweep_kept hK e
  | entropyRetest => exact execEntropyRetest_kept hK e
  | leafJournalWrite => exact execLeafJournalWrite_kept hK e
  | lmsTreeGenerated => exact execLmsTreeGenerated_kept hK e
  | toTest => exact execToTest_kept hK e
  | toProduction => exact execToProduction_kept hK e
  | provision => exact execProvision_kept hK e
  | redeem => exact execRedeem_kept hK e
  | toEol => exact execToEol_kept hK e
  | nonce => exact execNonce_kept hK e
  | lcTransitionEnd => exact execLcTransitionEnd_kept hK e
  | tapInstruction => exact execTapInstruction_kept hK e
  | debugAccess => exact execDebugAccess_kept hK e
  | mbSend => exact execMbSend_kept hK e
  | mbPop => exact execMbPop_kept hK e
  | lockRead => exact execLockRead_kept hK e
  | lockWrite => exact execLockWrite_kept hK e
  | tallySnapshotRead => exact execTallySnapshotRead_kept hK e
  | extend => exact execExtend_kept hK e
  | tallyExtensionDone => exact execTallyExtensionDone_kept hK e
  | mctpPacketRx => exact execMctpPacketRx_kept hK e
  | mctpPacketRead => exact execMctpPacketRead_kept hK e
  | i3cCcc => exact execI3cCcc_kept hK e
  | i3cReplyRead => exact execI3cReplyRead_kept hK e
  | i3cReplyTimeout => exact execI3cReplyTimeout_kept hK e
  | getVersion => exact execGetVersion_kept hK e
  | getCapabilities => exact execGetCapabilities_kept hK e
  | negotiateAlgorithms => exact execNegotiateAlgorithms_kept hK e
  | getDigests => exact execGetDigests_kept hK e
  | getCertificate => exact execGetCertificate_kept hK e
  | challenge => exact execChallenge_kept hK e
  | getMeasurements => exact execGetMeasurements_kept hK e
  | chunkGet => exact execChunkGet_kept hK e
  | unsupportedRequest => exact execUnsupportedRequest_kept hK e
  | spdmResponseReady => exact execSpdmResponseReady_kept hK e
  | flueSymbolLock => exact execFlueSymbolLock_kept hK e
  | flueTrained => exact execFlueTrained_kept hK e
  | trainingTimeout => exact execTrainingTimeout_kept hK e
  | flueRetry => exact execFlueRetry_kept hK e
  | linkRx => exact execLinkRx_kept hK e
  | linkAckTimer => exact execLinkAckTimer_kept hK e
  | replayTimeout => exact execReplayTimeout_kept hK e
  | badFrameRx => exact execBadFrameRx_kept hK e
  | helloRx => exact execHelloRx_kept hK e
  | helloTimer => exact execHelloTimer_kept hK e
  | helloLoss => exact execHelloLoss_kept hK e
  | topoRx => exact execTopoRx_kept hK e
  | topoTimer => exact execTopoTimer_kept hK e
  | topoEntryAge => exact execTopoEntryAge_kept hK e
  | settle => exact execSettle_kept hK e
  | assignRx => exact execAssignRx_kept hK e
  | rediscover => exact execRediscover_kept hK e
  | msgRx => exact execMsgRx_kept hK e
  | bulksegRx => exact execBulksegRx_kept hK e
  | dlvRx => exact execDlvRx_kept hK e
  | peerResend => exact execPeerResend_kept hK e
  | peerSend => exact execPeerSend_kept hK e
  | bcastGo => exact execBcastGo_kept hK e
  | bcastRx => exact execBcastRx_kept hK e
  | arrive => exact execArrive_kept hK e
  | arriveRx => exact execArriveRx_kept hK e
  | releaseRx => exact execReleaseRx_kept hK e
  | snapshotStart => exact execSnapshotStart_kept hK e
  | markerRx => exact execMarkerRx_kept hK e
  | closeRx => exact execCloseRx_kept hK e
  | closeTimeout => exact execCloseTimeout_kept hK e
  | snapshotRecordSend => exact execSnapshotRecordSend_kept hK e
  | snaprecRx => exact execSnaprecRx_kept hK e
  | collectionDeadline => exact execCollectionDeadline_kept hK e
  | quoteReady => exact execQuoteReady_kept hK e
  | freset => exact execFreset_kept hK e
  | resetFrameRx => exact execResetFrameRx_kept hK e
  | relayFrameRx => exact execRelayFrameRx_kept hK e
  | relayFrameQueue => exact execRelayFrameQueue_kept hK e
  | serveWrite => exact execServeWrite_kept hK e
  | osProgram => exact execOsProgram_kept hK e
  | osErase4k => exact execOsErase4k_kept hK e
  | osErase64k => exact execOsErase64k_kept hK e
  | ownStoreEraseIssue => exact execOwnStoreEraseIssue_kept hK e
  | osOperationEnd => exact execOsOperationEnd_kept hK e
  | eraseMaxExpiry => exact execEraseMaxExpiry_kept hK e
  | recoveryStatus => exact execRecoveryStatus_kept hK e
  | recoveryPiece => exact execRecoveryPiece_kept hK e
  | recoveryEnd => exact execRecoveryEnd_kept hK e
  | stoke => exact execStoke_kept hK e
  | windowOpen => exact execWindowOpen_kept hK e
  | windowExpiry => exact execWindowExpiry_kept hK e
  | wdArm => exact execWdArm_kept hK e
  | hardTimerExpiry => exact execHardTimerExpiry_kept hK e
  | tsArm => exact execTsArm_kept hK e
  | checkin => exact execCheckin_kept hK e
  | periodEnd => exact execPeriodEnd_kept hK e
  | pairRoleTimer => exact execPairRoleTimer_kept hK e
  | pairHelloRx => exact execPairHelloRx_kept hK e
  | leaseTimer => exact execLeaseTimer_kept hK e
  | leaseRx => exact execLeaseRx_kept hK e
  | lackRx => exact execLackRx_kept hK e
  | lackLoss => exact execLackLoss_kept hK e
  | leaseExpiry => exact execLeaseExpiry_kept hK e
  | yield_ => exact execYield_kept hK e
  | handover => exact execHandover_kept hK e
  | claim => exact execClaim_kept hK e
  | vblockRx => exact execVblockRx_kept hK e
  | noticeRx => exact execNoticeRx_kept hK e
  | stateRx => exact execStateRx_kept hK e
  | catchUpPass => exact execCatchUpPass_kept hK e
  | pairMsgSend => exact execPairMsgSend_kept hK e
  | pairMsgPop => exact execPairMsgPop_kept hK e
  | pairMsgRx => exact execPairMsgRx_kept hK e
  | tamperEvent => exact execTamperEvent_kept hK e
  | tamperWindowClose => exact execTamperWindowClose_kept hK e
  | sourceIdle => exact execSourceIdle_kept hK e
  | haltHoldExpiry => exact execHaltHoldExpiry_kept hK e
  | holdClear => exact execHoldClear_kept hK e
  | softAlarm => exact execSoftAlarm_kept hK e
  | rtcLoad => exact execRtcLoad_kept hK e
  | rtcLoRead => exact execRtcLoRead_kept hK e
  | thermBitProgrammed => exact execThermBitProgrammed_kept hK e
  | aoRestart => exact execAoRestart_kept hK e
  | ioBankInRange => exact execIoBankInRange_kept hK e
  | symbolLockLoss => exact execSymbolLockLoss_kept hK e
  | frameForward => exact execFrameForward_kept hK e
  | recoverySegRx => exact execRecoverySegRx_kept hK e
  | healthTestFail => exact execHealthTestFail_kept hK e
  | idleGate => exact execIdleGate_kept hK e
  | sqIoLevelChange => exact execSqIoLevelChange_kept hK e
  | diagRx => exact execDiagRx_kept hK e
  | pairHelloDiagTimer => exact execPairHelloDiagTimer_kept hK e
  | tokenCheckEnd => exact execTokenCheckEnd_kept hK e

end Sys2Proof.Machine
end

