-- ==== Sys2Proof/Laws/Settle.lean ====
section
/-! SUPPORT. What the settling of the channels after an event leaves alone: every part but the channels, the flash ports, the
verification engines, the cache, the trackers, the sequencer, the vault, the own store and the power state. -/

set_option linter.unusedTactic false
set_option linter.unreachableTactic false

namespace Sys2Proof.Machine

/-- From `s` to `t` nothing outside the channels, the ports, the engines, the cache, the trackers, the sequencer, the vault, the own
store and the power state has changed. -/
structure Fixed (s t : State) : Prop where
  clk : t.clk = s.clk
  sel : t.sel = s.sel
  gc : t.gc = s.gc
  grLog : t.grLog = s.grLog
  st : t.st = s.st
  inst : t.inst = s.inst
  he : t.he = s.he
  lc : t.lc = s.lc
  otp : t.otp = s.otp
  mb : t.mb = s.mb
  fb : t.fb = s.fb
  boot : t.boot = s.boot
  wd : t.wd = s.wd
  pr : t.pr = s.pr
  tp : t.tp = s.tp
  pending : t.pending = s.pending

theorem Fixed.refl (s : State) : Fixed s s := ⟨rfl, rfl, rfl, rfl, rfl, rfl, rfl, rfl, rfl, rfl, rfl, rfl, rfl, rfl, rfl, rfl⟩

variable {s₀ s : State}

/-- A record update of the parts that may change. -/
theorem Fixed.mk' (h : Fixed s₀ s) {ch port ve ec bt sq pd kv os} :
    Fixed s₀ ⟨s.clk, s.sel, s.gc, ch, port, s.grLog, ve, ec, s.st, bt, s.inst, sq, pd, s.he, kv, s.lc, s.otp, s.mb, s.fb, os, s.boot, s.wd, s.pr, s.tp, s.pending⟩ :=
  ⟨h.clk, h.sel, h.gc, h.grLog, h.st, h.inst, h.he, h.lc, h.otp, h.mb, h.fb, h.boot, h.wd, h.pr, h.tp, h.pending⟩

theorem Fixed.foldl {β : Type} {l : List β} {g : State → β → State} (h : Fixed s₀ s)
    (hg : ∀ t x, Fixed s₀ t → Fixed s₀ (g t x)) : Fixed s₀ (l.foldl g s) := by
  induction l generalizing s with
  | nil => exact h
  | cons x l ih => exact ih (hg s x h)

theorem Fixed.ite {c : Prop} [Decidable c] {a b : State} (ha : Fixed s₀ a) (hb : Fixed s₀ b) : Fixed s₀ (if c then a else b) := by
  split
  · exact ha
  · exact hb

theorem Fixed.of_pair {β : Type} {p : β × State} {a : β} {t : State} (e : p = (a, t)) (h : Fixed s₀ p.2) : Fixed s₀ t := by
  rw [e] at h
  exact h

theorem forCh_fixed {s₀ : State} {f : State → Ch → State} {s : State} (hK : Fixed s₀ s) (hf : ∀ t x0, Fixed s₀ t →
    Fixed s₀ (f t x0)) : Fixed s₀ (forCh s f) := by
  unfold forCh
  repeat' first
      | (with_reducible first | assumption) | apply hf | (with_reducible first | apply Fixed.foldl | rfl) | (intro _)
      | with_reducible apply Fixed.ite | split | with_reducible refine Fixed.mk' ?_

theorem setBank_fixed {s₀ : State} {b : Nat} {k : BankId} {f : BankRt → BankRt} {s : State} (hK : Fixed s₀ s) :
    Fixed s₀ (setBank s b k f) := by
  unfold setBank
  repeat' first
      | (with_reducible first | assumption | apply Fixed.foldl | rfl) | (intro _) | with_reducible apply Fixed.ite
      | split | with_reducible refine Fixed.mk' ?_

theorem setUnitSt_fixed {s₀ : State} {id : Nat} {x : BilletSt} {s : State} (hK : Fixed s₀ s) : Fixed s₀ (setUnitSt
    s id x) := by
  unfold setUnitSt
  repeat' first
      | (with_reducible first | assumption | apply Fixed.foldl | rfl) | (intro _) | with_reducible apply Fixed.ite
      | split | with_reducible refine Fixed.mk' ?_

theorem modPort_fixed {s₀ : State} {p : Ch} {f : Port → Port} {s : State} (hK : Fixed s₀ s) : Fixed s₀ (modPort s
    p f) := by
  unfold modPort
  repeat' first
      | (with_reducible first | assumption | apply Fixed.foldl | rfl) | (intro _) | with_reducible apply Fixed.ite
      | split | with_reducible refine Fixed.mk' ?_

theorem setResume_fixed {s₀ : State} {id n : Nat} {s : State} (hK : Fixed s₀ s) : Fixed s₀ (setResume s id n) := by
  unfold setResume
  repeat' first
      | (with_reducible first | assumption | apply Fixed.foldl | rfl) | (intro _) | with_reducible apply Fixed.ite
      | split | with_reducible refine Fixed.mk' ?_

theorem noteResume_fixed {s₀ : State} {p : Ch} {a : Access} {s : State} (hK : Fixed s₀ s) : Fixed s₀ (noteResume s
    p a) := by
  unfold noteResume
  repeat' first
      | (with_reducible first | assumption | apply setResume_fixed | apply Fixed.foldl | rfl) | (intro _)
      | with_reducible apply Fixed.ite | split | with_reducible refine Fixed.mk' ?_

theorem cutPort_fixed {s₀ : State} {p : Ch} {byHost : Bool} {s : State} (hK : Fixed s₀ s) : Fixed s₀ (cutPort s p
    byHost) := by
  unfold cutPort
  repeat' first
      | (with_reducible first
          | assumption | apply setUnitSt_fixed | apply modPort_fixed | apply noteResume_fixed | apply Fixed.foldl
          | rfl)
      | (intro _) | with_reducible apply Fixed.ite | split | with_reducible refine Fixed.mk' ?_

theorem portEnq_fixed {s₀ : State} {p : Ch} {id : Nat} {demand : Bool} {s : State} (hK : Fixed s₀ s) : Fixed s₀
    (portEnq s p id demand) := by
  unfold portEnq
  repeat' first
      | (with_reducible first
          | assumption | apply setUnitSt_fixed | apply modPort_fixed | apply cutPort_fixed | apply Fixed.foldl | rfl)
      | (intro _) | with_reducible apply Fixed.ite | split | with_reducible refine Fixed.mk' ?_

theorem btTrack_fixed {s₀ : State} {f0 : Nat} {s : State} (hK : Fixed s₀ s) : Fixed s₀ (btTrack f0 s) := by
  unfold btTrack
  repeat' first
      | (with_reducible first | assumption | apply Fixed.foldl | rfl) | (intro _) | with_reducible apply Fixed.ite
      | split | with_reducible refine Fixed.mk' ?_

theorem btPlace_fixed {s₀ : State} {id : Nat} {b : Billet} {s : State} (hK : Fixed s₀ s) : Fixed s₀ (btPlace s id
    b) := by
  unfold btPlace
  repeat' first
      | (with_reducible first | assumption | apply btTrack_fixed | apply Fixed.foldl | rfl) | (intro _)
      | with_reducible apply Fixed.ite | split | with_reducible refine Fixed.mk' ?_

theorem btInt_fixed {s₀ : State} {i : Nat} {s : State} (hK : Fixed s₀ s) : Fixed s₀ (btInt s i) := by
  unfold btInt
  repeat' first
      | (with_reducible first | assumption | apply Fixed.foldl | rfl) | (intro _) | with_reducible apply Fixed.ite
      | split | with_reducible refine Fixed.mk' ?_

theorem draw_fixed2 {s₀ : State} {k : BilletClass} {o : Owner} {parent : Option Nat} {prov : Bool} {w : Work} {s :
    State} (hK : Fixed s₀ s) : Fixed s₀ (draw k o parent prov w s).2 := by
  unfold draw
  dsimp only
  repeat' first
      | (with_reducible first | assumption | apply btPlace_fixed | apply btInt_fixed | apply Fixed.foldl | rfl)
      | (intro _) | with_reducible apply Fixed.ite | split | with_reducible refine Fixed.mk' ?_

theorem draw_fixed {s₀ : State} {k : BilletClass} {o : Owner} {parent : Option Nat} {prov : Bool} {w : Work} {s :
    State} {p0 t} (hK : Fixed s₀ s) (e : (draw k o parent prov w s) = (p0, t)) : Fixed s₀ t := by
  have := draw_fixed2 (k := k) (o := o) (parent := parent) (prov := prov) (w := w) hK
  rw [e] at this
  exact this

theorem unitRead_fixed {s₀ : State} {up : Nat} {e : EmberId} {s : State} (hK : Fixed s₀ s) : Fixed s₀ (unitRead s
    up e) := by
  unfold unitRead
  repeat' first
      | (with_reducible first | assumption | apply portEnq_fixed | apply draw_fixed2)
      | refine draw_fixed ?_ (by with_reducible assumption)
      | (with_reducible first | apply setUnitSt_fixed | apply Fixed.foldl | rfl) | (intro _)
      | with_reducible apply Fixed.ite | split | with_reducible refine Fixed.mk' ?_

theorem startAnchor_fixed {s₀ : State} {b : Binding} {bk : BankId} {re : Bool} {s : State} (hK : Fixed s₀ s) :
    Fixed s₀ (startAnchor s b bk re) := by
  unfold startAnchor
  repeat' first
      | (with_reducible first | assumption | apply setBank_fixed | apply unitRead_fixed | apply draw_fixed2)
      | refine draw_fixed ?_ (by with_reducible assumption) | (with_reducible first | apply Fixed.foldl | rfl)
      | (intro _) | with_reducible apply Fixed.ite | split | with_reducible refine Fixed.mk' ?_

theorem pumpAnchor_fixed {s₀ : State} {c : Ch} {s : State} (hK : Fixed s₀ s) : Fixed s₀ (pumpAnchor s c) := by
  unfold pumpAnchor
  repeat' first
      | (with_reducible first | assumption | apply startAnchor_fixed | apply Fixed.foldl | rfl) | (intro _)
      | with_reducible apply Fixed.ite | split | with_reducible refine Fixed.mk' ?_

theorem modCh_fixed {s₀ : State} {c : Ch} {f : Chan → Chan} {s : State} (hK : Fixed s₀ s) : Fixed s₀ (modCh s c f) := by
  unfold modCh
  repeat' first
      | (with_reducible first | assumption | apply Fixed.foldl | rfl) | (intro _) | with_reducible apply Fixed.ite
      | split | with_reducible refine Fixed.mk' ?_

theorem setStrict_fixed {s₀ : State} {c : Ch} {i : Fin 64} {f : StrictRt → StrictRt} {s : State} (hK : Fixed s₀ s)
    : Fixed s₀ (setStrict s c i f) := by
  unfold setStrict
  repeat' first
      | (with_reducible first | assumption | apply modCh_fixed | apply Fixed.foldl | rfl) | (intro _)
      | with_reducible apply Fixed.ite | split | with_reducible refine Fixed.mk' ?_

theorem takeFrame_fixed {s₀ : State} {f : Nat} {id : EmberId} {pf : Bool} {s : State} (hK : Fixed s₀ s) : Fixed s₀
    (takeFrame s f id pf) := by
  unfold takeFrame
  repeat' first
      | (with_reducible first | assumption | apply Fixed.foldl | rfl) | (intro _) | with_reducible apply Fixed.ite
      | split | with_reducible refine Fixed.mk' ?_

theorem freeFrame_fixed {s₀ : State} {f : Nat} {s : State} (hK : Fixed s₀ s) : Fixed s₀ (freeFrame s f) := by
  unfold freeFrame
  repeat' first
      | (with_reducible first | assumption | apply Fixed.foldl | rfl) | (intro _) | with_reducible apply Fixed.ite
      | split | with_reducible refine Fixed.mk' ?_

theorem ecInt_fixed {s₀ : State} {i : Nat} {s : State} (hK : Fixed s₀ s) : Fixed s₀ (ecInt s i) := by
  unfold ecInt
  repeat' first
      | (with_reducible first | assumption | apply Fixed.foldl | rfl) | (intro _) | with_reducible apply Fixed.ite
      | split | with_reducible refine Fixed.mk' ?_

theorem ecRecord_fixed {s₀ : State} {c : Ch} {kind arg old new : Nat} {essential : Bool} {s : State} (hK : Fixed
    s₀ s) : Fixed s₀ (ecRecord s c kind arg old new essential) := by
  unfold ecRecord
  repeat' first
      | (with_reducible first | assumption | apply ecInt_fixed | apply Fixed.foldl | rfl) | (intro _)
      | with_reducible apply Fixed.ite | split | with_reducible refine Fixed.mk' ?_

theorem issueFill_fixed2 {s₀ : State} {id : EmberId} {why : FillWhy} {maxStep : Nat} {s : State} (hK : Fixed s₀ s)
    : Fixed s₀ (issueFill s id why maxStep).2 := by
  unfold issueFill
  dsimp only
  repeat' first
      | (with_reducible first
          | assumption | apply modCh_fixed | apply takeFrame_fixed | apply portEnq_fixed | apply freeFrame_fixed
          | apply draw_fixed2)
      | refine draw_fixed ?_ (by with_reducible assumption)
      | (with_reducible first | apply ecInt_fixed | apply ecRecord_fixed | apply Fixed.foldl | rfl) | (intro _)
      | with_reducible apply Fixed.ite | split | with_reducible refine Fixed.mk' ?_

theorem issueFill_fixed {s₀ : State} {id : EmberId} {why : FillWhy} {maxStep : Nat} {s : State} {p0 t} (hK : Fixed
    s₀ s) (e : (issueFill s id why maxStep) = (p0, t)) : Fixed s₀ t := by
  have := issueFill_fixed2 (id := id) (why := why) (maxStep := maxStep) hK
  rw [e] at this
  exact this

theorem pumpStrictRgn_fixed {s₀ : State} {c : Ch} {i : Fin 64} {s : State} (hK : Fixed s₀ s) : Fixed s₀
    (pumpStrictRgn s c i) := by
  unfold pumpStrictRgn
  repeat' first
      | (with_reducible first | assumption | apply setStrict_fixed | apply issueFill_fixed2)
      | refine issueFill_fixed ?_ (by with_reducible assumption) | (with_reducible first | apply Fixed.foldl | rfl)
      | (intro _) | with_reducible apply Fixed.ite | split | with_reducible refine Fixed.mk' ?_

theorem pumpStrict_fixed {s₀ : State} {c : Ch} {s : State} (hK : Fixed s₀ s) : Fixed s₀ (pumpStrict s c) := by
  unfold pumpStrict
  repeat' first
      | (with_reducible first | assumption | apply pumpStrictRgn_fixed | apply Fixed.foldl | rfl) | (intro _)
      | with_reducible apply Fixed.ite | split | with_reducible refine Fixed.mk' ?_

theorem treeRoll_fixed {s₀ s : State} (hK : Fixed s₀ s) : Fixed s₀ (treeRoll s) := by
  unfold treeRoll
  repeat' first
      | (with_reducible first | assumption | apply Fixed.foldl | rfl) | (intro _) | with_reducible apply Fixed.ite
      | split | with_reducible refine Fixed.mk' ?_

theorem setRing_fixed {s₀ : State} {t : Nat} {a : Arb} {s : State} (hK : Fixed s₀ s) : Fixed s₀ (setRing s t a) := by
  unfold setRing
  repeat' first
      | (with_reducible first | assumption | apply Fixed.foldl | rfl) | (intro _) | with_reducible apply Fixed.ite
      | split | with_reducible refine Fixed.mk' ?_

theorem hashPut_fixed {s₀ : State} {tier id cost : Nat} {o : Owner} {s : State} (hK : Fixed s₀ s) : Fixed s₀
    (hashPut s tier id cost o) := by
  unfold hashPut
  repeat' first
      | (with_reducible first | assumption | apply setRing_fixed | apply Fixed.foldl | rfl) | (intro _)
      | with_reducible apply Fixed.ite | split | with_reducible refine Fixed.mk' ?_

theorem ageRings_fixed {s₀ s : State} (hK : Fixed s₀ s) : Fixed s₀ (ageRings s) := by
  unfold ageRings
  repeat' first
      | (with_reducible first | assumption | apply Fixed.foldl | rfl) | (intro _) | with_reducible apply Fixed.ite
      | split | with_reducible refine Fixed.mk' ?_

theorem hashPick_fixed {s₀ s : State} {p0 p1 t} (hK : Fixed s₀ s)
    (e : hashPick s = some (p0, p1, t)) : Fixed s₀ t := by
  unfold hashPick at e
  dsimp only at e
  repeat' split at e
  all_goals simp only [Option.some.injEq, Prod.mk.injEq, reduceCtorEq] at e
  all_goals obtain ⟨_, _, rfl⟩ := e
  · exact Fixed.mk' hK
  · exact setRing_fixed (ageRings_fixed hK)

theorem slotTo_fixed {s₀ : State} {id : EmberId} {st : SlotSt} {s : State} (hK : Fixed s₀ s) : Fixed s₀ (slotTo s
    id st) := by
  unfold slotTo
  repeat' first
      | (with_reducible first | assumption | apply modCh_fixed | apply Fixed.foldl | rfl) | (intro _)
      | with_reducible apply Fixed.ite | split | with_reducible refine Fixed.mk' ?_

theorem slotJob_fixed {s₀ : State} {uid : Nat} {st : SlotSt} {s : State} (hK : Fixed s₀ s) : Fixed s₀ (slotJob s
    uid st) := by
  unfold slotJob
  repeat' first
      | (with_reducible first | assumption | apply slotTo_fixed | apply Fixed.foldl | rfl) | (intro _)
      | with_reducible apply Fixed.ite | split | with_reducible refine Fixed.mk' ?_

theorem hashStart_fixed {s₀ : State} {e : Fin 12} {j : HashJob} {s : State} (hK : Fixed s₀ s) : Fixed s₀
    (hashStart s e j) := by
  unfold hashStart
  repeat' first
      | (with_reducible first | assumption | apply setUnitSt_fixed | apply slotJob_fixed | apply Fixed.foldl | rfl)
      | (intro _) | with_reducible apply Fixed.ite | split | with_reducible refine Fixed.mk' ?_

theorem hashGrant_fixed {s₀ : State} {a1 : Nat} {a2 : State} (hK : Fixed s₀ a2) : Fixed s₀ (hashGrant a1 a2) := by
  induction a1 generalizing a2 with
  | zero =>
    unfold hashGrant
    repeat' first
        | (with_reducible first | assumption) | refine hashPick_fixed ?_ (by with_reducible assumption)
        | (with_reducible first | apply hashStart_fixed | apply Fixed.foldl | rfl) | (intro _)
        | with_reducible apply Fixed.ite | split | with_reducible refine Fixed.mk' ?_
  | succ _ ih =>
    unfold hashGrant
    repeat' first
        | with_reducible apply ih | (with_reducible first | assumption)
        | refine hashPick_fixed ?_ (by with_reducible assumption)
        | (with_reducible first | apply hashStart_fixed | apply Fixed.foldl | rfl) | (intro _)
        | with_reducible apply Fixed.ite | split | with_reducible refine Fixed.mk' ?_

theorem hashJobs_fixed {s₀ : State} {tier id : Nat} {costs : List Nat} {o : Owner} {s : State} (hK : Fixed s₀ s) :
    Fixed s₀ (hashJobs s tier id costs o) := by
  unfold hashJobs
  repeat' first
      | (with_reducible first
          | assumption | apply setUnitSt_fixed | apply treeRoll_fixed | apply hashPut_fixed | apply hashGrant_fixed
          | apply Fixed.foldl | rfl)
      | (intro _) | with_reducible apply Fixed.ite | split | with_reducible refine Fixed.mk' ?_

theorem hashEnq_fixed {s₀ : State} {tier id cost : Nat} {o : Owner} {s : State} (hK : Fixed s₀ s) : Fixed s₀
    (hashEnq s tier id cost o) := by
  unfold hashEnq
  repeat' first
      | (with_reducible first | assumption | apply hashJobs_fixed | apply Fixed.foldl | rfl) | (intro _)
      | with_reducible apply Fixed.ite | split | with_reducible refine Fixed.mk' ?_

theorem startCheck_fixed {s₀ : State} {f : Option Nat} {id : EmberId} {data : List Byte} {s : State} (hK : Fixed
    s₀ s) : Fixed s₀ (startCheck s f id data) := by
  unfold startCheck
  repeat' first
      | (with_reducible first | assumption | apply draw_fixed2) | refine draw_fixed ?_ (by with_reducible assumption)
      | (with_reducible first | apply hashEnq_fixed | apply Fixed.foldl | rfl) | (intro _)
      | with_reducible apply Fixed.ite | split | with_reducible refine Fixed.mk' ?_

theorem pumpChecks_fixed {s₀ : State} {c : Ch} {s : State} (hK : Fixed s₀ s) : Fixed s₀ (pumpChecks s c) := by
  unfold pumpChecks
  repeat' first
      | (with_reducible first | assumption | apply startCheck_fixed | apply Fixed.foldl | rfl) | (intro _)
      | with_reducible apply Fixed.ite | split | with_reducible refine Fixed.mk' ?_

theorem preStep_fixed {s₀ : State} {c : Ch} {v : Nat} {s : State} (hK : Fixed s₀ s) : Fixed s₀ (preStep s c v) := by
  unfold preStep
  repeat' first
      | (with_reducible first | assumption | apply modCh_fixed | apply issueFill_fixed2)
      | refine issueFill_fixed ?_ (by with_reducible assumption) | (with_reducible first | apply Fixed.foldl | rfl)
      | (intro _) | with_reducible apply Fixed.ite | split | with_reducible refine Fixed.mk' ?_

theorem preWalk_fixed {s₀ : State} {c : Ch} {a1 : Nat} {a2 : State} (hK : Fixed s₀ a2) : Fixed s₀ (preWalk c a1
    a2) := by
  induction a1 generalizing a2 with
  | zero =>
    unfold preWalk
    repeat' first
        | (with_reducible first | assumption | apply modCh_fixed | apply preStep_fixed | apply Fixed.foldl | rfl)
        | (intro _) | with_reducible apply Fixed.ite | split | with_reducible refine Fixed.mk' ?_
  | succ _ ih =>
    unfold preWalk
    repeat' first
        | with_reducible apply ih | (with_reducible first
            | assumption | apply modCh_fixed | apply preStep_fixed | apply Fixed.foldl | rfl)
        | (intro _) | with_reducible apply Fixed.ite | split | with_reducible refine Fixed.mk' ?_

theorem pumpPre_fixed {s₀ : State} {c : Ch} {s : State} (hK : Fixed s₀ s) : Fixed s₀ (pumpPre s c) := by
  unfold pumpPre
  repeat' first
      | (with_reducible first | assumption | apply preWalk_fixed | apply Fixed.foldl | rfl) | (intro _)
      | with_reducible apply Fixed.ite | split | with_reducible refine Fixed.mk' ?_

theorem strictClose_fixed {s₀ : State} {c : Ch} {i : Fin 64} {s : State} (hK : Fixed s₀ s) : Fixed s₀ (strictClose
    s c i) := by
  unfold strictClose
  repeat' first
      | (with_reducible first | assumption | apply setStrict_fixed | apply Fixed.foldl | rfl) | (intro _)
      | with_reducible apply Fixed.ite | split | with_reducible refine Fixed.mk' ?_

theorem pumpLeaf_fixed {s₀ : State} {c : Ch} {s : State} (hK : Fixed s₀ s) : Fixed s₀ (pumpLeaf s c) := by
  unfold pumpLeaf
  repeat' first
      | (with_reducible first | assumption | apply unitRead_fixed | apply draw_fixed2)
      | refine draw_fixed ?_ (by with_reducible assumption) | (with_reducible first | apply Fixed.foldl | rfl)
      | (intro _) | with_reducible apply Fixed.ite | split | with_reducible refine Fixed.mk' ?_

theorem pumpFollow_fixed {s₀ : State} {c : Ch} {s : State} (hK : Fixed s₀ s) : Fixed s₀ (pumpFollow s c) := by
  unfold pumpFollow
  repeat' first
      | (with_reducible first | assumption | apply issueFill_fixed2)
      | refine issueFill_fixed ?_ (by with_reducible assumption) | (with_reducible first | apply Fixed.foldl | rfl)
      | (intro _) | with_reducible apply Fixed.ite | split | with_reducible refine Fixed.mk' ?_

theorem pumpCh_fixed {s₀ : State} {c : Ch} {s : State} (hK : Fixed s₀ s) : Fixed s₀ (pumpCh s c) := by
  unfold pumpCh
  repeat' first
      | (with_reducible first
          | assumption | apply pumpAnchor_fixed | apply pumpStrict_fixed | apply pumpChecks_fixed
          | apply pumpPre_fixed | apply strictClose_fixed | apply pumpLeaf_fixed | apply pumpFollow_fixed
          | apply Fixed.foldl | rfl)
      | (intro _) | with_reducible apply Fixed.ite | split | with_reducible refine Fixed.mk' ?_

theorem repin_fixed {s₀ : State} {c : Ch} {s : State} (hK : Fixed s₀ s) : Fixed s₀ (repin s c) := by
  unfold repin
  repeat' first
      | (with_reducible first | assumption | apply Fixed.foldl | rfl) | (intro _) | with_reducible apply Fixed.ite
      | split | with_reducible refine Fixed.mk' ?_

theorem stashCheck_fixed {s₀ : State} {f : Nat} {data : List Byte} {s : State} (hK : Fixed s₀ s) : Fixed s₀
    (stashCheck s f data) := by
  unfold stashCheck
  repeat' first
      | (with_reducible first | assumption | apply Fixed.foldl | rfl) | (intro _) | with_reducible apply Fixed.ite
      | split | with_reducible refine Fixed.mk' ?_

theorem freeFrames_fixed {s₀ : State} {p : Frame → Bool} {s : State} (hK : Fixed s₀ s) : Fixed s₀ (freeFrames s p) := by
  unfold freeFrames
  repeat' first
      | (with_reducible first
          | assumption | apply stashCheck_fixed | apply freeFrame_fixed | apply Fixed.foldl | rfl)
      | (intro _) | with_reducible apply Fixed.ite | split | with_reducible refine Fixed.mk' ?_

theorem strictPend_fixed {s₀ : State} {c : Ch} {p : Fin 64 → Bool} {s : State} (hK : Fixed s₀ s) : Fixed s₀
    (strictPend s c p) := by
  unfold strictPend
  repeat' first
      | (with_reducible first | assumption | apply setStrict_fixed | apply Fixed.foldl | rfl) | (intro _)
      | with_reducible apply Fixed.ite | split | with_reducible refine Fixed.mk' ?_

theorem bankUndo_fixed {s₀ : State} {b : Nat} {bk : BankId} {stage : Bool} {s : State} (hK : Fixed s₀ s) : Fixed
    s₀ (bankUndo s b bk stage) := by
  unfold bankUndo
  repeat' first
      | (with_reducible first | assumption | apply setBank_fixed | apply Fixed.foldl | rfl) | (intro _)
      | with_reducible apply Fixed.ite | split | with_reducible refine Fixed.mk' ?_

theorem aesStart_fixed {s₀ : State} {e : Fin 2} {j : HashJob} {s : State} (hK : Fixed s₀ s) : Fixed s₀ (aesStart s
    e j) := by
  unfold aesStart
  repeat' first
      | (with_reducible first | assumption | apply setUnitSt_fixed | apply Fixed.foldl | rfl) | (intro _)
      | with_reducible apply Fixed.ite | split | with_reducible refine Fixed.mk' ?_

theorem aesGrant_fixed {s₀ : State} {a1 : Nat} {a2 : State} (hK : Fixed s₀ a2) : Fixed s₀ (aesGrant a1 a2) := by
  induction a1 generalizing a2 with
  | zero =>
    unfold aesGrant
    repeat' first
        | (with_reducible first | assumption | apply aesStart_fixed | apply Fixed.foldl | rfl) | (intro _)
        | with_reducible apply Fixed.ite | split | with_reducible refine Fixed.mk' ?_
  | succ _ ih =>
    unfold aesGrant
    repeat' first
        | with_reducible apply ih | (with_reducible first
            | assumption | apply aesStart_fixed | apply Fixed.foldl | rfl)
        | (intro _) | with_reducible apply Fixed.ite | split | with_reducible refine Fixed.mk' ?_

theorem aesDrop_fixed {s₀ : State} {id : Nat} {s : State} (hK : Fixed s₀ s) : Fixed s₀ (aesDrop s id) := by
  unfold aesDrop
  repeat' first
      | (with_reducible first | assumption | apply aesGrant_fixed | apply Fixed.foldl | rfl) | (intro _)
      | with_reducible apply Fixed.ite | split | with_reducible refine Fixed.mk' ?_

theorem osCut_fixed {s₀ : State} {id : Nat} {s : State} (hK : Fixed s₀ s) : Fixed s₀ (osCut s id) := by
  unfold osCut
  repeat' first
      | (with_reducible first | assumption | apply Fixed.foldl | rfl) | (intro _) | with_reducible apply Fixed.ite
      | split | with_reducible refine Fixed.mk' ?_

theorem hashDrop_fixed {s₀ : State} {id : Nat} {s : State} (hK : Fixed s₀ s) : Fixed s₀ (hashDrop s id) := by
  unfold hashDrop
  repeat' first
      | (with_reducible first | assumption | apply hashGrant_fixed | apply Fixed.foldl | rfl) | (intro _)
      | with_reducible apply Fixed.ite | split | with_reducible refine Fixed.mk' ?_

theorem retire_fixed {s₀ : State} {id : Nat} {s : State} (hK : Fixed s₀ s) : Fixed s₀ (retire s id) := by
  unfold retire
  repeat' first
      | (with_reducible first | assumption | apply Fixed.foldl | rfl) | (intro _) | with_reducible apply Fixed.ite
      | split | with_reducible refine Fixed.mk' ?_

theorem dropUnit_fixed {s₀ : State} {id : Nat} {s : State} (hK : Fixed s₀ s) : Fixed s₀ (dropUnit s id) := by
  unfold dropUnit
  repeat' first
      | (with_reducible first
          | assumption | apply bankUndo_fixed | apply aesDrop_fixed | apply osCut_fixed | apply hashDrop_fixed
          | apply freeFrame_fixed | apply retire_fixed | apply Fixed.foldl | rfl)
      | (intro _) | with_reducible apply Fixed.ite | split | with_reducible refine Fixed.mk' ?_

theorem squash_fixed {s₀ : State} {ids : List Nat} {s : State} (hK : Fixed s₀ s) : Fixed s₀ (squash s ids) := by
  unfold squash
  repeat' first
      | (with_reducible first | assumption | apply dropUnit_fixed | apply Fixed.foldl | rfl) | (intro _)
      | with_reducible apply Fixed.ite | split | with_reducible refine Fixed.mk' ?_

theorem veRecordReserved_fixed {s₀ : State} {c kind bind info obj win : Nat} {s : State} (hK : Fixed s₀ s) : Fixed
    s₀ (veRecordReserved s c kind bind info obj win) := by
  unfold veRecordReserved
  repeat' first
      | (with_reducible first | assumption | apply Fixed.foldl | rfl) | (intro _) | with_reducible apply Fixed.ite
      | split | with_reducible refine Fixed.mk' ?_

theorem closeSlot_fixed {s₀ : State} {c : Ch} {x : ProvSlot} {kind resp reason : Nat} {s : State} (hK : Fixed s₀
    s) : Fixed s₀ (closeSlot s c x kind resp reason) := by
  unfold closeSlot
  repeat' first
      | (with_reducible first
          | assumption | apply modCh_fixed | apply veRecordReserved_fixed | apply retire_fixed | apply Fixed.foldl
          | rfl)
      | (intro _) | with_reducible apply Fixed.ite | split | with_reducible refine Fixed.mk' ?_

theorem veInt_fixed {s₀ : State} {i : Nat} {s : State} (hK : Fixed s₀ s) : Fixed s₀ (veInt s i) := by
  unfold veInt
  repeat' first
      | (with_reducible first | assumption | apply Fixed.foldl | rfl) | (intro _) | with_reducible apply Fixed.ite
      | split | with_reducible refine Fixed.mk' ?_

theorem abandonSlot_fixed {s₀ : State} {c : Ch} {x : ProvSlot} {s : State} (hK : Fixed s₀ s) : Fixed s₀
    (abandonSlot s c x) := by
  unfold abandonSlot
  repeat' first
      | (with_reducible first
          | assumption | apply modCh_fixed | apply closeSlot_fixed | apply veInt_fixed | apply Fixed.foldl | rfl)
      | (intro _) | with_reducible apply Fixed.ite | split | with_reducible refine Fixed.mk' ?_

theorem squashFills_fixed {s₀ : State} {c : Ch} {p : EmberId → Bool} {s : State} (hK : Fixed s₀ s) : Fixed s₀
    (squashFills s c p) := by
  unfold squashFills
  repeat' first
      | (with_reducible first | assumption | apply squash_fixed | apply abandonSlot_fixed | apply Fixed.foldl | rfl)
      | (intro _) | with_reducible apply Fixed.ite | split | with_reducible refine Fixed.mk' ?_

theorem dropJournal_fixed {s₀ : State} {c : Ch} {s : State} (hK : Fixed s₀ s) : Fixed s₀ (dropJournal s c) := by
  unfold dropJournal
  repeat' first
      | (with_reducible first | assumption | apply modCh_fixed | apply Fixed.foldl | rfl) | (intro _)
      | with_reducible apply Fixed.ite | split | with_reducible refine Fixed.mk' ?_

theorem clistDrop_fixed {s₀ : State} {p : ClinkerEnt → Bool} {s : State} (hK : Fixed s₀ s) : Fixed s₀ (clistDrop s
    p) := by
  unfold clistDrop
  repeat' first
      | (with_reducible first | assumption | apply Fixed.foldl | rfl) | (intro _) | with_reducible apply Fixed.ite
      | split | with_reducible refine Fixed.mk' ?_

theorem setBset_fixed {s₀ : State} {c : Ch} {i : Fin 15} {f : BsetRt → BsetRt} {s : State} (hK : Fixed s₀ s) :
    Fixed s₀ (setBset s c i f) := by
  unfold setBset
  repeat' first
      | (with_reducible first | assumption | apply modCh_fixed | apply Fixed.foldl | rfl) | (intro _)
      | with_reducible apply Fixed.ite | split | with_reducible refine Fixed.mk' ?_

theorem applyFlip_fixed {s₀ : State} {c : Ch} {i : Fin 15} {s : State} (hK : Fixed s₀ s) : Fixed s₀ (applyFlip s c
    i) := by
  unfold applyFlip
  repeat' first
      | (with_reducible first
          | assumption | apply repin_fixed | apply freeFrames_fixed | apply setBank_fixed | apply strictPend_fixed
          | apply squashFills_fixed | apply dropJournal_fixed | apply clistDrop_fixed | apply setBset_fixed
          | apply ecInt_fixed | apply ecRecord_fixed | apply Fixed.foldl | rfl)
      | (intro _) | with_reducible apply Fixed.ite | split | with_reducible refine Fixed.mk' ?_

theorem applyGclr_fixed {s₀ : State} {c : Ch} {i : Fin 15} {s : State} (hK : Fixed s₀ s) : Fixed s₀ (applyGclr s c
    i) := by
  unfold applyGclr
  repeat' first
      | (with_reducible first
          | assumption | apply modCh_fixed | apply repin_fixed | apply freeFrames_fixed | apply strictPend_fixed
          | apply squashFills_fixed | apply dropJournal_fixed | apply setBset_fixed | apply ecInt_fixed
          | apply ecRecord_fixed | apply Fixed.foldl | rfl)
      | (intro _) | with_reducible apply Fixed.ite | split | with_reducible refine Fixed.mk' ?_

theorem applyPending_fixed {s₀ : State} {c : Ch} {s : State} (hK : Fixed s₀ s) : Fixed s₀ (applyPending s c) := by
  unfold applyPending
  repeat' first
      | (with_reducible first | assumption | apply applyFlip_fixed | apply applyGclr_fixed | apply Fixed.foldl | rfl)
      | (intro _) | with_reducible apply Fixed.ite | split | with_reducible refine Fixed.mk' ?_

theorem sqRecord_fixed {s₀ : State} {kind step line mask info : Nat} {s : State} (hK : Fixed s₀ s) : Fixed s₀
    (sqRecord s kind step line mask info) := by
  unfold sqRecord
  repeat' first
      | (with_reducible first | assumption | apply Fixed.foldl | rfl) | (intro _) | with_reducible apply Fixed.ite
      | split | with_reducible refine Fixed.mk' ?_

theorem endTrace_fixed {s₀ : State} {c : Ch} {how : Nat} {discard : Bool} {s : State} (hK : Fixed s₀ s) : Fixed s₀
    (endTrace s c how discard) := by
  unfold endTrace
  repeat' first
      | (with_reducible first | assumption | apply modCh_fixed | apply Fixed.foldl | rfl) | (intro _)
      | with_reducible apply Fixed.ite | split | with_reducible refine Fixed.mk' ?_

theorem assertLine_fixed {s₀ : State} {n : Fin 32} {h : Nat} {s : State} (hK : Fixed s₀ s) : Fixed s₀ (assertLine
    s n h) := by
  unfold assertLine
  repeat' first
      | (with_reducible first
          | assumption | apply modCh_fixed | apply applyPending_fixed | apply sqRecord_fixed | apply endTrace_fixed
          | apply Fixed.foldl | rfl)
      | (intro _) | with_reducible apply Fixed.ite | split | with_reducible refine Fixed.mk' ?_

theorem releaseLine_fixed {s₀ : State} {n : Fin 32} {s : State} (hK : Fixed s₀ s) : Fixed s₀ (releaseLine s n) := by
  unfold releaseLine
  repeat' first
      | (with_reducible first | assumption | apply modCh_fixed | apply sqRecord_fixed | apply Fixed.foldl | rfl)
      | (intro _) | with_reducible apply Fixed.ite | split | with_reducible refine Fixed.mk' ?_

theorem gateLine_fixed {s₀ : State} {n : Fin 32} {s : State} (hK : Fixed s₀ s) : Fixed s₀ (gateLine s n) := by
  unfold gateLine
  repeat' first
      | (with_reducible first
          | assumption | apply assertLine_fixed | apply releaseLine_fixed | apply Fixed.foldl | rfl)
      | (intro _) | with_reducible apply Fixed.ite | split | with_reducible refine Fixed.mk' ?_

theorem regate_fixed {s₀ s : State} (hK : Fixed s₀ s) : Fixed s₀ (regate s) := by
  unfold regate
  repeat' first
      | (with_reducible first | assumption | apply gateLine_fixed | apply Fixed.foldl | rfl) | (intro _)
      | with_reducible apply Fixed.ite | split | with_reducible refine Fixed.mk' ?_

theorem settleAll_fixed {s₀ s : State} (hK : Fixed s₀ s) : Fixed s₀ (settleAll s) := by
  unfold settleAll
  repeat' first
      | (with_reducible first
          | assumption | apply forCh_fixed | apply pumpCh_fixed | apply regate_fixed | apply Fixed.foldl | rfl)
      | (intro _) | with_reducible apply Fixed.ite | split | with_reducible refine Fixed.mk' ?_

/-! The parts of a settled state that are as they were. -/

@[simp] theorem settleAll_clk (s : State) : (settleAll s).clk = s.clk := (settleAll_fixed (Fixed.refl s)).clk
@[simp] theorem settleAll_sel (s : State) : (settleAll s).sel = s.sel := (settleAll_fixed (Fixed.refl s)).sel
@[simp] theorem settleAll_gc (s : State) : (settleAll s).gc = s.gc := (settleAll_fixed (Fixed.refl s)).gc
@[simp] theorem settleAll_grLog (s : State) : (settleAll s).grLog = s.grLog := (settleAll_fixed (Fixed.refl s)).grLog
@[simp] theorem settleAll_st (s : State) : (settleAll s).st = s.st := (settleAll_fixed (Fixed.refl s)).st
@[simp] theorem settleAll_inst (s : State) : (settleAll s).inst = s.inst := (settleAll_fixed (Fixed.refl s)).inst
@[simp] theorem settleAll_he (s : State) : (settleAll s).he = s.he := (settleAll_fixed (Fixed.refl s)).he
@[simp] theorem settleAll_lc (s : State) : (settleAll s).lc = s.lc := (settleAll_fixed (Fixed.refl s)).lc
@[simp] theorem settleAll_otp (s : State) : (settleAll s).otp = s.otp := (settleAll_fixed (Fixed.refl s)).otp
@[simp] theorem settleAll_mb (s : State) : (settleAll s).mb = s.mb := (settleAll_fixed (Fixed.refl s)).mb
@[simp] theorem settleAll_fb (s : State) : (settleAll s).fb = s.fb := (settleAll_fixed (Fixed.refl s)).fb
@[simp] theorem settleAll_boot (s : State) : (settleAll s).boot = s.boot := (settleAll_fixed (Fixed.refl s)).boot
@[simp] theorem settleAll_wd (s : State) : (settleAll s).wd = s.wd := (settleAll_fixed (Fixed.refl s)).wd
@[simp] theorem settleAll_pr (s : State) : (settleAll s).pr = s.pr := (settleAll_fixed (Fixed.refl s)).pr
@[simp] theorem settleAll_tp (s : State) : (settleAll s).tp = s.tp := (settleAll_fixed (Fixed.refl s)).tp
@[simp] theorem settleAll_pending (s : State) : (settleAll s).pending = s.pending := (settleAll_fixed (Fixed.refl s)).pending

end Sys2Proof.Machine
end

