-- ==== Sys2Proof/Laws/State.lean ====
section
/-! SUPPORT. For each update of one part of the state, the parts it leaves alone: true by definition. -/

namespace Sys2Proof.Machine

@[simp] theorem setBank_clk (s : State) (b : Nat) (k : BankId) (f : BankRt → BankRt) : (setBank s b k f).clk = s.clk := rfl
@[simp] theorem setBank_sel (s : State) (b : Nat) (k : BankId) (f : BankRt → BankRt) : (setBank s b k f).sel = s.sel := rfl
@[simp] theorem setBank_gc (s : State) (b : Nat) (k : BankId) (f : BankRt → BankRt) : (setBank s b k f).gc = s.gc := rfl
@[simp] theorem setBank_ch (s : State) (b : Nat) (k : BankId) (f : BankRt → BankRt) : (setBank s b k f).ch = s.ch := rfl
@[simp] theorem setBank_port (s : State) (b : Nat) (k : BankId) (f : BankRt → BankRt) : (setBank s b k f).port = s.port := rfl
@[simp] theorem setBank_grLog (s : State) (b : Nat) (k : BankId) (f : BankRt → BankRt) : (setBank s b k f).grLog = s.grLog := rfl
@[simp] theorem setBank_ec (s : State) (b : Nat) (k : BankId) (f : BankRt → BankRt) : (setBank s b k f).ec = s.ec := rfl
@[simp] theorem setBank_st (s : State) (b : Nat) (k : BankId) (f : BankRt → BankRt) : (setBank s b k f).st = s.st := rfl
@[simp] theorem setBank_bt (s : State) (b : Nat) (k : BankId) (f : BankRt → BankRt) : (setBank s b k f).bt = s.bt := rfl
@[simp] theorem setBank_inst (s : State) (b : Nat) (k : BankId) (f : BankRt → BankRt) : (setBank s b k f).inst = s.inst := rfl
@[simp] theorem setBank_sq (s : State) (b : Nat) (k : BankId) (f : BankRt → BankRt) : (setBank s b k f).sq = s.sq := rfl
@[simp] theorem setBank_pd (s : State) (b : Nat) (k : BankId) (f : BankRt → BankRt) : (setBank s b k f).pd = s.pd := rfl
@[simp] theorem setBank_he (s : State) (b : Nat) (k : BankId) (f : BankRt → BankRt) : (setBank s b k f).he = s.he := rfl
@[simp] theorem setBank_kv (s : State) (b : Nat) (k : BankId) (f : BankRt → BankRt) : (setBank s b k f).kv = s.kv := rfl
@[simp] theorem setBank_lc (s : State) (b : Nat) (k : BankId) (f : BankRt → BankRt) : (setBank s b k f).lc = s.lc := rfl
@[simp] theorem setBank_otp (s : State) (b : Nat) (k : BankId) (f : BankRt → BankRt) : (setBank s b k f).otp = s.otp := rfl
@[simp] theorem setBank_mb (s : State) (b : Nat) (k : BankId) (f : BankRt → BankRt) : (setBank s b k f).mb = s.mb := rfl
@[simp] theorem setBank_fb (s : State) (b : Nat) (k : BankId) (f : BankRt → BankRt) : (setBank s b k f).fb = s.fb := rfl
@[simp] theorem setBank_os (s : State) (b : Nat) (k : BankId) (f : BankRt → BankRt) : (setBank s b k f).os = s.os := rfl
@[simp] theorem setBank_boot (s : State) (b : Nat) (k : BankId) (f : BankRt → BankRt) : (setBank s b k f).boot = s.boot := rfl
@[simp] theorem setBank_wd (s : State) (b : Nat) (k : BankId) (f : BankRt → BankRt) : (setBank s b k f).wd = s.wd := rfl
@[simp] theorem setBank_pr (s : State) (b : Nat) (k : BankId) (f : BankRt → BankRt) : (setBank s b k f).pr = s.pr := rfl
@[simp] theorem setBank_tp (s : State) (b : Nat) (k : BankId) (f : BankRt → BankRt) : (setBank s b k f).tp = s.tp := rfl
@[simp] theorem setBank_pending (s : State) (b : Nat) (k : BankId) (f : BankRt → BankRt) : (setBank s b k f).pending = s.pending := rfl

@[simp] theorem modSnap_clk (s : State) (g : Snap → Snap) : (modSnap s g).clk = s.clk := rfl
@[simp] theorem modSnap_sel (s : State) (g : Snap → Snap) : (modSnap s g).sel = s.sel := rfl
@[simp] theorem modSnap_gc (s : State) (g : Snap → Snap) : (modSnap s g).gc = s.gc := rfl
@[simp] theorem modSnap_ch (s : State) (g : Snap → Snap) : (modSnap s g).ch = s.ch := rfl
@[simp] theorem modSnap_port (s : State) (g : Snap → Snap) : (modSnap s g).port = s.port := rfl
@[simp] theorem modSnap_grLog (s : State) (g : Snap → Snap) : (modSnap s g).grLog = s.grLog := rfl
@[simp] theorem modSnap_ve (s : State) (g : Snap → Snap) : (modSnap s g).ve = s.ve := rfl
@[simp] theorem modSnap_ec (s : State) (g : Snap → Snap) : (modSnap s g).ec = s.ec := rfl
@[simp] theorem modSnap_st (s : State) (g : Snap → Snap) : (modSnap s g).st = s.st := rfl
@[simp] theorem modSnap_bt (s : State) (g : Snap → Snap) : (modSnap s g).bt = s.bt := rfl
@[simp] theorem modSnap_inst (s : State) (g : Snap → Snap) : (modSnap s g).inst = s.inst := rfl
@[simp] theorem modSnap_sq (s : State) (g : Snap → Snap) : (modSnap s g).sq = s.sq := rfl
@[simp] theorem modSnap_pd (s : State) (g : Snap → Snap) : (modSnap s g).pd = s.pd := rfl
@[simp] theorem modSnap_he (s : State) (g : Snap → Snap) : (modSnap s g).he = s.he := rfl
@[simp] theorem modSnap_kv (s : State) (g : Snap → Snap) : (modSnap s g).kv = s.kv := rfl
@[simp] theorem modSnap_lc (s : State) (g : Snap → Snap) : (modSnap s g).lc = s.lc := rfl
@[simp] theorem modSnap_otp (s : State) (g : Snap → Snap) : (modSnap s g).otp = s.otp := rfl
@[simp] theorem modSnap_mb (s : State) (g : Snap → Snap) : (modSnap s g).mb = s.mb := rfl
@[simp] theorem modSnap_os (s : State) (g : Snap → Snap) : (modSnap s g).os = s.os := rfl
@[simp] theorem modSnap_boot (s : State) (g : Snap → Snap) : (modSnap s g).boot = s.boot := rfl
@[simp] theorem modSnap_wd (s : State) (g : Snap → Snap) : (modSnap s g).wd = s.wd := rfl
@[simp] theorem modSnap_pr (s : State) (g : Snap → Snap) : (modSnap s g).pr = s.pr := rfl
@[simp] theorem modSnap_tp (s : State) (g : Snap → Snap) : (modSnap s g).tp = s.tp := rfl
@[simp] theorem modSnap_pending (s : State) (g : Snap → Snap) : (modSnap s g).pending = s.pending := rfl

@[simp] theorem modCore_clk (s : State) (c : Core) (f : CoreRt → CoreRt) : (modCore s c f).clk = s.clk := rfl
@[simp] theorem modCore_sel (s : State) (c : Core) (f : CoreRt → CoreRt) : (modCore s c f).sel = s.sel := rfl
@[simp] theorem modCore_gc (s : State) (c : Core) (f : CoreRt → CoreRt) : (modCore s c f).gc = s.gc := rfl
@[simp] theorem modCore_ch (s : State) (c : Core) (f : CoreRt → CoreRt) : (modCore s c f).ch = s.ch := rfl
@[simp] theorem modCore_port (s : State) (c : Core) (f : CoreRt → CoreRt) : (modCore s c f).port = s.port := rfl
@[simp] theorem modCore_grLog (s : State) (c : Core) (f : CoreRt → CoreRt) : (modCore s c f).grLog = s.grLog := rfl
@[simp] theorem modCore_ve (s : State) (c : Core) (f : CoreRt → CoreRt) : (modCore s c f).ve = s.ve := rfl
@[simp] theorem modCore_ec (s : State) (c : Core) (f : CoreRt → CoreRt) : (modCore s c f).ec = s.ec := rfl
@[simp] theorem modCore_st (s : State) (c : Core) (f : CoreRt → CoreRt) : (modCore s c f).st = s.st := rfl
@[simp] theorem modCore_bt (s : State) (c : Core) (f : CoreRt → CoreRt) : (modCore s c f).bt = s.bt := rfl
@[simp] theorem modCore_inst (s : State) (c : Core) (f : CoreRt → CoreRt) : (modCore s c f).inst = s.inst := rfl
@[simp] theorem modCore_sq (s : State) (c : Core) (f : CoreRt → CoreRt) : (modCore s c f).sq = s.sq := rfl
@[simp] theorem modCore_pd (s : State) (c : Core) (f : CoreRt → CoreRt) : (modCore s c f).pd = s.pd := rfl
@[simp] theorem modCore_kv (s : State) (c : Core) (f : CoreRt → CoreRt) : (modCore s c f).kv = s.kv := rfl
@[simp] theorem modCore_lc (s : State) (c : Core) (f : CoreRt → CoreRt) : (modCore s c f).lc = s.lc := rfl
@[simp] theorem modCore_otp (s : State) (c : Core) (f : CoreRt → CoreRt) : (modCore s c f).otp = s.otp := rfl
@[simp] theorem modCore_mb (s : State) (c : Core) (f : CoreRt → CoreRt) : (modCore s c f).mb = s.mb := rfl
@[simp] theorem modCore_fb (s : State) (c : Core) (f : CoreRt → CoreRt) : (modCore s c f).fb = s.fb := rfl
@[simp] theorem modCore_os (s : State) (c : Core) (f : CoreRt → CoreRt) : (modCore s c f).os = s.os := rfl
@[simp] theorem modCore_boot (s : State) (c : Core) (f : CoreRt → CoreRt) : (modCore s c f).boot = s.boot := rfl
@[simp] theorem modCore_wd (s : State) (c : Core) (f : CoreRt → CoreRt) : (modCore s c f).wd = s.wd := rfl
@[simp] theorem modCore_pr (s : State) (c : Core) (f : CoreRt → CoreRt) : (modCore s c f).pr = s.pr := rfl
@[simp] theorem modCore_tp (s : State) (c : Core) (f : CoreRt → CoreRt) : (modCore s c f).tp = s.tp := rfl
@[simp] theorem modCore_pending (s : State) (c : Core) (f : CoreRt → CoreRt) : (modCore s c f).pending = s.pending := rfl

@[simp] theorem modDma_clk (s : State) (k : Fin 16) (f : DmaCh → DmaCh) : (modDma s k f).clk = s.clk := rfl
@[simp] theorem modDma_sel (s : State) (k : Fin 16) (f : DmaCh → DmaCh) : (modDma s k f).sel = s.sel := rfl
@[simp] theorem modDma_gc (s : State) (k : Fin 16) (f : DmaCh → DmaCh) : (modDma s k f).gc = s.gc := rfl
@[simp] theorem modDma_ch (s : State) (k : Fin 16) (f : DmaCh → DmaCh) : (modDma s k f).ch = s.ch := rfl
@[simp] theorem modDma_port (s : State) (k : Fin 16) (f : DmaCh → DmaCh) : (modDma s k f).port = s.port := rfl
@[simp] theorem modDma_grLog (s : State) (k : Fin 16) (f : DmaCh → DmaCh) : (modDma s k f).grLog = s.grLog := rfl
@[simp] theorem modDma_ve (s : State) (k : Fin 16) (f : DmaCh → DmaCh) : (modDma s k f).ve = s.ve := rfl
@[simp] theorem modDma_ec (s : State) (k : Fin 16) (f : DmaCh → DmaCh) : (modDma s k f).ec = s.ec := rfl
@[simp] theorem modDma_st (s : State) (k : Fin 16) (f : DmaCh → DmaCh) : (modDma s k f).st = s.st := rfl
@[simp] theorem modDma_bt (s : State) (k : Fin 16) (f : DmaCh → DmaCh) : (modDma s k f).bt = s.bt := rfl
@[simp] theorem modDma_inst (s : State) (k : Fin 16) (f : DmaCh → DmaCh) : (modDma s k f).inst = s.inst := rfl
@[simp] theorem modDma_sq (s : State) (k : Fin 16) (f : DmaCh → DmaCh) : (modDma s k f).sq = s.sq := rfl
@[simp] theorem modDma_pd (s : State) (k : Fin 16) (f : DmaCh → DmaCh) : (modDma s k f).pd = s.pd := rfl
@[simp] theorem modDma_kv (s : State) (k : Fin 16) (f : DmaCh → DmaCh) : (modDma s k f).kv = s.kv := rfl
@[simp] theorem modDma_lc (s : State) (k : Fin 16) (f : DmaCh → DmaCh) : (modDma s k f).lc = s.lc := rfl
@[simp] theorem modDma_otp (s : State) (k : Fin 16) (f : DmaCh → DmaCh) : (modDma s k f).otp = s.otp := rfl
@[simp] theorem modDma_mb (s : State) (k : Fin 16) (f : DmaCh → DmaCh) : (modDma s k f).mb = s.mb := rfl
@[simp] theorem modDma_fb (s : State) (k : Fin 16) (f : DmaCh → DmaCh) : (modDma s k f).fb = s.fb := rfl
@[simp] theorem modDma_os (s : State) (k : Fin 16) (f : DmaCh → DmaCh) : (modDma s k f).os = s.os := rfl
@[simp] theorem modDma_boot (s : State) (k : Fin 16) (f : DmaCh → DmaCh) : (modDma s k f).boot = s.boot := rfl
@[simp] theorem modDma_wd (s : State) (k : Fin 16) (f : DmaCh → DmaCh) : (modDma s k f).wd = s.wd := rfl
@[simp] theorem modDma_pr (s : State) (k : Fin 16) (f : DmaCh → DmaCh) : (modDma s k f).pr = s.pr := rfl
@[simp] theorem modDma_tp (s : State) (k : Fin 16) (f : DmaCh → DmaCh) : (modDma s k f).tp = s.tp := rfl
@[simp] theorem modDma_pending (s : State) (k : Fin 16) (f : DmaCh → DmaCh) : (modDma s k f).pending = s.pending := rfl

@[simp] theorem modInst_clk (s : State) (n : Inst) (f : InstRt → InstRt) : (modInst s n f).clk = s.clk := rfl
@[simp] theorem modInst_sel (s : State) (n : Inst) (f : InstRt → InstRt) : (modInst s n f).sel = s.sel := rfl
@[simp] theorem modInst_gc (s : State) (n : Inst) (f : InstRt → InstRt) : (modInst s n f).gc = s.gc := rfl
@[simp] theorem modInst_ch (s : State) (n : Inst) (f : InstRt → InstRt) : (modInst s n f).ch = s.ch := rfl
@[simp] theorem modInst_port (s : State) (n : Inst) (f : InstRt → InstRt) : (modInst s n f).port = s.port := rfl
@[simp] theorem modInst_grLog (s : State) (n : Inst) (f : InstRt → InstRt) : (modInst s n f).grLog = s.grLog := rfl
@[simp] theorem modInst_ve (s : State) (n : Inst) (f : InstRt → InstRt) : (modInst s n f).ve = s.ve := rfl
@[simp] theorem modInst_ec (s : State) (n : Inst) (f : InstRt → InstRt) : (modInst s n f).ec = s.ec := rfl
@[simp] theorem modInst_st (s : State) (n : Inst) (f : InstRt → InstRt) : (modInst s n f).st = s.st := rfl
@[simp] theorem modInst_bt (s : State) (n : Inst) (f : InstRt → InstRt) : (modInst s n f).bt = s.bt := rfl
@[simp] theorem modInst_sq (s : State) (n : Inst) (f : InstRt → InstRt) : (modInst s n f).sq = s.sq := rfl
@[simp] theorem modInst_pd (s : State) (n : Inst) (f : InstRt → InstRt) : (modInst s n f).pd = s.pd := rfl
@[simp] theorem modInst_he (s : State) (n : Inst) (f : InstRt → InstRt) : (modInst s n f).he = s.he := rfl
@[simp] theorem modInst_kv (s : State) (n : Inst) (f : InstRt → InstRt) : (modInst s n f).kv = s.kv := rfl
@[simp] theorem modInst_lc (s : State) (n : Inst) (f : InstRt → InstRt) : (modInst s n f).lc = s.lc := rfl
@[simp] theorem modInst_otp (s : State) (n : Inst) (f : InstRt → InstRt) : (modInst s n f).otp = s.otp := rfl
@[simp] theorem modInst_mb (s : State) (n : Inst) (f : InstRt → InstRt) : (modInst s n f).mb = s.mb := rfl
@[simp] theorem modInst_fb (s : State) (n : Inst) (f : InstRt → InstRt) : (modInst s n f).fb = s.fb := rfl
@[simp] theorem modInst_os (s : State) (n : Inst) (f : InstRt → InstRt) : (modInst s n f).os = s.os := rfl
@[simp] theorem modInst_boot (s : State) (n : Inst) (f : InstRt → InstRt) : (modInst s n f).boot = s.boot := rfl
@[simp] theorem modInst_wd (s : State) (n : Inst) (f : InstRt → InstRt) : (modInst s n f).wd = s.wd := rfl
@[simp] theorem modInst_pr (s : State) (n : Inst) (f : InstRt → InstRt) : (modInst s n f).pr = s.pr := rfl
@[simp] theorem modInst_tp (s : State) (n : Inst) (f : InstRt → InstRt) : (modInst s n f).tp = s.tp := rfl
@[simp] theorem modInst_pending (s : State) (n : Inst) (f : InstRt → InstRt) : (modInst s n f).pending = s.pending := rfl

@[simp] theorem fbInt_clk (s : State) (i : Nat) : (fbInt s i).clk = s.clk := rfl
@[simp] theorem fbInt_sel (s : State) (i : Nat) : (fbInt s i).sel = s.sel := rfl
@[simp] theorem fbInt_gc (s : State) (i : Nat) : (fbInt s i).gc = s.gc := rfl
@[simp] theorem fbInt_ch (s : State) (i : Nat) : (fbInt s i).ch = s.ch := rfl
@[simp] theorem fbInt_port (s : State) (i : Nat) : (fbInt s i).port = s.port := rfl
@[simp] theorem fbInt_grLog (s : State) (i : Nat) : (fbInt s i).grLog = s.grLog := rfl
@[simp] theorem fbInt_ve (s : State) (i : Nat) : (fbInt s i).ve = s.ve := rfl
@[simp] theorem fbInt_ec (s : State) (i : Nat) : (fbInt s i).ec = s.ec := rfl
@[simp] theorem fbInt_st (s : State) (i : Nat) : (fbInt s i).st = s.st := rfl
@[simp] theorem fbInt_bt (s : State) (i : Nat) : (fbInt s i).bt = s.bt := rfl
@[simp] theorem fbInt_inst (s : State) (i : Nat) : (fbInt s i).inst = s.inst := rfl
@[simp] theorem fbInt_sq (s : State) (i : Nat) : (fbInt s i).sq = s.sq := rfl
@[simp] theorem fbInt_pd (s : State) (i : Nat) : (fbInt s i).pd = s.pd := rfl
@[simp] theorem fbInt_he (s : State) (i : Nat) : (fbInt s i).he = s.he := rfl
@[simp] theorem fbInt_kv (s : State) (i : Nat) : (fbInt s i).kv = s.kv := rfl
@[simp] theorem fbInt_lc (s : State) (i : Nat) : (fbInt s i).lc = s.lc := rfl
@[simp] theorem fbInt_otp (s : State) (i : Nat) : (fbInt s i).otp = s.otp := rfl
@[simp] theorem fbInt_mb (s : State) (i : Nat) : (fbInt s i).mb = s.mb := rfl
@[simp] theorem fbInt_os (s : State) (i : Nat) : (fbInt s i).os = s.os := rfl
@[simp] theorem fbInt_boot (s : State) (i : Nat) : (fbInt s i).boot = s.boot := rfl
@[simp] theorem fbInt_wd (s : State) (i : Nat) : (fbInt s i).wd = s.wd := rfl
@[simp] theorem fbInt_pr (s : State) (i : Nat) : (fbInt s i).pr = s.pr := rfl
@[simp] theorem fbInt_tp (s : State) (i : Nat) : (fbInt s i).tp = s.tp := rfl
@[simp] theorem fbInt_pending (s : State) (i : Nat) : (fbInt s i).pending = s.pending := rfl

@[simp] theorem prInt_clk (s : State) (i : Nat) : (prInt s i).clk = s.clk := rfl
@[simp] theorem prInt_sel (s : State) (i : Nat) : (prInt s i).sel = s.sel := rfl
@[simp] theorem prInt_gc (s : State) (i : Nat) : (prInt s i).gc = s.gc := rfl
@[simp] theorem prInt_ch (s : State) (i : Nat) : (prInt s i).ch = s.ch := rfl
@[simp] theorem prInt_port (s : State) (i : Nat) : (prInt s i).port = s.port := rfl
@[simp] theorem prInt_grLog (s : State) (i : Nat) : (prInt s i).grLog = s.grLog := rfl
@[simp] theorem prInt_ve (s : State) (i : Nat) : (prInt s i).ve = s.ve := rfl
@[simp] theorem prInt_ec (s : State) (i : Nat) : (prInt s i).ec = s.ec := rfl
@[simp] theorem prInt_st (s : State) (i : Nat) : (prInt s i).st = s.st := rfl
@[simp] theorem prInt_bt (s : State) (i : Nat) : (prInt s i).bt = s.bt := rfl
@[simp] theorem prInt_inst (s : State) (i : Nat) : (prInt s i).inst = s.inst := rfl
@[simp] theorem prInt_sq (s : State) (i : Nat) : (prInt s i).sq = s.sq := rfl
@[simp] theorem prInt_pd (s : State) (i : Nat) : (prInt s i).pd = s.pd := rfl
@[simp] theorem prInt_he (s : State) (i : Nat) : (prInt s i).he = s.he := rfl
@[simp] theorem prInt_kv (s : State) (i : Nat) : (prInt s i).kv = s.kv := rfl
@[simp] theorem prInt_lc (s : State) (i : Nat) : (prInt s i).lc = s.lc := rfl
@[simp] theorem prInt_otp (s : State) (i : Nat) : (prInt s i).otp = s.otp := rfl
@[simp] theorem prInt_mb (s : State) (i : Nat) : (prInt s i).mb = s.mb := rfl
@[simp] theorem prInt_fb (s : State) (i : Nat) : (prInt s i).fb = s.fb := rfl
@[simp] theorem prInt_os (s : State) (i : Nat) : (prInt s i).os = s.os := rfl
@[simp] theorem prInt_boot (s : State) (i : Nat) : (prInt s i).boot = s.boot := rfl
@[simp] theorem prInt_wd (s : State) (i : Nat) : (prInt s i).wd = s.wd := rfl
@[simp] theorem prInt_tp (s : State) (i : Nat) : (prInt s i).tp = s.tp := rfl
@[simp] theorem prInt_pending (s : State) (i : Nat) : (prInt s i).pending = s.pending := rfl

@[simp] theorem tpInt_clk (s : State) (i : Nat) : (tpInt s i).clk = s.clk := rfl
@[simp] theorem tpInt_sel (s : State) (i : Nat) : (tpInt s i).sel = s.sel := rfl
@[simp] theorem tpInt_gc (s : State) (i : Nat) : (tpInt s i).gc = s.gc := rfl
@[simp] theorem tpInt_ch (s : State) (i : Nat) : (tpInt s i).ch = s.ch := rfl
@[simp] theorem tpInt_port (s : State) (i : Nat) : (tpInt s i).port = s.port := rfl
@[simp] theorem tpInt_grLog (s : State) (i : Nat) : (tpInt s i).grLog = s.grLog := rfl
@[simp] theorem tpInt_ve (s : State) (i : Nat) : (tpInt s i).ve = s.ve := rfl
@[simp] theorem tpInt_ec (s : State) (i : Nat) : (tpInt s i).ec = s.ec := rfl
@[simp] theorem tpInt_st (s : State) (i : Nat) : (tpInt s i).st = s.st := rfl
@[simp] theorem tpInt_bt (s : State) (i : Nat) : (tpInt s i).bt = s.bt := rfl
@[simp] theorem tpInt_inst (s : State) (i : Nat) : (tpInt s i).inst = s.inst := rfl
@[simp] theorem tpInt_sq (s : State) (i : Nat) : (tpInt s i).sq = s.sq := rfl
@[simp] theorem tpInt_pd (s : State) (i : Nat) : (tpInt s i).pd = s.pd := rfl
@[simp] theorem tpInt_he (s : State) (i : Nat) : (tpInt s i).he = s.he := rfl
@[simp] theorem tpInt_kv (s : State) (i : Nat) : (tpInt s i).kv = s.kv := rfl
@[simp] theorem tpInt_lc (s : State) (i : Nat) : (tpInt s i).lc = s.lc := rfl
@[simp] theorem tpInt_otp (s : State) (i : Nat) : (tpInt s i).otp = s.otp := rfl
@[simp] theorem tpInt_mb (s : State) (i : Nat) : (tpInt s i).mb = s.mb := rfl
@[simp] theorem tpInt_fb (s : State) (i : Nat) : (tpInt s i).fb = s.fb := rfl
@[simp] theorem tpInt_os (s : State) (i : Nat) : (tpInt s i).os = s.os := rfl
@[simp] theorem tpInt_boot (s : State) (i : Nat) : (tpInt s i).boot = s.boot := rfl
@[simp] theorem tpInt_wd (s : State) (i : Nat) : (tpInt s i).wd = s.wd := rfl
@[simp] theorem tpInt_pr (s : State) (i : Nat) : (tpInt s i).pr = s.pr := rfl
@[simp] theorem tpInt_pending (s : State) (i : Nat) : (tpInt s i).pending = s.pending := rfl

@[simp] theorem modBox_clk (s : State) (n : Inst) (f : Box → Box) : (modBox s n f).clk = s.clk := rfl
@[simp] theorem modBox_sel (s : State) (n : Inst) (f : Box → Box) : (modBox s n f).sel = s.sel := rfl
@[simp] theorem modBox_gc (s : State) (n : Inst) (f : Box → Box) : (modBox s n f).gc = s.gc := rfl
@[simp] theorem modBox_ch (s : State) (n : Inst) (f : Box → Box) : (modBox s n f).ch = s.ch := rfl
@[simp] theorem modBox_port (s : State) (n : Inst) (f : Box → Box) : (modBox s n f).port = s.port := rfl
@[simp] theorem modBox_grLog (s : State) (n : Inst) (f : Box → Box) : (modBox s n f).grLog = s.grLog := rfl
@[simp] theorem modBox_ve (s : State) (n : Inst) (f : Box → Box) : (modBox s n f).ve = s.ve := rfl
@[simp] theorem modBox_ec (s : State) (n : Inst) (f : Box → Box) : (modBox s n f).ec = s.ec := rfl
@[simp] theorem modBox_st (s : State) (n : Inst) (f : Box → Box) : (modBox s n f).st = s.st := rfl
@[simp] theorem modBox_bt (s : State) (n : Inst) (f : Box → Box) : (modBox s n f).bt = s.bt := rfl
@[simp] theorem modBox_inst (s : State) (n : Inst) (f : Box → Box) : (modBox s n f).inst = s.inst := rfl
@[simp] theorem modBox_sq (s : State) (n : Inst) (f : Box → Box) : (modBox s n f).sq = s.sq := rfl
@[simp] theorem modBox_pd (s : State) (n : Inst) (f : Box → Box) : (modBox s n f).pd = s.pd := rfl
@[simp] theorem modBox_he (s : State) (n : Inst) (f : Box → Box) : (modBox s n f).he = s.he := rfl
@[simp] theorem modBox_kv (s : State) (n : Inst) (f : Box → Box) : (modBox s n f).kv = s.kv := rfl
@[simp] theorem modBox_lc (s : State) (n : Inst) (f : Box → Box) : (modBox s n f).lc = s.lc := rfl
@[simp] theorem modBox_otp (s : State) (n : Inst) (f : Box → Box) : (modBox s n f).otp = s.otp := rfl
@[simp] theorem modBox_fb (s : State) (n : Inst) (f : Box → Box) : (modBox s n f).fb = s.fb := rfl
@[simp] theorem modBox_os (s : State) (n : Inst) (f : Box → Box) : (modBox s n f).os = s.os := rfl
@[simp] theorem modBox_boot (s : State) (n : Inst) (f : Box → Box) : (modBox s n f).boot = s.boot := rfl
@[simp] theorem modBox_wd (s : State) (n : Inst) (f : Box → Box) : (modBox s n f).wd = s.wd := rfl
@[simp] theorem modBox_pr (s : State) (n : Inst) (f : Box → Box) : (modBox s n f).pr = s.pr := rfl
@[simp] theorem modBox_tp (s : State) (n : Inst) (f : Box → Box) : (modBox s n f).tp = s.tp := rfl
@[simp] theorem modBox_pending (s : State) (n : Inst) (f : Box → Box) : (modBox s n f).pending = s.pending := rfl

@[simp] theorem modI3c_clk (s : State) (p : Fin 4) (f : I3c → I3c) : (modI3c s p f).clk = s.clk := rfl
@[simp] theorem modI3c_sel (s : State) (p : Fin 4) (f : I3c → I3c) : (modI3c s p f).sel = s.sel := rfl
@[simp] theorem modI3c_gc (s : State) (p : Fin 4) (f : I3c → I3c) : (modI3c s p f).gc = s.gc := rfl
@[simp] theorem modI3c_ch (s : State) (p : Fin 4) (f : I3c → I3c) : (modI3c s p f).ch = s.ch := rfl
@[simp] theorem modI3c_port (s : State) (p : Fin 4) (f : I3c → I3c) : (modI3c s p f).port = s.port := rfl
@[simp] theorem modI3c_grLog (s : State) (p : Fin 4) (f : I3c → I3c) : (modI3c s p f).grLog = s.grLog := rfl
@[simp] theorem modI3c_ve (s : State) (p : Fin 4) (f : I3c → I3c) : (modI3c s p f).ve = s.ve := rfl
@[simp] theorem modI3c_ec (s : State) (p : Fin 4) (f : I3c → I3c) : (modI3c s p f).ec = s.ec := rfl
@[simp] theorem modI3c_st (s : State) (p : Fin 4) (f : I3c → I3c) : (modI3c s p f).st = s.st := rfl
@[simp] theorem modI3c_bt (s : State) (p : Fin 4) (f : I3c → I3c) : (modI3c s p f).bt = s.bt := rfl
@[simp] theorem modI3c_inst (s : State) (p : Fin 4) (f : I3c → I3c) : (modI3c s p f).inst = s.inst := rfl
@[simp] theorem modI3c_sq (s : State) (p : Fin 4) (f : I3c → I3c) : (modI3c s p f).sq = s.sq := rfl
@[simp] theorem modI3c_pd (s : State) (p : Fin 4) (f : I3c → I3c) : (modI3c s p f).pd = s.pd := rfl
@[simp] theorem modI3c_he (s : State) (p : Fin 4) (f : I3c → I3c) : (modI3c s p f).he = s.he := rfl
@[simp] theorem modI3c_kv (s : State) (p : Fin 4) (f : I3c → I3c) : (modI3c s p f).kv = s.kv := rfl
@[simp] theorem modI3c_lc (s : State) (p : Fin 4) (f : I3c → I3c) : (modI3c s p f).lc = s.lc := rfl
@[simp] theorem modI3c_otp (s : State) (p : Fin 4) (f : I3c → I3c) : (modI3c s p f).otp = s.otp := rfl
@[simp] theorem modI3c_fb (s : State) (p : Fin 4) (f : I3c → I3c) : (modI3c s p f).fb = s.fb := rfl
@[simp] theorem modI3c_os (s : State) (p : Fin 4) (f : I3c → I3c) : (modI3c s p f).os = s.os := rfl
@[simp] theorem modI3c_boot (s : State) (p : Fin 4) (f : I3c → I3c) : (modI3c s p f).boot = s.boot := rfl
@[simp] theorem modI3c_wd (s : State) (p : Fin 4) (f : I3c → I3c) : (modI3c s p f).wd = s.wd := rfl
@[simp] theorem modI3c_pr (s : State) (p : Fin 4) (f : I3c → I3c) : (modI3c s p f).pr = s.pr := rfl
@[simp] theorem modI3c_tp (s : State) (p : Fin 4) (f : I3c → I3c) : (modI3c s p f).tp = s.tp := rfl
@[simp] theorem modI3c_pending (s : State) (p : Fin 4) (f : I3c → I3c) : (modI3c s p f).pending = s.pending := rfl

@[simp] theorem modPortal_clk (s : State) (x : Fin 6) (f : Portal → Portal) : (modPortal s x f).clk = s.clk := rfl
@[simp] theorem modPortal_sel (s : State) (x : Fin 6) (f : Portal → Portal) : (modPortal s x f).sel = s.sel := rfl
@[simp] theorem modPortal_ch (s : State) (x : Fin 6) (f : Portal → Portal) : (modPortal s x f).ch = s.ch := rfl
@[simp] theorem modPortal_port (s : State) (x : Fin 6) (f : Portal → Portal) : (modPortal s x f).port = s.port := rfl
@[simp] theorem modPortal_grLog (s : State) (x : Fin 6) (f : Portal → Portal) : (modPortal s x f).grLog = s.grLog := rfl
@[simp] theorem modPortal_ve (s : State) (x : Fin 6) (f : Portal → Portal) : (modPortal s x f).ve = s.ve := rfl
@[simp] theorem modPortal_ec (s : State) (x : Fin 6) (f : Portal → Portal) : (modPortal s x f).ec = s.ec := rfl
@[simp] theorem modPortal_st (s : State) (x : Fin 6) (f : Portal → Portal) : (modPortal s x f).st = s.st := rfl
@[simp] theorem modPortal_bt (s : State) (x : Fin 6) (f : Portal → Portal) : (modPortal s x f).bt = s.bt := rfl
@[simp] theorem modPortal_inst (s : State) (x : Fin 6) (f : Portal → Portal) : (modPortal s x f).inst = s.inst := rfl
@[simp] theorem modPortal_sq (s : State) (x : Fin 6) (f : Portal → Portal) : (modPortal s x f).sq = s.sq := rfl
@[simp] theorem modPortal_pd (s : State) (x : Fin 6) (f : Portal → Portal) : (modPortal s x f).pd = s.pd := rfl
@[simp] theorem modPortal_he (s : State) (x : Fin 6) (f : Portal → Portal) : (modPortal s x f).he = s.he := rfl
@[simp] theorem modPortal_kv (s : State) (x : Fin 6) (f : Portal → Portal) : (modPortal s x f).kv = s.kv := rfl
@[simp] theorem modPortal_lc (s : State) (x : Fin 6) (f : Portal → Portal) : (modPortal s x f).lc = s.lc := rfl
@[simp] theorem modPortal_otp (s : State) (x : Fin 6) (f : Portal → Portal) : (modPortal s x f).otp = s.otp := rfl
@[simp] theorem modPortal_mb (s : State) (x : Fin 6) (f : Portal → Portal) : (modPortal s x f).mb = s.mb := rfl
@[simp] theorem modPortal_fb (s : State) (x : Fin 6) (f : Portal → Portal) : (modPortal s x f).fb = s.fb := rfl
@[simp] theorem modPortal_os (s : State) (x : Fin 6) (f : Portal → Portal) : (modPortal s x f).os = s.os := rfl
@[simp] theorem modPortal_boot (s : State) (x : Fin 6) (f : Portal → Portal) : (modPortal s x f).boot = s.boot := rfl
@[simp] theorem modPortal_wd (s : State) (x : Fin 6) (f : Portal → Portal) : (modPortal s x f).wd = s.wd := rfl
@[simp] theorem modPortal_pr (s : State) (x : Fin 6) (f : Portal → Portal) : (modPortal s x f).pr = s.pr := rfl
@[simp] theorem modPortal_tp (s : State) (x : Fin 6) (f : Portal → Portal) : (modPortal s x f).tp = s.tp := rfl
@[simp] theorem modPortal_pending (s : State) (x : Fin 6) (f : Portal → Portal) : (modPortal s x f).pending = s.pending := rfl

@[simp] theorem modSel_clk (s : State) (m : Master) (f : Sel → Sel) : (modSel s m f).clk = s.clk := rfl
@[simp] theorem modSel_gc (s : State) (m : Master) (f : Sel → Sel) : (modSel s m f).gc = s.gc := rfl
@[simp] theorem modSel_ch (s : State) (m : Master) (f : Sel → Sel) : (modSel s m f).ch = s.ch := rfl
@[simp] theorem modSel_port (s : State) (m : Master) (f : Sel → Sel) : (modSel s m f).port = s.port := rfl
@[simp] theorem modSel_grLog (s : State) (m : Master) (f : Sel → Sel) : (modSel s m f).grLog = s.grLog := rfl
@[simp] theorem modSel_ve (s : State) (m : Master) (f : Sel → Sel) : (modSel s m f).ve = s.ve := rfl
@[simp] theorem modSel_ec (s : State) (m : Master) (f : Sel → Sel) : (modSel s m f).ec = s.ec := rfl
@[simp] theorem modSel_st (s : State) (m : Master) (f : Sel → Sel) : (modSel s m f).st = s.st := rfl
@[simp] theorem modSel_bt (s : State) (m : Master) (f : Sel → Sel) : (modSel s m f).bt = s.bt := rfl
@[simp] theorem modSel_inst (s : State) (m : Master) (f : Sel → Sel) : (modSel s m f).inst = s.inst := rfl
@[simp] theorem modSel_sq (s : State) (m : Master) (f : Sel → Sel) : (modSel s m f).sq = s.sq := rfl
@[simp] theorem modSel_pd (s : State) (m : Master) (f : Sel → Sel) : (modSel s m f).pd = s.pd := rfl
@[simp] theorem modSel_he (s : State) (m : Master) (f : Sel → Sel) : (modSel s m f).he = s.he := rfl
@[simp] theorem modSel_kv (s : State) (m : Master) (f : Sel → Sel) : (modSel s m f).kv = s.kv := rfl
@[simp] theorem modSel_lc (s : State) (m : Master) (f : Sel → Sel) : (modSel s m f).lc = s.lc := rfl
@[simp] theorem modSel_otp (s : State) (m : Master) (f : Sel → Sel) : (modSel s m f).otp = s.otp := rfl
@[simp] theorem modSel_mb (s : State) (m : Master) (f : Sel → Sel) : (modSel s m f).mb = s.mb := rfl
@[simp] theorem modSel_fb (s : State) (m : Master) (f : Sel → Sel) : (modSel s m f).fb = s.fb := rfl
@[simp] theorem modSel_os (s : State) (m : Master) (f : Sel → Sel) : (modSel s m f).os = s.os := rfl
@[simp] theorem modSel_boot (s : State) (m : Master) (f : Sel → Sel) : (modSel s m f).boot = s.boot := rfl
@[simp] theorem modSel_wd (s : State) (m : Master) (f : Sel → Sel) : (modSel s m f).wd = s.wd := rfl
@[simp] theorem modSel_pr (s : State) (m : Master) (f : Sel → Sel) : (modSel s m f).pr = s.pr := rfl
@[simp] theorem modSel_tp (s : State) (m : Master) (f : Sel → Sel) : (modSel s m f).tp = s.tp := rfl
@[simp] theorem modSel_pending (s : State) (m : Master) (f : Sel → Sel) : (modSel s m f).pending = s.pending := rfl

@[simp] theorem modCh_clk (s : State) (c : Ch) (f : Chan → Chan) : (modCh s c f).clk = s.clk := rfl
@[simp] theorem modCh_sel (s : State) (c : Ch) (f : Chan → Chan) : (modCh s c f).sel = s.sel := rfl
@[simp] theorem modCh_gc (s : State) (c : Ch) (f : Chan → Chan) : (modCh s c f).gc = s.gc := rfl
@[simp] theorem modCh_port (s : State) (c : Ch) (f : Chan → Chan) : (modCh s c f).port = s.port := rfl
@[simp] theorem modCh_grLog (s : State) (c : Ch) (f : Chan → Chan) : (modCh s c f).grLog = s.grLog := rfl
@[simp] theorem modCh_ve (s : State) (c : Ch) (f : Chan → Chan) : (modCh s c f).ve = s.ve := rfl
@[simp] theorem modCh_ec (s : State) (c : Ch) (f : Chan → Chan) : (modCh s c f).ec = s.ec := rfl
@[simp] theorem modCh_st (s : State) (c : Ch) (f : Chan → Chan) : (modCh s c f).st = s.st := rfl
@[simp] theorem modCh_bt (s : State) (c : Ch) (f : Chan → Chan) : (modCh s c f).bt = s.bt := rfl
@[simp] theorem modCh_inst (s : State) (c : Ch) (f : Chan → Chan) : (modCh s c f).inst = s.inst := rfl
@[simp] theorem modCh_sq (s : State) (c : Ch) (f : Chan → Chan) : (modCh s c f).sq = s.sq := rfl
@[simp] theorem modCh_pd (s : State) (c : Ch) (f : Chan → Chan) : (modCh s c f).pd = s.pd := rfl
@[simp] theorem modCh_he (s : State) (c : Ch) (f : Chan → Chan) : (modCh s c f).he = s.he := rfl
@[simp] theorem modCh_kv (s : State) (c : Ch) (f : Chan → Chan) : (modCh s c f).kv = s.kv := rfl
@[simp] theorem modCh_lc (s : State) (c : Ch) (f : Chan → Chan) : (modCh s c f).lc = s.lc := rfl
@[simp] theorem modCh_otp (s : State) (c : Ch) (f : Chan → Chan) : (modCh s c f).otp = s.otp := rfl
@[simp] theorem modCh_mb (s : State) (c : Ch) (f : Chan → Chan) : (modCh s c f).mb = s.mb := rfl
@[simp] theorem modCh_fb (s : State) (c : Ch) (f : Chan → Chan) : (modCh s c f).fb = s.fb := rfl
@[simp] theorem modCh_os (s : State) (c : Ch) (f : Chan → Chan) : (modCh s c f).os = s.os := rfl
@[simp] theorem modCh_boot (s : State) (c : Ch) (f : Chan → Chan) : (modCh s c f).boot = s.boot := rfl
@[simp] theorem modCh_wd (s : State) (c : Ch) (f : Chan → Chan) : (modCh s c f).wd = s.wd := rfl
@[simp] theorem modCh_pr (s : State) (c : Ch) (f : Chan → Chan) : (modCh s c f).pr = s.pr := rfl
@[simp] theorem modCh_tp (s : State) (c : Ch) (f : Chan → Chan) : (modCh s c f).tp = s.tp := rfl
@[simp] theorem modCh_pending (s : State) (c : Ch) (f : Chan → Chan) : (modCh s c f).pending = s.pending := rfl

@[simp] theorem modPort_clk (s : State) (p : Ch) (f : Port → Port) : (modPort s p f).clk = s.clk := rfl
@[simp] theorem modPort_sel (s : State) (p : Ch) (f : Port → Port) : (modPort s p f).sel = s.sel := rfl
@[simp] theorem modPort_gc (s : State) (p : Ch) (f : Port → Port) : (modPort s p f).gc = s.gc := rfl
@[simp] theorem modPort_ch (s : State) (p : Ch) (f : Port → Port) : (modPort s p f).ch = s.ch := rfl
@[simp] theorem modPort_grLog (s : State) (p : Ch) (f : Port → Port) : (modPort s p f).grLog = s.grLog := rfl
@[simp] theorem modPort_ve (s : State) (p : Ch) (f : Port → Port) : (modPort s p f).ve = s.ve := rfl
@[simp] theorem modPort_ec (s : State) (p : Ch) (f : Port → Port) : (modPort s p f).ec = s.ec := rfl
@[simp] theorem modPort_st (s : State) (p : Ch) (f : Port → Port) : (modPort s p f).st = s.st := rfl
@[simp] theorem modPort_bt (s : State) (p : Ch) (f : Port → Port) : (modPort s p f).bt = s.bt := rfl
@[simp] theorem modPort_inst (s : State) (p : Ch) (f : Port → Port) : (modPort s p f).inst = s.inst := rfl
@[simp] theorem modPort_sq (s : State) (p : Ch) (f : Port → Port) : (modPort s p f).sq = s.sq := rfl
@[simp] theorem modPort_pd (s : State) (p : Ch) (f : Port → Port) : (modPort s p f).pd = s.pd := rfl
@[simp] theorem modPort_he (s : State) (p : Ch) (f : Port → Port) : (modPort s p f).he = s.he := rfl
@[simp] theorem modPort_kv (s : State) (p : Ch) (f : Port → Port) : (modPort s p f).kv = s.kv := rfl
@[simp] theorem modPort_lc (s : State) (p : Ch) (f : Port → Port) : (modPort s p f).lc = s.lc := rfl
@[simp] theorem modPort_otp (s : State) (p : Ch) (f : Port → Port) : (modPort s p f).otp = s.otp := rfl
@[simp] theorem modPort_mb (s : State) (p : Ch) (f : Port → Port) : (modPort s p f).mb = s.mb := rfl
@[simp] theorem modPort_fb (s : State) (p : Ch) (f : Port → Port) : (modPort s p f).fb = s.fb := rfl
@[simp] theorem modPort_os (s : State) (p : Ch) (f : Port → Port) : (modPort s p f).os = s.os := rfl
@[simp] theorem modPort_boot (s : State) (p : Ch) (f : Port → Port) : (modPort s p f).boot = s.boot := rfl
@[simp] theorem modPort_wd (s : State) (p : Ch) (f : Port → Port) : (modPort s p f).wd = s.wd := rfl
@[simp] theorem modPort_pr (s : State) (p : Ch) (f : Port → Port) : (modPort s p f).pr = s.pr := rfl
@[simp] theorem modPort_tp (s : State) (p : Ch) (f : Port → Port) : (modPort s p f).tp = s.tp := rfl
@[simp] theorem modPort_pending (s : State) (p : Ch) (f : Port → Port) : (modPort s p f).pending = s.pending := rfl

@[simp] theorem reachTime_sel (s : State) (t : Nat) : (reachTime s t).sel = s.sel := rfl
@[simp] theorem reachTime_gc (s : State) (t : Nat) : (reachTime s t).gc = s.gc := rfl
@[simp] theorem reachTime_ch (s : State) (t : Nat) : (reachTime s t).ch = s.ch := rfl
@[simp] theorem reachTime_port (s : State) (t : Nat) : (reachTime s t).port = s.port := rfl
@[simp] theorem reachTime_grLog (s : State) (t : Nat) : (reachTime s t).grLog = s.grLog := rfl
@[simp] theorem reachTime_ve (s : State) (t : Nat) : (reachTime s t).ve = s.ve := rfl
@[simp] theorem reachTime_ec (s : State) (t : Nat) : (reachTime s t).ec = s.ec := rfl
@[simp] theorem reachTime_st (s : State) (t : Nat) : (reachTime s t).st = s.st := rfl
@[simp] theorem reachTime_bt (s : State) (t : Nat) : (reachTime s t).bt = s.bt := rfl
@[simp] theorem reachTime_inst (s : State) (t : Nat) : (reachTime s t).inst = s.inst := rfl
@[simp] theorem reachTime_sq (s : State) (t : Nat) : (reachTime s t).sq = s.sq := rfl
@[simp] theorem reachTime_pd (s : State) (t : Nat) : (reachTime s t).pd = s.pd := rfl
@[simp] theorem reachTime_he (s : State) (t : Nat) : (reachTime s t).he = s.he := rfl
@[simp] theorem reachTime_kv (s : State) (t : Nat) : (reachTime s t).kv = s.kv := rfl
@[simp] theorem reachTime_lc (s : State) (t : Nat) : (reachTime s t).lc = s.lc := rfl
@[simp] theorem reachTime_otp (s : State) (t : Nat) : (reachTime s t).otp = s.otp := rfl
@[simp] theorem reachTime_mb (s : State) (t : Nat) : (reachTime s t).mb = s.mb := rfl
@[simp] theorem reachTime_fb (s : State) (t : Nat) : (reachTime s t).fb = s.fb := rfl
@[simp] theorem reachTime_os (s : State) (t : Nat) : (reachTime s t).os = s.os := rfl
@[simp] theorem reachTime_boot (s : State) (t : Nat) : (reachTime s t).boot = s.boot := rfl
@[simp] theorem reachTime_wd (s : State) (t : Nat) : (reachTime s t).wd = s.wd := rfl
@[simp] theorem reachTime_pr (s : State) (t : Nat) : (reachTime s t).pr = s.pr := rfl
@[simp] theorem reachTime_tp (s : State) (t : Nat) : (reachTime s t).tp = s.tp := rfl
@[simp] theorem reachTime_pending (s : State) (t : Nat) : (reachTime s t).pending = s.pending := rfl

@[simp] theorem useFree_sel (s : State) (n : Nat) : (useFree s n).sel = s.sel := rfl
@[simp] theorem useFree_gc (s : State) (n : Nat) : (useFree s n).gc = s.gc := rfl
@[simp] theorem useFree_ch (s : State) (n : Nat) : (useFree s n).ch = s.ch := rfl
@[simp] theorem useFree_port (s : State) (n : Nat) : (useFree s n).port = s.port := rfl
@[simp] theorem useFree_grLog (s : State) (n : Nat) : (useFree s n).grLog = s.grLog := rfl
@[simp] theorem useFree_ve (s : State) (n : Nat) : (useFree s n).ve = s.ve := rfl
@[simp] theorem useFree_ec (s : State) (n : Nat) : (useFree s n).ec = s.ec := rfl
@[simp] theorem useFree_st (s : State) (n : Nat) : (useFree s n).st = s.st := rfl
@[simp] theorem useFree_bt (s : State) (n : Nat) : (useFree s n).bt = s.bt := rfl
@[simp] theorem useFree_inst (s : State) (n : Nat) : (useFree s n).inst = s.inst := rfl
@[simp] theorem useFree_sq (s : State) (n : Nat) : (useFree s n).sq = s.sq := rfl
@[simp] theorem useFree_pd (s : State) (n : Nat) : (useFree s n).pd = s.pd := rfl
@[simp] theorem useFree_he (s : State) (n : Nat) : (useFree s n).he = s.he := rfl
@[simp] theorem useFree_kv (s : State) (n : Nat) : (useFree s n).kv = s.kv := rfl
@[simp] theorem useFree_lc (s : State) (n : Nat) : (useFree s n).lc = s.lc := rfl
@[simp] theorem useFree_otp (s : State) (n : Nat) : (useFree s n).otp = s.otp := rfl
@[simp] theorem useFree_mb (s : State) (n : Nat) : (useFree s n).mb = s.mb := rfl
@[simp] theorem useFree_fb (s : State) (n : Nat) : (useFree s n).fb = s.fb := rfl
@[simp] theorem useFree_os (s : State) (n : Nat) : (useFree s n).os = s.os := rfl
@[simp] theorem useFree_boot (s : State) (n : Nat) : (useFree s n).boot = s.boot := rfl
@[simp] theorem useFree_wd (s : State) (n : Nat) : (useFree s n).wd = s.wd := rfl
@[simp] theorem useFree_pr (s : State) (n : Nat) : (useFree s n).pr = s.pr := rfl
@[simp] theorem useFree_tp (s : State) (n : Nat) : (useFree s n).tp = s.tp := rfl
@[simp] theorem useFree_pending (s : State) (n : Nat) : (useFree s n).pending = s.pending := rfl

@[simp] theorem veInt_clk (s : State) (i : Nat) : (veInt s i).clk = s.clk := rfl
@[simp] theorem veInt_sel (s : State) (i : Nat) : (veInt s i).sel = s.sel := rfl
@[simp] theorem veInt_gc (s : State) (i : Nat) : (veInt s i).gc = s.gc := rfl
@[simp] theorem veInt_ch (s : State) (i : Nat) : (veInt s i).ch = s.ch := rfl
@[simp] theorem veInt_port (s : State) (i : Nat) : (veInt s i).port = s.port := rfl
@[simp] theorem veInt_grLog (s : State) (i : Nat) : (veInt s i).grLog = s.grLog := rfl
@[simp] theorem veInt_ec (s : State) (i : Nat) : (veInt s i).ec = s.ec := rfl
@[simp] theorem veInt_st (s : State) (i : Nat) : (veInt s i).st = s.st := rfl
@[simp] theorem veInt_bt (s : State) (i : Nat) : (veInt s i).bt = s.bt := rfl
@[simp] theorem veInt_inst (s : State) (i : Nat) : (veInt s i).inst = s.inst := rfl
@[simp] theorem veInt_sq (s : State) (i : Nat) : (veInt s i).sq = s.sq := rfl
@[simp] theorem veInt_pd (s : State) (i : Nat) : (veInt s i).pd = s.pd := rfl
@[simp] theorem veInt_he (s : State) (i : Nat) : (veInt s i).he = s.he := rfl
@[simp] theorem veInt_kv (s : State) (i : Nat) : (veInt s i).kv = s.kv := rfl
@[simp] theorem veInt_lc (s : State) (i : Nat) : (veInt s i).lc = s.lc := rfl
@[simp] theorem veInt_otp (s : State) (i : Nat) : (veInt s i).otp = s.otp := rfl
@[simp] theorem veInt_mb (s : State) (i : Nat) : (veInt s i).mb = s.mb := rfl
@[simp] theorem veInt_fb (s : State) (i : Nat) : (veInt s i).fb = s.fb := rfl
@[simp] theorem veInt_os (s : State) (i : Nat) : (veInt s i).os = s.os := rfl
@[simp] theorem veInt_boot (s : State) (i : Nat) : (veInt s i).boot = s.boot := rfl
@[simp] theorem veInt_wd (s : State) (i : Nat) : (veInt s i).wd = s.wd := rfl
@[simp] theorem veInt_pr (s : State) (i : Nat) : (veInt s i).pr = s.pr := rfl
@[simp] theorem veInt_tp (s : State) (i : Nat) : (veInt s i).tp = s.tp := rfl
@[simp] theorem veInt_pending (s : State) (i : Nat) : (veInt s i).pending = s.pending := rfl

@[simp] theorem ecInt_clk (s : State) (i : Nat) : (ecInt s i).clk = s.clk := rfl
@[simp] theorem ecInt_sel (s : State) (i : Nat) : (ecInt s i).sel = s.sel := rfl
@[simp] theorem ecInt_gc (s : State) (i : Nat) : (ecInt s i).gc = s.gc := rfl
@[simp] theorem ecInt_ch (s : State) (i : Nat) : (ecInt s i).ch = s.ch := rfl
@[simp] theorem ecInt_port (s : State) (i : Nat) : (ecInt s i).port = s.port := rfl
@[simp] theorem ecInt_grLog (s : State) (i : Nat) : (ecInt s i).grLog = s.grLog := rfl
@[simp] theorem ecInt_ve (s : State) (i : Nat) : (ecInt s i).ve = s.ve := rfl
@[simp] theorem ecInt_st (s : State) (i : Nat) : (ecInt s i).st = s.st := rfl
@[simp] theorem ecInt_bt (s : State) (i : Nat) : (ecInt s i).bt = s.bt := rfl
@[simp] theorem ecInt_inst (s : State) (i : Nat) : (ecInt s i).inst = s.inst := rfl
@[simp] theorem ecInt_sq (s : State) (i : Nat) : (ecInt s i).sq = s.sq := rfl
@[simp] theorem ecInt_pd (s : State) (i : Nat) : (ecInt s i).pd = s.pd := rfl
@[simp] theorem ecInt_he (s : State) (i : Nat) : (ecInt s i).he = s.he := rfl
@[simp] theorem ecInt_kv (s : State) (i : Nat) : (ecInt s i).kv = s.kv := rfl
@[simp] theorem ecInt_lc (s : State) (i : Nat) : (ecInt s i).lc = s.lc := rfl
@[simp] theorem ecInt_otp (s : State) (i : Nat) : (ecInt s i).otp = s.otp := rfl
@[simp] theorem ecInt_mb (s : State) (i : Nat) : (ecInt s i).mb = s.mb := rfl
@[simp] theorem ecInt_fb (s : State) (i : Nat) : (ecInt s i).fb = s.fb := rfl
@[simp] theorem ecInt_os (s : State) (i : Nat) : (ecInt s i).os = s.os := rfl
@[simp] theorem ecInt_boot (s : State) (i : Nat) : (ecInt s i).boot = s.boot := rfl
@[simp] theorem ecInt_wd (s : State) (i : Nat) : (ecInt s i).wd = s.wd := rfl
@[simp] theorem ecInt_pr (s : State) (i : Nat) : (ecInt s i).pr = s.pr := rfl
@[simp] theorem ecInt_tp (s : State) (i : Nat) : (ecInt s i).tp = s.tp := rfl
@[simp] theorem ecInt_pending (s : State) (i : Nat) : (ecInt s i).pending = s.pending := rfl

@[simp] theorem sqInt_clk (s : State) (i : Nat) : (sqInt s i).clk = s.clk := rfl
@[simp] theorem sqInt_sel (s : State) (i : Nat) : (sqInt s i).sel = s.sel := rfl
@[simp] theorem sqInt_gc (s : State) (i : Nat) : (sqInt s i).gc = s.gc := rfl
@[simp] theorem sqInt_ch (s : State) (i : Nat) : (sqInt s i).ch = s.ch := rfl
@[simp] theorem sqInt_port (s : State) (i : Nat) : (sqInt s i).port = s.port := rfl
@[simp] theorem sqInt_grLog (s : State) (i : Nat) : (sqInt s i).grLog = s.grLog := rfl
@[simp] theorem sqInt_ve (s : State) (i : Nat) : (sqInt s i).ve = s.ve := rfl
@[simp] theorem sqInt_ec (s : State) (i : Nat) : (sqInt s i).ec = s.ec := rfl
@[simp] theorem sqInt_st (s : State) (i : Nat) : (sqInt s i).st = s.st := rfl
@[simp] theorem sqInt_bt (s : State) (i : Nat) : (sqInt s i).bt = s.bt := rfl
@[simp] theorem sqInt_inst (s : State) (i : Nat) : (sqInt s i).inst = s.inst := rfl
@[simp] theorem sqInt_pd (s : State) (i : Nat) : (sqInt s i).pd = s.pd := rfl
@[simp] theorem sqInt_he (s : State) (i : Nat) : (sqInt s i).he = s.he := rfl
@[simp] theorem sqInt_kv (s : State) (i : Nat) : (sqInt s i).kv = s.kv := rfl
@[simp] theorem sqInt_lc (s : State) (i : Nat) : (sqInt s i).lc = s.lc := rfl
@[simp] theorem sqInt_otp (s : State) (i : Nat) : (sqInt s i).otp = s.otp := rfl
@[simp] theorem sqInt_mb (s : State) (i : Nat) : (sqInt s i).mb = s.mb := rfl
@[simp] theorem sqInt_fb (s : State) (i : Nat) : (sqInt s i).fb = s.fb := rfl
@[simp] theorem sqInt_os (s : State) (i : Nat) : (sqInt s i).os = s.os := rfl
@[simp] theorem sqInt_boot (s : State) (i : Nat) : (sqInt s i).boot = s.boot := rfl
@[simp] theorem sqInt_wd (s : State) (i : Nat) : (sqInt s i).wd = s.wd := rfl
@[simp] theorem sqInt_pr (s : State) (i : Nat) : (sqInt s i).pr = s.pr := rfl
@[simp] theorem sqInt_tp (s : State) (i : Nat) : (sqInt s i).tp = s.tp := rfl
@[simp] theorem sqInt_pending (s : State) (i : Nat) : (sqInt s i).pending = s.pending := rfl

@[simp] theorem btInt_clk (s : State) (i : Nat) : (btInt s i).clk = s.clk := rfl
@[simp] theorem btInt_sel (s : State) (i : Nat) : (btInt s i).sel = s.sel := rfl
@[simp] theorem btInt_gc (s : State) (i : Nat) : (btInt s i).gc = s.gc := rfl
@[simp] theorem btInt_ch (s : State) (i : Nat) : (btInt s i).ch = s.ch := rfl
@[simp] theorem btInt_port (s : State) (i : Nat) : (btInt s i).port = s.port := rfl
@[simp] theorem btInt_grLog (s : State) (i : Nat) : (btInt s i).grLog = s.grLog := rfl
@[simp] theorem btInt_ve (s : State) (i : Nat) : (btInt s i).ve = s.ve := rfl
@[simp] theorem btInt_ec (s : State) (i : Nat) : (btInt s i).ec = s.ec := rfl
@[simp] theorem btInt_st (s : State) (i : Nat) : (btInt s i).st = s.st := rfl
@[simp] theorem btInt_inst (s : State) (i : Nat) : (btInt s i).inst = s.inst := rfl
@[simp] theorem btInt_sq (s : State) (i : Nat) : (btInt s i).sq = s.sq := rfl
@[simp] theorem btInt_pd (s : State) (i : Nat) : (btInt s i).pd = s.pd := rfl
@[simp] theorem btInt_he (s : State) (i : Nat) : (btInt s i).he = s.he := rfl
@[simp] theorem btInt_kv (s : State) (i : Nat) : (btInt s i).kv = s.kv := rfl
@[simp] theorem btInt_lc (s : State) (i : Nat) : (btInt s i).lc = s.lc := rfl
@[simp] theorem btInt_otp (s : State) (i : Nat) : (btInt s i).otp = s.otp := rfl
@[simp] theorem btInt_mb (s : State) (i : Nat) : (btInt s i).mb = s.mb := rfl
@[simp] theorem btInt_fb (s : State) (i : Nat) : (btInt s i).fb = s.fb := rfl
@[simp] theorem btInt_os (s : State) (i : Nat) : (btInt s i).os = s.os := rfl
@[simp] theorem btInt_boot (s : State) (i : Nat) : (btInt s i).boot = s.boot := rfl
@[simp] theorem btInt_wd (s : State) (i : Nat) : (btInt s i).wd = s.wd := rfl
@[simp] theorem btInt_pr (s : State) (i : Nat) : (btInt s i).pr = s.pr := rfl
@[simp] theorem btInt_tp (s : State) (i : Nat) : (btInt s i).tp = s.tp := rfl
@[simp] theorem btInt_pending (s : State) (i : Nat) : (btInt s i).pending = s.pending := rfl

@[simp] theorem stInt_clk (s : State) (i : Nat) : (stInt s i).clk = s.clk := rfl
@[simp] theorem stInt_sel (s : State) (i : Nat) : (stInt s i).sel = s.sel := rfl
@[simp] theorem stInt_gc (s : State) (i : Nat) : (stInt s i).gc = s.gc := rfl
@[simp] theorem stInt_ch (s : State) (i : Nat) : (stInt s i).ch = s.ch := rfl
@[simp] theorem stInt_port (s : State) (i : Nat) : (stInt s i).port = s.port := rfl
@[simp] theorem stInt_grLog (s : State) (i : Nat) : (stInt s i).grLog = s.grLog := rfl
@[simp] theorem stInt_ve (s : State) (i : Nat) : (stInt s i).ve = s.ve := rfl
@[simp] theorem stInt_ec (s : State) (i : Nat) : (stInt s i).ec = s.ec := rfl
@[simp] theorem stInt_bt (s : State) (i : Nat) : (stInt s i).bt = s.bt := rfl
@[simp] theorem stInt_inst (s : State) (i : Nat) : (stInt s i).inst = s.inst := rfl
@[simp] theorem stInt_sq (s : State) (i : Nat) : (stInt s i).sq = s.sq := rfl
@[simp] theorem stInt_pd (s : State) (i : Nat) : (stInt s i).pd = s.pd := rfl
@[simp] theorem stInt_he (s : State) (i : Nat) : (stInt s i).he = s.he := rfl
@[simp] theorem stInt_kv (s : State) (i : Nat) : (stInt s i).kv = s.kv := rfl
@[simp] theorem stInt_lc (s : State) (i : Nat) : (stInt s i).lc = s.lc := rfl
@[simp] theorem stInt_otp (s : State) (i : Nat) : (stInt s i).otp = s.otp := rfl
@[simp] theorem stInt_mb (s : State) (i : Nat) : (stInt s i).mb = s.mb := rfl
@[simp] theorem stInt_fb (s : State) (i : Nat) : (stInt s i).fb = s.fb := rfl
@[simp] theorem stInt_os (s : State) (i : Nat) : (stInt s i).os = s.os := rfl
@[simp] theorem stInt_boot (s : State) (i : Nat) : (stInt s i).boot = s.boot := rfl
@[simp] theorem stInt_wd (s : State) (i : Nat) : (stInt s i).wd = s.wd := rfl
@[simp] theorem stInt_pr (s : State) (i : Nat) : (stInt s i).pr = s.pr := rfl
@[simp] theorem stInt_tp (s : State) (i : Nat) : (stInt s i).tp = s.tp := rfl
@[simp] theorem stInt_pending (s : State) (i : Nat) : (stInt s i).pending = s.pending := rfl

@[simp] theorem osProg_clk (s : State) (a : Nat) (bs : List Byte) : (osProg s a bs).clk = s.clk := rfl
@[simp] theorem osProg_sel (s : State) (a : Nat) (bs : List Byte) : (osProg s a bs).sel = s.sel := rfl
@[simp] theorem osProg_gc (s : State) (a : Nat) (bs : List Byte) : (osProg s a bs).gc = s.gc := rfl
@[simp] theorem osProg_ch (s : State) (a : Nat) (bs : List Byte) : (osProg s a bs).ch = s.ch := rfl
@[simp] theorem osProg_port (s : State) (a : Nat) (bs : List Byte) : (osProg s a bs).port = s.port := rfl
@[simp] theorem osProg_grLog (s : State) (a : Nat) (bs : List Byte) : (osProg s a bs).grLog = s.grLog := rfl
@[simp] theorem osProg_ve (s : State) (a : Nat) (bs : List Byte) : (osProg s a bs).ve = s.ve := rfl
@[simp] theorem osProg_ec (s : State) (a : Nat) (bs : List Byte) : (osProg s a bs).ec = s.ec := rfl
@[simp] theorem osProg_st (s : State) (a : Nat) (bs : List Byte) : (osProg s a bs).st = s.st := rfl
@[simp] theorem osProg_bt (s : State) (a : Nat) (bs : List Byte) : (osProg s a bs).bt = s.bt := rfl
@[simp] theorem osProg_inst (s : State) (a : Nat) (bs : List Byte) : (osProg s a bs).inst = s.inst := rfl
@[simp] theorem osProg_sq (s : State) (a : Nat) (bs : List Byte) : (osProg s a bs).sq = s.sq := rfl
@[simp] theorem osProg_pd (s : State) (a : Nat) (bs : List Byte) : (osProg s a bs).pd = s.pd := rfl
@[simp] theorem osProg_he (s : State) (a : Nat) (bs : List Byte) : (osProg s a bs).he = s.he := rfl
@[simp] theorem osProg_kv (s : State) (a : Nat) (bs : List Byte) : (osProg s a bs).kv = s.kv := rfl
@[simp] theorem osProg_lc (s : State) (a : Nat) (bs : List Byte) : (osProg s a bs).lc = s.lc := rfl
@[simp] theorem osProg_otp (s : State) (a : Nat) (bs : List Byte) : (osProg s a bs).otp = s.otp := rfl
@[simp] theorem osProg_mb (s : State) (a : Nat) (bs : List Byte) : (osProg s a bs).mb = s.mb := rfl
@[simp] theorem osProg_fb (s : State) (a : Nat) (bs : List Byte) : (osProg s a bs).fb = s.fb := rfl
@[simp] theorem osProg_boot (s : State) (a : Nat) (bs : List Byte) : (osProg s a bs).boot = s.boot := rfl
@[simp] theorem osProg_wd (s : State) (a : Nat) (bs : List Byte) : (osProg s a bs).wd = s.wd := rfl
@[simp] theorem osProg_pr (s : State) (a : Nat) (bs : List Byte) : (osProg s a bs).pr = s.pr := rfl
@[simp] theorem osProg_tp (s : State) (a : Nat) (bs : List Byte) : (osProg s a bs).tp = s.tp := rfl
@[simp] theorem osProg_pending (s : State) (a : Nat) (bs : List Byte) : (osProg s a bs).pending = s.pending := rfl

@[simp] theorem osErase_clk (s : State) (a n : Nat) : (osErase s a n).clk = s.clk := rfl
@[simp] theorem osErase_sel (s : State) (a n : Nat) : (osErase s a n).sel = s.sel := rfl
@[simp] theorem osErase_gc (s : State) (a n : Nat) : (osErase s a n).gc = s.gc := rfl
@[simp] theorem osErase_ch (s : State) (a n : Nat) : (osErase s a n).ch = s.ch := rfl
@[simp] theorem osErase_port (s : State) (a n : Nat) : (osErase s a n).port = s.port := rfl
@[simp] theorem osErase_grLog (s : State) (a n : Nat) : (osErase s a n).grLog = s.grLog := rfl
@[simp] theorem osErase_ve (s : State) (a n : Nat) : (osErase s a n).ve = s.ve := rfl
@[simp] theorem osErase_ec (s : State) (a n : Nat) : (osErase s a n).ec = s.ec := rfl
@[simp] theorem osErase_st (s : State) (a n : Nat) : (osErase s a n).st = s.st := rfl
@[simp] theorem osErase_bt (s : State) (a n : Nat) : (osErase s a n).bt = s.bt := rfl
@[simp] theorem osErase_inst (s : State) (a n : Nat) : (osErase s a n).inst = s.inst := rfl
@[simp] theorem osErase_sq (s : State) (a n : Nat) : (osErase s a n).sq = s.sq := rfl
@[simp] theorem osErase_pd (s : State) (a n : Nat) : (osErase s a n).pd = s.pd := rfl
@[simp] theorem osErase_he (s : State) (a n : Nat) : (osErase s a n).he = s.he := rfl
@[simp] theorem osErase_kv (s : State) (a n : Nat) : (osErase s a n).kv = s.kv := rfl
@[simp] theorem osErase_lc (s : State) (a n : Nat) : (osErase s a n).lc = s.lc := rfl
@[simp] theorem osErase_otp (s : State) (a n : Nat) : (osErase s a n).otp = s.otp := rfl
@[simp] theorem osErase_mb (s : State) (a n : Nat) : (osErase s a n).mb = s.mb := rfl
@[simp] theorem osErase_fb (s : State) (a n : Nat) : (osErase s a n).fb = s.fb := rfl
@[simp] theorem osErase_boot (s : State) (a n : Nat) : (osErase s a n).boot = s.boot := rfl
@[simp] theorem osErase_wd (s : State) (a n : Nat) : (osErase s a n).wd = s.wd := rfl
@[simp] theorem osErase_pr (s : State) (a n : Nat) : (osErase s a n).pr = s.pr := rfl
@[simp] theorem osErase_tp (s : State) (a n : Nat) : (osErase s a n).tp = s.tp := rfl
@[simp] theorem osErase_pending (s : State) (a n : Nat) : (osErase s a n).pending = s.pending := rfl

@[simp] theorem otpProg_clk (s : State) (a : Nat) (bs : List Byte) : (otpProg s a bs).clk = s.clk := rfl
@[simp] theorem otpProg_sel (s : State) (a : Nat) (bs : List Byte) : (otpProg s a bs).sel = s.sel := rfl
@[simp] theorem otpProg_gc (s : State) (a : Nat) (bs : List Byte) : (otpProg s a bs).gc = s.gc := rfl
@[simp] theorem otpProg_ch (s : State) (a : Nat) (bs : List Byte) : (otpProg s a bs).ch = s.ch := rfl
@[simp] theorem otpProg_port (s : State) (a : Nat) (bs : List Byte) : (otpProg s a bs).port = s.port := rfl
@[simp] theorem otpProg_grLog (s : State) (a : Nat) (bs : List Byte) : (otpProg s a bs).grLog = s.grLog := rfl
@[simp] theorem otpProg_ve (s : State) (a : Nat) (bs : List Byte) : (otpProg s a bs).ve = s.ve := rfl
@[simp] theorem otpProg_ec (s : State) (a : Nat) (bs : List Byte) : (otpProg s a bs).ec = s.ec := rfl
@[simp] theorem otpProg_st (s : State) (a : Nat) (bs : List Byte) : (otpProg s a bs).st = s.st := rfl
@[simp] theorem otpProg_bt (s : State) (a : Nat) (bs : List Byte) : (otpProg s a bs).bt = s.bt := rfl
@[simp] theorem otpProg_inst (s : State) (a : Nat) (bs : List Byte) : (otpProg s a bs).inst = s.inst := rfl
@[simp] theorem otpProg_sq (s : State) (a : Nat) (bs : List Byte) : (otpProg s a bs).sq = s.sq := rfl
@[simp] theorem otpProg_pd (s : State) (a : Nat) (bs : List Byte) : (otpProg s a bs).pd = s.pd := rfl
@[simp] theorem otpProg_he (s : State) (a : Nat) (bs : List Byte) : (otpProg s a bs).he = s.he := rfl
@[simp] theorem otpProg_kv (s : State) (a : Nat) (bs : List Byte) : (otpProg s a bs).kv = s.kv := rfl
@[simp] theorem otpProg_lc (s : State) (a : Nat) (bs : List Byte) : (otpProg s a bs).lc = s.lc := rfl
@[simp] theorem otpProg_mb (s : State) (a : Nat) (bs : List Byte) : (otpProg s a bs).mb = s.mb := rfl
@[simp] theorem otpProg_fb (s : State) (a : Nat) (bs : List Byte) : (otpProg s a bs).fb = s.fb := rfl
@[simp] theorem otpProg_os (s : State) (a : Nat) (bs : List Byte) : (otpProg s a bs).os = s.os := rfl
@[simp] theorem otpProg_boot (s : State) (a : Nat) (bs : List Byte) : (otpProg s a bs).boot = s.boot := rfl
@[simp] theorem otpProg_wd (s : State) (a : Nat) (bs : List Byte) : (otpProg s a bs).wd = s.wd := rfl
@[simp] theorem otpProg_pr (s : State) (a : Nat) (bs : List Byte) : (otpProg s a bs).pr = s.pr := rfl
@[simp] theorem otpProg_tp (s : State) (a : Nat) (bs : List Byte) : (otpProg s a bs).tp = s.tp := rfl
@[simp] theorem otpProg_pending (s : State) (a : Nat) (bs : List Byte) : (otpProg s a bs).pending = s.pending := rfl

@[simp] theorem wdInt_clk (s : State) (i : Nat) : (wdInt s i).clk = s.clk := rfl
@[simp] theorem wdInt_sel (s : State) (i : Nat) : (wdInt s i).sel = s.sel := rfl
@[simp] theorem wdInt_gc (s : State) (i : Nat) : (wdInt s i).gc = s.gc := rfl
@[simp] theorem wdInt_ch (s : State) (i : Nat) : (wdInt s i).ch = s.ch := rfl
@[simp] theorem wdInt_port (s : State) (i : Nat) : (wdInt s i).port = s.port := rfl
@[simp] theorem wdInt_grLog (s : State) (i : Nat) : (wdInt s i).grLog = s.grLog := rfl
@[simp] theorem wdInt_ve (s : State) (i : Nat) : (wdInt s i).ve = s.ve := rfl
@[simp] theorem wdInt_ec (s : State) (i : Nat) : (wdInt s i).ec = s.ec := rfl
@[simp] theorem wdInt_st (s : State) (i : Nat) : (wdInt s i).st = s.st := rfl
@[simp] theorem wdInt_bt (s : State) (i : Nat) : (wdInt s i).bt = s.bt := rfl
@[simp] theorem wdInt_inst (s : State) (i : Nat) : (wdInt s i).inst = s.inst := rfl
@[simp] theorem wdInt_sq (s : State) (i : Nat) : (wdInt s i).sq = s.sq := rfl
@[simp] theorem wdInt_pd (s : State) (i : Nat) : (wdInt s i).pd = s.pd := rfl
@[simp] theorem wdInt_he (s : State) (i : Nat) : (wdInt s i).he = s.he := rfl
@[simp] theorem wdInt_kv (s : State) (i : Nat) : (wdInt s i).kv = s.kv := rfl
@[simp] theorem wdInt_lc (s : State) (i : Nat) : (wdInt s i).lc = s.lc := rfl
@[simp] theorem wdInt_otp (s : State) (i : Nat) : (wdInt s i).otp = s.otp := rfl
@[simp] theorem wdInt_mb (s : State) (i : Nat) : (wdInt s i).mb = s.mb := rfl
@[simp] theorem wdInt_fb (s : State) (i : Nat) : (wdInt s i).fb = s.fb := rfl
@[simp] theorem wdInt_os (s : State) (i : Nat) : (wdInt s i).os = s.os := rfl
@[simp] theorem wdInt_boot (s : State) (i : Nat) : (wdInt s i).boot = s.boot := rfl
@[simp] theorem wdInt_pr (s : State) (i : Nat) : (wdInt s i).pr = s.pr := rfl
@[simp] theorem wdInt_tp (s : State) (i : Nat) : (wdInt s i).tp = s.tp := rfl
@[simp] theorem wdInt_pending (s : State) (i : Nat) : (wdInt s i).pending = s.pending := rfl

@[simp] theorem modTlb_clk (s : State) (r : Fin 20) (f : List TlbEnt → List TlbEnt) : (modTlb s r f).clk = s.clk := rfl
@[simp] theorem modTlb_sel (s : State) (r : Fin 20) (f : List TlbEnt → List TlbEnt) : (modTlb s r f).sel = s.sel := rfl
@[simp] theorem modTlb_gc (s : State) (r : Fin 20) (f : List TlbEnt → List TlbEnt) : (modTlb s r f).gc = s.gc := rfl
@[simp] theorem modTlb_ch (s : State) (r : Fin 20) (f : List TlbEnt → List TlbEnt) : (modTlb s r f).ch = s.ch := rfl
@[simp] theorem modTlb_port (s : State) (r : Fin 20) (f : List TlbEnt → List TlbEnt) : (modTlb s r f).port = s.port := rfl
@[simp] theorem modTlb_grLog (s : State) (r : Fin 20) (f : List TlbEnt → List TlbEnt) : (modTlb s r f).grLog = s.grLog := rfl
@[simp] theorem modTlb_ve (s : State) (r : Fin 20) (f : List TlbEnt → List TlbEnt) : (modTlb s r f).ve = s.ve := rfl
@[simp] theorem modTlb_ec (s : State) (r : Fin 20) (f : List TlbEnt → List TlbEnt) : (modTlb s r f).ec = s.ec := rfl
@[simp] theorem modTlb_st (s : State) (r : Fin 20) (f : List TlbEnt → List TlbEnt) : (modTlb s r f).st = s.st := rfl
@[simp] theorem modTlb_bt (s : State) (r : Fin 20) (f : List TlbEnt → List TlbEnt) : (modTlb s r f).bt = s.bt := rfl
@[simp] theorem modTlb_inst (s : State) (r : Fin 20) (f : List TlbEnt → List TlbEnt) : (modTlb s r f).inst = s.inst := rfl
@[simp] theorem modTlb_sq (s : State) (r : Fin 20) (f : List TlbEnt → List TlbEnt) : (modTlb s r f).sq = s.sq := rfl
@[simp] theorem modTlb_pd (s : State) (r : Fin 20) (f : List TlbEnt → List TlbEnt) : (modTlb s r f).pd = s.pd := rfl
@[simp] theorem modTlb_kv (s : State) (r : Fin 20) (f : List TlbEnt → List TlbEnt) : (modTlb s r f).kv = s.kv := rfl
@[simp] theorem modTlb_lc (s : State) (r : Fin 20) (f : List TlbEnt → List TlbEnt) : (modTlb s r f).lc = s.lc := rfl
@[simp] theorem modTlb_otp (s : State) (r : Fin 20) (f : List TlbEnt → List TlbEnt) : (modTlb s r f).otp = s.otp := rfl
@[simp] theorem modTlb_mb (s : State) (r : Fin 20) (f : List TlbEnt → List TlbEnt) : (modTlb s r f).mb = s.mb := rfl
@[simp] theorem modTlb_fb (s : State) (r : Fin 20) (f : List TlbEnt → List TlbEnt) : (modTlb s r f).fb = s.fb := rfl
@[simp] theorem modTlb_os (s : State) (r : Fin 20) (f : List TlbEnt → List TlbEnt) : (modTlb s r f).os = s.os := rfl
@[simp] theorem modTlb_boot (s : State) (r : Fin 20) (f : List TlbEnt → List TlbEnt) : (modTlb s r f).boot = s.boot := rfl
@[simp] theorem modTlb_wd (s : State) (r : Fin 20) (f : List TlbEnt → List TlbEnt) : (modTlb s r f).wd = s.wd := rfl
@[simp] theorem modTlb_pr (s : State) (r : Fin 20) (f : List TlbEnt → List TlbEnt) : (modTlb s r f).pr = s.pr := rfl
@[simp] theorem modTlb_tp (s : State) (r : Fin 20) (f : List TlbEnt → List TlbEnt) : (modTlb s r f).tp = s.tp := rfl
@[simp] theorem modTlb_pending (s : State) (r : Fin 20) (f : List TlbEnt → List TlbEnt) : (modTlb s r f).pending = s.pending := rfl

@[simp] theorem modStep_clk (s : State) (i : Fin 128) (f : StepRt → StepRt) : (modStep s i f).clk = s.clk := rfl
@[simp] theorem modStep_sel (s : State) (i : Fin 128) (f : StepRt → StepRt) : (modStep s i f).sel = s.sel := rfl
@[simp] theorem modStep_gc (s : State) (i : Fin 128) (f : StepRt → StepRt) : (modStep s i f).gc = s.gc := rfl
@[simp] theorem modStep_ch (s : State) (i : Fin 128) (f : StepRt → StepRt) : (modStep s i f).ch = s.ch := rfl
@[simp] theorem modStep_port (s : State) (i : Fin 128) (f : StepRt → StepRt) : (modStep s i f).port = s.port := rfl
@[simp] theorem modStep_grLog (s : State) (i : Fin 128) (f : StepRt → StepRt) : (modStep s i f).grLog = s.grLog := rfl
@[simp] theorem modStep_ve (s : State) (i : Fin 128) (f : StepRt → StepRt) : (modStep s i f).ve = s.ve := rfl
@[simp] theorem modStep_ec (s : State) (i : Fin 128) (f : StepRt → StepRt) : (modStep s i f).ec = s.ec := rfl
@[simp] theorem modStep_st (s : State) (i : Fin 128) (f : StepRt → StepRt) : (modStep s i f).st = s.st := rfl
@[simp] theorem modStep_bt (s : State) (i : Fin 128) (f : StepRt → StepRt) : (modStep s i f).bt = s.bt := rfl
@[simp] theorem modStep_inst (s : State) (i : Fin 128) (f : StepRt → StepRt) : (modStep s i f).inst = s.inst := rfl
@[simp] theorem modStep_pd (s : State) (i : Fin 128) (f : StepRt → StepRt) : (modStep s i f).pd = s.pd := rfl
@[simp] theorem modStep_he (s : State) (i : Fin 128) (f : StepRt → StepRt) : (modStep s i f).he = s.he := rfl
@[simp] theorem modStep_kv (s : State) (i : Fin 128) (f : StepRt → StepRt) : (modStep s i f).kv = s.kv := rfl
@[simp] theorem modStep_lc (s : State) (i : Fin 128) (f : StepRt → StepRt) : (modStep s i f).lc = s.lc := rfl
@[simp] theorem modStep_otp (s : State) (i : Fin 128) (f : StepRt → StepRt) : (modStep s i f).otp = s.otp := rfl
@[simp] theorem modStep_mb (s : State) (i : Fin 128) (f : StepRt → StepRt) : (modStep s i f).mb = s.mb := rfl
@[simp] theorem modStep_fb (s : State) (i : Fin 128) (f : StepRt → StepRt) : (modStep s i f).fb = s.fb := rfl
@[simp] theorem modStep_os (s : State) (i : Fin 128) (f : StepRt → StepRt) : (modStep s i f).os = s.os := rfl
@[simp] theorem modStep_boot (s : State) (i : Fin 128) (f : StepRt → StepRt) : (modStep s i f).boot = s.boot := rfl
@[simp] theorem modStep_wd (s : State) (i : Fin 128) (f : StepRt → StepRt) : (modStep s i f).wd = s.wd := rfl
@[simp] theorem modStep_pr (s : State) (i : Fin 128) (f : StepRt → StepRt) : (modStep s i f).pr = s.pr := rfl
@[simp] theorem modStep_tp (s : State) (i : Fin 128) (f : StepRt → StepRt) : (modStep s i f).tp = s.tp := rfl
@[simp] theorem modStep_pending (s : State) (i : Fin 128) (f : StepRt → StepRt) : (modStep s i f).pending = s.pending := rfl

@[simp] theorem modAo_clk (s : State) (f : Ao → Ao) : (modAo s f).clk = s.clk := rfl
@[simp] theorem modAo_sel (s : State) (f : Ao → Ao) : (modAo s f).sel = s.sel := rfl
@[simp] theorem modAo_gc (s : State) (f : Ao → Ao) : (modAo s f).gc = s.gc := rfl
@[simp] theorem modAo_ch (s : State) (f : Ao → Ao) : (modAo s f).ch = s.ch := rfl
@[simp] theorem modAo_port (s : State) (f : Ao → Ao) : (modAo s f).port = s.port := rfl
@[simp] theorem modAo_grLog (s : State) (f : Ao → Ao) : (modAo s f).grLog = s.grLog := rfl
@[simp] theorem modAo_ve (s : State) (f : Ao → Ao) : (modAo s f).ve = s.ve := rfl
@[simp] theorem modAo_ec (s : State) (f : Ao → Ao) : (modAo s f).ec = s.ec := rfl
@[simp] theorem modAo_st (s : State) (f : Ao → Ao) : (modAo s f).st = s.st := rfl
@[simp] theorem modAo_bt (s : State) (f : Ao → Ao) : (modAo s f).bt = s.bt := rfl
@[simp] theorem modAo_inst (s : State) (f : Ao → Ao) : (modAo s f).inst = s.inst := rfl
@[simp] theorem modAo_sq (s : State) (f : Ao → Ao) : (modAo s f).sq = s.sq := rfl
@[simp] theorem modAo_pd (s : State) (f : Ao → Ao) : (modAo s f).pd = s.pd := rfl
@[simp] theorem modAo_he (s : State) (f : Ao → Ao) : (modAo s f).he = s.he := rfl
@[simp] theorem modAo_kv (s : State) (f : Ao → Ao) : (modAo s f).kv = s.kv := rfl
@[simp] theorem modAo_lc (s : State) (f : Ao → Ao) : (modAo s f).lc = s.lc := rfl
@[simp] theorem modAo_otp (s : State) (f : Ao → Ao) : (modAo s f).otp = s.otp := rfl
@[simp] theorem modAo_mb (s : State) (f : Ao → Ao) : (modAo s f).mb = s.mb := rfl
@[simp] theorem modAo_fb (s : State) (f : Ao → Ao) : (modAo s f).fb = s.fb := rfl
@[simp] theorem modAo_os (s : State) (f : Ao → Ao) : (modAo s f).os = s.os := rfl
@[simp] theorem modAo_boot (s : State) (f : Ao → Ao) : (modAo s f).boot = s.boot := rfl
@[simp] theorem modAo_wd (s : State) (f : Ao → Ao) : (modAo s f).wd = s.wd := rfl
@[simp] theorem modAo_pr (s : State) (f : Ao → Ao) : (modAo s f).pr = s.pr := rfl
@[simp] theorem modAo_pending (s : State) (f : Ao → Ao) : (modAo s f).pending = s.pending := rfl

@[simp] theorem kvInt_clk (s : State) (i : Nat) : (kvInt s i).clk = s.clk := rfl
@[simp] theorem kvInt_sel (s : State) (i : Nat) : (kvInt s i).sel = s.sel := rfl
@[simp] theorem kvInt_gc (s : State) (i : Nat) : (kvInt s i).gc = s.gc := rfl
@[simp] theorem kvInt_ch (s : State) (i : Nat) : (kvInt s i).ch = s.ch := rfl
@[simp] theorem kvInt_port (s : State) (i : Nat) : (kvInt s i).port = s.port := rfl
@[simp] theorem kvInt_grLog (s : State) (i : Nat) : (kvInt s i).grLog = s.grLog := rfl
@[simp] theorem kvInt_ve (s : State) (i : Nat) : (kvInt s i).ve = s.ve := rfl
@[simp] theorem kvInt_ec (s : State) (i : Nat) : (kvInt s i).ec = s.ec := rfl
@[simp] theorem kvInt_st (s : State) (i : Nat) : (kvInt s i).st = s.st := rfl
@[simp] theorem kvInt_bt (s : State) (i : Nat) : (kvInt s i).bt = s.bt := rfl
@[simp] theorem kvInt_inst (s : State) (i : Nat) : (kvInt s i).inst = s.inst := rfl
@[simp] theorem kvInt_sq (s : State) (i : Nat) : (kvInt s i).sq = s.sq := rfl
@[simp] theorem kvInt_pd (s : State) (i : Nat) : (kvInt s i).pd = s.pd := rfl
@[simp] theorem kvInt_he (s : State) (i : Nat) : (kvInt s i).he = s.he := rfl
@[simp] theorem kvInt_lc (s : State) (i : Nat) : (kvInt s i).lc = s.lc := rfl
@[simp] theorem kvInt_otp (s : State) (i : Nat) : (kvInt s i).otp = s.otp := rfl
@[simp] theorem kvInt_mb (s : State) (i : Nat) : (kvInt s i).mb = s.mb := rfl
@[simp] theorem kvInt_fb (s : State) (i : Nat) : (kvInt s i).fb = s.fb := rfl
@[simp] theorem kvInt_os (s : State) (i : Nat) : (kvInt s i).os = s.os := rfl
@[simp] theorem kvInt_boot (s : State) (i : Nat) : (kvInt s i).boot = s.boot := rfl
@[simp] theorem kvInt_wd (s : State) (i : Nat) : (kvInt s i).wd = s.wd := rfl
@[simp] theorem kvInt_pr (s : State) (i : Nat) : (kvInt s i).pr = s.pr := rfl
@[simp] theorem kvInt_tp (s : State) (i : Nat) : (kvInt s i).tp = s.tp := rfl
@[simp] theorem kvInt_pending (s : State) (i : Nat) : (kvInt s i).pending = s.pending := rfl

@[simp] theorem lcInt_clk (s : State) (i : Nat) : (lcInt s i).clk = s.clk := rfl
@[simp] theorem lcInt_sel (s : State) (i : Nat) : (lcInt s i).sel = s.sel := rfl
@[simp] theorem lcInt_gc (s : State) (i : Nat) : (lcInt s i).gc = s.gc := rfl
@[simp] theorem lcInt_ch (s : State) (i : Nat) : (lcInt s i).ch = s.ch := rfl
@[simp] theorem lcInt_port (s : State) (i : Nat) : (lcInt s i).port = s.port := rfl
@[simp] theorem lcInt_grLog (s : State) (i : Nat) : (lcInt s i).grLog = s.grLog := rfl
@[simp] theorem lcInt_ve (s : State) (i : Nat) : (lcInt s i).ve = s.ve := rfl
@[simp] theorem lcInt_ec (s : State) (i : Nat) : (lcInt s i).ec = s.ec := rfl
@[simp] theorem lcInt_st (s : State) (i : Nat) : (lcInt s i).st = s.st := rfl
@[simp] theorem lcInt_bt (s : State) (i : Nat) : (lcInt s i).bt = s.bt := rfl
@[simp] theorem lcInt_inst (s : State) (i : Nat) : (lcInt s i).inst = s.inst := rfl
@[simp] theorem lcInt_sq (s : State) (i : Nat) : (lcInt s i).sq = s.sq := rfl
@[simp] theorem lcInt_pd (s : State) (i : Nat) : (lcInt s i).pd = s.pd := rfl
@[simp] theorem lcInt_he (s : State) (i : Nat) : (lcInt s i).he = s.he := rfl
@[simp] theorem lcInt_kv (s : State) (i : Nat) : (lcInt s i).kv = s.kv := rfl
@[simp] theorem lcInt_otp (s : State) (i : Nat) : (lcInt s i).otp = s.otp := rfl
@[simp] theorem lcInt_mb (s : State) (i : Nat) : (lcInt s i).mb = s.mb := rfl
@[simp] theorem lcInt_fb (s : State) (i : Nat) : (lcInt s i).fb = s.fb := rfl
@[simp] theorem lcInt_os (s : State) (i : Nat) : (lcInt s i).os = s.os := rfl
@[simp] theorem lcInt_boot (s : State) (i : Nat) : (lcInt s i).boot = s.boot := rfl
@[simp] theorem lcInt_wd (s : State) (i : Nat) : (lcInt s i).wd = s.wd := rfl
@[simp] theorem lcInt_pr (s : State) (i : Nat) : (lcInt s i).pr = s.pr := rfl
@[simp] theorem lcInt_tp (s : State) (i : Nat) : (lcInt s i).tp = s.tp := rfl
@[simp] theorem lcInt_pending (s : State) (i : Nat) : (lcInt s i).pending = s.pending := rfl

@[simp] theorem mbInt_clk (s : State) (i : Nat) : (mbInt s i).clk = s.clk := rfl
@[simp] theorem mbInt_sel (s : State) (i : Nat) : (mbInt s i).sel = s.sel := rfl
@[simp] theorem mbInt_gc (s : State) (i : Nat) : (mbInt s i).gc = s.gc := rfl
@[simp] theorem mbInt_ch (s : State) (i : Nat) : (mbInt s i).ch = s.ch := rfl
@[simp] theorem mbInt_port (s : State) (i : Nat) : (mbInt s i).port = s.port := rfl
@[simp] theorem mbInt_grLog (s : State) (i : Nat) : (mbInt s i).grLog = s.grLog := rfl
@[simp] theorem mbInt_ve (s : State) (i : Nat) : (mbInt s i).ve = s.ve := rfl
@[simp] theorem mbInt_ec (s : State) (i : Nat) : (mbInt s i).ec = s.ec := rfl
@[simp] theorem mbInt_st (s : State) (i : Nat) : (mbInt s i).st = s.st := rfl
@[simp] theorem mbInt_bt (s : State) (i : Nat) : (mbInt s i).bt = s.bt := rfl
@[simp] theorem mbInt_inst (s : State) (i : Nat) : (mbInt s i).inst = s.inst := rfl
@[simp] theorem mbInt_sq (s : State) (i : Nat) : (mbInt s i).sq = s.sq := rfl
@[simp] theorem mbInt_pd (s : State) (i : Nat) : (mbInt s i).pd = s.pd := rfl
@[simp] theorem mbInt_he (s : State) (i : Nat) : (mbInt s i).he = s.he := rfl
@[simp] theorem mbInt_kv (s : State) (i : Nat) : (mbInt s i).kv = s.kv := rfl
@[simp] theorem mbInt_lc (s : State) (i : Nat) : (mbInt s i).lc = s.lc := rfl
@[simp] theorem mbInt_otp (s : State) (i : Nat) : (mbInt s i).otp = s.otp := rfl
@[simp] theorem mbInt_fb (s : State) (i : Nat) : (mbInt s i).fb = s.fb := rfl
@[simp] theorem mbInt_os (s : State) (i : Nat) : (mbInt s i).os = s.os := rfl
@[simp] theorem mbInt_boot (s : State) (i : Nat) : (mbInt s i).boot = s.boot := rfl
@[simp] theorem mbInt_wd (s : State) (i : Nat) : (mbInt s i).wd = s.wd := rfl
@[simp] theorem mbInt_pr (s : State) (i : Nat) : (mbInt s i).pr = s.pr := rfl
@[simp] theorem mbInt_tp (s : State) (i : Nat) : (mbInt s i).tp = s.tp := rfl
@[simp] theorem mbInt_pending (s : State) (i : Nat) : (mbInt s i).pending = s.pending := rfl

@[simp] theorem modSlot_clk (s : State) (i : Fin 128) (f : Slot → Slot) : (modSlot s i f).clk = s.clk := rfl
@[simp] theorem modSlot_sel (s : State) (i : Fin 128) (f : Slot → Slot) : (modSlot s i f).sel = s.sel := rfl
@[simp] theorem modSlot_gc (s : State) (i : Fin 128) (f : Slot → Slot) : (modSlot s i f).gc = s.gc := rfl
@[simp] theorem modSlot_ch (s : State) (i : Fin 128) (f : Slot → Slot) : (modSlot s i f).ch = s.ch := rfl
@[simp] theorem modSlot_port (s : State) (i : Fin 128) (f : Slot → Slot) : (modSlot s i f).port = s.port := rfl
@[simp] theorem modSlot_grLog (s : State) (i : Fin 128) (f : Slot → Slot) : (modSlot s i f).grLog = s.grLog := rfl
@[simp] theorem modSlot_ve (s : State) (i : Fin 128) (f : Slot → Slot) : (modSlot s i f).ve = s.ve := rfl
@[simp] theorem modSlot_ec (s : State) (i : Fin 128) (f : Slot → Slot) : (modSlot s i f).ec = s.ec := rfl
@[simp] theorem modSlot_st (s : State) (i : Fin 128) (f : Slot → Slot) : (modSlot s i f).st = s.st := rfl
@[simp] theorem modSlot_bt (s : State) (i : Fin 128) (f : Slot → Slot) : (modSlot s i f).bt = s.bt := rfl
@[simp] theorem modSlot_inst (s : State) (i : Fin 128) (f : Slot → Slot) : (modSlot s i f).inst = s.inst := rfl
@[simp] theorem modSlot_sq (s : State) (i : Fin 128) (f : Slot → Slot) : (modSlot s i f).sq = s.sq := rfl
@[simp] theorem modSlot_pd (s : State) (i : Fin 128) (f : Slot → Slot) : (modSlot s i f).pd = s.pd := rfl
@[simp] theorem modSlot_he (s : State) (i : Fin 128) (f : Slot → Slot) : (modSlot s i f).he = s.he := rfl
@[simp] theorem modSlot_lc (s : State) (i : Fin 128) (f : Slot → Slot) : (modSlot s i f).lc = s.lc := rfl
@[simp] theorem modSlot_otp (s : State) (i : Fin 128) (f : Slot → Slot) : (modSlot s i f).otp = s.otp := rfl
@[simp] theorem modSlot_mb (s : State) (i : Fin 128) (f : Slot → Slot) : (modSlot s i f).mb = s.mb := rfl
@[simp] theorem modSlot_fb (s : State) (i : Fin 128) (f : Slot → Slot) : (modSlot s i f).fb = s.fb := rfl
@[simp] theorem modSlot_os (s : State) (i : Fin 128) (f : Slot → Slot) : (modSlot s i f).os = s.os := rfl
@[simp] theorem modSlot_boot (s : State) (i : Fin 128) (f : Slot → Slot) : (modSlot s i f).boot = s.boot := rfl
@[simp] theorem modSlot_wd (s : State) (i : Fin 128) (f : Slot → Slot) : (modSlot s i f).wd = s.wd := rfl
@[simp] theorem modSlot_pr (s : State) (i : Fin 128) (f : Slot → Slot) : (modSlot s i f).pr = s.pr := rfl
@[simp] theorem modSlot_tp (s : State) (i : Fin 128) (f : Slot → Slot) : (modSlot s i f).tp = s.tp := rfl
@[simp] theorem modSlot_pending (s : State) (i : Fin 128) (f : Slot → Slot) : (modSlot s i f).pending = s.pending := rfl

@[simp] theorem modKvc_clk (s : State) (c : Core) (f : KvCore → KvCore) : (modKvc s c f).clk = s.clk := rfl
@[simp] theorem modKvc_sel (s : State) (c : Core) (f : KvCore → KvCore) : (modKvc s c f).sel = s.sel := rfl
@[simp] theorem modKvc_gc (s : State) (c : Core) (f : KvCore → KvCore) : (modKvc s c f).gc = s.gc := rfl
@[simp] theorem modKvc_ch (s : State) (c : Core) (f : KvCore → KvCore) : (modKvc s c f).ch = s.ch := rfl
@[simp] theorem modKvc_port (s : State) (c : Core) (f : KvCore → KvCore) : (modKvc s c f).port = s.port := rfl
@[simp] theorem modKvc_grLog (s : State) (c : Core) (f : KvCore → KvCore) : (modKvc s c f).grLog = s.grLog := rfl
@[simp] theorem modKvc_ve (s : State) (c : Core) (f : KvCore → KvCore) : (modKvc s c f).ve = s.ve := rfl
@[simp] theorem modKvc_ec (s : State) (c : Core) (f : KvCore → KvCore) : (modKvc s c f).ec = s.ec := rfl
@[simp] theorem modKvc_st (s : State) (c : Core) (f : KvCore → KvCore) : (modKvc s c f).st = s.st := rfl
@[simp] theorem modKvc_bt (s : State) (c : Core) (f : KvCore → KvCore) : (modKvc s c f).bt = s.bt := rfl
@[simp] theorem modKvc_inst (s : State) (c : Core) (f : KvCore → KvCore) : (modKvc s c f).inst = s.inst := rfl
@[simp] theorem modKvc_sq (s : State) (c : Core) (f : KvCore → KvCore) : (modKvc s c f).sq = s.sq := rfl
@[simp] theorem modKvc_pd (s : State) (c : Core) (f : KvCore → KvCore) : (modKvc s c f).pd = s.pd := rfl
@[simp] theorem modKvc_he (s : State) (c : Core) (f : KvCore → KvCore) : (modKvc s c f).he = s.he := rfl
@[simp] theorem modKvc_lc (s : State) (c : Core) (f : KvCore → KvCore) : (modKvc s c f).lc = s.lc := rfl
@[simp] theorem modKvc_otp (s : State) (c : Core) (f : KvCore → KvCore) : (modKvc s c f).otp = s.otp := rfl
@[simp] theorem modKvc_mb (s : State) (c : Core) (f : KvCore → KvCore) : (modKvc s c f).mb = s.mb := rfl
@[simp] theorem modKvc_fb (s : State) (c : Core) (f : KvCore → KvCore) : (modKvc s c f).fb = s.fb := rfl
@[simp] theorem modKvc_os (s : State) (c : Core) (f : KvCore → KvCore) : (modKvc s c f).os = s.os := rfl
@[simp] theorem modKvc_boot (s : State) (c : Core) (f : KvCore → KvCore) : (modKvc s c f).boot = s.boot := rfl
@[simp] theorem modKvc_wd (s : State) (c : Core) (f : KvCore → KvCore) : (modKvc s c f).wd = s.wd := rfl
@[simp] theorem modKvc_pr (s : State) (c : Core) (f : KvCore → KvCore) : (modKvc s c f).pr = s.pr := rfl
@[simp] theorem modKvc_tp (s : State) (c : Core) (f : KvCore → KvCore) : (modKvc s c f).tp = s.tp := rfl
@[simp] theorem modKvc_pending (s : State) (c : Core) (f : KvCore → KvCore) : (modKvc s c f).pending = s.pending := rfl

@[simp] theorem modLms_clk (s : State) (j : Fin 2) (f : LmsKey → LmsKey) : (modLms s j f).clk = s.clk := rfl
@[simp] theorem modLms_sel (s : State) (j : Fin 2) (f : LmsKey → LmsKey) : (modLms s j f).sel = s.sel := rfl
@[simp] theorem modLms_gc (s : State) (j : Fin 2) (f : LmsKey → LmsKey) : (modLms s j f).gc = s.gc := rfl
@[simp] theorem modLms_ch (s : State) (j : Fin 2) (f : LmsKey → LmsKey) : (modLms s j f).ch = s.ch := rfl
@[simp] theorem modLms_port (s : State) (j : Fin 2) (f : LmsKey → LmsKey) : (modLms s j f).port = s.port := rfl
@[simp] theorem modLms_grLog (s : State) (j : Fin 2) (f : LmsKey → LmsKey) : (modLms s j f).grLog = s.grLog := rfl
@[simp] theorem modLms_ve (s : State) (j : Fin 2) (f : LmsKey → LmsKey) : (modLms s j f).ve = s.ve := rfl
@[simp] theorem modLms_ec (s : State) (j : Fin 2) (f : LmsKey → LmsKey) : (modLms s j f).ec = s.ec := rfl
@[simp] theorem modLms_st (s : State) (j : Fin 2) (f : LmsKey → LmsKey) : (modLms s j f).st = s.st := rfl
@[simp] theorem modLms_bt (s : State) (j : Fin 2) (f : LmsKey → LmsKey) : (modLms s j f).bt = s.bt := rfl
@[simp] theorem modLms_inst (s : State) (j : Fin 2) (f : LmsKey → LmsKey) : (modLms s j f).inst = s.inst := rfl
@[simp] theorem modLms_sq (s : State) (j : Fin 2) (f : LmsKey → LmsKey) : (modLms s j f).sq = s.sq := rfl
@[simp] theorem modLms_pd (s : State) (j : Fin 2) (f : LmsKey → LmsKey) : (modLms s j f).pd = s.pd := rfl
@[simp] theorem modLms_he (s : State) (j : Fin 2) (f : LmsKey → LmsKey) : (modLms s j f).he = s.he := rfl
@[simp] theorem modLms_kv (s : State) (j : Fin 2) (f : LmsKey → LmsKey) : (modLms s j f).kv = s.kv := rfl
@[simp] theorem modLms_lc (s : State) (j : Fin 2) (f : LmsKey → LmsKey) : (modLms s j f).lc = s.lc := rfl
@[simp] theorem modLms_otp (s : State) (j : Fin 2) (f : LmsKey → LmsKey) : (modLms s j f).otp = s.otp := rfl
@[simp] theorem modLms_fb (s : State) (j : Fin 2) (f : LmsKey → LmsKey) : (modLms s j f).fb = s.fb := rfl
@[simp] theorem modLms_os (s : State) (j : Fin 2) (f : LmsKey → LmsKey) : (modLms s j f).os = s.os := rfl
@[simp] theorem modLms_boot (s : State) (j : Fin 2) (f : LmsKey → LmsKey) : (modLms s j f).boot = s.boot := rfl
@[simp] theorem modLms_wd (s : State) (j : Fin 2) (f : LmsKey → LmsKey) : (modLms s j f).wd = s.wd := rfl
@[simp] theorem modLms_pr (s : State) (j : Fin 2) (f : LmsKey → LmsKey) : (modLms s j f).pr = s.pr := rfl
@[simp] theorem modLms_tp (s : State) (j : Fin 2) (f : LmsKey → LmsKey) : (modLms s j f).tp = s.tp := rfl
@[simp] theorem modLms_pending (s : State) (j : Fin 2) (f : LmsKey → LmsKey) : (modLms s j f).pending = s.pending := rfl

@[simp] theorem modWd_clk (s : State) (w : Fin 5) (f : WdRt → WdRt) : (modWd s w f).clk = s.clk := rfl
@[simp] theorem modWd_sel (s : State) (w : Fin 5) (f : WdRt → WdRt) : (modWd s w f).sel = s.sel := rfl
@[simp] theorem modWd_gc (s : State) (w : Fin 5) (f : WdRt → WdRt) : (modWd s w f).gc = s.gc := rfl
@[simp] theorem modWd_ch (s : State) (w : Fin 5) (f : WdRt → WdRt) : (modWd s w f).ch = s.ch := rfl
@[simp] theorem modWd_port (s : State) (w : Fin 5) (f : WdRt → WdRt) : (modWd s w f).port = s.port := rfl
@[simp] theorem modWd_grLog (s : State) (w : Fin 5) (f : WdRt → WdRt) : (modWd s w f).grLog = s.grLog := rfl
@[simp] theorem modWd_ve (s : State) (w : Fin 5) (f : WdRt → WdRt) : (modWd s w f).ve = s.ve := rfl
@[simp] theorem modWd_ec (s : State) (w : Fin 5) (f : WdRt → WdRt) : (modWd s w f).ec = s.ec := rfl
@[simp] theorem modWd_st (s : State) (w : Fin 5) (f : WdRt → WdRt) : (modWd s w f).st = s.st := rfl
@[simp] theorem modWd_bt (s : State) (w : Fin 5) (f : WdRt → WdRt) : (modWd s w f).bt = s.bt := rfl
@[simp] theorem modWd_inst (s : State) (w : Fin 5) (f : WdRt → WdRt) : (modWd s w f).inst = s.inst := rfl
@[simp] theorem modWd_sq (s : State) (w : Fin 5) (f : WdRt → WdRt) : (modWd s w f).sq = s.sq := rfl
@[simp] theorem modWd_pd (s : State) (w : Fin 5) (f : WdRt → WdRt) : (modWd s w f).pd = s.pd := rfl
@[simp] theorem modWd_he (s : State) (w : Fin 5) (f : WdRt → WdRt) : (modWd s w f).he = s.he := rfl
@[simp] theorem modWd_kv (s : State) (w : Fin 5) (f : WdRt → WdRt) : (modWd s w f).kv = s.kv := rfl
@[simp] theorem modWd_lc (s : State) (w : Fin 5) (f : WdRt → WdRt) : (modWd s w f).lc = s.lc := rfl
@[simp] theorem modWd_otp (s : State) (w : Fin 5) (f : WdRt → WdRt) : (modWd s w f).otp = s.otp := rfl
@[simp] theorem modWd_mb (s : State) (w : Fin 5) (f : WdRt → WdRt) : (modWd s w f).mb = s.mb := rfl
@[simp] theorem modWd_fb (s : State) (w : Fin 5) (f : WdRt → WdRt) : (modWd s w f).fb = s.fb := rfl
@[simp] theorem modWd_os (s : State) (w : Fin 5) (f : WdRt → WdRt) : (modWd s w f).os = s.os := rfl
@[simp] theorem modWd_boot (s : State) (w : Fin 5) (f : WdRt → WdRt) : (modWd s w f).boot = s.boot := rfl
@[simp] theorem modWd_pr (s : State) (w : Fin 5) (f : WdRt → WdRt) : (modWd s w f).pr = s.pr := rfl
@[simp] theorem modWd_tp (s : State) (w : Fin 5) (f : WdRt → WdRt) : (modWd s w f).tp = s.tp := rfl
@[simp] theorem modWd_pending (s : State) (w : Fin 5) (f : WdRt → WdRt) : (modWd s w f).pending = s.pending := rfl

@[simp] theorem modTs_clk (s : State) (i : Fin 16) (f : TsRt → TsRt) : (modTs s i f).clk = s.clk := rfl
@[simp] theorem modTs_sel (s : State) (i : Fin 16) (f : TsRt → TsRt) : (modTs s i f).sel = s.sel := rfl
@[simp] theorem modTs_gc (s : State) (i : Fin 16) (f : TsRt → TsRt) : (modTs s i f).gc = s.gc := rfl
@[simp] theorem modTs_ch (s : State) (i : Fin 16) (f : TsRt → TsRt) : (modTs s i f).ch = s.ch := rfl
@[simp] theorem modTs_port (s : State) (i : Fin 16) (f : TsRt → TsRt) : (modTs s i f).port = s.port := rfl
@[simp] theorem modTs_grLog (s : State) (i : Fin 16) (f : TsRt → TsRt) : (modTs s i f).grLog = s.grLog := rfl
@[simp] theorem modTs_ve (s : State) (i : Fin 16) (f : TsRt → TsRt) : (modTs s i f).ve = s.ve := rfl
@[simp] theorem modTs_ec (s : State) (i : Fin 16) (f : TsRt → TsRt) : (modTs s i f).ec = s.ec := rfl
@[simp] theorem modTs_st (s : State) (i : Fin 16) (f : TsRt → TsRt) : (modTs s i f).st = s.st := rfl
@[simp] theorem modTs_bt (s : State) (i : Fin 16) (f : TsRt → TsRt) : (modTs s i f).bt = s.bt := rfl
@[simp] theorem modTs_inst (s : State) (i : Fin 16) (f : TsRt → TsRt) : (modTs s i f).inst = s.inst := rfl
@[simp] theorem modTs_sq (s : State) (i : Fin 16) (f : TsRt → TsRt) : (modTs s i f).sq = s.sq := rfl
@[simp] theorem modTs_pd (s : State) (i : Fin 16) (f : TsRt → TsRt) : (modTs s i f).pd = s.pd := rfl
@[simp] theorem modTs_he (s : State) (i : Fin 16) (f : TsRt → TsRt) : (modTs s i f).he = s.he := rfl
@[simp] theorem modTs_kv (s : State) (i : Fin 16) (f : TsRt → TsRt) : (modTs s i f).kv = s.kv := rfl
@[simp] theorem modTs_lc (s : State) (i : Fin 16) (f : TsRt → TsRt) : (modTs s i f).lc = s.lc := rfl
@[simp] theorem modTs_otp (s : State) (i : Fin 16) (f : TsRt → TsRt) : (modTs s i f).otp = s.otp := rfl
@[simp] theorem modTs_mb (s : State) (i : Fin 16) (f : TsRt → TsRt) : (modTs s i f).mb = s.mb := rfl
@[simp] theorem modTs_fb (s : State) (i : Fin 16) (f : TsRt → TsRt) : (modTs s i f).fb = s.fb := rfl
@[simp] theorem modTs_os (s : State) (i : Fin 16) (f : TsRt → TsRt) : (modTs s i f).os = s.os := rfl
@[simp] theorem modTs_boot (s : State) (i : Fin 16) (f : TsRt → TsRt) : (modTs s i f).boot = s.boot := rfl
@[simp] theorem modTs_pr (s : State) (i : Fin 16) (f : TsRt → TsRt) : (modTs s i f).pr = s.pr := rfl
@[simp] theorem modTs_tp (s : State) (i : Fin 16) (f : TsRt → TsRt) : (modTs s i f).tp = s.tp := rfl
@[simp] theorem modTs_pending (s : State) (i : Fin 16) (f : TsRt → TsRt) : (modTs s i f).pending = s.pending := rfl

end Sys2Proof.Machine
end

