-- ==== Sys2Proof/Tests/Slice0.lean ====
section
/-! SUPPORT. Tests of the model: each well-formedness condition refuses a term that breaks it, each statement with
hypotheses has a concrete witness of every one of its clauses, and single commands give the values the specification
states. -/

namespace Sys2Proof.Tests

open Sys2Proof Sys2Proof.Machine

set_option Elab.async false

/-- The state after power-on with the device reset released. -/
def live : State := { State.reset with pd := { State.reset.pd with inReset := false } }

/-- The state of an outcome. -/
def after (o : Host.Outcome State Fault Refusal) : State :=
  match o with
  | .next t => t
  | _ => State.reset

/-- A pair is its known first part and its second part. -/
theorem pair_of_fst {α β : Type} {x : α × β} {a : α} (h : x.1 = a) : ∃ b, x = (a, b) := ⟨x.2, h ▸ rfl⟩

theorem some_pair {α β : Type} {x : Option α × β} (h : x.1.isSome = true) : ∃ a b, x = (some a, b) := by
  obtain ⟨o, b⟩ := x
  cases o with
  | none => cases h
  | some a => exact ⟨a, b, rfl⟩

/-- These bytes in the cells from an address on. -/
def cellsAt (a : Nat) (l : List Byte) : List Host.Cell := (List.range l.length).zip l |>.map (fun x => (a + x.1, x.2))

/-- A valid secret of the hearth, of every use. -/
def keySlot : Slot := { typ := 1, isRoot := true, usage := 0xFF, material := List.replicate 32 0 }

/-- A host transaction with no data phase. -/
def txn (op : Byte) : HostTxn := ⟨op, 0, 0, 0, 0, true, [], [], none, false, []⟩

/-- A one-page frame of a flue with this type, argument and payload. -/
def frm (typ : Byte) (arg : Word) (payload : List Byte) : FabFrame := ⟨typ, 0, 0, 8, 0xFD, 1, 0, 0, arg, payload⟩
/-! Well-formedness: every condition refuses a term that breaks it. -/

theorem test_wf_register_width : (Instr.registerWrite (.core 0) 0 64 0).wellFormed = false := by decide
theorem test_wf_txn_data : (Instr.read 0 { txn 3 with data := [1] }).wellFormed = false := by decide
theorem test_wf_txn_units : (Instr.wren 0 { txn 6 with units := 2 ^ 29 + 1 }).wellFormed = false := by decide
theorem test_wf_fill_length : (Instr.fillComplete 0 [1]).wellFormed = false := by decide
theorem test_wf_portal_count : (Instr.portalReadBurst 0 ⟨0, 65536, []⟩).wellFormed = false := by decide
theorem test_wf_portal_words : (Instr.portalWriteBurst 0 ⟨0, 2, [1]⟩).wellFormed = false := by decide
theorem test_wf_abort_edges : (Instr.rawAbort (.core 0) 32769 []).wellFormed = false := by decide
theorem test_wf_abort_bits : (Instr.rawAbort (.core 0) 0 [true]).wellFormed = false := by decide
theorem test_wf_raw_bits : (Instr.rawTransferEnd 0 (List.replicate 4097 true)).wellFormed = false := by decide +kernel
theorem test_wf_mctp_length : (Instr.mctpPacketRx 0 (List.replicate 70 0)).wellFormed = false := by decide +kernel
theorem test_wf_frame_words : (Instr.helloRx 0 (frm 1 0 [1])).wellFormed = false := by decide
theorem test_wf_frame_length : (Instr.msgRx 0 (frm 16 0 (List.replicate 260 0))).wellFormed = false := by decide +kernel
theorem test_wf_piece_length : (Instr.recoveryPiece .ms0 0 (List.replicate 65536 0)).wellFormed = false := by decide +kernel
theorem test_wf_block_number : (Instr.vblockRx ⟨false, 0, 2 ^ 32, 0⟩).wellFormed = false := by decide
theorem test_wf_pair_msg_empty : (Instr.pairMsgRx []).wellFormed = false := by decide
theorem test_wf_pair_msg_long : (Instr.pairMsgRx (List.replicate 17 0)).wellFormed = false := by decide
theorem test_wf_detector : (Instr.tamperEvent 0 65536).wellFormed = false := by decide
theorem test_wf_plain : (Instr.wren 0 (txn 6)).wellFormed = true := by decide

/-- The operation table gives no row bits, so no word spells a command. -/
theorem test_no_word_spells_a_command : decodeTableWord 32 0x13 = none := by decide

/-! The block's step, its queue and its invariants. -/

theorem test_hyps_StepExecutesTheFrontCommand :
    ({ live with pending := [.tinderStart, .aoRestart] } : State).pending = .tinderStart :: [.aoRestart] := by decide +kernel

theorem test_hyps_IdleStepIsOneCoreCycle : live.pending = [] := by decide +kernel

theorem test_hyps_EveryStepKeepsMemoriesCanonical :
    MemoriesCanonical { live with otp := [(0x320, 1)] } ∧ ∃ t, step { live with otp := [(0x320, 1)] } = .next t := by
  refine ⟨?_, ?_⟩
  · unfold MemoriesCanonical; decide +kernel
  · exact ⟨_, rfl⟩

theorem test_hyps_NoStepClearsAnOtpBit :
    MemoriesCanonical { live with otp := [(0x320, 1)] } ∧ memGet 0 [((0x320 : Nat), (1 : Byte))] 0x320 = 1 := by
  refine ⟨?_, ?_⟩
  · unfold MemoriesCanonical; decide +kernel
  · decide

theorem test_hyps_NoStepTurnsTimeBack : ∃ t, step { live with pending := [.logDrain true] } = .next t := ⟨_, rfl⟩

theorem test_hyps_DeviceResetHoldsEverythingElse :
    State.reset.pd.inReset = true ∧ ActsInReset (.load (.core 0)) = false := by decide +kernel

/-! The management address space and the portal. -/

/-- `live` with every window open to every external master. -/
def openWin : State := { live with gc := { live.gc with portals := Vector.replicate 6 { readMask := 0xFFFFFFFF#32, writeMask := 0xFFFFFFFF#32 } } }

theorem test_hyps_RegisterWritesActAsTheirAccessCodesState :
    (live.pd.inReset = false ∧ CoreReaches live 0 (0x0D0000#24).toNat ∧ (live.he.cores[(0 : Core)]).st ≠ .nmi) ∧
    (openWin.pd.inReset = false ∧ (openWin.gc.portals[(5 : Fin 6)]).writeMask.getLsbD 5 = true ∧ lcDead openWin = false ∧
      burstCheck openWin 5 { addr := 0x050054, count := 1, words := [1] } true = 0) ∧
    (live.gc.portals[(0 : Fin 6)]).writeMask.getLsbD 5 = false ∧
    (8 ≠ 32 ∨ (0x050054#24).toNat % 4 ≠ 0) ∧ (32 ≠ 32 ∨ (0x050055#24).toNat % 4 ≠ 0) := by
  unfold CoreReaches; decide +kernel

theorem test_hyps_ReadsHaveTheirSideEffects :
    (live.pd.inReset = false ∧ CoreReaches live 3 (0x040018#24).toNat ∧ live.ec.parity ≤ 0xFFFF ∧ live.bt.peakFill < 8192) ∧
    (openWin.pd.inReset = false ∧ burstCheck openWin 2 { addr := 0x010008, count := 1, words := [] } false = 0 ∧
      burstCheck live 2 { addr := 0x010008, count := 1, words := [] } false ≠ 0) ∧
    (let s : State := { live with sel := Vector.replicate 10 { bcast := true } }
     s.pd.inReset = false ∧ (selOf s (.core 0)).bcast = true) := by
  unfold CoreReaches; decide +kernel

theorem test_hyps_PortalFramesAreAnswered :
    (live.pd.inReset = false ∧ (1 : Fin 6).val < 2 ∧ burstCheck live 1 ⟨0x060008, 2, []⟩ false = 2) ∧
    burstCheck openWin 1 ⟨0x060008, 0, []⟩ false = 3 ∧ burstCheck openWin 1 ⟨0x060008, 1025, []⟩ false = 3 ∧
    burstCheck openWin 1 ⟨0x060008, 2, []⟩ false = 0 ∧
    (openWin.pd.inReset = false ∧ burstCheck openWin 0 ⟨0x060008, 2, [1, 2]⟩ true = 0 ∧
      (openWin.gc.portals[(0 : Fin 6)]).writeMask.getLsbD 6 = true ∧ lcDead openWin = false) ∧
    (live.gc.portals[(0 : Fin 6)]).frameErr ≤ 255 := by decide +kernel

/-- A frame that breaks off is counted (GC_PORTAL_STS.FRAME_ERR). -/
theorem test_portal_frame_error_counts :
    ((after (exec (.portalFrameError 0 false) live)).gc.portals[(0 : Fin 6)]).frameErr = 1 := by decide +kernel

/-! Power-on, resets, supplies and the boot. -/

theorem test_hyps_WarmResetsResetAndRecordTheirCause :
    1000 ≤ 1000 ∧ 99 < 100 ∧ (100 ≤ 100 ∧ 999 < 1000) ∧
    (let s : State := { live with pd := { live.pd with cold := false }, wd := { live.wd with hardAt := some 0 }
                                  he := { live.he with cores := live.he.cores.set (0 : Fin 4) { st := .nmi } } }
     s.pd.inReset = false ∧ s.pd.cold = false ∧ (s.he.cores[(0 : Core)]).st = .nmi ∧ (s.he.cores[(1 : Core)]).st ≠ .nmi ∧
       s.wd.hardAt = some 0) := by decide +kernel

theorem test_hyps_SuppliesHoldAndReleaseTheReset :
    1000 ≤ 1000 ∧ 999 < 1000 ∧ ({ State.reset.pd with holdSupply := true } : Pd).holdSupply = true ∧
    (State.reset.pd.inReset = true ∧ State.reset.pd.released = false ∧ State.reset.pd.holdSupply = false ∧
      State.reset.pd.holdHalt = false) ∧
    live.pd.inReset = false ∧ (((13 : Fin 15).val = 14 → true = false) ∧ live.pd.lvlSeen.getLsbD 13 = false) ∧
    (let s : State := { live with pd := { live.pd with lvlSeen := 1 } }
     s.pd.lvlSeen.getLsbD 0 = true ∧ s.pd.bankLvl.getLsbD 0 ≠ true) := by decide +kernel

/-- Once the core supply has been back for 1 ms the AO domain leaves its battery (R284, R453). -/
theorem test_core_supply_back :
    (after (exec .coreSupplyRestored { State.reset with pd := { State.reset.pd with holdSupply := true }
                                                        tp := { State.reset.tp with battery := true } })).tp.battery = false := by
  decide +kernel

theorem test_hyps_BootRunsOnceAndExtendsTally0 :
    ({ live.boot with ran := true } : Rec).ran = true ∧
    State.reset.pd.released = false ∧
    (let s : State := { State.reset with pd := { State.reset.pd with released := true } }
     s.pd.released = true ∧ s.boot.ran = false ∧ lcState s = .blank ∧ openMarks s = [] ∧ s.tp.ao.pend = 0 ∧
      s.tp.ao.unchained = 0 ∧ s.tp.ao.deferResp = 0 ∧ s.kv.loaded = false) ∧
    (let s : State := { live with boot := { live.boot with boot := some 1 } }
     s.pd.inReset = false ∧ s.boot.boot = some 1 ∧ s.boot.kindling = false ∧ (s.he.cores[(0 : Core)]).st = .running) ∧
    live.boot.boot = none ∧ live.ve.engines[(11 : Fin 12)] = none ∧
    (let r : EngRun := { job := { tier := 0, billet := 0, cost := 1, aged := false, enq := 0 }, startAt := 0 }
     let s : State := { live with ve := { live.ve with engines := live.ve.engines.set (11 : Fin 12) (some r) } }
     s.ve.engines[(11 : Fin 12)] = some r) := by decide +kernel

/-! Host transactions. Channel 0 has one 64 KiB segment at address 0 of FP0 and, in its opcode table, an opcode of the class
wanted. -/

/-- A table entry: class, address length code, OPACT, and the bits above. -/
def opw (cls alen act hi : Nat) : Word := BitVec.ofNat 32 (cls + 32 * alen + 2 ^ 20 + act * 2 ^ 24 + hi)

/-- A channel whose opcode `op` has this entry. -/
def chanOp (op : Fin 256) (e : Word) : Chan :=
  { cfg := { rst := { hclk := 10, opc := (Vector.replicate 256 0).set op e }, segs := [⟨0, 65536, 0, 0, false⟩] } }

/-- `live` after the lock, with this channel 0. -/
def port0 (k : Chan) : State := { live with ch := live.ch.set (0 : Fin 32) k, ec := { live.ec with locked := true } }

/-- A transaction of opcode 3 at this address. -/
def tx3 (addr : Word) (units : Nat) : HostTxn := { txn 3 with addr := addr, cmdNs := 100000, units := units, data := [] }

/-- Every class's opcode in turn is taken as that class; under another class's entry it is not. -/
theorem test_hyps_HostRowsNeedTheirClass :
    connected live.ch[(0 : Ch)] = false ∧ live.ec.locked = false ∧
    (∀ cls : Fin 18, let s := port0 (chanOp 3 (opw ((cls.val + 1) % 18) 0 1 0))
      txnClass (hostFall s.ch[(0 : Ch)]) (tx3 0 0) ≠ cls.val) ∧
    (let s : State := { port0 (chanOp 3 (opw 4 0 1 0)) with pr := { live.pr with cut := 1 } }
     s.pd.inReset = false ∧ s.ec.locked = true ∧ connected s.ch[(0 : Ch)] = true ∧ s.pr.cut.getLsbD 0 = true ∧
       txnClass (hostFall s.ch[(0 : Ch)]) (tx3 0 0) = 4) := by decide +kernel

theorem test_hyps_HostCommandsChangeTheirOwnBits :
    (∀ cls : Fin 18, cls.val ∈ [4, 5, 11, 12, 13, 14, 15, 16, 17] → let s := port0 (chanOp 3 (opw cls.val 0 1 0))
      (s.pd.inReset = false ∧ connected s.ch[(0 : Ch)] = true ∧ s.pr.cut.getLsbD 0 = false ∧
        txnClass (hostFall s.ch[(0 : Ch)]) (tx3 0 0) = cls.val) ∧
      (overspeed (hostBegin s 0).ch[(0 : Ch)] (hostOpc s 0 (tx3 0 0)) (tx3 0 0) = false ∧
        opcAct (hostOpc s 0 (tx3 0 0)) = 1 ∧ opcLog (hostOpc s 0 (tx3 0 0)) = false) ∧
      (tx3 0 0).whole = true ∧ (tx3 0 0).units = 0 ∧ s.ch[(0 : Ch)].rstArmed = false) ∧
    (port0 { chanOp 3 (opw 15 0 1 0) with rstArmed := true }).ch[(0 : Ch)].rstArmed = true ∧
    (∀ on : Bool, ({ chanOp 3 0 with next := some (.addr4 on) } : Chan).next = some (.addr4 on)) ∧
    ({ chanOp 3 0 with next := some .proto } : Chan).next = some .proto ∧
    ({ chanOp 3 0 with next := some .reset } : Chan).next = some .reset := by decide +kernel

theorem test_hyps_WrregWritesTheWritableBits :
    ∀ wel alt : Bool, let s := port0 { chanOp 3 (opw 8 0 1 0) with wel := wel, altOn := alt }
      HostTakes s 0 (tx3 0 1) 8 ∧ HostActs s 0 (tx3 0 1) 1 ∧ (tx3 0 1).whole = true ∧ 1 ≤ (tx3 0 1).units ∧
      (grVerdict (hostBegin s 0) 0 1).ch[(0 : Ch)].wel = wel ∧ (grVerdict (hostBegin s 0) 0 1).ch[(0 : Ch)].altOn = alt ∧
      (grVerdict (hostBegin s 0) 0 1).ch[(0 : Ch)].wip = false := by
  unfold HostTakes HostActs; decide +kernel

theorem test_hyps_HostDataRowsServeTheirRegisters :
    ∀ cls : Fin 18, cls.val ∈ [6, 7, 9, 10] → let s := port0 (chanOp 3 (opw cls.val 0 1 0))
      s.pd.inReset = false ∧ (tx3 0 4).polls = [] ∧ HostTakes s 0 (tx3 0 4) cls.val ∧ HostActs s 0 (tx3 0 4) 1 := by
  unfold HostTakes HostActs; decide +kernel

/-- A channel with no known opcode, which escalates an unknown one or not. -/
def unkSt (esc : Bool) : State :=
  let k := chanOp 3 0
  port0 { k with cfg := { k.cfg with grctl := if esc then 0x4000 else 0 } }

theorem test_hyps_DeniedAndAbnormalHostRows :
    (∀ cls : Fin 18, cls = 6 ∨ cls = 4 ∨ cls = 8 → (cls.val ∈ dataClasses ∨ cls.val ∈ commandClasses) ∧
      ∀ act : Fin 4, act.val ≠ 0 → let s := port0 (chanOp 3 (opw cls.val 0 act.val 0))
        HostTakes s 0 (tx3 0 1) cls.val ∧ HostActs s 0 (tx3 0 1) act.val ∧
        (cls.val ∈ commandClasses → hostDone cls.val (tx3 0 (if cls.val = 8 then 1 else 0)) = true ∧
          hostDone cls.val (tx3 0 (if cls.val = 8 then 0 else 1)) = false) ∧
        overspeed (hostBegin s 0).ch[(0 : Ch)] (hostOpc s 0 (tx3 0 1)) { tx3 0 1 with cmdNs := 0 } = true) ∧
    (∀ esc : Bool, HostTakes (unkSt esc) 0 (tx3 0 1) 0 ∧ unkEsc (hostBegin (unkSt esc) 0).ch[(0 : Ch)] = esc ∧
      tooFast (hostBegin (unkSt esc) 0).ch[(0 : Ch)] (opcEdges (hostBegin (unkSt esc) 0).ch[(0 : Ch)]) (tx3 0 1) = false) := by
  unfold HostTakes HostActs; decide +kernel

/-- A READ opcode with a 3-byte address over one enabled descriptor with this ACT word. -/
def rdChan (opact : Nat) (en : Bool) (act : Word) : Chan :=
  let k := chanOp 3 (opw 1 1 opact 0)
  { k with cfg := { k.cfg with desc := k.cfg.desc.set (0 : Fin 64) ⟨if en then 1 else 0, 0x0000F000, act, 0xF⟩ } }

/-- Ember 1 of channel 0, and its frame. -/
def ember1 : EmberId := ⟨0, 0, false, 1, 1, 255, .a⟩
def frame1 : Frame := ⟨.valid, ember1, false, 0, false, List.replicate 4096 0x5A⟩

/-- Channel 0 verified at page 1, the ember resident. -/
def readSt : State :=
  let s := port0 (rdChan 0 true 0xFF000001)
  { s with ec := { s.ec with frames := [(7, frame1)] } }

theorem test_hyps_ReadServesTheResidentEmberOrDenyData :
    (∀ act : Fin 4, let s := port0 (rdChan act.val false 0)
      let b := hostBegin s 0
      let t := tx3 0x1F00 256
      HostTakes s 0 t 1 ∧ overspeed b.ch[(0 : Ch)] (hostOpc s 0 t) t = false ∧
      opcLog (hostOpc s 0 t) = false ∧
      txnAddr b.ch[(0 : Ch)] (hostOpc s 0 t) t % 4096 + t.units * unitLen b.ch[(0 : Ch)] ≤ 4096 ∧
      opcAct (hostOpc s 0 t) = act.val ∧ windowAt b b.ch[(0 : Ch)] 0 0x1F00 = none ∧
      governing b.ch[(0 : Ch)] 1 = none) ∧
    (let b := hostBegin readSt 0
     let k := b.ch[(0 : Ch)]
     let t := tx3 0x1F00 256
     HostTakes readSt 0 t 1 ∧ overspeed k (hostOpc readSt 0 t) t = false ∧
     opcAct (hostOpc readSt 0 t) = 0 ∧ windowAt b k 0 0x1F00 = none ∧ governing k 1 = some 0 ∧
     rgnRd k.cfg.desc[(0 : Fin 64)] = 1 ∧ isSubst k 0 = false ∧ rgnOpen k.cfg.desc[(0 : Fin 64)] = false ∧
     emberAt k 0 0 false 0x1F00 = some ember1 ∧ (residentFrame b ember1).map (·.1) = some 7 ∧ t.parity = none) := by
  unfold HostTakes; decide +kernel

/-- The host gets the ember's bytes. -/
theorem test_read_serves_the_ember :
    ((after (exec (.read 0 (tx3 0x1FFE 2)) readSt)).ch[(0 : Ch)]).hostOut = [0x5A, 0x5A] := by decide +kernel

/-- A PROGRAM or ERASE opcode with a 3-byte address over one enabled descriptor that allows or denies it. -/
def wrSt (er : Bool) (code : Nat) (wel : Bool) : State :=
  let k := chanOp 3 (opw (if er then 3 else 2) 1 0 0)
  port0 { k with wel := wel, cfg := { k.cfg with desc := k.cfg.desc.set (0 : Fin 64) ⟨1, 0x0000F000, BitVec.ofNat 32 (code * 72), 0xF⟩ } }

theorem test_hyps_ProgramAndEraseCommitOrDrop :
    ∀ er wel allow : Bool, let s := wrSt er (if allow then 1 else 0) wel
      let t := { tx3 0x1000 (if er then 0 else 1) with data := if er then [] else [7] }
      let u := { tx3 0x1000 (if er then 1 else 0) with data := [] }
      let b := hostBegin s 0
      let k := b.ch[(0 : Ch)]
      let e := hostOpc s 0 t
      let v := wrJudge k e 0x1000 er
      HostTakes s 0 t (if er then 3 else 2) ∧ windowAt s (hostFall s.ch[(0 : Ch)]) 0 (txnAddr (hostFall s.ch[(0 : Ch)]) e t) = none ∧ overspeed k e t = false ∧
      opcLog e = false ∧ txnAddr k e t = 0x1000 ∧
      v.rgn.all (fun i => !rgnLog k.cfg.desc[i] && !rgnAlert k.cfg.desc[i]) = true ∧ v.code = (if allow then 1 else 0) ∧
      (if er then bareDone t else progDone t k) = true ∧ (if er then bareDone u else progDone u k) = false ∧
      k.wel = wel ∧ k.wip = false ∧ physIn k .a 0x1000 = some (0, false, 0x1000) := by
  unfold HostTakes; decide +kernel

/-- An allowed program sets WIP. -/
theorem test_program_sets_wip :
    ((after (exec (.program 0 { tx3 0x1000 1 with data := [7] }) (wrSt false 1 true))).ch[(0 : Ch)]).wip = true := by
  decide +kernel

/-! Flash-side ports, raw transfers and the grate's own rows. -/

/-- An access of billet 18, and the billet. -/
def acc18 (k : AccKind) : Access := { item := ⟨18, 0, 1, 0⟩, kind := k, head := false, aged := false, startAt := 0, div := 60 }
def unit18 (w : Work) : Billet :=
  { st := .running, cls := .fill, owner := .ch 0, src := .reservation, parent := none, drawn := 0, work := w }

/-- Port 0 with this access in progress by billet 18, whose work is this; channel 0's segment lies on it. -/
def portSt (k : AccKind) (w : Work) : State :=
  let s := port0 (rdChan 0 true 0xFF000001)
  { s with port := s.port.set (0 : Fin 32) { cur := some (acc18 k) }
           bt := { s.bt with units := [(18, unit18 w)] } }

/-- Port 0 with a committed write of channel 0 at work on it. -/
def wrPort (k : AccKind) : State :=
  let s := portSt k (.write 0)
  { s with ch := s.ch.set (0 : Fin 32) { chanOp 3 0 with wip := true, wr := some ⟨0, false, 0x1000, .erase4, false, .queued, some 18⟩
                                                         cfg := { (chanOp 3 0).cfg with cs0 := { wipMask := 1 } } } }

theorem test_hyps_FlashAccessesRunToTheirEnd :
    ((portSt .read (.write 0)).port[(0 : Ch)].cur).isSome = true ∧
    (let s : State := { live with port := live.port.set (0 : Fin 32) { heads := [⟨18, 0, 1, 0⟩] } }
     s.pd.inReset = false ∧ isBanked s = false ∧ s.port[(0 : Ch)].cur = none ∧ s.ch[(0 : Ch)].raw.own = false ∧
       s.port[(0 : Ch)].heads = ⟨18, 0, 1, 0⟩ :: []) ∧
    (let s := portSt .read (.fill ember1 .demand 7)
     s.pd.inReset = false ∧ s.port[(0 : Ch)].cur = some (acc18 .read) ∧
       (List.replicate 4096 (0 : Byte)).length = 4096 ∧
       unitOf s 18 = some (unit18 (.fill ember1 .demand 7)) ∧
       s.ch[ember1.ch].slots.any (fun x => x.billet = 18) = false ∧ isServing s ember1 = true) ∧
    (let s := wrPort .write
     s.pd.inReset = false ∧ s.port[(0 : Ch)].cur = some (acc18 .write) ∧
       unitOf s 18 = some (unit18 (.write 0)) ∧
       s.ch[(0 : Ch)].wr = some ⟨0, false, 0x1000, .erase4, false, .queued, some 18⟩ ∧
       (∀ c : Ch, (s.ch[c].wr.map (fun w => w.billet.isSome)).getD true = true)) ∧
    (let s := wrPort .status
     s.port[(0 : Ch)].cur = some (acc18 .status) ∧ (1 : Byte) &&& s.ch[(0 : Ch)].cfg.cs0.wipMask ≠ 0 ∧
       (0xFE : Byte) &&& s.ch[(0 : Ch)].cfg.cs0.wipMask = 0) := by decide +kernel

/-- A status read that shows the flash idle clears WIP (R91). -/
theorem test_idle_status_clears_wip :
    ((after (exec (.statusPoll 0 0) (wrPort .status))).ch[(0 : Ch)]).wip = false := by decide +kernel

/-- Core 0 selecting FP0 and this raw state of it. -/
def rawSt (r : Raw) : State := { live with ch := live.ch.set (0 : Fin 32) { raw := r } }

theorem test_hyps_RawTransfersFollowOwnership :
    (live.pd.inReset = false ∧ selOf live (.core 0) = { selOf live (.core 0) with ch := 0, bcast := false }) ∧
    ((rawSt {}).ch[(0 : Ch)].raw.ownReq = false ∧ queuedFills (rawSt {}) 0 = []) ∧
    (let s := rawSt { ownReq := true }
     isBanked s = false ∧ s.ch[(0 : Ch)].raw.own = false ∧ fillsOn s 0 = false ∧ (∀ c : Ch, (portsOf s.ch[c]).contains 0 = true → hostHeld s c = true)) ∧
    ((rawSt {}).ch[(0 : Ch)].raw.busy = false ∧ (rawSt {}).ch[(0 : Ch)].raw.own = false) ∧
    (let r : Raw := { own := true, len := 8, out := 9 }
     r.busy = false ∧ r.own = true ∧ r.len.toNat < r.out.toNat) ∧
    (let r : Raw := { own := true, len := 8, out := 8, lanes := 3 }
     r.out.toNat ≤ r.len.toNat ∧ 8 ≤ (8 : Ch).val ∧ (r.lanes = 3 ∨ r.ddr = true) ∧ (7 : Ch).val < 8) ∧
    (let r : Raw := { own := true, len := 0, out := 4096, lanes := 2 }
     r.out.toNat ≤ (if r.len = 0 then 4096 else r.len.toNat) ∧ r.lanes ≠ 3 ∧ r.ddr = false) ∧
    (rawSt { own := true, busy := true }).ch[(0 : Ch)].raw.busy = true := by decide +kernel

/-- A dual transfer of 16 bits clocks 8 edges (R61). -/
theorem test_raw_start_counts_edges :
    ((after (exec (.rawStart (.core 0)) (rawSt { own := true, len := 16, out := 8, lanes := 1 }))).ch[(0 : Ch)]).raw.edges = 8 := by
  decide +kernel

theorem test_hyps_EscalationHoldsEndAsTheModeSays :
    (let s := port0 { escHeld := true }
     s.pd.inReset = false ∧ s.ch[(0 : Ch)].escHeld = true ∧ s.ch[(0 : Ch)].escForever = false) ∧
    (port0 { escHeld := true, escForever := true }).ch[(0 : Ch)].escForever = true ∧
    (live.pd.inReset = false ∧ (selOf live (.core 0)).bcast = false) := by decide +kernel

/-- The bits written 1 leave the substituted state, the others stay. -/
theorem test_subst_clear :
    ((after (exec (.substClear (.core 0) true 1) (port0 { subst := 0x300000001#64 }))).ch[(0 : Ch)]).subst = 0x200000001#64 := by
  decide +kernel

theorem test_hyps_AdjustableDescriptorsTakeOnlyTheirFields :
    (live.pd.inReset = false ∧ (selOf live (.core 0)).bcast = false ∧ live.ch[(0 : Ch)].locked = false) ∧
    (let k : Chan := { locked := true, cfg := { desc := (Vector.replicate 64 {}).set 0 ⟨1, 0, 0x00040000#32, 0xF⟩ } }
     k.locked = true ∧ (k.cfg.desc[(0 : Fin 64)]).act.getLsbD 18 = true ∧ (k.cfg.desc[(1 : Fin 64)]).act.getLsbD 18 = false) := by
  decide +kernel

/-- A leaf journal's record is due. -/
def leafDue : State := { live with mb := { live.mb with lms := live.mb.lms.set (0 : Fin 2) { valid := true, jbusy := true } } }

/-- A record of the grate waits to be drained. -/
def drainSt : State := { live with grLog := { live.grLog with head := 1, recs := [(0, 0)], times := [0] } }

theorem test_hyps_LogDrainTakesTheOldestRecord :
    (live.pd.inReset = false ∧ drainOrder live = []) ∧
    osErasing { live with os := { live.os with op := some ⟨2, 0, [], some 0⟩ } } = true ∧ leafPending leafDue = true ∧
    (drainSt.pd.inReset = false ∧ osErasing drainSt = false ∧ leafPending drainSt = false ∧ oldest (drainOrder drainSt) = some (1, 0) ∧
      ∃ u, draw .bg .hearth none false .drain drainSt = (some 1024, u)) :=
  ⟨by decide +kernel, by decide +kernel, by decide +kernel, by decide +kernel, by decide +kernel, by decide +kernel,
   by decide +kernel, pair_of_fst (by decide +kernel)⟩

/-! The verification engine. A signature of one LMS level over any message, by the key whose root it gives: the checks are
met by it without a hash being worked out. -/

theorem slice_append (x y : List Byte) (a n : Nat) (h : a + n ≤ x.length) : slice (x ++ y) a n = slice x a n := by
  unfold slice
  rw [List.drop_append_of_le_length (by omega), List.take_append_of_le_length (by simp; omega)]

theorem slice_right (x y : List Byte) (n : Nat) (h : n = y.length) : slice (x ++ y) x.length n = y := by
  simp [slice, h]

theorem beBytes_length (n v : Nat) : (beBytes n v).length = n := by
  induction n with
  | zero => rfl
  | succ n ih => simp [beBytes, ih]

theorem hashN_length (m : List Byte) : (hashN 32 m).length = 32 := by simp [hashN, digBytes, beBytes_length]

def sigHead : List Byte := [0, 0, 0, 5, 0, 0, 0, 4] ++ List.replicate 16 0
def sigBytes : List Byte :=
  [0, 0, 0, 0, 0, 0, 0, 4] ++ List.replicate 1120 0 ++ [0, 0, 0, 5] ++ List.replicate 160 0

/-- The root that `sigBytes` gives for a message. -/
def sigRoot (msg : List Byte) : List Byte :=
  lmsClimb 32 (List.replicate 16 0) (chunks 32 5 (slice sigBytes 1132 160)) 32
    (hashN 32 (List.replicate 16 0 ++ beBytes 4 32 ++ [0x82#8, 0x82#8] ++
      otsCand (List.replicate 16 0) 0 (slice sigBytes 4 1124) msg 32 8 34 0))

theorem lmsClimb_length (I : List Byte) (l : List (List Byte)) (r : Nat) (x : List Byte) (h : x.length = 32) :
    (lmsClimb 32 I l r x).length = 32 := by
  induction l generalizing r x with
  | nil => simpa [lmsClimb] using h
  | cons y ys ih => exact ih _ _ (hashN_length _)

theorem sigRoot_length (msg : List Byte) : (sigRoot msg).length = 32 := lmsClimb_length _ _ _ _ (hashN_length _)

theorem lms_of_root (msg : List Byte) : lmsVerify (sigHead ++ sigRoot msg) sigBytes msg = true := by
  have hr : slice (sigHead ++ sigRoot msg) 24 32 = sigRoot msg := slice_right _ _ _ (sigRoot_length msg).symm
  have h8 : slice (sigHead ++ sigRoot msg) 8 16 = List.replicate 16 0 := by
    rw [slice_append _ _ _ _ (by decide)]; decide
  have h0 : be32 (sigHead ++ sigRoot msg) 0 = 5 := by
    unfold be32; rw [slice_append _ _ _ _ (by decide)]; decide
  have h4 : be32 (sigHead ++ sigRoot msg) 4 = 4 := by
    unfold be32; rw [slice_append _ _ _ _ (by decide)]; decide
  have hq : be32 sigBytes 0 = 0 := by decide +kernel
  have ht : be32 sigBytes 4 = 4 := by decide +kernel
  have hl : be32 sigBytes 1128 = 5 := by decide +kernel
  have hn : sigBytes.length = 1292 := by decide +kernel
  simp only [lmsVerify, h0, h4, lmsType, otsType, h8, hq, ht]
  simp only [Nat.le_refl, show (5 : Nat) ≤ 9 from by decide, and_self, if_true, Nat.reduceMul, Nat.reduceAdd, Nat.reduceSub,
    Nat.reducePow, hl, hn]
  rw [if_pos (by decide)]
  rw [hr]
  exact decide_eq_true rfl

/-- The 60-byte key that `sigBytes` verifies under, and the one-level HSS signature. -/
def hssKey (msg : List Byte) : List Byte := [0, 0, 0, 1] ++ (sigHead ++ sigRoot msg)
def hssSig : List Byte := [0, 0, 0, 0] ++ sigBytes

theorem hss_passes_ext (same : Bool) (msg rest : List Byte) : hssCheck same (hssKey msg) (hssSig ++ rest) 1296 msg = .pass := by
  have hk : hssKey msg = ([0, 0, 0, 1] ++ sigHead) ++ sigRoot msg := by simp [hssKey]
  have h0 : be32 (hssKey msg) 0 = 1 := by rw [hk]; unfold be32; rw [slice_append _ _ _ _ (by decide)]; decide
  have h4 : be32 (hssKey msg) 4 = 5 := by rw [hk]; unfold be32; rw [slice_append _ _ _ _ (by decide)]; decide
  have hs : be32 (hssSig ++ rest) 0 = 0 := by unfold be32; rw [slice_append _ _ _ _ (by decide +kernel)]; decide +kernel
  have hd : (hssKey msg).drop 4 = sigHead ++ sigRoot msg := by simp [hssKey]
  have ht : (sigHead ++ sigRoot msg).take (lmsPubLen 5) = sigHead ++ sigRoot msg := by
    rw [List.take_of_length_le]; simp [sigRoot_length, sigHead, lmsPubLen]; decide
  have hd' : (hssSig ++ rest).drop 4 = sigBytes ++ rest := rfl
  have g0 : be32 (sigHead ++ sigRoot msg) 0 = 5 := by unfold be32; rw [slice_append _ _ _ _ (by decide)]; decide
  have g4 : be32 (sigHead ++ sigRoot msg) 4 = 4 := by unfold be32; rw [slice_append _ _ _ _ (by decide)]; decide
  have gt : be32 (sigBytes ++ rest) 4 = 4 := by unfold be32; rw [slice_append _ _ _ _ (by decide +kernel)]; decide +kernel
  have gl : be32 (sigBytes ++ rest) 1128 = 5 := by unfold be32; rw [slice_append _ _ _ _ (by decide +kernel)]; decide +kernel
  have gn : (sigBytes ++ rest).take 1292 = sigBytes := List.take_left' (by decide +kernel)
  have bad : sigTypesBad (sigHead ++ sigRoot msg) (sigBytes ++ rest) = false := by
    simp [sigTypesBad, g0, g4, gt, otsType, gl]
  have len : lmsSigLen 5 4 = some 1292 := by decide
  simp only [hssCheck, h0, h4, hs, hd, hd', ht]
  simp [hssWalk, g0, g4, bad, len, gn, lms_of_root]

/-! A key of this test's own, its one leaf and every secret of it zero, and its signature of any message. -/

def ownPre : List Byte := List.replicate 20 0
def ownSecret : List Byte := List.replicate 32 0
def ownTops : List Byte := (List.range 34).flatMap (fun i => otsChain 32 ownPre i 255 0 ownSecret)
def ownRoot : List Byte := lmsClimb 32 (List.replicate 16 0) (chunks 32 5 (List.replicate 160 0)) 32
  (hashN 32 (List.replicate 16 0 ++ beBytes 4 32 ++ [0x82#8, 0x82#8] ++ hashN 32 (ownPre ++ [0x80#8, 0x80#8] ++ ownTops)))
def ownKey : List Byte := [0, 0, 0, 1] ++ (sigHead ++ ownRoot)
def ownCoefs (msg : List Byte) : List Byte :=
  let q := hashN 32 (ownPre ++ [0x81#8, 0x81#8] ++ List.replicate 32 0 ++ msg)
  q ++ beBytes 2 (otsCksm q 32 8 0)
def ownChains (msg : List Byte) : List Byte :=
  (List.range 34).flatMap (fun i => otsChain 32 ownPre i (otsCoef (ownCoefs msg) i 8) 0 ownSecret)
def ownOts (msg : List Byte) : List Byte := ([0, 0, 0, 4] ++ List.replicate 32 0) ++ ownChains msg
def ownSig (msg : List Byte) : List Byte := [0, 0, 0, 0] ++ (ownOts msg ++ ([0, 0, 0, 5] ++ List.replicate 160 0))

theorem otsChain_add (n : Nat) (pre : List Byte) (i k a j : Nat) (x : List Byte) :
    otsChain n pre i k (j + a) (otsChain n pre i a j x) = otsChain n pre i (a + k) j x := by
  induction a generalizing j x with
  | zero => simp [otsChain]
  | succ a ih => rw [show a + 1 + k = a + k + 1 by omega, otsChain, otsChain, ← ih, show j + (a + 1) = j + 1 + a by omega]

theorem otsChain_length (pre : List Byte) (i k j : Nat) (x : List Byte) (h : x.length = 32) : (otsChain 32 pre i k j x).length = 32 := by
  induction k generalizing j x with
  | zero => simpa [otsChain] using h
  | succ k ih => exact ih _ _ (hashN_length _)

theorem pieces_length (f : Nat → List Byte) (h : ∀ i, (f i).length = 32) (n : Nat) : ((List.range n).flatMap f).length = n * 32 := by
  induction n with
  | zero => rfl
  | succ n ih => simp [List.range_succ, ih, h]; omega

theorem slice_pieces (f : Nat → List Byte) (h : ∀ i, (f i).length = 32) (n i : Nat) (hi : i < n) :
    slice ((List.range n).flatMap f) (i * 32) 32 = f i := by
  induction n with
  | zero => omega
  | succ n ih =>
    rw [List.range_succ, List.flatMap_append]
    rcases Nat.lt_or_ge i n with g | g
    · rw [slice_append _ _ _ _ (by rw [pieces_length f h]; omega), ih g]
    · obtain rfl : i = n := by omega
      simpa [pieces_length f h] using slice_right ((List.range i).flatMap f) (f i) 32 (h i).symm

theorem slice_skip (x y : List Byte) (n a k : Nat) (h : n = x.length) : slice (x ++ y) (n + a) k = slice y a k := by
  subst h; simp [slice, List.drop_append, List.drop_of_length_le]

theorem own_ots (msg : List Byte) :
    otsCand (List.replicate 16 0) 0 (ownOts msg) msg 32 8 34 0 = hashN 32 (ownPre ++ [0x80#8, 0x80#8] ++ ownTops) := by
  have hp : List.replicate 16 (0 : Byte) ++ beBytes 4 0 = ownPre := by decide
  have hc : slice (ownOts msg) 4 32 = List.replicate 32 0 := by
    unfold ownOts; rw [slice_append _ _ _ _ (by decide)]; decide
  have hz : ∀ i ∈ List.range 34, otsChain 32 ownPre i (2 ^ 8 - 1 - otsCoef (ownCoefs msg) i 8) (otsCoef (ownCoefs msg) i 8)
      (slice (ownOts msg) (4 + 32 + i * 32) 32) = otsChain 32 ownPre i 255 0 ownSecret := by
    intro i hi
    have hs : slice (ownOts msg) (4 + 32 + i * 32) 32 = otsChain 32 ownPre i (otsCoef (ownCoefs msg) i 8) 0 ownSecret := by
      unfold ownOts
      rw [slice_skip _ _ _ _ _ (by decide)]
      exact slice_pieces _ (fun i => otsChain_length _ _ _ _ _ (by decide)) _ _ (List.mem_range.mp hi)
    have hb : otsCoef (ownCoefs msg) i 8 < 256 := Nat.mod_lt _ (by decide)
    rw [hs]
    have := otsChain_add 32 ownPre i (2 ^ 8 - 1 - otsCoef (ownCoefs msg) i 8) (otsCoef (ownCoefs msg) i 8) 0 ownSecret
    rw [Nat.zero_add] at this
    rw [this]
    congr 1
    omega
  have hf := List.flatMap_congr hz
  simp only [otsCand, hp, hc]
  exact congrArg (fun z => hashN 32 (ownPre ++ [0x80#8, 0x80#8] ++ z)) hf

theorem ownChains_length (msg : List Byte) : (ownChains msg).length = 1088 :=
  pieces_length _ (fun i => otsChain_length _ _ _ _ _ (by decide)) 34

theorem ownOts_length (msg : List Byte) : (ownOts msg).length = 1124 := by
  rw [ownOts, List.length_append, ownChains_length]; decide

theorem ownSig_length (msg : List Byte) : (ownSig msg).length = 1292 := by
  simp only [ownSig, List.length_append, ownOts_length, List.length_replicate, List.length_cons, List.length_nil, Nat.reduceAdd]

theorem ownRoot_length : ownRoot.length = 32 := lmsClimb_length _ _ _ _ (hashN_length _)

theorem own_be (msg : List Byte) : be32 (ownSig msg) 0 = 0 ∧ be32 (ownSig msg) 4 = 4 ∧ be32 (ownSig msg) 1128 = 5 := by
  refine ⟨?_, ?_, ?_⟩
  · unfold be32 ownSig; rw [slice_append _ _ _ _ (by decide)]; decide
  · unfold be32 ownSig ownOts
    rw [slice_skip _ _ 4 0 4 (by decide), slice_append _ _ _ _ (by simp), slice_append _ _ _ _ (by simp)]; decide
  · unfold be32 ownSig
    rw [slice_skip _ _ 4 1124 4 (by decide), slice_skip _ _ 1124 0 4 (ownOts_length msg).symm,
      slice_append _ _ _ _ (by simp)]; decide

theorem own_lms (msg : List Byte) : lmsVerify (sigHead ++ ownRoot) (ownSig msg) msg = true := by
  have hr : slice (sigHead ++ ownRoot) 24 32 = ownRoot := slice_right _ _ _ ownRoot_length.symm
  have h8 : slice (sigHead ++ ownRoot) 8 16 = List.replicate 16 0 := by
    rw [slice_append _ _ _ _ (by decide)]; decide
  have h0 : be32 (sigHead ++ ownRoot) 0 = 5 := by
    unfold be32; rw [slice_append _ _ _ _ (by decide)]; decide
  have h4 : be32 (sigHead ++ ownRoot) 4 = 4 := by
    unfold be32; rw [slice_append _ _ _ _ (by decide)]; decide
  obtain ⟨hq, ht, hl⟩ := own_be msg
  have ho : slice (ownSig msg) 4 1124 = ownOts msg := by
    unfold ownSig
    rw [slice_skip _ _ 4 0 1124 (by decide), slice_append _ _ _ _ (by rw [ownOts_length])]
    exact List.take_of_length_le (by rw [List.drop_zero, ownOts_length])
  have hy : slice (ownSig msg) 1132 160 = List.replicate 160 0 := by
    unfold ownSig
    rw [slice_skip _ _ 4 1128 160 (by decide), slice_skip _ _ 1124 4 160 (ownOts_length msg).symm, slice_skip _ _ 4 0 160 (by decide)]
    decide +kernel
  simp only [lmsVerify, h0, h4, lmsType, otsType, h8, hq, ht]
  simp only [Nat.le_refl, show (5 : Nat) ≤ 9 from by decide, and_self, if_true, Nat.reduceMul, Nat.reduceAdd, Nat.reduceSub,
    Nat.reducePow, hl, ownSig_length]
  rw [if_pos (by decide), hr, ho, hy, own_ots]
  exact decide_eq_true rfl

theorem own_passes (same : Bool) (msg : List Byte) : hssVerify same ownKey ([0, 0, 0, 0] ++ ownSig msg) msg = .pass := by
  have hk : ownKey = ([0, 0, 0, 1] ++ sigHead) ++ ownRoot := by simp [ownKey]
  have h0 : be32 ownKey 0 = 1 := by rw [hk]; unfold be32; rw [slice_append _ _ _ _ (by decide)]; decide
  have h4 : be32 ownKey 4 = 5 := by rw [hk]; unfold be32; rw [slice_append _ _ _ _ (by decide)]; decide
  have hs : be32 ([0, 0, 0, 0] ++ ownSig msg) 0 = 0 := by unfold be32; rw [slice_append _ _ _ _ (by decide)]; decide
  have hd : ownKey.drop 4 = sigHead ++ ownRoot := by simp [ownKey]
  have ht : (sigHead ++ ownRoot).take (lmsPubLen 5) = sigHead ++ ownRoot := by
    rw [List.take_of_length_le]; simp [ownRoot_length, sigHead, lmsPubLen]; decide
  have hd' : ([0, 0, 0, 0] ++ ownSig msg).drop 4 = ownSig msg := by simp
  have g0 : be32 (sigHead ++ ownRoot) 0 = 5 := by unfold be32; rw [slice_append _ _ _ _ (by decide)]; decide
  have g4 : be32 (sigHead ++ ownRoot) 4 = 4 := by unfold be32; rw [slice_append _ _ _ _ (by decide)]; decide
  obtain ⟨hq, gt, gl⟩ := own_be msg
  have gn : (ownSig msg).take 1292 = ownSig msg := List.take_of_length_le (by rw [ownSig_length])
  have bad : sigTypesBad (sigHead ++ ownRoot) (ownSig msg) = false := by simp [sigTypesBad, g0, g4, gt, otsType, gl]
  have len : lmsSigLen 5 4 = some 1292 := by decide
  have hl : ([0, 0, 0, 0] ++ ownSig msg).length = 1296 := by simp [ownSig_length]
  simp only [hssVerify, hssCheck, h0, h4, hs, hd, hd', ht, hl]
  simp [hssWalk, g0, g4, bad, len, gn, own_lms]
theorem beNat_snoc (l : List Byte) (b : Byte) : beNat (l ++ [b]) = beNat l * 256 + b.toNat := by simp [beNat]

theorem beBytes_snoc (n v : Nat) : beBytes (n + 1) v = beBytes n (v / 256) ++ [BitVec.ofNat 8 v] := by
  induction n with
  | zero => simp [beBytes]
  | succ n ih =>
    rw [beBytes, ih, beBytes]
    simp [Nat.div_div_eq_div_mul, Nat.pow_succ, Nat.mul_comm]

theorem beNat_beBytes (n v : Nat) : beNat (beBytes n v) = v % 256 ^ n := by
  induction n generalizing v with
  | zero => simp [beBytes, beNat, Nat.mod_one]
  | succ n ih =>
    have h := Nat.mod_mul (a := 256) (b := 256 ^ n) (x := v)
    have e : (256 : Nat) ^ (n + 1) = 256 * 256 ^ n := by rw [Nat.pow_succ, Nat.mul_comm]
    rw [beBytes_snoc, beNat_snoc, ih, BitVec.toNat_ofNat, e, h]
    omega

theorem digOf_digBytes (d : Digest) (l : List Byte) : digOf (digBytes d ++ l) = d := by
  have h : (digBytes d ++ l).take 32 = digBytes d := List.take_left' (beBytes_length 32 d.toNat)
  rw [digOf, h, digBytes, beNat_beBytes]
  apply BitVec.eq_of_toNat_eq
  rw [BitVec.toNat_ofNat]
  have := d.isLt
  omega

/-- A manifest header of region 7, version 3 and one block up to its root, and the 4 KiB node page of zeros. -/
def manHead : List Byte :=
  beBytes 4 0x545A4D4E ++ beBytes 2 1 ++ beBytes 2 128 ++ beBytes 4 7 ++ beBytes 4 3 ++ beBytes 4 1 ++ [1, 1, 0, 0] ++
    beBytes 4 128 ++ beBytes 4 1296 ++ beBytes 4 4096 ++ List.replicate 12 0
def nodePage : List Byte := List.replicate 4096 0
def manHdr : List Byte := manHead ++ (digBytes (nodeDigest 7 3 1 0 nodePage) ++ List.replicate 48 0)
def manRest : List Byte := List.replicate 2672 0 ++ nodePage
def manArea : List Byte := manHdr ++ (hssSig ++ manRest)

/-- Binding 0 of channel 0: region 7, one block, two manifest pages, anchored by slot 16. -/
def bind0 : Binding := ⟨0, 0, 16, 0, 7, 0, 0, 1, 4096, 2, 1, false⟩

/-- A verification billet of channel 0, and a job of billet 2. -/
def verUnit (w : Work) : Billet :=
  { st := .running, cls := .ver, owner := .ch 0, src := .reservation, parent := none, drawn := 0, work := w }
def job2 : HashJob := { billet := 2, tier := 2, cost := 1, aged := false, enq := 0 }

/-- Engine 0 anchors bank A of binding 0 as billet 2, which has read these pages and come to this phase; slot 16 holds this
public key. -/
def anchorSt (key : List Byte) (pages : List (List Byte)) (phase : Nat) : State :=
  let s := port0 (chanOp 3 0)
  { s with kv := { s.kv with slots := s.kv.slots.set (16 : Fin 128) { typ := 3, isRoot := true, material := key } }
           bt := { s.bt with units := [(2, { verUnit (.anchor 0 .a false false) with pages := pages, phase := phase })] }
           ve := { s.ve with bindings := [bind0], engines := s.ve.engines.set (0 : Fin 12) (some { job := job2, startAt := 0 }) } }

theorem treeRoll_kv (s : State) : (treeRoll s).kv = s.kv := by
  unfold treeRoll
  generalize allEng = l
  induction l generalizing s with
  | nil => rfl
  | cons e l ih =>
    rw [List.foldl_cons, ih]
    split
    · split <;> rfl
    · rfl

theorem setRing_kv (s : State) (t : Nat) (a : Arb) : (setRing s t a).kv = s.kv := by
  unfold setRing
  repeat' split
  all_goals rfl

theorem hashPick_kv (s u : State) (j : HashJob) (i : QItem) (h : hashPick s = some (j, i, u)) : u.kv = s.kv := by
  unfold hashPick at h
  split at h
  · cases h; rfl
  · dsimp only at h
    split at h
    · cases h
    · split at h
      · cases h
      · cases h; rw [setRing_kv]; rfl

theorem hashStart_kv (s : State) (e : Fin 12) (j : HashJob) : (hashStart s e j).kv = s.kv := by
  have h : ∀ (s : State) (id : Nat) (x : BilletSt), (setUnitSt s id x).kv = s.kv := fun s id x => by
    unfold setUnitSt; split <;> rfl
  have g : ∀ (s : State) (id : Nat) (x : SlotSt), (slotJob s id x).kv = s.kv := fun s id x => by
    unfold slotJob; repeat' split
    all_goals rfl
  exact (g _ _ _).trans (h _ _ _)

theorem hashGrant_kv (n : Nat) (s : State) : (hashGrant n s).kv = s.kv := by
  induction n generalizing s with
  | zero => rfl
  | succ n ih =>
    unfold hashGrant
    split
    · rfl
    · split
      · rfl
      · next j i u h => rw [ih, hashStart_kv, hashPick_kv _ _ _ _ h]

/-- An engine's end leaves the vault alone. -/
theorem hashEnd_kv (s : State) (e : Fin 12) : (hashEnd s e).kv = s.kv := by
  unfold hashEnd
  rw [hashGrant_kv]
  dsimp only
  split
  · rw [treeRoll_kv]; rfl
  · rfl

theorem manHdr_length : manHdr.length = 128 := by
  simp [manHdr, digBytes, beBytes_length, manHead]

theorem manArea_length : manArea.length = 8192 := by
  have h : (hssSig ++ manRest).length = 8064 := by decide +kernel
  rw [manArea, List.length_append, manHdr_length, h]

theorem man_be32 (o : Nat) (h : o + 4 ≤ 48) : be32 manHdr o = be32 manHead o := by
  rw [be32, manHdr, slice_append _ _ _ _ (by simpa [manHead, beBytes_length] using h)]; rfl

theorem man_slice (o n : Nat) (h : o + n ≤ 48) : slice manHdr o n = slice manHead o n := by
  rw [manHdr, slice_append _ _ _ _ (by simpa [manHead, beBytes_length] using h)]

theorem area_slice (o n : Nat) (h : o + n ≤ 128) : slice manArea o n = slice manHdr o n := by
  rw [manArea, slice_append _ _ _ _ (by rw [manHdr_length]; exact h)]

theorem area_be32 (o : Nat) (h : o + 4 ≤ 48) : be32 manArea o = be32 manHead o := by
  rw [← man_be32 o h, be32, area_slice _ _ (by omega)]; rfl

theorem area_head : manArea.take 128 = manHdr := List.take_left' manHdr_length

theorem be8_of_slice (l : List Byte) (o : Nat) (v : Byte) (h : slice l o 1 = [v]) : be8 l o = v.toNat := by
  have := congrArg (·.getD 0 0) h
  simp [slice, be8, byteAt, List.getD] at this ⊢
  simp [this]

theorem area_depth : be8 manArea 20 = 1 :=
  be8_of_slice _ _ 1 (by rw [area_slice _ _ (by decide), man_slice _ _ (by decide)]; decide +kernel)

theorem area_root : digOf (slice manArea 48 32) = nodeDigest 7 3 1 0 nodePage := by
  have l : manHead.length = 48 := by decide +kernel
  have e : slice manHdr 48 32 = digBytes (nodeDigest 7 3 1 0 nodePage) ++ [] := by
    rw [manHdr, slice, List.drop_left' l, List.append_nil]
    exact List.take_left' (beBytes_length 32 _)
  rw [area_slice _ _ (by decide), e, digOf_digBytes]

theorem area_top : slice manArea 4096 4096 = nodePage := by
  have e : manArea = (manHdr ++ (hssSig ++ List.replicate 2672 0)) ++ nodePage := by
    simp only [manArea, manRest, List.append_assoc]
  have l : (manHdr ++ (hssSig ++ List.replicate 2672 (0 : Byte))).length = 4096 := by
    have : (hssSig ++ List.replicate 2672 (0 : Byte)).length = 3968 := by decide +kernel
    rw [List.length_append, manHdr_length, this]
  rw [e, slice, List.drop_left' l, List.take_of_length_le (by decide +kernel)]

theorem area_headOf : headOf manArea = ⟨1, 3, nodeDigest 7 3 1 0 nodePage, 128, 1296, 4096⟩ := by
  have b12 : be32 manHead 12 = 3 := by decide +kernel
  have b24 : be32 manHead 24 = 128 := by decide +kernel
  have b28 : be32 manHead 28 = 1296 := by decide +kernel
  have b32 : be32 manHead 32 = 4096 := by decide +kernel
  rw [headOf, area_depth, area_root, area_be32 _ (by decide), area_be32 _ (by decide), area_be32 _ (by decide),
    area_be32 _ (by decide), b12, b24, b28, b32]

/-- What Table 4.4 asks of a header, over any bytes. -/
theorem head_core (s : State) (area hdr : List Byte) (root : Digest) (ht : area.take 128 = hdr)
    (hx : headOf area = ⟨1, 3, root, 128, 1296, 4096⟩) (hf : bindFloor s bind0 = 0)
    (b0 : be32 hdr 0 = 0x545A4D4E) (b8 : be32 hdr 8 = 7) (b16 : be32 hdr 16 = 1) (c4 : be16 hdr 4 = 1)
    (c6 : be16 hdr 6 = 128) (c22 : be16 hdr 22 = 0) (e21 : be8 hdr 21 = 1)
    (d36 : slice hdr 36 12 = List.replicate 12 0) : headErr s bind0 area = none := by
  have np1 : nodePages 1 = 1 := by decide +kernel
  have md : manDepth 1 = 1 := by decide
  have z : (List.replicate 12 (0 : Byte)).all (· = 0) = true := by decide
  simp only [headErr, ht, hx, b0, b8, b16, c4, c6, c22, d36, e21, hf, z, np1, md,
    show bind0.regionId = 7 from rfl, show bind0.blocks = 1 from rfl, show bind0.manPages = 2 from rfl]
  simp

/-- The area's head passes Table 4.4. -/
theorem head_passes (s : State) (hf : bindFloor s bind0 = 0) : headErr s bind0 manArea = none := by
  refine head_core s manArea manHdr _ area_head area_headOf hf ?_ ?_ ?_ ?_ ?_ ?_ ?_ ?_
  · rw [man_be32 _ (by decide)]; decide +kernel
  · rw [man_be32 _ (by decide)]; decide +kernel
  · rw [man_be32 _ (by decide)]; decide +kernel
  · rw [be16, man_slice _ _ (by decide)]; decide +kernel
  · rw [be16, man_slice _ _ (by decide)]; decide +kernel
  · rw [be16, man_slice _ _ (by decide)]; decide +kernel
  · exact be8_of_slice _ _ 1 (by rw [man_slice _ _ (by decide)]; decide +kernel)
  · rw [man_slice _ _ (by decide)]; decide +kernel

theorem sig_core (s : State) (area hdr key tail : List Byte) (x : Anchored) (hx : headOf area = x) (ho : x.sigOfs = 128)
    (hl : x.sigLen = 1296) (ht : area.take 128 = hdr) (hd : area.drop 128 = tail) (hk : anchorPub s bind0.anchor = some key)
    (hp : hssCheck false key tail 1296 hdr = .pass) : sigErr s bind0 area = none := by
  simp only [sigErr, hk, hx, ho, hl, hd, ht, hp]

/-- The signature passes under the key that its one level verifies under. -/
theorem sig_passes (s : State) (hk : anchorPub s bind0.anchor = some (hssKey manHdr)) : sigErr s bind0 manArea = none :=
  sig_core s manArea manHdr _ _ _ area_headOf rfl rfl area_head
    (by rw [manArea]; exact List.drop_left' manHdr_length) hk (hss_passes_ext _ _ _)

theorem top_core (area np : List Byte) (hx : headOf area = ⟨1, 3, nodeDigest 7 3 1 0 np, 128, 1296, 4096⟩)
    (hn : slice area 4096 4096 = np) : topErr bind0 area = none := by
  simp only [topErr, hx, hn, show bind0.regionId = 7 from rfl, if_true]

/-- The top page gives ROOT. -/
theorem top_passes : topErr bind0 manArea = none := top_core _ _ area_headOf area_top

/-- Ember 0 of binding 0 in bank A. -/
def ember0 : EmberId := ⟨0, 0, false, 0, 0, 0, .a⟩

/-- Engine 1 checks ember 0, whose leaf digest is `d`; frame 7 holds its data. -/
def checkSt (st : BindSt) (d : Digest) : State :=
  let s := port0 (chanOp 3 0)
  { s with bt := { s.bt with units := [(2, { verUnit (.check ember0 .demand (some 7) none) with phase := 2 })] }
           ec := { s.ec with frames := [(7, ⟨.checking, ember0, false, 0, false, [1]⟩)] }
           ve := { s.ve with bindings := [bind0], banks := [(bankKey 0 .a, { st := st, version := 3 })]
                             nodes := [⟨0, .a, 0, 0, d, false⟩]
                             engines := s.ve.engines.set (1 : Fin 12) (some { job := job2, startAt := 0 }) } }

/-- The leaf digest of the ember in frame 7. -/
def leaf0 : Digest := emberDigest 7 3 0 [1]

/-- An ember of a region that no manifest binds, in frame 7. -/
def frameSt : State :=
  { port0 (rdChan 0 true 0xFF000001) with ec := { live.ec with frames := [(7, { frame1 with st := .checking, data := [1] })] } }

/-- The state in which an area that passes is anchored. -/
def goodSt (n : Nat) : State := anchorSt (hssKey manHdr) [manArea] n

theorem anchorPub_of_kv (s : State) (k : List Byte) (h : s.kv = (anchorSt k [] 0).kv) : anchorPub s bind0.anchor = some k := by
  unfold anchorPub slotValid; simp only [h]; rfl

theorem good_key (n : Nat) : anchorPub (hashEnd (goodSt n) 0) bind0.anchor = some (hssKey manHdr) :=
  anchorPub_of_kv _ _ (by rw [hashEnd_kv]; rfl)

theorem good_floor : bindFloor (hashEnd (goodSt 1) 0) bind0 = 0 := by decide +kernel
theorem good_jobs : jobsLeft (hashEnd (goodSt 1) 0) 2 = 0 ∧ jobsLeft (hashEnd (goodSt 2) 0) 2 = 0 := by decide +kernel

theorem good_flat : [manArea].flatten = manArea := by
  rw [List.flatten_cons, List.flatten_nil, List.append_nil]

theorem good_verdict : (headErr (hashEnd (goodSt 1) 0) bind0 [manArea].flatten).orElse
    (fun _ => sigErr (hashEnd (goodSt 1) 0) bind0 [manArea].flatten) = none := by
  rw [good_flat, head_passes _ good_floor, sig_passes _ (good_key 1)]; rfl

theorem good_top : topErr bind0 [manArea].flatten = none := by rw [good_flat]; exact top_passes

theorem test_hyps_ChecksEndAsTheirDigestsSay :
    (∀ (k : List Byte) (pg : List (List Byte)) (n : Nat), let s := anchorSt k pg n
      s.pd.inReset = false ∧ engJob s 0 = some job2 ∧
      unitOf s 2 = some { verUnit (.anchor 0 .a false false) with pages := pg, phase := n } ∧ bindingOf s 0 = some bind0) ∧
    (jobsLeft (hashEnd (goodSt 1) 0) 2 = 0 ∧ jobsLeft (hashEnd (goodSt 2) 0) 2 = 0) ∧
    (headErr (hashEnd (goodSt 1) 0) bind0 [manArea].flatten).orElse
      (fun _ => sigErr (hashEnd (goodSt 1) 0) bind0 [manArea].flatten) = none ∧
    (let v := hashEnd (anchorSt [] [List.replicate 8192 0] 1) 0
     (headErr v bind0 [List.replicate 8192 0].flatten).orElse (fun _ => sigErr v bind0 [List.replicate 8192 0].flatten) = some 1) ∧
    topErr bind0 [manArea].flatten = none ∧
    (∀ d : Digest, let s := checkSt .anchored d
      s.pd.inReset = false ∧ engJob s 1 = some job2 ∧
      unitOf s 2 = some { verUnit (.check ember0 .demand (some 7) none) with phase := 2 }) ∧
    (let s := checkSt .anchored leaf0
     jobsLeft (hashEnd s 1) 2 = 0 ∧ bankReady (hashEnd s 1) (.check ember0 .demand (some 7) none) = true ∧
      unitObj (hashEnd s 1) (.check ember0 .demand (some 7) none) = some (bind0, .a, .data 0)) ∧
    (slotOf frameSt ember1 = none ∧ isServing frameSt ember1 = true ∧ arising frameSt.ec.frames = true ∧
      aget frameSt.ec.frames 7 = some { frame1 with st := .checking, data := [1] }) :=
  ⟨fun _ _ _ => ⟨rfl, rfl, rfl, rfl⟩, good_jobs,
   good_verdict,
   by decide +kernel,
   good_top,
   fun _ => ⟨rfl, rfl, rfl⟩, by decide +kernel, by decide +kernel⟩
/-- Every engine busy on tier 3, and a tier 0 job whose input is complete. -/
def job3 : HashJob := { billet := 2, tier := 3, cost := 65, aged := false, enq := 0 }
def job5 : HashJob := { billet := 5, tier := 0, cost := 65, aged := false, enq := 0 }
def preemptSt : State := { live with ve := { live.ve with
  engines := Vector.replicate 12 (some { job := job3, startAt := 0 }), tier0 := [job5] } }

/-- Binding 0 lies in bank set 0 of channel 0, whose bank B is in this state. -/
def bsetSt (st : BindSt) (held : Bool) : State :=
  let k := chanOp 3 0
  let k := { k with cfg := { k.cfg with bsets := [⟨0, 65536, false, false, ⟨0, 0, false⟩, ⟨65536, 0, false⟩, none⟩]
                                        desc := k.cfg.desc.set (0 : Fin 64) ⟨1, 0x0000F000, 0, 0⟩ } }
  let s := port0 k
  { s with sel := Vector.replicate 10 { bind := 0, bsCh := 0, bsSet := 0 }
           ve := { s.ve with bindings := [bind0], banks := [(bankKey 0 .b, { st := st })], scrubEn := true }
           sq := { s.sq with cfg := { s.sq.cfg with hosts := s.sq.cfg.hosts.set (0 : Fin 32) { ch := some 0 } }
                             hrst := if held then 1 else 0 } }

theorem test_hyps_VerificationControls :
    (preemptSt.pd.inReset = false ∧ freeEng preemptSt = none ∧ nextJob preemptSt = some (0, false) ∧
      preemptSt.ve.engines[(11 : Fin 12)] = some { job := job3, startAt := 0 } ∧ preemptVictim preemptSt 0 false = some 0 ∧
      preemptSt.ve.engines[(0 : Fin 12)] = some { job := job3, startAt := 0 } ∧
      ((hashPick (reachTime preemptSt (blockEnd preemptSt { job := job3, startAt := 0 } + 2))).map (·.1)) = some job5) ∧
    live.ve.engines[(0 : Fin 12)] = none ∧
    (let s := bsetSt .idle true
     s.pd.inReset = false ∧ bindingOf s (selOf s (.core 0)).bind.toNat = some bind0 ∧ bindInactive s bind0 = some .b ∧
       stageRunning s 0 .b = false ∧ (bankRt s 0 .b).st ≠ .revoked ∧ (selOf s (.core 0)).bind ≠ 0xFF) ∧
    live.ve.scrubEn = false ∧
    (let s := bsetSt .armed true
     let id := (objEmber s bind0 .b ((scrubObj bind0 (bankRt s 0 .b) (bankRt s 0 .b).scrubCur).getD (.man 0))).getD ember1
     s.ve.scrubEn = true ∧ bindingOf s (0 : Fin 255).val = some bind0 ∧ bind0.scrubPeriod ≠ 0 ∧ scrubBank s bind0 = some .b ∧
       objEmber s bind0 .b ((scrubObj bind0 (bankRt s 0 .b) (bankRt s 0 .b).scrubCur).getD (.man 0)) = some id ∧
       flashBusy s id.fp false = false ∧ flashBusy s id.fp true = false ∧
       unitsWhere s (fun u => match u.work with | .scrub bi _ _ _ _ => bi = 0 | _ => false) = [] ∧
       (draw .bg (.ch 0) none false (.scrub 0 .b (bankRt s 0 .b).scrubCur id none) s).1 = some 26) := by decide +kernel

/-- A floor only rises (VE_BIND_FLOOR). -/
theorem test_bind_floor_rises :
    let s := { bsetSt .idle true with ve := { live.ve with floors := [(0, 5)] } }
    aget (after (exec (.bindFloorWrite (.core 0) 4) s)).ve.floors 0 = some 5 ∧
    aget (after (exec (.bindFloorWrite (.core 0) 6) s)).ve.floors 0 = some 6 := by decide +kernel

/-! The ember cache. -/

theorem test_hyps_BankSetControls :
    ∀ held armed lk clk : Bool, let s := bsetSt (if armed then .armed else .idle) held
      let s : State := { s with ec := { s.ec with locked := lk }, ve := { s.ve with clkHold := if clk then 1 else 0 } }
      s.pd.inReset = false ∧ (selBset s (.core 0)).map (fun x => (x.1, x.2.1)) = some (0, 0) ∧
      flipOk s 0 0 = armed ∧ hostHeld s 0 = held ∧ s.ve.clkHold.getLsbD 0 = clk ∧ s.ec.locked = lk ∧
      (4 : Word).getLsbD 8 = false ∧ (4 : Word).getLsbD 9 = false := by decide +kernel

/-- A flip asked for while the host is held is applied at once. -/
theorem test_flip_at_once :
    (((after (exec (.flipReq (.core 0)) (bsetSt .armed true))).ch[(0 : Ch)]).bset[(0 : Fin 15)]).activeB = true := by
  decide +kernel

/-- Channel 0 with a trace in this state, its key in slot 8. -/
def traceSt (k : Trace) : State :=
  let s := port0 { trace := k }
  { s with kv := { s.kv with slots := s.kv.slots.set (8 : Fin 128) { typ := 1, material := List.replicate 32 7 } } }

theorem test_hyps_TracesAndAdaptation :
    (let s := traceSt { recording := true }
     s.pd.inReset = false ∧ s.ch[(0 : Ch)].trace.recording = true) ∧ live.ch[(0 : Ch)].trace.recording = false ∧
    live.ch[(0 : Ch)].trace.kept = [] ∧
    (let s := traceSt { kept := [[1]] }
     let u := (journalUnit s 0 1).2
     let v := (unitDone 26 1 u).getD u
     s.pd.inReset = false ∧ s.ch[(0 : Ch)].trace.kept = [[1]] ∧ secretOf s 8 = some (List.replicate 32 7) ∧
       (journalUnit s 0 1).1 = some 26 ∧ (unitDone 26 1 u).isSome = true ∧
       (osGrant (osAsk v (osJournalId 0) 64 33) (osJournalId 0)).isSome = true) ∧
    (live.st.state ≠ .locked ∧ live.st.state ≠ .restructuring) ∧
    (∀ bankedUnit : Bool, let s : State := { live with st := { live.st with state := .locked }
                                                       pr := { live.pr with fitted := bankedUnit, burning := false } }
     s.pd.inReset = false ∧ s.st.state = .locked ∧ isBanked s = bankedUnit) := by decide +kernel

/-! The structure loader, the tracker and the instances. -/

/-- The loader in this state. -/
def loadSt (st : LoadSt) : State := { live with st := { live.st with state := st } }

/-- A section: type, version 1, no flags, device-wide, its length and body (Table 6.2). -/
def section8 (typ : Byte) (body : List Byte) : List Byte := [typ, 1, 0, 0xFF] ++ beBytes 4 body.length ++ body

/-- The six sections every image has, with the smallest contents their chapters allow (Tables 6.8, 7.7-7.10, 15.2-15.4, 16.5,
16.6 and 9.1-9.3). -/
def smallSections : List Byte :=
  section8 0x01 ([10, 1] ++ fillBytes 6 0) ++
  section8 0x21 ((List.replicate 8 [0, 16, 1, 1, 1, 0, 0, 0]).flatten ++ fillBytes 256 0) ++
  section8 0x22 ([40, 100, 100, 0, 0, 0, 1, 1] ++ fillBytes 24 0 ++ (List.replicate 32 [0, 0, 1, 1]).flatten) ++
  section8 0x23 ([0, 20, 3, 232, 0, 0, 0, 0] ++ (List.replicate 5 (beBytes 4 0 ++ beBytes 4 1000000)).flatten ++ fillBytes 224 0) ++
  section8 0x24 (beBytes 2 100 ++ fillBytes 2 0 ++ fillBytes 8 0xFF ++ fillBytes 4 0 ++ fillBytes 64 128 ++
    (List.range 8).flatMap (fun i => [16, if i = 5 ∨ i = 6 then 8 else 0, 0, 10, 0, 1] ++ fillBytes 6 0) ++ fillBytes 24 0) ++
  section8 0x30 (fillBytes 4 0 ++ beBytes 2 10 ++ fillBytes 122 0 ++ (List.replicate 32 [0xFF, 1, 0, 0]).flatten ++
    [8, 0, 0xFF, 0xFF, 0xFF] ++ fillBytes 11 0)

/-- An image of those sections that the key above signs: its header gives 1,408 signed bytes and six sections. -/
def ownSigned : List Byte :=
  beBytes 4 0x545A5349 ++ beBytes 2 1 ++ beBytes 2 128 ++ beBytes 4 2704 ++ beBytes 4 1408 ++ beBytes 2 0 ++ beBytes 2 0x3208 ++
    [0xA0, 6] ++ fillBytes 18 0 ++ (ownKey ++ (fillBytes 28 0 ++ smallSections))
def ownImage : List Byte := ownSigned ++ ([0, 0, 0, 0] ++ ownSig ownSigned)

/-- Generation 0 holds this key's digest, and the count the low `n` bits. -/
def ownOtp (key : List Byte) (n : Byte) : List Host.Cell :=
  cellsAt 0x120 (digBytes (sha256 key)) ++ cellsAt 0x160 (seedChk (List.replicate 32 0)) ++ [(0x168, 1), (0x300, n)]

/-- Loading that image, or restructuring channel 0 to it with the image itself in force; the count above its rollback value or
not; the engines on line or not. -/
def ownSt (rs high off : Bool) : State :=
  { live with otp := ownOtp ownKey (if high then 1 else 0)
              ve := { live.ve with engOnline := if off then 0 else 0xFFF }
              st := { live.st with state := if rs then .restructuring else .loading, stage := ownImage
                                   hdr := if rs then hdrOf ownImage else live.st.hdr } }

theorem ownSigned_length : ownSigned.length = 1408 := by decide +kernel

theorem own_slice (y : List Byte) (a n : Nat) (h : a + n ≤ 1408) : slice (ownSigned ++ y) a n = slice ownSigned a n :=
  slice_append _ _ _ _ (by rw [ownSigned_length]; exact h)

theorem ownSigned_key : slice ownSigned 40 60 = ownKey := by
  have h : ownKey.length = 60 := by simp [ownKey, ownRoot_length, sigHead]
  unfold ownSigned
  rw [slice_skip _ _ 40 0 60 (by decide), slice_append _ _ _ _ (by rw [h])]
  exact List.take_of_length_le (by rw [List.drop_zero, h])

theorem own_imgKey : imgKey ownImage = ownKey := by rw [imgKey, ownImage, own_slice _ _ _ (by decide), ownSigned_key]
theorem own_imgSigned : imgSigned ownImage = 1408 := by decide +kernel

theorem own_signature : signatureErr ownImage = none := by
  have hd : ownImage.drop 1408 = [0, 0, 0, 0] ++ ownSig ownSigned := List.drop_left' ownSigned_length
  have ht : ownImage.take 1408 = ownSigned := List.take_left' ownSigned_length
  rw [signatureErr, own_imgSigned, own_imgKey, hd, ht, own_passes]

theorem cells_of (l : List Byte) (n : Byte) (h : l.length = 32) :
    memRead 0 (cellsAt 0x120 l ++ cellsAt 0x160 (seedChk (List.replicate 32 0)) ++ [(0x168, 1), (0x300, n)]) 0x120 32 = l := by
  match l, h with
  | [a0, a1, a2, a3, a4, a5, a6, a7, a8, a9, b0, b1, b2, b3, b4, b5, b6, b7, b8, b9, c0, c1, c2, c3, c4, c5, c6, c7, c8, c9,
      d0, d1], _ => rfl

theorem own_skey (rs high off : Bool) : genSkey (ownSt rs high off) 0 = digBytes (sha256 ownKey) :=
  cells_of _ _ (beBytes_length _ _)

theorem own_gen : imgGen ownImage = 0 := by decide +kernel

theorem seed_of (l k : List Byte) (n : Byte) (hl : l.length = 32) (hk : k.length = 8) :
    memRead 0 (cellsAt 0x120 l ++ cellsAt 0x160 k ++ [(0x168, 1), (0x300, n)]) 0x160 8 = k := by
  match l, hl, k, hk with
  | [a0, a1, a2, a3, a4, a5, a6, a7, a8, a9, b0, b1, b2, b3, b4, b5, b6, b7, b8, b9, c0, c1, c2, c3, c4, c5, c6, c7, c8, c9,
      d0, d1], _, [x0, x1, x2, x3, x4, x5, x6, x7], _ => rfl

theorem own_seed (rs high off : Bool) : seedGood (ownSt rs high off) 0 = true := by
  have hs : genSeed (ownSt rs high off) 0 = List.replicate 32 0 := by revert rs high off; decide +kernel
  have hk : (seedChk (List.replicate 32 0)).length = 8 := by simp [seedChk, digBytes, beBytes_length]
  rw [seedGood, hs]
  exact decide_eq_true (seed_of _ _ _ (beBytes_length _ _) hk)

theorem own_curGen (rs high off : Bool) : curGen (ownSt rs high off) = some 0 := by
  have hf : provFlag (ownSt rs high off) 0 = true ∧ revFlag (ownSt rs high off) 0 = false := by
    revert rs high off; decide +kernel
  simp [curGen, hf, own_seed]

/-- What Table 6.1 asks of a header, over any bytes. -/
theorem header_core (s : State) (img key : List Byte) (hk : imgKey img = key) (ht : keyTypesOk key true = true)
    (hl : hssLen (be32 key 0) (be32 key 4) (be32 key 8) = some 1296) (h0 : img.isEmpty = false) (h1 : be32 img 0 = 0x545A5349)
    (h2 : be16 img 4 = 1) (h3 : be16 img 6 = 128) (h4 : imgLen img = 2704) (h5 : imgSigned img = 1408)
    (h6 : imgRollback img = 0) (h7 : be16 img 18 = 0x3208) (h8 : be8 img 20 ≤ s.gc.rev.toNat) (h9 : be16 img 22 = 0)
    (h10 : beNat (slice img 24 8) = 0) (h11 : curGen s = some 0) (h12 : imgGen img = 0)
    (h13 : genSkey s 0 = digBytes (sha256 key)) (h14 : nonzero img 100 28 = false) : headerErrs s img = [] := by
  simp only [headerErrs, hk, ht, hl, h0, h1, h2, h3, h4, h5, h6, h7, h9, h10, h11, h12, h13, h14, Nat.not_lt.mpr h8]
  simp [hdrErr]

theorem own_header (rs high off : Bool) : headerErrs (ownSt rs high off) ownImage = [] :=
  header_core _ _ _ own_imgKey (by decide +kernel) (by decide +kernel) (by decide +kernel) (by decide +kernel) (by decide +kernel)
    (by decide +kernel) (by decide +kernel) own_imgSigned (by decide +kernel) (by decide +kernel)
    (by revert rs high off; decide +kernel) (by decide +kernel) (by decide +kernel) (own_curGen _ _ _) own_gen (own_skey _ _ _)
    (by decide +kernel)

theorem own_walk : walkErrs ownImage 1408 257 1 128 none = [] ∧ presenceErrs ownImage (sectsOf ownImage) = [] ∧
    (imgLen ownImage, imgRollback ownImage, imgPair ownImage) = (2704, 0, false) := by decide +kernel

theorem own_sections (rs high off : Bool) : channelSectErrs (ownSt rs high off) (sectsOf ownImage) = [] ∧
    deviceSectErrs (ownSt rs high off) ownImage (sectsOf ownImage) [] = [] := by revert rs high off; decide +kernel

theorem own_count (rs high off : Bool) : arbCount (ownSt rs high off) = if high then 1 else 0 := by
  revert rs high off; decide +kernel

/-- The image passes every check where the count is not above its rollback value, and gives error 9 where it is. -/
theorem own_image (rs high off : Bool) :
    imageErr (ownSt rs high off) ownImage (arbCount (ownSt rs high off)) [] = if high then some (16, 0, 9) else none := by
  have hr : imgRollback ownImage = 0 := congrArg (·.2.1) own_walk.2.2
  have hs := own_sections rs high off
  simp only [imageErr, own_header, own_signature, own_imgSigned, own_walk.1, own_walk.2.1, hs.1, hs.2, hr, own_count]
  cases high <;> rfl

theorem own_work (rs high off : Bool) : sigWork (ownSt rs high off) = true := by
  have hs : (ownSt rs high off).st.stage = ownImage := rfl
  rw [sigWork, hs, own_header, own_signature]; rfl

/-- The signature's jobs have begun. -/
def ownStart (s : State) : State :=
  match draw .ver .hearth none false .image s with
  | (none, s) => s
  | (some id, s) => hashJobs s 2 id (hssJobs (imgKey s.st.stage) (s.st.stage.drop (imgSigned s.st.stage)) (imgSigned s.st.stage)) .hearth

theorem own_sigStart (rs high off : Bool) : sigStart (ownSt rs high off) = ownStart (ownSt rs high off) := by
  have hu : (unitsWhere (ownSt rs high off) (fun u => u.work = Work.image)).isEmpty = true := by revert rs high off; decide +kernel
  rw [sigStart, if_pos ⟨own_work rs high off, hu⟩]; rfl

/-- Its jobs end where there are engines on line. -/
theorem own_sigEnd (rs high off : Bool) : (sigEnd (ownSt rs high off)).isSome = !off := by
  have h : (match unitsWhere (ownStart (ownSt rs high off)) (fun u => u.work = Work.image) with
    | [] => none
    | id :: _ => (unitDone id 12 (ownStart (ownSt rs high off))).map (fun s => retire s id)).isSome = !off := by
    revert rs high off; decide +kernel
  rw [sigEnd, if_pos (own_work rs high off), own_sigStart]
  exact h

theorem differs_core (a b : List Byte) (c : Ch) (hg : imgGen a = imgGen b) (hk : imgKey a = imgKey b) (hs : sectsOf a = sectsOf b) :
    restructDiffers a b c = false := by simp [restructDiffers, hg, hk, hs, sameBut]

theorem rs_core (s : State) (img : List Byte) (c : Ch) (fl : Nat) (an : List Nat) (h1 : s.st.stage = img) (h2 : s.st.rsTarget = c)
    (h3 : max (arbCount s) s.st.hdr.rollback = fl) (h4 : s.st.anchors.map (·.1) = an) (h5 : imageErr s img fl an = none)
    (h6 : restructDiffers s.st.hdr.bytes img c = false) (h7 : rsInBand s c (parseChan (sectsOf img) c) = false) :
    rsErr s = none := by simp [rsErr, h1, h2, h3, h4, h5, h6, h7, orElseErr]

theorem own_same_gen : imgGen ownSigned = imgGen ownImage := by decide +kernel
theorem own_same_sects : sectsOf ownSigned = sectsOf ownImage := by decide +kernel
theorem own_floor : ∀ off : Bool, max (arbCount (ownSt true false off)) (ownSt true false off).st.hdr.rollback =
    arbCount (ownSt true false off) := by decide +kernel
theorem own_inBand : ∀ off : Bool, rsInBand (ownSt true false off) 0 (parseChan (sectsOf ownImage) 0) = false := by decide +kernel

/-- A restructure to the image in force passes its checks. -/
theorem own_rsErr (off : Bool) : rsErr (ownSt true false off) = none := by
  have ht : (hdrOf ownImage).bytes = ownSigned := by
    rw [hdrOf, own_imgSigned]; exact List.take_left' ownSigned_length
  have hk : imgKey ownSigned = imgKey ownImage := by rw [own_imgKey, imgKey, ownSigned_key]
  have hd : restructDiffers ownSigned ownImage 0 = false := differs_core _ _ _ own_same_gen hk own_same_sects
  have hh : (ownSt true false off).st.hdr.bytes = ownSigned := ht
  exact rs_core _ ownImage 0 _ _ rfl rfl (own_floor off) rfl (own_image true false off) (by rw [hh]; exact hd) (own_inBand off)

theorem test_hyps_LoaderMovesThroughItsStates :
    (live.pd.inReset = false ∧ live.st.state = .empty) ∧ (loadSt .loaded).st.state = .loaded ∧
    ((loadSt .locked).st.state ≠ .empty ∧ (loadSt .locked).st.state ≠ .loaded) ∧ live.st.state ≠ .loading ∧
    (loadSt .loading).st.state = .loading ∧ sourceErr (loadSt .loading) none = some (0, 0, 1) := by decide +kernel

/-- A load that commits, one whose signature's jobs wait, one that a rule rejects and one whose source fails behind its header. -/
theorem test_hyps_load_commits_and_rejects :
    (∀ off : Bool, let s := ownSt false false off
      s.pd.inReset = false ∧ s.st.state = .loading ∧ imageErr s s.st.stage (arbCount s) [] = none ∧ (sigEnd s).isSome = !off) ∧
    (let s := ownSt false true false
     s.pd.inReset = false ∧ s.st.state = .loading ∧ sourceErr s none = none ∧
       imageErr s s.st.stage (arbCount s) [] = some (16, 0, 9) ∧ (sigEnd s).isSome = true) ∧
    (let s := ownSt false false false
     s.st.srcRam = false ∧ 200 < max 128 (imgLen s.st.stage) ∧ firstErr (headerErrs s s.st.stage) = none) := by
  refine ⟨fun off => ⟨rfl, rfl, own_image false false off, own_sigEnd false false off⟩,
    ⟨rfl, rfl, ?_, own_image false true false, own_sigEnd false true false⟩, rfl, ?_, ?_⟩
  · exact congrArg firstErr (own_header false true false)
  · have h : imgLen ownImage = 2704 := congrArg (·.1) own_walk.2.2
    exact h.symm ▸ (by decide)
  · exact congrArg firstErr (own_header false false false)

/-- Locked, with the host of channel 0 held or not, channel 0 restructurable or not, one restructure in progress or not. -/
def rsSt (held can busy : Bool) : State :=
  let s := bsetSt .idle held
  { s with st := { s.st with state := .locked, rsBusy := busy, hdr := { s.st.hdr with restruct := if can then 1 else 0, rollback := 0 } }
           kv := { s.kv with slots := s.kv.slots.set (9 : Fin 128) { typ := 1 } } }

theorem test_hyps_RestructureAndAntiRollback :
    (live.pd.inReset = false ∧ live.st.state ≠ .locked ∧ live.st.state ≠ .restructuring) ∧
    ((rsSt false true false).st.state = .locked ∧ hostHeld (rsSt false true false) 0 = false) ∧
    (hostHeld (rsSt true false false) 0 = true ∧ (rsSt true false false).st.hdr.restruct.getLsbD 0 = false) ∧
    (let s := rsSt true true true
     hostHeld s s.st.rsCh = true ∧ s.st.hdr.restruct.getLsbD s.st.rsCh.val = true ∧ s.st.rsBusy = true) ∧
    (let s := rsSt true true false
     hostHeld s s.st.rsCh = true ∧ s.st.hdr.restruct.getLsbD s.st.rsCh.val = true ∧ s.st.rsBusy = false ∧ s.st.advancing = false ∧
       rawInUse s s.st.rsCh (parseChan (sectsOf (captureImage s)) s.st.rsCh) = false ∧ secretOf s 9 = some [] ∧
       s.st.hdr.rollback ≤ arbCount s) ∧
    { live.st with advancing := true }.advancing = true := by decide +kernel

/-- A restructure that commits and one whose signature's jobs wait; one that its rules reject has no image. -/
theorem test_hyps_restructure_commits :
    (∀ off : Bool, let s := ownSt true false off
      s.pd.inReset = false ∧ s.st.state = .restructuring ∧ (s.ch[s.st.rsTarget]).wr = none ∧ rsErr s = none ∧
        (sigEnd s).isSome = !off) ∧
    rsErr (loadSt .restructuring) ≠ none :=
  ⟨fun off => ⟨rfl, rfl, rfl, own_rsErr off, own_sigEnd true false off⟩, by decide +kernel⟩

/-- A billet of a message of IN0. -/
def msgUnit : Billet := { st := .running, cls := .hs, owner := .inst 0, src := .pool, parent := none, drawn := 0, work := .msg 0 }

/-- IN0 in this state, as an MS0 client. -/
def instSt (st : InstSt) (units : List (Nat × Billet)) : State :=
  { live with inst := live.inst.set (0 : Fin 64) { st := st, cfg := { transport := 1 } }, bt := { live.bt with units := units } }

theorem test_hyps_InstanceCommands :
    (live.pd.inReset = false ∧ (selOf live (.core 0)).inst = 0 ∧ (live.inst[(0 : Inst)]).st = .dormant ∧
      (live.inst[(0 : Inst)]).cfg.transport = 0 ∧ takenNow (live.inst[(0 : Inst)]).ctlBy live.clk.now (Master.core 0) = false) ∧
    (let s := modInst (instSt .active []) 0 (fun x => { x with ctlBy := some (live.clk.now, .core 1) })
     s.pd.inReset = false ∧ (selOf s (.core 0)).inst = 0 ∧ takenNow (s.inst[(0 : Inst)]).ctlBy s.clk.now (Master.core 0) = true) ∧
    (let s := instSt .dormant []
     (s.inst[(0 : Inst)]).st = .dormant ∧ (s.inst[(0 : Inst)]).cfg.transport ≠ 0 ∧ instTaken s 0 = false ∧ inBandBlocked s 0 = false) ∧
    ((instSt .active []).inst[(0 : Inst)]).st = .active ∧
    (let s := instSt .draining []
     (s.inst[(0 : Inst)]).st = .draining ∧ instUnits s 0 = [] ∧ (s.mb.box[(0 : Inst)]).outq = []) ∧
    instUnits (instSt .draining [(1024, msgUnit)]) 0 ≠ [] := by decide +kernel

/-- A CREATE of a dormant client makes it active (R224). -/
theorem test_create_activates : ((after (exec (.create (.core 0)) (instSt .dormant []))).inst[(0 : Inst)]).st = .active := by
  decide +kernel

theorem test_hyps_TrackerGrantsAgesAndSquashes :
    live.bt.waiting.find? (fun w => w.cls = BilletClass.fill && !depsFull live (some w.parent)) = none ∧
    (let w : WaitingDraw := ⟨2, .fill, .ch 0, .readFor 2 ember1⟩
     let s : State := { live with bt := { live.bt with waiting := [w] } }
     s.pd.inReset = false ∧ s.bt.waiting.find? (fun w => w.cls = BilletClass.fill && !depsFull s (some w.parent)) = some w ∧
       (draw .fill w.owner (some w.parent) false w.work s).1 = some 18) ∧
    (let a : Arb := { items := [⟨2, 0, 1, 5⟩] }
     let s : State := { live with ve := { live.ve with tier1 := a }, port := live.port.set (0 : Fin 32) { arb := a } }
     agesAt (msCyc s.bt.arb.ageMs) (tierRing s ((0 : Fin 3).val + 1)) = some 20000005 ∧
     agesAt (msCyc s.bt.arb.portAgeMs) s.port[(0 : Ch)].arb = some 50000005) ∧
    (let s := instSt .active [(1024, msgUnit)]
     (unitOf s (1024 : Fin 4096).val).isSome = true ∧ (∀ c : Ch, s.ch[c].slots = []) ∧ (∀ c : Core, (s.kv.cmd[c]).run = none)) ∧
    (unitOf live (1024 : Fin 4096).val = none ∧ ¬((1024 : Fin 4096).val < 1024 ∧ (1024 : Fin 4096).val % 32 < 2)) := by
  decide +kernel

/-! The hearth. -/

/-- Core 1 runs at the start of the shared RAM with these four bytes in its fetch buffer and x1 pointing into the shared RAM;
debug is closed by an unreadable stage word. -/
def coreSt (w : Word) : State :=
  { live with otp := [(0, 1)]
              he := { live.he with cores := live.he.cores.set (1 : Fin 4) {
                st := .running, pc := 0x20000000#32, regs := (Vector.replicate 32 0).set 1 0x20000100#32
                fbuf := some (0x20000000, leBytes 4 w.toNat ++ fillBytes 12 0) } } }

/-- What `CoreAt` asks of `w` beyond what holds of every word. -/
def coreReady (w : Word) : Bool :=
  coreRuns (coreSt w) 1 && decide (dbgOpen (coreSt w) = false) && decide (rvInterrupt (coreSt w) 1 = none) &&
  decide (w &&& 3#32 = 3#32) &&
  decide ((fetchHalf (coreSt w) 1 ((coreSt w).he.cores[(1 : Core)]).pc.toNat).1.toOption = some (w.extractLsb' 0 16)) &&
  decide ((fetchHalf (coreSt w) 1 (((coreSt w).he.cores[(1 : Core)]).pc + 2).toNat).1.toOption = some (w.extractLsb' 16 16))

theorem of_toOption {β : Type} {x : Except MemFault β × State} {s : State} {v : β} (h : x.1.toOption = some v) (hs : x.2 = s) :
    x = (.ok v, s) := by
  obtain ⟨a, b⟩ := x
  cases a with
  | error e => simp [Except.toOption] at h
  | ok y => simp [Except.toOption] at h; subst h; subst hs; rfl

/-- The fetches leave the state as it is. -/
theorem core_fetch0 (w : Word) : (fetchHalf (coreSt w) 1 0x20000000).2 = coreSt w := rfl
theorem core_fetch2 (w : Word) : (fetchHalf (coreSt w) 1 0x20000002).2 = coreSt w := rfl

theorem core_at (w : Word) (h : coreReady w = true) : CoreAt (coreSt w) 1 w := by
  simp only [coreReady, Bool.and_eq_true, decide_eq_true_eq] at h
  obtain ⟨⟨⟨⟨⟨h1, h2⟩, h3⟩, h4⟩, h5⟩, h6⟩ := h
  exact ⟨rfl, h1, rfl, rfl, rfl, h2, h3, h4, of_toOption h5 (core_fetch0 w), of_toOption h6 (core_fetch2 w)⟩

/-- LUI, AUIPC, JAL, JALR, BEQ, BLT, BLTU, ADDI, ADD, SUB, MUL and DIVU. -/
def intWords : List Word :=
  [0x123452B7, 0x00001297, 0x010000EF, 0x004080E7, 0x00208463, 0x0020C463, 0x0020E463, 0xFFF08293, 0x002082B3, 0x402082B3,
   0x022082B3, 0x0220D2B3]

theorem test_hyps_CoresExecuteIntegerInstructions :
    (∀ w ∈ intWords, CoreAt (coreSt w) 1 w) ∧
    intWords.map rvOp = [0x37, 0x17, 0x6F, 0x67, 0x63, 0x63, 0x63, 0x13, 0x33, 0x33, 0x33, 0x33] ∧
    (intWords.drop 3).map rvF3 = [0, 0, 4, 6, 0, 0, 0, 0, 5] ∧
    (intWords.drop 8).map rvF7 = [0, 0x20, 1, 1] ∧ rvGet (coreSt 0x0220D2B3) 1 (rvRs2 0x0220D2B3) = 0 ∧ 0 < 31 ∧ 31 < 32 ∧
    (rvRun (coreSt 0x002082B3) 1 .ask 0x20000004 0x002082B3).isSome = true := by
  have h : intWords.all coreReady = true := by decide +kernel
  refine ⟨fun w hw => core_at w (List.all_eq_true.mp h w hw), ?_⟩
  decide +kernel

/-- DIVU by zero gives all ones (RISC-V M). -/
theorem test_divu_by_zero :
    (((after (exec (.coreInstruction 1 none) (coreSt 0x0220D2B3))).he.cores[(1 : Core)]).regs[(5 : Fin 32)]) = 0xFFFFFFFF := by
  decide +kernel

/-- LW, SW, a misaligned LW and SW, ECALL, and a word that is no instruction. -/
def memWords : List Word := [0x0000A283, 0x0010A223, 0x0010A283, 0x0010A123, 0x00000073, 0xFFFFFFFF]

theorem test_hyps_CoresLoadStoreAndTrap :
    (∀ w ∈ memWords, CoreAt (coreSt w) 1 w) ∧
    (let s := coreSt 0x0000A283
     let a := (rvGet s 1 (rvRs1 0x0000A283) + rvImmI 0x0000A283).toNat
     rvOp 0x0000A283 = 0x03 ∧ rvF3 0x0000A283 = 2 ∧ a % 4 = 0 ∧
       coreTranslate s 1 (dataUser s.he.cores[(1 : Core)]) .load a 4 = (.ok (sharedBase + 0x100), s) ∧ 0x100 + 4 ≤ sharedSize ∧
       ramBad s (sharedBase + 0x100) 4 = false) ∧
    (let s := coreSt 0x0010A223
     let a := (rvGet s 1 (rvRs1 0x0010A223) + rvImmS 0x0010A223).toNat
     rvOp 0x0010A223 = 0x23 ∧ rvF3 0x0010A223 = 2 ∧ a % 4 = 0 ∧
       coreTranslate s 1 (dataUser s.he.cores[(1 : Core)]) .store a 4 = (.ok (sharedBase + 0x104), s)) ∧
    (let s := coreSt 0x0010A283
     rvOp 0x0010A283 = 0x03 ∧ rvF3 0x0010A283 = 2 ∧ (rvGet s 1 (rvRs1 0x0010A283) + rvImmI 0x0010A283).toNat % 4 ≠ 0) ∧
    (let s := coreSt 0x0010A123
     rvOp 0x0010A123 = 0x23 ∧ rvF3 0x0010A123 = 2 ∧ (rvGet s 1 (rvRs1 0x0010A123) + rvImmS 0x0010A123).toNat % 4 ≠ 0) ∧
    rvRun (coreSt 0xFFFFFFFF) 1 .ask 0x20000004 0xFFFFFFFF = none := by
  have h : memWords.all coreReady = true := by decide +kernel
  have n : (rvRun (coreSt 0xFFFFFFFF) 1 .ask 0x20000004 0xFFFFFFFF).isNone = true := by decide +kernel
  refine ⟨fun w hw => core_at w (List.all_eq_true.mp h w hw), ⟨by decide +kernel, by decide +kernel, by decide +kernel,
    of_toOption (by decide +kernel) rfl, by decide +kernel, by decide +kernel⟩, ⟨by decide +kernel, by decide +kernel, by decide +kernel,
    of_toOption (by decide +kernel) rfl⟩, by decide +kernel, by decide +kernel, Option.isNone_iff_eq_none.mp n⟩

/-- ECALL from machine mode traps with cause 11. -/
theorem test_ecall_cause :
    ((after (exec (.coreInstruction 1 none) (coreSt 0x00000073))).he.cores[(1 : Core)]).mcause = 11 := by decide +kernel

/-- Core 1 HELD with this entry; another core waits for an own-store read that is next at the own store's port. -/
def ctlSt : State :=
  { live with he := { live.he with entry := live.he.entry.set (1 : Fin 4) 0x20000000#32
                                   cores := live.he.cores.set (2 : Fin 4) { st := .running, osWait := true } }
              os := { live.os with arb := { items := [⟨19, 64, 4, 0⟩] } } }

theorem test_hyps_CoreControlAndTranslation :
    (ctlSt.pd.inReset = false ∧ (1 : Core) ≠ 0 ∧ (ctlSt.he.cores[(1 : Core)]).st = .held ∧
      rowOf (ctlSt.he.entry[(1 : Core)]).toNat ∈ [some MapRow.shared, some .rom, some .ownTcm, some .tcm]) ∧
    (ctlSt.he.cores[(2 : Core)]).st ≠ .held ∧ rowOf 0x80000 = none ∧ coreRuns ctlSt 3 = false ∧
    (ctlSt.he.cores[(3 : Core)]).osWait = false ∧
    ((ctlSt.he.cores[(2 : Core)]).osWait = true ∧ coreRuns ctlSt 2 = true ∧ osErasing ctlSt = false ∧
      (osGrant ctlSt (17 + (2 : Core).val)).isSome = true ∧
      (osGrant { ctlSt with os := live.os } (17 + (2 : Core).val)).isNone = true) ∧ ctlSt.clk.resetAt ≤ ctlSt.clk.now ∧
    (bf (0x33 : Word) 0 5 = (19 : Fin 20).val ∧ (0x33 : Word).getLsbD 5 = true) ∧ (bf (0x13 : Word) 0 5 = 19 ∧ (0x13 : Word).getLsbD 5 = false) ∧
    20 ≤ bf (0x14 : Word) 0 5 ∧ (3 : Fin 20).val < 4 ∧
    (let d : DmaCh := { st := .running }
     (19 : Fin 20).val = 4 + (15 : Fin 16).val ∧ d.st ≠ .idle ∧ d.st ≠ .faulted) := by decide +kernel

/-- A FILL descriptor of 256 bytes to address 0x1000, which channel 0's translation cache maps into the shared RAM. -/
def fillDesc : Vector Word 8 := #v[0x00000001, 0xA5A5A5A5, 0x1000, 256, 0, 0, 0, 0]
def dmaSt (d : DmaCh) : State :=
  { live with he := { live.he with dma := live.he.dma.set (0 : Fin 16) d
                                   movers := live.he.movers.set (0 : Fin 4) (some (0, 0))
                                   root := live.he.root.set (4 : Fin 20) 1
                                   tlb := live.he.tlb.set (4 : Fin 20) [⟨1, 0x20000, true, true, false⟩] } }

theorem test_hyps_JobDmaCommands :
    (kvOwner (0xFF : BitVec 8) = some .hearth ∧ live.pd.inReset = false ∧ (live.he.dma[(0 : Fin 16)]).st = .idle ∧
      (live.he.dma[(0 : Fin 16)]).cls = 0 ∧ takenNow (live.he.dma[(0 : Fin 16)]).ctlBy live.clk.now (Master.core 0) = false) ∧
    takenNow ((dmaSt { ctlBy := some (live.clk.now, .core 1) }).he.dma[(0 : Fin 16)]).ctlBy live.clk.now (Master.core 0) = true ∧
    kvOwner ((dmaSt { owner := 0x80 }).he.dma[(0 : Fin 16)]).owner = none ∧
    (let s := dmaSt { cls := 1, ctlBy := some (0, .core 0) }
     (s.he.dma[(0 : Fin 16)]).cls ≠ 0 ∧ kvOwner (s.he.dma[(0 : Fin 16)]).owner = some .hearth ∧
       (draw (dmaClass (s.he.dma[(0 : Fin 16)])) .hearth none false (.dma 0) s).1 = some 1024) ∧
    (let s := dmaSt { cls := 1, owner := 0, ctlBy := some (0, .core 0) }
     kvOwner (s.he.dma[(0 : Fin 16)]).owner = some (.inst 0) ∧
       (draw (dmaClass (s.he.dma[(0 : Fin 16)])) (.inst 0) none false (.dma 0) s).1 = none) ∧
    ((dmaSt { st := .faulted }).he.dma[(0 : Fin 16)]).st = .faulted ∧ ((dmaSt { st := .faulted }).he.dma[(0 : Fin 16)]).st ≠ .idle ∧
    ((dmaSt { st := .waiting }).he.dma[(0 : Fin 16)]).st = .waiting ∧ ((dmaSt { st := .waiting }).he.dma[(0 : Fin 16)]).aged = false ∧
    (let s := dmaSt { st := .running, held := some fillDesc }
     s.he.movers[(0 : Fin 4)] = some (0, 0) ∧ (s.he.dma[(0 : Fin 16)]).held = some fillDesc ∧ dOp fillDesc = 1 ∧
       0 + dmaBeatLen fillDesc 0 < dLen fillDesc ∧
       (let u := dmaWrite s 0 ((fillDesc[2].toNat + if dDfix fillDesc then 0 else 0) % 2 ^ 32) (dDfix fillDesc)
          (dmaPattern fillDesc[1] 0 (dmaBeatLen fillDesc 0))
        u.1 = none ∧ (u.2.he.dma[(0 : Fin 16)]).st = .running)) := by decide +kernel

/-- The first beat of the FILL writes its pattern to the mapped page. -/
theorem test_fill_beat_writes :
    memGet 0 (after (exec (.dmaBeat 0 none) (dmaSt { st := .running, held := some fillDesc }))).he.ram 0x20000000 = 0xA5 := by
  decide +kernel

theorem test_hyps_InterruptsTimerAndDebug :
    live.pd.inReset = false ∧ dbgOpen (coreSt 0) = false ∧ factoryOpen (coreSt 0) = false ∧ dbgOpen live = true ∧
    (0x10 : BitVec 5) = 0x10 ∧ (∃ ir : BitVec 5, ir ≠ Config.tapSample) ∧ live.lc.tapIr ≠ 0x11 ∧
    ({ live.lc with tapIr := 0x11 } : Lc).tapIr = 0x11 ∧ (0x11 : BitVec 7) ≠ 0x3C :=
  ⟨by decide +kernel, by decide +kernel, by decide +kernel, by decide +kernel, rfl,
   ⟨Config.tapSample + 1, fun h => by
      have := congrArg BitVec.toNat h
      rw [BitVec.toNat_add] at this
      have := Config.tapSample.isLt
      simp at *⟩, by decide +kernel, rfl, by decide⟩


/-! The sequencer. -/

/-- A configured step: operation, graph, ON_FAIL CONTINUE, its action on a platform fault, and its parameters. -/
def stepOf (op : Nat) (down cont : Bool) (act p0 p1 p2 : Nat) : Step := ⟨op, down, true, cont, act, [], p0, p1, p2, 1000⟩

/-- The sequencer RUNNING with step 0 configured so and in this state, on SMBus port 0. -/
def sqSt (g : GraphSt) (c : Step) (r : StepRt) : State :=
  { live with sq := { live.sq with graph := g, pfHold := 3, portBusy := live.sq.portBusy.set (0 : Fin 4) (some 0)
                                   cfg := { live.sq.cfg with steps := [c], smbSpeed := Vector.replicate 4 1 }
                                   steps := live.sq.steps.set (0 : Fin 128) r } }

/-- Step 0 RUNNING. -/
def runSt (op smb : Nat) (held : Option Nat) (cont down : Bool) : State :=
  sqSt .running (stepOf op down cont 0 5 0x100 0) { st := .running, heldSince := held, smb := smb }

theorem test_hyps_SequencerStepsEndAsTheirOperationsSay :
    (∀ op : Fin 6, let s := runSt op.val 0 none false false
      s.pd.inReset = false ∧ stepCfg s (0 : Fin 128).val = some (stepOf op.val false false 0 5 0x100 0) ∧
      (s.sq.steps[(0 : Fin 128)]).st = .running) ∧
    ((runSt 2 0 (some 0) false false).sq.steps[(0 : Fin 128)]).heldSince = some 0 ∧
    (∀ cont down : Bool, let c := stepOf 2 down cont 0 5 0x100 0
      (runSt 2 0 none cont down).sq.graph = .running ∧ c.onFailContinue = cont ∧ c.shutdownGraph = down) ∧
    (∀ smb : Fin 5, 2 ≤ smb.val → let s := runSt 5 smb.val none false false
      s.sq.portBusy[(0 : Fin 4)] = some (0 : Fin 128).val ∧ (s.sq.steps[(0 : Fin 128)]).smb = smb.val) ∧
    (let s := runSt 2 0 (some 0) false false
     0 + waitFilter (stepOf 2 false false 0 5 0x100 0) ≤ (s.sq.steps[(0 : Fin 128)]).startAt + usCyc 1000) ∧
    (∀ bankedUnit : Bool, let s := runSt 4 2 none false false
      let s : State := { s with pr := { s.pr with fitted := bankedUnit, burning := false } }
      isPmb (stepOf 4 false false 0 5 0x100 0) = true ∧ isBanked s = bankedUnit) ∧
    (∀ j : Fin 128, faultDue (reachTime (runSt 2 0 none false false) (usCyc 1000)) j = false) ∧
    (runSt 2 0 none false false).sq.graph = .running ∧
    (smbErrNo .noAck ≠ 0 ∧ smbErrNo .pec ≠ 0 ∧ smbErrNo .timeout ≠ 0) ∧ smbMask 1 0x1234 &&& (0x00FF00FF % 65536) ≠ 0x00FF00FF / 65536 := by
  decide +kernel

/-- A DELAY's expiry makes its step DONE no earlier than its TIME. -/
theorem test_delay_expiry :
    let t := after (exec (.delayExpiry 0) (runSt 3 0 none false false))
    (t.sq.steps[(0 : Fin 128)]).st = .done ∧ t.clk.now = 500000 := by decide +kernel

/-- A step that fails in the power-up graph faults the sequencer when there is no shutdown graph. -/
theorem test_step_timeout_faults :
    (after (exec (.stepTimeout 0) (runSt 2 0 none false false))).sq.graph = .faulted := by decide +kernel

/-- The watched step 0 in watch state `w`, its fault action `act`. -/
def pfSt (g : GraphSt) (w act : Nat) (held away : Option Nat) : State :=
  let s := sqSt g (stepOf 2 false false act 5 0x101 6) { st := .done, watch := w, heldSince := held, awaySince := away }
  { s with sq := { s.sq with minHoldTo := s.sq.minHoldTo.set (0 : Fin 32) (some 9) } }

theorem test_hyps_SequencerCommandsAndPlatformFaults :
    (∀ g ∈ [GraphSt.off, .faulted, .running, .up], (pfSt g 1 0 none none).pd.inReset = false ∧
      (pfSt g 1 0 none none).sq.graph = g) ∧ GraphSt.idle ≠ .running ∧ GraphSt.idle ≠ .up ∧ GraphSt.idle ≠ .off ∧
      GraphSt.idle ≠ .faulted ∧
    (∀ act : Fin 3, let s := pfSt .up 1 act.val none (some 7)
      stepCfg s (0 : Fin 128).val = some (stepOf 2 false false act.val 5 0x101 6) ∧
      (s.sq.steps[(0 : Fin 128)]).watch = 1 ∧ (s.sq.steps[(0 : Fin 128)]).awaySince = some 7) ∧
    (let s := pfSt .up 2 0 (some 7) none
     (s.sq.steps[(0 : Fin 128)]).watch = 2 ∧ (s.sq.steps[(0 : Fin 128)]).watch ≠ 1 ∧
       (s.sq.steps[(0 : Fin 128)]).heldSince = some 7 ∧ s.sq.minHoldTo[(0 : Fin 32)] = some 9) ∧
    (∀ (j : Fin 128) (c : Step), stepCfg (pfSt .up 2 0 none none) j.val = some c → waitFilter c ≠ 0) ∧
    (∀ v : Bool, let s := runSt 2 0 none false false
      ((if v then s else { s with sq := { s.sq with ioIn := 0x20 } }).sq.ioIn.getLsbD (5 : Fin 96).val = !v)) ∧
    (let c := stepOf 2 false false 0 5 0x100 0
     c.op = 2 ∧ c.p0 = (5 : Fin 96).val ∧ waitFilter c ≠ 0) ∧
    (∀ j : Fin 128, faultNow (runSt 2 0 none false false) 5 true j = false ∧ levelEnds (runSt 2 0 none false false) 5 true j = false) ∧
    (let s := pfSt .up 1 0 none (some 7)
     ∀ j : Fin 128, j ≠ 0 → faultDue (reachTime s (7 + waitFilter (stepOf 2 false false 0 5 0x101 6))) j = false) := by
  refine ⟨by decide +kernel, by decide, by decide, by decide, by decide, by decide +kernel, by decide +kernel, ?_, by decide +kernel,
    by decide +kernel, by decide +kernel, by decide +kernel⟩
  intro j c h
  have m : c ∈ [stepOf 2 false false 0 5 0x101 6] := List.mem_of_getElem? (l := (pfSt .up 2 0 none none).sq.cfg.steps) h
  rw [List.mem_singleton] at m
  subst m
  decide

/-- A platform fault whose action is LOG holds no line; one whose action is HOLD holds the lines of its mask. -/
theorem test_platform_fault_holds :
    (after (exec (.platformFault 0) (pfSt .up 1 2 none (some 0)))).sq.pfHold = 3 ∧
    (after (exec (.platformFault 0) (pfSt .up 1 0 none (some 0)))).sq.pfHold = 7 := by decide +kernel

/-- Kindling's transaction: port 0 at this speed. -/
def smbSt (busy read : Bool) (len : BitVec 2) (speed : Nat) (x : Option (Word × BitVec 16)) : State :=
  { live with sq := { live.sq with smbBusy := busy, smbRead := read, smbLen := len, smbTxn := x
                                   portBusy := live.sq.portBusy.set (0 : Fin 4) (some 128)
                                   cfg := { live.sq.cfg with smbSpeed := Vector.replicate 4 speed } } }

theorem test_hyps_KindlingSmbusTransactions :
    (∀ read : Bool, let s := smbSt false read 1 1 none
      s.pd.inReset = false ∧ s.sq.smbBusy = false ∧ s.sq.cfg.smbSpeed[s.sq.smbPort] ≠ 0 ∧ s.sq.smbLen ≠ 3 ∧
      (s.sq.smbRead = true → s.sq.smbLen ≠ 0) ∧ s.sq.smbTxn = none) ∧
    (smbSt true false 1 1 none).sq.smbBusy = true ∧
    (smbSt false false 1 0 none).sq.cfg.smbSpeed[(smbSt false false 1 0 none).sq.smbPort] = 0 ∧
    ((smbSt false true 0 1 none).sq.smbRead = true ∧ (smbSt false true 0 1 none).sq.smbLen = 0) ∧
    (smbSt false false 3 1 none).sq.smbLen = 3 ∧
    (∀ v : Bool, let x : Word × BitVec 16 := (if v then 0x80 else 0, 0)
      (smbSt true v 1 1 (some x)).sq.smbTxn = some x ∧ (smbSt true v 1 1 (some x)).sq.portBusy[(0 : Fin 4)] = some 128 ∧
      x.1.getLsbD 7 = v) ∧ (∀ d : BitVec 16, SmbResult.noAck ≠ SmbResult.ok d) := by
  refine ⟨by decide +kernel, by decide +kernel, by decide +kernel, by decide +kernel, by decide +kernel, by decide +kernel, ?_⟩
  intro d h
  cases h

/-- START copies the control word and the data (R505). -/
theorem test_smb_start_copies :
    (after (exec (.smbStart (.core 0)) { smbSt false false 1 1 none with
      sq := { (smbSt false false 1 1 none).sq with portBusy := Vector.replicate 4 none, smbData := 0x55 } })).sq.smbTxn.map (·.2) =
      some 0x55 := by decide +kernel

/-! The key vault. -/

/-- A blob of 48 zero bytes wrapped by that key with a nonce of zeros (Table 10.6), its tag computed by AES-256-GCM. -/
def blob96 : List Byte :=
  beBytes 4 0x545A5742 ++ [1, 0, 0, 1] ++ List.replicate 60 0 ++
    [233, 148, 225, 123, 118, 208, 72, 216, 118, 215, 254, 116, 55, 155, 76, 201] ++ List.replicate 12 0

/-- A GCM parameter block: nonce of zeros, 4 bytes of associated data, and 16 bytes. -/
def gcmBlock : List Byte :=
  List.replicate 12 0 ++ [0, 2, 0, 0x20, 4, 0, 0, 0, 0, 3, 0, 0x20, 0, 4, 0, 0x20, 16, 0, 0, 0]

/-- Core 0's command set with these arguments, slot 16 and the bytes `l` at the start of the shared RAM. -/
def kvSt (x : Slot) (l : List Byte) (a : Vector Word 4) : State :=
  { live with kv := { live.kv with cmd := live.kv.cmd.set (0 : Fin 4) { arg := a }
                                   slots := live.kv.slots.set (16 : Fin 128) x }
              mb := { live.mb with lms := live.mb.lms.set (0 : Fin 2) { valid := true, ready := true, slot := 16, n := 1024 } }
              he := { live.he with ram := cellsAt 0x20000000 l } }

/-- The state in which the operation's billet has been drawn, and in which it then waits for the unit. -/
def kvU (op : BitVec 5) (s : State) : State :=
  (draw (if (s.kv.cmd[(0 : Core)]).bg ∧ op ≠ 14 then .bg else .ver) .hearth none false (.vault 0)
    (modKvc s 0 (fun k => { k with op := op }))).2
def kvW (op : BitVec 5) (s : State) : State :=
  let run : KvRun := { op := op.toNat, owner := (s.kv.cmd[(0 : Core)]).owner, billet := 1024, uses := [], dst := 0, dstLen := 0, code := 0,
                       out0 := 0, out1 := 0, commit := none, waits := false, taken := false }
  kvQueue (modKvc (kvU op s) 0 (fun k => { k with run := some run })) { id := 1024, q := ownerQ .hearth, cost := 1, enq := (kvU op s).clk.now }

/-- The unit's pick from its queues, and the state in which it has taken it. -/
def kvPick (s : State) : Option (QItem × Bool × Arb) := arbPick s.clk.now (hashAge s) 97 1 (kvWeight s) s.kv.arb
def kvV (op : BitVec 5) (s : State) : State :=
  match kvPick (kvW op s) with
  | some (_, _, a) => { kvW op s with kv := { (kvW op s).kv with arb := a } }
  | none => kvW op s

/-- What `KvStarts` asks, as data. -/
def kvReady (op : BitVec 5) (s : State) : Bool :=
  decide (s.pd.inReset = false) && decide ((s.kv.cmd[(0 : Core)]).run = none) &&
  decide (kvOwner (s.kv.cmd[(0 : Core)]).owner = some .hearth) &&
  decide ((draw (if (s.kv.cmd[(0 : Core)]).bg ∧ op ≠ 14 then .bg else .ver) .hearth none false (.vault 0)
    (modKvc s 0 (fun k => { k with op := op }))).1 = some 1024) &&
  decide (kvInFlight (kvW op s) < 8) && decide (zeroMark (kvW op s) = false) &&
  decide ((kvPick (kvW op s)).map (fun x => (x.1.id, x.2.2.items, x.2.2.aged)) = some (1024, [], [])) &&
  decide (∀ d : Core, d ≠ 0 → (s.kv.cmd[d]).run = none) &&
  decide (commitAhead (kvV op s) 0 (kvArg (kvV op s).kv.cmd[(0 : Core)] 0 % 128) = false) &&
  decide (commitAhead (kvV op s) 0 (kvArg (kvV op s).kv.cmd[(0 : Core)] 1 % 128) = false)

theorem kv_starts (op : BitVec 5) (s : State) (h : kvReady op s = true) : KvStarts op 0 s 1024 (kvV op s) := by
  simp only [kvReady, Bool.and_eq_true, decide_eq_true_eq] at h
  obtain ⟨⟨⟨⟨⟨⟨⟨⟨⟨h1, h2⟩, h3⟩, h4⟩, h5⟩, h6⟩, h7⟩, h8⟩, h9⟩, h10⟩ := h
  cases hp : kvPick (kvW op s) with
  | none => rw [hp] at h7; cases h7
  | some x =>
    obtain ⟨i, ag, a⟩ := x
    have hv : kvV op s = { kvW op s with kv := { (kvW op s).kv with arb := a } } := by simp only [kvV, hp]
    rw [hp] at h7
    simp only [Option.map_some, Option.some.injEq, Prod.mk.injEq] at h7
    refine ⟨h1, h2, .hearth, kvU op s, i, ag, a, h3, Prod.ext h4 rfl, ⟨h5, h6, hp, h7.1, h7.2.1, h7.2.2, hv⟩, ?_, h9, fun _ => h10⟩
    intro d hd r hr
    rw [h8 d hd] at hr; cases hr

/-- An operation outstanding that the unit has taken, or not. -/
def runRec (w : Bool) (commit : Option Nat) (uses : List Nat) : KvRun :=
  ⟨7, 0xFF, 1024, uses, 0, 0, 0, 0, 0, commit, w, true, none, []⟩
def fresh (op : Nat) (taken : Bool) : KvRun := ⟨op, 0xFF, 1024, [], 0, 0, 0, 0, 0, none, false, taken, none, []⟩

/-- Core 0's operation outstanding, and core 1's using slot 16 where `other`. -/
def outSt (r : KvRun) (other : Bool) : State :=
  { live with kv := { live.kv with
      cmd := (live.kv.cmd.set (0 : Fin 4) { run := some r }).set (1 : Fin 4) { run := if other then some (runRec false none [16]) else none }
      slots := live.kv.slots.set (16 : Fin 128) { keySlot with pend := some [1] } } }

theorem test_hyps_VaultTurnsOperationsAwayAndEndsThem :
    ((outSt (runRec false none []) false).pd.inReset = false ∧
      ((outSt (runRec false none []) false).kv.cmd[(0 : Core)]).run.isSome = true) ∧
    (∀ op : Fin 15, let s := { live with kv := { live.kv with cmd := live.kv.cmd.set (0 : Fin 4) { owner := 0 } } }
      (s.kv.cmd[(0 : Core)]).run = none ∧ kvOwner (s.kv.cmd[(0 : Core)]).owner = some (.inst 0) ∧
      (draw (if (s.kv.cmd[(0 : Core)]).bg ∧ op ≠ 13 then .bg else .ver) (.inst 0) none false (.vault 0)
        (modKvc s 0 (fun k => { k with op := BitVec.ofNat 5 (op.val + 1) }))).1 = none) ∧
    ((runRec false none []).waits = false ∧ (runRec false none []).commit = none ∧ (runRec false none []).op ≠ 14 ∧
      (kvWorked (outSt (runRec false none []) false) (runRec false none [])).isSome = true) ∧
    (let s := outSt (runRec true none [16]) true
     let s := modKvc s 1 (fun k => { k with run := some (runRec false (some 16) []) })
     (runRec true none [16]).waits = true ∧ [16].any (commitAhead s 0) = true) ∧
    (kvWorked (outSt (fresh 1 false) false) (fresh 1 false)).isNone = true ∧
    ((fresh 14 true).code = 0 ∧ (kvWorked (outSt (fresh 14 true) false) (fresh 14 true)).isSome = true) ∧
    ((runRec false (some 16) []).commit = some (16 : Fin 128).val ∧
      (kvWorked (outSt (runRec false (some 16) []) false) (runRec false (some 16) [])).isSome = true) ∧
    (let r := { fresh 2 true with fill := some ((17 : Fin 128).val, keySlot) }
     r.fill = some ((17 : Fin 128).val, keySlot) ∧ keySlot.gen = (live.kv.slots[(17 : Fin 128)]).gen ∧ (fresh 2 true).fill = none) ∧
    (∀ o : Bool, usedBy (outSt (runRec false (some 16) []) o) 0 (16 : Fin 128).val = o) := by
  refine ⟨by decide +kernel, by decide +kernel, by decide +kernel, by decide +kernel, by decide +kernel, by decide +kernel,
    by decide +kernel, by decide +kernel, by decide +kernel⟩

/-- A COMMIT takes effect at its end: the pending half is current and GEN is one higher (R310). -/
theorem test_commit_at_end :
    let t := after (exec (.kvOpEnd 0) (outSt (runRec false (some 16) []) false))
    (t.kv.slots[(16 : Fin 128)]).material = [1] ∧ (t.kv.slots[(16 : Fin 128)]).gen = 1 := by decide +kernel

/-- DERIVE, GENERATE: child 17, a secret of use bit 0; UNWRAP; WRAP; REVOKE; REPLACE; COMMIT; CANCEL; KCV. -/
def deriveSt : State := kvSt keySlot [] #v[16, 0x10111, 0x20000000, 4]
def unwrapSt : State := kvSt keySlot blob96 #v[16, 17, 0x20000000, 0]
def wrapSt : State := kvSt keySlot [] #v[16, 16, 0x20000000, 0]
def replaceSt : State := kvSt keySlot [] #v[16, 1, 0, 0]
def pendSt : State := kvSt { keySlot with pend := some [1] } [] #v[16, 0, 0, 0]
def lockSt : State := kvSt { keySlot with lock := true } [] #v[16, 0, 0, 0]

theorem test_hyps_VaultKeyOperationsFillReplaceAndRevoke :
    (∀ op : BitVec 5, op = 1 ∨ op = 2 → let u := kvV op deriveSt
      let k := u.kv.cmd[(0 : Core)]
      KvStarts op 0 deriveSt 1024 u ∧ kvHandle u k (kvArg k 0) = .inr 16 ∧ childArg (kvArg k 1) = some (17, 1, 1) ∧
      childCheck u 16 0 (17 : Fin 128).val = 0 ∧ usageOk u 16 1 1 = true ∧
      (∃ l ctx, labelCtx u (kvArg k 2) (kvArg k 3 % 128) = .inr (l, ctx)) ∧ (∃ m v, entropyBytes u (matLen 1) = (some m, v))) ∧
    (let u := kvV 3 unwrapSt
     let k := u.kv.cmd[(0 : Core)]
     let b := ramRead u (kvArg k 2) 96
     KvStarts 3 0 unwrapSt 1024 u ∧ kvHandle u k (kvArg k 0) = .inr 16 ∧ (17 : Fin 128).val = kvArg k 1 % 128 ∧
     childCheck u 16 4 (17 : Fin 128).val = 0 ∧ kvRange (kvArg k 2) 96 = true ∧ be32 b 0 = 0x545A5742 ∧ be8 b 4 = 1 ∧
     be16 b 6 ≤ 255 ∧ usageOk u 16 (be8 b 4) (be16 b 6) = true ∧
     gcmTag (u.kv.slots[(16 : Fin 128)]).material (slice b 8 12) (b.take 20) (slice b 20 48) = slice b 68 16) ∧
    (let u := kvV 4 wrapSt
     let k := u.kv.cmd[(0 : Core)]
     KvStarts 4 0 wrapSt 1024 u ∧ kvHandle u k (kvArg k 0) = .inr 16 ∧ kvHandle u k (kvArg k 1) = .inr 16 ∧
     (u.kv.slots[(16 : Fin 128)]).typ = 1 ∧ hasUse u 16 4 = true ∧ hasUse u 16 5 = true ∧ kvRange (kvArg k 2) 96 = true ∧
     (∃ n v, entropyBytes u 12 = (some n, v))) ∧
    (KvStarts 5 0 replaceSt 1024 (kvV 5 replaceSt) ∧ ((kvV 5 replaceSt).kv.slots[(16 : Fin 128)]).lock = false ∧
      kvHandle (kvV 5 replaceSt) (kvV 5 replaceSt).kv.cmd[(0 : Core)] 16 = .inr 16) ∧
    (KvStarts 5 0 lockSt 1024 (kvV 5 lockSt) ∧ ((kvV 5 lockSt).kv.slots[(16 : Fin 128)]).lock = true ∧
      kvHandle (kvV 5 lockSt) (kvV 5 lockSt).kv.cmd[(0 : Core)] 16 = .inr 16) ∧
    (let u := kvV 6 replaceSt
     let k := u.kv.cmd[(0 : Core)]
     KvStarts 6 0 replaceSt 1024 u ∧ kvHandle u k (kvArg k 0) = .inr 16 ∧ (u.kv.slots[(16 : Fin 128)]).lock = false ∧
     (u.kv.slots[(16 : Fin 128)]).typ ≠ 3 ∧ (u.kv.slots[(16 : Fin 128)]).pend = none ∧ kvArg k 1 % 2 = 1 ∧
     (∃ m v, entropyBytes u (matLen (u.kv.slots[(16 : Fin 128)]).typ) = (some m, v))) ∧
    (∀ op : BitVec 5, op = 7 ∨ op = 8 ∨ op = 9 → let u := kvV op pendSt
      let k := u.kv.cmd[(0 : Core)]
      KvStarts op 0 pendSt 1024 u ∧ kvHandle u k (kvArg k 0) = .inr 16 ∧ (u.kv.slots[(16 : Fin 128)]).pend = some [1]) := by
  refine ⟨?_, ⟨kv_starts _ _ (by decide +kernel), by decide +kernel⟩, ⟨kv_starts _ _ (by decide +kernel), by decide +kernel,
    by decide +kernel, by decide +kernel, by decide +kernel, by decide +kernel, by decide +kernel, some_pair (by decide +kernel)⟩,
    ⟨kv_starts _ _ (by decide +kernel), by decide +kernel⟩, ⟨kv_starts _ _ (by decide +kernel), by decide +kernel⟩,
    ⟨kv_starts _ _ (by decide +kernel), by decide +kernel, by decide +kernel, by decide +kernel, by decide +kernel,
      by decide +kernel, some_pair (by decide +kernel)⟩, ?_⟩
  · rintro op (rfl | rfl)
    · exact ⟨kv_starts _ _ (by decide +kernel), by decide +kernel, by decide +kernel, by decide +kernel, by decide +kernel,
        ⟨List.replicate 16 0, List.replicate 4 0, by decide +kernel⟩, some_pair (by decide +kernel)⟩
    · exact ⟨kv_starts _ _ (by decide +kernel), by decide +kernel, by decide +kernel, by decide +kernel, by decide +kernel,
        ⟨List.replicate 16 0, List.replicate 4 0, by decide +kernel⟩, some_pair (by decide +kernel)⟩
  · rintro op (rfl | rfl | rfl)
    · exact ⟨kv_starts _ _ (by decide +kernel), by decide +kernel⟩
    · exact ⟨kv_starts _ _ (by decide +kernel), by decide +kernel⟩
    · exact ⟨kv_starts _ _ (by decide +kernel), by decide +kernel⟩

/-- REVOKE empties the slot and raises its GEN. -/
theorem test_revoke : (after (exec (.revoke 0) replaceSt)).kv.slots[(16 : Fin 128)] = { gen := 1 } := by decide +kernel

/-- HMAC, GCM and the signing operations. -/
def hmacSt : State := kvSt keySlot [] #v[16, 0x20000000, 0x20000100, 65536]
def gcmSt : State := kvSt keySlot gcmBlock #v[16, 0x20000000, 0, 0]
def signSt (ready : Bool) : State :=
  let s := kvSt { keySlot with typ := 2 } [] #v[16, 0x20000000, 0x20002000, 4096]
  { s with mb := { s.mb with lms := s.mb.lms.set (0 : Fin 2) { valid := true, ready := ready, slot := 16, n := 1024, jbusy := true } } }
def aliasSt : State := kvSt { keySlot with typ := 2 } [] #v[16, 17, 0x20000000, 0]
def treeUnit : Billet := { st := .running, cls := .bg, owner := .hearth, src := .floor, parent := none, drawn := 0, work := .tree 0 }
def treeSt (runs : Bool) : State :=
  let s := signSt false
  { s with bt := { live.bt with units := [(1024, treeUnit)] }
           ve := { s.ve with engines := s.ve.engines.set (3 : Fin 12) (if runs then some { job := { job3 with billet := 1024 }, startAt := 0 }
                                                                        else none) } }

theorem test_hyps_VaultDataAndSigningOperations :
    (let u := kvV 10 hmacSt
     let k := u.kv.cmd[(0 : Core)]
     KvStarts 10 0 hmacSt 1024 u ∧ kvHandle u k (kvArg k 0) = .inr 16 ∧ (u.kv.slots[(16 : Fin 128)]).typ = 1 ∧ hasUse u 16 1 = true ∧
     0 < kvArg k 3 ∧ kvArg k 3 ≤ 65536 ∧ kvRange (kvArg k 1) 32 = true ∧ kvRange (kvArg k 2) (kvArg k 3) = true) ∧
    (∀ op : BitVec 5, op = 11 ∨ op = 12 → let u := kvV op gcmSt
      let k := u.kv.cmd[(0 : Core)]
      let pb := ramRead u (kvArg k 1) 32
      let w := fun (j : Nat) => leNat (slice pb (4 * j) 4)
      KvStarts op 0 gcmSt 1024 u ∧ kvHandle u k (kvArg k 0) = .inr 16 ∧ (u.kv.slots[(16 : Fin 128)]).typ = 1 ∧
      kvRange (kvArg k 1) 32 = true ∧ w 4 ≤ 4096 ∧ kvRange (w 3) (w 4) = true ∧ 0 < w 7 ∧ w 7 ≤ 65536 ∧ hasUse u 16 2 = true ∧
      hasUse u 16 3 = true ∧ kvRange (w 5) (w 7) = true ∧ kvRange (w 6) (w 7 + 16) = true ∧ kvRange (w 5) (w 7 + 16) = true ∧
      kvRange (w 6) (w 7) = true) ∧
    (∀ r : Bool, let u := kvV 13 (signSt r)
     let k := u.kv.cmd[(0 : Core)]
     KvStarts 13 0 (signSt r) 1024 u ∧ kvHandle u k (kvArg k 0) = .inr 16 ∧ lmsKeyOf u 16 = some 0 ∧ maySign u k.owner = true ∧
     0 < kvArg k 3 ∧ kvArg k 3 ≤ 4096 ∧ kvRange (kvArg k 1) sigLen = true ∧ kvRange (kvArg k 2) (kvArg k 3) = true ∧
     lmsBusy u 0 = !r) ∧
    (let u := kvV 14 aliasSt
     let k := u.kv.cmd[(0 : Core)]
     KvStarts 14 0 aliasSt 1024 u ∧ kvHandle u k (kvArg k 0) = .inr 16 ∧ lmsKeyOf u 16 = some 0 ∧ maySign u k.owner = true ∧
     u.mb.aliased = false ∧ (17 : Fin 128).val = kvArg k 1 % 128 ∧ 16 ≤ (17 : Fin 128).val ∧
     (u.kv.slots[(17 : Fin 128)]).typ = 0 ∧ kvRange (kvArg k 2) 5588 = true ∧ lmsBusy u 0 = false) ∧
    (let u := kvV 15 hmacSt
     let k := u.kv.cmd[(0 : Core)]
     KvStarts 15 0 hmacSt 1024 u ∧ kvHandle u k (kvArg k 0) = .inr 16 ∧ lmsKeyOf u 16 = some 0 ∧ maySign u k.owner = true ∧
     kvRange (kvArg k 1) 60 = true ∧ lmsBusy u 0 = false) ∧
    (live.mb.lms[(0 : Fin 2)]).valid = false ∧ (hmacSt.mb.lms[(0 : Fin 2)]).jbusy = false ∧
    ((signSt false).pd.inReset = false ∧ ((signSt false).mb.lms[(0 : Fin 2)]).valid = true ∧
      ((signSt false).mb.lms[(0 : Fin 2)]).jbusy = true ∧ osErasing (signSt false) = false) ∧
    osErasing { live with os := { live.os with op := some ⟨0, 0, [], some 0⟩ } } = true ∧
    (∀ runs : Bool, let s := treeSt runs
      s.pd.inReset = false ∧ unitsWhere s (fun u => u.work = .tree 0) = 1024 :: [] ∧
      allEng.any (fun e => match engJob s e with | some x => x.billet = 1024 | none => false) = runs ∧
      (s.mb.lms[(0 : Fin 2)]).valid = true) := by
  refine ⟨⟨kv_starts _ _ (by decide +kernel), by decide +kernel⟩, ?_, ?_, ⟨kv_starts _ _ (by decide +kernel), by decide +kernel⟩,
    ⟨kv_starts _ _ (by decide +kernel), by decide +kernel⟩, by decide +kernel⟩
  · rintro op (rfl | rfl)
    · exact ⟨kv_starts _ _ (by decide +kernel), by decide +kernel⟩
    · exact ⟨kv_starts _ _ (by decide +kernel), by decide +kernel⟩
  · intro r
    cases r
    · exact ⟨kv_starts _ _ (by decide +kernel), by decide +kernel⟩
    · exact ⟨kv_starts _ _ (by decide +kernel), by decide +kernel⟩

/-- Tiny OTP images: BLANK; a TEST part with a unique secret and one generation; a PRODUCTION part; an EOL part. -/
def otpAt (a : Nat) (l : List Byte) : List Host.Cell := (cellsAt a l).filter (fun x => x.2 ≠ 0)
def lcOtp (k : Nat) (opt : List Byte) : List Host.Cell :=
  (if 1 ≤ k then otpAt 0 (beBytes 16 (stageWord 1)) else []) ++ (if 2 ≤ k then otpAt 0x10 (beBytes 16 (stageWord 2)) else []) ++
  (if 3 ≤ k then otpAt 0x20 (beBytes 16 (stageWord 3)) else []) ++ otpAt 0xB8 opt ++ otpAt 0xC0 (List.replicate 32 0x11) ++
  otpAt 0xE0 (udsChk (List.replicate 32 0x11)) ++ otpAt 0x100 (List.replicate 32 0x22) ++
  otpAt 0x160 (seedChk (List.replicate 32 0x22)) ++ otpAt 0x168 [0xFF, 0xFF, 0xFF, 0xFF]
def lcSt (k : Nat) : State := { live with otp := lcOtp k [] }
def awkSt (k : Nat) : State := { lcSt k with tp := { live.tp with ao := { live.tp.ao with awk := some 5 } } }
def ashSt (k : Nat) : State := { lcSt k with kv := { live.kv with state := 3 } }

theorem test_hyps_VaultRootsAshAndEntropy :
    ({ live with kv := { live.kv with loaded := true, esFail := true } } : State).kv.loaded = true ∧
    ({ live with kv := { live.kv with loaded := true, esFail := true } } : State).kv.esFail = true ∧ live.kv.esFail = false ∧
    (live.pd.inReset = false ∧ live.kv.loaded = false ∧ lcState live = .blank ∧ (live.kv.slots[(0 : Fin 128)]).typ = 0) ∧
    (lcState (lcSt 3) ≠ .blank ∧ lcDead (lcSt 3) = true) ∧
    ((awkSt 1).pd.inReset = false ∧ (awkSt 1).kv.loaded = false ∧ lcState (awkSt 1) ≠ .blank ∧ lcDead (awkSt 1) = false ∧
      (awkSt 1).tp.ao.ashed = false ∧ (awkSt 1).tp.ao.awk = some 5 ∧ (otpUds (awkSt 1)).isSome = true ∧ curGen (awkSt 1) = some 0) ∧
    (let s := { lcSt 1 with otp := lcOtp 1 [1] }
     lcState s ≠ .blank ∧ lcDead s = false ∧ s.tp.ao.ashed = false ∧ s.tp.ao.awk = none ∧ optAolossAsh s = true) ∧
    ((lcSt 1).kv.state ≠ 3 ∧ lcState (ashSt 3) ≠ .test ∧ lcState (ashSt 3) ≠ .production ∧ curGen live = none) ∧
    (∀ k : Fin 3, 1 ≤ k.val → let s := ashSt k.val
      s.pd.inReset = false ∧ s.kv.state = 3 ∧ lcState s = (if k = 1 then .test else .production) ∧ (curGen s).isSome = true ∧
      tamperActive s = false ∧ s.kv.esFail = false ∧ otpUds s = some (List.replicate 32 0x11)) ∧
    (∀ f : Bool, (outSt (runRec false none []) f).kv.slots[(16 : Fin 128)].typ ≠ 0) := by
  refine ⟨rfl, rfl, rfl, by decide +kernel, by decide +kernel, by decide +kernel, by decide +kernel, by decide +kernel,
    by decide +kernel, by decide +kernel⟩

/-- ZEROISE leaves the vault in ash without its AWK and its slots empty (R313). -/
theorem test_zeroise :
    let t := after (exec (.zeroise (.core 0)) (outSt (runRec false none []) false))
    t.kv.state = 3 ∧ t.tp.ao.awk = none ∧ (t.kv.slots[(16 : Fin 128)]) = { gen := 1 } := by decide +kernel

/-! The life-cycle engine. -/

/-- Sixteen completed marks. -/
def marks : List Host.Cell := otpAt 0x30 ((List.range 16).flatMap (fun _ => [0x22, 0, 0xDD, 0xFF, 0xFF, 0xFF, 0xFF, 0xFF]))

/-- A BLANK part with a serial number; its vault's entropy source failed where `f`. -/
def blankSt (f : Bool) (mk : List Host.Cell) : State := { live with otp := mk ++ [(0xB0, 1)], kv := { live.kv with esFail := f } }

/-- A PRODUCTION part without a generation. -/
def prodSt : State := { live with otp := (lcOtp 2 []).filter (fun x => x.1 < 0x100) }

theorem test_hyps_LifeCycleTransitionsProgramTheirSteps :
    (LcFree (blankSt false []) ∧ LcFree (blankSt true []) ∧ LcFree (lcSt 1) ∧ LcFree prodSt ∧ LcFree live ∧ LcFree (blankSt false marks)) ∧
    (lcState live = .blank ∧ serialNum live = 0) ∧
    (lcState (lcSt 1) ≠ .blank ∧ lcState live ≠ .test ∧ lcState live ≠ .production) ∧
    (lcState (blankSt true []) = .blank ∧ serialNum (blankSt true []) ≠ 0 ∧ (blankSt true []).kv.esFail = true) ∧
    (lcState (blankSt false marks) = .blank ∧ serialNum (blankSt false marks) ≠ 0 ∧ (blankSt false marks).kv.esFail = false ∧
      lcSlot (blankSt false marks) 0x11 = none) ∧
    (let s := blankSt false []
     let w := otpProg s (markAt 0) [BitVec.ofNat 8 0x11, BitVec.ofNat 8 0, ~~~BitVec.ofNat 8 0x11, ~~~BitVec.ofNat 8 0]
     lcState s = .blank ∧ serialNum s ≠ 0 ∧ lcSlot s 0x11 = some 0 ∧ otpUds w = none ∧ udsFree w = some 0 ∧
       (∃ u v, entropyBytes s 32 = (some u, v))) ∧
    (lcState (lcSt 1) = .test ∧ lcSlot (lcSt 1) 0x22 = some 0) ∧
    (let s : State := { live with otp := (lcOtp 1 []).filter (fun x => x.1 < 0x30) ++ marks ++ (lcOtp 1 []).filter (fun x => 0xB0 < x.1) }
     LcFree s ∧ lcState s = .test ∧ lcSlot s 0x22 = none) ∧
    (nextGen prodSt = some 0 ∧ lcState prodSt = .production ∧ curGen prodSt = none ∧ lcSlot prodSt 0x66 = some 0 ∧
      lcSlot prodSt 0x33 = some 0) ∧
    curGen (lcSt 2) ≠ none := by
  unfold LcFree
  refine ⟨by decide +kernel, by decide +kernel, by decide +kernel, by decide +kernel, by decide +kernel,
    ⟨by decide +kernel, by decide +kernel, by decide +kernel, by decide +kernel, by decide +kernel, some_pair (by decide +kernel)⟩,
    by decide +kernel, by decide +kernel, by decide +kernel, by decide +kernel⟩

theorem test_hyps_transition_acts :
    0 < 8 ∧ actUnits (.prog 0 [1]) ≤ 8 := by decide

/-- TO_PRODUCTION programs the PRODUCTION stage. -/
theorem test_to_production : lcState (after (exec (.lcTransitionEnd false) (after (exec (.toProduction (.core 0)) (lcSt 1))))) =
    .production := by decide +kernel

/-- A transition running, and a token whose signature passes on a PRODUCTION part of generation 0, its engines on line or not. -/
def lcRunSt : State := { live with lc := { live.lc with run := some ⟨0x22, 0, 0, [.prog 0x010 [1]]⟩ } }
def tokOf (p : Nat) : Option (List Byte × List Byte × List Byte × Nat × Nat) := some (ownKey, [0, 0, 0, 0] ++ ownSig [], [], p, 0)
def tokSt (p : Nat) (off : Bool) : State :=
  { lcSt 2 with lc := { live.lc with token := tokOf p }, ve := { live.ve with engOnline := if off then 0 else 0xFFF } }

/-- The tracker with every entry of the pool taken and no floor. -/
def fullUnit : Billet := { st := .running, cls := .bg, owner := .ch 0, src := .pool, parent := none, drawn := 0, work := .image }
def fullBt : Bt :=
  { live.bt with units := (List.range 3072).map (fun i => (1024 + i, fullUnit)), arb := { live.bt.arb with devFloor := 0 } }

theorem test_hyps_TransitionEndsTokensAndNonces :
    (lcRunSt.pd.inReset = false ∧ lcRunSt.lc.run = some ⟨0x22, 0, 0, [.prog 0x010 [1]]⟩ ∧ lcRunSt.lc.run.isSome = true ∧
      (tokSt 1 false).lc.token.isSome = true) ∧
    (LcFree live ∧ LcFree (blankSt true []) ∧ (blankSt true []).kv.esFail = true ∧ ∃ b v, entropyBytes live 32 = (some b, v)) ∧
    live.lc.token = none ∧
    (hssVerify false [] [] [] ≠ .pass ∧ hssVerify false ownKey ([0, 0, 0, 0] ++ ownSig []) [] = .pass) ∧
    (∀ p : Nat, ∀ off : Bool, (tokSt p off).pd.inReset = false ∧ (tokSt p off).lc.token = tokOf p ∧
      lcState (tokSt p off) = .production ∧ curGen (tokSt p off) = some 0 ∧ ∀ op : Nat, lcSlot (tokSt p off) op = some 0) := by
  unfold LcFree
  have h2 : lcState (lcSt 2) = .production := by decide +kernel
  have h3 : curGen (lcSt 2) = some 0 := by decide +kernel
  have h4 : (freeMarks (lcSt 2)).find? (· < 15) = some 0 := by decide +kernel
  refine ⟨⟨rfl, rfl, rfl, rfl⟩, ⟨by decide +kernel, by decide +kernel, by decide +kernel, some_pair (by decide +kernel)⟩, rfl,
    ⟨by decide +kernel, own_passes _ _⟩, fun p off => ⟨rfl, rfl, h2, h3, fun op => ?_⟩⟩
  have : (freeMarks (tokSt p off)).find? (· < 15) = some 0 := h4
  unfold lcSlot
  rw [this]

/-- The token's jobs end where there are engines on line, and do not begin without a billet. -/
theorem test_hyps_token_check :
    (∀ off : Bool, unitsWhere (tokenStart (tokSt 1 off)) (fun u => u.work = .token) = [1024] ∧
      (unitDone 1024 12 (tokenStart (tokSt 1 off))).isSome = !off) ∧
    unitsWhere (tokenStart { tokSt 1 false with bt := fullBt }) (fun u => u.work = .token) = [] := by decide +kernel

/-! Mailboxes, tallies and attestation. -/

/-- IN0 as a client of this transport, active, with this mailbox; portal 0 may do everything. -/
def boxSt (tr : Nat) (b : Box) : State :=
  { live with inst := live.inst.set (0 : Fin 64) { st := .active, cfg := { transport := tr } }
              bt := { live.bt with pools := live.bt.pools.set (0 : Fin 8) { cap := 4, sign := true } }
              gc := { live.gc with portals := live.gc.portals.set (0 : Fin 6) ({ readMask := 0xFFFF#32, writeMask := 0xFFFF#32 } : Portal) }
              mb := { live.mb with box := live.mb.box.set (0 : Fin 64) b, attEn := true } }

/-- A staged request of two words from every copy. -/
def txBox (q : List (List Word)) : Box :=
  { inq := q, outq := q, tx := (List.range 5).flatMap (fun k => [(16 * k, 0x1002#32), (16 * k + 1, 7#32)]) }

/-- Core 0's extension of tally 0 on engine 0, as billet 2. -/
def tallyRun : EngRun := { job := { billet := 2, tier := 2, cost := 2, aged := false, enq := 0 }, startAt := 0 }
def tallySt : State :=
  { live with mb := { live.mb with tallyQ := [⟨0, 5, .hearth, some 2, some 0⟩] }
              ve := { live.ve with engines := live.ve.engines.set (0 : Fin 12) (some tallyRun) } }

theorem test_hyps_MailboxesLocksAndTallies :
    (∀ m : Master, m = .core 0 ∨ m = .ext 0 → let s := boxSt 1 (txBox [])
      BoxOpen s m 0x008 ∧ BoxOpen s m 0x00C ∧ BoxOpen s m 0x840 ∧ BoxOpen s m 0x87C ∧
      sendCheck s (selOf s m).inst (isCore m) ((List.range 16).map (txWord (s.mb.box[(0 : Inst)]) (txCopy m))) = 0 ∧
      (draw .hs (if isCore m then .hearth else .inst 0) none false (.msg 0) s).1 = some 1024 ∧
      BoxOpen (boxSt 1 {}) m 0x008 ∧
      sendCheck (boxSt 1 {}) (selOf (boxSt 1 {}) m).inst (isCore m) ((List.range 16).map (txWord {} (txCopy m))) ≠ 0 ∧
      mbOpen s m 0x840 false = true ∧ mbOpen s m 0x884 false = true ∧ mbOpen s m 0x8D0 true = true ∧
      mayRead s m 13 = true ∧ ownsInst s m (selOf s m).inst = true) ∧
    (let s : State := { boxSt 1 (txBox []) with bt := { live.bt with pools := live.bt.pools.set (0 : Fin 8) { cap := 0 } } }
     BoxOpen s (.ext 0) 0x008 ∧ (draw .hs (.inst 0) none false (.msg 0) s).1 = none ∧
       sendCheck s 0 false ((List.range 16).map (txWord (s.mb.box[(0 : Inst)]) (txCopy (.ext 0)))) = 0) ∧
    (let s := boxSt 1 (txBox [[0x1001]])
     BoxOpen s (.ext 0) 0x00C ∧ takenHead s 0 = false ∧ (s.mb.box[(0 : Inst)]).inq = [0x1001] :: [] ∧
       (s.mb.box[(0 : Inst)]).outq = [0x1001] :: []) ∧
    takenHead (boxSt 1 (txBox [[0x5002, 1]])) 0 = true ∧
    (∀ o ∈ [0x008, 0x00C, 0x840, 0x87C, 0x884, 0x8D0], ∀ w : Bool, mbOpen live (.ext 0) o w = false) ∧
    (let s : State := { live with mb := { live.mb with tallyLock := 1 } }
     s.mb.tallyLock.getLsbD (selOf s (.core 0)).tally.val = true ∧ live.mb.tallyLock.getLsbD (selOf live (.core 0)).tally.val = false) ∧
    (tallySt.mb.tallyQ.find? (fun r => r.t = 0) = some ⟨0, 5, .hearth, some 2, some 0⟩ ∧ engOf tallySt 2 = some 0 ∧
      live.mb.tallyQ.find? (fun r => r.t = 0) = none) := by
  unfold BoxOpen
  refine ⟨?_, by decide +kernel, by decide +kernel, by decide +kernel, by decide +kernel, by decide +kernel, by decide +kernel⟩
  rintro m (rfl | rfl)
  · decide +kernel
  · decide +kernel

/-- A lock is released by its owner's number plus 1 alone (R352). -/
theorem test_lock_release :
    let s : State := { boxSt 1 {} with mb := { (boxSt 1 {}).mb with locks := Vector.replicate 16 (some 0) } }
    (after (exec (.lockWrite (.core 0) 3 1) s)).mb.locks[(3 : Fin 16)] = none ∧
    (after (exec (.lockWrite (.core 0) 3 2) s)).mb.locks[(3 : Fin 16)] = some 0 := by decide +kernel

/-- An SPDM message of `n` bytes waits outbound on port 0. -/
def outBox (n : Word) : Box := { outq := [[0x5002, n]], bulkDev := true }
def replySt (late : Bool) (r : Option (List Byte × Nat)) : State :=
  { live with mb := { live.mb with i3c := live.mb.i3c.set (0 : Fin 4) { late := late, reply := r } } }

/-- Port 0 with a dynamic address, and the MCTP packets of one message of 5 bytes, first of several or whole. -/
def mctpSt (st : InstSt) (b : Box) (cap : Nat) : State :=
  let s := boxSt 3 b
  { s with inst := s.inst.set (0 : Fin 64) { s.inst[(0 : Fin 64)] with st := st }
           bt := { s.bt with pools := s.bt.pools.set (0 : Fin 8) { cap := cap } }
           mb := { s.mb with i3c := s.mb.i3c.set (0 : Fin 4) { dynAddr := some 9 } } }
def spdmPkt (whole : Bool) : List Byte := [1, 0, 0, if whole then 0xC8 else 0x88, 5, 0x10, 0x84, 0, 0]

theorem test_hyps_I3cTargetsAndMctpPackets :
    (let s := mctpSt .active {} 4
     (live.mb.i3c[(0 : Fin 4)]).dynAddr = none ∧ s.pd.inReset = false ∧ (s.mb.i3c[(0 : Fin 4)]).dynAddr.isSome = true ∧
     (byteAt [1, 9, 0, 0xC8, 5] 1 ≠ (s.mb.i3c[(0 : Fin 4)]).eid ∧ byteAt [1, 9, 0, 0xC8, 5] 1 ≠ 0) ∧
     (byteAt [1, 0, 0, 0xC8, 0, 0x81, 2] 1 = 0 ∧ (byteAt [1, 0, 0, 0xC8, 0, 0x81, 2] 3).getLsbD 7 = true ∧
       byteAt [1, 0, 0, 0xC8, 0, 0x81, 2] 4 &&& 0x7F = 0) ∧
     mctpInst s 0 (byteAt [1, 0, 7, 0xC8, 5] 2) = none) ∧
    (∀ whole : Bool, ∀ cap : Fin 2, let pkt := spdmPkt whole
      let s := mctpSt .active {} cap.val
      byteAt pkt 1 = 0 ∧ ¬ ((byteAt pkt 3).getLsbD 7 = true ∧ byteAt pkt 4 &&& 0x7F = 0) ∧ mctpInst s 0 (byteAt pkt 2) = some 0 ∧
        (byteAt pkt 3).getLsbD 7 = true ∧ byteAt pkt 4 = 5 ∧ pkt.drop 5 ≠ [] ∧ (pkt.drop 5).length ≤ 63 ∧
        (s.inst[(0 : Inst)]).st = .active ∧ (s.mb.box[(0 : Inst)]).bulkDev = false ∧ outSpdm s.mb.box[(0 : Inst)] = false ∧
        2 ≤ qFree (s.mb.box[(0 : Inst)]).inq ∧ (s.mb.box[(0 : Inst)]).asm = none ∧
        (draw .hs (.inst 0) none false (.msg 0) s).1 = if cap = 0 then none else some 1024) ∧
    (let s := mctpSt .draining { bulkDev := true } 4
     mctpInst s 0 (byteAt (spdmPkt true) 2) = some 0 ∧ (s.inst[(0 : Inst)]).st ≠ .active ∧ (s.mb.box[(0 : Inst)]).bulkDev = true ∧
       outSpdm (outBox 4) = true ∧ qFree (txBox [List.replicate 16 0]).inq < 2) ∧
    ((live.mb.i3c[(0 : Fin 4)]).reply = none ∧ (live.mb.i3c[(0 : Fin 4)]).ctl = [] ∧ mctpNext live 0 = none ∧
      (live.mb.i3c[(0 : Fin 4)]).fx = [] ∧ (live.mb.i3c[(0 : Fin 4)]).late = false) ∧
    ({ live.mb.i3c[(0 : Fin 4)] with ctl := [[1]] } : I3c).ctl = [1] :: [] ∧
    (∀ big : Bool, let l : Word := if big then 100 else 4
      let s := boxSt 3 (outBox l)
      mctpNext s 0 = some 0 ∧ (s.mb.box[(0 : Inst)]).outq = (0x5002 :: l :: []) :: [] ∧
      decide ((5 :: bulkRead s.mb.box[(0 : Inst)] 0 (bf l 0 13)).length ≤ (s.mb.box[(0 : Inst)]).outPos + 64) = !big) ∧
    ((replySt true none).mb.i3c[(0 : Fin 4)]).late = true ∧
    (((replySt false (some ([1], 0))).mb.i3c[(0 : Fin 4)]).reply = some ([1], 0) ∧
      ((replySt false (some ([1], 0))).mb.i3c[(0 : Fin 4)]).fx = []) ∧
    (0 : Byte) ∉ [0x80, 0x81, 0x86, 0x87, 0x8B, 0x8C, 0x8D, 0x8E, 0x8F] := by
  refine ⟨by decide +kernel, by decide +kernel, by decide +kernel, by decide +kernel, by decide +kernel, by decide +kernel,
    by decide +kernel, by decide +kernel, by decide +kernel⟩

/-- SETMWL and the like are no reads; ENEC enables the interrupt (I3C basic). -/
theorem test_disec : ((after (exec (.i3cCcc 0 0x81 true [1]) live)).mb.i3c[(0 : Fin 4)]).ibi = false := by decide +kernel

/-- IN0's responder in state `st` with this request, a certificate chain of 9 bytes, and the alias key ready where `k`. -/
def spdmSt (st : SpdmSt) (chain k : Bool) (req : List Byte) (big : Option BigResp) : State :=
  let s := boxSt 3 { inq := [[0x5002, BitVec.ofNat 32 req.length]], bulkDev := true, bulk := cellsAt 0 req, spdm := st }
  { s with mb := { s.mb with chainOk := chain, chainAddr := 0x20000000, chainLen := 9, big := s.mb.big.set (0 : Fin 4) big
                             lms := s.mb.lms.set (1 : Fin 2) { valid := k, ready := k, n := 1024 } } }
def spdmU (s : State) (c : Nat) : State := (draw .ver (.inst 0) none false (.sign (0 : Inst).val) (spdmTaken s 0 c)).2

def spdmReady (s : State) (req : List Byte) : Bool :=
  decide (spdmHead s 0 = some req) && (s.mb.box[(0 : Inst)]).bulkDev && decide (byteAt req 0 = if be8 req 1 = 0x84 then 0x10 else 0x12) &&
  decide ((draw .ver (.inst 0) none false (.sign (0 : Inst).val) (spdmTaken s 0 (be8 req 1))).1 = some 1024)

theorem spdm_served (st : SpdmSt) (chain k : Bool) (req : List Byte) (big : Option BigResp)
    (h : spdmReady (spdmSt st chain k req big) req = true) :
    SpdmServed (spdmSt st chain k req big) 0 req 1024 (spdmU (spdmSt st chain k req big) (be8 req 1)) := by
  simp only [spdmReady, Bool.and_eq_true, decide_eq_true_eq] at h
  obtain ⟨⟨⟨h1, h2⟩, h3⟩, h4⟩ := h
  exact ⟨rfl, h1, h2, h3, Prod.ext h4 rfl⟩

/-- A request of each code with the state it belongs in; the parameters are those of an unsigned or whole request. -/
def reqs : List (SpdmSt × List Byte) :=
  [(.start, [0x10, 0x84, 0, 0]), (.version, [0x12, 0xE1, 0, 0]), (.caps, [0x12, 0xE3, 0, 0]), (.algs, [0x12, 0x81, 0, 0]),
   (.algs, [0x12, 0x82, 0, 0, 1, 0, 4, 0]), (.algs, [0x12, 0xE0, 0, 0]), (.algs, [0x12, 0x83, 0, 0] ++ List.replicate 32 0),
   (.algs, [0x12, 0x85, 0, 1, 1, 0, 0, 0]), (.start, [0x12, 0xFF, 0, 0]), (.start, [0x12, 0xE1, 0, 0])]

def bigSt : Option BigResp := some ⟨0, 1, [1, 2, 3], 1, 0⟩

/-- A long response whose signature's job waits, or has ended. -/
def workSt (waits : Bool) : State :=
  let s := spdmSt .algs true true [] none
  { s with mb := { s.mb with box := s.mb.box.set (0 : Fin 64) { s.mb.box[(0 : Inst)] with work := some ⟨some 1024, List.replicate 4097 0⟩ } }
           ve := { s.ve with tier0 := if waits then [{ billet := 1024, tier := 0, cost := 1, aged := false, enq := 0 }] else [] } }

theorem test_hyps_SpdmResponderAnswersRequests :
    spdmHead live 0 = none ∧
    (∀ x ∈ reqs, SpdmServed (spdmSt x.1 true true x.2 bigSt) 0 x.2 1024 (spdmU (spdmSt x.1 true true x.2 bigSt) (be8 x.2 1))) ∧
    (reqs.map (fun x => be8 x.2 1) = [0x84, 0xE1, 0xE3, 0x81, 0x82, 0xE0, 0x83, 0x85, 0xFF, 0xE1] ∧ 0xFF ∉ spdmCodes) ∧
    (∀ c : Bool, (spdmSt .algs c true [] none).mb.chainOk = c ∧ (spdmSt .algs c true [] none).mb.box[(0 : Inst)].spdm = .algs) ∧
    (∃ ch, chainBytes (spdmSt .algs true true [] none) = some ch ∧ leNat (slice [0x12, 0x82, 0, 0, 1, 0, 4, 0] 4 2) < ch.length ∧
      min (leNat (slice [0x12, 0x82, 0, 0, 1, 0, 4, 0] 6 2)) (min (ch.length - 1) 8184) ≤ 4088) ∧
    (let s := spdmSt .algs true true [] none
     s.kv.esFail = false ∧ maySign s (BitVec.ofNat 8 (0 : Inst).val) = true ∧ (s.mb.lms[(1 : Fin 2)]).valid = true ∧
       lmsBusy s 1 = false) ∧
    (∃ nc v, entropyBytes (spdmU (spdmSt .algs true true ([0x12, 0x83, 0, 0] ++ List.replicate 32 0) bigSt) 0x83) 32 = (some nc, v)) ∧
    (let s := spdmSt .algs true true [0x12, 0x85, 0, 1, 1, 0, 0, 0] bigSt
     (List.finRange 4).find? (fun i => match s.mb.big[i] with
          | some b => b.n = 0 | none => false) = some 0 ∧ s.mb.big[(0 : Fin 4)] = some ⟨0, 1, [1, 2, 3], 1, 0⟩ ∧
       be8 [0x12, 0x85, 0, 1, 1, 0, 0, 0] 3 = 1 ∧ leNat (slice [0x12, 0x85, 0, 1, 1, 0, 0, 0] 4 2) = 1) ∧
    (SpdmSt.start ≠ .version ∧ SpdmSt.start ≠ .caps ∧ SpdmSt.start ≠ .algs) ∧
    (∀ c ∈ [0xE1, 0xE3, 0x81, 0x82, 0x83, 0xE0], spdmReady (spdmSt .start true true [0x12, c, 0, 0] none) [0x12, c, 0, 0] = true) ∧
    (spdmHead (spdmSt .start true true [0x11, 0xE1, 0, 0] none) 0 = some [0x11, 0xE1, 0, 0] ∧ byteAt [0x11, 0xE1, 0, 0] 0 ≠ 0x12) ∧
    (live.mb.box[(0 : Inst)]).work = none ∧
    (∀ waits : Bool, (unitDone 1024 12 (workSt waits)).isNone = waits) ∧
    (let w : SpdmWork := ⟨some 1024, List.replicate 4097 0⟩
     let t := workSt false
     (t.mb.box[(0 : Inst)]).work = some w ∧ 2 ≤ qFree (t.mb.box[(0 : Inst)]).outq ∧ (t.mb.lms[(1 : Fin 2)]).valid = true ∧
       (t.mb.box[(0 : Inst)]).bulkDev = true ∧ (t.inst[(0 : Inst)]).st = .active ∧ 4096 < w.resp.length ∧
       (∃ i : Fin 4, t.mb.big[i] = none)) := by
  have h : reqs.all (fun x => spdmReady (spdmSt x.1 true true x.2 bigSt) x.2) = true := by decide +kernel
  refine ⟨by decide +kernel, fun x hx => spdm_served _ _ _ _ _ (List.all_eq_true.mp h x hx), by decide +kernel, by decide +kernel,
    ⟨List.replicate 9 0, by decide +kernel⟩, by decide +kernel, some_pair (by decide +kernel), by decide +kernel, by decide +kernel,
    by decide +kernel, by decide +kernel, by decide +kernel, by decide +kernel, ⟨rfl, by decide +kernel, rfl, rfl, rfl, Nat.lt_of_lt_of_eq (by decide) List.length_replicate.symm, ⟨1, rfl⟩⟩⟩

/-! The fabric. -/

/-- The four flues and the pair link are read back from one place each. -/
def linkSt (x : FlueRt) : State := { live with fb := { live.fb with flue := live.fb.flue.set (0 : Fin 4) x } }

theorem test_hyps_LinksTrainAcknowledgeReplayAndFail :
    (∀ r : Bool, let s := linkSt { st := .down, retry := r }
      s.pd.inReset = false ∧ (linkOf s 0).st = .down ∧ (linkOf s 0).retry = r ∧ (linkOf s 0).st ≠ .training ∧ linkUp (linkOf s 0) = false) ∧
    (linkOf (linkSt { st := .training }) 0).st = .training ∧ (linkOf (linkSt { st := .failed }) 0).st = .failed ∧
    (linkOf (linkSt { st := .failed }) 0).st ≠ .down ∧
    (bf (0x00010000 : Word) 16 7 ≠ 0 ∧ bf (0x05001234 : Word) 16 7 = 0 ∧ (0x05001234 : Word).getLsbD 23 = false) ∧
    (∀ a : Bool, let s := linkSt { st := .up, ackOwed := a, nakOwed := !a }
      linkUp (linkOf s 0) = true ∧ (linkOf s 0).waiting = [] ∧ (linkOf s 0).replay = [] ∧
      ((linkOf s 0).ackOwed = true ∨ (linkOf s 0).nakOwed = true)) ∧
    (∀ n : Fin 8, let s := linkSt { st := .up, replay := [frm 0x22 0 []], replays := n.val }
      linkUp (linkOf s 0) = true ∧ (linkOf s 0).replay ≠ []) := by decide +kernel

/-- The eighth replay in a row fails the flue (R372). -/
theorem test_eighth_replay :
    ((after (exec (.replayTimeout 0) (linkSt { st := .up, replay := [frm 0x22 0 []], replays := 7 }))).fb.flue[(0 : Fin 4)]).st =
      .failed := by decide +kernel

/-- A frame of this VC for this destination. -/
def ff (typ : Byte) (vc : Byte) (dst : Byte) (arg : Word) (payload : List Byte) : FabFrame := ⟨typ, vc, 0, 8, dst, 1, 0, 0, arg, payload⟩

/-- This fabric, its flues 0 and 1 NEIGHBOUR; IN0 a fabric peer at address 1; slot 16 a MAC key. -/
def nbSt (b : Fb) : State :=
  { live with fb := { b with flue := (b.flue.set (0 : Fin 4) { st := .neighbour }).set (1 : Fin 4) { st := .neighbour } }
              pd := { live.pd with cold := false }
              inst := live.inst.set (0 : Fin 64) { st := .active, cfg := { transport := 7 }, addr := 1 }
              kv := { live.kv with slots := live.kv.slots.set (16 : Fin 128) keySlot }
              bt := { live.bt with pools := live.bt.pools.set (0 : Fin 8) { cap := 4, sign := true } } }

def heardIn (s : State) (f : Flue) (fr : FabFrame) : State := snapNote (linkTake s (flueLink f) fr).2 f fr

/-- What `FrameHeard` asks, as data. -/
def hears (s : State) (f : Flue) (fr : FabFrame) : Bool :=
  !s.pd.inReset && Sys2Proof.Machine.frameOk fr && decide ((s.fb.flue[f]).st = .neighbour) && !serving s f && (linkTake s (flueLink f) fr).1

theorem frame_heard (s : State) (f : Flue) (fr : FabFrame) (h : hears s f fr = true) : FrameHeard s f fr (heardIn s f fr) := by
  simp only [hears, Bool.and_eq_true, decide_eq_true_eq, Bool.not_eq_true'] at h
  obtain ⟨⟨⟨⟨h1, h2⟩, h3⟩, h4⟩, h5⟩ := h
  exact ⟨h1, h2, h3, h4, _, Prod.ext h5 rfl, rfl⟩

def hello : FabFrame := ff 0x01 2 0xFE 0 (List.replicate 16 0)
/-- The entry of the part with serial number 1 and this version. -/
def topoFr (ser ver : Byte) : FabFrame := ff 0x02 2 0xFF 0 ([0, 0, 0, 0, 0, 0, 0, ser, 9, 0, 0, ver] ++ List.replicate 52 0)
def assignFr : FabFrame := ff 0x03 2 0xFF 0 [0, 0, 0, 0, 0, 0, 0, 0, 5, 0, 0, 0]
def msgFr (dst : Byte) : FabFrame := ff 0x10 0 dst 0 [0, 0, 0x10, 1]
def topoSt : State := nbSt { st := .running, node := some 3, topo := [topoParse (topoFr 1 4).payload 0] }
def settleSt : State := nbSt { st := .settling, node := some 3, cfg := { coordPri := 1 } }
def fwdSt : State := nbSt { st := .running, node := some 3, rt := (Vector.replicate 32 {}).set (4 : Fin 32) { up := some 1 } }

theorem test_hyps_FramesAndTopology :
    (live.pd.inReset = false ∧ linkUp live.fb.flue[(0 : Flue)] = false ∧ linkUp topoSt.fb.flue[(0 : Flue)] = true ∧
      ({ hello with lseq := 1 } : FabFrame).lseq ≠ (topoSt.fb.flue[(0 : Flue)]).rxSeq ∧
      (∃ u, linkTake topoSt (flueLink 0) hello = (true, u)) ∧
      (∀ r ∈ frameRows 0 hello, r.1 ≠ 0xEE) ∧ Sys2Proof.Machine.frameOk (ff 0xEE 0 0 0 []) = false) ∧
    (Sys2Proof.Machine.frameOk hello = true ∧ hello.typ = 0x01 ∧ serving topoSt 0 = false ∧ topoSt.fb.st ≠ .off) ∧
    (serving (nbSt { serve := 1 }) 0 = true ∧ topoSt.boot.on = false ∧ (topoSt.fb.flue[(0 : Flue)]).st = .neighbour ∧
      (live.fb.flue[(0 : Flue)]).st ≠ .neighbour) ∧
    (∀ ser ver : Byte, (ser = 0 ∨ ser = 1) ∧ (ver = 3 ∨ ver = 5) → FrameHeard topoSt 0 (topoFr ser ver) (heardIn topoSt 0 (topoFr ser ver))) ∧
    (topoFr 0 5).typ = 0x02 ∧ (topoParse (topoFr 0 5).payload 0).serial = serialNum topoSt ∧
    (let o := topoParse (topoFr 1 4).payload 0
     topoSt.fb.topo.find? (fun x => x.serial = (topoParse (topoFr 1 5).payload 0).serial) = some o ∧
       newer (topoParse (topoFr 1 3).payload 0).version o.version = false ∧
       newer (topoParse (topoFr 1 5).payload 0).version o.version = true ∧ sameTopo (topoParse (topoFr 1 5).payload 0) o = true ∧
       (topoParse (topoFr 1 5).payload 0).serial ≠ serialNum topoSt ∧ topoSt.fb.topo ≠ []) ∧
    (live.fb.st = .off ∧ live.fb.topo = [] ∧ live.fb.st ≠ .discovering ∧ live.fb.st ≠ .settling) ∧
    (let w := { settleSt with clk := { settleSt.clk with now := max settleSt.clk.now (settleSt.fb.changedAt + msCyc settleSt.fb.cfg.settleMs) } }
     settleSt.fb.st = .settling ∧ coordOf (liveEntries w) = some (ownEntry w) ∧ needIds (liveEntries w) = [] ∧
       settleSt.fb.node = some 3 ∧ (ownEntry w).node = some 3 ∧ settleSt.fb.barAbortOwed = false) ∧
    (let s := nbSt { st := .discovering }
     FrameHeard s 0 assignFr (heardIn s 0 assignFr) ∧ s.fb.st ≠ .off ∧ s.fb.st ≠ .isolated ∧
       BitVec.ofNat 64 (be64 assignFr.payload 0) = serialNum s ∧ s.fb.node = none ∧ (5 : Fin 32).val = be8 assignFr.payload 8) ∧
    (let fr := msgFr 4
     FrameHeard fwdSt 0 fr (heardIn fwdSt 0 fr) ∧ fr.dst.toNat < 32 ∧ fr.flags.getLsbD 3 = false ∧ fwdSt.fb.st = .running ∧
       1 < fr.hops.toNat ∧ (fwdSt.fb.rt[(4 : Fin 32)]).up = some 1 ∧ (1 : Flue) ≠ 0 ∧ linkUp fwdSt.fb.flue[(1 : Flue)] = true) ∧
    (let fr := { msgFr 4 with hops := 1 }
     FrameHeard fwdSt 0 fr (heardIn fwdSt 0 fr) ∧ fr.hops.toNat ≤ 1) := by
  have h : ∀ a b : Bool, hears topoSt 0 (topoFr (if a then 1 else 0) (if b then 5 else 3)) = true := by decide +kernel
  refine ⟨⟨by decide +kernel, by decide +kernel, by decide +kernel, by decide +kernel, pair_of_fst (by decide +kernel),
    by decide +kernel, by decide +kernel⟩, by decide +kernel, by decide +kernel, ?_, rfl, by decide +kernel, by decide +kernel,
    by decide +kernel, by decide +kernel, ⟨frame_heard _ _ _ (by decide +kernel), by decide +kernel⟩,
    ⟨frame_heard _ _ _ (by decide +kernel), by decide +kernel⟩, frame_heard _ _ _ (by decide +kernel), by decide +kernel⟩
  rintro ser ver ⟨rfl | rfl, rfl | rfl⟩
  · exact frame_heard _ _ _ (h false false)
  · exact frame_heard _ _ _ (h false true)
  · exact frame_heard _ _ _ (h true false)
  · exact frame_heard _ _ _ (h true true)

/-- A HELLO of another fabric isolates the flue (R376). -/
theorem test_foreign_hello :
    ((after (exec (.helloRx 0 { hello with payload := 1 :: List.replicate 15 0 }) topoSt)).fb.flue[(0 : Flue)]).st = .isolated := by
  decide +kernel

/-! Fabric-peer messages, global operations, snapshots. -/

def peerFb : Fb := { st := .running, node := some 3, seen := [⟨1, 5, 0⟩], eseq := 4 }
def peerSt (b : Box) : State := { nbSt peerFb with mb := { live.mb with box := live.mb.box.set (0 : Fin 64) b } }
def bulkFr : FabFrame := ff 0x11 0 3 8 [1, 2, 3, 4]
def dlvFr (arg : Word) : FabFrame := ff 0x04 2 3 arg []

theorem test_hyps_FabricPeerMessages :
    (∀ fr ∈ [msgFr 3, bulkFr], let s := peerSt {}
      FrameHeard s 0 fr (heardIn s 0 fr) ∧ forUs (heardIn s 0 fr) fr = true ∧ fr.flags.getLsbD 2 = false ∧
      peerInst (heardIn s 0 fr) fr.src = some 0 ∧ (s.mb.box[(0 : Inst)]).peerFail = false ∧
      ∃ v, draw .hs (.inst 0) none false (.msg 0) (heardIn s 0 fr) = (some 1024, v)) ∧
    ((msgFr 3).typ = 0x10 ∧ bulkFr.typ = 0x11 ∧ sendCheck (heardIn (peerSt {}) 0 (msgFr 3)) 0 false (payloadWords (msgFr 3).payload) = 0) ∧
    (let fr := { msgFr 3 with src := 2 }
     FrameHeard (peerSt {}) 0 fr (heardIn (peerSt {}) 0 fr) ∧ forUs (heardIn (peerSt {}) 0 fr) fr = true ∧
       peerInst (heardIn (peerSt {}) 0 fr) fr.src = none) ∧
    (∀ fr ∈ [{ msgFr 3 with flags := 4, pseq := 5 }, { bulkFr with flags := 4, pseq := 5 }], let s := peerSt {}
      FrameHeard s 0 fr (heardIn s 0 fr) ∧ forUs (heardIn s 0 fr) fr = true ∧ (pairSeen (heardIn s 0 fr) fr).1 = false) ∧
    (∀ b : Bool, (peerSt { bulkDev := b }).mb.box[(0 : Inst)].bulkDev = b) ∧
    (∀ arg ∈ [(7 : Word), 0x90000007, 0xA0000007], let s := peerSt { peer := some ⟨1, 7, 0, false⟩, outq := [[0x1001]] }
      FrameHeard s 0 (dlvFr arg) (heardIn s 0 (dlvFr arg)) ∧ (dlvFr arg).typ = 0x04 ∧
      (List.finRange 64).find? (fun n => isPeer (heardIn s 0 (dlvFr arg)) n && ((heardIn s 0 (dlvFr arg)).inst[n]).addr = (dlvFr arg).src &&
        (match ((heardIn s 0 (dlvFr arg)).mb.box[n]).peer with | some p => p.eseq.toNat = bf (dlvFr arg).arg 0 16 | none => false)) = some 0) ∧
    ((7 : Word).getLsbD 31 = false ∧ (0x90000007 : Word).getLsbD 31 = true ∧ bf (0x90000007 : Word) 28 3 = 1 ∧
      (0xA0000007 : Word).getLsbD 31 = true ∧ bf (0xA0000007 : Word) 28 3 ≠ 1) ∧
    (isPeer live 0 = false ∧ (live.mb.box[(0 : Inst)]).peer = none ∧ (live.mb.box[(0 : Inst)]).outq = []) ∧
    (let s := peerSt { outq := [[0x1001]] }
     s.pd.inReset = false ∧ isPeer s 0 = true ∧ (s.mb.box[(0 : Inst)]).peer = none ∧ (s.mb.box[(0 : Inst)]).outq ≠ []) ∧
    (∀ n : Fin 9, ((peerSt { peer := some ⟨n.val, 7, 0, false⟩ }).mb.box[(0 : Inst)]).peer = some ⟨n.val, 7, 0, false⟩) := by
  have h1 : [msgFr 3, bulkFr].all (fun fr => hears (peerSt {}) 0 fr && forUs (heardIn (peerSt {}) 0 fr) fr && !fr.flags.getLsbD 2 &&
    decide (peerInst (heardIn (peerSt {}) 0 fr) fr.src = some 0) &&
    decide ((draw .hs (.inst 0) none false (.msg 0) (heardIn (peerSt {}) 0 fr)).1 = some 1024)) = true := by decide +kernel
  have h2 : [{ msgFr 3 with flags := 4, pseq := 5 }, { bulkFr with flags := 4, pseq := 5 }].all (fun fr => hears (peerSt {}) 0 fr &&
    forUs (heardIn (peerSt {}) 0 fr) fr && !(pairSeen (heardIn (peerSt {}) 0 fr) fr).1) = true := by decide +kernel
  have h3 : [(7 : Word), 0x90000007, 0xA0000007].all (fun arg =>
    hears (peerSt { peer := some ⟨1, 7, 0, false⟩, outq := [[0x1001]] }) 0 (dlvFr arg)) = true := by decide +kernel
  have h4 : ∀ i : Fin 3, let arg := [(7 : Word), 0x90000007, 0xA0000007][i]
    let s := peerSt { peer := some ⟨1, 7, 0, false⟩, outq := [[0x1001]] }
    (dlvFr arg).typ = 0x04 ∧
      (List.finRange 64).find? (fun n => isPeer (heardIn s 0 (dlvFr arg)) n && ((heardIn s 0 (dlvFr arg)).inst[n]).addr = (dlvFr arg).src &&
        (match ((heardIn s 0 (dlvFr arg)).mb.box[n]).peer with | some p => p.eseq.toNat = bf (dlvFr arg).arg 0 16 | none => false)) = some 0 := by
    decide +kernel
  refine ⟨fun fr hf => ?_, by decide +kernel, ⟨frame_heard _ _ _ (by decide +kernel), by decide +kernel⟩, fun fr hf => ?_,
    by decide +kernel, fun arg ha => ⟨frame_heard _ _ _ (List.all_eq_true.mp h3 arg ha), ?_⟩, by decide +kernel, by decide +kernel,
    by decide +kernel, by decide +kernel⟩
  · have := List.all_eq_true.mp h1 fr hf
    simp only [Bool.and_eq_true, decide_eq_true_eq, Bool.not_eq_true'] at this
    exact ⟨frame_heard _ _ _ this.1.1.1.1, this.1.1.1.2, this.1.1.2, this.1.2, rfl, pair_of_fst this.2⟩
  · have := List.all_eq_true.mp h2 fr hf
    simp only [Bool.and_eq_true, Bool.not_eq_true'] at this
    exact ⟨frame_heard _ _ _ this.1.1, this.1.2, this.2⟩
  · obtain ⟨i, hi, rfl⟩ := List.mem_iff_getElem.mp ha
    exact h4 ⟨i, hi⟩

/-- A DLV that accepts pops the message (R383). -/
theorem test_dlv_pops :
    ((after (exec (.dlvRx 0 (dlvFr 7)) (peerSt { peer := some ⟨1, 7, 0, false⟩, outq := [[0x1001]] }))).mb.box[(0 : Inst)]).outq = [] := by
  decide +kernel

def coordSt (b : Fb) : State := nbSt { b with st := .running, coord := true, node := some 3 }
def bcastFr : FabFrame := ff 0x20 2 0xFD 7 (List.replicate 64 1)
def arriveFr (arg : Word) : FabFrame := { ff 0x21 2 0xFE arg [] with src := 4 }
/-- A RESET of sequence number 1 with its tag under a key of zeros (HMAC-SHA-256), or another. -/
def resetFr (good : Bool) : FabFrame :=
  ff 0x26 2 0xFD 0 ([0, 0, 0, 1, 0, 0, 0, 0] ++ [if good then 111 else 0, 121, 217, 247, 235, 186, 239, 162, 145, 21, 230, 6, 56, 124, 182, 136])
def resetSt (allow : Bool) : State := coordSt { cfg := { fkey := some 16, allowReset := allow } }
def relayFr : FabFrame := ff 0x30 3 0xFE 0x40000000 (List.replicate 12 9)
def relaySt (acc : Bool) : State := nbSt { serve := 1, cfg := { acceptRelay := acc }, rlyBuf := 0x20000000 }

theorem test_hyps_FabricGlobalOperationsAndRelay :
    (FrameHeard (coordSt {}) 0 bcastFr (heardIn (coordSt {}) 0 bcastFr) ∧ bcastFr.typ = 0x20) ∧
    ((coordSt { arrived := true }).fb.arrived = true ∧ live.fb.st ≠ .running) ∧
    (let s := coordSt { children := [(0, 4)] }
     s.pd.inReset = false ∧ s.fb.arrived = false ∧ s.fb.st = .running ∧
       s.fb.children.all (fun c => s.fb.childArr.contains c.2) = false) ∧
    (let s := coordSt { children := [(0, 4)], childArr := [4] }
     s.fb.children.all (fun c => s.fb.childArr.contains c.2) = true ∧ s.fb.sentUp = false ∧ s.fb.coord = true) ∧
    (let s := nbSt { st := .running, parentFlue := some 1 }
     s.fb.children.all (fun c => s.fb.childArr.contains c.2) = true ∧ s.fb.coord = false ∧ s.fb.parentFlue ≠ none) ∧
    (∀ arg : Word, arg = 0 ∨ arg = 1 → let s := coordSt { children := [(0, 4)] }
      FrameHeard s 0 (arriveFr arg) (heardIn s 0 (arriveFr arg)) ∧ (arriveFr arg).typ = 0x21 ∧
      s.fb.children.find? (fun c => c.2 = (arriveFr arg).src.toNat) = some (0, 4)) ∧
    ((arriveFr 1).arg.toNat ≠ (coordSt {}).fb.bseq.toNat ∧ (arriveFr 0).arg.toNat = (coordSt {}).fb.bseq.toNat ∧
      (coordSt {}).fb.childArr.contains 4 = false) ∧
    (let fr := ff 0x22 2 0xFD 0x10000 []
     FrameHeard (coordSt {}) 0 fr (heardIn (coordSt {}) 0 fr) ∧ fr.typ = 0x22) ∧
    (∀ g : Bool, FrameHeard (resetSt true) 0 (resetFr g) (heardIn (resetSt true) 0 (resetFr g)) ∧ (resetFr g).typ = 0x26 ∧
      decide (resetTag (resetSt true) (resetFr g) = some (slice (resetFr g).payload 8 16)) = g) ∧
    ((resetSt true).fb.cfg.allowReset = true ∧ (resetSt true).tp.ao.rseq.toNat < be32 (resetFr true).payload 0 ∧ (resetSt true).pd.cold = false ∧
      (resetSt false).fb.cfg.allowReset = false) ∧
    (isCoord live = false ∧ live.fb.cfg.fkey = none) ∧
    (∀ a : Bool, let s := resetSt a
      s.pd.inReset = false ∧ isCoord s = true ∧ s.fb.cfg.fkey = some 16 ∧ slotOk s 16 = true ∧ hasUse s 16 1 = true ∧
      (s.kv.slots[(16 : Fin 128)]).typ = 1 ∧ (s.kv.slots[(16 : Fin 128)]).owner = 0xFF ∧ s.kv.state ≠ 3 ∧
      (draw .ver .hearth none false (.sign 64) s).1.isSome = true ∧ s.pd.cold = false ∧ 0 = (liveEntries s).foldl (fun a e => max a e.rseq.toNat) 0) ∧
    (∀ a : Bool, let s := relaySt a
      s.pd.inReset = false ∧ Sys2Proof.Machine.frameOk relayFr = true ∧ relayFr.typ = 0x30 ∧
      linkTake s (flueLink 0) relayFr = (true, (linkTake s (flueLink 0) relayFr).2) ∧ serving s 0 = true ∧ s.fb.cfg.acceptRelay = a ∧
      (s.fb.rxHead - s.fb.rxTail).toNat < 32 ∧ inShared (rlyEntry s (s.fb.rxHead.toNat % 32)) 272 = true ∧
      ∃ v, draw .hs .hearth none false (.msg 0) (linkTake s (flueLink 0) relayFr).2 = (some 1024, v)) ∧
    ((relaySt true).fb.serve ≠ BitVec.ofNat 4 (bf (0 : Word) 0 4) ∧ (relaySt true).fb.serve = BitVec.ofNat 4 (bf (1 : Word) 0 4) ∧
      (coordSt {}).fb.st ≠ .off) := by
  have h : ∀ g : Bool, hears (resetSt true) 0 (resetFr g) = true := by decide +kernel
  have hp : ∀ a : Bool, (linkTake (relaySt a) (flueLink 0) relayFr).1 = true ∧
      (draw .hs .hearth none false (.msg 0) (linkTake (relaySt a) (flueLink 0) relayFr).2).1 = some 1024 := by decide +kernel
  refine ⟨⟨frame_heard _ _ _ (by decide +kernel), rfl⟩, by decide +kernel, by decide +kernel, by decide +kernel, by decide +kernel,
    ?_, by decide +kernel, ⟨frame_heard _ _ _ (by decide +kernel), rfl⟩, fun g => ⟨frame_heard _ _ _ (h g), rfl, ?_⟩, by decide +kernel,
    by decide +kernel, by decide +kernel, fun a => ?_, by decide +kernel⟩
  · rintro arg (rfl | rfl)
    · exact ⟨frame_heard _ _ _ (by decide +kernel), by decide +kernel⟩
    · exact ⟨frame_heard _ _ _ (by decide +kernel), by decide +kernel⟩
  · cases g
    · decide +kernel
    · decide +kernel
  · refine ⟨rfl, by decide +kernel, rfl, Prod.ext (hp a).1 rfl, ?_, ?_, ?_, ?_, pair_of_fst (hp a).2⟩
    · cases a <;> rfl
    · cases a <;> rfl
    · cases a <;> decide +kernel
    · cases a <;> decide +kernel

def snapSt (coord : Bool) (x : Snap) : State :=
  nbSt { st := .running, coord := coord, node := some 3, snap := { x with epoch := 5, buf := 0x20000000#32 } }
def recSnap : Snap := { st := .recording, chans := Vector.replicate 12 { state := 3 } }
def markFr (arg : Word) : FabFrame := ff 0x23 2 0xFE arg (List.replicate 32 1)
def closeFr (arg : Word) : FabFrame := ff 0x24 1 0xFE arg []
def recFr (dst : Byte) (arg : Word) : FabFrame := ff 0x25 0 dst arg [1, 2, 3, 4]

theorem test_hyps_SnapshotsFreezeCollectAndQuote :
    (live.pd.inReset = false ∧ isCoord live = false ∧ live.fb.snap.st ≠ .recording ∧ live.fb.snap.st ≠ .signing ∧
      live.fb.snap.st ≠ .collecting ∧ isCoord (snapSt true {}) = true ∧ (snapSt true {}).fb.snap.st = .idle) ∧
    (∀ arg ∈ [(4 : Word), 5, 6], FrameHeard (snapSt false recSnap) 0 (markFr arg) (heardIn (snapSt false recSnap) 0 (markFr arg)) ∧
      FrameHeard (snapSt false recSnap) 0 (closeFr arg) (heardIn (snapSt false recSnap) 0 (closeFr arg))) ∧
    ((markFr 4).typ = 0x23 ∧ (closeFr 4).typ = 0x24 ∧ (markFr 4).arg.toNat < (snapSt false recSnap).fb.snap.epoch.toNat ∧
      (markFr 5).arg = (snapSt false recSnap).fb.snap.epoch ∧ (snapSt false recSnap).fb.snap.epoch.toNat < (closeFr 6).arg.toNat ∧
      (snapSt false recSnap).fb.st = .running ∧ (snapSt false recSnap).fb.snap.st = .recording ∧ live.fb.st ≠ .running) ∧
    (let s := snapSt false recSnap
     (s.fb.snap.chans[snapIdx 0 (snapVc (closeFr 5))]).state = 3 ∧
       (∃ i : Fin 12, i ≠ snapIdx 0 (snapVc (closeFr 5)) ∧ (s.fb.snap.chans[i]).state = 3)) ∧
    (snapSt false { st := .signing }).fb.snap.st = .signing ∧
    (let s := snapSt true { st := .collecting }
     FrameHeard s 0 (recFr 3 0x00050020) (heardIn s 0 (recFr 3 0x00050020)) ∧
       FrameHeard s 0 (recFr 4 0x00050020) (heardIn s 0 (recFr 4 0x00050020)) ∧ (recFr 3 0x00050020).typ = 0x25 ∧
       forUs s (recFr 4 0x00050020) = false ∧ forUs s (recFr 3 0x00050020) = true ∧ s.fb.coord = true ∧
       (recFr 3 0x00050020).src.toNat < 32 ∧ snapBufOk s = true ∧ bf (recFr 3 0x00050020).arg 0 6 < 33 ∧
       bf (recFr 3 0x00050020).arg 16 16 = s.fb.snap.epoch.toNat % 65536 ∧ s.fb.snap.st = .collecting) ∧
    (∀ q : Bool, let s := snapSt true { st := .collecting, quoting := q }
      s.pd.inReset = false ∧ s.fb.snap.st = .collecting ∧ s.fb.snap.quoting = q ∧ (signDone s).isSome = true) ∧
    (signDone (snapSt false { st := .signing })).isSome = true ∧
    (let s := snapSt true { st := .collecting, billet := some 1024 }
     (signDone { s with ve := { s.ve with tier0 := [{ billet := 1024, tier := 0, cost := 1, aged := false, enq := 0 }] } }).isNone = true) := by
  have h : [(4 : Word), 5, 6].all (fun arg => hears (snapSt false recSnap) 0 (markFr arg) && hears (snapSt false recSnap) 0 (closeFr arg)) =
      true := by decide +kernel
  refine ⟨by decide +kernel, fun arg ha => ?_, by decide +kernel, by decide +kernel, by decide +kernel,
    ⟨frame_heard _ _ _ (by decide +kernel), frame_heard _ _ _ (by decide +kernel), by decide +kernel⟩, by decide +kernel, by decide +kernel, by decide +kernel⟩
  have := List.all_eq_true.mp h arg ha
  simp only [Bool.and_eq_true] at this
  exact ⟨frame_heard _ _ _ this.1, frame_heard _ _ _ this.2⟩

/-- A CLOSE of this epoch closes its channel and leaves the others open (R389). -/
theorem test_close_one_channel :
    let t := after (exec (.closeRx 0 (closeFr 5)) (snapSt false recSnap))
    (t.fb.snap.chans[(1 : Fin 12)]).state = 1 ∧ (t.fb.snap.chans[(0 : Fin 12)]).state = 3 := by decide +kernel

/-! The redundant pair, the own store, the watchdogs and the tamper monitor. -/

def prSt (p : Pr) : State := { live with pr := p }
def inStep : PairHello := ⟨7, true, 2, 2, 0⟩
def vstr : VStream := ⟨false, 0, 0, 0, 1, [(0, 9)], [], 0⟩

/-- A copy of a frame that the burning unit sent to node 3. -/
def copyFr : FabFrame := { frm 0x10 0 [1, 2, 3, 4] with dst := 3 }

theorem test_hyps_PairRolesLeaseAndSynchronisation :
    live.pd.inReset = false ∧
    (∀ r : Fin 3, (prSt { fitted := true, role := BitVec.ofNat 2 r.val }).pr.fitted = true ∧
      (prSt { fitted := true, role := BitVec.ofNat 2 r.val }).pr.role = BitVec.ofNat 2 r.val) ∧ live.pr.fitted = false ∧
    (inStep.digest = live.st.digest ∧ ({ inStep with digest := 1 } : PairHello).digest ≠ live.st.digest) ∧
    (let p : Pr := { fitted := true, role := 2, step := 1, stateDone := true, caughtUp := true, link := { st := .up } }
     p.role = 2 ∧ p.step = 1 ∧ p.stateDone = true ∧ p.caughtUp = true ∧ linkUp p.link = true) ∧
    (let p : Pr := { fitted := true, role := 1, partner := some inStep }
     p.partner = some inStep ∧ inStep.step = 2 ∧ p.role = 1 ∧ p.yielding = none) ∧
    (∀ h : PairHello, live.pr.partner = some h → h.step ≠ 2) ∧
    (let s : State := { port0 (chanOp 3 0) with pr := { role := 1, yielding := some 7 } }
     s.pr.role = 1 ∧ s.pr.yielding = some 7 ∧ connMask s &&& 1 &&& ~~~s.pr.given ≠ 0) ∧
    ({ role := 2 } : Pr).reclaim = false ∧
    (let p : Pr := { fitted := true, step := 2, streams := [vstr] }
     p.fitted = true ∧ p.step = 2 ∧ (∀ c : Fin 2, p.streams.find? (fun v => v.perBind = false && v.idx = (0 : BitVec 8).toNat) = some vstr ∧
       vstr.theirs = [] ∧ vstr.mine = [((⟨false, 0, 0, if c = 0 then 9 else 8⟩ : VerdictBlock).no, 9)])) ∧
    (let s : State := { sqSt .running (stepOf 4 false false 0 5 0 0) { st := .running } with pr := { role := 2 } }
     s.pr.role = 2 ∧ stepCfg s (0 : Fin 128).val = some (stepOf 4 false false 0 5 0 0) ∧ isPmb (stepOf 4 false false 0 5 0 0) = true ∧
       (s.sq.steps[(0 : Fin 128)]).st = .running) ∧
    (hdrLen live.pr.tx[(0 : Fin 16)] = 0) ∧
    (let p : Pr := { fitted := true, link := { st := .up }, tx := (Vector.replicate 16 0).set (0 : Fin 16) 0x1010#32, rx := some [] }
     0 < hdrLen p.tx[(0 : Fin 16)] ∧ hdrLen p.tx[(0 : Fin 16)] ≤ 16 ∧ p.fitted = true ∧ linkUp p.link = true ∧ p.rx ≠ none) ∧
    live.pr.rx = none ∧
    ((prSt { role := 2 }).pr.announced = [] ∧ (prSt { role := 2 }).pr.copies.any (announces (3, 7, frameCrc copyFr)) = false ∧
      (prSt { role := 2, copies := [copyFr] }).pr.copies = [copyFr] ∧ announces (3, 7, frameCrc copyFr) copyFr = true) := by
  refine ⟨by decide +kernel, by decide +kernel, by decide +kernel, by decide +kernel, by decide +kernel, by decide +kernel, ?_,
    by decide +kernel, by decide +kernel, by decide +kernel, by decide +kernel, by decide +kernel, by decide +kernel, by decide +kernel, by decide +kernel⟩
  intro h e
  have n : live.pr.partner = none := by decide +kernel
  rw [n] at e
  cases e

/-- The banked unit takes over when the lease has been silent for 400 us (R440). -/
theorem test_lease_expiry :
    let t := after (exec (.leaseExpiry 0) (prSt { fitted := true, role := 2, frameAt := 100 }))
    t.pr.role = 1 ∧ t.clk.now = 200100 := by decide +kernel

/-- The own store with these operation registers, its operation at the head of the own store's queue. -/
def osSt (len : BitVec 9) (addr : BitVec 28) (o : Option OsOp) : State :=
  { live with os := { live.os with ctlLen := len, addr := addr, src := 0x20000000, op := o, arb := { items := [⟨16, 64, 1, 0⟩] } } }
def recvSt (n : Nat) : State :=
  { live with boot := { live.boot with on := true, count := n, total := some 600, want := 3 }
              fb := { live.fb with flue := live.fb.flue.set (0 : Fin 4) { st := .up } } }
def segFr : FabFrame := ⟨0x30, 3, 0, 8, 0xFE, 1, 0, 0, 0xBFFE0000, [0, 0, 0, 3, 1, 2, 3, 4]⟩

theorem test_hyps_OwnStoreOperationsAndRecovery :
    ((osSt 1 0 (some ⟨1, 0, [], none⟩)).os.op.isSome = true ∧ (osSt 0 0 none).os.op = none ∧ (osSt 0 0 none).os.ctlLen.toNat = 0 ∧
      256 < (osSt 257 0 none).os.ctlLen.toNat) ∧
    (let s := osSt 2 0xFF none
     s.pd.inReset = false ∧ 0 < s.os.ctlLen.toNat ∧ s.os.ctlLen.toNat ≤ 256 ∧ 256 < s.os.addr.toNat % 256 + s.os.ctlLen.toNat ∧
       s.os.addr.toNat % 4096 ≠ 0 ∧ s.os.addr.toNat % 65536 ≠ 0) ∧
    (let s := osSt 256 0 none
     s.os.addr.toNat % 256 + s.os.ctlLen.toNat ≤ 256 ∧ s.os.src.toNat % 4 = 0 ∧ inRam s.os.src.toNat s.os.ctlLen.toNat = true) ∧
    (let s : State := { osSt 4 0 none with os := { (osSt 4 0 none).os with src := 0x20000001 } }
     s.os.src.toNat % 4 ≠ 0) ∧
    (osFits 0 256 = true ∧ osFits 0 4096 = true ∧ osFits 0 65536 = true ∧ 0xFFFFF00 % 256 = 0 ∧ 0xFFF0000 % 65536 = 0) ∧
    (Config.osFlash 1 < 0x8000000 → osFits 0xFFFFF00 256 = false ∧ osFits 0xFFF0000 65536 = false) ∧
    (∀ op : Fin 4, op ≠ 0 → let o : OsOp := ⟨op.val, 0, [], none⟩
      (osGrant { live with os := { live.os with op := some o } } osOpId).isNone = true) ∧
    (∀ op : Fin 4, op ≠ 0 → let o : OsOp := ⟨op.val, 0, [], none⟩
      (osSt 1 0 (some o)).os.op = some o ∧ o.issued = none ∧ (osGrant (osSt 1 0 (some o)) osOpId).isSome = true) ∧
    (let o : OsOp := ⟨2, 0, [], some 5⟩
     (osSt 1 0 (some o)).os.op = some o ∧ o.op ≠ 1 ∧ o.issued = some 5 ∧ o.issued.isSome = true) ∧
    (live.wd.susp = none ∧ ∀ w : Fin 5, wdRuns live.wd.w[w] = true → (live.wd.w[w]).extPend = false) ∧
    (live.boot.on = false ∧ (recvSt 0).boot.on = true ∧ RecSrc.ms0 ≠ .fl0 ∧ recBusy (recvSt 0) .ms0 = false ∧
      recBusy { recvSt 0 with boot := { (recvSt 0).boot with src := some .i3c0 } } .ms0 = true) ∧
    (let d : List Byte := [1, 2, 3, 4]
     0 < d.length ∧ d.length ≤ 256 ∧ (∀ a ∈ [0, 128, 200, 596], a + d.length ≤ min 0x200000 ((recvSt 128).boot.total.getD 0x200000)) ∧
       (recvSt 128).boot.count < 200 ∧ 0 < (recvSt 128).boot.count ∧ 128 = (recvSt 128).boot.count ∧ 0 = (recvSt 0).boot.count ∧
       256 < (List.replicate 257 (0 : Byte)).length ∧ (recvSt 0).boot.total ≠ some 599 ∧ (recvSt 0).boot.total = some 600) ∧
    (∃ u, linkTake (recvSt 128) 0 segFr = (true, u)) ∧
    (Sys2Proof.Machine.frameOk segFr = true ∧ segFr.typ = 0x30 ∧ bf segFr.arg 30 2 = 2 ∧ bf segFr.arg 16 14 = 0x3FFE ∧
      recBusy (recvSt 128) .fl0 = false ∧ be32 segFr.payload 0 = (recvSt 128).boot.want ∧ bf segFr.arg 0 13 = (recvSt 128).boot.got ∧
      (let d := (segFr.payload.drop 4).take (min (4096 - (recvSt 128).boot.got) ((recvSt 128).boot.total.getD 0x200000 - (recvSt 128).boot.count))
       (recvSt 128).boot.total ≠ some ((recvSt 128).boot.count + d.length) ∧ (recvSt 128).boot.got + d.length ≠ 4096)) := by
  refine ⟨by decide +kernel, by decide +kernel, by decide +kernel, by decide +kernel, by decide +kernel, fun h => ?_,
    by decide +kernel, by decide +kernel, by decide +kernel, by decide +kernel, by decide +kernel, by decide +kernel,
    pair_of_fst (by decide +kernel), by decide +kernel⟩
  simp only [osFits]
  constructor
  · rw [if_neg (by decide)]; exact decide_eq_false (by omega)
  · rw [if_neg (by decide)]; exact decide_eq_false (by omega)

/-- A PROGRAM clears bits only (R401): the bytes are those of the source where the store was erased. -/
theorem test_os_program :
    memGet 0xFF (after (exec (.osOperationEnd false) (osSt 1 0x40 (some ⟨1, 0x40, [0x5A], none⟩)))).os.mem 0x40 = 0x5A := by decide +kernel

/-- Watchdog 0 in this state; task set 0 of one task, for core 0, its count `n`. -/
def wdSt (k : WdRt) (susp : Option Nat) : State := { live with wd := { live.wd with w := live.wd.w.set (0 : Fin 5) k, susp := susp } }
def tsSt (armed fatal : Bool) (n : Nat) : State :=
  { live with wd := { live.wd with tsCfg := live.wd.tsCfg.set (0 : Fin 16) { tasks := 1, cores := 1, doubleFatal := fatal }
                                   ts := live.wd.ts.set (0 : Fin 16) { armed := armed, counts := Vector.replicate 16 n } } }

theorem test_hyps_WatchdogsStokeExpireAndArm :
    (stokeCore 1 0 = false ∧ stokeCore 0 0 = true ∧ stokeCore 4 3 = true ∧ live.pd.inReset = false ∧
      (live.wd.w[(1 : Fin 5)]).st ≠ .resetTiming ∧ (live.wd.w[(1 : Fin 5)]).st ≠ .armed) ∧
    (∀ o : Bool, let s := wdSt { st := .armed, open_ := o } none
      ((s.wd.w[(0 : Fin 5)]).st = .armed ∧ s.wd.susp = none ∧ (s.wd.w[(0 : Fin 5)]).open_ = o ∧ (0 : Word) = wdToken s.wd.w[(0 : Fin 5)] ∧
        (1 : Word) ≠ wdToken s.wd.w[(0 : Fin 5)] ∧ s.clk.now ≤ (s.wd.w[(0 : Fin 5)]).at_ + usCyc (s.wd.w[(0 : Fin 5)]).openUs)) ∧
    (wdSt { st := .armed } (some 3)).wd.susp ≠ none ∧ takenNow (live.wd.w[(0 : Fin 5)]).stokeBy live.clk.now 0 = false ∧
    takenNow ({ stokeBy := some (live.clk.now, 1) } : WdRt).stokeBy live.clk.now 0 = true ∧
    ((0 : Word).getLsbD 0 = false ∧ (1 : Word).getLsbD 0 = true ∧ live.st.state ≠ .locked ∧ live.st.state ≠ .restructuring) ∧
    (let s : State := { live with st := { live.st with state := .locked } }
     s.st.state = .locked ∧ (s.wd.w[(0 : Fin 5)]).wasArmed = false ∧ (s.wd.w[(0 : Fin 5)]).st ≠ .expired ∧ (0 : Fin 5).val = (0 : Core).val) ∧
    (bf (0 : Word) 0 4 = (0 : Fin 16).val ∧ bf (0x100 : Word) 8 4 = (1 : Fin 16).val) ∧
    (∀ n : Fin 3, ∀ fatal : Bool, let s := tsSt true fatal n.val
      (s.wd.ts[(0 : Fin 16)]).expired = false ∧ (s.wd.tsCfg[(0 : Fin 16)]).doubleFatal = fatal ∧
      (s.wd.ts[(0 : Fin 16)]).armed = true ∧ (0 : Fin 16).val < (s.wd.tsCfg[(0 : Fin 16)]).tasks ∧
      (s.wd.tsCfg[(0 : Fin 16)]).tasks ≤ (1 : Fin 16).val ∧ (s.wd.tsCfg[(0 : Fin 16)]).cores.getLsbD (1 : Core).val = false ∧
      (s.wd.tsCfg[(0 : Fin 16)]).cores.getLsbD (0 : Core).val = true ∧ s.wd.susp = none ∧
      (∀ k : Fin 16, k.val < (s.wd.tsCfg[(0 : Fin 16)]).tasks → (s.wd.ts[(0 : Fin 16)]).counts[k] = n.val)) ∧
    ({ (tsSt true false 0).wd with susp := some 3 } : Wd).susp ≠ none ∧
    ((tsSt false false 0).wd.ts[(0 : Fin 16)]).armed = false := by decide +kernel

/-- A stoke in the closed phase expires the watchdog with fault 1 (R428). -/
theorem test_early_stoke :
    ((after (exec (.stoke (.core 0) 0 0) (wdSt { st := .armed, open_ := false } none))).wd.w[(0 : Fin 5)]).fault = 1 := by decide +kernel

/-- Source 0 so, the device on battery where `b`. -/
def tpSt (x : TpSrc) (b : Bool) : State :=
  { live with tp := { live.tp with battery := b, ao := { live.tp.ao with src := live.tp.ao.src.set (0 : Fin 8) x } }
              pd := { live.pd with cold := false } }

theorem test_hyps_TamperSourcesAlarmsAndResponses :
    ((tpSt { en := false } false).tp.ao.src[(0 : Fin 8)]).en = false ∧
    (∀ b : Bool, let s := tpSt { n := 1, resp := 15 } b
      (s.tp.ao.src[(0 : Fin 8)]).en = true ∧ tpSeen s 0 = true ∧ lightOk s 0 0 = true ∧ (s.tp.ao.src[(0 : Fin 8)]).active = false ∧
      (s.tp.ao.src[(0 : Fin 8)]).n ≤ 1 ∧ (s.tp.ao.src[(0 : Fin 8)]).cnt = 0 ∧ s.tp.battery = b ∧ s.pd.cold = false ∧
      (s.tp.ao.src[(0 : Fin 8)]).resp.getLsbD 3 = true) ∧
    (let s := tpSt { n := 2, resp := 7, active := true, cnt := 1 } false
     (s.tp.ao.src[(0 : Fin 8)]).active = true ∧ tpSeen s 0 = true ∧ lightOk s 0 63 = true) ∧
    (let s := tpSt { n := 3, cnt := 1 } false
     (s.tp.ao.src[(0 : Fin 8)]).active = false ∧ 0 < (s.tp.ao.src[(0 : Fin 8)]).cnt ∧ 1 + 1 < (s.tp.ao.src[(0 : Fin 8)]).n ∧ (0 : Fin 8) ≠ 5 ∧
       (0 : Fin 8) ≠ 6 ∧ ¬ (s.tp.ao.src[(0 : Fin 8)]).openAt + tpWindow s 0 < s.clk.now) ∧
    (live.tp.haltAt = none ∧ ({ live.tp with haltAt := some 5 } : Tp).haltAt = some 5 ∧ live.pd.inReset = false) ∧
    (let s : State := { live with tp := { live.tp with ao := { live.tp.ao with src := live.tp.ao.src.set (7 : Fin 8) { n := 1 } } } }
     (s.tp.ao.src[(7 : Fin 8)]).en = true ∧ (s.tp.ao.src[(7 : Fin 8)]).active = false ∧ (s.tp.ao.src[(7 : Fin 8)]).n ≤ 1 ∧ s.tp.battery = false) ∧
    live.tp.ao.pend = 0 ∧
    (let s : State := { live with tp := { live.tp with ao := { live.tp.ao with pend := 1 } } }
     0 < s.tp.ao.pend ∧ tamperCount s < 512 ∧ s.tp.battery = false) := by decide +kernel

/-- The alarm of a source whose response is ASH takes the AWK and leaves the vault in ash (R457). -/
theorem test_ash_alarm :
    let t := after (exec (.tamperEvent 0 0) (tpSt { n := 1, resp := 4 } false))
    t.tp.ao.ashed = true ∧ t.kv.state = 3 ∧ t.tp.ao.alarms = 1 := by decide +kernel

end Sys2Proof.Tests
end

section
/-! The gate of the device reset (R4): the commands outside `ActsInReset` run through `onLive`, and the settling of O7. -/

namespace Sys2Proof.Machine

/-- In reset, what runs behind the gate does not run. -/
theorem onLive_of_inReset {s : State} (h : s.pd.inReset = true) (f : State → State) : onLive s f = s := if_pos h

/-- Out of reset, the gate is open. -/
theorem onLive_of_not_inReset {s : State} (h : s.pd.inReset = false) (f : State → State) : onLive s f = f s := by
  simp [onLive, h]

/-- Every command but the fifteen that act in reset is one operation behind the gate of the device reset. -/
theorem exec_eq_onLive {c : Instr} (hc : ActsInReset c = false) : ∃ f, ∀ s, exec c s = .next (onLive s f) := by
  cases c with
  | devRstNAssert | deviceResetRelease | coreSupplyLow | coreSupplyRestored | ioBankLow | ioBankInRange | clockMonitorFault
  | tapInstruction | tamperEvent | tamperWindowClose | sourceIdle | haltHoldExpiry | thermBitProgrammed | aoRestart
  | tinderStart => cases hc
  | _ => exact ⟨_, fun _ => rfl⟩

/-- Settles O7: a command outside `ActsInReset` runs behind the gate, which is shut while the reset is asserted. -/
theorem deviceResetHoldsEverythingElse : Obligations.DeviceResetHoldsEverythingElse := by
  intro c s hreset hc
  obtain ⟨f, hf⟩ := exec_eq_onLive hc
  rw [hf, onLive_of_inReset hreset]

end Sys2Proof.Machine
end

section
/-! The parts of the power-on state that are arrays, entry by entry (R4), and the settling of O11. -/

namespace Sys2Proof.Machine

theorem reset_ch (c : Ch) : State.reset.ch[c] = {} := Vector.getElem_replicate c.isLt
theorem reset_inst (n : Inst) : State.reset.inst[n] = {} := Vector.getElem_replicate n.isLt
theorem reset_portals (x : Fin 6) : State.reset.gc.portals[x] = {} := Vector.getElem_replicate x.isLt
theorem reset_mtimecmp (c : Core) : State.reset.he.mtimecmp[c] = BitVec.allOnes 64 := Vector.getElem_replicate c.isLt
theorem reset_slots (k : Fin 128) : State.reset.kv.slots[k] = {} := Vector.getElem_replicate k.isLt
theorem reset_box (n : Inst) : State.reset.mb.box[n] = {} := Vector.getElem_replicate n.isLt
theorem reset_flue (f : Flue) : State.reset.fb.flue[f] = {} := Vector.getElem_replicate f.isLt
theorem reset_watchdogs (w : Fin 5) : State.reset.wd.w[w] = {} := Vector.getElem_replicate w.isLt
theorem reset_therm (i : Fin 64) : State.reset.tp.ao.th[i] = 128 := Vector.getElem_replicate i.isLt

/-- Core 0 alone leaves a reset running (R236). -/
theorem reset_cores_st (c : Core) : (State.reset.he.cores[c]).st = if c = 0 then .running else .held := by
  revert c
  decide

/-- Settles O11, table by table: the single registers by evaluation, the arrays entry by entry. -/
theorem powerOnStateHasTheResetValues : Obligations.PowerOnStateHasTheResetValues := by
  unfold Obligations.PowerOnStateHasTheResetValues
  refine ⟨rfl, rfl, rfl, rfl, rfl, rfl, rfl, rfl, rfl, rfl, fun c => ?channels, fun x => ?portals, reset_cores_st,
    reset_mtimecmp, fun k => ?slots, fun n => ?instances, fun f => ?flues, fun w => ?watchdogs, rfl, reset_therm, rfl, rfl⟩
  case channels => rw [reset_ch]; exact ⟨rfl, rfl, rfl, rfl, rfl⟩
  case portals => rw [reset_portals]; exact ⟨rfl, rfl⟩
  case slots => rw [reset_slots]
  case instances => rw [reset_inst, reset_box]; exact ⟨rfl, rfl⟩
  case flues => rw [reset_flue]
  case watchdogs => rw [reset_watchdogs]

end Sys2Proof.Machine
end

section
/-! Register writes by a requester (R5, R6, R64): when the address space takes them, what a refused one leaves behind, and the
settling of O8. -/

namespace Sys2Proof.Machine

/-! Who may write. -/

@[simp] theorem mayWrite_core (s : State) (c : Core) (w : Nat) (closed : Bool) : mayWrite s (.core c) w closed = true := rfl

theorem mayWrite_ext {s : State} {x : Fin 6} {w : Nat} (hmask : (s.gc.portals[x]).writeMask.getLsbD w = true)
    (hlive : lcDead s = false) : mayWrite s (.ext x) w false = true := by
  simp only [mayWrite, hmask, hlive, Bool.not_false, Bool.and_self]

theorem mayWrite_ext_of_mask {s : State} {x : Fin 6} {w : Nat} {closed : Bool}
    (hmask : (s.gc.portals[x]).writeMask.getLsbD w = false) : mayWrite s (.ext x) w closed = false := by
  simp only [mayWrite, hmask, Bool.and_false, Bool.false_and]

theorem wr_of_mayWrite {s : State} {m : Master} {w : Nat} {closed : Bool} (h : mayWrite s m w closed = true)
    (f : State → State) : wr s m w closed f = f s := if_pos h

/-! What the register space accepts. -/

/-- Both modes of a core reach the registers of the ST window: only KV is closed to user mode (R240). -/
theorem coreReaches_stIntSts (s : State) (c : Core) : CoreReaches s c 0x050050 := ⟨rfl, Bool.or_true _⟩
theorem coreReaches_stIntEn (s : State) (c : Core) : CoreReaches s c 0x050054 := ⟨rfl, Bool.or_true _⟩

/-- A portal frame at an unaligned address is answered with ACCESS_ERR (R64). -/
theorem burstCheck_unaligned (s : State) (x : Fin 6) {f : PortalFrame} (write : Bool) (ha : f.addr.toNat % 4 ≠ 0) :
    burstCheck s x f write = 2 := by
  unfold burstCheck
  split
  · rfl
  · exact if_pos (.inl ha)

/-- The master that may write a window writes its words one by one, outside the instance registers of MB (R64). -/
theorem burstCheck_word_open {s : State} {x : Fin 6} {a : BitVec 24} {w o : Nat} (vs : List Word)
    (hwin : windowOf a.toNat = some (w, o)) (ha : a.toNat % 4 = 0) (hmb : w ≠ 13) (hmay : mayWrite s (.ext x) w false = true) :
    burstCheck s x { addr := a, count := 1, words := vs } true = 0 := by
  simp [burstCheck, hwin, ha, hmay, burstMine, hmb]

/-- A word of a window its master may not write is rejected, unless it is one of the selectors (R64, R498). -/
theorem burstCheck_word_closed {s : State} {x : Fin 6} {a : BitVec 24} {w o : Nat} (vs : List Word)
    (hwin : windowOf a.toNat = some (w, o)) (hsel : selServes w o = []) (hmay : mayWrite s (.ext x) w false = false) :
    burstCheck s x { addr := a, count := 1, words := vs } true = 2 := by
  simp [burstCheck, hwin, hmay, burstOfs, selOpen, hsel]

/-! The outcomes of REGISTER_WRITE. -/

/-- Out of reset the command is `writeCmd`. -/
theorem exec_registerWrite {s : State} (hs : s.pd.inReset = false) (m : Master) (a : BitVec 24) (width : Nat) (v : Word) :
    exec (.registerWrite m a width v) s = .next (writeCmd s m a width v) :=
  congrArg Host.Outcome.next (onLive_of_not_inReset hs fun s => writeCmd s m a width v)

/-- A core's word write at a register it reaches. -/
theorem exec_registerWrite_core {s : State} {c : Core} {a : BitVec 24} (hs : s.pd.inReset = false)
    (h : CoreReaches s c a.toNat) (v : Word) :
    exec (.registerWrite (.core c) a 32 v) s = .next (regWrite s (.core c) a.toNat v) := by
  obtain ⟨haligned, hreach⟩ := h
  simp only [exec_registerWrite hs, writeCmd, haligned, hreach, decide_true, Bool.and_self, and_self, if_true]

/-- An external master's word write that passes the checks of its portal frame. -/
theorem exec_registerWrite_ext {s : State} {x : Fin 6} {a : BitVec 24} {v : Word} (hs : s.pd.inReset = false)
    (h : burstCheck s x { addr := a, count := 1, words := [v] } true = 0) :
    exec (.registerWrite (.ext x) a 32 v) s = .next (regWrite s (.ext x) a.toNat v) := by
  simp only [exec_registerWrite hs, writeCmd, h, decide_true, and_self, if_true]

/-- An external master's write that is no word write, or that its portal frame's checks reject, leaves ACCESS_ERR and nothing
else. -/
theorem exec_registerWrite_ext_refused {s : State} {x : Fin 6} {a : BitVec 24} {width : Nat} {v : Word}
    (hs : s.pd.inReset = false) (h : width ≠ 32 ∨ burstCheck s x { addr := a, count := 1, words := [v] } true ≠ 0) :
    exec (.registerWrite (.ext x) a width v) s =
      .next (modPortal s x (fun p => { p with accessErr := true, lastStatus := 2 })) := by
  rw [exec_registerWrite hs, writeCmd, if_neg]
  · rfl
  · rintro ⟨hwidth, hok⟩
    exact h.elim (· hwidth) (· (of_decide_eq_true hok))

/-- A core's write that is no word write, or that is unaligned, is an access error at its address (R5). -/
theorem exec_registerWrite_core_refused {s : State} {c : Core} {a : BitVec 24} {width : Nat} {v : Word}
    (hs : s.pd.inReset = false) (h : width ≠ 32 ∨ a.toNat % 4 ≠ 0) :
    exec (.registerWrite (.core c) a width v) s = .next (accessError s (.core c) a.toNat .store) := by
  rw [exec_registerWrite hs, writeCmd, if_neg]
  rintro ⟨hwidth, hok⟩
  exact h.elim (· hwidth) (· (of_decide_eq_true (Bool.and_eq_true_iff.mp hok).1))

/-! The interrupt registers of the ST window. -/

/-- A word of an implemented register goes to its window's registers. -/
theorem regWrite_of_windowOf {a w o : Nat} (hwin : windowOf a = some (w, o)) (ha : a % 4 = 0) (ho : o ≤ lastOfs w)
    (s : State) (m : Master) (v : Word) : regWrite s m a v = winWrite s m w o v := by
  simp only [regWrite, hwin, ha, ho, and_self, if_true]

theorem regWrite_stIntEn {s : State} {m : Master} (hmay : mayWrite s m 5 false = true) (v : Word) :
    regWrite s m 0x050054 v = { s with st := { s.st with intEn := v &&& 31#32 } } := by
  rw [regWrite_of_windowOf (w := 5) (o := 0x54) rfl rfl (by decide)]
  simp only [winWrite, stWrite, wr_of_mayWrite hmay]
  rfl

theorem regWrite_stIntSts {s : State} {m : Master} (hmay : mayWrite s m 5 false = true) (v : Word) :
    regWrite s m 0x050050 v = { s with st := { s.st with intSts := s.st.intSts &&& ~~~v } } := by
  rw [regWrite_of_windowOf (w := 5) (o := 0x50) rfl rfl (by decide)]
  simp only [winWrite, stWrite, wr_of_mayWrite hmay]

/-! The trap of a core's refused access. -/

/-- The state in which a core takes the store access fault of a register access: its entry of HE_RU_FSTAT has the cause
(R247). -/
def storeFaultSt (s : State) (c : Core) : State :=
  { s with he := { s.he with
    fstat := s.he.fstat.set c (pack [(0, 5), (4, 0), (5, 0), (6, b2n (s.he.cores[c]).user)]) } }

/-- Outside the non-maskable trap the core enters its machine-mode handler with cause 7 and the register's address. -/
theorem accessError_core_store {s : State} {c : Core} (h : (s.he.cores[c]).st ≠ .nmi) (a : Nat) :
    accessError s (.core c) a .store = rvTrapEntry (storeFaultSt s c) c false 7 (BitVec.ofNat 32 (0x40000000 + a)) :=
  if_neg h

theorem modCore_cores_same (s : State) (c : Core) (f : CoreRt → CoreRt) : (modCore s c f).he.cores[c] = f s.he.cores[c] :=
  Vector.getElem_set_self c.isLt

theorem modCore_cores_ne (s : State) {c d : Core} (f : CoreRt → CoreRt) (h : d ≠ c) :
    (modCore s c f).he.cores[d] = s.he.cores[d] :=
  Vector.getElem_set_ne c.isLt d.isLt (fun e => h (Fin.ext e.symm))

/-- Settles O8, clause by clause: accepted writes act on their register, refused ones are reported to their requester. -/
theorem registerWritesActAsTheirAccessCodesState : Obligations.RegisterWritesActAsTheirAccessCodesState := by
  refine ⟨fun c a v s hs h => exec_registerWrite_core hs h v, fun x a v s hs h => exec_registerWrite_ext hs h,
    fun c v s hs => ?coreEnable, fun c v s hs => ?coreStatus, fun x v s hs hmask hlive => ?extEnable,
    fun x v s hs hmask => ?extMasked, fun x a width v s hs h => ?extRefused, fun c a width v s hs h hnmi => ?coreRefused⟩
  case coreEnable =>
    rw [exec_registerWrite_core hs (coreReaches_stIntEn s c)]
    exact congrArg _ (regWrite_stIntEn (mayWrite_core s c 5 false) v)
  case coreStatus =>
    rw [exec_registerWrite_core hs (coreReaches_stIntSts s c)]
    exact congrArg _ (regWrite_stIntSts (mayWrite_core s c 5 false) v)
  case extEnable =>
    have hmay := mayWrite_ext hmask hlive
    rw [exec_registerWrite_ext hs (burstCheck_word_open [v] (w := 5) (o := 0x54) rfl rfl (by decide) hmay)]
    exact congrArg _ (regWrite_stIntEn hmay v)
  case extMasked =>
    have hrejected := burstCheck_word_closed (a := 0x050054) [v] (w := 5) (o := 0x54) rfl rfl (mayWrite_ext_of_mask hmask)
    exact exec_registerWrite_ext_refused hs (.inr (by rw [hrejected]; decide))
  case extRefused =>
    exact exec_registerWrite_ext_refused hs (h.imp_right fun ha => by rw [burstCheck_unaligned s x true ha]; decide)
  case coreRefused =>
    refine ⟨_, (exec_registerWrite_core_refused hs h).trans (congrArg _ (accessError_core_store hnmi _)), ?_⟩
    unfold rvTrapEntry
    rw [modCore_cores_same]
    exact ⟨rfl, rfl, rfl, rfl, rfl, fun d hd => modCore_cores_ne _ _ hd, rfl⟩

end Sys2Proof.Machine
end

section
/-! The boot registers through the first three steps of R31: no operation that the tinder ROM uses before it chooses an image
changes them. -/

namespace Sys2Proof.Machine

/-- A fold of steps that leave the boot registers alone leaves them alone. -/
theorem foldl_boot {β : Type} {g : State → β → State} (hg : ∀ s x, (g s x).boot = s.boot) (l : List β) (s : State) :
    (l.foldl g s).boot = s.boot := by
  induction l generalizing s with
  | nil => rfl
  | cons x l ih => exact (ih (g s x)).trans (hg s x)

/-- The state of a pair that an equation names has the boot registers of the pair's. -/
theorem boot_of_pair {β : Type} {p : β × State} {a : β} {s t : State} (h : p.2.boot = s.boot) (e : p = (a, t)) :
    t.boot = s.boot := by
  rw [e] at h
  exact h

/-! What only settles, fills or squashes. -/

@[simp] theorem regate_boot (s : State) : (regate s).boot = s.boot := (regate_fixed (Fixed.refl s)).boot
@[simp] theorem settle_boot (s : State) (c : Ch) : (settle s c).boot = s.boot :=
  (regate_fixed (pumpCh_fixed (Fixed.refl s))).boot
@[simp] theorem strictPend_boot (s : State) (c : Ch) (p : Fin 64 → Bool) : (strictPend s c p).boot = s.boot :=
  (strictPend_fixed (Fixed.refl s)).boot
@[simp] theorem setStrict_boot (s : State) (c : Ch) (i : Fin 64) (f : StrictRt → StrictRt) :
    (setStrict s c i f).boot = s.boot := (setStrict_fixed (Fixed.refl s)).boot
@[simp] theorem freeFrames_boot (s : State) (p : Frame → Bool) : (freeFrames s p).boot = s.boot :=
  (freeFrames_fixed (Fixed.refl s)).boot
@[simp] theorem repin_boot (s : State) (c : Ch) : (repin s c).boot = s.boot := (repin_fixed (Fixed.refl s)).boot
@[simp] theorem squash_boot (s : State) (ids : List Nat) : (squash s ids).boot = s.boot := (squash_fixed (Fixed.refl s)).boot
@[simp] theorem closeSlot_boot (s : State) (c : Ch) (x : ProvSlot) (kind resp reason : Nat) :
    (closeSlot s c x kind resp reason).boot = s.boot := (closeSlot_fixed (Fixed.refl s)).boot
@[simp] theorem hashDrop_boot (s : State) (id : Nat) : (hashDrop s id).boot = s.boot := (hashDrop_fixed (Fixed.refl s)).boot
@[simp] theorem aesDrop_boot (s : State) (id : Nat) : (aesDrop s id).boot = s.boot := (aesDrop_fixed (Fixed.refl s)).boot
@[simp] theorem setClkHold_boot (s : State) (c : Ch) : (setClkHold s c).boot = s.boot :=
  (regate_fixed (Fixed.mk' (Fixed.refl s))).boot
@[simp] theorem dropUnserved_boot (s : State) (c : Ch) : (dropUnserved s c).boot = s.boot :=
  (repin_fixed (freeFrames_fixed (Fixed.refl s))).boot
@[simp] theorem squashChannel_boot (s : State) (c : Ch) : (squashChannel s c).boot = s.boot :=
  (squash_fixed (Fixed.foldl (Fixed.refl s) fun _ _ => abandonSlot_fixed)).boot
@[simp] theorem selectGolden_boot (s : State) (c : Ch) (i : Fin 15) : (selectGolden s c i).boot = s.boot := by
  have flipped : Fixed s (applyGclr (applyFlip s c i) c i) := applyGclr_fixed (applyFlip_fixed (Fixed.refl s))
  unfold selectGolden
  split
  · dsimp only
    split
    · exact (strictPend_fixed flipped).boot
    · exact (dropJournal_fixed (ecRecord_fixed (ecInt_fixed (repin_fixed (strictPend_fixed (setBset_fixed
        (freeFrames_fixed (squashFills_fixed flipped)))))))).boot
  · rfl

/-! The responses to a clinker and the revocation of a binding (R126, R133). -/

@[simp] theorem strictFailAt_boot (s : State) (c : Ch) (vem : Nat) : (strictFailAt s c vem).boot = s.boot := by
  unfold strictFailAt
  split <;> simp [apply_ite State.boot]

@[simp] theorem holdNoWay_boot (s : State) (id : EmberId) : (holdNoWay s id).boot = s.boot := by
  simp [holdNoWay]

@[simp] theorem holdReboot_boot (s : State) (id : EmberId) (b : Binding) : (holdReboot s id b).boot = s.boot := by
  unfold holdReboot
  split <;> simp [apply_ite State.boot]

@[simp] theorem substitute_boot (s : State) (id : EmberId) (b : Binding) : (substitute s id b).boot = s.boot := by
  unfold substitute
  split <;> simp [apply_ite State.boot]

@[simp] theorem listClinker_boot (s : State) (id : EmberId) : (listClinker s id).boot = s.boot := by
  unfold listClinker
  dsimp only
  split <;> simp [apply_ite State.boot]

@[simp] theorem clinkerResponse_boot (s : State) (id : EmberId) : (clinkerResponse s id).boot = s.boot := by
  unfold clinkerResponse
  split
  · rfl
  · rw [settle_boot]
    split <;> simp [apply_ite State.boot]

@[simp] theorem veRecord_boot (s : State) (c kind bind info obj win : Nat) (essential : Bool) :
    (veRecord s c kind bind info obj win essential).boot = s.boot := by
  simp [veRecord, evLowSet, apply_ite State.boot]

@[simp] theorem nodeDrop_boot (s : State) (p : NodeEnt → Bool) : (nodeDrop s p).boot = s.boot := rfl
@[simp] theorem strictFailBind_boot (s : State) (b : Binding) : (strictFailBind s b).boot = s.boot :=
  foldl_boot (fun s i => by simp [apply_ite State.boot]) _ s
@[simp] theorem revokeBinding_boot (s : State) (b : Binding) : (revokeBinding s b).boot = s.boot := by
  simp [revokeBinding, foldl_boot, apply_ite State.boot]

@[simp] theorem revokeAnchors_boot (s : State) (p : Fin 128 → Bool) : (revokeAnchors s p).boot = s.boot :=
  foldl_boot revokeBinding_boot _ s

/-! The vault's slots and operations, and its zeroisation (R312, R313, R316). -/

@[simp] theorem ramWrite_boot (s : State) (by_ : Option Core) (a : Nat) (bs : List Byte) :
    (ramWrite s by_ a bs).boot = s.boot := rfl
@[simp] theorem emptySlot_boot (s : State) (i : Fin 128) : (emptySlot s i).boot = s.boot := rfl
@[simp] theorem lmsDrop_boot (s : State) : (lmsDrop s).boot = s.boot := rfl
@[simp] theorem enterAsh_boot (s : State) : (enterAsh s).boot = s.boot := rfl
@[simp] theorem stRefuse_boot (s : State) (code sec ofs : Nat) : (stRefuse s code sec ofs).boot = s.boot := rfl
@[simp] theorem abortOps_boot (s : State) (p : Nat → Bool) (late : Nat) : (abortOps s p late).boot = s.boot := by
  refine foldl_boot (fun s c => ?_) _ s
  split <;> simp [apply_ite State.boot]

@[simp] theorem ashHeld_boot (s : State) : (ashHeld s).boot = s.boot := by
  refine foldl_boot (fun s c => ?_) _ s
  split <;> simp [apply_ite State.boot]

@[simp] theorem zeroSlots_boot (s : State) (p : Fin 128 → Bool) : (zeroSlots s p).boot = s.boot := by
  simp [zeroSlots, foldl_boot emptySlot_boot, apply_ite State.boot]

@[simp] theorem dropWork_boot (s : State) (w : Work) : (dropWork s w).boot = s.boot :=
  foldl_boot (fun s id => by simp [retire]) _ s
@[simp] theorem loadReject_boot (s : State) (code sec ofs : Nat) : (loadReject s code sec ofs).boot = s.boot := by
  simp [loadReject]

@[simp] theorem zeroiseVault_boot (s : State) : (zeroiseVault s).boot = s.boot := by
  simp [zeroiseVault, apply_ite State.boot]

@[simp] theorem zeroiseTest_boot (s : State) : (zeroiseTest s).boot = s.boot := by
  simp [zeroiseTest]

/-! Step 1: what the AO domain deferred (R461). -/

@[simp] theorem thermProgram_boot (s : State) : (thermProgram s).boot = s.boot := by
  simp [thermProgram, thermBit, apply_ite State.boot]

@[simp] theorem tpChain_boot (s : State) (pos : Nat) : (tpChain s pos).boot = s.boot := by
  rw [tpChain, modAo]

@[simp] theorem tpChainAll_boot (s : State) : (tpChainAll s).boot = s.boot :=
  foldl_boot (fun s _ => tpChain_boot s _) _ s
@[simp] theorem holdHosts_boot (s : State) : (holdHosts s).boot = s.boot := by
  simp [holdHosts]

@[simp] theorem deferred_boot (s : State) : (deferred s).boot = s.boot := by
  simp [deferred, foldl_boot, apply_ite State.boot]

/-! Step 2: an open life-cycle mark is resumed (R328, R329), and the roots are loaded (R297). -/

@[simp] theorem entropyBytes_boot (s : State) (n : Nat) : (entropyBytes s n).2.boot = s.boot := by
  unfold entropyBytes
  split <;> rfl

@[simp] theorem actsToTest_boot (s : State) : (actsToTest s).2.boot = s.boot := by
  unfold actsToTest
  dsimp only
  split
  · rfl
  · split
    · rfl
    · split
      next e => exact boot_of_pair (entropyBytes_boot s 32) e
      next e => exact boot_of_pair (entropyBytes_boot s 32) e

@[simp] theorem lcActs_boot (s : State) (op g : Nat) (resumed : Bool) : (lcActs s op g resumed).2.boot = s.boot := by
  unfold lcActs
  split
  · exact actsToTest_boot s
  · rfl

@[simp] theorem lcRun_boot (n : Nat) (l : List LcAct) (s : State) : (lcRun n l s).boot = s.boot := by
  induction n, l, s using lcRun.induct with
  | case1 n s => rw [lcRun]
  | case2 s l => rw [lcRun]; assumption
  | case3 n s test t hn ih => rw [lcRun, ih]; split <;> simp; assumption
  | case4 n s a bs t hn k hk ih => rw [lcRun, if_pos hk, ih, otpProg_boot]; assumption
  | case5 n s a bs t hn k hk => rw [lcRun, if_neg hk, otpProg_boot]; assumption

@[simp] theorem lcResume_boot (s : State) : (lcResume s).boot = s.boot := by
  unfold lcResume
  split
  · rfl
  · split
    · simp [apply_ite State.boot]
    · rfl

@[simp] theorem rootSlot_boot (s : State) (i : Fin 128) (mat : List Byte) : (rootSlot s i mat).boot = s.boot := rfl
@[simp] theorem fixedKey_boot (s : State) (k : Fin 128 × Fin 128 × String × Nat × Nat) : (fixedKey s k).boot = s.boot := by
  simp [fixedKey, childSlot, apply_ite State.boot]

@[simp] theorem startTrees_boot (s : State) (j : Fin 2) (parent : Option Nat) : (startTrees s j parent).boot = s.boot := by
  unfold startTrees
  dsimp only
  split
  next e =>
    have drawn := (draw_fixed (Fixed.refl s) e).boot
    split
    · exact drawn
    · exact drawn
  next e => exact (hashEnq_fixed (Fixed.mk' (draw_fixed (Fixed.refl s) e))).boot
@[simp] theorem lmsStart_boot (s : State) (j : Fin 2) (i : Fin 128) : (lmsStart s j i).boot = s.boot := by
  simp [lmsStart]

@[simp] theorem loadRoots_boot (s : State) : (loadRoots s).boot = s.boot := by
  unfold loadRoots
  split
  · rfl
  · simp only [apply_ite State.boot, foldl_boot fixedKey_boot, lmsStart_boot, rootSlot_boot, ite_self]
    split
    · split <;> rfl
    · rfl

@[simp] theorem rootLoad_boot (s : State) : (rootLoad s).boot = s.boot := by
  unfold rootLoad
  dsimp only
  split_ifs
  case neg =>
    split
    next e => rw [loadRoots_boot, boot_of_pair (entropyBytes_boot _ 32) e]
    next e => rw [loadRoots_boot, kvInt_boot, boot_of_pair (entropyBytes_boot _ 32) e]
  all_goals simp

/-! Step 3: the application of a package (R409-R418). -/

theorem romStoke_boot (s : State) : (romStoke s).boot = s.boot := by
  simp [romStoke, apply_ite State.boot]

@[simp] theorem ownErase_boot (s : State) (a n : Nat) : (ownErase s a n).boot = s.boot := by
  simp [ownErase, wdResume, wdSuspend, apply_ite State.boot]

@[simp] theorem recWrite_boot (s : State) (base : Nat) (cur : Option Nat) (r : List Byte) :
    (recWrite s base cur r).boot = s.boot := by
  unfold recWrite
  dsimp only
  split <;> simp

@[simp] theorem bootWrite_boot (s : State) (slot flags tries : Nat) : (bootWrite s slot flags tries).boot = s.boot := by
  unfold bootWrite
  split
  · rfl
  · exact recWrite_boot ..

@[simp] theorem jrnWrite_boot (s : State) (st slot arg : Nat) (head : List Byte) :
    (jrnWrite s st slot arg head).boot = s.boot := by
  unfold jrnWrite
  split
  · exact osProg_boot ..
  · rfl

theorem rebuild_boot (slot last len : Nat) (out : List Byte) (fin : DeltaEnd) (chunksOk : Bool) (head : List Byte)
    (n k : Nat) (s : State) : (rebuild slot last len out fin chunksOk head n k s).2.boot = s.boot := by
  induction n generalizing k s with
  | zero => rfl
  | succ n ih =>
    rw [rebuild]
    dsimp only
    split
    · rw [romStoke_boot, ownErase_boot]
    · rw [ih, jrnWrite_boot, romStoke_boot, osProg_boot, romStoke_boot, ownErase_boot]

@[simp] theorem applyPackage_boot (s : State) : (applyPackage s).boot = s.boot := by
  unfold applyPackage
  split
  · rfl
  · dsimp only
    split_ifs
    · rfl
    · exact jrnWrite_boot ..
    · exact jrnWrite_boot ..
    · split
      next e =>
        have rebuilt := boot_of_pair (rebuild_boot ..) e
        simp [apply_ite State.boot, rebuilt]
      next e => exact (jrnWrite_boot ..).trans (boot_of_pair (rebuild_boot ..) e)

/-! The kindling log (R400). -/

@[simp] theorem openPage_boot (s : State) (src : Nat) : (openPage s src).boot = s.boot := by
  unfold openPage
  dsimp only
  split <;> simp [eraseOldest, apply_ite State.boot]

@[simp] theorem logAppend_boot (s : State) (src : Nat) (r : List Byte) : (logAppend s src r).boot = s.boot := by
  unfold logAppend
  dsimp only
  split
  · rw [osProg_boot]
    split <;> simp [apply_ite State.boot]
  · split <;> simp [apply_ite State.boot]

@[simp] theorem kindlingLog_boot (s : State) : (kindlingLog s).boot = s.boot := by
  simp [kindlingLog]

end Sys2Proof.Machine
end

section
/-! The tinder ROM (R31): whether it runs, what its run does to its two flags, and where it stops on a BLANK device. -/

namespace Sys2Proof.Machine

/-- The two flags of the ROM: that it has run since the reset, and that kindling has been started. -/
def romFlags (s : State) : Bool × Bool := (s.boot.ran, s.boot.kindling)

theorem romFlags_of_boot {s t : State} (h : t.boot = s.boot) : romFlags t = romFlags s := by
  simp only [romFlags, h]

/-! Step 4: the choice of the image (R405) writes the slot and the recovery registers, never the flags. -/

theorem enterRecovery_flags (s : State) : romFlags (enterRecovery s) = romFlags s := rfl
theorem bootOr_flags (s : State) (k : Option Nat) : romFlags (bootOr s k) = romFlags s := by
  cases k with
  | none => exact enterRecovery_flags s
  | some k => rfl

theorem chooseImage_flags (s : State) : romFlags (chooseImage s) = romFlags s := by
  have write (slot flags tries : Nat) : romFlags (bootWrite s slot flags tries) = romFlags s :=
    romFlags_of_boot (bootWrite_boot s slot flags tries)
  have log (slot flags tries : Nat) : romFlags (kindlingLog (bootWrite s slot flags tries)) = romFlags s :=
    romFlags_of_boot ((kindlingLog_boot _).trans (bootWrite_boot s slot flags tries))
  unfold chooseImage
  split
  · split <;> exact bootOr_flags ..
  · dsimp only
    split_ifs
    · exact enterRecovery_flags s
    · exact (bootOr_flags ..).trans (write ..)
    · exact (bootOr_flags ..).trans (log ..)
    · exact (enterRecovery_flags _).trans (log ..)
    · exact bootOr_flags ..

/-! The steps together. -/

/-- After its one run, or before the release, the ROM does nothing. -/
theorem tinder_skips {s : State} (h : s.boot.ran = true ∨ s.pd.released = false) : tinder s = s := by
  rw [tinder, if_pos]
  simpa using h

/-- The state in which the ROM takes up its steps: the device reset is released, and its run is marked. -/
def tinderBegun (s : State) : State :=
  { s with pd := { s.pd with pllLock := true, inReset := false }, boot := { s.boot with ran := true } }

/-- The ROM at the end of step 2. -/
def rootsLoaded (s : State) : State := rootLoad (lcResume (deferred (tinderBegun s)))

/-- The steps of R31 in order: steps 3 and 4 only in a state that starts kindling. -/
theorem tinder_runs {s : State} (hrel : s.pd.released = true) (hran : s.boot.ran = false) :
    tinder s = if kindlingState (rootsLoaded s) then chooseImage (applyPackage (rootsLoaded s)) else rootsLoaded s := by
  rw [tinder, if_neg (by simp [hrel, hran])]
  rfl

theorem rootsLoaded_boot (s : State) : (rootsLoaded s).boot = { s.boot with ran := true } := by
  simp only [rootsLoaded, rootLoad_boot, lcResume_boot, deferred_boot, tinderBegun]

/-- The ROM marks that it has run and never starts kindling (R31). -/
theorem tinder_flags {s : State} (hrel : s.pd.released = true) (hran : s.boot.ran = false) :
    romFlags (tinder s) = (true, s.boot.kindling) := by
  have begun : romFlags (rootsLoaded s) = (true, s.boot.kindling) := by simp only [romFlags, rootsLoaded_boot]
  rw [tinder_runs hrel hran]
  split
  · rw [chooseImage_flags, romFlags_of_boot (applyPackage_boot _), begun]
  · exact begun

/-! Steps 1 and 2 of a BLANK device with nothing open. -/

theorem tpChainAll_of_chained {s : State} (h : s.tp.ao.unchained = 0) : tpChainAll s = s := by
  simp only [tpChainAll, h, List.range_zero, List.foldl_nil, modAo]
  rw [← h]

theorem deferred_of_none {s : State} (hpend : s.tp.ao.pend = 0) (hchain : s.tp.ao.unchained = 0)
    (hresp : s.tp.ao.deferResp = 0) : deferred s = s := by
  simp only [deferred, hpend, List.range_zero, List.foldl_nil, tpChainAll_of_chained hchain, hresp, if_true]

theorem lcResume_of_no_mark {s : State} (h : openMarks s = []) : lcResume s = s := by
  simp only [lcResume, h, ite_self]

theorem rootLoad_of_blank {s : State} (hload : s.kv.loaded = false) (hblank : lcState s = .blank) :
    rootLoad s = { s with kv := { s.kv with loaded := true, awkNew := false } } := by
  have stays : lcState { s with kv := { s.kv with loaded := true, awkNew := false } } = .blank := hblank
  simp [rootLoad, hload, stays]

/-- BLANK starts no kindling (Table 11.1). -/
theorem kindlingState_of_blank {s : State} (hblank : lcState s = .blank) (hmarks : openMarks s = []) :
    kindlingState s = false := by
  simp [kindlingState, lcStates, hmarks, hblank]

/-- Where a BLANK device with nothing open stops: the ROM's run and the vault's load are marked, no slot is chosen and no root
loaded (R297, R319). -/
def blankStopped (s : State) : State :=
  { tinderBegun s with kv := { s.kv with loaded := true, awkNew := false } }

theorem rootsLoaded_of_blank {s : State} (hblank : lcState s = .blank) (hmarks : openMarks s = []) (hpend : s.tp.ao.pend = 0)
    (hchain : s.tp.ao.unchained = 0) (hresp : s.tp.ao.deferResp = 0) (hload : s.kv.loaded = false) :
    rootsLoaded s = blankStopped s := by
  rw [rootsLoaded, deferred_of_none (s := tinderBegun s) hpend hchain hresp, lcResume_of_no_mark (s := tinderBegun s) hmarks,
    rootLoad_of_blank (s := tinderBegun s) hload hblank]
  rfl

theorem tinder_of_blank {s : State} (hrel : s.pd.released = true) (hran : s.boot.ran = false) (hblank : lcState s = .blank)
    (hmarks : openMarks s = []) (hpend : s.tp.ao.pend = 0) (hchain : s.tp.ao.unchained = 0) (hresp : s.tp.ao.deferResp = 0)
    (hload : s.kv.loaded = false) : tinder s = blankStopped s := by
  rw [tinder_runs hrel hran, rootsLoaded_of_blank hblank hmarks hpend hchain hresp hload,
    kindlingState_of_blank (s := blankStopped s) hblank hmarks]
  rfl

end Sys2Proof.Machine
end

section
/-! KINDLING_BOOT (R355, R405), the gating of an idle unit (R292), and the settling of O14. -/

namespace Sys2Proof.Machine

theorem getLsbD_setBit_self {n i : Nat} (w : BitVec n) (h : i < n) : (setBit w i).getLsbD i = true := by
  simp [setBit, h]

/-- TALLY0 takes the chosen image's digest and is locked, and kindling is marked as started (R355, R405). -/
def tallied (s : State) (k : Nat) : State :=
  let v := s.mb.tallies[(0 : Fin 64)]
  { s with
    mb := { s.mb with
      tallies := s.mb.tallies.set 0 (tallyStep v.1 ((imageDigest s k).getD 0), v.2 + 1), tallyLock := setBit s.mb.tallyLock 0 }
    boot := { s.boot with kindling := true, on := false } }

/-- The image of slot `k` at its LOAD address, where that lies in the hearth's RAM (R405). -/
def imageCopied (s : State) (k : Nat) : State :=
  match loadAt (be32 (slotHdr s k) 24) (be32 (slotHdr s k) 8) with
  | some a => ramWrite s none a (osRead s (osFw k) (be32 (slotHdr s k) 8))
  | none => s

theorem kindlingBoot_of_chosen {s : State} {k : Nat} (hboot : s.boot.boot = some k) (hkind : s.boot.kindling = false)
    (hrun : (s.he.cores[(0 : Core)]).st = .running) :
    kindlingBoot s = modCore (imageCopied (tallied s k) k) 0
      (fun c => { c with pc := BitVec.ofNat 32 (be32 (slotHdr s k) 28), fbuf := none }) := by
  unfold kindlingBoot
  split
  next h => cases hboot.symm.trans h
  next chosen h =>
    obtain rfl : chosen = k := Option.some.inj (h.symm.trans hboot)
    rw [if_neg (not_or.mpr ⟨by simp [hkind], fun h => h hrun⟩)]
    rfl

theorem kindlingBoot_of_none {s : State} (h : s.boot.boot = none) : kindlingBoot s = s := by
  simp only [kindlingBoot, h]

/-- A write to RAM takes at most reservations from a core (R235). -/
theorem ramWrite_core_st (s : State) (by_ : Option Core) (a : Nat) (bs : List Byte) (c : Core) :
    ((ramWrite s by_ a bs).he.cores[c]).st = (s.he.cores[c]).st := by
  simp only [ramWrite, Fin.getElem_fin, Vector.getElem_ofFn]
  split
  · split <;> rfl
  · rfl

theorem imageCopied_core_st (s : State) (k : Nat) (c : Core) :
    ((imageCopied s k).he.cores[c]).st = (s.he.cores[c]).st := by
  unfold imageCopied
  split
  · exact ramWrite_core_st ..
  · rfl

/-- Copying the image changes the hearth alone. -/
theorem imageCopied_frame (s : State) (k : Nat) : imageCopied s k = { s with he := (imageCopied s k).he } := by
  unfold imageCopied
  split <;> rfl

/-- With a slot chosen and core 0 running, kindling starts once: the extension and lock of TALLY0, core 0 at ENTRY, and nothing
outside the boot registers, the mailbox window and the hearth. -/
theorem kindlingBoot_effect {s : State} {k : Nat} (hboot : s.boot.boot = some k) (hkind : s.boot.kindling = false)
    (hrun : (s.he.cores[(0 : Core)]).st = .running) :
    let t := kindlingBoot s
    t.boot = { s.boot with kindling := true, on := false } ∧
      (t.mb.tallies[(0 : Fin 64)]).1 = tallyStep (s.mb.tallies[(0 : Fin 64)]).1 ((imageDigest s k).getD 0) ∧
      (t.mb.tallies[(0 : Fin 64)]).2 = (s.mb.tallies[(0 : Fin 64)]).2 + 1 ∧ t.mb.tallyLock.getLsbD 0 = true ∧
      (t.he.cores[(0 : Core)]).pc = BitVec.ofNat 32 (be32 (slotHdr s k) 28) ∧
      (t.he.cores[(0 : Core)]).st = (s.he.cores[(0 : Core)]).st ∧
      t = { s with boot := t.boot, mb := t.mb, he := t.he } := by
  rw [kindlingBoot_of_chosen hboot hkind hrun, imageCopied_frame]
  have slot0 : (tallied s k).mb.tallies[(0 : Fin 64)] =
      (tallyStep (s.mb.tallies[(0 : Fin 64)]).1 ((imageDigest s k).getD 0), (s.mb.tallies[(0 : Fin 64)]).2 + 1) :=
    Vector.getElem_set_self _
  refine ⟨rfl, ?_, ?_, getLsbD_setBit_self _ (by decide), ?_, ?_, rfl⟩
  · exact congrArg Prod.fst slot0
  · exact congrArg Prod.snd slot0
  · rw [modCore_cores_same]
  · rw [modCore_cores_same]
    exact imageCopied_core_st (tallied s k) k 0

/-! The gating of a hash unit (R292). -/

theorem gateUnit_hash_idle {s : State} {e : Fin 12} (h : s.ve.engines[e] = none) :
    gateUnit s (.hash e) = { s with pd := { s.pd with gatedHash := setBit s.pd.gatedHash e.val } } := by
  simp only [gateUnit, h, Option.isSome_none, Bool.false_eq_true, if_false]

theorem gateUnit_hash_busy {s : State} {e : Fin 12} {r : EngRun} (h : s.ve.engines[e] = some r) :
    gateUnit s (.hash e) = s := by
  simp only [gateUnit, h, Option.isSome_some, if_true]

/-! The commands. -/

theorem exec_kindlingBoot (s : State) : exec .kindlingBoot s = .next (onLive s kindlingBoot) := rfl
theorem exec_tinderStart (s : State) : exec .tinderStart s = .next (settleAll (tinder s)) := rfl
theorem exec_idleGate (d : IdleUnit) (s : State) : exec (.idleGate d) s = .next (onLive s (gateUnit · d)) := rfl

/-- What leaves a state as it is does so in reset and out of it. -/
theorem onLive_of_fixed {s : State} {f : State → State} (h : f s = s) : onLive s f = s := by
  simp only [onLive, h, ite_self]

/-- Settles O14, row by row: the ROM by its flags and its BLANK run, KINDLING_BOOT by its effect, the gate by the engine's job. -/
theorem bootRunsOnceAndExtendsTally0 : Obligations.BootRunsOnceAndExtendsTally0 := by
  refine ⟨fun s h => ?skips, fun s hrel hran => ?runs, fun s hrel hran hblank hmarks hpend hchain hresp hload => ?blank,
    fun k s hs hboot hkind hrun => ?chosen, fun s h => ?notChosen, fun e s hs h => ?idle, fun e r s h => ?busy⟩
  case skips => rw [exec_tinderStart, tinder_skips h]
  case runs =>
    have flags := tinder_flags hrel hran
    refine ⟨_, exec_tinderStart s, ?_, ?_⟩
    · rw [settleAll_boot]; exact congrArg Prod.fst flags
    · rw [settleAll_boot]; exact congrArg Prod.snd flags
  case blank =>
    rw [exec_tinderStart, tinder_of_blank hrel hran hblank hmarks hpend hchain hresp hload]
    rfl
  case chosen =>
    exact ⟨_, by rw [exec_kindlingBoot, onLive_of_not_inReset hs], kindlingBoot_effect hboot hkind hrun⟩
  case notChosen => rw [exec_kindlingBoot, onLive_of_fixed (kindlingBoot_of_none h)]
  case idle => rw [exec_idleGate, onLive_of_not_inReset hs, gateUnit_hash_idle h]
  case busy => rw [exec_idleGate, onLive_of_fixed (gateUnit_hash_busy h)]

end Sys2Proof.Machine
end

section
/-! Host transactions that carry no address: what such a row does at each verdict of its opcode's OPACT (R52, R54, R71, R77,
R92). -/

namespace Sys2Proof.Machine

/-- Out of reset, the outcome of a command is what it runs behind the gate. -/
theorem next_onLive {s u : State} {f : State → State} (hs : s.pd.inReset = false) (h : f s = u) :
    (.next (onLive s f) : Host.Outcome State Fault Refusal) = .next u := by
  rw [onLive_of_not_inReset hs, h]

/-! The operations a verdict uses. -/

@[simp] theorem modCh_ch_same (s : State) (c : Ch) (f : Chan → Chan) : (modCh s c f).ch[c] = f s.ch[c] :=
  Vector.getElem_set_self c.isLt

/-- A change of a channel that changes nothing there changes nothing. -/
theorem modCh_of_fixed {s : State} {c : Ch} {f : Chan → Chan} (h : f s.ch[c] = s.ch[c]) : modCh s c f = s := by
  have hset : s.ch.set c s.ch[c] = s.ch := Vector.set_getElem_self c.isLt
  simp only [modCh, h, hset]

/-- A change of a channel is told by its value on the channel as it stands. -/
theorem modCh_congr {s : State} {c : Ch} {f g : Chan → Chan} (h : f s.ch[c] = g s.ch[c]) : modCh s c f = modCh s c g := by
  simp only [modCh, h]

@[simp] theorem grVerdict_ch (s : State) (c : Ch) (v : Nat) : (grVerdict s c v).ch = s.ch := by
  unfold grVerdict foldVerdict
  split <;> rfl

/-! The port takes the transaction, and what its opcode's OPACT lets it do. -/

section Taken
variable {cls : Nat} {c : Ch} {t : HostTxn} {s : State}

/-- A port that takes a transaction runs its class from the fall of H_CS_N to the end. -/
theorem hostTxn_of_takes (h : HostTakes s c t cls) (f : State → Word → State) :
    hostTxn s c t cls f = settle (pumpBlocks (f (hostBegin s c) (hostOpc s c t))) c := by
  obtain ⟨-, hlocked, hconn, hcut, hcls⟩ := h
  simp only [hostTxn, portLive, hlocked, hconn, hcut, hostRun, hcls, Bool.and_self, Bool.not_true, Bool.false_eq_true,
    if_false, ne_eq, not_true_eq_false]
  rfl

/-- The end of a transaction that leaves no record. -/
theorem plainRecord_unlogged {e : Word} (h : opcLog e = false) (u : State) (units verdict : Nat) :
    plainRecord u c t e 0 units verdict = u := by
  simp [plainRecord, h]

theorem plainRecord_kind {kind : Nat} (hkind : kind ≠ 0) (u : State) (e : Word) (units verdict : Nat) :
    plainRecord u c t e kind units verdict = grRecord u c kind t.op 0xFF 0 units verdict :=
  if_neg hkind

/-! A row that carries out a command. -/

theorem cmdTxn_allow (h : HostTakes s c t cls) (ha : HostActs s c t 1) (f : Word → Chan → Chan) :
    cmdTxn s c t cls true f =
      settle (pumpBlocks (modCh (grVerdict (hostBegin s c) c 1) c (f (hostOpc s c t)))) c := by
  obtain ⟨hspeed, hact, hlog⟩ := ha
  simp [-Fin.getElem_fin, cmdTxn, hostTxn_of_takes h, hspeed, hact, plainRecord_unlogged hlog]

theorem cmdTxn_deny (h : HostTakes s c t cls) (ha : HostActs s c t 2) (f : Word → Chan → Chan) :
    cmdTxn s c t cls true f = settle (pumpBlocks (cntDeny (grVerdict (hostBegin s c) c 0) c)) c := by
  obtain ⟨hspeed, hact, hlog⟩ := ha
  simp [-Fin.getElem_fin, cmdTxn, hostTxn_of_takes h, hspeed, hact, plainRecord_unlogged hlog]

theorem cmdTxn_escalate (h : HostTakes s c t cls) (ha : HostActs s c t 3) (f : Word → Chan → Chan) :
    cmdTxn s c t cls true f = settle (pumpBlocks
      (grRecord (escalate (grVerdict (hostBegin s c) c 4) c none true) c 0x02 t.op 0xFF 0 t.units 4)) c := by
  obtain ⟨hspeed, hact, -⟩ := ha
  simp [-Fin.getElem_fin, cmdTxn, hostTxn_of_takes h, hspeed, hact, plainRecord_kind]

theorem cmdTxn_incomplete (h : HostTakes s c t cls) (ha : HostActs s c t 1) (f : Word → Chan → Chan) :
    cmdTxn s c t cls false f = settle (pumpBlocks
      (grRecord (evCount (grVerdict (hostBegin s c) c 1) c 1) c 0x11 t.op 0xFF 0 t.units 1)) c := by
  obtain ⟨hspeed, hact, -⟩ := ha
  simp [-Fin.getElem_fin, cmdTxn, hostTxn_of_takes h, hspeed, hact, plainRecord_kind]

theorem cmdTxn_overspeed (h : HostTakes s c t cls)
    (hfast : overspeed (hostBegin s c).ch[c] (hostOpc s c t) t = true) (done : Bool) (f : Word → Chan → Chan) :
    cmdTxn s c t cls done f = settle (pumpBlocks (overDrop (hostBegin s c) c t 0xFF 0)) c := by
  simp only [cmdTxn, hostTxn_of_takes h, hfast, if_true]

/-! A row that returns data. -/

theorem dataTxn_allow (h : HostTakes s c t cls) (ha : HostActs s c t 1) (serve : State → Word → Nat → State × List Byte) :
    dataTxn s c t cls serve =
      let r := serve (grVerdict (hostBegin s c) c 1) (hostOpc s c t) (txnBytes (hostBegin s c).ch[c] t)
      settle (pumpBlocks (hostServe r.1 c r.2)) c := by
  obtain ⟨hspeed, hact, hlog⟩ := ha
  simp [-Fin.getElem_fin, dataTxn, hostTxn_of_takes h, hspeed, hact, plainRecord_unlogged hlog]

theorem dataTxn_deny (h : HostTakes s c t cls) (ha : HostActs s c t 2) (serve : State → Word → Nat → State × List Byte) :
    dataTxn s c t cls serve = settle (pumpBlocks (hostServe (cntDeny (grVerdict (hostBegin s c) c 0) c) c
      (denyData (hostBegin s c).ch[c] (txnBytes (hostBegin s c).ch[c] t)))) c := by
  obtain ⟨hspeed, hact, hlog⟩ := ha
  simp [-Fin.getElem_fin, dataTxn, hostTxn_of_takes h, hspeed, hact, hlog, plainRecord_unlogged hlog]

theorem dataTxn_escalate (h : HostTakes s c t cls) (ha : HostActs s c t 3)
    (serve : State → Word → Nat → State × List Byte) :
    dataTxn s c t cls serve = settle (pumpBlocks
      (grRecord (hostServe (escalate (cntDeny (grVerdict (hostBegin s c) c 4) c) c none true) c
        (denyData (hostBegin s c).ch[c] (txnBytes (hostBegin s c).ch[c] t))) c 0x02 t.op 0xFF 0 t.units 4)) c := by
  obtain ⟨hspeed, hact, -⟩ := ha
  simp [-Fin.getElem_fin, dataTxn, hostTxn_of_takes h, hspeed, hact, plainRecord_kind]

theorem dataTxn_overspeed (h : HostTakes s c t cls)
    (hfast : overspeed (hostBegin s c).ch[c] (hostOpc s c t) t = true) (serve : State → Word → Nat → State × List Byte) :
    dataTxn s c t cls serve = settle (pumpBlocks (overDrop (hostBegin s c) c t 0xFF 0)) c := by
  simp only [dataTxn, hostTxn_of_takes h, hfast, if_true]

end Taken

/-! The rows by their class. -/

/-- Out of reset, every row of a command class is `cmdTxn` with its own completion and effect. -/
theorem exec_commandRow {cls : Nat} (hcls : cls ∈ commandClasses) (c : Ch) (t : HostTxn) {s : State}
    (hs : s.pd.inReset = false) :
    ∃ f, exec (hostRow cls c t) s = .next (cmdTxn s c t cls (hostDone cls t) f) := by
  simp only [commandClasses, List.mem_cons, List.not_mem_nil, or_false] at hcls
  rcases hcls with rfl | rfl | rfl | rfl | rfl | rfl | rfl | rfl | rfl | rfl
  all_goals exact ⟨_, next_onLive hs rfl⟩

/-- Out of reset, every row of a data class is `dataTxn` with what it serves. -/
theorem exec_dataRow {cls : Nat} (hcls : cls ∈ dataClasses) (c : Ch) (t : HostTxn) {s : State}
    (hs : s.pd.inReset = false) :
    ∃ serve, exec (hostRow cls c t) s = .next (dataTxn s c t cls serve) := by
  simp only [dataClasses, List.mem_cons, List.not_mem_nil, or_false] at hcls
  rcases hcls with rfl | rfl | rfl | rfl
  all_goals exact ⟨_, next_onLive hs rfl⟩

/-! The rows under ALLOW. -/

/-- A complete command that its opcode allows: the row's effect on its channel, after the verdict. -/
theorem exec_command_allowed {cls : Nat} {c : Ch} {t : HostTxn} {s : State} {i : Instr} {done : Bool}
    (f : State → Word → Chan → Chan) (hrow : exec i s = .next (onLive s fun s => cmdTxn s c t cls done (f s)))
    (ha : HostActs s c t 1) (hdone : done = true) (h : HostTakes s c t cls) :
    exec i s = hostEnd c (modCh (grVerdict (hostBegin s c) c 1) c (f s (hostOpc s c t))) := by
  rw [hrow, onLive_of_not_inReset h.1, hdone, cmdTxn_allow h ha, hostEnd]

/-- A data row that its opcode allows returns what it serves, after the verdict. -/
theorem exec_data_allowed {cls : Nat} {c : Ch} {t : HostTxn} {s : State} {i : Instr}
    {serve : State → Word → Nat → State × List Byte} {u : State} {bs : List Byte}
    (hrow : exec i s = .next (onLive s fun s => dataTxn s c t cls serve)) (ha : HostActs s c t 1)
    (hserve : serve (grVerdict (hostBegin s c) c 1) (hostOpc s c t) (txnBytes (hostBegin s c).ch[c] t) = (u, bs))
    (h : HostTakes s c t cls) :
    exec i s = hostEnd c (hostServe u c bs) := by
  rw [hrow, onLive_of_not_inReset h.1, dataTxn_allow h ha, hserve, hostEnd]

end Sys2Proof.Machine
end

section
/-! The command rows: the bits and modes they change (R38, R39, R56, R58), WRREG (R502), and the settling of O16 and O17. -/

namespace Sys2Proof.Machine

/-! The modes that wait for the fall of H_CS_N (R38, R39). -/

theorem hostFall_of_none {k : Chan} (h : k.next = none) : hostFall k = { k with txnAlt := k.altOn } := by
  simp only [hostFall, h]

theorem hostFall_of_addr4 {k : Chan} {on : Bool} (h : k.next = some (.addr4 on)) :
    hostFall k = { k with addr4 := on, next := none, txnAlt := k.altOn } := by
  simp only [hostFall, h, modeStep]

theorem hostFall_of_proto {k : Chan} (h : k.next = some .proto) :
    hostFall k = { k with
      altOn := !k.altOn && k.cfg.alt.isSome, next := none, txnAlt := !k.altOn && k.cfg.alt.isSome } := by
  simp only [hostFall, h, modeStep]

theorem hostFall_of_reset {k : Chan} (h : k.next = some .reset) : hostFall k = { portReset k with txnAlt := false } := by
  simp only [hostFall, h, modeStep, portReset]

/-- Settles O16, row by row: a bare command's effect is the change of its channel that the row names, and a mode waits for the
fall of H_CS_N. -/
theorem hostCommandsChangeTheirOwnBits : Obligations.HostCommandsChangeTheirOwnBits := by
  intro c t s hs ha hwhole hunits
  have hdone : bareDone t = true := by simp [bareDone, hwhole, hunits]
  have reset (h : HostTakes s c t 15) := exec_command_allowed (i := .reset c t)
    (fun s _ k => if s.ch[c].rstArmed then { k with next := some .reset } else k) rfl ha hdone h
  refine ⟨exec_command_allowed (fun _ _ k => { k with wel := true }) rfl ha hdone,
    exec_command_allowed (fun _ _ k => { k with wel := false }) rfl ha hdone,
    exec_command_allowed (fun _ _ k => { k with next := some (.addr4 true) }) rfl ha hdone,
    exec_command_allowed (fun _ _ k => { k with next := some (.addr4 false) }) rfl ha hdone,
    exec_command_allowed (fun _ _ k => { k with next := some .proto }) rfl ha hdone,
    exec_command_allowed (fun _ _ k => { k with rstArmed := true }) rfl ha hdone,
    fun h harmed => ?armed, fun h harmed => ?unarmed,
    exec_command_allowed (fun _ _ k => { k with susp := k.susp || k.wip }) rfl ha hdone,
    exec_command_allowed (fun _ _ k => { k with susp := false }) rfl ha hdone,
    fun k => ⟨hostFall_of_none, fun on => hostFall_of_addr4, hostFall_of_proto, fun hk => ?fall⟩⟩
  case armed => simpa only [harmed, if_true] using reset h
  case unarmed =>
    refine (reset h).trans (congrArg (hostEnd c) (modCh_of_fixed ?_))
    simp only [harmed, Bool.false_eq_true, if_false]
  case fall =>
    rw [hostFall_of_reset hk]
    exact ⟨rfl, rfl, rfl, rfl, rfl, rfl, rfl⟩

/-! WRREG (R502). -/

theorem wrregEffect_of_closed {t : HostTxn} {e : Word} {k : Chan} (h : k.wel = false ∨ k.wip = true) :
    wrregEffect t e k = k := by
  rcases h with h | h <;> simp [wrregEffect, h]

theorem wrregEffect_reset {t : HostTxn} {e : Word} {k : Chan} (hwel : k.wel = true) (hwip : k.wip = false)
    (halt : k.altOn = false) :
    wrregEffect t e k =
      { k with img := imgWrite k.cfg.rst.regWr (opcReg e) (t.data.take (txnBytes k t)) k.img, wel := false } := by
  simp [wrregEffect, profOf, hwel, hwip, halt]

theorem wrregEffect_alternate {t : HostTxn} {e : Word} {k : Chan} (hwel : k.wel = true) (hwip : k.wip = false)
    (halt : k.altOn = true) :
    wrregEffect t e k = { k with
      imgAlt := imgWrite (k.cfg.alt.getD k.cfg.rst).regWr (opcReg e) (t.data.take (txnBytes k t)) k.imgAlt, wel := false } := by
  simp [wrregEffect, profOf, hwel, hwip, halt]

theorem imgWrite_getElem (mask img : Vector Byte 8) (reg : Nat) (d : List Byte) (i : Fin 8) :
    (imgWrite mask reg d img)[i] =
      if reg ≤ i.val ∧ i.val < reg + d.length then (img[i] &&& ~~~mask[i]) ||| (byteAt d (i.val - reg) &&& mask[i])
      else img[i] := by
  have hrange : (reg ≤ i.val ∧ i.val - reg < d.length) ↔ (reg ≤ i.val ∧ i.val < reg + d.length) := by omega
  simp only [imgWrite, Fin.getElem_fin, Vector.getElem_ofFn, hrange]

/-- Settles O17: the row's effect on its channel is `wrregEffect`, case by case, and the image's bytes are `imgWrite_getElem`. -/
theorem wrregWritesTheWritableBits : Obligations.WrregWritesTheWritableBits := by
  refine ⟨fun c t s h ha hwhole hunits => ?_, imgWrite_getElem⟩
  have row := exec_command_allowed (fun _ => wrregEffect t) (i := .wrreg c t) rfl ha (by simp [hwhole, hunits]) h
  refine ⟨fun hclosed => ?closed, fun hwel hwip halt => ?reset, fun hwel hwip halt => ?alternate⟩
  case closed => exact row.trans (congrArg (hostEnd c) (modCh_of_fixed (wrregEffect_of_closed hclosed)))
  case reset => exact row.trans (congrArg (hostEnd c) (modCh_congr (wrregEffect_reset hwel hwip halt)))
  case alternate => exact row.trans (congrArg (hostEnd c) (modCh_congr (wrregEffect_alternate hwel hwip halt)))

end Sys2Proof.Machine
end

section
/-! The data rows (R40, R55, R56, R58, R503), and the settling of O18. -/

namespace Sys2Proof.Machine

/-- An RDSR during which no status read ends carries the one status byte on every unit. -/
theorem rdsrUnits_of_no_polls {t : HostTxn} (h : t.polls = []) (c : Ch) (n i : Nat) (s : State) :
    rdsrUnits c t n i s = (s, List.replicate (n * unitLen s.ch[c]) (statusByte s.ch[c])) := by
  induction n generalizing i with
  | zero => simp [rdsrUnits]
  | succ n ih =>
    simp only [rdsrUnits, h, List.filter_nil, List.foldl_nil, ih, fillBytes, List.replicate_append_replicate]
    rw [Nat.succ_mul, Nat.add_comm]

/-- A string padded or cut to `n` bytes, byte by byte. -/
theorem padTo_eq_map_getD (n : Nat) (b : Byte) (l : List Byte) :
    padTo n b l = (List.range n).map (fun i => l.getD i b) := by
  refine List.ext_getElem (by simp [padTo]; omega) fun i hi hi' => ?_
  by_cases h : i < l.length
  · simp [padTo, List.getElem_append_left, h]
  · simp [padTo, List.getElem_append_right (Nat.le_of_not_lt h), h]

/-- Two flags as the low bits of a number. -/
theorem flagPair_bits (x y : Bool) :
    b2n x + 2 * b2n y < 2 ^ 2 ∧ (b2n x + 2 * b2n y).testBit 0 = x ∧ (b2n x + 2 * b2n y).testBit 1 = y := by
  revert x y
  decide

/-- The status byte is WIP unless SUSP hides it, WEL, and the image's bits from 2 on (R56, R58). -/
theorem statusByte_bits (k : Chan) :
    (statusByte k).getLsbD 0 = (k.wip && !k.susp) ∧ (statusByte k).getLsbD 1 = k.wel ∧
      ∀ i : Nat, 2 ≤ i → i < 8 → (statusByte k).getLsbD i = ((if k.altOn then k.imgAlt else k.img)[0]).getLsbD i := by
  simp only [statusByte, BitVec.getLsbD_ofNat]
  generalize (if k.altOn then k.imgAlt else k.img)[0] = b
  obtain ⟨hlow, hwip, hwel⟩ := flagPair_bits (k.wip && !k.susp) k.wel
  rw [Nat.add_comm, Nat.mul_comm]
  simp only [show (4 : Nat) = 2 ^ 2 from rfl, Nat.testBit_two_pow_mul_add _ hlow]
  refine ⟨hwip, hwel, fun i hlo hhi => ?_⟩
  rw [if_neg (Nat.not_lt.mpr hlo), Nat.testBit_div_two_pow, Nat.sub_add_cancel hlo]
  simp [hhi, BitVec.testBit_toNat]

/-- Settles O18: each data row serves its own bytes after the ALLOW verdict, which leaves the channel as it is. -/
theorem hostDataRowsServeTheirRegisters : Obligations.HostDataRowsServeTheirRegisters := by
  refine ⟨fun c t s hs ha => ?_, statusByte_bits⟩
  refine ⟨fun h hpolls => exec_data_allowed (i := .rdsr c t) rfl ha ?status h,
    fun h => exec_data_allowed (i := .rdreg c t) rfl ha ?register h,
    fun h => exec_data_allowed (i := .sfdp c t) rfl ha ?space h,
    fun h => exec_data_allowed (i := .readId c t) rfl ha ?ident h⟩
  case status => simp only [rdsrUnits_of_no_polls hpolls, grVerdict_ch]
  case register => simp only [imgByte, grVerdict_ch]; rfl
  case space => simp only [grVerdict_ch]; rfl
  case ident => simp only [padTo_eq_map_getD, grVerdict_ch]; rfl

end Sys2Proof.Machine
end

section
/-! Denied, incomplete, overspeed, unknown and truncated transactions (R53, R54, R77, R92), and the settling of O19. -/

namespace Sys2Proof.Machine

/-! Unknown and truncated transactions (R53, R54, R92). -/

@[simp] theorem evCount_unkEsc (s : State) (c : Ch) (n : Nat) : unkEsc (evCount s c n).ch[c] = unkEsc s.ch[c] := by
  rw [evCount, modCh_ch_same]
  split <;> rfl

theorem evCount_trunc_ch (s : State) (c : Ch) :
    (evCount s c 0).ch[c] = { s.ch[c] with evTrunc := satInc s.ch[c].evTrunc } := modCh_ch_same ..
theorem evCount_ovspd_ch (s : State) (c : Ch) :
    (evCount s c 3).ch[c] = { s.ch[c] with evOvspd := satInc s.ch[c].evOvspd } := modCh_ch_same ..

/-- A grate record leaves the channel's sequence number behind, and nothing else there. -/
theorem grRecord_ch_same (s : State) (c : Ch) (kind : Nat) (op : Byte) (desc addr units verdict : Nat) :
    ∃ n, (grRecord s c kind op desc addr units verdict).ch[c] = { s.ch[c] with grSeq := n } := by
  unfold grRecord
  dsimp only
  split
  · exact ⟨_, modCh_ch_same ..⟩
  · exact ⟨_, rfl⟩

@[simp] theorem grRecord_ve (s : State) (c : Ch) (kind : Nat) (op : Byte) (desc addr units verdict : Nat) :
    (grRecord s c kind op desc addr units verdict).ve = s.ve := by
  unfold grRecord
  dsimp only
  split <;> rfl

/-! A cut changes the port and the tracker alone. -/

theorem setUnitSt_frame (s : State) (id : Nat) (x : BilletSt) :
    setUnitSt s id x = { s with bt := (setUnitSt s id x).bt } := by
  unfold setUnitSt
  split <;> rfl

theorem setResume_frame (s : State) (id n : Nat) : setResume s id n = { s with bt := (setResume s id n).bt } := by
  unfold setResume
  split <;> rfl

theorem noteResume_frame (s : State) (p : Ch) (a : Access) : noteResume s p a = { s with bt := (noteResume s p a).bt } := by
  unfold noteResume
  split
  · exact setResume_frame ..
  · rfl

theorem cutPort_frame (s : State) (p : Ch) (byHost : Bool) :
    cutPort s p byHost = { s with port := (cutPort s p byHost).port, bt := (cutPort s p byHost).bt } := by
  have noted (a : Access) : ∃ b, (if a.kind = .read then noteResume s p a else s) = { s with bt := b } := by
    split
    · exact ⟨_, noteResume_frame s p a⟩
    · exact ⟨_, rfl⟩
  unfold cutPort
  split
  · rfl
  · next a _ =>
    dsimp only
    obtain ⟨b, hb⟩ := noted a
    rw [hb]
    split
    · rfl
    · split
      · rfl
      · rw [modPort, setUnitSt_frame]

@[simp] theorem cutPort_ch (s : State) (p : Ch) (byHost : Bool) : (cutPort s p byHost).ch = s.ch := by
  rw [cutPort_frame]
@[simp] theorem cutPort_ve (s : State) (p : Ch) (byHost : Bool) : (cutPort s p byHost).ve = s.ve := by
  rw [cutPort_frame]

/-- The fall of H_CS_N of a transaction that is then truncated. -/
def truncBegun (s : State) (c : Ch) : State :=
  let b := modCh (uncut s c) c (fun k => { hostFall k with hostOut := [], hostDriven := false, rstArmed := false })
  if hasMirror b.ch[c] then cutPort b c true else b

theorem truncBegun_ch (s : State) (c : Ch) :
    (truncBegun s c).ch[c] = { hostFall s.ch[c] with hostOut := [], hostDriven := false, rstArmed := false } := by
  simp only [truncBegun, apply_ite State.ch, cutPort_ch, ite_self, modCh_ch_same, uncut]

theorem truncBegun_ve (s : State) (c : Ch) : (truncBegun s c).ve = s.ve := by
  simp only [truncBegun, apply_ite State.ve, cutPort_ve, ite_self]
  rfl

/-- A truncated transaction counted, as overspeed too where `fast`, and recorded. -/
def truncRecorded (s : State) (c : Ch) (fast : Bool) (op : Byte) (desc addr verdict : Nat) : State :=
  grRecord (useFree (evCount (if fast then evCount (truncBegun s c) c 3 else truncBegun s c) c 0) 7) c 0x10 op desc addr 0
    verdict

/-- The channel and the verification engines behind a truncated transaction's record. -/
theorem truncRecorded_effect (s : State) (c : Ch) (fast : Bool) (op : Byte) (desc addr verdict : Nat) :
    let u := truncRecorded s c fast op desc addr verdict
    u.ch[c].evTrunc = satInc (hostFall s.ch[c]).evTrunc ∧ u.ch[c].hostDriven = false ∧ u.ch[c].hostOut = [] ∧
      u.ch[c].wel = (hostFall s.ch[c]).wel ∧ u.ch[c].img = (hostFall s.ch[c]).img ∧ u.ve = s.ve := by
  intro u
  obtain ⟨n, hch⟩ : ∃ n, u.ch[c] = _ := grRecord_ch_same ..
  have hve : u.ve = s.ve := by
    cases fast <;> exact (grRecord_ve ..).trans (truncBegun_ve s c)
  rw [hch, useFree_ch, evCount_trunc_ch]
  cases fast
  · simp only [Bool.false_eq_true, if_false, truncBegun_ch, hve, and_self]
  · simp only [if_true, evCount_ovspd_ch, truncBegun_ch, hve, and_self]

/-- A port that serves its host counts and records a truncated transaction, and settles. -/
theorem hostTrunc_eq {s : State} {c : Ch} (hlocked : s.ec.locked = true) (hconn : connected s.ch[c] = true)
    (d : TruncAt) (t : HostTxn) :
    ∃ (fast : Bool) (op : Byte) (desc addr verdict : Nat),
      hostTrunc s c d t = settle (truncRecorded s c fast op desc addr verdict) c := by
  simp only [hostTrunc, portLive, hlocked, hconn, Bool.and_self, Bool.not_true, Bool.false_eq_true, if_false]
  exact ⟨_, _, _, _, _, rfl⟩

/-- The state in which an unknown opcode is answered: counted, as overspeed too where `fast`. -/
def unknownCounted (b : State) (c : Ch) (fast : Bool) : State := evCount (if fast then evCount b c 3 else b) c 2

theorem unknownCounted_unkEsc (b : State) (c : Ch) (fast : Bool) : unkEsc (unknownCounted b c fast).ch[c] = unkEsc b.ch[c] := by
  cases fast <;> simp only [unknownCounted, evCount_unkEsc, Bool.false_eq_true, if_false, if_true]

theorem unknownCounted_clk (b : State) (c : Ch) (fast : Bool) : (unknownCounted b c fast).clk = b.clk := by
  cases fast <;> rfl

/-- UNKNOWN escalates under UNK_ESC unless it is overspeed, and is otherwise recorded with a free VERDICT. -/
theorem exec_unknown {c : Ch} {t : HostTxn} {s : State} (h : HostTakes s c t 0) :
    let b := hostBegin s c
    let fast := tooFast b.ch[c] (opcEdges b.ch[c]) t
    let v := unknownCounted b c fast
    exec (.unknown c t) s = hostEnd c (if unkEsc b.ch[c] && !fast
      then grRecord (escalate (grVerdict v c 4) c none true) c 0x02 t.op 0xFF 0 t.units 4
      else grRecord (useFree v 1) c 0x12 t.op 0xFF 0 t.units (Config.freeByte b.clk.free).toNat) := by
  intro b fast v
  rw [← unknownCounted_unkEsc b c fast, ← unknownCounted_clk b c fast]
  exact next_onLive h.1 (hostTxn_of_takes h _)

/-- Settles O19: the data and command rows by what their class does at each verdict, UNKNOWN and the truncated transaction by
their own rules. -/
theorem deniedAndAbnormalHostRows : Obligations.DeniedAndAbnormalHostRows := by
  refine ⟨fun cls c t s hcls h ha => ?dataDenied, fun cls c t s hcls h ha hdone => ?commandDenied,
    fun cls c t s hcls h ha hdone => ?incomplete, fun cls c t s hcls h hfast => ?overspeed,
    fun cls c t s hcls h ha hdone => ?commandEscalates, fun cls c t s hcls h ha => ?dataEscalates,
    fun c t s h => ?unknown, fun c d t s hs hlocked hconn => ?truncated⟩
  case dataDenied =>
    obtain ⟨serve, hrow⟩ := exec_dataRow hcls c t h.1
    rw [hrow, dataTxn_deny h ha]
    rfl
  case commandDenied =>
    obtain ⟨f, hrow⟩ := exec_commandRow hcls c t h.1
    rw [hrow, hdone, cmdTxn_deny h ha]
    rfl
  case incomplete =>
    obtain ⟨f, hrow⟩ := exec_commandRow hcls c t h.1
    rw [hrow, hdone, cmdTxn_incomplete h ha]
    rfl
  case overspeed =>
    obtain hcls | hcls := hcls
    · obtain ⟨serve, hrow⟩ := exec_dataRow hcls c t h.1
      rw [hrow, dataTxn_overspeed h hfast]
      rfl
    · obtain ⟨f, hrow⟩ := exec_commandRow hcls c t h.1
      rw [hrow, cmdTxn_overspeed h hfast]
      rfl
  case commandEscalates =>
    obtain ⟨f, hrow⟩ := exec_commandRow hcls c t h.1
    rw [hrow, hdone, cmdTxn_escalate h ha]
    rfl
  case dataEscalates =>
    obtain ⟨serve, hrow⟩ := exec_dataRow hcls c t h.1
    rw [hrow, dataTxn_escalate h ha]
    rfl
  case unknown =>
    refine ⟨fun hquiet => (exec_unknown h).trans (congrArg (hostEnd c) (if_neg ?_)),
      fun hesc hslow => (exec_unknown h).trans (congrArg (hostEnd c) (if_pos ?_))⟩
    · rcases hquiet with hno | hfast
      · simp only [hno, Bool.false_and, Bool.false_eq_true, not_false_eq_true]
      · simp only [hfast, Bool.not_true, Bool.and_false, Bool.false_eq_true, not_false_eq_true]
    · rw [hesc, hslow]
      rfl
  case truncated =>
    obtain ⟨fast, op, desc, addr, verdict, htrunc⟩ := hostTrunc_eq hlocked hconn d t
    refine ⟨_, next_onLive hs htrunc, ?_⟩
    exact truncRecorded_effect s c fast op desc addr verdict

end Sys2Proof.Machine
end

section
/-! The accesses of the flash-side ports from their grant to their end (R60, R83, R91, R140, R217), and the settling of O22. -/

namespace Sys2Proof.Machine

/-! What an access changes. -/

theorem modPort_port_same (s : State) (p : Ch) (f : Port → Port) : (modPort s p f).port[p] = f s.port[p] :=
  Vector.getElem_set_self p.isLt

theorem modPort_port_ne (s : State) {p q : Ch} (f : Port → Port) (h : q ≠ p) : (modPort s p f).port[q] = s.port[q] :=
  Vector.getElem_set_ne p.isLt q.isLt (fun e => h (Fin.ext e.symm))

@[simp] theorem setUnitSt_ch (s : State) (id : Nat) (x : BilletSt) : (setUnitSt s id x).ch = s.ch := by
  rw [setUnitSt_frame]

@[simp] theorem setResume_ch (s : State) (id n : Nat) : (setResume s id n).ch = s.ch := by
  rw [setResume_frame]

@[simp] theorem portFree_ch (s : State) (p : Ch) : (portFree s p).ch = s.ch := by
  unfold portFree
  split
  · simp only [portStart, modPort_ch, setUnitSt_ch]
  · rfl

/-! Grants (R217). -/

/-- An access in progress, and raw ownership, keep every grant away. -/
theorem portGrant_of_taken {s : State} {p : Ch} (h : (s.port[p].cur).isSome = true ∨ s.ch[p].raw.own = true)
    (seen : Option PortSample) : portGrant s p seen = s :=
  if_pos h

/-- The burning unit's port is served by its own grant. -/
theorem portServe_of_burning {s : State} (h : isBanked s = false) (p : Ch) (seen : Option PortSample) :
    portServe s p seen = portGrant s p seen := by
  cases seen <;> simp [portServe, h]

theorem portServe_of_taken {s : State} {p : Ch}
    (h : (s.port[p].cur).isSome = true ∨ (s.ch[p].raw.own = true ∧ isBanked s = false)) (seen : Option PortSample) :
    portServe s p seen = s := by
  rcases h with hcur | ⟨hown, hburning⟩
  · have hgrant := portGrant_of_taken (.inl hcur) seen
    have hbusy : (s.port[p].cur).isNone = false := by rw [← Option.not_isSome, hcur]; rfl
    cases seen <;> simp [-Fin.getElem_fin, portServe, hgrant, hbusy]
  · rw [portServe_of_burning hburning, portGrant_of_taken (.inr hown)]

/-- Two changes of a port are one. -/
theorem modPort_modPort (s : State) (p : Ch) (f g : Port → Port) :
    modPort (modPort s p f) p g = modPort s p (fun x => g (f x)) := by
  have hset : (s.port.set p (f s.port[p])).set p (g (f s.port[p])) = s.port.set p (g (f s.port[p])) := Vector.set_set ..
  simp only [modPort, Fin.getElem_fin, Vector.getElem_set_self] at hset ⊢
  rw [hset]

/-- An access begins behind a change of its port: the tracker has its unit running, and the port has it in progress. -/
theorem portStart_modPort (s : State) (p : Ch) (f : Port → Port) (i : QItem) (k : AccKind) (head aged : Bool) :
    ∃ b sent, portStart (modPort s p f) p i k head aged = modPort { s with bt := b } p (fun x => { f x with
      cur := some { item := i, kind := k, head := head, aged := aged, startAt := s.clk.now, div := s.ch[p].div }
      sent := sent }) := by
  unfold portStart
  rw [setUnitSt_frame]
  exact ⟨_, _, modPort_modPort { s with bt := (setUnitSt (modPort s p f) i.id .running).bt } p f _⟩

/-- The first head demand starts, whatever its wait leaves in the longest waits. -/
theorem portNext_of_head {s : State} {p : Ch} {i : QItem} {rest : List QItem} (h : s.port[p].heads = i :: rest) :
    ∃ b sent, portNext s p = modPort { s with bt := b } p (fun x => { x with
      heads := rest
      cur := some { item := i, kind := .read, head := true, aged := false, startAt := s.clk.now, div := s.ch[p].div }
      sent := sent }) := by
  have started : ∃ b, portNext s p =
      portStart (modPort { s with bt := b } p (fun x => { x with heads := rest })) p i .read true false := by
    simp only [portNext, h]
    split
    · exact ⟨_, rfl⟩
    · exact ⟨_, rfl⟩
  obtain ⟨b, hb⟩ := started
  obtain ⟨b', sent, hstart⟩ :=
    portStart_modPort { s with bt := b } p (fun x => { x with heads := rest }) i .read true false
  exact ⟨b', sent, hb.trans hstart⟩

/-! Ends of accesses (R56, R91, R140). -/

/-- A write that has its billet, or none at all, draws nothing. -/
theorem writeDraw_of_drawn {s : State} {c : Ch} (h : ∀ w, s.ch[c].wr = some w → w.billet.isSome = true) :
    writeDraw s c = s := by
  unfold writeDraw
  split
  · rfl
  · next w hw =>
    have hdrawn := h w hw
    split
    · next hnone => simp only [hnone, Option.isSome_none, Bool.false_eq_true] at hdrawn
    · rfl

/-- With every committed write drawn, WRITE_EXECUTE is the end of the write access in progress. -/
theorem writeExecute_of_drawn {s : State} {p c : Ch} {a : Access} {u : Billet} {w : PendWrite}
    (hcur : s.port[p].cur = some a) (hkind : a.kind = .write) (hunit : unitOf s a.item.id = some u)
    (hwork : u.work = .write c) (hwr : s.ch[c].wr = some w) (hcs : w.cs = false)
    (hdrawn : ∀ (c' : Ch) (w' : PendWrite), s.ch[c'].wr = some w' → w'.billet.isSome = true) :
    writeExecute s p = modPort (modCh s c (fun k => { k with wr := some { w with st := .polling s.clk.now } })) p
      (fun x => { x with cur := none, status := x.status ++ [a.item.id], busy0 := some a.item.id }) := by
  have hfold : ∀ l : List Ch, l.foldl writeDraw s = s := List.foldl_fixed' fun c' => writeDraw_of_drawn (hdrawn c')
  simp only [writeExecute, hfold, hcur, hkind, hunit, hwork, hwr, hcs, ne_eq, not_true_eq_false, Bool.false_eq_true, if_false]

/-- A status read that shows the flash busy is asked again. -/
theorem statusPoll_of_busy {s : State} {p c : Ch} {st : Byte} {a : Access} {u : Billet} {w : PendWrite}
    (hcur : s.port[p].cur = some a) (hkind : a.kind = .status) (hunit : unitOf s a.item.id = some u)
    (hwork : u.work = .write c) (hwr : s.ch[c].wr = some w) (hcs : w.cs = false)
    (hbusy : st &&& (flashOf (portFree s p) p false).wipMask ≠ 0) :
    statusPoll s p st = modPort
      (modCh (portFree s p) c (fun k => { k with wr := some { w with st := .polling (portFree s p).clk.now } })) p
      (fun x => { x with status := x.status ++ [a.item.id] }) := by
  simp only [statusPoll, hcur, hkind, hunit, hwork, hwr, hcs, hbusy, ne_eq, not_true_eq_false, not_false_eq_true, if_false, if_true]

/-- A status read that shows the flash idle ends the write. -/
theorem statusPoll_of_idle {s : State} {p c : Ch} {st : Byte} {a : Access} {u : Billet} {w : PendWrite}
    (hcur : s.port[p].cur = some a) (hkind : a.kind = .status) (hunit : unitOf s a.item.id = some u)
    (hwork : u.work = .write c) (hwr : s.ch[c].wr = some w) (hcs : w.cs = false)
    (hidle : st &&& (flashOf (portFree s p) p false).wipMask = 0) :
    statusPoll s p st = pumpStage (settleAll (retire (modPort
      (modCh (portFree s p) c (fun k => { k with wr := none, wip := false, wel := false })) p
      (fun x => { x with busy0 := none })) a.item.id)) := by
  simp only [statusPoll, hcur, hkind, hunit, hwork, hwr, hcs, hidle, ne_eq, not_true_eq_false, Bool.false_eq_true, if_false]

/-- The read of a fill ends whose billet no provisional slot keeps. -/
def fillRead (s : State) (p : Ch) (a : Access) (u : Billet) (id : EmberId) : State :=
  setResume (portFree (reachTime s (a.startAt + readCycles s p id.cs a (4096 - u.resume))) p) a.item.id 0

/-- A completed fill of a bank that serves puts its data into its frame, and the ember goes to its check. -/
theorem fillComplete_of_serving {s : State} {p : Ch} {data : List Byte} {a : Access} {u : Billet} {id : EmberId} {why : FillWhy}
    {f : Nat} (hcur : s.port[p].cur = some a) (hkind : a.kind = .read) (hlen : data.length = 4096)
    (hunit : unitOf s a.item.id = some u) (hwork : u.work = .fill id why f)
    (hslots : s.ch[id.ch].slots.any (fun x => x.billet = a.item.id) = false)
    (hserving : isServing (slotTo (retire (fillRead s p a u id) a.item.id) id .queued) id = true) :
    fillComplete s p data = settleAll (startCheck
      (frameFilled (slotTo (retire (fillRead s p a u id) a.item.id) id .queued) f data) (some f) id data) := by
  have hcs : workCs s (.fill id why f) = id.cs := rfl
  have hch : (fillRead s p a u id).ch = s.ch := by simp only [fillRead, setResume_ch, portFree_ch, reachTime_ch]
  unfold fillRead at hch hserving ⊢
  simp only [fillComplete, hcur, hkind, hlen, hunit, hwork, hcs, hch, hslots, hserving, ne_eq, not_true_eq_false, or_self,
    Bool.false_eq_true, if_false, if_true]

/-- Settles O22: a grant by what stands on its port, and the end of each kind of access by its own rule. -/
theorem flashAccessesRunToTheirEnd : Obligations.FlashAccessesRunToTheirEnd := by
  refine ⟨fun g s h => ?taken, fun p seen i rest s hs hburning hcur hown hheads => ?head,
    fun p data a u id why f s hs hcur hkind hlen hunit hwork hslots hserving => ?fill,
    fun p a u c w s hs hcur hkind hunit hwork hwr hcs hdrawn => ?write,
    fun p st a u c w s hs hcur hkind hunit hwork hwr hcs => ⟨fun hbusy => ?busy, fun hidle => ?idle⟩⟩
  case taken => exact congrArg Host.Outcome.next (onLive_of_fixed (portServe_of_taken h g.seen))
  case head =>
    obtain ⟨b, sent, hnext⟩ := portNext_of_head hheads
    have hgrant : portServe s p seen = portNext s p := by
      rw [portServe_of_burning hburning]
      simp [-Fin.getElem_fin, portGrant, hcur, hown, hburning]
    refine ⟨_, next_onLive hs (hgrant.trans hnext), ?_,
      fun q hq => modPort_port_ne _ _ hq, rfl⟩
    rw [modPort_port_same]
  case fill =>
    exact next_onLive hs (congrArg settleAll (fillComplete_of_serving hcur hkind hlen hunit hwork hslots hserving))
  case write =>
    exact next_onLive hs (congrArg settleAll (writeExecute_of_drawn hcur hkind hunit hwork hwr hcs hdrawn))
  case busy =>
    exact next_onLive hs (congrArg settleAll (statusPoll_of_busy hcur hkind hunit hwork hwr hcs hbusy))
  case idle =>
    exact next_onLive hs (congrArg settleAll (statusPoll_of_idle hcur hkind hunit hwork hwr hcs hidle))

end Sys2Proof.Machine
end

section
/-! Portal frames and the side effects of the reads they answer (R63-R66, R348, R500), and the settling of O10. -/

namespace Sys2Proof.Machine

/-! One portal, one I3C target. -/

@[simp] theorem modPortal_portals_same (s : State) (x : Fin 6) (f : Portal → Portal) :
    (modPortal s x f).gc.portals[x] = f s.gc.portals[x] := Vector.getElem_set_self x.isLt

@[simp] theorem modI3c_i3c_same (s : State) (p : Fin 4) (f : I3c → I3c) : (modI3c s p f).mb.i3c[p] = f s.mb.i3c[p] :=
  Vector.getElem_set_self p.isLt

/-! Side effects of reads (R500). -/

/-- What captures of the same counts still owe is all that a read changes beside its own field. -/
theorem rcShare_frame (s : State) (w o : Nat) (e : ReadFx) :
    rcShare s w o e = { s with mb := { s.mb with i3c := (rcShare s w o e).mb.i3c } } := by
  unfold rcShare
  dsimp only
  split
  · rfl
  · split
    · rfl
    · rfl

/-- The side effect of a read in a window. -/
theorem regReadFx_of_windowOf {e : ReadFx} {w o : Nat} (hwin : windowOf e.addr = some (w, o)) (ho : o ≤ lastOfs w)
    (s : State) (m : Master) : regReadFx s m e = rcShare (winReadFx s m w o e) w o e := by
  simp only [regReadFx, hwin, ho, if_true]

@[simp] theorem readFxOf_addr (s : State) (m : Master) (a : Nat) : (readFxOf s m a).addr = a := by
  unfold readFxOf
  split <;> rfl

/-- A register without RC fields is read without a side effect. -/
theorem rcShare_of_plain {w o : Nat} (hext : rcExtreme w o = none) (hcnt : rcCounts w o = []) (s : State) (e : ReadFx) :
    rcShare s w o e = s := by
  simp only [rcShare, hext, hcnt, List.isEmpty_nil, if_true]

/-! Replies (R63, R348). -/

/-- A portal behind the answer to a frame. -/
def portalAnswered (st : Nat) (ws : List Word) (p : Portal) : Portal :=
  { p with
    overrun := p.overrun || decide (st = 1), accessErr := p.accessErr || decide (st = 2), lenErr := p.lenErr || decide (st = 3)
    lastStatus := st, outStatus := st, outWords := ws }

/-- On MS0 and MS1 the answer goes out, and the reads it answers have their side effects. -/
theorem portalReply_ms {x : Fin 6} (hx : x.val < 2) (s : State) (st : Nat) (ws : List Word) (fx : List ReadFx) :
    portalReply s x st ws fx = readsFx (modPortal s x (portalAnswered st ws)) x fx :=
  dif_neg (Nat.not_le.mpr hx)

/-- On an I3C target the answer waits, and so do the side effects. -/
theorem portalReply_i3c (p : Fin 4) (s : State) (st : Nat) (ws : List Word) (fx : List ReadFx) :
    portalReply s ⟨p.val + 2, by omega⟩ st ws fx =
      modI3c (modPortal s ⟨p.val + 2, by omega⟩ (portalAnswered st ws)) p (fun i => { i with
        reply := some (BitVec.ofNat 8 st :: (ws.map (fun w => beBytes 4 w.toNat)).flatten, s.clk.now)
        fx := fx, late := false }) := by
  have hi3c : 2 ≤ p.val + 2 := Nat.le_add_left 2 p.val
  simp only [portalReply, hi3c, dite_true]
  rfl

/-! Read bursts. -/

theorem portalRead_of_rejected {s : State} {x : Fin 6} {f : PortalFrame} (h : burstCheck s x f false ≠ 0) :
    portalRead s x f = portalReply s x (burstCheck s x f false) [] [] := if_pos h

/-- BT_INT_STS and BT_INT_EN are read without a side effect. -/
theorem regReadFx_btInt {a : Nat} (ha : a = 0x060008 ∨ a = 0x06000C) (s t : State) (m : Master) :
    regReadFx s m (readFxOf t m a) = s := by
  rcases ha with rfl | rfl
  · rw [regReadFx_of_windowOf (w := 6) (o := 0x008) (by rw [readFxOf_addr]; rfl) (by decide)]
    exact rcShare_of_plain rfl rfl ..
  · rw [regReadFx_of_windowOf (w := 6) (o := 0x00C) (by rw [readFxOf_addr]; rfl) (by decide)]
    exact rcShare_of_plain rfl rfl ..

/-- A burst over BT_INT_STS and BT_INT_EN answers with the two words. -/
theorem portalRead_btInt {s : State} {x : Fin 6} {f : PortalFrame} (hx : x.val < 2) (hok : burstCheck s x f false = 0)
    (haddr : f.addr = 0x060008#24) (hcount : f.count = 2) :
    portalRead s x f = modPortal s x (portalAnswered 0 [s.bt.intSts, s.bt.intEn]) := by
  have reply : portalRead s x f = portalReply s x 0 [s.bt.intSts, s.bt.intEn]
      [readFxOf s (.ext x) 0x060008, readFxOf s (.ext x) 0x06000C] := by
    simp only [portalRead, hok, haddr, hcount]
    rfl
  rw [reply, portalReply_ms hx]
  simp only [readsFx, List.foldl_cons, List.foldl_nil, regReadFx_btInt (.inl rfl), regReadFx_btInt (.inr rfl)]

/-! Write bursts. -/

theorem regWrite_btIntSts {s : State} {m : Master} (hmay : mayWrite s m 6 false = true) (v : Word) :
    regWrite s m 0x060008 v = { s with bt := { s.bt with intSts := s.bt.intSts &&& ~~~v } } := by
  rw [regWrite_of_windowOf (w := 6) (o := 0x008) rfl rfl (by decide)]
  simp only [winWrite, btWrite, wr_of_mayWrite hmay]

theorem regWrite_btIntEn {s : State} {m : Master} (hmay : mayWrite s m 6 false = true) (v : Word) :
    regWrite s m 0x06000C v = { s with bt := { s.bt with intEn := v &&& 63#32 } } := by
  rw [regWrite_of_windowOf (w := 6) (o := 0x00C) rfl rfl (by decide)]
  simp only [winWrite, btWrite, wr_of_mayWrite hmay]
  rfl

/-- A burst over BT_INT_STS and BT_INT_EN writes the two words in turn. -/
theorem portalApply_btInt {s : State} {x : Fin 6} {f : PortalFrame} {a b : Word} (hok : burstCheck s x f true = 0)
    (hmay : mayWrite s (.ext x) 6 false = true) (haddr : f.addr = 0x060008#24) (hcount : f.count = 2)
    (hwords : f.words = [a, b]) :
    portalApply s x f = ({ s with bt := { s.bt with intSts := s.bt.intSts &&& ~~~a, intEn := b &&& 63#32 } }, 0) := by
  have burst : portalApply s x f = (regWrite (regWrite s (.ext x) 0x060008 a) (.ext x) 0x06000C b, 0) := by
    simp only [portalApply, hok, haddr, hcount, hwords]
    rfl
  rw [burst, regWrite_btIntSts hmay, regWrite_btIntEn]
  exact hmay

/-- A frame whose words are all there answers with the status of its burst. -/
theorem portalWrite_of_whole {s u : State} {x : Fin 6} {f : PortalFrame} {st : Nat} (hwhole : f.words.length = f.count)
    (happly : portalApply s x f = (u, st)) : portalWrite s x f = portalReply u x st [] [] := by
  simp only [portalWrite, hwhole, happly, ne_eq, not_true_eq_false, if_false]

/-! The status read (Table 2.10). -/

/-- Fields from bit `n` up leave what lies below it as it is. -/
theorem foldl_fields_mod {n : Nat} (fs : List (Nat × Nat)) (h : ∀ f ∈ fs, n ≤ f.1) (a : Nat) :
    fs.foldl (fun a f => a + f.2 <<< f.1) a % 2 ^ n = a % 2 ^ n := by
  induction fs generalizing a with
  | nil => rfl
  | cons f fs ih =>
    obtain ⟨hf, hfs⟩ := List.forall_mem_cons.mp h
    have hzero : f.2 <<< f.1 % 2 ^ n = 0 := by
      rw [Nat.shiftLeft_eq]
      exact Nat.mod_eq_zero_of_dvd ((Nat.pow_dvd_pow 2 hf).mul_left _)
    rw [List.foldl_cons, ih hfs, Nat.add_mod, hzero, Nat.add_zero, Nat.mod_mod]

/-- The lowest field of a register word. -/
theorem bf_pack_lowest {n v : Nat} {fs : List (Nat × Nat)} (hn : n ≤ 32) (hfs : ∀ f ∈ fs, n ≤ f.1) (hv : v < 2 ^ n) :
    bf (pack ((0, v) :: fs)) 0 n = v := by
  have hfirst : 0 + v <<< 0 = v := by rw [Nat.shiftLeft_zero, Nat.zero_add]
  rw [bf, pack, BitVec.toNat_ofNat, Nat.shiftRight_zero, Nat.mod_mod_of_dvd _ (Nat.pow_dvd_pow 2 hn), List.foldl_cons,
    foldl_fields_mod fs hfs, hfirst, Nat.mod_eq_of_lt hv]

/-- FRAME_ERR is the low byte of GC_PORTAL_STS. -/
theorem bf_portalSts {p : Portal} (h : p.frameErr ≤ 255) (x : Fin 6) : bf (portalSts p x) 0 8 = p.frameErr :=
  bf_pack_lowest (by decide) (by simp) (Nat.lt_succ_of_le h)

/-- The status read's side effect clears the FRAME_ERR count it returned. -/
theorem regReadFx_portalSts (s : State) (m : Master) (x : Fin 6) (v : Word) (d : Bool) :
    regReadFx s m ⟨0x100, v, x.val, d⟩ =
      rcShare (modPortal s x (fun p => { p with frameErr := p.frameErr - bf v 0 8 })) 0 0x100 ⟨0x100, v, x.val, d⟩ := by
  rw [regReadFx_of_windowOf (show windowOf 0x100 = some (0, 0x100) from rfl) (by decide)]
  have hx : Fin.ofNat 6 x.val = x := Fin.ofNat_val_eq_self x
  simp only [winReadFx, gcReadFx, if_true, hx]

/-- The status read on MS0 or MS1. -/
theorem portalStatus_ms {s : State} {x : Fin 6} (hx : x.val < 2) :
    portalStatus s x = regReadFx
      (modPortal s x (fun p => { p with outStatus := 0, outWords := [portalSts s.gc.portals[x] x] })) (.ext x)
      ⟨0x100, portalSts s.gc.portals[x] x, x.val, false⟩ :=
  dif_neg (Nat.not_le.mpr hx)

/-- The status read on an I3C target. -/
theorem portalStatus_i3c (p : Fin 4) (s : State) :
    let x : Fin 6 := ⟨p.val + 2, by omega⟩
    portalStatus s x = modI3c s p (fun i => { i with
      reply := some (0 :: beBytes 4 (portalSts s.gc.portals[x] x).toNat, s.clk.now)
      fx := [⟨0x100, portalSts s.gc.portals[x] x, p.val + 2, false⟩], late := false }) := by
  have hi3c : 2 ≤ p.val + 2 := Nat.le_add_left 2 p.val
  simp only [portalStatus, hi3c, dite_true]
  rfl

/-- Settles O10, frame by frame. -/
theorem portalFramesAreAnswered : Obligations.PortalFramesAreAnswered := by
  refine ⟨fun x f s hs hx hbad => ?rejected, fun x f s hs hx hok haddr hcount => ?words, fun p f s hs hbad => ?i3cRejected,
    fun x f a b s hs hx hok hmask hlive haddr hcount hwords => ?written, fun x f s hs hshort => ?short,
    fun x s hs hx hcnt => ?status, fun p s hs => ?i3cStatus, fun x s hs => ?broken, fun x s hs => ?unknownFirst,
    fun x f s hs => ?timeout⟩
  case rejected =>
    refine ⟨_, next_onLive hs ((portalRead_of_rejected hbad).trans (portalReply_ms hx ..)), ?_⟩
    simp only [readsFx, List.foldl_nil, modPortal_portals_same]
    exact ⟨rfl, rfl, rfl⟩
  case words =>
    refine ⟨_, next_onLive hs (portalRead_btInt hx hok haddr hcount), ?_⟩
    rw [modPortal_portals_same]
    exact ⟨rfl, rfl, rfl⟩
  case i3cRejected =>
    refine ⟨_, next_onLive hs ((portalRead_of_rejected hbad).trans (portalReply_i3c p ..)), ?_⟩
    rw [modI3c_i3c_same]
    exact ⟨rfl, rfl, rfl⟩
  case written =>
    have hwhole : f.words.length = f.count := by rw [hwords, hcount]; rfl
    have happly := portalApply_btInt hok (mayWrite_ext hmask hlive) haddr hcount hwords
    refine ⟨_, next_onLive hs ((portalWrite_of_whole hwhole happly).trans (portalReply_ms hx ..)), ?_⟩
    simp only [readsFx, List.foldl_nil, modPortal_portals_same]
    exact ⟨rfl, rfl⟩
  case short =>
    refine ⟨_, next_onLive hs (if_pos hshort), ?_⟩
    rw [portalBad, modPortal_portals_same]
    exact ⟨rfl, rfl⟩
  case status =>
    refine ⟨_, next_onLive hs ((portalStatus_ms hx).trans ((regReadFx_portalSts ..).trans (rcShare_frame ..))), ?_⟩
    simp only [modPortal_portals_same, bf_portalSts hcnt, Nat.sub_self, true_and]
    exact ⟨rfl, rfl⟩
  case i3cStatus =>
    refine ⟨_, next_onLive hs (portalStatus_i3c p s), ?_⟩
    rw [modI3c_i3c_same]
    exact ⟨rfl, rfl⟩
  case broken => exact next_onLive hs rfl
  case unknownFirst =>
    refine ⟨_, next_onLive hs rfl, ?_⟩
    simp only [portalError, if_true, portalBad, modPortal_portals_same, true_and]
    exact ⟨rfl, rfl⟩
  case timeout => exact next_onLive hs rfl

end Sys2Proof.Machine
end

section
/-! The refutation of O9. The PEAK of a BT_USE register restarts where the value its read returned shows it (R500), and the word of
that read is a plain sum of its fields, so that an INUSE of 65,536 and more carries into PEAK. The device has 4,096 tracker
entries, but the statement speaks of every state. -/

namespace Sys2Proof.Machine

/-! A core's read. -/

/-- A core's read of a register it reaches has its side effect. -/
theorem exec_rcRead_core {s : State} {c : Core} {a : BitVec 24} (hs : s.pd.inReset = false) (h : CoreReaches s c a.toNat) :
    exec (.rcRead (.core c) a) s = .next (readAt s (.core c) a.toNat) := by
  obtain ⟨haligned, hreach⟩ := h
  refine next_onLive hs ?_
  simp only [readCmd, haligned, hreach, decide_true, Bool.and_self, if_true]

theorem coreReaches_btPeakFill (s : State) (c : Core) : CoreReaches s c 0x060018 := ⟨rfl, Bool.or_true _⟩

/-- The word of BT_USE_FILL: INUSE from bit 0, PEAK from bit 16. -/
def btFillWord (s : State) : Word := pack [(0, useOf s .fill), (16, s.bt.peakFill)]

/-- A register word of two fields. -/
theorem toNat_pack_pair (i j u v : Nat) : (pack [(i, u), (j, v)]).toNat = (u * 2 ^ i + v * 2 ^ j) % 2 ^ 32 := by
  simp only [pack, List.foldl_cons, List.foldl_nil, BitVec.toNat_ofNat, Nat.shiftLeft_eq, Nat.zero_add]

/-- Its PEAK field is the peak only up to what INUSE carries into it. -/
theorem bf_btFillWord (s : State) : bf (btFillWord s) 16 13 = (useOf s .fill / 65536 + s.bt.peakFill) % 8192 := by
  rw [bf, btFillWord, toNat_pack_pair, Nat.shiftRight_eq_div_pow]
  omega

theorem regRead_btPeakFill (s : State) (m : Master) : regRead s m 0x060018 = btFillWord s := rfl

/-- The value a read captures is the register's. -/
theorem readFxOf_val (s : State) (m : Master) (a : Nat) : (readFxOf s m a).val = regRead s m a := by
  unfold readFxOf
  split
  · rfl
  · next h => simp only [regRead, h]

/-- The side effect of reading BT_USE_FILL: PEAK restarts at INUSE where the captured value shows it. -/
theorem regReadFx_btPeakFill (s : State) (m : Master) {e : ReadFx} (he : e.addr = 0x060018) :
    (regReadFx s m e).bt.peakFill = rcExt s.bt.peakFill (bf e.val 16 13) (useOf s .fill) := by
  rw [regReadFx_of_windowOf (w := 6) (o := 0x018) (by rw [he]; rfl) (by decide), rcShare_frame]
  rfl

/-- What a core's read of BT_USE_FILL leaves in PEAK. -/
theorem rcRead_btPeakFill {s : State} (hs : s.pd.inReset = false) (c : Core) :
    ∃ t, exec (.rcRead (.core c) 0x060018) s = .next t ∧
      t.bt.peakFill = rcExt s.bt.peakFill (bf (btFillWord s) 16 13) (useOf s .fill) := by
  have read : readAt s (.core c) 0x060018 = regReadFx s (.core c) (readFxOf s (.core c) 0x060018) := rfl
  refine ⟨_, (exec_rcRead_core hs (coreReaches_btPeakFill s c)).trans (congrArg _ read), ?_⟩
  rw [regReadFx_btPeakFill s _ (readFxOf_addr ..), readFxOf_val, regRead_btPeakFill]

/-- A billet of the fill class. -/
def waitingFill : Billet :=
  { st := .waiting, cls := .fill, owner := .ch 0, src := .pool, parent := none, drawn := 0, work := .write 0 }

/-- Out of reset, with 65,536 fill billets in the tracker and none yet recorded as PEAK. -/
def crowdedTracker : State := { State.reset with
  pd := { State.reset.pd with inReset := false }
  bt := { State.reset.bt with units := List.replicate 65536 (0, waitingFill) } }

theorem useOf_crowdedTracker : useOf crowdedTracker .fill = 65536 := by
  have hall : List.filter (fun e : Nat × Billet => decide (e.2.cls = .fill)) (List.replicate 65536 (0, waitingFill)) =
      List.replicate 65536 (0, waitingFill) := List.filter_replicate_of_pos rfl
  rw [useOf, crowdedTracker, hall, List.length_replicate]

/-- Refutes O9: with 65,536 fill billets in the tracker a read of BT_USE_FILL returns 1 for a PEAK of 0, and PEAK stays 0 instead of
restarting at INUSE. -/
theorem not_readsHaveTheirSideEffects : ¬ Obligations.ReadsHaveTheirSideEffects := by
  rintro ⟨-, -, -, -, hpeak, -⟩
  obtain ⟨t, ht, hbt, -⟩ := hpeak 0 crowdedTracker rfl (by decide)
  obtain ⟨u, hu, hrestart⟩ := rcRead_btPeakFill (s := crowdedTracker) rfl 0
  obtain rfl : t = u := Host.Outcome.next.inj (ht.symm.trans hu)
  rw [hbt, bf_btFillWord, useOf_crowdedTracker] at hrestart
  exact absurd hrestart (by decide)

end Sys2Proof.Machine
end

section
/-! Escalation holds and the substituted state (R82, R92, R93), and the settling of O24. -/

namespace Sys2Proof.Machine

/-- A register that Table 18.10 closes to the external masters is not theirs to write (R497). -/
theorem mayWrite_ext_of_closed (s : State) (x : Fin 6) (w : Nat) : mayWrite s (.ext x) w true = false := by
  simp only [mayWrite, Bool.not_true, Bool.false_and]

theorem wr_of_not_mayWrite {s : State} {m : Master} {w : Nat} {closed : Bool} (h : mayWrite s m w closed = false)
    (f : State → State) : wr s m w closed f = s := by
  simp only [wr, h, Bool.false_eq_true, if_false]

/-- Without BCAST a register write reaches the selected channel alone (R69). -/
theorem eachTarget_of_single {s : State} {m : Master} (h : (selOf s m).bcast = false) (f : State → Ch → State) :
    eachTarget s m f = f s (selOf s m).ch := by
  simp only [eachTarget, chTargets, h, Bool.false_eq_true, if_false, List.foldl_cons, List.foldl_nil]

theorem escExpire_of_timed {s : State} {c : Ch} (hheld : s.ch[c].escHeld = true) (htimed : s.ch[c].escForever = false) :
    escExpire s c = settle (modCh (reachTime s (s.ch[c].escAt + 500000 * escHoldMs s.ch[c])) c
      (fun k => { k with escHeld := false })) c :=
  if_pos ⟨hheld, by rw [htimed]; rfl⟩

/-- What is held as under HOLD does not expire (R92, R93). -/
theorem escExpire_of_forever {s : State} {c : Ch} (h : s.ch[c].escForever = true) : escExpire s c = s := by
  simp only [escExpire, h, Bool.not_true, Bool.false_eq_true, and_false, if_false]

/-- A write of a core that reaches one channel runs there, and then the requesters run. -/
theorem coreWrite_of_single {s : State} {m : Core} (h : (selOf s (.core m)).bcast = false) (w : Nat) (closed : Bool)
    (f : State → Ch → State) :
    wr s (.core m) w closed (fun s => settleAll (eachTarget s (.core m) f)) = settleAll (f s (selOf s (.core m)).ch) := by
  rw [wr_of_mayWrite (mayWrite_core s m w closed), eachTarget_of_single h]

/-- A write of an external master to a closed register changes nothing, in reset or out of it. -/
theorem next_extWrite_closed (s : State) (x : Fin 6) (w : Nat) (f : State → State) :
    (.next (onLive s fun s => wr s (.ext x) w true f) : Host.Outcome State Fault Refusal) = .next s :=
  congrArg Host.Outcome.next (onLive_of_fixed (wr_of_not_mayWrite (mayWrite_ext_of_closed s x w) f))

/-- Settles O24: the expiry by what kind of hold stands, RELEASE and GR_SUBST by who writes. -/
theorem escalationHoldsEndAsTheModeSays : Obligations.EscalationHoldsEndAsTheModeSays := by
  refine ⟨fun c s hs hheld htimed => next_onLive hs (congrArg settleAll (escExpire_of_timed hheld htimed)),
    fun c s hs hforever => next_onLive hs (congrArg settleAll (escExpire_of_forever hforever)),
    fun m s hs hone => next_onLive hs (coreWrite_of_single hone 2 true escRelease),
    fun x s => next_extWrite_closed s x 2 _, fun m v s hs hone => ⟨?low, ?high⟩, fun x hi v s => next_extWrite_closed s x 2 _⟩
  case low =>
    rw [← BitVec.shiftLeft_zero (v.setWidth 64)]
    exact next_onLive hs (coreWrite_of_single hone 2 true fun s c => substClearAt s c false v)
  case high => exact next_onLive hs (coreWrite_of_single hone 2 true fun s c => substClearAt s c true v)

end Sys2Proof.Machine
end

section
/-! PROGRAM and ERASE outside an in-band window (R52, R53, R56, R80, R89, R91), and the settling of O21. -/

namespace Sys2Proof.Machine

/-! The commit of a complete write that leaves no record. -/

section Commit
variable {s : State} {k : Chan} {c : Ch} {t : HostTxn} {va : Nat} {v : WrVerdict} {kind : Nat → WriteKind}

theorem wrCommit_of_closed (h : s.ch[c].wel = false ∨ s.ch[c].wip = true) :
    wrCommit s k c t va v false kind = s := by
  rcases h with h | h <;> simp only [wrCommit, h, Bool.not_false, Bool.true_or, Bool.or_true, Bool.false_eq_true, if_true, if_false]

theorem wrCommit_of_denied (hwel : s.ch[c].wel = true) (hwip : s.ch[c].wip = false) (hcode : v.code = 0) :
    wrCommit s k c t va v false kind = modCh s c (fun k => { k with wel := false }) := by
  simp only [wrCommit, hwel, hwip, hcode, Bool.not_true, Bool.or_self, Bool.false_eq_true, if_true, if_false]

/-- An allowed write becomes the channel's committed write at its place on the flash, and asks for its billet. -/
theorem wrCommit_of_allowed {fp : Ch} {cs : Bool} {fa : Nat} (hwel : s.ch[c].wel = true) (hwip : s.ch[c].wip = false)
    (hcode : v.code = 1) (hplace : physIn k .a va = some (fp, cs, fa)) :
    wrCommit s k c t va v false kind = writeDraw (modCh s c (fun k => { k with
      wip := true, cntWcommit := k.cntWcommit + 1
      wr := some { fp := fp, cs := cs, addr := fa, kind := kind fa, staged := false, st := .pending, billet := none } })) c := by
  simp [-Fin.getElem_fin, wrCommit, wrPlace, wrAccept, hwel, hwip, hcode, hplace]

end Commit

/-! The two rows as one operation. -/

/-- Completion by Table 2.7, and the flash operation that an accepted write asks for. -/
def writeDone (er : Bool) (t : HostTxn) (k : Chan) : Bool := if er then bareDone t else progDone t k
def writeKind (er : Bool) (t : HostTxn) (k : Chan) (e : Word) (fa : Nat) : WriteKind :=
  if er then (if opcBig e then .erase64 else .erase4) else .prog (pageBytes k fa (t.data.take (txnBytes k t)))

/-- Outside an in-band window the grate judges a PROGRAM or ERASE. -/
theorem exec_write_outside_window {er : Bool} {c : Ch} {t : HostTxn} {s : State} (hs : s.pd.inReset = false)
    (hwin : windowAt s (hostFall s.ch[c]) c (txnAddr (hostFall s.ch[c]) (hostOpc s c t) t) = none) :
    exec (if er then .erase c t else .program c t) s =
      .next (hostWrite s c t (if er then 3 else 2) (writeDone er t) (writeKind er t)) := by
  unfold hostOpc at hwin
  cases er with
  | false =>
    refine next_onLive hs ?_
    simp only [hostProgram, hwin]
    rfl
  | true =>
    refine next_onLive hs ?_
    simp only [hostErase, hwin, ite_self]
    rfl

/-- The state behind the verdict on a write: noted, and counted where it denies (R98). -/
def writeJudged (b : State) (c : Ch) (code : Nat) : State :=
  if code = 0 then cntDeny (grVerdict b c code) c else grVerdict b c code

theorem writeJudged_of_ne {code : Nat} (h : code ≠ 0) (b : State) (c : Ch) : writeJudged b c code = grVerdict b c code :=
  if_neg h

/-- The verdict leaves all of the channel but its count of denials. -/
theorem writeJudged_ch (b : State) (c : Ch) (code : Nat) :
    ∃ n, (writeJudged b c code).ch[c] = { b.ch[c] with cntDeny := n } := by
  by_cases h : code = 0
  · exact ⟨b.ch[c].cntDeny + 1, by simp only [writeJudged, h, if_true, cntDeny, modCh_ch_same, grVerdict_ch]⟩
  · exact ⟨b.ch[c].cntDeny, by rw [writeJudged_of_ne h, grVerdict_ch]⟩

/-- A write that is neither overspeed nor escalated, and that neither its opcode nor its descriptor has logged or reported, is
judged, and then dropped or committed. -/
theorem hostWrite_of_takes {cls : Nat} {c : Ch} {t : HostTxn} {s b : State} {e : Word} {v : WrVerdict}
    {complete : Chan → Bool} {kind : Chan → Word → Nat → WriteKind} (h : HostTakes s c t cls)
    (hb : hostBegin s c = b) (he : hostOpc s c t = e)
    (hv : wrJudge b.ch[c] e (txnAddr b.ch[c] e t) (decide (cls = 3)) = v)
    (hspeed : overspeed b.ch[c] e t = false) (hlog : opcLog e = false)
    (hplain : v.rgn.all (fun i => !rgnLog b.ch[c].cfg.desc[i] && !rgnAlert b.ch[c].cfg.desc[i]) = true) (hcode : v.code ≠ 4) :
    hostWrite s c t cls complete kind = settle (pumpBlocks (if complete b.ch[c]
      then wrCommit (writeJudged b c v.code) b.ch[c] c t (txnAddr b.ch[c] e t) v false (kind b.ch[c] e)
      else grRecord (evCount (writeJudged b c v.code) c 1) c 0x11 t.op v.desc (txnAddr b.ch[c] e t) t.units v.code)) c := by
  simp only [hostWrite, hostTxn_of_takes h, hb, he, hv, hspeed, hlog, hcode, Bool.false_eq_true, if_false]
  cases hr : v.rgn with
  | none => cases complete b.ch[c] <;> rfl
  | some i =>
    simp only [hr, Option.all_some, Bool.and_eq_true, Bool.not_eq_true'] at hplain
    obtain ⟨hunlogged, hunreported⟩ := hplain
    simp only [Option.any_some, hunlogged, hunreported]
    cases complete b.ch[c] <;> rfl

/-- Settles O21: both rows are judged by `hostWrite`, and each clause is one outcome of the commit or the drop. -/
theorem programAndEraseCommitOrDrop : Obligations.ProgramAndEraseCommitOrDrop := by
  intro er c t s row b k e va v kind whole htakes hwin hspeed hlog hplain
  have hcls : decide ((if er then 3 else 2) = 3) = er := by cases er <;> rfl
  have hv : wrJudge k e va (decide ((if er then 3 else 2) = 3)) = v := by rw [hcls]
  have hrow (hcode : v.code ≠ 4) : exec row s = hostEnd c (if whole
      then wrCommit (writeJudged b c v.code) k c t va v false kind
      else grRecord (evCount (writeJudged b c v.code) c 1) c 0x11 t.op v.desc va t.units v.code) :=
    (exec_write_outside_window htakes.1 hwin).trans
      (congrArg _ (hostWrite_of_takes htakes rfl rfl hv hspeed hlog hplain hcode))
  obtain ⟨n, hjudged⟩ := writeJudged_ch b c v.code
  have hwel : (writeJudged b c v.code).ch[c].wel = k.wel := by rw [hjudged]
  have hwip : (writeJudged b c v.code).ch[c].wip = k.wip := by rw [hjudged]
  refine ⟨fun hcode hwhole hclosed => ?closed, fun hcode hwhole hopen hidle => ?denied, fun hcode hwhole => ?incomplete,
    fun fp cs fa hcode hwhole hopen hidle hplace => ?allowed⟩
  case closed =>
    rw [hrow (by omega), if_pos hwhole, wrCommit_of_closed (hwel ▸ hwip ▸ hclosed), writeJudged_of_ne (by omega)]
  case denied =>
    rw [hrow (by omega), if_pos hwhole, wrCommit_of_denied (hwel.trans hopen) (hwip.trans hidle) hcode, hcode]
    rfl
  case incomplete =>
    rw [hrow (by omega), if_neg (ne_true_of_eq_false hwhole), writeJudged_of_ne (by omega), hcode]
  case allowed =>
    rw [hrow (by omega), if_pos hwhole, wrCommit_of_allowed (hwel.trans hopen) (hwip.trans hidle) hcode hplace,
      writeJudged_of_ne (by omega), hcode]

end Sys2Proof.Machine
end

section
/-! READ within one ember (R45, R47, R72, R83), and the settling of O20. -/

namespace Sys2Proof.Machine

/-! The rise of H_CS_N behind a READ that released nothing to the relay: it moves provisional slots alone. -/

/-- A slot's state is all that a move changes in its channel. -/
theorem slotTo_ch (s : State) (id : EmberId) (st : SlotSt) (c : Ch) :
    ∃ l, (slotTo s id st).ch[c] = { s.ch[c] with slots := l } := by
  by_cases h : id.ch = c
  · subst h
    exact ⟨_, modCh_ch_same ..⟩
  · exact ⟨s.ch[c].slots, Vector.getElem_set_ne id.ch.isLt c.isLt (fun e => h (Fin.ext e))⟩

/-- What no move of a slot changes, the rise leaves as it is. -/
theorem rdComplete_nil_keeps {β : Type} {p : State → β} (hp : ∀ s id st, p (slotTo s id st) = p s) (s : State) (c : Ch) :
    p (rdComplete s c []) = p s := by
  have fold (l : List ProvSlot) (s : State) :
      p (l.foldl (fun s x => slotTo s x.id (slotNow s x.id)) s) = p s := by
    induction l generalizing s with
    | nil => rfl
    | cons x l ih => exact (ih _).trans (hp ..)
  exact fold _ s

/-- What no list of slots shows of a channel, the rise leaves as it is. -/
theorem rdComplete_nil_ch {β : Type} {q : Chan → β} (hq : ∀ k l, q { k with slots := l } = q k) (s : State) (c : Ch) :
    q (rdComplete s c []).ch[c] = q s.ch[c] :=
  rdComplete_nil_keeps (p := fun s => q s.ch[c]) (fun s id st => by
    obtain ⟨l, hl⟩ := slotTo_ch s id st c
    simp only [hl, hq]) s c

/-- The state a READ ends in that served these bytes and released nothing. -/
def readServed (s : State) (c : Ch) (bs : List Byte) : State := rdComplete (hostServe s c bs) c []

theorem readServed_hostOut (s : State) (c : Ch) (bs : List Byte) : (readServed s c bs).ch[c].hostOut = bs := by
  rw [readServed, rdComplete_nil_ch (q := Chan.hostOut) (fun _ _ => rfl), hostServe, modCh_ch_same]

theorem readServed_cntDeny (s : State) (c : Ch) (bs : List Byte) :
    (readServed s c bs).ch[c].cntDeny = s.ch[c].cntDeny := by
  rw [readServed, rdComplete_nil_ch (q := Chan.cntDeny) (fun _ _ => rfl), hostServe, modCh_ch_same]

/-- The host's lines are driven by the unit that burns, in a bank that is in range (R284, R353, R440). -/
theorem readServed_hostDriven (s : State) (c : Ch) (bs : List Byte) :
    (readServed s c bs).ch[c].hostDriven =
      (!isBanked (readServed s c bs) && bankUp (readServed s c bs) (chanBank c.val)) := by
  have banked : isBanked (readServed s c bs) = isBanked s := rdComplete_nil_keeps (p := isBanked) (fun _ _ _ => rfl) ..
  have up : bankUp (readServed s c bs) (chanBank c.val) = bankUp s (chanBank c.val) :=
    rdComplete_nil_keeps (p := fun s => bankUp s (chanBank c.val)) (fun _ _ _ => rfl) ..
  rw [banked, up, readServed, rdComplete_nil_ch (q := Chan.hostDriven) (fun _ _ => rfl), hostServe, modCh_ch_same]

/-! The end of a READ. -/

/-- The READ has released, escalated, logged and reported nothing. -/
structure RdRun.Plain (r : RdRun) : Prop where
  provs : r.provs = 0
  esc : r.esc = false
  late : r.late = none
  denied : r.denied = false
  relayed : r.relayed = false
  alert : r.alert = false
  billets : r.billets = []

/-- The end of a READ that is not overspeed: its record, its report, its bytes, and the rise of H_CS_N. -/
def readEnd (x : RdCtx) (va : Nat) (r : RdRun) : State :=
  let s := rdRecord x x.t.op va false r
  let s := if r.alert then grAlert s x.c else s
  rdComplete (hostServe s x.c r.out) x.c r.billets

theorem readEnd_of_plain {x : RdCtx} {r : RdRun} (hlog : x.log = false) (h : r.Plain) (va : Nat) :
    readEnd x va r = readServed r.st x.c r.out := by
  obtain ⟨hprovs, hesc, hlate, hdenied, hrelayed, halert, hbillets⟩ := h
  simp [readEnd, rdRecord, readServed, hlog, hprovs, hesc, hlate, hdenied, hrelayed, halert, hbillets]

/-! Within one ember. -/

/-- A READ that ends within its ember has that ember's verdict alone. -/
theorem rdLoop_of_one {va n : Nat} (hone : va % 4096 + n ≤ 4096) (x : RdCtx) (f : Nat) (r : RdRun) :
    rdLoop x (f + 1) r va n = rdEmber x r va n := by
  have hm : min n (4096 - va % 4096) = n := by omega
  simp only [rdLoop, hm, Nat.le_refl, if_true]

/-- A denied READ that ends within its ember has no further verdict. -/
theorem rdDenied_of_one {va n : Nat} (hone : va % 4096 + n ≤ 4096) (x : RdCtx) (r : RdRun) : rdDenied x r va n = r := by
  have hzero : (va % 4096 + n - 1) / 4096 = 0 := by omega
  simp only [rdDenied, hzero, List.range_zero, List.foldl_nil]

/-- A READ is given its tables at the fall of H_CS_N, and its opcode's LOG (R18). -/
structure RdCtx.Reads (x : RdCtx) (b : State) (c : Ch) (t : HostTxn) (e : Word) : Prop where
  chan : x.c = c
  tables : x.k = b.ch[c]
  txn : x.t = t
  log : x.log = opcLog e

/-- The start of a READ. -/
def readBegun (x : RdCtx) (b : State) : RdRun := { st := b, relay := x.ran }

section Taken
variable {c : Ch} {t : HostTxn} {s b : State} {e : Word} {va n : Nat}

/-- Under OPACT DENY a READ within one ember has the one verdict, which denies it. -/
theorem exec_read_denied (h : HostTakes s c t 1) (hb : hostBegin s c = b) (he : hostOpc s c t = e)
    (hva : txnAddr b.ch[c] e t = va) (hn : txnBytes b.ch[c] t = n) (hspeed : overspeed b.ch[c] e t = false)
    (hact : opcAct e = 2) (hone : va % 4096 + n ≤ 4096) :
    ∃ (x : RdCtx) (g : Nat), x.Reads b c t e ∧
      exec (.read c t) s = hostEnd c (readEnd x va (rdVerdict x (rdDeny x (readBegun x b) n none) g 0)) := by
  have hexec : exec (.read c t) s = .next (hostRead s c t) := next_onLive h.1 rfl
  simp only [hexec, hostRead, hostTxn_of_takes h, hb, he, hva, hn, hspeed, hact, rdDenied_of_one hone, Bool.false_eq_true,
    if_false]
  exact ⟨⟨c, b.ch[c], t, _, _, opcLog e⟩, _, ⟨rfl, rfl, rfl, rfl⟩, rfl⟩

/-- Under OPACT ALLOW a READ within one ember has that ember's verdict. -/
theorem exec_read_judged (h : HostTakes s c t 1) (hb : hostBegin s c = b) (he : hostOpc s c t = e)
    (hva : txnAddr b.ch[c] e t = va) (hn : txnBytes b.ch[c] t = n) (hspeed : overspeed b.ch[c] e t = false)
    (hact : opcAct e = 0) (hone : va % 4096 + n ≤ 4096) :
    ∃ x : RdCtx, x.Reads b c t e ∧ exec (.read c t) s = hostEnd c (readEnd x va (rdEmber x (readBegun x b) va n)) := by
  have hexec : exec (.read c t) s = .next (hostRead s c t) := next_onLive h.1 rfl
  simp only [hexec, hostRead, hostTxn_of_takes h, hb, he, hva, hn, hspeed, hact, rdLoop_of_one hone, Bool.false_eq_true, if_false]
  exact ⟨⟨c, b.ch[c], t, _, _, opcLog e⟩, ⟨rfl, rfl, rfl, rfl⟩, rfl⟩

end Taken

/-! The first verdict. -/

theorem rdEmber_of_ungoverned {x : RdCtx} {r : RdRun} {va : Nat} (hdead : r.dead = false)
    (hwin : windowAt r.st x.k x.c va = none) (hgov : governing x.k (va / 4096) = none) (n : Nat) :
    rdEmber x r va n = rdVerdict x (rdDeny x r n none) 0x40 0 := by
  simp only [rdEmber, hdead, hwin, hgov, Bool.false_eq_true, if_false]

/-- The first verdict of a READ without LOG denies the whole of it: the denial is counted, and the bytes are deny data. -/
theorem readEnd_denied {x : RdCtx} {b : State} {c : Ch} {t : HostTxn} {e : Word} (hx : x.Reads b c t e) (hlog : opcLog e = false)
    (va n g v : Nat) :
    let u := readEnd x va (rdVerdict x (rdDeny x (readBegun x b) n none) g v)
    u.ch[c].hostOut = List.replicate n (denyByte b.ch[c]) ∧ u.ch[c].cntDeny = b.ch[c].cntDeny + 1 := by
  obtain ⟨hc, hk, -, hxlog⟩ := hx
  rw [hlog] at hxlog
  subst hc
  intro u
  have hu : u = readServed (grVerdict (modCh b x.c (fun k => { k with cntDeny := k.cntDeny + 1 })) x.c v) x.c
      (denyData x.k n) :=
    readEnd_of_plain hxlog ⟨rfl, rfl, rfl, by simp [rdVerdict, rdDeny, rdCount, readBegun, hxlog], rfl, rfl, rfl⟩ va
  rw [hu, readServed_hostOut, readServed_cntDeny, grVerdict_ch, modCh_ch_same, hk]
  exact ⟨rfl, rfl⟩

/-! A hit. -/

/-- Whatever a hit and the fetch behind it do to the device, the run of the READ goes on with the frame's bytes. -/
theorem rdVerified_of_resident {x : RdCtx} {r : RdRun} {va va' : Nat} {i j : Fin 64} {gold redir : Bool} {id : EmberId} {f : Nat}
    {fr : Frame} (hember : emberAt x.k x.c j gold va' = some id) (hres : residentFrame r.st id = some (f, fr))
    (hparity : x.t.parity = none) (n : Nat) :
    ∃ st relay, rdVerified x r va n i j va' gold redir =
      { r with st := st, relay := relay, out := r.out ++ slice fr.data (va % 4096) n, seen := id.vem :: r.seen } := by
  have hcount (g : Chan → Chan) : rdCount x r g = { r with st := (rdCount x r g).st } := by
    unfold rdCount
    split <;> rfl
  simp only [rdVerified, hember, hres, hparity, Bool.and_false, Bool.false_eq_true, if_false, rdHit]
  rw [hcount]
  exact ⟨_, _, rfl⟩

/-- A VERIFIED region that is not substituted is read in the bank that serves it. -/
theorem rdEmber_of_verified {x : RdCtx} {r : RdRun} {va : Nat} {i : Fin 64} (hdead : r.dead = false)
    (hwin : windowAt r.st x.k x.c va = none) (hgov : governing x.k (va / 4096) = some i) (hrd : rgnRd x.k.cfg.desc[i] = 1)
    (hsubst : isSubst x.k i = false) (hopen : rgnOpen x.k.cfg.desc[i] = false) (n : Nat) :
    let r' := rdVerified x r va n i i va false false
    rdEmber x r va n = rdVerdict x { r' with first := r.first } i.val (if r.provs < r'.provs then 6 else 1) := by
  simp only [rdEmber, hdead, hwin, hgov, hrd, hsubst, hopen, Bool.false_eq_true, if_false, and_false]

/-- A READ within a resident ember serves its bytes. -/
theorem readEnd_resident {x : RdCtx} {b : State} {c : Ch} {t : HostTxn} {e : Word} {va n : Nat} {i : Fin 64} {id : EmberId}
    {f : Nat} {fr : Frame} (hx : x.Reads b c t e) (hlog : opcLog e = false) (hwin : windowAt b b.ch[c] c va = none)
    (hgov : governing b.ch[c] (va / 4096) = some i) (hrd : rgnRd b.ch[c].cfg.desc[i] = 1) (hsubst : isSubst b.ch[c] i = false)
    (hopen : rgnOpen b.ch[c].cfg.desc[i] = false) (hember : emberAt b.ch[c] c i false va = some id)
    (hres : residentFrame b id = some (f, fr)) (hparity : t.parity = none) :
    ∃ st, readEnd x va (rdEmber x (readBegun x b) va n) = readServed st c (slice fr.data (va % 4096) n) := by
  obtain ⟨hc, hk, ht, hxlog⟩ := hx
  rw [hlog] at hxlog
  rw [← hk] at hwin hgov hrd hsubst hopen hember
  subst hc ht
  obtain ⟨st, relay, hhit⟩ := rdVerified_of_resident (r := readBegun x b) (va := va) (i := i) (redir := false)
    hember hres hparity n
  rw [rdEmber_of_verified (r := readBegun x b) rfl hwin hgov hrd hsubst hopen, hhit]
  exact ⟨_, readEnd_of_plain hxlog ⟨rfl, rfl, rfl, rfl, rfl, rfl, rfl⟩ va⟩

/-- Settles O20: OPACT DENY and an ungoverned page by the first verdict, a resident ember by its hit. -/
theorem readServesTheResidentEmberOrDenyData : Obligations.ReadServesTheResidentEmberOrDenyData := by
  intro c t s htakes b k e va n hspeed hlog hone
  refine ⟨fun hact => ?denied, fun hact hwin hgov => ?ungoverned,
    fun i id f fr hact hwin hgov hrd hsubst hopen hember hres hparity => ?resident⟩
  case denied =>
    obtain ⟨x, g, hx, hrow⟩ := exec_read_denied (va := va) (n := n) htakes rfl rfl rfl rfl hspeed hact hone
    exact ⟨_, hrow, readEnd_denied hx hlog va n g 0⟩
  case ungoverned =>
    obtain ⟨x, hx, hrow⟩ := exec_read_judged (va := va) (n := n) htakes rfl rfl rfl rfl hspeed hact hone
    rw [rdEmber_of_ungoverned (r := readBegun x b) rfl (by rw [hx.tables, hx.chan]; exact hwin)
      (by rw [hx.tables]; exact hgov)] at hrow
    exact ⟨_, hrow, readEnd_denied hx hlog va n 0x40 0⟩
  case resident =>
    obtain ⟨x, hx, hrow⟩ := exec_read_judged (va := va) (n := n) htakes rfl rfl rfl rfl hspeed hact hone
    obtain ⟨st, hserved⟩ := readEnd_resident (n := n) hx hlog hwin hgov hrd hsubst hopen hember hres hparity
    rw [hserved] at hrow
    exact ⟨_, hrow, readServed_hostOut .., readServed_hostDriven ..⟩

end Sys2Proof.Machine
end

section
/-! The operations of the hash bank, of the AES engines and of the pair's self-diagnosis (R117, R118, R444): the parts each one
changes, and what that leaves. -/

namespace Sys2Proof.Machine

/-- A fold of steps that leave a part of the state alone leaves it alone. -/
theorem foldl_keeps {β γ : Type} {p : State → γ} {g : State → β → State} (hg : ∀ s x, p (g s x) = p s) (l : List β) (s : State) :
    p (l.foldl g s) = p s :=
  List.foldlRecOn l g (motive := fun t => p t = p s) rfl fun t ht x _ => (hg t x).trans ht

/-! Units and provisional slots. -/

theorem slotJob_frame (s : State) (id : Nat) (st : SlotSt) : slotJob s id st = { s with ch := (slotJob s id st).ch } := by
  unfold slotJob
  split
  · split <;> rfl
  · rfl

theorem modUnit_frame (s : State) (id : Nat) (f : Billet → Billet) : modUnit s id f = { s with bt := (modUnit s id f).bt } := by
  unfold modUnit
  split <;> rfl

@[simp] theorem setUnitSt_ve (s : State) (id : Nat) (x : BilletSt) : (setUnitSt s id x).ve = s.ve := by
  rw [setUnitSt_frame]
@[simp] theorem slotJob_ve (s : State) (id : Nat) (st : SlotSt) : (slotJob s id st).ve = s.ve := by
  rw [slotJob_frame]
@[simp] theorem modUnit_ve (s : State) (id : Nat) (f : Billet → Billet) : (modUnit s id f).ve = s.ve := by
  rw [modUnit_frame]
@[simp] theorem retire_ve (s : State) (id : Nat) : (retire s id).ve = s.ve := rfl

/-! The rings and the grant of an engine. -/

theorem setRing_frame (s : State) (t : Nat) (a : Arb) : ∃ b c d,
    setRing s t a = { s with ve := { s.ve with tier1 := b, tier2 := c, tier3 := d } } := by
  unfold setRing
  split
  · exact ⟨_, _, _, rfl⟩
  · split <;> exact ⟨_, _, _, rfl⟩

@[simp] theorem setRing_engOnline (s : State) (t : Nat) (a : Arb) : (setRing s t a).ve.engOnline = s.ve.engOnline := by
  obtain ⟨b, c, d, h⟩ := setRing_frame s t a
  rw [h]

@[simp] theorem hashPut_engOnline (s : State) (t id cost : Nat) (o : Owner) :
    (hashPut s t id cost o).ve.engOnline = s.ve.engOnline := by
  unfold hashPut
  split
  · rfl
  · exact setRing_engOnline ..

theorem hashPick_engOnline {s u : State} {j : HashJob} {i : QItem} (h : hashPick s = some (j, i, u)) :
    u.ve.engOnline = s.ve.engOnline := by
  unfold hashPick at h
  split at h
  case h_1 => cases h; rfl
  case h_2 =>
    dsimp only at h
    split at h
    · cases h
    · split at h
      · cases h
      · cases h
        exact setRing_engOnline ..

theorem hashStart_frame (s : State) (e : Fin 12) (j : HashJob) : ∃ ch bt pd, hashStart s e j =
    { s with ch := ch, bt := bt, pd := pd, ve := { s.ve with engines := s.ve.engines.set e (some { job := j, startAt := s.clk.now }) } } := by
  unfold hashStart
  rw [slotJob_frame, setUnitSt_frame]
  exact ⟨_, _, _, rfl⟩

theorem hashGrant_engOnline (n : Nat) (s : State) : (hashGrant n s).ve.engOnline = s.ve.engOnline := by
  induction n generalizing s with
  | zero => rfl
  | succ n ih =>
    unfold hashGrant
    split
    · rfl
    · split
      · rfl
      · next e _ _ j i u hpick =>
        obtain ⟨ch, bt, pd, hstart⟩ := hashStart_frame u (engFor u j e) j
        rw [ih, hstart, ← hashPick_engOnline hpick]

theorem treeRoll_engOnline (s : State) : (treeRoll s).ve.engOnline = s.ve.engOnline := by
  unfold treeRoll
  refine foldl_keeps (p := fun s => s.ve.engOnline) (fun s e => ?_) allEng s
  dsimp only
  split
  · split <;> rfl
  · rfl

@[simp] theorem hashEnd_engOnline (s : State) (e : Fin 12) : (hashEnd s e).ve.engOnline = s.ve.engOnline := by
  rw [hashEnd, hashGrant_engOnline]
  dsimp only
  split
  · rw [treeRoll_engOnline, reachTime_ve]
  · rfl

@[simp] theorem hashDrop_engOnline (s : State) (id : Nat) : (hashDrop s id).ve.engOnline = s.ve.engOnline :=
  hashGrant_engOnline ..

@[simp] theorem veRecord_engOnline (s : State) (c kind bind info obj win : Nat) (essential : Bool) :
    (veRecord s c kind bind info obj win essential).ve.engOnline = s.ve.engOnline := by
  simp only [veRecord, evLowSet, apply_ite State.ve, apply_ite Ve.engOnline, ite_self]

@[simp] theorem veInt_engOnline (s : State) (i : Nat) : (veInt s i).ve.engOnline = s.ve.engOnline := rfl

/-! The AES engines. -/

theorem aesGrant_ve (n : Nat) (s : State) : (aesGrant n s).ve = s.ve := by
  induction n generalizing s with
  | zero => rfl
  | succ n ih =>
    unfold aesGrant
    split
    · rfl
    · dsimp only
      split
      · rfl
      · rw [ih, aesStart, setUnitSt_frame]

@[simp] theorem aesDrop_ve (s : State) (id : Nat) : (aesDrop s id).ve = s.ve := aesGrant_ve ..

@[simp] theorem aesEnd_ve (s : State) (e : Fin 2) : (aesEnd s e).ve = s.ve := by
  rw [aesEnd, aesGrant_ve]
  dsimp only
  split <;> rfl

/-! The pair's self-diagnosis. -/

theorem modLink_frame (s : State) (l : Link) (f : FlueRt → FlueRt) :
    ∃ fb pr, modLink s l f = { s with fb := fb, pr := pr } := by
  unfold modLink
  split <;> exact ⟨_, _, rfl⟩

theorem sendOn_frame (s : State) (l : Link) (fr : FabFrame) : ∃ fb pr, sendOn s l fr = { s with fb := fb, pr := pr } := by
  obtain ⟨fb, pr, hqueued⟩ := modLink_frame s l (fun x => if linkUp x then { x with waiting := x.waiting ++ [fr] } else x)
  rw [sendOn, hqueued, pumpLink]
  obtain ⟨fb', pr', hsent⟩ := modLink_frame { s with fb := fb, pr := pr } l _
  exact ⟨fb', pr', hsent⟩

theorem startYield_frame (s : State) : ∃ fb pr, startYield s = { s with fb := fb, pr := pr } := by
  unfold startYield
  split
  · exact sendOn_frame { s with pr := _ } ..
  · exact ⟨_, _, rfl⟩

theorem diagFail_frame (s : State) (b : Nat) : ∃ fb pr, diagFail s b = { s with fb := fb, pr := pr } := by
  unfold diagFail
  split
  · dsimp only
    split
    · exact startYield_frame { s with pr := _ }
    · exact ⟨_, _, rfl⟩
  · exact ⟨_, _, rfl⟩

/-- A parity error counts in the pair's registers and may send on a link (R444, R445). -/
theorem parityCount_frame (s : State) : ∃ fb pr, parityCount s = { s with fb := fb, pr := pr } := by
  unfold parityCount
  dsimp only
  split
  · exact diagFail_frame { s with pr := _ } 2
  · exact ⟨_, _, rfl⟩

end Sys2Proof.Machine
end

section
/-! The ends of anchorings and of ember checks (R108, R109, R111-R113), and the settling of O27. -/

namespace Sys2Proof.Machine

/-! A parity error is counted before the check ends, and the check does not see it. -/

@[simp] theorem parityCount_engJob (s : State) (e : Fin 12) : engJob (parityCount s) e = engJob s e := by
  obtain ⟨fb, pr, h⟩ := parityCount_frame s
  rw [h]; rfl
@[simp] theorem parityCount_unitOf (s : State) (id : Nat) : unitOf (parityCount s) id = unitOf s id := by
  obtain ⟨fb, pr, h⟩ := parityCount_frame s
  rw [h]; rfl
@[simp] theorem parityCount_bindingOf (s : State) (b : Nat) : bindingOf (parityCount s) b = bindingOf s b := by
  obtain ⟨fb, pr, h⟩ := parityCount_frame s
  rw [h]; rfl

/-! The end of an anchoring's job. -/

section Anchoring
variable {s : State} {e : Fin 12} {j : HashJob} {u : Billet} {bind : Nat} {bk : BankId} {re stage : Bool} {b : Binding}

theorem anchoringEnd_of_parity (hj : engJob s e = some j) (hu : unitOf s j.billet = some u)
    (hw : u.work = .anchor bind bk re stage) (hb : bindingOf s bind = some b) :
    anchoringEnd s e true = voidUnit (hashEnd s e) j.billet := by
  simp only [anchoringEnd, hj, hu, hw, hb, if_true]

theorem anchoringEnd_of_lastJob (hj : engJob s e = some j) (hu : unitOf s j.billet = some u)
    (hw : u.work = .anchor bind bk re stage) (hb : bindingOf s bind = some b) (hlast : jobsLeft (hashEnd s e) j.billet = 0) :
    anchoringEnd s e false = pumpStage (anchorVerdict (hashEnd s e) j.billet u b bk stage) := by
  simp only [anchoringEnd, hj, hu, hw, hb, hlast, Bool.false_eq_true, if_false, ne_eq, not_true_eq_false]

theorem exec_anchoring_of_lastJob (hs : s.pd.inReset = false) (hj : engJob s e = some j) (hu : unitOf s j.billet = some u)
    (hw : u.work = .anchor bind bk re stage) (hb : bindingOf s bind = some b) (hlast : jobsLeft (hashEnd s e) j.billet = 0)
    {t : State} (hverdict : anchorVerdict (hashEnd s e) j.billet u b bk stage = t) :
    exec (.anchoring e false) s = .next (settleTraces (pumpStage t)) :=
  next_onLive hs (congrArg settleTraces ((anchoringEnd_of_lastJob hj hu hw hb hlast).trans (congrArg pumpStage hverdict)))

end Anchoring

section Verdict
variable {s : State} {uid : Nat} {u : Billet} {b : Binding} {bk : BankId} {stage : Bool} {r : Nat}

theorem anchorVerdict_of_headFails (hphase : u.phase = 1)
    (h : (headErr s b u.pages.flatten).orElse (fun _ => sigErr s b u.pages.flatten) = some r) :
    anchorVerdict s uid u b bk stage = settle (rejectBank (retire s uid) b bk r stage) b.ch := by
  simp only [anchorVerdict, hphase, if_true, h]

theorem anchorVerdict_of_headPasses (hphase : u.phase = 1)
    (h : (headErr s b u.pages.flatten).orElse (fun _ => sigErr s b u.pages.flatten) = none) :
    anchorVerdict s uid u b bk stage = hashEnq (setPhase s uid 2) (unitTier s u.work) uid 65 u.owner := by
  simp only [anchorVerdict, hphase, if_true, h]

theorem anchorVerdict_of_topFails (hphase : u.phase ≠ 1) (h : topErr b u.pages.flatten = some r) :
    anchorVerdict s uid u b bk stage = settle (rejectBank (retire s uid) b bk r stage) b.ch := by
  simp only [anchorVerdict, hphase, if_false, h]

theorem anchorVerdict_of_topPasses (hphase : u.phase ≠ 1) (h : topErr b u.pages.flatten = none) :
    anchorVerdict s uid u b bk false = wakeBank (settle (anchorEmbers
      (retire (anchorOk s b bk (headOf u.pages.flatten) u.pages.flatten false) uid) b bk (headOf u.pages.flatten)
      u.pages.flatten) b.ch) b.bind bk := by
  simp only [anchorVerdict, hphase, if_false, h, Bool.false_eq_true]

end Verdict

/-! The end of a data ember's check. -/

section Check
variable {s : State} {e : Fin 12} {j : HashJob} {u : Billet} {id : EmberId} {why : FillWhy} {f : Option Nat}
  {first : Option Digest}

theorem emberCheckEnd_of_parity (hj : engJob s e = some j) (hu : unitOf s j.billet = some u)
    (hw : u.work = .check id why f first) :
    emberCheckEnd s e none true = pumpStage (voidUnit (hashEnd s e) j.billet) := by
  simp only [emberCheckEnd, hj, hu, hw, if_true]

theorem unitJudge_of_check {b : Binding} {bk : BankId} {o : EmberObj} (uid : Nat) (hw : u.work = .check id why f first)
    (hobj : unitObj s u.work = some (b, bk, o)) :
    unitJudge s uid u =
      emberVerdict s b uid id why f first (unitData s u) (checkObj s b bk o (unitData s u) u.pages) := by
  rw [hw] at hobj
  simp only [unitJudge, hw, hobj]

/-- The last job of a check whose walk is complete: the compare, and what the unit has left to do where that left it alone. -/
theorem emberCheckEnd_of_lastJob (hj : engJob s e = some j) (hu : unitOf s j.billet = some u)
    (hw : u.work = .check id why f first) (hphase : u.phase = 2) (hlast : jobsLeft (hashEnd s e) j.billet = 0)
    (hready : bankReady (hashEnd s e) u.work = true) {t : State} (hjudge : unitJudge (hashEnd s e) j.billet u = t) :
    emberCheckEnd s e none false =
      pumpStage (if unitOf t j.billet = unitOf (hashEnd s e) j.billet then unitGo t j.billet else t) := by
  rw [hw] at hready
  simp only [emberCheckEnd, hj, hu, hw, hphase, hlast, hready, hjudge, Bool.false_eq_true, if_false, ne_eq, not_true_eq_false,
    and_self, if_true]

end Check

/-! The verdicts on an ember. -/

section Ember
variable {s s' : State} {b : Binding} {uid : Nat} {id : EmberId} {why : FillWhy} {f : Option Nat} {data : List Byte}

/-- A first mismatch is read again while its frame or its slot is still there (R112). -/
theorem emberVerdict_of_firstMismatch (d : Digest)
    (hplace : f.isSome = true ∨ (slotOf (foldVerdict s' true b.bind 1) id).isSome = true) :
    emberVerdict s b uid id why f none data (.mismatch s' d) =
      refetch (setPhase (dropPages (setWork (foldVerdict s' true b.bind 1) uid (.check id why f (some d))) uid) uid 0) uid id f := by
  refine if_neg fun ⟨hf, hslot⟩ => ?_
  rw [Option.isNone_iff_eq_none] at hf hslot
  simp [hf, hslot] at hplace

theorem emberVerdict_of_sameMismatch (d : Digest) :
    emberVerdict s b uid id why f (some d) data (.mismatch s' d) = clinker (foldVerdict s' true b.bind 1) id 1 false :=
  if_pos rfl

theorem emberVerdict_of_otherMismatch {d d₀ : Digest} (hne : d₀ ≠ d) :
    emberVerdict s b uid id why f (some d₀) data (.mismatch s' d) =
      clinker (siEvent (foldVerdict s' true b.bind 1) id.ch) id 2 false :=
  if_neg hne

end Ember

/-! The pass of an ember. -/

theorem setFrame_of_aget {s : State} {f : Nat} {x : Frame} (h : aget s.ec.frames f = some x) (g : Frame → Frame) :
    setFrame s f g = { s with ec := { s.ec with frames := aput s.ec.frames f (g x) } } := by
  simp only [setFrame, h]

/-- The pass of an ember of a serving bank that no slot waits for: its frame, VALID and pinned or not, and its billet are all
that change before the strict descriptors take note (R111, R120, R146). -/
theorem emberPass_of_serving {s : State} {id : EmberId} {f : Nat} {x : Frame} (uid : Nat) (hx : aget s.ec.frames f = some x)
    (hslot : slotOf s id = none) (hserves : isServing s id = true) :
    ∃ pin, emberPass s uid id (some f) = settle (strictPass (retire
      { s with ec := { s.ec with frames := aput s.ec.frames f { x with st := .valid, pin := pin } } } uid) id) id.ch := by
  unfold slotOf at hslot
  simp only [emberPass, hserves, if_true, setFrame_of_aget hx, Option.isSome_some, slotOf, retire, hslot]
  exact ⟨_, rfl⟩

/-- Settles O27: the end of each job by the verdict it leads to, and the frame of a pass by what stands at its key. -/
theorem checksEndAsTheirDigestsSay : Obligations.ChecksEndAsTheirDigestsSay := by
  refine ⟨fun e j u bind bk re b s hs hj hu hw hb hlast => ?anchoring, fun e j u bind bk re st b s hs hj hu hw hb => ?anchorParity,
    fun e j u id why f first b bk o s hs hj hu hw hphase hlast hready hobj => ?check,
    fun e j u id why f first s hs hj hu hw => ?checkParity,
    fun b uid id why f data s s' d => ⟨emberVerdict_of_firstMismatch d, emberVerdict_of_sameMismatch d,
      fun d₀ => emberVerdict_of_otherMismatch, fun p => rfl⟩,
    fun uid id f x s hx hrising hslot hserves => ?pass⟩
  case anchoring =>
    have ends {t : State} := exec_anchoring_of_lastJob (t := t) hs hj hu hw hb hlast
    exact ⟨fun r hphase h => ends (anchorVerdict_of_headFails hphase h),
      fun hphase h => ends (anchorVerdict_of_headPasses hphase h),
      fun r hphase h => ends (anchorVerdict_of_topFails hphase h),
      fun hphase h => ends (anchorVerdict_of_topPasses hphase h)⟩
  case anchorParity =>
    exact next_onLive hs (congrArg settleTraces (anchoringEnd_of_parity (s := parityCount s) (by rwa [parityCount_engJob])
      (by rwa [parityCount_unitOf]) hw (by rwa [parityCount_bindingOf])))
  case check =>
    exact next_onLive hs (congrArg (fun t => settleTraces (pumpBlocks t))
      (emberCheckEnd_of_lastJob hj hu hw hphase hlast hready (unitJudge_of_check j.billet hw hobj)))
  case checkParity =>
    exact next_onLive hs (congrArg (fun t => settleTraces (pumpBlocks t)) (emberCheckEnd_of_parity (s := parityCount s)
      (by rwa [parityCount_engJob]) (by rwa [parityCount_unitOf]) hw))
  case pass =>
    obtain ⟨pin, hpass⟩ := emberPass_of_serving uid hx hslot hserves
    refine ⟨_, _, hpass, rfl, ⟨{ x with st := .valid, pin := pin }, ?_, rfl, rfl, rfl⟩, fun g hg => ?_⟩
    · exact (aget_aput hrising f _ f).trans (if_pos rfl)
    · exact (aget_aput hrising f _ g).trans (if_neg hg)

end Sys2Proof.Machine
end

section
/-! Pre-emption, known-answer tests and the verification registers (R105, R117, R118, R127-R130), and the settling of O28. -/

namespace Sys2Proof.Machine

/-! Pre-emption. -/

/-- The job that ran on an engine returns to the head of its queue, with `n` blocks done (R117, R205). -/
def putBack (s : State) (r : EngRun) (n : Nat) : State :=
  match unitOf s r.job.billet with
  | some b =>
    let s := setRing s r.job.tier (arbPushFront (tierRing s r.job.tier)
      { id := r.job.billet, q := ownerQ b.owner, cost := r.job.cost - n, enq := r.job.enq } r.job.aged)
    let b := { b with st := .preempted, blocks := b.blocks + n }
    slotJob { s with bt := { s.bt with units := aput s.bt.units r.job.billet b } } r.job.billet .queued
  | none => s

/-- The job that is put back moves in the rings, the tracker and its slot. -/
theorem putBack_frame (s : State) (r : EngRun) (n : Nat) : ∃ ch bt t1 t2 t3,
    putBack s r n = { s with ch := ch, bt := bt, ve := { s.ve with tier1 := t1, tier2 := t2, tier3 := t3 } } := by
  unfold putBack
  split
  · next b _ =>
    obtain ⟨t1, t2, t3, hring⟩ := setRing_frame s r.job.tier (arbPushFront (tierRing s r.job.tier)
      { id := r.job.billet, q := ownerQ b.owner, cost := r.job.cost - n, enq := r.job.enq } r.job.aged)
    dsimp only
    rw [slotJob_frame, hring]
    exact ⟨_, _, _, _, _, rfl⟩
  · exact ⟨_, _, _, _, _, rfl⟩

theorem preemptAt_of_victim {e : Fin 12} {r : EngRun} {t : Nat} {ag : Bool} {j : HashJob} {i : QItem} {s s' : State}
    (hfree : freeEng s = none) (hnext : nextJob s = some (t, ag)) (hrun : s.ve.engines[e] = some r)
    (hvictim : preemptVictim s t ag = some e) (hpick : hashPick (reachTime s (blockEnd s r + 2)) = some (j, i, s')) :
    preemptAt s e = hashStart (putBack s' r ((blockEnd s r - r.startAt) / 32)) e j := by
  simp only [preemptAt, putBack, hfree, hnext, hrun, hvictim, hpick, if_true] <;> rfl

theorem preemptAt_of_idle {e : Fin 12} {s : State} (h : s.ve.engines[e] = none) : preemptAt s e = s := by
  unfold preemptAt
  rw [h]
  split
  · contradiction
  · rfl

/-- The job picked runs on the victim's engine; the other engines, the cache, the OTP array and the vault are as they were. -/
theorem hashStart_putBack_effect (s : State) (r : EngRun) (n : Nat) (e : Fin 12) (j : HashJob) :
    let v := hashStart (putBack s r n) e j
    (v.ve.engines[e]).map (·.job) = some j ∧ (∀ o : Fin 12, o ≠ e → v.ve.engines[o] = s.ve.engines[o]) ∧
      v.ec = s.ec ∧ v.otp = s.otp ∧ v.kv = s.kv := by
  intro v
  obtain ⟨ch, bt, pd, hstart⟩ := hashStart_frame (putBack s r n) e j
  obtain ⟨ch', bt', t1, t2, t3, hback⟩ := putBack_frame s r n
  have hv : v = _ := hstart
  rw [hback] at hv
  rw [hv]
  exact ⟨congrArg (Option.map EngRun.job) (Vector.getElem_set_self e.isLt),
    fun o ho => Vector.getElem_set_ne e.isLt o.isLt fun h => ho (Fin.ext h.symm), rfl, rfl, rfl⟩

/-! Registers of which an operation clears bits. -/

theorem getLsbD_clrBit {n i : Nat} (w : BitVec n) (j : Nat) (hi : i < n) :
    (clrBit w j).getLsbD i = (w.getLsbD i && !decide (i = j)) := by
  rcases Nat.lt_trichotomy i j with h | h | h
  · simp [clrBit, hi, h, h.ne]
  · subst h
    simp [clrBit, hi]
  · simp [clrBit, hi, h.not_gt, h.ne', Nat.sub_ne_zero_of_lt h]

/-- Steps that each clear their own bit of a register clear together the bits of their list. -/
theorem foldl_clrBit {n : Nat} {w : State → BitVec n} {f : State → Fin n → State}
    (hf : ∀ s i, w (f s i) = clrBit (w s) i.val) (l : List (Fin n)) (s : State) (i : Fin n) :
    (w (l.foldl f s)).getLsbD i.val = ((w s).getLsbD i.val && !decide (i ∈ l)) := by
  induction l generalizing s with
  | nil => simp
  | cons j l ih =>
    rw [List.foldl_cons, ih, hf, getLsbD_clrBit _ _ i.isLt]
    simp [Fin.ext_iff, Bool.and_assoc]

/-! Known-answer tests. -/

/-- A failed test takes its engine offline, and no other: the job that ran there goes back to tier 0's list or to its ring, and the
engine's own test ends (R118). -/
theorem katFail_engOnline (s : State) (e : Fin 12) : (katFail s e).ve.engOnline = clrBit s.ve.engOnline e.val := by
  have dropped : ∀ x, x.ve.engOnline = clrBit s.ve.engOnline e.val → (match katUnit x e with
      | some id => hashDrop (retire x id) id | none => x).ve.engOnline = clrBit s.ve.engOnline e.val := fun x hx => by
    split
    · rw [hashDrop_engOnline, retire_ve, hx]
    · exact hx
  unfold katFail
  rw [hashGrant_engOnline, veInt_engOnline, veRecord_engOnline]
  refine dropped _ ?_
  dsimp only
  split
  · rfl
  · split
    · rfl
    · split
      · rfl
      · split
        · simp
        · simp

/-- A failed test of an AES engine moves its job in the vault's ring alone: the hash engines stay online. -/
theorem aesKatFail_engOnline (s : State) (e : Fin 2) : (aesKatFail s e).ve.engOnline = s.ve.engOnline := by
  have dropped : ∀ x, x.ve.engOnline = s.ve.engOnline → (match aesKatUnit x e with
      | some id => aesDrop (retire x id) id | none => x).ve.engOnline = s.ve.engOnline := fun x hx => by
    split
    · rw [aesDrop_ve, retire_ve, hx]
    · exact hx
  unfold aesKatFail
  rw [aesGrant_ve, veInt_engOnline, veRecord_engOnline]
  refine dropped _ ?_
  dsimp only
  split
  · split
    · split
      · rfl
      · simp
    · rfl
  · rfl

/-- The state in which a round of tests is outstanding: the next one begins where none is (R118). -/
def katRound (s : State) : State :=
  if (unitsWhere s (fun u => match u.work with | .kat _ => true | _ => false)).isEmpty then katStart s else s

/-- The hash engines whose tests fail. -/
def katFailing (s : State) (hf : BitVec 12) : List (Fin 12) :=
  allEng.filter (fun e => hf.getLsbD e.val && s.ve.engOnline.getLsbD e.val && (katUnit s e).isSome)

theorem mem_katFailing {s : State} {hf : BitVec 12} {e : Fin 12} :
    e ∈ katFailing s hf ↔ (hf.getLsbD e.val && s.ve.engOnline.getLsbD e.val && (katUnit s e).isSome) = true := by
  simp only [katFailing, allEng, List.mem_filter, List.mem_finRange, true_and]

/-- Of the tests of a round only the failing ones change which hash engines are online. -/
theorem knownAnswer_engOnline (s : State) (hf : BitVec 12) (af : BitVec 2) :
    (knownAnswer s hf af).ve.engOnline = ((katFailing (katRound s) hf).foldl katFail (katRound s)).ve.engOnline := by
  unfold knownAnswer
  refine ((foldl_keeps (p := fun s => s.ve.engOnline) (fun s e => ?aesEnds) _ _).trans
    (foldl_keeps (p := fun s => s.ve.engOnline) aesKatFail_engOnline _ _)).trans
    (foldl_keeps (p := fun s => s.ve.engOnline) (fun s e => ?hashEnds) _ _)
  case aesEnds =>
    split
    · split
      · rw [retire_ve, aesEnd_ve]
      · rfl
    · rfl
  case hashEnds =>
    split
    · split
      · rw [retire_ve, hashEnd_engOnline]
      · rfl
    · rfl

/-- An engine is online after a round if it was before and its test has not failed (R118). -/
theorem knownAnswer_online (s : State) (hf : BitVec 12) (af : BitVec 2) (e : Fin 12) :
    (knownAnswer s hf af).ve.engOnline.getLsbD e.val = ((katRound s).ve.engOnline.getLsbD e.val &&
      !(hf.getLsbD e.val && (katUnit (katRound s) e).isSome)) := by
  rw [knownAnswer_engOnline, foldl_clrBit (w := fun s => s.ve.engOnline) katFail_engOnline]
  simp only [mem_katFailing, Bool.decide_eq_true]
  cases (katRound s).ve.engOnline.getLsbD e.val <;> simp only [Bool.false_and, Bool.true_and, Bool.and_true]

/-- A round that has taken an engine offline is a failing input of the pair (Table 15.7). -/
def katReported (s t : State) : State := if engCount t < engCount s then diagFail t 0 else t

theorem exec_knownAnswerTest {s : State} (hs : s.pd.inReset = false) (hf : BitVec 12) (af : BitVec 2) :
    exec (.knownAnswerTest hf af) s = .next (settleAll (katReported s (knownAnswer s hf af))) :=
  next_onLive hs rfl

theorem katReported_ve (s t : State) : (katReported s t).ve = t.ve := by
  unfold katReported
  split
  · obtain ⟨fb, pr, hdiag⟩ := diagFail_frame t 0
    rw [hdiag]
  · rfl

/-! The registers of the VE window. -/

theorem stageCheck_of_idle {s : State} {b : Binding} {bk : BankId} (hbank : bindInactive s b = some bk)
    (hidle : stageRunning s b.bind bk = false) (hlive : (bankRt s b.bind bk).st ≠ .revoked) :
    stageCheck s b = pumpStage (setBank s b.bind bk (fun r => { r with stageReq := true })) := by
  simp only [stageCheck, hbank, hidle, hlive, decide_false, Bool.or_self, Bool.false_eq_true, if_false]

theorem clistDrop_bind (s : State) (n : Nat) :
    clistDrop s (fun e => e.bind = n) = { s with ve := { s.ve with
      clist := s.ve.clist.filter (fun e => e.bind ≠ n)
      clistFull := s.ve.clistFull && decide (256 ≤ (s.ve.clist.filter (fun e => e.bind ≠ n)).length) } } := by
  simp only [clistDrop, ne_eq, decide_not]

theorem strictPend_ve (s : State) (c : Ch) (p : Fin 64 → Bool) : (strictPend s c p).ve = s.ve :=
  foldl_keeps (p := State.ve) (fun s _ => modCh_ve s c _) ..

theorem clkHoldClear_fixed (s : State) (c : Ch) : Fixed s (clkHoldClear s c) := by
  unfold clkHoldClear
  split
  · refine strictPend_fixed (Fixed.foldl (Fixed.refl s).mk' fun t b ht => Fixed.foldl ht fun t bk ht => ?_)
    split
    · exact setBank_fixed ht
    · exact ht
  · exact Fixed.refl s

/-- The hold of a channel clears, and no other; the banks that are anchored anew keep them (R127). -/
theorem clkHoldClear_clkHold (s : State) (c : Ch) : (clkHoldClear s c).ve.clkHold = clrBit s.ve.clkHold c.val := by
  unfold clkHoldClear
  split
  · rw [strictPend_ve]
    refine foldl_keeps (p := fun s => s.ve.clkHold) (fun s b => foldl_keeps (p := fun s => s.ve.clkHold) (fun s bk => ?_) _ s) _ _
    split <;> rfl
  · next h =>
    refine BitVec.eq_of_getLsbD_eq fun i hi => ?_
    rw [getLsbD_clrBit _ _ hi]
    by_cases hic : i = c.val
    · rw [hic, Bool.eq_false_of_not_eq_true h, Bool.false_and]
    · rw [decide_eq_false hic, Bool.not_false, Bool.and_true]

/-- VE_CLK_HOLD: the holds written 1 clear, and no OTP bit changes. -/
theorem eachBit_clkHoldClear_effect (s : State) (v : Word) :
    let u := eachBit v (fun s i => clkHoldClear s i) s
    u.ve.clkHold = s.ve.clkHold &&& ~~~v ∧ u.otp = s.otp := by
  intro u
  have hu : u = ((List.finRange 32).filter (fun i => v.getLsbD i.val)).foldl clkHoldClear s := List.foldl_filter.symm
  rw [hu]
  refine ⟨BitVec.eq_of_getLsbD_eq fun i hi => ?_, foldl_keeps (p := State.otp) (fun s c => (clkHoldClear_fixed s c).otp) ..⟩
  have hbits := foldl_clrBit (w := fun s => s.ve.clkHold) clkHoldClear_clkHold
    ((List.finRange 32).filter (fun i => v.getLsbD i.val)) s ⟨i, hi⟩
  rw [hbits]
  simp [hi]

theorem bindFloorWrite_of_selected {s : State} {m : Master} (h : (selOf s m).bind ≠ 0xFF) (v : Word) :
    bindFloorWrite s m v = if v.toNat ≤ ((aget s.ve.floors (selOf s m).bind.toNat).getD 0).toNat then s
      else { s with ve := { s.ve with floors := aput s.ve.floors (selOf s m).bind.toNat v } } := by
  have hne : (selOf s m).bind.toNat ≠ 0xFF := fun e => h (BitVec.eq_of_toNat_eq e)
  simp only [bindFloorWrite, hne, false_or]

/-! Scrub. -/

theorem scrubStep_of_off {s : State} (h : s.ve.scrubEn = false) (b : Nat) : scrubStep s b = s := by
  unfold scrubStep
  split
  · rfl
  · dsimp only
    split
    · rfl
    · split
      · rfl
      · simp [h]

theorem scrubStep_of_ready {b : Nat} {d : Binding} {bk : BankId} {id : EmberId} {n : Nat} {s u : State}
    (hon : s.ve.scrubEn = true) (hb : bindingOf s b = some d) (hperiod : d.scrubPeriod ≠ 0) (hbank : scrubBank s d = some bk)
    (hobj : objEmber s d bk ((scrubObj d (bankRt s b bk) (bankRt s b bk).scrubCur).getD (.man 0)) = some id)
    (hfree : flashBusy s id.fp false = false) (hfree' : flashBusy s id.fp true = false)
    (hidle : unitsWhere s (fun u => match u.work with | .scrub bi _ _ _ _ => bi = b | _ => false) = [])
    (hdraw : draw .bg (.ch d.ch) none false (.scrub b bk (bankRt s b bk).scrubCur id none) s = (some n, u)) :
    scrubStep s b = portEnq u id.fp n false := by
  unfold scrubStep
  simp only [hb, hbank, hobj]
  rw [if_neg, hdraw]
  have hrunning := congrArg (fun l => !l.isEmpty) hidle
  rintro (h | h | h | h | h)
  · exact absurd (hon ▸ h) (by decide)
  · exact hperiod h
  · exact absurd (h.symm.trans hrunning) (by decide)
  · exact absurd (hfree ▸ h) (by decide)
  · exact absurd (hfree' ▸ h) (by decide)

/-- Behind the gate, what changes nothing is the command's whole effect, in reset or out of it. -/
theorem next_onLive_of_fixed {s : State} {f : State → State} (h : f s = s) :
    (.next (onLive s f) : Host.Outcome State Fault Refusal) = .next s :=
  congrArg Host.Outcome.next (onLive_of_fixed h)

/-- Out of reset, a core's write of a register does what the register does. -/
theorem next_coreWrite {s u : State} {m : Core} {w : Nat} {closed : Bool} {f : State → State} (hs : s.pd.inReset = false)
    (h : f s = u) :
    (.next (onLive s fun s => wr s (.core m) w closed f) : Host.Outcome State Fault Refusal) = .next u :=
  next_onLive hs ((wr_of_mayWrite (mayWrite_core ..) f).trans h)

/-- Settles O28, command by command. -/
theorem verificationControls : Obligations.VerificationControls := by
  refine ⟨fun e r t ag j i s s' hs hfree hnext hrun hvictim hpick => ?preempt,
    fun e s h => next_onLive_of_fixed (preemptAt_of_idle h), fun hf af s hs => ?knownAnswers,
    fun m b bk s hs hb hbank hidle hlive => ?stage, fun m b s hs hb => ?clist,
    fun m v s hs => ⟨_, next_coreWrite hs rfl, eachBit_clkHoldClear_effect s v⟩,
    fun x v s => next_extWrite_closed s x 3 _, fun m v s hs hsel => next_coreWrite hs (bindFloorWrite_of_selected hsel v),
    fun b s h => next_onLive_of_fixed (scrubStep_of_off h b.val),
    fun b d bk id n s u hs hon hb hperiod hbank hobj hfree hfree' hidle hdraw =>
      next_onLive hs (scrubStep_of_ready hon hb hperiod hbank hobj hfree hfree' hidle hdraw)⟩
  case preempt =>
    exact ⟨_, next_onLive hs (preemptAt_of_victim hfree hnext hrun hvictim hpick), hashStart_putBack_effect ..⟩
  case knownAnswers =>
    refine ⟨_, exec_knownAnswerTest hs hf af, fun e => ?_⟩
    rw [katReported_ve]
    exact knownAnswer_online s hf af e
  case stage =>
    refine next_coreWrite hs (congrArg settleAll ?_)
    simp only [bindStageCheck, selBinding, hb]
    exact stageCheck_of_idle hbank hidle hlive
  case clist =>
    refine next_coreWrite hs ?_
    simp only [bindClistClear, selBinding, hb, clistDrop_bind]

end Sys2Proof.Machine
end

section
/-! The bank-set registers of the EC window (R151-R156), and the settling of O29. -/

namespace Sys2Proof.Machine

/-! The run-time record of a bank set. -/

/-- A change of a bank set's record that changes nothing there changes nothing. -/
theorem setBset_of_fixed {s : State} {c : Ch} {i : Fin 15} {f : BsetRt → BsetRt} (h : f s.ch[c].bset[i] = s.ch[c].bset[i]) :
    setBset s c i f = s := by
  have hset : s.ch[c].bset.set i s.ch[c].bset[i] = s.ch[c].bset := Vector.set_getElem_self i.isLt
  refine modCh_of_fixed ?_
  rw [h, hset]

/-- A flag whose bit is not written 1 stays. -/
theorem w1c_of_clear {v : Word} {i : Nat} (h : v.getLsbD i = false) (x : Bool) : w1c x v i = x := by
  rw [w1c, h, Bool.not_false, Bool.and_true]

/-! The operations on the selected bank set. -/

section Selected

variable {s : State} {m : Master} {c : Ch} {i : Fin 15} {b : BankSet}

theorem onBset_of_selected (hsel : selBset s m = some (c, i, b)) (f : State → Ch → Fin 15 → State) :
    onBset s m f = f s c i := by
  simp only [onBset, hsel]

/-- A request of a flip is refused (R152), waits for the host to be held, or is applied where it is (R153). -/
theorem flipReq_of_selected (hsel : selBset s m = some (c, i, b)) :
    flipReq s m =
      let pend := setBset s c i (fun r => { r with flipPend := true })
      if flipOk s c i then settle (if hostHeld s c then applyFlip pend c i else pend) c
      else setBset s c i (fun r => { r with reqRej := true }) :=
  onBset_of_selected hsel _

/-- A golden clear is refused under a clinker hold, waits for the host to be held, or is applied where it is (R154). -/
theorem goldClear_of_selected (hsel : selBset s m = some (c, i, b)) :
    goldClear s m =
      let pend := setBset s c i (fun r => { r with gclrPend := true })
      if s.ve.clkHold.getLsbD c.val then setBset s c i (fun r => { r with reqRej := true })
      else settle (if hostHeld s c then applyGclr (applyFlip pend c i) c i else pend) c :=
  onBset_of_selected hsel _

theorem bsetMapWrite_of_locked {v : Word} (hsel : selBset s m = some (c, i, b)) (hlock : s.ec.locked = true)
    (hrej : v.getLsbD 8 = false) (hfail : v.getLsbD 9 = false) : bsetMapWrite s m v = s := by
  simp only [bsetMapWrite, hsel, hlock, w1c_of_clear hrej, w1c_of_clear hfail, if_true]
  exact setBset_of_fixed rfl

theorem bsetMapWrite_of_unlocked {v : Word} (hsel : selBset s m = some (c, i, b)) (hlock : s.ec.locked = false)
    (hrej : v.getLsbD 8 = false) (hfail : v.getLsbD 9 = false) :
    bsetMapWrite s m v = setBset s c i (fun r => { r with activeB := v.getLsbD 2, goldSel := v.getLsbD 3 && b.g.isSome }) := by
  simp only [bsetMapWrite, hsel, hlock, w1c_of_clear hrej, w1c_of_clear hfail, Bool.false_eq_true, if_false]

end Selected

/-- Settles O29, register by register: each is a write of window 4 that finds the bank set selected. -/
theorem bankSetControls : Obligations.BankSetControls := by
  intro m c i b s hs hsel
  have flip {u : State} (h : flipReq s (.core m) = u) : exec (.flipReq (.core m)) s = .next u := next_coreWrite hs h
  have gold {u : State} (h : goldClear s (.core m) = u) : exec (.goldClear (.core m)) s = .next u := next_coreWrite hs h
  refine ⟨fun hno => flip ?flipRefused, fun hok hfree => flip ?flipWaits, fun hok hheld => flip ?flipApplied,
    next_coreWrite hs (onBset_of_selected hsel _),
    fun hclk => gold ?clearRefused, fun hclk hfree => gold ?clearWaits, fun hclk hheld => gold ?clearApplied,
    next_coreWrite hs (onBset_of_selected hsel _), next_coreWrite hs (onBset_of_selected hsel _),
    fun v => next_coreWrite hs rfl, fun x v => next_extWrite_closed s x 4 _,
    fun v hlock hrej hfail => next_coreWrite hs (bsetMapWrite_of_locked hsel hlock hrej hfail),
    fun v hlock hrej hfail => next_coreWrite hs (bsetMapWrite_of_unlocked hsel hlock hrej hfail)⟩
  case flipRefused => simp only [flipReq_of_selected hsel, hno, Bool.false_eq_true, if_false]
  case flipWaits => simp only [flipReq_of_selected hsel, hok, hfree, Bool.false_eq_true, if_true, if_false]
  case flipApplied => simp only [flipReq_of_selected hsel, hok, hheld, if_true]
  case clearRefused => simp only [goldClear_of_selected hsel, hclk, if_true]
  case clearWaits => simp only [goldClear_of_selected hsel, hclk, hfree, Bool.false_eq_true, if_false]
  case clearApplied => simp only [goldClear_of_selected hsel, hclk, hheld, Bool.false_eq_true, if_true, if_false]

end Sys2Proof.Machine
end

section
/-! Boot traces and their journals (R158, R159), the adaptation pass (R166-R170, R173), and the settling of O30. -/

namespace Sys2Proof.Machine

/-! The end of a trace's window. -/

/-- A recording that ends without being discarded is kept for its journal where it has 1,024 entries (R158, R159). -/
theorem endTrace_of_recording {s : State} {c : Ch} (h : s.ch[c].trace.recording = true) (how : Nat) :
    endTrace s c how false =
      let w := modCh s c (fun k => { k with trace := { k.trace with recording := false, ended := how, endAt := s.clk.now } })
      if 1024 ≤ s.ch[c].trace.entries.length then
        modCh w c (fun k => { k with trace := { k.trace with kept := k.trace.kept ++ [journalBytes w c] } })
      else w := by
  simp only [endTrace, h, Bool.not_false, true_and, if_true, modCh_ch_same]

theorem traceExpiry_of_recording {s : State} {c : Ch} (h : s.ch[c].trace.recording = true) :
    traceExpiry s c =
      endTrace (reachTime s (s.ch[c].trace.startAt + 500000 * (1000 * s.ch[c].cfg.adapt.traceWindow))) c 2 false :=
  if_pos h

theorem traceExpiry_of_stopped {s : State} {c : Ch} (h : s.ch[c].trace.recording = false) : traceExpiry s c = s :=
  if_neg (by rw [h]; decide)

/-! The write of a journal. -/

theorem journalWrite_of_none {s : State} {c : Ch} (h : s.ch[c].trace.kept = []) : journalWrite s c = s := by
  simp only [journalWrite, h]

theorem journalWrite_of_granted {s u v w : State} {c : Ch} {key b : List Byte} {rest : List (List Byte)} {id : Nat}
    (hkept : s.ch[c].trace.kept = b :: rest) (hkey : secretOf s 8 = some key)
    (hunit : journalUnit s c b.length = (some id, u)) (hdone : unitDone id 1 u = some v)
    (hgrant : osGrant (osAsk v (osJournalId c) 64 (b.length + 32)) (osJournalId c) = some w) :
    journalWrite s c = journalPut w c id b rest key := by
  simp only [journalWrite, hkept, hkey, hunit, hdone, hgrant]

/-- The grant of the own store's port changes the own store alone. -/
theorem osKick_frame (s : State) : osKick s = { s with os := (osKick s).os } := by
  unfold osKick
  split
  · rfl
  · split <;> rfl

@[simp] theorem osDequeue_ch (s : State) (id : Nat) : (osDequeue s id).ch = s.ch := by
  rw [osDequeue, osKick_frame]
  rfl

@[simp] theorem retire_ch (s : State) (id : Nat) : (retire s id).ch = s.ch := rfl

/-- Behind the write the journal's trace is no longer kept, and its slot is the newest (R159). -/
theorem journalPut_trace (s : State) (c : Ch) (id : Nat) (b : List Byte) (rest : List (List Byte)) (key : List Byte) :
    (journalPut s c id b rest key).ch[c].trace.kept = rest ∧
      (journalPut s c id b rest key).ch[c].trace.newest = (if s.ch[c].trace.newest = 1 then 2 else 1) := by
  simp only [journalPut, osDequeue_ch, retire_ch, modCh_ch_same, true_and]
  split <;> rfl

/-! The adaptation pass outside the channels. -/

/-- What no operation of a pass changes once the pass is counted: the pass counter, the clock and the OTP array. -/
def passParts (s : State) : Nat × Clk × List Host.Cell := (s.ec.passes, s.clk, s.otp)

theorem ecRecord_frame (s : State) (c : Ch) (kind arg old new : Nat) (essential : Bool) :
    ∃ l i, ecRecord s c kind arg old new essential = { s with ec := { s.ec with log := l, intSts := i } } := by
  unfold ecRecord
  dsimp only
  split
  · split <;> exact ⟨_, _, rfl⟩
  · split <;> exact ⟨_, _, rfl⟩

theorem notify_frame (s : State) (n : PairNotice) : ∃ fb pr, notify s n = { s with fb := fb, pr := pr } := by
  unfold notify
  split
  · exact sendOn_frame ..
  · exact ⟨_, _, rfl⟩

@[simp] theorem ecRecord_passParts (s : State) (c : Ch) (kind arg old new : Nat) (essential : Bool) :
    passParts (ecRecord s c kind arg old new essential) = passParts s := by
  obtain ⟨l, i, h⟩ := ecRecord_frame s c kind arg old new essential
  rw [h]
  rfl

@[simp] theorem notify_passParts (s : State) (n : PairNotice) : passParts (notify s n) = passParts s := by
  obtain ⟨fb, pr, h⟩ := notify_frame s n
  rw [h]
  rfl

@[simp] theorem modCh_passParts (s : State) (c : Ch) (f : Chan → Chan) : passParts (modCh s c f) = passParts s := rfl
@[simp] theorem ecInt_passParts (s : State) (i : Nat) : passParts (ecInt s i) = passParts s := rfl
@[simp] theorem retire_passParts (s : State) (id : Nat) : passParts (retire s id) = passParts s := rfl

/-- A draw changes the tracker alone. -/
theorem draw_frame (k : BilletClass) (o : Owner) (parent : Option Nat) (prov : Bool) (w : Work) (s : State) :
    (draw k o parent prov w s).2 = { s with bt := (draw k o parent prov w s).2.bt } := by
  unfold draw
  dsimp only
  repeat' split
  all_goals rfl

theorem draw_passParts {k : BilletClass} {o : Owner} {parent r : Option Nat} {prov : Bool} {w : Work} {s u : State}
    (e : draw k o parent prov w s = (r, u)) : passParts u = passParts s := by
  have hu : u = _ := (congrArg Prod.snd e).symm.trans (draw_frame ..)
  rw [hu]
  rfl

@[simp] theorem setQuota_passParts (s : State) (c : Ch) (q : Nat) : passParts (setQuota s c q) = passParts s := by
  simp only [setQuota, notify_passParts, ecRecord_passParts, modCh_passParts]

@[simp] theorem setDiv_passParts (s : State) (c : Ch) (d : Nat) : passParts (setDiv s c d) = passParts s := by
  simp only [setDiv, notify_passParts, ecRecord_passParts, ecInt_passParts, modCh_passParts]

theorem quotaMoves_passParts (el : List Ch) (n : Nat) (got gave : List Ch) (s : State) :
    passParts (quotaMoves el n got gave s) = passParts s := by
  induction n generalizing got gave s with
  | zero => rfl
  | succ n ih =>
    unfold quotaMoves
    dsimp only
    repeat' split
    all_goals simp only [ih, setQuota_passParts]

theorem adaptDepth_passParts (s : State) (c : Ch) : passParts (adaptDepth s c) = passParts s := by
  simp only [adaptDepth, apply_ite passParts, notify_passParts, ecRecord_passParts, modCh_passParts, ite_self]

theorem adaptClock_passParts (s : State) (c : Ch) : passParts (adaptClock s c) = passParts s := by
  simp only [adaptClock, apply_ite passParts, setDiv_passParts, modCh_passParts, ite_self]

/-- The changes of a pass that found its billet: quotas (R167), depths (R168) and clocks (R169). -/
def passChanges (s : State) : State :=
  let s := quotaMoves (allCh.filter (fun c => adaptable s c && s.ch[c].cfg.adapt.onQuota)) 8 [] [] s
  let s := (allCh.filter (fun c => adaptable s c && s.ch[c].cfg.adapt.onDepth)).foldl adaptDepth s
  (allCh.filter (fun c => adaptable s c && s.ch[c].cfg.adapt.onClock)).foldl adaptClock s

theorem passChanges_passParts (s : State) : passParts (passChanges s) = passParts s :=
  (foldl_keeps adaptClock_passParts _ _).trans ((foldl_keeps adaptDepth_passParts _ _).trans (quotaMoves_passParts ..))

/-! The new interval of every channel (R166). -/

/-- A channel's counts of its pass stand at the start of an interval. -/
def AtIntervalStart (k : Chan) : Prop := k.siPass = 0 ∧ k.pfIssued = 0 ∧ k.pfUsed = 0 ∧ k.lastMiss = k.cntMiss

theorem modCh_ch_ne (s : State) {c d : Ch} (f : Chan → Chan) (h : d ≠ c) : (modCh s c f).ch[d] = s.ch[d] :=
  Vector.getElem_set_ne c.isLt d.isLt (fun e => h (Fin.ext e.symm))

theorem nextInterval_same (s : State) (c : Ch) : AtIntervalStart (nextInterval s c).ch[c] := by
  rw [nextInterval, modCh_ch_same]
  exact ⟨rfl, rfl, rfl, rfl⟩

theorem nextInterval_keeps {s : State} {c : Ch} (h : AtIntervalStart s.ch[c]) (d : Ch) :
    AtIntervalStart (nextInterval s d).ch[c] := by
  by_cases hcd : c = d
  · exact hcd ▸ nextInterval_same s c
  · rw [nextInterval, modCh_ch_ne s _ hcd]
    exact h

/-- What the step of a channel establishes and the steps of the others keep holds behind the steps of all channels. -/
theorem forCh_establishes {P : State → Prop} {f : State → Ch → State} {c : Ch} (hset : ∀ s, P (f s c))
    (hkeep : ∀ s d, P s → P (f s d)) (s : State) : P (forCh s f) := by
  obtain ⟨before, after, hall⟩ := List.append_of_mem (List.mem_finRange c)
  rw [forCh, allCh, hall, List.foldl_append, List.foldl_cons]
  exact List.foldlRecOn after f (hset _) fun t ht d _ => hkeep t d ht

theorem intervals_start (s : State) (c : Ch) : AtIntervalStart (forCh s nextInterval).ch[c] :=
  forCh_establishes (P := fun t => AtIntervalStart t.ch[c]) (nextInterval_same · c) (fun _ d h => nextInterval_keeps h d) s

theorem intervals_passParts (s : State) : passParts (forCh s nextInterval) = passParts s :=
  foldl_keeps (fun s c => modCh_passParts s c _) allCh s

/-! The adaptation pass. -/

/-- The pass is counted at its due time, 100 ms behind the one before, at the earliest (R166). -/
def passCounted (s : State) : State :=
  let v := reachTime s (s.clk.lockAt + 50000000 * (s.ec.passes + 1))
  { v with ec := { v.ec with passes := v.ec.passes + 1 } }

theorem passDue (n : Nat) : msCyc (100 * n) = 50000000 * n := by
  unfold msCyc
  omega

theorem adaptPass_of_unlocked {s : State} (hlocked : s.st.state ≠ .locked) (hrestr : s.st.state ≠ .restructuring) :
    adaptPass s = s :=
  if_neg (not_or.mpr ⟨hlocked, hrestr⟩)

/-- In the banked unit the pass makes the partner's changes and none of its own (R173). -/
theorem adaptPass_of_banked {s : State} (h : s.st.state = .locked ∨ s.st.state = .restructuring) (hbanked : isBanked s = true) :
    adaptPass s = forCh (applyAdapts (passCounted s)) nextInterval := by
  unfold adaptPass
  rw [if_pos h, passDue]
  exact if_pos hbanked

/-- The counted pass of a unit that makes its own changes: with a billet for it (R166), and without. -/
def ownPass (s : State) : State :=
  match draw .bg .hearth none false .adapt s with
  | (none, u) => forCh u nextInterval
  | (some id, u) => settleAll (forCh (retire (passChanges u) id) nextInterval)

theorem adaptPass_of_burning {s : State} (h : s.st.state = .locked ∨ s.st.state = .restructuring) (hburn : isBanked s = false) :
    adaptPass s = ownPass (passCounted s) := by
  have hown : ¬ isBanked (passCounted s) = true := ne_true_of_eq_false hburn
  unfold adaptPass
  rw [if_pos h, passDue]
  exact if_neg hown

/-- Behind its changes, if any, an interval of every channel starts. -/
theorem ownPass_ends (s : State) :
    ∃ u, passParts u = passParts s ∧ (ownPass s = forCh u nextInterval ∨ ownPass s = settleAll (forCh u nextInterval)) := by
  unfold ownPass
  split
  · next u e => exact ⟨u, draw_passParts e, .inl rfl⟩
  · next id u e =>
    refine ⟨retire (passChanges u) id, ?_, .inr rfl⟩
    rw [retire_passParts, passChanges_passParts, draw_passParts e]

/-- Settles O30, command by command; every pass ends with a new interval of every channel. -/
theorem tracesAndAdaptation : Obligations.TracesAndAdaptation := by
  refine ⟨fun c s hs h => next_onLive hs ((traceExpiry_of_recording h).trans (endTrace_of_recording (s := reachTime s _) h 2)),
    fun c s h => next_onLive_of_fixed (traceExpiry_of_stopped h),
    fun c s hs h => next_onLive hs (congrArg settleAll (journalWrite_of_none h)),
    fun c key b rest id s u v w hs hkept hkey hunit hdone hgrant =>
      ⟨next_onLive hs (congrArg settleAll (journalWrite_of_granted hkept hkey hunit hdone hgrant)), journalPut_trace ..⟩,
    fun s hs hlocked hrestr => next_onLive hs (congrArg settleAll (adaptPass_of_unlocked hlocked hrestr)),
    fun s hs h => ⟨fun hbanked => next_onLive hs (congrArg settleAll (adaptPass_of_banked h hbanked)), fun hburn => ?burning⟩⟩
  case burning =>
    obtain ⟨u, hparts, hpass⟩ := ownPass_ends (passCounted s)
    rw [← adaptPass_of_burning h hburn] at hpass
    obtain ⟨hpasses, hrest⟩ := Prod.mk.inj ((intervals_passParts u).trans hparts)
    obtain ⟨hclk, hotp⟩ := Prod.mk.inj hrest
    exact ⟨forCh u nextInterval,
      hpass.imp (fun e => next_onLive hs (congrArg settleAll e)) (fun e => next_onLive hs (congrArg settleAll e)),
      hpasses, congrArg Clk.now hclk, hotp, intervals_start u⟩

end Sys2Proof.Machine
end

section
/-! Whatever opens the hash bank grants it again, and the job granted may be another unit's (R116, R117): the check that then starts
moves its provisional slot to HASHING (R123). The settling of O31. -/

namespace Sys2Proof.Machine

/-! A slot that is HASHING stays so through every grant. -/

/-- A slot of the channel is HASHING (R123). -/
def HasHashing (s : State) (c : Ch) : Prop := ∃ x ∈ s.ch[c].slots, x.st = .hashing

theorem HasHashing.of_ch {s t : State} {c : Ch} (h : HasHashing s c) (hch : t.ch = s.ch) : HasHashing t c := by
  unfold HasHashing
  rw [hch]
  exact h

theorem slotTo_slots (s : State) (id : EmberId) (st : SlotSt) :
    (slotTo s id st).ch[id.ch].slots =
      s.ch[id.ch].slots.map (fun x => if sameEmber x.id id then ⟨x.id, st, x.opened, x.desc, x.billet⟩ else x) := by
  rw [slotTo, modCh_ch_same]

/-- The move of another slot, or of this one, to HASHING leaves it so. -/
theorem HasHashing.slotTo {s : State} {c : Ch} (h : HasHashing s c) (id : EmberId) : HasHashing (slotTo s id .hashing) c := by
  obtain ⟨x, hx, hst⟩ := h
  by_cases hc : c = id.ch
  · subst hc
    refine ⟨_, slotTo_slots s id .hashing ▸ List.mem_map_of_mem hx, ?_⟩
    split
    · rfl
    · exact hst
  · exact ⟨x, (modCh_ch_ne s _ hc).symm ▸ hx, hst⟩

theorem HasHashing.hashStart {s : State} {c : Ch} (h : HasHashing s c) (e : Fin 12) (j : HashJob) :
    HasHashing (hashStart s e j) c := by
  have hunit : HasHashing (setUnitSt s j.billet .running) c := h.of_ch (by rw [setUnitSt_frame])
  have hjob : HasHashing (slotJob (setUnitSt s j.billet .running) j.billet .hashing) c := by
    unfold slotJob
    split
    · split
      · exact hunit.slotTo _
      · exact hunit
    · exact hunit
  exact hjob.of_ch rfl

theorem hashPick_ch {s u : State} {j : HashJob} {i : QItem} (h : hashPick s = some (j, i, u)) : u.ch = s.ch := by
  unfold hashPick at h
  split at h
  case h_1 => cases h; rfl
  case h_2 =>
    dsimp only at h
    split at h
    · cases h
    · split at h
      · cases h
      · cases h
        obtain ⟨_, _, _, hring⟩ := setRing_frame (ageRings s) _ _
        rw [hring]
        rfl

theorem HasHashing.hashGrant {c : Ch} (n : Nat) {s : State} (h : HasHashing s c) : HasHashing (hashGrant n s) c := by
  induction n generalizing s with
  | zero => exact h
  | succ n ih =>
    unfold Machine.hashGrant
    split
    · exact h
    · split
      · exact h
      · next hpick => exact ih ((h.of_ch (hashPick_ch hpick)).hashStart ..)

/-! The grant of the first job of tier 0. -/

theorem hashPick_of_tier0 {s : State} {j : HashJob} {rest : List HashJob} (h : s.ve.tier0 = j :: rest) :
    hashPick s = some (j, { id := j.billet, q := 0, cost := j.cost, enq := j.enq },
      { s with ve := { s.ve with tier0 := rest } }) := by
  simp only [hashPick, h]

theorem aget_aput_self {β : Type} (l : List (Nat × β)) (k : Nat) (v : β) : aget (aput l k v) k = some v := by
  induction l with
  | nil => simp [aput, aget]
  | cons a t ih =>
    unfold aput
    split
    · simp [aget]
    · split
      · simp [aget]
      · next hlt hne => simp [aget, Ne.symm hne, hlt, ih]

theorem unitOf_setUnitSt {s : State} {uid : Nat} {b : Billet} (h : unitOf s uid = some b) (x : BilletSt) :
    unitOf (setUnitSt s uid x) uid = some { b with st := x } := by
  simp only [setUnitSt, h]
  exact aget_aput_self ..

/-- The unit's job is the check of an ember for which a slot is open. -/
def ChecksSlot (s : State) (id : EmberId) (uid : Nat) : Prop :=
  (∃ b why f d, unitOf s uid = some b ∧ b.work = .check id why f d) ∧ ∃ x ∈ s.ch[id.ch].slots, sameEmber x.id id = true

theorem hashStart_of_check {s : State} {id : EmberId} {j : HashJob} (h : ChecksSlot s id j.billet) (e : Fin 12) :
    HasHashing (hashStart s e j) id.ch := by
  obtain ⟨⟨b, why, f, d, hunit, hwork⟩, x, hx, hsame⟩ := h
  have hslot : x ∈ (setUnitSt s j.billet .running).ch[id.ch].slots := by rw [setUnitSt_frame]; exact hx
  have hjob : slotJob (setUnitSt s j.billet .running) j.billet .hashing =
      slotTo (setUnitSt s j.billet .running) id .hashing := by
    simp only [slotJob, unitOf_setUnitSt hunit, hwork]
  have hstart : HasHashing (slotTo (setUnitSt s j.billet .running) id .hashing) id.ch :=
    ⟨_, slotTo_slots (setUnitSt s j.billet .running) id .hashing ▸ List.mem_map_of_mem hslot, by rw [if_pos hsame]⟩
  exact hstart.of_ch (show (slotJob _ _ _).ch = _ from congrArg State.ch hjob)

theorem hashGrant_starts_check {s : State} {id : EmberId} {j : HashJob} {rest : List HashJob} {e : Fin 12}
    (hfree : freeEng s = some e) (htier : s.ve.tier0 = j :: rest) (hcheck : ChecksSlot s id j.billet) (n : Nat) :
    HasHashing (hashGrant (n + 1) s) id.ch := by
  simp only [hashGrant, hfree, hashPick_of_tier0 htier]
  exact (hashStart_of_check (s := { s with ve := { s.ve with tier0 := rest } }) hcheck _).hashGrant n

/-! A load that is rejected while a check waits for the engine its signature holds. -/

/-- An ember of channel 1. -/
def waitingEmber : EmberId := { ch := 1, fp := 1, cs := false, fen := 0, vem := 0, bind := 0, bank := .a }

/-- The first billet of channel 1's verification reservation checks it. -/
def waitingCheck : Billet :=
  { st := .waiting, cls := .ver, owner := .ch 1, src := .reservation, parent := none, drawn := 0
    work := .check waitingEmber .demand none none }

/-- A unit of the hearth with a job on an engine. -/
def runningUnit (w : Work) : Billet :=
  { st := .running, cls := .ver, owner := .hearth, src := .pool, parent := none, drawn := 0, work := w }

/-- Out of reset, with engine 0 alone on line: it runs a job of that work and tier, and the check waits behind it, its slot QUEUED. -/
def checkWaits (w : Work) (tier : Nat) : State :=
  let s := modCh State.reset 1 (fun k => { k with
    slots := [{ id := waitingEmber, st := .queued, opened := 0, desc := 0, billet := 34 }] })
  { s with
    pd := { s.pd with inReset := false }
    bt := { s.bt with units := [(34, waitingCheck), (1024, runningUnit w)] }
    ve := { s.ve with
      engOnline := 1#12, tier0 := [{ billet := 34, tier := 0, cost := 65, aged := false, enq := 0 }]
      engines := s.ve.engines.set 0 (some { job := { billet := 1024, tier := tier, cost := 65, aged := false, enq := 0 }, startAt := 0 }) } }

theorem checkWaits_slots (w : Work) (tier : Nat) : ¬ HasHashing (checkWaits w tier) 1 := by
  rintro ⟨x, hx, hst⟩
  obtain rfl := List.mem_singleton.mp hx
  exact absurd hst (by decide)

theorem dropWork_of_one {s : State} {w : Work} {uid : Nat} (h : unitsWhere s (fun u => u.work = w) = [uid]) :
    dropWork s w = hashDrop (retire s uid) uid := by
  rw [dropWork, h]
  rfl

/-- The rejection drops the job of the image's signature, and the check starts on its engine. -/
theorem loadReject_starts_check : HasHashing (loadReject (checkWaits .image 2) 0 0 0) 1 := by
  have hdrop : HasHashing (dropWork (checkWaits .image 2) .image) 1 := by
    rw [dropWork_of_one (uid := 1024) (by decide)]
    exact hashGrant_starts_check (id := waitingEmber) (e := 0) (by decide +kernel) rfl
      ⟨⟨waitingCheck, _, _, _, rfl, rfl⟩, _, List.mem_singleton_self _, rfl⟩ 11
  exact hdrop.of_ch rfl

/-- Refutes O31: a load that is rejected while the job of its signature holds the only engine leaves the engine to a check of
channel 1, whose slot becomes HASHING, so that the channels are not as they were. -/
theorem not_loaderMovesThroughItsStates : ¬ Obligations.LoaderMovesThroughItsStates := by
  rintro ⟨-, -, -, -, -, -, -, -, hreject, -⟩
  obtain ⟨-, hch, -⟩ := hreject 0 0 0 (checkWaits .image 2)
  exact checkWaits_slots .image 2 (loadReject_starts_check.of_ch hch.symm)

end Sys2Proof.Machine
end

section
/-! The start of a restructure (R190, R196) on a device whose hash bank has an engine to grant, and the settling of O32. -/

namespace Sys2Proof.Machine

/-! An image in shared RAM (R190). -/

theorem memRead_length (d : Byte) (m : List Host.Cell) (a n : Nat) : (memRead d m a n).length = n := by
  induction n generalizing a with
  | zero => rfl
  | succ n ih => exact congrArg (· + 1) (ih (a + 1))

theorem memRead_getElem {d : Byte} {m : List Host.Cell} {a n i : Nat} (h : i < (memRead d m a n).length) :
    (memRead d m a n)[i] = memGet d m (a + i) := by
  induction n generalizing a i with
  | zero => exact absurd h (Nat.not_lt_zero i)
  | succ n ih =>
    cases i with
    | zero => rfl
    | succ i => simp only [memRead, List.getElem_cons_succ, ih, Nat.add_assoc, Nat.add_comm 1]

/-- What was written is read back, as far as the read goes. -/
theorem memRead_memWrite {d : Byte} {m : List Host.Cell} (hm : memWf d m = true) (a : Nat) {bs : List Byte} {n : Nat}
    (hn : n ≤ bs.length) : memRead d (memWrite d m a bs) a n = bs.take n := by
  refine List.ext_getElem (by simp [memRead_length, hn]) fun i hi _ => ?_
  rw [memRead_length] at hi
  have hlen : i < bs.length := Nat.lt_of_lt_of_le hi hn
  rw [memRead_getElem, memGet_memWrite hm, if_pos ⟨Nat.le_add_right a i, Nat.add_lt_add_left hlen a⟩]
  simp [hlen]

/-- An image that stands whole in shared RAM where SRC names it is captured whole. -/
theorem captureImage_of_ram {s : State} {img : List Byte} {a : Nat} (hsrc : s.st.srcRam = true) (halign : s.st.src.toNat % 4 = 0)
    (ha : sharedBase + s.st.src.toNat = a) (hram : s.he.ram = memWrite 0 [] a img) (hfits : s.st.src.toNat + img.length ≤ sharedSize)
    (hlen : imgLen (img.take 128) = img.length) (hmin : 136 ≤ img.length) (hmax : img.length ≤ 262144) :
    captureImage s = img := by
  have read {n : Nat} (hn : n ≤ img.length) : ramRead s (sharedBase + s.st.src.toNat) n = img.take n := by
    rw [ramRead, ha, hram, memRead_memWrite (memWf_nil 0) _ hn]
  have hhead : s.st.src.toNat + 128 ≤ sharedSize := by omega
  simp [captureImage, hsrc, halign, hhead, read (show 128 ≤ img.length by omega), hlen, hfits, read (Nat.le_refl _),
    Nat.not_lt.mpr hmin, Nat.not_lt.mpr hmax]

/-! The start of a restructure. -/

/-- The image of the channel selected is taken up for a restructure (R196). -/
def rsBegun (s : State) : State :=
  { s with st := { s.st with state := .restructuring, rsTarget := s.st.rsCh, rsBusy := true, stage := captureImage s } }

theorem rsBegun_stage (s : State) : (rsBegun s).st.stage = captureImage s := rfl

/-- A start that nothing refuses, without a key for the mirror, goes on to the image's signature. -/
theorem rsStart_of_keyless {s : State} (hlocked : s.st.state = .locked) (hheld : hostHeld s s.st.rsCh = true)
    (hcan : s.st.hdr.restruct.getLsbD s.st.rsCh.val = true) (hbusy : s.st.rsBusy = false) (hadv : s.st.advancing = false)
    (hraw : rawInUse s s.st.rsCh (parseChan (sectsOf (captureImage s)) s.st.rsCh) = false) (hkey : secretOf s 9 = none) :
    rsStart s = sigStart (rsBegun s) := by
  have hmirror : mirrorSync (rsBegun s) = rsBegun s := if_pos (by rw [show secretOf (rsBegun s) 9 = none from hkey]; rfl)
  rw [rsStart, if_neg (not_not_intro hlocked), if_neg (by rw [hheld]; decide), if_neg (by rw [hcan]; decide),
    if_neg (by rw [hbusy, hadv, hraw]; decide)]
  refine congrArg sigStart (show (if _ then mirrorSync (rsBegun s) else rsBegun s) = _ from ?_)
  rw [hmirror, ite_self]

/-- A signature to check, and a billet for it, enter jobs of tier 2. -/
theorem sigStart_of_drawn {s u : State} {uid : Nat} (hwork : sigWork s = true)
    (hidle : unitsWhere s (fun u => u.work = .image) = []) (hdraw : draw .ver .hearth none false .image s = (some uid, u)) :
    ∃ costs, sigStart s = hashJobs u 2 uid costs .hearth :=
  ⟨_, by rw [sigStart, if_pos ⟨hwork, by rw [hidle]; rfl⟩, hdraw]⟩

/-! Jobs that enter a ring leave the grant to what waits in tier 0. -/

theorem hashPut_ring_frame {t : Nat} (ht : t ≠ 0) (uid : Nat) (o : Owner) (costs : List Nat) (s : State) : ∃ t1 t2 t3,
    costs.foldl (fun s c => hashPut s t uid c o) s = { s with ve := { s.ve with tier1 := t1, tier2 := t2, tier3 := t3 } } := by
  induction costs generalizing s with
  | nil => exact ⟨_, _, _, rfl⟩
  | cons c costs ih =>
    obtain ⟨_, _, _, hput⟩ := setRing_frame s t (arbPush (tierRing s t) { id := uid, q := ownerQ o, cost := c, enq := s.clk.now })
    obtain ⟨t1, t2, t3, hrest⟩ := ih (hashPut s t uid c o)
    refine ⟨t1, t2, t3, hrest.trans ?_⟩
    rw [hashPut, if_neg ht, hput]

theorem hashPut_ring_starts_check {s : State} {id : EmberId} {j : HashJob} {rest : List HashJob} {e : Fin 12} {t : Nat}
    (ht : t ≠ 0) (hfree : freeEng s = some e) (htier : s.ve.tier0 = j :: rest) (hcheck : ChecksSlot s id j.billet)
    (uid : Nat) (costs : List Nat) (o : Owner) (n : Nat) :
    HasHashing (hashGrant (n + 1) (costs.foldl (fun s c => hashPut s t uid c o) s)) id.ch := by
  obtain ⟨t1, t2, t3, hput⟩ := hashPut_ring_frame ht uid o costs s
  rw [hput]
  exact hashGrant_starts_check (s := { s with ve := { s.ve with tier1 := t1, tier2 := t2, tier3 := t3 } }) hfree htier hcheck n

theorem hashJobs_starts_check {s : State} {id : EmberId} {j : HashJob} {rest : List HashJob} {e : Fin 12} {t uid : Nat}
    (ht : t ≠ 0) (hfree : freeEng (setUnitSt (treeRoll s) uid .waiting) = some e)
    (htier : (setUnitSt (treeRoll s) uid .waiting).ve.tier0 = j :: rest)
    (hcheck : ChecksSlot (setUnitSt (treeRoll s) uid .waiting) id j.billet) (costs : List Nat) (o : Owner) :
    HasHashing (hashJobs s t uid costs o) id.ch :=
  hashPut_ring_starts_check ht hfree htier hcheck uid costs o 11

/-! A restructure that starts when the job of an LMS tree has ended. -/

/-- An HSS key of one level, of 32-byte nodes, with nothing behind its types. -/
def blankKey : List Byte := beBytes 4 1 ++ beBytes 4 5 ++ beBytes 4 4 ++ List.replicate 48 0

/-- A signature of that key's types and length, of a leaf its tree does not have. -/
def leaflessSig : List Byte :=
  beBytes 4 0 ++ beBytes 4 0xFFFFFFFF ++ beBytes 4 4 ++ List.replicate 1120 0 ++ beBytes 4 5 ++ List.replicate 160 0

/-- An image without sections: its header (Table 6.1) passes its checks, and its signature does not verify. -/
def blankImage : List Byte :=
  beBytes 4 0x545A5349 ++ beBytes 2 1 ++ beBytes 2 128 ++ beBytes 4 1432 ++ beBytes 4 136 ++ beBytes 2 0 ++ beBytes 2 0x3208 ++
    List.replicate 20 0 ++ blankKey ++ List.replicate 36 0 ++ leaflessSig

/-- Locked, channel 0 open to a restructure to that image, whose key is generation 0's; the job of an LMS tree on the only engine
has just ended, and the check of channel 1 waits for it. -/
def treeEnded : State :=
  let s := checkWaits (.tree 0) 3
  { s with
    clk := { s.clk with now := 32 * 65 }
    st := { s.st with state := .locked, srcRam := true, hdr := { s.st.hdr with restruct := 1 } }
    he := { s.he with ram := memWrite 0 [] sharedBase blankImage }
    otp := memWrite 0 (memWrite 0 [(genBase 0 + 0x68, 1)] (genBase 0 + 0x60) (seedChk (List.replicate 32 0))) (genBase 0 + 0x20)
      (digBytes (sha256 blankKey)) }

theorem blankImage_length : blankImage.length = 1432 := by decide +kernel
theorem blankImage_imgLen : imgLen (blankImage.take 128) = 1432 := by decide +kernel

theorem treeEnded_ram : treeEnded.he.ram = memWrite 0 [] sharedBase blankImage := by dsimp only [treeEnded]

theorem treeEnded_image : captureImage treeEnded = blankImage := by
  have hlen : imgLen (blankImage.take 128) = blankImage.length := blankImage_imgLen.trans blankImage_length.symm
  refine captureImage_of_ram (s := treeEnded) (a := sharedBase) rfl rfl rfl treeEnded_ram ?_ hlen ?_ ?_
  · rw [blankImage_length]; decide
  · rw [blankImage_length]; decide
  · rw [blankImage_length]; decide

/-- No port of channel 0 is lent, in its tables or in the image's. -/
theorem treeEnded_raw : rawInUse treeEnded treeEnded.st.rsCh
    (parseChan (sectsOf (captureImage treeEnded)) treeEnded.st.rsCh) = false := by
  rw [treeEnded_image]
  decide +kernel

/-- The header holds, and the signature, of the right types and length, goes to the hash bank. -/
theorem treeEnded_sigWork : sigWork (rsBegun treeEnded) = true := by
  have hstage : (rsBegun treeEnded).st.stage = blankImage := (rsBegun_stage _).trans treeEnded_image
  have hhead : headerErrs (rsBegun treeEnded) blankImage = [] := by decide +kernel
  have hsig : signatureErr blankImage = some (136, 0, 8) := by decide +kernel
  rw [sigWork, hstage, hhead, hsig]
  rfl

/-- The state in which the signature has its billet. -/
def signatureDrawn : State := (draw .ver .hearth none false .image (rsBegun treeEnded)).2

theorem signatureDrawn_uid : draw .ver .hearth none false .image (rsBegun treeEnded) = (some 1025, signatureDrawn) :=
  Prod.ext (show _ = some 1025 by decide +kernel) rfl

/-- The tree's engine is free again, and the check of channel 1 is the next job. -/
theorem signatureDrawn_next :
    let v := setUnitSt (treeRoll signatureDrawn) 1025 .waiting
    freeEng v = some 0 ∧ v.ve.tier0 = [{ billet := 34, tier := 0, cost := 65, aged := false, enq := 0 }] ∧
      unitOf v 34 = some waitingCheck ∧ v.ch[(1 : Ch)].slots.any (fun x => sameEmber x.id waitingEmber) = true := by
  decide +kernel

/-- The start enters the signature's jobs, and the check starts on the engine that the tree has left. -/
theorem rsStart_starts_check : HasHashing (rsStart treeEnded) 1 := by
  rw [rsStart_of_keyless rfl (by decide) (by decide) rfl rfl treeEnded_raw (by decide)]
  obtain ⟨costs, hsig⟩ := sigStart_of_drawn treeEnded_sigWork (by decide) signatureDrawn_uid
  obtain ⟨hfree, htier, hunit, hslot⟩ := signatureDrawn_next
  rw [hsig]
  exact hashJobs_starts_check (id := waitingEmber) (by decide) hfree htier
    ⟨⟨waitingCheck, _, _, _, hunit, rfl⟩, List.any_eq_true.mp hslot⟩ costs .hearth

/-- Refutes O32: a restructure of channel 0 that starts when a tree's job has just ended grants the free engine to a check of
channel 1, whose slot becomes HASHING, so that the channels are not as they were. -/
theorem not_restructureAndAntiRollback : ¬ Obligations.RestructureAndAntiRollback := by
  intro h
  obtain ⟨-, -, -, -, hstart, -⟩ := h 0 treeEnded rfl
  obtain ⟨t, ht, -, -, -, -, hch⟩ := hstart rfl (by decide) (by decide) rfl rfl treeEnded_raw
  obtain rfl : rsStart treeEnded = t := Host.Outcome.next.inj ((next_coreWrite rfl rfl).symm.trans ht)
  exact checkWaits_slots (.tree 0) 3 (rsStart_starts_check.of_ch hch.symm)

end Sys2Proof.Machine
end

section
/-! The own store's log area (R400) and the log drain (R219): what an append leaves alone, and the settling of O26. -/

namespace Sys2Proof.Machine

/-! The parts of the state that the device's own writes of the own store change. -/

/-- An erase for the device itself suspends the watchdogs and lets them resume (R435, R436). -/
theorem ownErase_frame (s : State) (a n : Nat) : ∃ os wd, ownErase s a n = { s with os := os, wd := wd } := by
  have suspended : ∃ wd, wdSuspend s = { s with wd := wd } := by
    unfold wdSuspend
    split <;> exact ⟨_, rfl⟩
  obtain ⟨wd, h⟩ := suspended
  rw [ownErase, h, osErase]
  unfold wdResume
  split <;> exact ⟨_, _, rfl⟩

theorem recWrite_frame (s : State) (base : Nat) (cur : Option Nat) (r : List Byte) :
    ∃ os wd, recWrite s base cur r = { s with os := os, wd := wd } := by
  have erased (a : Nat) : ∃ os wd, osProg (ownErase s a 4096) a r = { s with os := os, wd := wd } := by
    obtain ⟨os, wd, h⟩ := ownErase_frame s a 4096
    exact ⟨_, wd, congrArg (osProg · a r) h⟩
  unfold recWrite
  dsimp only
  split
  · exact ⟨_, _, rfl⟩
  · exact erased _

theorem openPage_frame (s : State) (src : Nat) : ∃ os wd, openPage s src = { s with os := os, wd := wd } := by
  have roomed : ∃ os wd, (if (erasedPages s).length < 32 then eraseOldest s else s) = { s with os := os, wd := wd } := by
    split
    · obtain ⟨os, wd, h⟩ := ownErase_frame s (osLog (16 * oldestBlock s)) 65536
      exact ⟨_, wd, by rw [eraseOldest, h]⟩
    · exact ⟨_, _, rfl⟩
  obtain ⟨os, wd, h⟩ := roomed
  unfold openPage
  rw [h]
  dsimp only
  split <;> exact ⟨_, _, rfl⟩

@[simp] theorem openPage_grLog (s : State) (src : Nat) : (openPage s src).grLog = s.grLog := by
  obtain ⟨os, wd, h⟩ := openPage_frame s src
  rw [h]

/-- An append to the log area takes nothing from the grate's ring (R400). -/
@[simp] theorem logAppend_grLog (s : State) (src : Nat) (r : List Byte) : (logAppend s src r).grLog = s.grLog := by
  unfold logAppend
  dsimp only
  split
  · rw [osProg_grLog]
    split <;> simp only [apply_ite State.grLog, openPage_grLog, ite_self]
  · split <;> simp only [apply_ite State.grLog, openPage_grLog, ite_self]

/-! A log drain (R219). -/

/-- During an erase, before a leaf record that is due, and with nothing to drain, a drain does nothing. -/
theorem logDrain_of_waits {s : State} (h : osErasing s = true ∨ leafPending s = true ∨ drainOrder s = []) (failed : Bool) :
    logDrain s failed = s := by
  unfold logDrain
  rcases h with h | h | h
  · rw [h, Bool.true_or, if_pos rfl]
  · rw [h, Bool.or_true, if_pos rfl]
  · rw [h]
    exact ite_self s

/-- A drain whose turn it is, on the background billet it drew. -/
theorem logDrain_of_turn {s u : State} {src t id : Nat} (herase : osErasing s = false) (hleaf : leafPending s = false)
    (hturn : oldest (drainOrder s) = some (src, t)) (hdraw : draw .bg .hearth none false .drain s = (some id, u)) (failed : Bool) :
    logDrain s failed = settleAll (retire (if failed then u else drainOne u src) id) := by
  simp only [logDrain, herase, hleaf, hturn, hdraw, Bool.or_self, Bool.false_eq_true, if_false]

/-- Out of reset, the command is the drain, settled. -/
theorem exec_logDrain {s u : State} {failed : Bool} (hs : s.pd.inReset = false) (h : logDrain s failed = u) :
    exec (.logDrain failed) s = .next (settleAll u) :=
  next_onLive hs (congrArg settleAll h)

/-- Settles O26, clause by clause: when no drain runs, what one does, and the grate's ring behind it. -/
theorem logDrainTakesTheOldestRecord : Obligations.LogDrainTakesTheOldestRecord := by
  refine ⟨fun failed s hs hwaits => exec_logDrain hs (logDrain_of_waits hwaits failed),
    fun src t id s u hs herase hleaf hturn hdraw => ?turn, fun s => ⟨rfl, logAppend_grLog .., rfl, rfl⟩⟩
  case turn =>
    have drain := logDrain_of_turn herase hleaf hturn hdraw
    exact ⟨exec_logDrain hs (drain true), exec_logDrain hs (drain false)⟩

end Sys2Proof.Machine
end

section
/-! Revocations (R126, R133), the generation of LMS trees (R216) and the end of a squashed unit's work (R24) leave alone what the
settling of the channels leaves alone (`Fixed`). -/

namespace Sys2Proof.Machine

variable {s₀ s : State}

/-! The clinker responses (Table 4.9). -/

theorem settle_fixed (h : Fixed s₀ s) (c : Ch) : Fixed s₀ (settle s c) := regate_fixed (pumpCh_fixed h)
theorem setClkHold_fixed (h : Fixed s₀ s) (c : Ch) : Fixed s₀ (setClkHold s c) := regate_fixed h.mk'
theorem dropUnserved_fixed (h : Fixed s₀ s) (c : Ch) : Fixed s₀ (dropUnserved s c) := repin_fixed (freeFrames_fixed h)

theorem squashChannel_fixed (h : Fixed s₀ s) (c : Ch) : Fixed s₀ (squashChannel s c) :=
  squash_fixed (h.foldl fun _ _ => abandonSlot_fixed)

theorem selectGolden_fixed (h : Fixed s₀ s) (c : Ch) (i : Fin 15) : Fixed s₀ (selectGolden s c i) := by
  have flipped := applyGclr_fixed (c := c) (i := i) (applyFlip_fixed (c := c) (i := i) h)
  unfold selectGolden
  split
  · exact (strictPend_fixed flipped).ite (dropJournal_fixed (ecRecord_fixed (ecInt_fixed (repin_fixed (strictPend_fixed
      (setBset_fixed (freeFrames_fixed (squashFills_fixed flipped))))))))
  · exact h

theorem strictFailAt_fixed (h : Fixed s₀ s) (c : Ch) (vem : Nat) : Fixed s₀ (strictFailAt s c vem) := by
  unfold strictFailAt
  split
  · exact (setStrict_fixed h).ite h
  · exact h

theorem holdNoWay_fixed (h : Fixed s₀ s) (id : EmberId) : Fixed s₀ (holdNoWay s id) :=
  strictFailAt_fixed (strictPend_fixed (squashChannel_fixed (setClkHold_fixed h _) _)) ..

theorem holdReboot_fixed (h : Fixed s₀ s) (id : EmberId) (b : Binding) : Fixed s₀ (holdReboot s id b) := by
  unfold holdReboot
  split
  · exact Fixed.ite (Fixed.mk' (modCh_fixed (strictPend_fixed (freeFrames_fixed (selectGolden_fixed
      (squashChannel_fixed (setClkHold_fixed h _) _) ..))))) (holdNoWay_fixed h id)
  · exact holdNoWay_fixed h id

theorem substitute_fixed (h : Fixed s₀ s) (id : EmberId) (b : Binding) : Fixed s₀ (substitute s id b) := by
  unfold substitute
  split
  · exact Fixed.ite (strictPend_fixed (dropUnserved_fixed (modCh_fixed h) _)) (holdNoWay_fixed h id)
  · exact h

theorem listClinker_fixed (h : Fixed s₀ s) (id : EmberId) : Fixed s₀ (listClinker s id) := by
  unfold listClinker
  dsimp only
  split
  · exact Fixed.ite (setStrict_fixed (Fixed.ite h (Fixed.ite h.mk' h.mk'))) (Fixed.ite h (Fixed.ite h.mk' h.mk'))
  · exact Fixed.ite h (Fixed.ite h.mk' h.mk')

theorem clinkerResponse_fixed (h : Fixed s₀ s) (id : EmberId) : Fixed s₀ (clinkerResponse s id) := by
  unfold clinkerResponse
  split
  · exact h
  · refine settle_fixed ?_ _
    split
    · exact (holdNoWay_fixed h id).ite (holdReboot_fixed h ..)
    · exact (holdNoWay_fixed h id).ite (substitute_fixed h ..)
    · exact listClinker_fixed h id
    · exact h

/-! The revocation of a binding (R133). -/

theorem evLowSet_fixed (h : Fixed s₀ s) (old : Bool) : Fixed s₀ (evLowSet old s) := Fixed.ite h.mk' h

theorem veRecord_fixed (h : Fixed s₀ s) (c kind bind info obj win : Nat) (essential : Bool) :
    Fixed s₀ (veRecord s c kind bind info obj win essential) :=
  Fixed.ite (evLowSet_fixed h.mk' _) h.mk'

theorem strictFailBind_fixed (h : Fixed s₀ s) (b : Binding) : Fixed s₀ (strictFailBind s b) :=
  h.foldl fun _ _ ht => (setStrict_fixed ht).ite ht

theorem revokeBinding_fixed (h : Fixed s₀ s) (b : Binding) : Fixed s₀ (revokeBinding s b) :=
  settle_fixed (strictFailBind_fixed (Fixed.foldl (strictFailBind_fixed (freeFrames_fixed (Fixed.mk' (squash_fixed
    (Fixed.foldl (veInt_fixed (veRecord_fixed (Fixed.foldl h fun _ _ ht => Fixed.ite (setBank_fixed ht) ht) ..))
      fun _ _ ht => veInt_fixed (modCh_fixed (closeSlot_fixed ht)))))) b) fun _ _ ht => clinkerResponse_fixed ht _) b) b.ch

theorem revokeAnchors_fixed (h : Fixed s₀ s) (p : Fin 128 → Bool) : Fixed s₀ (revokeAnchors s p) :=
  h.foldl fun _ b ht => revokeBinding_fixed ht b

/-! What a vault operation puts into the hash bank, the AES engines and the tracker (R216, R306). -/

theorem startTrees_fixed (h : Fixed s₀ s) (j : Fin 2) (parent : Option Nat) : Fixed s₀ (startTrees s j parent) := by
  unfold startTrees
  dsimp only
  split
  next hdraw =>
    have drawn := draw_fixed h hdraw
    split
    · exact drawn.mk'
    · exact drawn
  next hdraw => exact hashEnq_fixed (draw_fixed h hdraw).mk'

theorem aesEnq_fixed (h : Fixed s₀ s) (id cost : Nat) (o : Owner) : Fixed s₀ (aesEnq s id cost o) :=
  aesGrant_fixed (Fixed.mk' (setUnitSt_fixed h))

/-! What holds a squashed unit (R24). -/

theorem osDequeue_fixed (h : Fixed s₀ s) (id : Nat) : Fixed s₀ (osDequeue s id) := by
  rw [osDequeue, osKick_frame]
  exact Fixed.mk' (osCut_fixed h)

theorem writeSquash_fixed (h : Fixed s₀ s) (ids : List Nat) (c : Ch) : Fixed s₀ (writeSquash ids s c) := by
  unfold writeSquash
  split
  · refine Fixed.ite ?_ h
    split
    · exact modCh_fixed (modPort_fixed h)
    · exact modCh_fixed h
  · exact h

theorem slotSquash_fixed (h : Fixed s₀ s) (ids : List Nat) (c : Ch) : Fixed s₀ (slotSquash ids s c) :=
  h.foldl fun _ _ => abandonSlot_fixed

end Sys2Proof.Machine
end

section
/-! The operations of the vault (R302-R310, R361-R363): none of them changes an instance, the OTP array, the time, a tally or a
mailbox. -/

namespace Sys2Proof.Machine

/-- What no work of a squash changes but the end of a response: the instances, the OTP array, the time, the tallies and the
mailboxes. -/
def instParts (s : State) := (s.inst, s.otp, s.clk.now, s.mb.tallies, s.mb.box)

theorem Fixed.instParts {s t : State} (h : Fixed s t) : instParts t = instParts s := by
  simp only [Machine.instParts, h.inst, h.otp, h.clk, h.mb]

/-! Slots, keys and the cores' command sets. -/

@[simp] theorem modKvc_instParts (s : State) (c : Core) (f : KvCore → KvCore) : instParts (modKvc s c f) = instParts s := rfl
@[simp] theorem kvInt_instParts (s : State) (i : Nat) : instParts (kvInt s i) = instParts s := rfl
@[simp] theorem emptySlot_instParts (s : State) (i : Fin 128) : instParts (emptySlot s i) = instParts s := rfl
@[simp] theorem childSlot_instParts (s : State) (p i : Fin 128) (typ origin usage owner : Nat) (lock : Bool) (mat : List Byte) :
    instParts (childSlot s p i typ origin usage owner lock mat) = instParts s := rfl
@[simp] theorem modLms_instParts (s : State) (j : Fin 2) (f : LmsKey → LmsKey) : instParts (modLms s j f) = instParts s := rfl
@[simp] theorem lmsDrop_instParts (s : State) : instParts (lmsDrop s) = instParts s := rfl
@[simp] theorem ramWrite_instParts (s : State) (by_ : Option Core) (a : Nat) (bs : List Byte) :
    instParts (ramWrite s by_ a bs) = instParts s := rfl
@[simp] theorem kvPost_instParts (s : State) (c : Core) (code : Nat) (o0 o1 : Word) :
    instParts (kvPost s c code o0 o1) = instParts s := rfl

theorem entropyBytes_instParts {s u : State} {n : Nat} {r : Option (List Byte)} (h : entropyBytes s n = (r, u)) :
    instParts u = instParts s := by
  unfold entropyBytes at h
  split at h <;> cases h <;> rfl

/-! Revocation (R301, R310). -/

@[simp] theorem abortOps_instParts (s : State) (p : Nat → Bool) (late : Nat) : instParts (abortOps s p late) = instParts s := by
  refine foldl_keeps (fun s c => ?_) _ s
  have dropped (t : State) (id : Nat) : instParts (aesDrop (hashDrop t id) id) = instParts t :=
    (aesDrop_fixed (hashDrop_fixed (Fixed.refl t))).instParts
  split
  · simp only [apply_ite instParts, modKvc_instParts, dropped, ramWrite_instParts, ite_self]
  · rfl

@[simp] theorem cascade_instParts (s : State) (i : Nat) : instParts (cascade s i) = instParts s := by
  simp only [cascade, kvInt_instParts, abortOps_instParts]

@[simp] theorem revokeSlot_instParts (s : State) (i : Fin 128) : instParts (revokeSlot s i) = instParts s := by
  have anchors (t : State) (p : Fin 128 → Bool) : instParts (revokeAnchors t p) = instParts t :=
    (revokeAnchors_fixed (Fixed.refl t) p).instParts
  simp only [revokeSlot, apply_ite instParts, anchors, lmsDrop_instParts, cascade_instParts, emptySlot_instParts, ite_self]

/-- The revocation of an instance's slots leaves its mailbox alone (R308). -/
@[simp] theorem revokeOwner_instParts (s : State) (n : Inst) : instParts (revokeOwner s n) = instParts s :=
  foldl_keeps revokeSlot_instParts _ s

/-! Signing (R357-R362). -/

@[simp] theorem startTrees_instParts (s : State) (j : Fin 2) (parent : Option Nat) : instParts (startTrees s j parent) = instParts s :=
  (startTrees_fixed (Fixed.refl s) j parent).instParts

@[simp] theorem nextTree_instParts (s : State) (j : Fin 2) : instParts (nextTree s j) = instParts s := by
  simp only [nextTree, apply_ite instParts, startTrees_instParts, modLms_instParts, ite_self]

@[simp] theorem takeLeaf_instParts (s : State) (j : Fin 2) : instParts (takeLeaf s j) = instParts s := by
  simp only [takeLeaf, apply_ite instParts, nextTree_instParts]
  exact ite_self _

theorem signWith_instParts {s u : State} {j : Fin 2} {msg sig : List Byte} (h : signWith s j msg = (sig, u)) :
    instParts u = instParts s := by
  have hu : takeLeaf s j = u := congrArg Prod.snd h
  rw [← hu, takeLeaf_instParts]

@[simp] theorem leafWrite_instParts (s : State) (j : Fin 2) (epoch next seq : Nat) (kid : BitVec 128) :
    instParts (leafWrite s j epoch next seq kid) = instParts s := by
  have recorded (base : Nat) (cur : Option Nat) (r : List Byte) : instParts (recWrite s base cur r) = instParts s := by
    obtain ⟨os, wd, h⟩ := recWrite_frame s base cur r
    rw [h]
    rfl
  have copied (t : State) (tp : Tp) : instParts { t with tp := tp } = instParts t := rfl
  unfold leafWrite
  split
  · rfl
  · exact (copied ..).trans (recorded ..)

/-! The operations (Table 10.5). -/

/-- An operation that changes nothing before its end. -/
theorem kvDerive_s (s : State) (k : KvCore) : (kvDerive s k).s = s := by
  unfold kvDerive
  dsimp only
  repeat' split
  all_goals rfl

theorem kvUnwrap_s (s : State) (k : KvCore) : (kvUnwrap s k).s = s := by
  unfold kvUnwrap
  dsimp only
  repeat' split
  all_goals rfl

theorem kvCommit_s (s : State) (k : KvCore) : (kvCommit s k).s = s := by
  unfold kvCommit
  repeat' split
  all_goals rfl

theorem kvKcv_s (s : State) (k : KvCore) : (kvKcv s k).s = s := by
  unfold kvKcv
  split <;> rfl

theorem kvHmac_s (s : State) (k : KvCore) : (kvHmac s k).s = s := by
  unfold kvHmac
  dsimp only
  repeat' split
  all_goals rfl

theorem kvGcm_s (enc : Bool) (s : State) (k : KvCore) : (kvGcm enc s k).s = s := by
  unfold kvGcm
  dsimp only
  repeat' split
  all_goals rfl

theorem kvPubkey_s (s : State) (k : KvCore) : (kvPubkey s k).s = s := by
  unfold kvPubkey
  repeat' split
  all_goals rfl

/-! Those that draw entropy, revoke, or sign. -/

theorem kvGenerate_instParts (s : State) (k : KvCore) : instParts (kvGenerate s k).s = instParts s := by
  unfold kvGenerate
  dsimp only
  split
  case h_1 => rfl
  case h_2 => rfl
  case h_3 =>
    split_ifs
    · rfl
    · rfl
    · split
      next h => exact entropyBytes_instParts h
      next h => exact entropyBytes_instParts h

theorem kvWrap_instParts (s : State) (k : KvCore) : instParts (kvWrap s k).s = instParts s := by
  unfold kvWrap
  split
  case h_1 => rfl
  case h_2 => rfl
  case h_3 =>
    split_ifs
    · rfl
    · rfl
    · split
      next h => exact entropyBytes_instParts h
      next h => exact entropyBytes_instParts h

theorem kvReplace_instParts (s : State) (k : KvCore) : instParts (kvReplace s k).s = instParts s := by
  unfold kvReplace
  dsimp only
  split
  case h_1 => rfl
  case h_2 =>
    split_ifs
    · rfl
    · rfl
    · rfl
    · split
      next h => exact entropyBytes_instParts h
      next h => exact entropyBytes_instParts h
    · split <;> rfl
    · split <;> rfl

theorem kvRevoke_instParts (s : State) (k : KvCore) : instParts (kvRevoke s k).s = instParts s := by
  unfold kvRevoke
  split
  · rfl
  · split
    · rfl
    · exact revokeSlot_instParts ..

theorem kvCancel_instParts (s : State) (k : KvCore) : instParts (kvCancel s k).s = instParts s := by
  unfold kvCancel
  split <;> rfl

theorem kvSign_instParts (s : State) (k : KvCore) : instParts (kvSign s k).s = instParts s := by
  unfold kvSign
  dsimp only
  split
  · rfl
  · split
    · rfl
    · split_ifs
      iterate 4 rfl
      exact takeLeaf_instParts ..

theorem kvAlias_instParts (billet : Nat) (s : State) (k : KvCore) : instParts (kvAlias billet s k).s = instParts s := by
  unfold kvAlias
  split
  · rfl
  · extract_lets slot epoch ctx mat filled kid seq journalled keyed grown body
    split_ifs
    iterate 4 rfl
    split
    next sig signed hsig =>
    calc _ = instParts signed := rfl
      _ = instParts grown := signWith_instParts hsig
      _ = instParts keyed := startTrees_instParts ..
      _ = instParts journalled := modLms_instParts ..
      _ = instParts filled := leafWrite_instParts ..
      _ = instParts s := childSlot_instParts ..

/-- What an operation does at once, when it is taken, leaves these parts as they are. -/
theorem kvOpFn_instParts (op billet : Nat) (s : State) (k : KvCore) : instParts (kvOpFn op billet s k).s = instParts s := by
  unfold kvOpFn
  split
  · rw [kvDerive_s]
  · exact kvGenerate_instParts s k
  · rw [kvUnwrap_s]
  · exact kvWrap_instParts s k
  · exact kvRevoke_instParts s k
  · exact kvReplace_instParts s k
  · rw [kvCommit_s]
  · exact kvCancel_instParts s k
  · rw [kvKcv_s]
  · rw [kvHmac_s]
  · rw [kvGcm_s]
  · rw [kvGcm_s]
  · exact kvSign_instParts s k
  · exact kvAlias_instParts billet s k
  · rw [kvPubkey_s]
  · rfl

/-! The operation unit (R305). -/

@[simp] theorem kvTake_instParts (s : State) (c : Core) : instParts (kvTake s c) = instParts s := by
  have hashed (t : State) (id cost : Nat) (o : Owner) : instParts (hashEnq t 2 id cost o) = instParts t :=
    (hashEnq_fixed (Fixed.refl t)).instParts
  have ciphered (t : State) (id cost : Nat) (o : Owner) : instParts (aesEnq t id cost o) = instParts t :=
    (aesEnq_fixed (Fixed.refl t) id cost o).instParts
  unfold kvTake
  dsimp only
  split
  · rfl
  · simp only [apply_ite instParts, apply_ite KvRes.s, hashed, ciphered, modKvc_instParts, kvOpFn_instParts, ite_self]

theorem kvServe_instParts (n : Nat) (s : State) : instParts (kvServe n s) = instParts s := by
  induction n generalizing s with
  | zero => rfl
  | succ n ih =>
    unfold kvServe
    split
    · rfl
    · split
      · rfl
      · dsimp only
        rw [ih]
        split
        · exact kvTake_instParts ..
        · rfl

end Sys2Proof.Machine
end

section
/-! Squashes (R24, R227): what they leave alone outside the units they end. -/

namespace Sys2Proof.Machine

/-- What no squash changes: the instances, the OTP array, the time and the tallies. -/
def squashParts (s : State) := (s.inst, s.otp, s.clk.now, s.mb.tallies)

theorem squashParts_iff {s t : State} : squashParts t = squashParts s ↔
    t.inst = s.inst ∧ t.otp = s.otp ∧ t.clk.now = s.clk.now ∧ t.mb.tallies = s.mb.tallies := by
  simp only [squashParts, Prod.mk.injEq]

theorem instParts_iff {s t : State} : instParts t = instParts s ↔
    t.inst = s.inst ∧ t.otp = s.otp ∧ t.clk.now = s.clk.now ∧ t.mb.tallies = s.mb.tallies ∧ t.mb.box = s.mb.box := by
  simp only [instParts, Prod.mk.injEq]

theorem squashParts_of_instParts {s t : State} (h : instParts t = instParts s) : squashParts t = squashParts s := by
  obtain ⟨hinst, hotp, hnow, htallies, -⟩ := instParts_iff.mp h
  exact squashParts_iff.mpr ⟨hinst, hotp, hnow, htallies⟩

/-! The vault, the job DMA and the responses. -/

theorem kvSquash_instParts (ids : List Nat) (s : State) (c : Core) : instParts (kvSquash ids s c) = instParts s := by
  have undone (t : State) (r : KvRun) : instParts (kvUndo t r) = instParts t := by
    unfold kvUndo
    split <;> rfl
  unfold kvSquash
  split
  · split
    · dsimp only
      rw [kvServe_instParts, kvPost_instParts, undone]
      split <;> rfl
    · rfl
  · rfl

theorem dmaSquash_instParts (ids : List Nat) (s : State) (k : Fin 16) : instParts (dmaSquash ids s k) = instParts s := by
  unfold dmaSquash
  split
  · exact (osDequeue_fixed (Fixed.refl _) _).instParts
  · rfl

theorem dmaBillet_frame (s : State) (k : Fin 16) (st : BilletSt) : dmaBillet s k st = { s with bt := (dmaBillet s k st).bt } := by
  unfold dmaBillet
  split
  · split <;> rfl
  · rfl

theorem dmaGrant_instParts (n : Nat) (s : State) : instParts (dmaGrant n s) = instParts s := by
  induction n generalizing s with
  | zero => rfl
  | succ n ih =>
    unfold dmaGrant
    split
    · dsimp only
      rw [ih, dmaBillet_frame]
      rfl
    · rfl

theorem boxSquash_squashParts (ids : List Nat) (s : State) (n : Inst) : squashParts (boxSquash ids s n) = squashParts s := by
  unfold boxSquash
  split
  · split <;> rfl
  · rfl

/-! The squash as a whole. -/

theorem squashAll_squashParts (s : State) (ids : List Nat) : squashParts (squashAll s ids) = squashParts s := by
  unfold squashAll
  extract_lets all dropped vault moved written boxed signed
  have hdropped : squashParts dropped = squashParts s := squashParts_of_instParts (squash_fixed (Fixed.refl s)).instParts
  have hvault : squashParts vault = squashParts dropped := squashParts_of_instParts (foldl_keeps (kvSquash_instParts all) _ _)
  have hmoved : squashParts moved = squashParts vault :=
    squashParts_of_instParts ((dmaGrant_instParts ..).trans (foldl_keeps (dmaSquash_instParts all) _ _))
  have hwritten : squashParts written = squashParts moved :=
    squashParts_of_instParts (Fixed.instParts (forCh_fixed (forCh_fixed (Fixed.refl moved)
      fun _ c ht => writeSquash_fixed ht all c) fun _ c ht => slotSquash_fixed ht all c))
  have hboxed : squashParts boxed = squashParts written := foldl_keeps (boxSquash_squashParts all) _ _
  clear_value boxed written moved vault dropped
  have hsigned : squashParts signed = squashParts boxed := by
    simp only [signed]
    split <;> rfl
  exact hsigned.trans (hboxed.trans (hwritten.trans (hmoved.trans (hvault.trans hdropped))))

theorem squashAll_parts (s : State) (ids : List Nat) : (squashAll s ids).inst = s.inst ∧ (squashAll s ids).otp = s.otp ∧
    (squashAll s ids).clk.now = s.clk.now ∧ (squashAll s ids).mb.tallies = s.mb.tallies :=
  squashParts_iff.mp (squashAll_squashParts s ids)

end Sys2Proof.Machine
end

section
/-! The commands of an instance (R225-R230): who takes IN_CTL, what each command does to its instance, and the settling of O33. -/

namespace Sys2Proof.Machine

/-! One instance. -/

@[simp] theorem modInst_inst_same (s : State) (n : Inst) (f : InstRt → InstRt) : (modInst s n f).inst[n] = f s.inst[n] :=
  Vector.getElem_set_self n.isLt

theorem modInst_inst_ne (s : State) {n o : Inst} (f : InstRt → InstRt) (h : o ≠ n) : (modInst s n f).inst[o] = s.inst[o] :=
  Vector.getElem_set_ne n.isLt o.isLt (fun e => h (Fin.ext e.symm))

/-- Two changes of one instance are one. -/
theorem modInst_modInst (s : State) (n : Inst) (f g : InstRt → InstRt) :
    modInst (modInst s n f) n g = modInst s n (fun x => g (f x)) := by
  have hn : (modInst s n f).inst[n] = f s.inst[n] := modInst_inst_same s n f
  simp only [modInst] at hn ⊢
  rw [hn, Vector.set_set]

/-! A mailbox that is emptied (R227). -/

theorem boxClear_box_same (s : State) (n : Inst) : (boxClear s n).mb.box[n] = {} := Vector.getElem_set_self n.isLt
theorem boxClear_box_ne (s : State) {n o : Inst} (h : o ≠ n) : (boxClear s n).mb.box[o] = s.mb.box[o] :=
  Vector.getElem_set_ne n.isLt o.isLt (fun e => h (Fin.ext e.symm))
@[simp] theorem boxClear_inst (s : State) (n : Inst) : (boxClear s n).inst = s.inst := by
  dsimp only [boxClear, freeLocks, modBox]
@[simp] theorem boxClear_tallies (s : State) (n : Inst) : (boxClear s n).mb.tallies = s.mb.tallies := by
  dsimp only [boxClear, freeLocks, modBox]
@[simp] theorem boxClear_otp (s : State) (n : Inst) : (boxClear s n).otp = s.otp := by
  dsimp only [boxClear, freeLocks, modBox]
@[simp] theorem boxClear_kv (s : State) (n : Inst) : (boxClear s n).kv = s.kv := by
  dsimp only [boxClear, freeLocks, modBox]
@[simp] theorem boxClear_clk (s : State) (n : Inst) : (boxClear s n).clk = s.clk := by
  dsimp only [boxClear, freeLocks, modBox]

/-! An instance that becomes ACTIVE has an empty mailbox (R225). -/

theorem instActivate_inst (s : State) (n : Inst) : (instActivate s n).inst = s.inst.set n { s.inst[n] with st := .active } := by
  simp only [instActivate, modInst, boxClear_inst]

theorem instActivate_st (s : State) (n : Inst) : ((instActivate s n).inst[n]).st = .active := by
  rw [instActivate, modInst_inst_same]

@[simp] theorem instActivate_mb (s : State) (n : Inst) : (instActivate s n).mb = (boxClear s n).mb := by
  rw [instActivate, modInst_mb]
@[simp] theorem instActivate_otp (s : State) (n : Inst) : (instActivate s n).otp = s.otp := by
  rw [instActivate, modInst_otp, boxClear_otp]
@[simp] theorem instActivate_kv (s : State) (n : Inst) : (instActivate s n).kv = s.kv := by
  rw [instActivate, modInst_kv, boxClear_kv]
@[simp] theorem instActivate_clk (s : State) (n : Inst) : (instActivate s n).clk = s.clk := by
  rw [instActivate, modInst_clk, boxClear_clk]

/-! A squash of everything an instance has (R227). -/

/-- The instance's mailbox is emptied; the instances, the OTP array, the time and the tallies stay. -/
theorem instSquash_effect (s : State) (n : Inst) : (instSquash s n).inst = s.inst ∧ (instSquash s n).otp = s.otp ∧
    (instSquash s n).clk.now = s.clk.now ∧ (instSquash s n).mb.tallies = s.mb.tallies ∧ (instSquash s n).mb.box[n] = {} := by
  obtain ⟨hinst, hotp, hnow, htallies⟩ := squashAll_parts s (unitsWhere s (fun u => u.owner = .inst n))
  simp only [instSquash, boxClear_inst, boxClear_otp, boxClear_clk, boxClear_tallies, hinst, hotp, hnow, htallies,
    boxClear_box_same, and_self]

/-- RESET_SQUASH leaves its instance ACTIVE, with an empty mailbox. -/
theorem instActivate_instSquash (s : State) (n : Inst) : let u := instActivate (instSquash s n) n
    (u.inst[n]).st = .active ∧ u.mb.box[n] = {} ∧ u.mb.tallies = s.mb.tallies ∧ u.otp = s.otp ∧ u.clk.now = s.clk.now := by
  obtain ⟨-, hotp, hnow, htallies, -⟩ := instSquash_effect s n
  simp only [instActivate_st, instActivate_mb, instActivate_otp, instActivate_clk, boxClear_box_same, boxClear_tallies, hotp, hnow,
    htallies, and_self]

/-- REMOVE leaves its instance DORMANT, with an empty mailbox, and revokes its slots (R228, R308). -/
theorem instRemoved_effect (s : State) (n : Inst) :
    let u := modInst (revokeOwner (instSquash s n) n) n (fun x => { x with st := .dormant })
    (u.inst[n]).st = .dormant ∧ u.mb.box[n] = {} ∧ u.mb.tallies = s.mb.tallies := by
  obtain ⟨-, -, -, htallies, hempty⟩ := instSquash_effect s n
  obtain ⟨-, -, -, hkept, hbox⟩ := instParts_iff.mp (revokeOwner_instParts (instSquash s n) n)
  simp only [modInst_inst_same, modInst_mb, hbox, hempty, hkept, htallies, and_self]

/-! A write of IN_CTL (R230). -/

/-- The write of IN_CTL by this master has been taken. -/
def ctlTaken (s : State) (m : Master) (n : Inst) : State := modInst s n (fun x => { x with ctlBy := some (s.clk.now, m) })

theorem instTake_of_first {s : State} {m : Master} {n : Inst} (h : takenNow (s.inst[n]).ctlBy s.clk.now m = false)
    (f : State → State) : instTake s m n f = f (ctlTaken s m n) := by
  rw [instTake, if_neg (by rw [h]; decide)]
  rfl

theorem instTake_of_later {s : State} {m : Master} {n : Inst} (h : takenNow (s.inst[n]).ctlBy s.clk.now m = true)
    (f : State → State) : instTake s m n f = instRefuse s n 1 := if_pos h

/-- What the taking shows of an instance is who took it. -/
theorem ctlTaken_entry (s : State) (m : Master) (n o : Inst) : ∃ b, (ctlTaken s m n).inst[o] = { s.inst[o] with ctlBy := b } := by
  by_cases h : o = n
  · subst h
    exact ⟨_, modInst_inst_same ..⟩
  · exact ⟨(s.inst[o]).ctlBy, modInst_inst_ne s _ h⟩

theorem ctlTaken_st (s : State) (m : Master) (n o : Inst) : ((ctlTaken s m n).inst[o]).st = (s.inst[o]).st := by
  obtain ⟨b, h⟩ := ctlTaken_entry s m n o
  rw [h]

theorem ctlTaken_cfg (s : State) (m : Master) (n o : Inst) : ((ctlTaken s m n).inst[o]).cfg = (s.inst[o]).cfg := by
  obtain ⟨b, h⟩ := ctlTaken_entry s m n o
  rw [h]

theorem ctlTaken_addr (s : State) (m : Master) (n o : Inst) : ((ctlTaken s m n).inst[o]).addr = (s.inst[o]).addr := by
  obtain ⟨b, h⟩ := ctlTaken_entry s m n o
  rw [h]

theorem ctlTaken_instTaken (s : State) (m : Master) (n o : Inst) : instTaken (ctlTaken s m n) o = instTaken s o := by
  simp only [instTaken, ctlTaken_st, ctlTaken_cfg, ctlTaken_addr]

theorem ctlTaken_inBandBlocked (s : State) (m : Master) (n o : Inst) : inBandBlocked (ctlTaken s m n) o = inBandBlocked s o := by
  have hch : (ctlTaken s m n).ch = s.ch := modInst_ch ..
  simp only [inBandBlocked, ctlTaken_cfg, ctlTaken_addr, hch]

theorem ctlTaken_modInst (s : State) (m : Master) (n : Inst) (f : InstRt → InstRt) :
    modInst (ctlTaken s m n) n f = { s with
      inst := s.inst.set n (f { s.inst[n] with ctlBy := some (s.clk.now, m) }) } :=
  modInst_modInst ..

/-! The commands on an instance (R225-R228). -/

section Instance

variable {s : State} {n : Inst}

theorem instCreate_of_used (h : (s.inst[n]).st ≠ .dormant) : instCreate s n = instRefuse s n 3 := if_pos h

theorem instCreate_of_blocked (hst : (s.inst[n]).st = .dormant)
    (h : (s.inst[n]).cfg.transport = 0 ∨ instTaken s n = true ∨ inBandBlocked s n = true) :
    instCreate s n = instRefuse s n 2 := by
  rw [instCreate, if_neg (not_not_intro hst), if_pos h]

theorem instCreate_of_free (hst : (s.inst[n]).st = .dormant) (htransport : (s.inst[n]).cfg.transport ≠ 0)
    (htaken : instTaken s n = false) (hblocked : inBandBlocked s n = false) : instCreate s n = instActivate s n := by
  rw [instCreate, if_neg (not_not_intro hst), if_neg]
  simp only [htransport, htaken, hblocked, Bool.false_eq_true, or_self, not_false_eq_true]

theorem instDrain_of_dormant (h : (s.inst[n]).st = .dormant) : instDrain s n = instRefuse s n 3 := by
  rw [instDrain, h]

theorem instDrain_of_active (h : (s.inst[n]).st = .active) :
    instDrain s n = modInst s n (fun x => { x with st := .draining, drainAt := s.clk.now }) := by
  rw [instDrain, h]

theorem instDrain_of_draining (h : (s.inst[n]).st = .draining) : instDrain s n = instRefuse s n 1 := by
  rw [instDrain, h]

theorem instReset_of_dormant (h : (s.inst[n]).st = .dormant) : instReset s n = instRefuse s n 3 := if_pos h
theorem instReset_of_used (h : (s.inst[n]).st ≠ .dormant) : instReset s n = settleAll (instActivate (instSquash s n) n) := if_neg h
theorem instRemove_of_dormant (h : (s.inst[n]).st = .dormant) : instRemove s n = instRefuse s n 3 := if_pos h
theorem instRemove_of_used (h : (s.inst[n]).st ≠ .dormant) :
    instRemove s n = settleAll (modInst (revokeOwner (instSquash s n) n) n (fun x => { x with st := .dormant })) := if_neg h

/-! The end of a drain (R226). -/

theorem btInt_getLsbD (s : State) {i : Nat} (h : i < 32) : (btInt s i).bt.intSts.getLsbD i = true :=
  getLsbD_setBit_self s.bt.intSts h

theorem drainDone_of_empty (hst : (s.inst[n]).st = .draining) (hunits : instUnits s n = []) (hout : (s.mb.box[n]).outq = []) :
    drainDone s n = instActivate s n := if_pos ⟨hst, hunits, hout⟩
theorem drainDone_of_not_draining (h : (s.inst[n]).st ≠ .draining) : drainDone s n = s := if_neg fun hd => h hd.1
theorem drainExpire_of_not_draining (h : (s.inst[n]).st ≠ .draining) : drainExpire s n = s := if_neg fun hd => h hd.1

/-- A drain that is not complete after 50 ms squashes what is left of the instance. -/
theorem drainExpire_of_units (hst : (s.inst[n]).st = .draining) (hunits : instUnits s n ≠ []) :
    drainExpire s n =
      settleAll (btInt (instActivate (instSquash (reachTime s ((s.inst[n]).drainAt + 25000000)) n) n) 5) := by
  rw [drainExpire, if_pos ⟨hst, by simp [hunits]⟩]
  rfl

/-! The commands, by a core, on the instance it has selected. -/

variable {m : Core} {u : State}

theorem exec_create (hs : s.pd.inReset = false) (hsel : (selOf s (.core m)).inst = n)
    (h : instTake s (.core m) n (fun s => instCreate s n) = u) : exec (.create (.core m)) s = .next u := by
  subst hsel
  exact next_coreWrite hs h

theorem exec_resetDrain (hs : s.pd.inReset = false) (hsel : (selOf s (.core m)).inst = n)
    (h : instTake s (.core m) n (fun s => instDrain s n) = u) : exec (.resetDrain (.core m)) s = .next u := by
  subst hsel
  exact next_coreWrite hs h

theorem exec_resetSquash (hs : s.pd.inReset = false) (hsel : (selOf s (.core m)).inst = n)
    (h : instTake s (.core m) n (fun s => instReset s n) = u) : exec (.resetSquash (.core m)) s = .next (settleAll u) := by
  subst hsel
  exact next_coreWrite hs (congrArg settleAll h)

theorem exec_remove (hs : s.pd.inReset = false) (hsel : (selOf s (.core m)).inst = n)
    (h : instTake s (.core m) n (fun s => instRemove s n) = u) : exec (.remove (.core m)) s = .next (settleAll u) := by
  subst hsel
  exact next_coreWrite hs (congrArg settleAll h)

end Instance

/-- Settles O33, command by command: `ctlTaken` is the state in which the first master's command finds its instance. -/
theorem instanceCommands : Obligations.InstanceCommands := by
  intro m n s hs hsel by_ refused
  refine ⟨fun hlater => ?later, fun hfirst => ?first, fun hst hunits hout => ?drained, fun hst => ?notDraining,
    fun hst hunits => ?expired⟩
  case later =>
    exact ⟨exec_create hs hsel (instTake_of_later hlater _), exec_resetDrain hs hsel (instTake_of_later hlater _),
      exec_resetSquash hs hsel (instTake_of_later hlater _), exec_remove hs hsel (instTake_of_later hlater _)⟩
  case first =>
    have taken (f : State → State) : instTake s (.core m) n f = f (ctlTaken s (.core m) n) := instTake_of_first hfirst f
    have refuse (code : Nat) : instRefuse (ctlTaken s (.core m) n) n code = refused code := ctlTaken_modInst ..
    have st (x : InstSt) (h : (s.inst[n]).st = x) : ((ctlTaken s (.core m) n).inst[n]).st = x :=
      (ctlTaken_st s (.core m) n n).trans h
    have used (h : (s.inst[n]).st ≠ .dormant) : ((ctlTaken s (.core m) n).inst[n]).st ≠ .dormant := by
      rwa [ctlTaken_st]
    refine ⟨fun h => ?createUsed, fun h hbad => ?createBlocked, fun h htransport haddr hband => ?created,
      fun h => ⟨?drainDormant, ?resetDormant, ?removeDormant⟩, fun h => ?drainActive, fun h => ?drainAgain,
      fun h => ⟨_, exec_resetSquash hs hsel ((taken _).trans (instReset_of_used (used h))), ?reset⟩,
      fun h => ⟨_, exec_remove hs hsel ((taken _).trans (instRemove_of_used (used h))), instRemoved_effect ..⟩⟩
    case createUsed => exact exec_create hs hsel ((taken _).trans ((instCreate_of_used (used h)).trans (refuse 3)))
    case createBlocked =>
      rw [← ctlTaken_cfg s (.core m) n, ← ctlTaken_instTaken s (.core m) n, ← ctlTaken_inBandBlocked s (.core m) n] at hbad
      exact exec_create hs hsel ((taken _).trans ((instCreate_of_blocked (st _ h) hbad).trans (refuse 2)))
    case created =>
      rw [← ctlTaken_cfg s (.core m) n] at htransport
      rw [← ctlTaken_instTaken s (.core m) n] at haddr
      rw [← ctlTaken_inBandBlocked s (.core m) n] at hband
      refine ⟨_, exec_create hs hsel ((taken _).trans (instCreate_of_free (st _ h) htransport haddr hband)), ?_,
        boxClear_box_same .., fun o ho => boxClear_box_ne _ ho, ?_, ?_⟩
      · exact congrArg State.inst (ctlTaken_modInst s (.core m) n fun x => { x with st := .active })
      · rw [instActivate_mb, boxClear_tallies, ctlTaken, modInst_mb]
      · rw [instActivate_kv, ctlTaken, modInst_kv]
    case drainDormant => exact exec_resetDrain hs hsel ((taken _).trans ((instDrain_of_dormant (st _ h)).trans (refuse 3)))
    case resetDormant => exact exec_resetSquash hs hsel ((taken _).trans ((instReset_of_dormant (st _ h)).trans (refuse 3)))
    case removeDormant => exact exec_remove hs hsel ((taken _).trans ((instRemove_of_dormant (st _ h)).trans (refuse 3)))
    case drainActive =>
      exact exec_resetDrain hs hsel ((taken _).trans ((instDrain_of_active (st _ h)).trans (ctlTaken_modInst ..)))
    case drainAgain => exact exec_resetDrain hs hsel ((taken _).trans ((instDrain_of_draining (st _ h)).trans (refuse 1)))
    case reset =>
      obtain ⟨hact, hbox, htallies, hotp, -⟩ := instActivate_instSquash (ctlTaken s (.core m) n) n
      exact ⟨hact, hbox, htallies, hotp⟩
  case drained =>
    exact ⟨_, next_onLive hs (drainDone_of_empty hst hunits hout), instActivate_inst s n, boxClear_box_same ..⟩
  case notDraining =>
    exact ⟨next_onLive hs (drainDone_of_not_draining hst),
      next_onLive hs (congrArg settleAll (drainExpire_of_not_draining hst))⟩
  case expired =>
    obtain ⟨hact, hbox, -, -, hnow⟩ := instActivate_instSquash (reachTime s ((s.inst[n]).drainAt + 25000000)) n
    refine ⟨_, next_onLive hs (congrArg settleAll (drainExpire_of_units hst hunits)), hact, hbox, ?_, ?_⟩
    · rw [btInt_getLsbD _ (by decide)]
    · rw [btInt_clk, hnow, reachTime]

end Sys2Proof.Machine
end

section
/-! A squash takes units out of the tracker and draws none (R24, R206). -/

namespace Sys2Proof.Machine

/-- The entries of the tracker that hold a unit. -/
def unitKeys (s : State) : List Nat := s.bt.units.map Prod.fst

/-- From `s` to `t` no unit enters the tracker, and no core's vault command changes. -/
structure NoneDrawn (s t : State) : Prop where
  units : unitKeys t ⊆ unitKeys s
  cmd : t.kv.cmd = s.kv.cmd

theorem NoneDrawn.refl (s : State) : NoneDrawn s s := ⟨List.Subset.refl _, rfl⟩

variable {s₀ s : State}

/-- A state with the same units and vault commands. -/
theorem NoneDrawn.same (h : NoneDrawn s₀ s) {t : State} (hu : t.bt.units = s.bt.units) (hc : t.kv.cmd = s.kv.cmd) :
    NoneDrawn s₀ t :=
  ⟨by rw [unitKeys, hu]; exact h.units, hc.trans h.cmd⟩

theorem NoneDrawn.foldl {β : Type} {l : List β} {g : State → β → State} (h : NoneDrawn s₀ s)
    (hg : ∀ t x, NoneDrawn s₀ t → NoneDrawn s₀ (g t x)) : NoneDrawn s₀ (l.foldl g s) :=
  List.foldlRecOn l g (motive := NoneDrawn s₀) h fun t ht x _ => hg t x ht

/-! The tracker's entries. -/

theorem mem_map_fst_of_aget {β : Type} {l : List (Nat × β)} {k : Nat} {v : β} (h : aget l k = some v) : k ∈ l.map Prod.fst := by
  by_contra hk
  have hnone : aget l k = none := aget_none k fun x hx e => hk (e ▸ List.mem_map_of_mem hx)
  rw [hnone] at h
  cases h

theorem aput_map_fst {β : Type} (l : List (Nat × β)) (k : Nat) (v : β) : (aput l k v).map Prod.fst ⊆ k :: l.map Prod.fst := by
  induction l with
  | nil => exact List.Subset.refl _
  | cons a t ih =>
    unfold aput
    split
    · exact List.Subset.refl _
    · split
      · exact List.cons_subset_cons k (List.subset_cons_self ..)
      · exact List.cons_subset.mpr ⟨by simp, List.Subset.trans ih (List.cons_subset_cons k (List.subset_cons_self ..))⟩

/-- A change of a unit that stands in the tracker. -/
theorem NoneDrawn.put (h : NoneDrawn s₀ s) {id : Nat} {b : Billet} (hunit : unitOf s id = some b) (x : Billet) :
    NoneDrawn s₀ { s with bt := { s.bt with units := aput s.bt.units id x } } :=
  ⟨fun _ hi => (List.mem_cons.mp (aput_map_fst _ _ _ hi)).elim
    (fun e => e ▸ h.units (mem_map_fst_of_aget hunit)) (fun hi => h.units hi), h.cmd⟩

theorem unitOf_of_unitKeys {id : Nat} (h : id ∉ unitKeys s) : unitOf s id = none :=
  aget_none id fun _ hx e => h (e ▸ List.mem_map_of_mem hx)

theorem retire_unitKeys (s : State) (id : Nat) : id ∉ unitKeys (retire s id) := by
  simp [unitKeys, retire, adel]

theorem retire_noneDrawn (h : NoneDrawn s₀ s) (id : Nat) : NoneDrawn s₀ (retire s id) :=
  ⟨fun _ hi => h.units ((List.filter_sublist.map Prod.fst).subset hi), h.cmd⟩

theorem setUnitSt_noneDrawn (h : NoneDrawn s₀ s) (id : Nat) (x : BilletSt) : NoneDrawn s₀ (setUnitSt s id x) := by
  unfold setUnitSt
  split
  next hunit => exact h.put hunit _
  next => exact h

/-! The hash bank and the AES engines. -/

theorem hashPick_noneDrawn (h : NoneDrawn s₀ s) {u : State} {j : HashJob} {i : QItem} (hpick : hashPick s = some (j, i, u)) :
    NoneDrawn s₀ u := by
  unfold hashPick at hpick
  split at hpick
  case h_1 => cases hpick; exact h.same rfl rfl
  case h_2 =>
    dsimp only at hpick
    split at hpick
    · cases hpick
    · split at hpick
      · cases hpick
      · cases hpick
        obtain ⟨_, _, _, hring⟩ := setRing_frame (ageRings s) _ _
        rw [hring]
        exact h.same rfl rfl

theorem hashStart_noneDrawn (h : NoneDrawn s₀ s) (e : Fin 12) (j : HashJob) : NoneDrawn s₀ (hashStart s e j) := by
  have running := setUnitSt_noneDrawn h j.billet .running
  unfold hashStart
  rw [slotJob_frame]
  dsimp only
  split
  · exact running.same rfl rfl
  · exact running.same rfl rfl

theorem hashGrant_noneDrawn (h : NoneDrawn s₀ s) (n : Nat) : NoneDrawn s₀ (hashGrant n s) := by
  induction n generalizing s with
  | zero => exact h
  | succ n ih =>
    unfold hashGrant
    split
    · exact h
    · split
      · exact h
      next hpick => exact ih (hashStart_noneDrawn (hashPick_noneDrawn h hpick) ..)

theorem hashDrop_noneDrawn (h : NoneDrawn s₀ s) (id : Nat) : NoneDrawn s₀ (hashDrop s id) := by
  refine hashGrant_noneDrawn ?_ 12
  exact h.same rfl rfl

theorem aesStart_noneDrawn (h : NoneDrawn s₀ s) (e : Fin 2) (j : HashJob) : NoneDrawn s₀ (aesStart s e j) :=
  (setUnitSt_noneDrawn h j.billet .running).same rfl rfl

theorem aesGrant_noneDrawn (h : NoneDrawn s₀ s) (n : Nat) : NoneDrawn s₀ (aesGrant n s) := by
  induction n generalizing s with
  | zero => exact h
  | succ n ih =>
    unfold aesGrant
    split
    · exact h
    · dsimp only
      split
      · exact h
      · refine ih (aesStart_noneDrawn ?_ ..)
        exact h.same rfl rfl

theorem aesDrop_noneDrawn (h : NoneDrawn s₀ s) (id : Nat) : NoneDrawn s₀ (aesDrop s id) := by
  refine aesGrant_noneDrawn ?_ 2
  exact h.same rfl rfl

/-! A unit that is dropped: its entry is free, and no other is taken. -/

theorem freeFrame_noneDrawn (h : NoneDrawn s₀ s) (f : Nat) : NoneDrawn s₀ (freeFrame s f) := by
  unfold freeFrame
  split
  · exact h
  · exact h.same rfl rfl

theorem bankUndo_noneDrawn (h : NoneDrawn s₀ s) (b : Nat) (bk : BankId) (stage : Bool) : NoneDrawn s₀ (bankUndo s b bk stage) := by
  unfold bankUndo
  split
  · exact h.same rfl rfl
  · exact h

theorem dropUnit_noneDrawn (h : NoneDrawn s₀ s) (id : Nat) : NoneDrawn s₀ (dropUnit s id) := by
  unfold dropUnit
  extract_lets undone ported unasked
  have hundone : NoneDrawn s₀ undone := by
    simp only [undone]
    split
    · split
      · exact freeFrame_noneDrawn h _
      · exact freeFrame_noneDrawn h _
      · exact bankUndo_noneDrawn h ..
      · exact bankUndo_noneDrawn h ..
      · exact h.same rfl rfl
      · exact h
    · exact h
  refine aesDrop_noneDrawn (hashDrop_noneDrawn (retire_noneDrawn ?_ id) id) id
  exact hundone.same rfl rfl

theorem dropUnit_unitKeys (s : State) (id : Nat) : id ∉ unitKeys (dropUnit s id) := fun hi =>
  retire_unitKeys _ id ((aesDrop_noneDrawn (hashDrop_noneDrawn (.refl (retire _ id)) id) id).units hi)

theorem foldl_dropUnit_unitKeys {l : List Nat} {id : Nat} (h : id ∈ l) (s : State) : id ∉ unitKeys (l.foldl dropUnit s) := by
  induction l generalizing s with
  | nil => cases h
  | cons a l ih =>
    by_cases hl : id ∈ l
    · exact ih hl _
    · obtain rfl : id = a := (List.mem_cons.mp h).resolve_right hl
      have hrest : NoneDrawn (dropUnit s id) (l.foldl dropUnit (dropUnit s id)) :=
        (NoneDrawn.refl _).foldl fun _ i ht => dropUnit_noneDrawn ht i
      exact fun hi => dropUnit_unitKeys s id (hrest.units hi)

theorem squash_noneDrawn (h : NoneDrawn s₀ s) (ids : List Nat) : NoneDrawn s₀ (squash s ids) :=
  h.foldl fun _ i ht => dropUnit_noneDrawn ht i

/-- A unit that is squashed leaves the tracker. -/
theorem squash_unitKeys {ids : List Nat} {id : Nat} (h : id ∈ ids) (s : State) : id ∉ unitKeys (squash s ids) := by
  refine foldl_dropUnit_unitKeys ?_ s
  have hfirst : id ∈ ids ++ readUps s ids := List.mem_append_left _ h
  rw [withDeps, if_neg (List.ne_nil_of_mem hfirst)]
  exact List.mem_append_left _ hfirst

/-! What was the unit's work. -/

theorem kvSquash_of_idle {c : Core} (h : (s.kv.cmd[c]).run = none) (ids : List Nat) : kvSquash ids s c = s := by
  simp only [kvSquash, h]

theorem dmaBillet_noneDrawn (h : NoneDrawn s₀ s) (k : Fin 16) (st : BilletSt) : NoneDrawn s₀ (dmaBillet s k st) := by
  unfold dmaBillet
  split
  · split
    next hunit => exact h.put hunit _
    next => exact h
  · exact h

theorem dmaGrant_noneDrawn (h : NoneDrawn s₀ s) (n : Nat) : NoneDrawn s₀ (dmaGrant n s) := by
  induction n generalizing s with
  | zero => exact h
  | succ n ih =>
    unfold dmaGrant
    split
    next k _ _ =>
      have started : NoneDrawn s₀ (modDma s k (fun d => { d with st := .running, aged := false })) := h.same rfl rfl
      exact ih ((dmaBillet_noneDrawn started k .running).same rfl rfl)
    next => exact h

theorem dmaSquash_noneDrawn (h : NoneDrawn s₀ s) (ids : List Nat) (k : Fin 16) : NoneDrawn s₀ (dmaSquash ids s k) := by
  unfold dmaSquash
  split
  · rw [osDequeue, osKick_frame]
    exact h.same rfl rfl
  · exact h

theorem writeSquash_noneDrawn (h : NoneDrawn s₀ s) (ids : List Nat) (c : Ch) : NoneDrawn s₀ (writeSquash ids s c) := by
  unfold writeSquash
  split
  · split
    · split
      · exact h.same rfl rfl
      · exact h.same rfl rfl
    · exact h
  · exact h

theorem closeSlot_noneDrawn (h : NoneDrawn s₀ s) (c : Ch) (x : ProvSlot) (kind resp reason : Nat) :
    NoneDrawn s₀ (closeSlot s c x kind resp reason) := by
  unfold closeSlot
  extract_lets w held closed bi
  have hheld : NoneDrawn s₀ held := by
    simp only [held]
    split
    · split
      · exact retire_noneDrawn h _
      · exact h
    · exact h
  split
  · exact hheld.same rfl rfl
  · exact hheld.same rfl rfl

theorem slotSquash_noneDrawn (h : NoneDrawn s₀ s) (ids : List Nat) (c : Ch) : NoneDrawn s₀ (slotSquash ids s c) :=
  h.foldl fun _ x ht => (closeSlot_noneDrawn ht c x 0x09 3 0).same rfl rfl

theorem boxSquash_noneDrawn (h : NoneDrawn s₀ s) (ids : List Nat) (n : Inst) : NoneDrawn s₀ (boxSquash ids s n) := by
  unfold boxSquash
  split
  · split
    · exact h.same rfl rfl
    · exact h
  · exact h

/-- With no vault operation outstanding a squash draws nothing behind the drop of its units. -/
theorem squashAll_noneDrawn (ids : List Nat) (hidle : ∀ c : Core, (s.kv.cmd[c]).run = none) :
    NoneDrawn (squash s ids) (squashAll s ids) := by
  unfold squashAll
  extract_lets all dropped vault moved written boxed signed
  have hvault : vault = dropped := by
    have idle (c : Core) : kvSquash all dropped c = dropped :=
      kvSquash_of_idle (by rw [(squash_noneDrawn (.refl s) ids).cmd, hidle]) all
    exact List.foldlRecOn allCores (kvSquash all) (motive := fun t => t = dropped) rfl fun t ht c _ => by rw [ht, idle]
  have hmoved : NoneDrawn dropped moved :=
    dmaGrant_noneDrawn (.foldl (hvault ▸ .refl dropped) fun _ k ht => dmaSquash_noneDrawn ht all k) 4
  have hwritten : NoneDrawn dropped written :=
    .foldl (.foldl hmoved fun _ c ht => writeSquash_noneDrawn ht all c) fun _ c ht => slotSquash_noneDrawn ht all c
  have hboxed : NoneDrawn dropped boxed := hwritten.foldl fun _ n ht => boxSquash_noneDrawn ht all n
  clear_value boxed
  have hsigned : NoneDrawn dropped signed := by
    simp only [signed]
    split
    · exact hboxed.same rfl rfl
    · exact hboxed
  exact hsigned.same rfl rfl

/-- With no vault operation outstanding, a unit that is squashed leaves the tracker. -/
theorem unitOf_squashAll {ids : List Nat} {id : Nat} (hid : id ∈ ids) (hidle : ∀ c : Core, (s.kv.cmd[c]).run = none) :
    unitOf (squashAll s ids) id = none :=
  unitOf_of_unitKeys fun hi => squash_unitKeys hid s ((squashAll_noneDrawn ids hidle).units hi)

end Sys2Proof.Machine
end

section
/-! The billet tracker (R205, R212) and the age limits of the arbiters (R215), and the settling of O34. -/

namespace Sys2Proof.Machine

/-! A dependent draw that waits (R212). -/

theorem grantDependent_of_none {s : State} {k : BilletClass}
    (h : s.bt.waiting.find? (fun w => w.cls = k && !depsFull s (some w.parent)) = none) : grantDependent s k = s := by
  simp only [grantDependent, h]

theorem grantDependent_of_drawn {s u : State} {k : BilletClass} {w : WaitingDraw} {id : Nat}
    (h : s.bt.waiting.find? (fun w => w.cls = k && !depsFull s (some w.parent)) = some w)
    (hdraw : draw k w.owner (some w.parent) false w.work s = (some id, u)) :
    grantDependent s k = startDependent { u with bt := { u.bt with waiting := u.bt.waiting.erase w } } id w := by
  simp only [grantDependent, h, hdraw]

/-! A head that ages (R215). -/

theorem ageHeads_of_due {s : State} {age at_ : Nat} {a : Arb} (h : agesAt age a = some at_) (i : Nat)
    (put : State → Arb → State) :
    ageHeads s age i a put = btInt (put (reachTime s at_) (arbAge (max s.clk.now at_) age a)) i := by
  simp only [ageHeads, h]
  rfl

theorem headAged_hash_of_due {s : State} {t : Fin 3} {at_ : Nat}
    (h : agesAt (msCyc s.bt.arb.ageMs) (tierRing s (t.val + 1)) = some at_) : headAged s (.hash t) =
      btInt (setRing (reachTime s at_) (t.val + 1)
        (arbAge (max s.clk.now at_) (msCyc s.bt.arb.ageMs) (tierRing s (t.val + 1)))) 2 :=
  ageHeads_of_due h 2 fun s x => setRing s (t.val + 1) x

theorem headAged_port_of_due {s : State} {p : Ch} {at_ : Nat} (h : agesAt (msCyc s.bt.arb.portAgeMs) s.port[p].arb = some at_) :
    headAged s (.port p) = btInt (modPort (reachTime s at_) p
      (fun q => { q with arb := arbAge (max s.clk.now at_) (msCyc s.bt.arb.portAgeMs) s.port[p].arb })) 3 :=
  ageHeads_of_due h 3 fun s x => modPort s p (fun q => { q with arb := x })

/-- The ring of a tier is the one put there last. -/
theorem tierRing_setRing (s : State) (t : Fin 3) (a : Arb) : tierRing (setRing s (t.val + 1) a) (t.val + 1) = a := by
  match t with
  | 0 => rfl
  | 1 => rfl
  | 2 => rfl

@[simp] theorem setRing_clk (s : State) (t : Nat) (a : Arb) : (setRing s t a).clk = s.clk := by
  obtain ⟨b, c, d, h⟩ := setRing_frame s t a
  rw [h]
@[simp] theorem setRing_ch (s : State) (t : Nat) (a : Arb) : (setRing s t a).ch = s.ch := by
  obtain ⟨b, c, d, h⟩ := setRing_frame s t a
  rw [h]

theorem modPort_arb (s : State) (p : Ch) (a : Arb) : ((modPort s p (fun q => { q with arb := a })).port[p]).arb = a :=
  congrArg Port.arb (Vector.getElem_set_self p.isLt)

/-! A parity error of the tracker (R205). -/

/-- The error is counted in the tracker, raises PARITY and counts towards the pair's self-diagnosis (R205, R444). -/
def parityNoted (s : State) : State :=
  parityCount (btInt { s with bt := { s.bt with parity := min 0xFFFF (s.bt.parity + 1) } } 4)

/-- Counting changes the tracker's count and status, the fabric and the pair alone. -/
theorem parityNoted_frame (s : State) : ∃ fb pr, parityNoted s = { s with
    bt := { s.bt with parity := min 0xFFFF (s.bt.parity + 1), intSts := setBit s.bt.intSts 4 }, fb := fb, pr := pr } := by
  obtain ⟨fb, pr, h⟩ := parityCount_frame (btInt { s with bt := { s.bt with parity := min 0xFFFF (s.bt.parity + 1) } } 4)
  exact ⟨fb, pr, h⟩

theorem parityNoted_unitOf (s : State) (id : Nat) : unitOf (parityNoted s) id = unitOf s id := by
  obtain ⟨fb, pr, h⟩ := parityNoted_frame s
  rw [h]
  rfl

theorem parityNoted_ch (s : State) : (parityNoted s).ch = s.ch := by
  obtain ⟨fb, pr, h⟩ := parityNoted_frame s
  rw [h]

theorem parityNoted_kv (s : State) : (parityNoted s).kv = s.kv := by
  obtain ⟨fb, pr, h⟩ := parityNoted_frame s
  rw [h]

/-- The error of an entry in use squashes its unit; its provisional slots then take their responses (R123). -/
theorem trackerParity_of_unit {s : State} {b : Fin 4096} {u : Billet} (h : unitOf s b.val = some u) :
    ∃ (mine : ProvSlot → Bool) (respond : State → ProvSlot → State), trackerParity s b = settleAll
      ((allCh.flatMap (fun c => (parityNoted s).ch[c].slots.filter mine)).foldl respond (squashAll (parityNoted s) [b.val])) := by
  have hunit : (unitOf (parityNoted s) b.val).isSome = true := by rw [parityNoted_unitOf, h]; rfl
  exact ⟨_, _, if_pos hunit⟩

theorem trackerParity_of_no_slots {s : State} {b : Fin 4096} {u : Billet} (h : unitOf s b.val = some u)
    (hslots : ∀ c : Ch, s.ch[c].slots = []) : trackerParity s b = settleAll (squashAll (parityNoted s) [b.val]) := by
  obtain ⟨mine, respond, hrun⟩ := trackerParity_of_unit h
  have hnone : allCh.flatMap (fun c => (parityNoted s).ch[c].slots.filter mine) = [] :=
    List.flatMap_eq_nil_iff.mpr fun c _ => by rw [parityNoted_ch, hslots, List.filter_nil]
  rw [hrun, hnone, List.foldl_nil]

/-- The error of a free entry that is no host-service reservation is counted alone. -/
theorem trackerParity_of_free {s : State} {b : Fin 4096} (h : unitOf s b.val = none) (hb : ¬(b.val < 1024 ∧ b.val % 32 < 2)) :
    trackerParity s b = parityNoted s := by
  have hunit : ¬ (unitOf (parityNoted s) b.val).isSome = true := by rw [parityNoted_unitOf, h]; decide
  exact (if_neg hunit).trans (if_neg hb)

/-- Out of reset, the command is the error, settled. -/
theorem exec_trackerParityError {s u : State} {b : Fin 4096} (hs : s.pd.inReset = false) (h : trackerParity s b = u) :
    exec (.trackerParityError b) s = .next (settleAll u) :=
  next_onLive hs (congrArg settleAll h)

/-- Settles O34: the two arbiters' heads by one rule of ageing, the parity error by what a squash takes out of the tracker. -/
theorem trackerGrantsAgesAndSquashes : Obligations.TrackerGrantsAgesAndSquashes := by
  refine ⟨fun k s h => next_onLive_of_fixed (grantDependent_of_none h),
    fun k w id s u hs h hdraw => next_onLive hs (grantDependent_of_drawn h hdraw),
    fun t at_ s hs hdue =>
      ⟨_, next_onLive hs (headAged_hash_of_due hdue), ?hashNow, btInt_getLsbD _ (by decide), tierRing_setRing .., ?hashCh⟩,
    fun p at_ s hs hdue =>
      ⟨_, next_onLive hs (headAged_port_of_due hdue), ?portNow, btInt_getLsbD _ (by decide), modPort_arb .., ?portCh⟩,
    fun b u s hs hunit => ?squashed, fun b s hs hfree hb => exec_trackerParityError hs (trackerParity_of_free hfree hb)⟩
  case hashNow => rw [btInt_clk, setRing_clk, reachTime]
  case hashCh => rw [btInt_ch, setRing_ch, reachTime_ch]
  case portNow => rw [btInt_clk, modPort_clk, reachTime]
  case portCh => rw [btInt_ch, modPort_ch, reachTime_ch]
  case squashed =>
    obtain ⟨mine, respond, hrun⟩ := trackerParity_of_unit hunit
    obtain ⟨fb, pr, hnoted⟩ := parityNoted_frame s
    have raised : (parityNoted s).bt.intSts.getLsbD 4 = true := by
      rw [hnoted]
      exact getLsbD_setBit_self _ (by decide)
    exact ⟨⟨_, exec_trackerParityError hs hrun⟩,
      fun hslots => exec_trackerParityError hs (trackerParity_of_no_slots hunit hslots), congrArg (·.bt.parity) hnoted, raised,
      fun hidle => unitOf_squashAll (s := parityNoted s) (List.mem_singleton_self _) fun c => by rw [parityNoted_kv, hidle]⟩

end Sys2Proof.Machine
end

section
/-! One instruction on a core (R234, R235): its registers, its fetch, and how its end leaves the command. -/

namespace Sys2Proof.Machine

/-! One core. -/

/-- A change of a core that changes nothing there changes nothing. -/
theorem modCore_of_fixed {s : State} {c : Core} {f : CoreRt → CoreRt} (h : f s.he.cores[c] = s.he.cores[c]) :
    modCore s c f = s := by
  have hset : s.he.cores.set c s.he.cores[c] = s.he.cores := Vector.set_getElem_self c.isLt
  simp only [modCore, h, hset]

/-! Registers (R234). -/

theorem rvPut_zero (s : State) (c : Core) (v : Word) : rvPut s c 0 v = s := dif_neg fun h => h.2 rfl

theorem rvPut_cores_ne (s : State) {c d : Core} (r : Nat) (v : Word) (h : d ≠ c) :
    (rvPut s c r v).he.cores[d] = s.he.cores[d] := by
  unfold rvPut
  split
  · exact modCore_cores_ne s _ h
  · rfl

/-- A register written, x0 apart, changes the file of registers at its number. -/
theorem rvPut_regs (s : State) (c : Core) {r : Nat} (v : Word) (hr : r < 32) (h0 : r ≠ 0) :
    ((rvPut s c r v).he.cores[c]).regs = (s.he.cores[c]).regs.set r v := by
  rw [rvPut, dif_pos ⟨hr, h0⟩, modCore_cores_same]

theorem rvGet_rvPut_same (s : State) (c : Core) {r : Nat} (v : Word) (hr : r < 32) (h0 : r ≠ 0) :
    rvGet (rvPut s c r v) c r = v := by
  rw [rvGet, rvPut_regs s c v hr h0]
  simp [Vector.getD, hr]

theorem rvGet_rvPut_ne (s : State) (c : Core) {r q : Nat} (v : Word) (hr : r < 32) (h0 : r ≠ 0) (hq : q ≠ r) :
    rvGet (rvPut s c r v) c q = rvGet s c q := by
  rw [rvGet, rvPut_regs s c v hr h0]
  simp [Vector.getD, hq.symm, rvGet]

/-! The fetch of a 32-bit instruction (R235). -/

theorem lowHalf_is_wide {w : Word} (h : w &&& 3#32 = 3#32) : w.extractLsb' 0 16 &&& 3#16 = 3#16 :=
  (BitVec.extractLsb'_and (x := w) (y := 3#32)).symm.trans (congrArg (BitVec.extractLsb' 0 16) h)

theorem halves_append (w : Word) : w.extractLsb' 16 16 ++ w.extractLsb' 0 16 = w := by
  rw [BitVec.extractLsb'_append_extractLsb'_eq_extractLsb' (by decide)]
  exact BitVec.extractLsb'_eq_self

/-- A 32-bit instruction whose two halves are fetched runs, or is illegal. -/
theorem rvInstr_of_fetched {s : State} {c : Core} {w : Word} (hwide : w &&& 3#32 = 3#32)
    (hlow : fetchHalf s c (s.he.cores[c]).pc.toNat = (.ok (w.extractLsb' 0 16), s))
    (hhigh : fetchHalf s c ((s.he.cores[c]).pc + 2).toNat = (.ok (w.extractLsb' 16 16), s)) (os : OsAnswer) :
    rvInstr s c os = (rvRun s c os ((s.he.cores[c]).pc + 4) w).elim (rvIllegal s c w) (rvFinish c) := by
  simp only [rvInstr, hlow, lowHalf_is_wide hwide, hhigh, halves_append, ne_eq, not_true_eq_false, if_false]
  split
  next e hrun => rw [hrun, Option.elim_some]
  next hrun => rw [hrun, Option.elim_none]

theorem CoreAt.live {s : State} {c : Core} {w : Word} (h : CoreAt s c w) : s.pd.inReset = false := h.left

theorem CoreAt.running {s : State} {c : Core} {w : Word} (h : CoreAt s c w) : (s.he.cores[c]).st = .running := by
  obtain ⟨-, -, hst, -⟩ := h
  exact hst

/-- A core at an instruction does nothing but execute it. -/
theorem coreInstr_of_coreAt {s : State} {c : Core} {w : Word} (h : CoreAt s c w) :
    coreInstr s c none = (rvRun s c .ask ((s.he.cores[c]).pc + 4) w).elim (rvIllegal s c w) (rvFinish c) := by
  obtain ⟨-, hruns, hst, hwfi, hwait, hdbg, hint, hwide, hlow, hhigh⟩ := h
  have hwoken : modCore s c (fun x => { x with wfi := false }) = s := modCore_of_fixed (by rw [← hwfi])
  simp only [coreInstr, hruns, hwoken, hst, hwfi, hwait, hdbg, hint, rvInstr_of_fetched hwide hlow hhigh, Bool.not_true,
    Bool.false_eq_true, reduceCtorEq, false_and, if_false]

/-! What an instruction's end makes of the command. -/

section Executed

variable {s : State} {c : Core} {w : Word} (h : CoreAt s c w)
include h

theorem exec_coreInstruction_of_run {e : RvEnd} (hrun : rvRun s c .ask ((s.he.cores[c]).pc + 4) w = some e) :
    exec (.coreInstruction c none) s = .next (rvFinish c e) :=
  next_onLive h.live (by rw [coreInstr_of_coreAt h, hrun, Option.elim_some])

theorem exec_coreInstruction_of_illegal (hrun : rvRun s c .ask ((s.he.cores[c]).pc + 4) w = none) :
    exec (.coreInstruction c none) s = .next (rvIllegal s c w) :=
  next_onLive h.live (by rw [coreInstr_of_coreAt h, hrun, Option.elim_none])

end Executed

end Sys2Proof.Machine
end

section
/-! The integer instructions (R234): the run of each, the values and conditions they take, and the settling of O35. -/

namespace Sys2Proof.Machine

section Run

variable {w : Word} (s : State) (c : Core) (os : OsAnswer) (next : Word)

theorem rvRun_lui (hop : rvOp w = 0x37) :
    rvRun s c os next w = some (.done (rvRetire (rvPut s c (rvRd w) (rvImmU w)) c next)) := by
  simp only [rvRun, hop]

theorem rvRun_auipc (hop : rvOp w = 0x17) :
    rvRun s c os next w = some (.done (rvRetire (rvPut s c (rvRd w) ((s.he.cores[c]).pc + rvImmU w)) c next)) := by
  simp only [rvRun, hop]

theorem rvRun_jal (hop : rvOp w = 0x6F) :
    rvRun s c os next w = some (.done (rvRetire (rvPut s c (rvRd w) next) c ((s.he.cores[c]).pc + rvImmJ w))) := by
  simp only [rvRun, hop]

theorem rvRun_jalr (hop : rvOp w = 0x67) (hf3 : rvF3 w = 0) :
    rvRun s c os next w = some (.done (rvRetire (rvPut s c (rvRd w) next) c (rvGet s c (rvRs1 w) + rvImmI w))) := by
  simp only [rvRun, hop, hf3, ne_eq, not_true_eq_false, if_false]

/-- A branch goes to its target where its condition holds. -/
theorem rvRun_branch {p : Prop} [Decidable p] (hop : rvOp w = 0x63)
    (htaken : rvTaken (rvF3 w) (rvGet s c (rvRs1 w)) (rvGet s c (rvRs2 w)) = some (decide p)) :
    rvRun s c os next w = some (.done (rvRetire s c (if p then (s.he.cores[c]).pc + rvImmB w else next))) := by
  simp only [rvRun, hop, htaken, Option.map_some, decide_eq_true_eq]

theorem rvRun_opImm {v : Word} (hop : rvOp w = 0x13) (hv : rvOpImm (rvGet s c (rvRs1 w)) w = some v) :
    rvRun s c os next w = some (.done (rvRetire (rvPut s c (rvRd w) v) c next)) := by
  simp only [rvRun, hop, hv, Option.map_some]

theorem rvRun_opReg {v : Word} (hop : rvOp w = 0x33)
    (hv : rvOpReg (rvGet s c (rvRs1 w)) (rvGet s c (rvRs2 w)) w = some v) :
    rvRun s c os next w = some (.done (rvRetire (rvPut s c (rvRd w) v) c next)) := by
  simp only [rvRun, hop, hv, Option.map_some]

end Run

/-! The conditions and values. -/

section Values

variable {w : Word} (a b : Word)

theorem rvTaken_beq (hf3 : rvF3 w = 0) : rvTaken (rvF3 w) a b = some (decide (a = b)) := by
  rw [hf3]
  exact congrArg some (beq_eq_decide a b)
theorem rvTaken_blt (hf3 : rvF3 w = 4) : rvTaken (rvF3 w) a b = some (decide (a.toInt < b.toInt)) := by
  rw [hf3]
  rfl
theorem rvTaken_bltu (hf3 : rvF3 w = 6) : rvTaken (rvF3 w) a b = some (decide (a.toNat < b.toNat)) := by
  rw [hf3]
  rfl

theorem rvOpImm_addi (hf3 : rvF3 w = 0) : rvOpImm a w = some (a + rvImmI w) := by
  simp only [rvOpImm, hf3]
  rfl

theorem rvOpReg_add (hf7 : rvF7 w = 0) (hf3 : rvF3 w = 0) : rvOpReg a b w = some (a + b) := by
  simp only [rvOpReg, hf7, hf3]
  rfl
theorem rvOpReg_sub (hf7 : rvF7 w = 0x20) (hf3 : rvF3 w = 0) : rvOpReg a b w = some (a - b) := by
  simp only [rvOpReg, hf7, hf3]
  rfl
theorem rvOpReg_mul (hf7 : rvF7 w = 1) (hf3 : rvF3 w = 0) : rvOpReg a b w = some (a * b) := by
  simp only [rvOpReg, hf7, hf3]
  rfl
theorem rvOpReg_divu_zero (hf7 : rvF7 w = 1) (hf3 : rvF3 w = 5) (hb : b = 0) : rvOpReg a b w = some 0xFFFFFFFF#32 := by
  simp only [rvOpReg, hf7, hf3, rvMulDiv, hb, if_true]
  rfl

end Values

/-- Settles O35: each instruction by its own run; registers by the file of registers they stand in. -/
theorem coresExecuteIntegerInstructions : Obligations.CoresExecuteIntegerInstructions := by
  refine ⟨fun c w s hat => ?executed, fun c v s => rvPut_zero s c v, fun c r v s h0 hr =>
    ⟨rvGet_rvPut_same s c v hr h0.ne', fun q hq => rvGet_rvPut_ne s c v hr h0.ne' hq, fun d hd => rvPut_cores_ne s r v hd⟩⟩
  case executed =>
    intro pc a b put run
    have runs {e : RvEnd} (hrun : rvRun s c .ask (pc + 4) w = some e) : run = .next (rvFinish c e) :=
      exec_coreInstruction_of_run hat hrun
    exact ⟨fun hop => runs (rvRun_lui s c _ _ hop), fun hop => runs (rvRun_auipc s c _ _ hop),
      fun hop => runs (rvRun_jal s c _ _ hop), fun hop hf3 => runs (rvRun_jalr s c _ _ hop hf3),
      fun hop hf3 => runs (rvRun_branch s c _ _ hop (rvTaken_beq a b hf3)),
      fun hop hf3 => runs (rvRun_branch s c _ _ hop (rvTaken_blt a b hf3)),
      fun hop hf3 => runs (rvRun_branch s c _ _ hop (rvTaken_bltu a b hf3)),
      fun hop hf3 => runs (rvRun_opImm s c _ _ hop (rvOpImm_addi a hf3)),
      fun hop hf7 hf3 => runs (rvRun_opReg s c _ _ hop (rvOpReg_add a b hf7 hf3)),
      fun hop hf7 hf3 => runs (rvRun_opReg s c _ _ hop (rvOpReg_sub a b hf7 hf3)),
      fun hop hf7 hf3 => runs (rvRun_opReg s c _ _ hop (rvOpReg_mul a b hf7 hf3)),
      fun hop hf7 hf3 hb => runs (rvRun_opReg s c _ _ hop (rvOpReg_divu_zero a b hf7 hf3 hb)), fun e hrun => runs hrun⟩

end Sys2Proof.Machine
end

section
/-! The trap of a core, and its loads and stores in shared RAM (R234, R239), and the settling of O36. -/

namespace Sys2Proof.Machine

/-! The trap of a core. -/

/-- mstatus as a trap leaves it: MIE goes to MPIE and falls, and MPP names the mode that was left. -/
def trapStatus (k : CoreRt) : Word :=
  (clrBit (putBit k.mstatus 7 (k.mstatus.getLsbD 3)) 3 &&& 0xFFFFE7FF#32) ||| (if k.user then 0#32 else 0x1800#32)

theorem trapStatus_mie (k : CoreRt) : (trapStatus k).getLsbD 3 = false := by
  have hmode : (if k.user then 0#32 else 0x1800#32 : Word).getLsbD 3 = false := by split <;> rfl
  simp only [trapStatus, BitVec.getLsbD_or, BitVec.getLsbD_and, getLsbD_clrBit, hmode, Nat.reduceLT, decide_true, Bool.not_true,
    Bool.and_false, Bool.false_and, Bool.or_self]

theorem getLsbD_putBit_self {n i : Nat} (w : BitVec n) (v : Bool) (h : i < n) : (putBit w i v).getLsbD i = v := by
  cases v <;> simp [putBit, h]

theorem trapStatus_mpie (k : CoreRt) : (trapStatus k).getLsbD 7 = k.mstatus.getLsbD 3 := by
  have hmode : (if k.user then 0#32 else 0x1800#32 : Word).getLsbD 7 = false := by split <;> rfl
  have hkept : (0xFFFFE7FF#32).getLsbD 7 = true := rfl
  simp only [trapStatus, BitVec.getLsbD_or, BitVec.getLsbD_and, getLsbD_clrBit _ _ (show 7 < 32 by decide),
    getLsbD_putBit_self _ _ (show 7 < 32 by decide), hmode, hkept, Nat.reduceEqDiff, decide_false, Bool.not_false, Bool.and_true,
    Bool.or_false]

theorem rvTrapEntry_core (s : State) (c : Core) (cause : Nat) (tval : Word) :
    (rvTrapEntry s c false cause tval).he.cores[c] = { s.he.cores[c] with
      mepc := (s.he.cores[c]).pc, mcause := BitVec.ofNat 32 cause, mtval := tval, mstatus := trapStatus s.he.cores[c]
      user := false, reserve := none, wfi := false, osWait := false, atVector := true
      pc := (s.he.cores[c]).mtvec &&& 0xFFFFFFFC#32 } := by
  rw [rvTrapEntry, modCore_cores_same]
  rfl

theorem rvException_of_running {s : State} {c : Core} (h : (s.he.cores[c]).st = .running) (cause : Nat) (tval : Word) :
    rvException s c cause tval = rvTrapEntry s c false cause tval :=
  if_neg (by rw [h]; decide)

/-- A synchronous exception of a RUNNING core: what is saved, and that nothing else of the hearth's RAM or cores moves (R234). -/
theorem rvException_effect {s : State} {c : Core} (h : (s.he.cores[c]).st = .running) (cause : Nat) (tval : Word) :
    let k := s.he.cores[c]
    let t := rvException s c cause tval
    ((t.he.cores[c]).mepc = k.pc ∧ (t.he.cores[c]).mcause = BitVec.ofNat 32 cause ∧
      (t.he.cores[c]).pc = k.mtvec &&& 0xFFFFFFFC#32 ∧ (t.he.cores[c]).user = false ∧ (t.he.cores[c]).reserve = none ∧
      (t.he.cores[c]).mstatus.getLsbD 3 = false ∧ (t.he.cores[c]).mstatus.getLsbD 7 = k.mstatus.getLsbD 3 ∧
      (t.he.cores[c]).regs = k.regs ∧ t.he.ram = s.he.ram ∧ (∀ d : Core, d ≠ c → t.he.cores[d] = s.he.cores[d])) ∧
    (t.he.cores[c]).mtval = tval := by
  intro k t
  have ht : t = rvTrapEntry s c false cause tval := rvException_of_running h cause tval
  rw [ht, rvTrapEntry_core]
  exact ⟨⟨rfl, rfl, rfl, rfl, rfl, trapStatus_mie k, trapStatus_mpie k, rfl, rfl, fun d hd => modCore_cores_ne s _ hd⟩, rfl⟩

/-! Loads and stores (R239-R241). -/

/-- Bases and sizes of Table 8.2. -/
theorem ramBases : tcmOwn = 0x10000000 ∧ tcmBase = 0x11000000 ∧ tcmSize = 0x40000 ∧ sharedBase = 0x20000000 ∧
    sharedSize = 0x100000 := ⟨rfl, rfl, rfl, rfl, rfl⟩

theorem rowOf_shared {m : Nat} (h : m < sharedSize) : rowOf (sharedBase + m) = some .shared := by
  obtain ⟨hown, htcm, htcmSize, hbase, hsize⟩ := ramBases
  rw [rowOf, if_neg (by omega), if_neg (by omega), if_neg (by omega), if_pos (by omega)]

theorem ramAddr_shared (c : Core) {m : Nat} (h : m < sharedSize) : ramAddr c (sharedBase + m) = some (sharedBase + m) := by
  obtain ⟨hown, htcm, htcmSize, hbase, hsize⟩ := ramBases
  have hin : inRam (sharedBase + m) 1 = true := by
    simp only [inRam, inShared, Bool.or_eq_true, Bool.and_eq_true, decide_eq_true_eq]
    exact .inr ⟨by omega, by omega⟩
  rw [ramAddr, if_neg (by omega), if_pos hin]

section Access

variable {s : State} {c : Core}

theorem rvLoad_misaligned {va n : Nat} (h : va % n ≠ 0) (os : OsAnswer) (k : Nat → State → RvEnd) :
    rvLoad s c os va n k = .trap 4 (BitVec.ofNat 32 va) s := if_pos h

theorem rvStore_misaligned {va n : Nat} (h : va % n ≠ 0) (pc v : Word) :
    rvStore s c pc va n v = .trap 6 (BitVec.ofNat 32 va) s := if_pos h

/-- A load from shared RAM hands on the bytes there. -/
theorem rvLoad_shared {va n m : Nat} (halign : va % n = 0) (hm : m < sharedSize)
    (htrans : coreTranslate s c (dataUser s.he.cores[c]) .load va n = (.ok (sharedBase + m), s))
    (hgood : ramBad s (sharedBase + m) n = false) (os : OsAnswer) (k : Nat → State → RvEnd) :
    rvLoad s c os va n k = k (leNat (ramRead s (sharedBase + m) n)) s := by
  simp only [rvLoad, halign, htrans, rowOf_shared hm, codeBad, codeBytes, ramAddr_shared c hm, hgood, ne_eq, not_true_eq_false,
    Bool.false_eq_true, if_false]

/-- A store to shared RAM retires and then writes its bytes there. -/
theorem rvStore_shared {va n m : Nat} (halign : va % n = 0) (hm : m < sharedSize)
    (htrans : coreTranslate s c (dataUser s.he.cores[c]) .store va n = (.ok (sharedBase + m), s)) (pc v : Word) :
    rvStore s c pc va n v = .done (ramWrite (rvRetire s c pc) (some c) (sharedBase + m) (leBytes n v.toNat)) := by
  simp only [rvStore, halign, htrans, ramAddr_shared c hm, ne_eq, not_true_eq_false, if_false]

variable {w : Word} (os : OsAnswer) (next : Word)

theorem rvRun_lw (hop : rvOp w = 0x03) (hf3 : rvF3 w = 2) :
    rvRun s c os next w = some (rvLoad s c os (rvGet s c (rvRs1 w) + rvImmI w).toNat 4
      (fun v s => .done (rvRetire (rvPut s c (rvRd w) (BitVec.ofNat 32 v)) c next))) := by
  simp only [rvRun, hop, hf3]
  rfl

theorem rvRun_sw (hop : rvOp w = 0x23) (hf3 : rvF3 w = 2) :
    rvRun s c os next w =
      some (rvStore s c next (rvGet s c (rvRs1 w) + rvImmS w).toNat 4 (rvGet s c (rvRs2 w))) := by
  simp only [rvRun, hop, hf3]
  rfl

theorem rvRun_ecall : rvRun s c os next 0x00000073#32 = some (.trap (if (s.he.cores[c]).user then 8 else 11) 0 s) := rfl

end Access

/-- Settles O36: loads and stores by their access, every trap by what an exception of a RUNNING core leaves. -/
theorem coresLoadStoreAndTrap : Obligations.CoresLoadStoreAndTrap := by
  intro c w s hat k a b lva sva run traps
  have runs {e : RvEnd} (hrun : rvRun s c .ask (k.pc + 4) w = some e) : run = .next (rvFinish c e) :=
    exec_coreInstruction_of_run hat hrun
  have hst : k.st = .running := hat.running
  refine ⟨fun m hop hf3 halign htrans hm hgood => ?loaded, fun m hop hf3 halign htrans hm => ?stored,
    fun hop hf3 halign => ?loadTraps, fun hop hf3 halign => ?storeTraps, fun hw => ?ecall, fun hnone => ?illegal⟩
  case loaded =>
    rw [runs (rvRun_lw _ _ hop hf3), rvLoad_shared halign (by omega) htrans hgood]
    rfl
  case stored =>
    rw [runs (rvRun_sw _ _ hop hf3), rvStore_shared halign (by omega) htrans]
    rfl
  case loadTraps =>
    have hrun := runs ((rvRun_lw .ask _ hop hf3).trans (congrArg some (rvLoad_misaligned halign .ask _)))
    exact ⟨_, hrun, rvException_effect hst 4 _⟩
  case storeTraps =>
    have hrun := runs ((rvRun_sw .ask _ hop hf3).trans (congrArg some (rvStore_misaligned halign _ b)))
    exact ⟨_, hrun, rvException_effect hst 6 _⟩
  case ecall =>
    subst hw
    exact ⟨_, runs (rvRun_ecall .ask _), rvException_effect hst _ 0⟩
  case illegal =>
    obtain ⟨htraps, htval⟩ :=
      rvException_effect (s := useFree s 1) hst 2 (if (Config.freeWord s.clk.free).getLsbD 0 then w else 0)
    refine ⟨_, exec_coreInstruction_of_illegal hat hnone, htraps, ?_⟩
    rw [rvIllegal, htval]
    split
    · exact .inr rfl
    · exact .inl rfl

end Sys2Proof.Machine
end

section
/-! START of a core (R237, R429), its waits for the own store (R219, R241), the region unit's commands (R246), and the settling of
O37. -/

namespace Sys2Proof.Machine

/-- A core's write that changes nothing is its command's whole effect, in reset or out of it. -/
theorem next_coreWrite_of_fixed {s : State} {m : Core} {w : Nat} {closed : Bool} {f : State → State} (h : f s = s) :
    (.next (onLive s fun s => wr s (.core m) w closed f) : Host.Outcome State Fault Refusal) = .next s :=
  next_onLive_of_fixed ((wr_of_mayWrite (mayWrite_core ..) f).trans h)

/-! START (R237, R429). -/

theorem entropyBytes_time {s u : State} {n : Nat} {r : Option (List Byte)} (h : entropyBytes s n = (r, u)) :
    u.clk.now = s.clk.now ∧ u.clk.resetAt = s.clk.resetAt := by
  rw [entropyBytes] at h
  split at h <;> cases h <;> exact ⟨rfl, rfl⟩

theorem wdSeed_time (s : State) (w : Fin 5) (start : Bool) :
    (wdSeed s w start).clk.now = s.clk.now ∧ (wdSeed s w start).clk.resetAt = s.clk.resetAt := by
  unfold wdSeed
  split
  next h =>
    obtain ⟨hnow, hreset⟩ := entropyBytes_time h
    split <;> exact ⟨hnow, hreset⟩
  next h =>
    obtain ⟨hnow, hreset⟩ := entropyBytes_time h
    exact ⟨hnow, hreset⟩

/-- The core's watchdog starts with it where the option asks it (R429). -/
def startWatchdog (s : State) (c : Core) : State :=
  if optCwdHw s then wdStart s ⟨c.val, Nat.lt_succ_of_lt c.isLt⟩ else s

theorem startWatchdog_time (s : State) (c : Core) :
    (startWatchdog s c).clk.now = s.clk.now ∧ (startWatchdog s c).clk.resetAt = s.clk.resetAt := by
  unfold startWatchdog
  split
  · exact wdSeed_time ..
  · exact ⟨rfl, rfl⟩

/-- A core as START leaves it: at its entry, every other register at reset, its cycle counter from 0 at this cycle (R237). -/
def startedCore (s : State) (c : Core) : CoreRt :=
  { st := .running, pc := s.he.entry[c], mcycleOfs := 0 - BitVec.ofNat 64 (s.clk.now - s.clk.resetAt) }

/-- The rows of Table 8.2 that a core may start in (R237). -/
def startRows : List (Option MapRow) := [some .shared, some .rom, some .ownTcm, some .tcm]

section Start

variable {s : State} {c : Core}

theorem coreStart_of_held (hheld : (s.he.cores[c]).st = .held)
    (hrow : rowOf (s.he.entry[c]).toNat ∈ startRows) (hc : c ≠ 0) :
    coreStart s c = modCore (startWatchdog s c) c (fun _ => startedCore s c) := by
  obtain ⟨hnow, hreset⟩ := startWatchdog_time s c
  rw [coreStart, if_pos]
  · simp only [startedCore, ← hnow, ← hreset]
    rfl
  · simp only [startRows, List.mem_cons, List.not_mem_nil, or_false] at hrow
    refine ⟨hheld, ?_, hc⟩
    rcases hrow with h | h | h | h <;> rw [h]

theorem coreStart_of_ignored (h : c = 0 ∨ (s.he.cores[c]).st ≠ .held ∨
    rowOf (s.he.entry[c]).toNat ∉ startRows) : coreStart s c = s := by
  rw [coreStart, if_neg]
  rintro ⟨hheld, hgood, hc⟩
  have hrow : rowOf (s.he.entry[c]).toNat ∈ startRows := by
    split at hgood
    iterate 4 next h => rw [h]; decide
    next => cases hgood
  rcases h with h | h | h
  · exact hc h
  · exact h hheld
  · exact h hrow

/-- The cycle counter of a core that has just started shows 0. -/
theorem rvCycle_started (s : State) (c : Core) :
    rvCycle (modCore (startWatchdog s c) c (fun _ => startedCore s c)) c = 0 := by
  obtain ⟨hnow, hreset⟩ := startWatchdog_time s c
  have hcounts : (startedCore s c).mcountinhibit = 0 := rfl
  rw [rvCycle, modCore_cores_same, modCore_clk, hnow, hreset, hcounts]
  exact BitVec.sub_add_cancel 0 _

end Start

/-! Cores that wait (R219, R241). -/

theorem coreInstr_of_not_runs {s : State} {c : Core} (h : coreRuns s c = false) (p : Option Word) : coreInstr s c p = s :=
  if_pos (by rw [h]; rfl)

theorem ownStoreRead_of_not_waiting {s : State} {c : Core} (h : (s.he.cores[c]).osWait = false) (f : Bool) :
    ownStoreRead s c f = s := if_pos (.inl (by rw [h]; rfl))

section Waiting

variable {s : State} {c : Core} (hwait : (s.he.cores[c]).osWait = true) (hruns : coreRuns s c = true)
  (hidle : osErasing s = false)
include hwait hruns hidle

theorem ownStoreRead_of_granted {u : State} (hgrant : osGrant s (17 + c.val) = some u) (f : Bool) :
    ownStoreRead s c f = rvInstr (osLeave u c) c (if f then .failed else .good) := by
  simp only [ownStoreRead, hwait, hruns, hidle, hgrant, Bool.not_true, Bool.false_eq_true, or_self, if_false]

theorem ownStoreRead_of_not_granted (hgrant : osGrant s (17 + c.val) = none) (f : Bool) : ownStoreRead s c f = s := by
  simp only [ownStoreRead, hwait, hruns, hidle, hgrant, Bool.not_true, Bool.false_eq_true, or_self, if_false]

end Waiting

/-! The region unit (R246). -/

section RegionUnit

variable {s : State} {r : Fin 20} {v : Word}

theorem ruInvalidate_of_requester (h : bf v 0 5 = r.val) : ruInvalidate s v =
    modTlb s r (fun l => if v.getLsbD 5 then [] else l.filter (fun e => e.vpn ≠ bf v 12 20)) := by
  have hr : r = ⟨bf v 0 5, h ▸ r.isLt⟩ := Fin.ext h.symm
  rw [hr]
  exact dif_pos _

theorem ruInvalidate_of_all (h : bf v 0 5 = r.val) (hall : v.getLsbD 5 = true) :
    ruInvalidate s v = modTlb s r (fun _ => []) := by
  simp only [ruInvalidate_of_requester h, hall, if_true]

theorem ruInvalidate_of_page (h : bf v 0 5 = r.val) (hpage : v.getLsbD 5 = false) :
    ruInvalidate s v = modTlb s r (fun l => l.filter (fun e => e.vpn ≠ bf v 12 20)) := by
  simp only [ruInvalidate_of_requester h, hpage, Bool.false_eq_true, if_false]

theorem ruInvalidate_of_no_requester (h : 20 ≤ bf v 0 5) : ruInvalidate s v = s := dif_neg h.not_gt

theorem ruRootWrite_of_core (h : r.val < 4) (v : Word) : ruRootWrite s r v =
    { s with he := { s.he with tlb := s.he.tlb.set r [], root := s.he.root.set r (v &&& 0xFFFFF001#32) } } :=
  dif_neg h.not_ge

/-- A job-DMA channel that is at work keeps its root. -/
theorem ruRootWrite_of_busy {k : Fin 16} (hr : r.val = 4 + k.val) (hidle : (s.he.dma[k]).st ≠ .idle)
    (hfaulted : (s.he.dma[k]).st ≠ .faulted) (v : Word) : ruRootWrite s r v = dmaReject s k := by
  have hlt : r.val - 4 < 16 := Nat.sub_lt_right_of_lt_add (hr ▸ Nat.le_add_right ..) r.isLt
  obtain rfl : ⟨r.val - 4, hlt⟩ = k := Fin.ext (Nat.sub_eq_of_eq_add' hr)
  rw [ruRootWrite, dif_pos (by omega)]
  exact if_neg (not_or.mpr ⟨hidle, hfaulted⟩)

end RegionUnit

/-- Settles O37: START by its core's state and entry, the waiting read by the grant, the region unit by the requester. -/
theorem coreControlAndTranslation : Obligations.CoreControlAndTranslation := by
  refine ⟨fun m c s hs hc hheld hrow => ?started, fun m c s h => next_coreWrite_of_fixed (coreStart_of_ignored h),
    fun x c s => next_extWrite_closed s x 8 _, fun c p s h => next_onLive_of_fixed (coreInstr_of_not_runs h p),
    fun c f s h => next_onLive_of_fixed (ownStoreRead_of_not_waiting h f),
    fun c f s u hs hwait hruns hidle hgrant => next_onLive hs (ownStoreRead_of_granted hwait hruns hidle hgrant f),
    fun c f s hs hwait hruns hidle hgrant => next_onLive hs (ownStoreRead_of_not_granted hwait hruns hidle hgrant f),
    fun m v r s hs hr hall => next_coreWrite hs (ruInvalidate_of_all hr hall),
    fun m v r s hs hr hpage => next_coreWrite hs (ruInvalidate_of_page hr hpage),
    fun m v s h => next_coreWrite_of_fixed (ruInvalidate_of_no_requester h),
    fun m r v s hs hr => next_coreWrite hs (ruRootWrite_of_core hr v),
    fun m k r v s hs hr hidle hfaulted => next_coreWrite hs (ruRootWrite_of_busy hr hidle hfaulted v)⟩
  case started =>
    have hrun : exec (.coreStart (.core m) c) s = .next (modCore (startWatchdog s c) c (fun _ => startedCore s c)) :=
      next_coreWrite hs (coreStart_of_held hheld hrow hc)
    refine ⟨hrun, fun _ u hu => ?_⟩
    obtain rfl := Host.Outcome.next.inj (hrun.symm.trans hu)
    exact rvCycle_started s c

end Sys2Proof.Machine
end

section
/-! Job DMA: the grant of movers (R253), the commands of a channel (R248, R255, R257), a FILL's beat (R251), and the settling of
O38. -/

namespace Sys2Proof.Machine

/-! One channel. -/

theorem modDma_dma_same (s : State) (k : Fin 16) (f : DmaCh → DmaCh) : (modDma s k f).he.dma[k] = f s.he.dma[k] :=
  Vector.getElem_set_self k.isLt

theorem modDma_dma_ne (s : State) {k j : Fin 16} (f : DmaCh → DmaCh) (h : j ≠ k) : (modDma s k f).he.dma[j] = s.he.dma[j] :=
  Vector.getElem_set_ne k.isLt j.isLt (fun e => h (Fin.ext e.symm))

/-- Two changes of one channel are one. -/
theorem modDma_modDma (s : State) (k : Fin 16) (f g : DmaCh → DmaCh) :
    modDma (modDma s k f) k g = modDma s k (fun d => g (f d)) := by
  have hk : (modDma s k f).he.dma[k] = f s.he.dma[k] := modDma_dma_same s k f
  simp only [modDma] at hk ⊢
  rw [hk, Vector.set_set]

/-! Movers go to waiting channels (R253). -/

/-- A channel that waits for a mover. -/
def Waits (d : DmaCh) : Prop := d.st = .waiting ∨ d.st = .preempted

/-- The channel that a free mover goes to is one that waits. -/
theorem dmaNext_waits {s : State} {k : Fin 16} (h : dmaNext s = some k) : Waits s.he.dma[k] := by
  unfold dmaNext at h
  revert k
  refine List.foldlRecOn (motive := fun b => ∀ {k : Fin 16}, b = some k → Waits s.he.dma[k]) _ _ ?none fun b ih j _ => ?step
  case none => exact fun h => by cases h
  case step =>
    intro k hk
    dsimp only at hk
    split at hk
    next => exact ih hk
    next hj =>
      have hwaits : Waits s.he.dma[j] := by
        simpa only [Waits, ne_eq, not_and_or, not_not] using hj
      split at hk
      · cases hk
        exact hwaits
      · split at hk
        · cases hk
          exact hwaits
        · exact ih hk

/-- What the grant of free movers makes of a channel: it stays, or it waited and runs. -/
def GrantedFrom (d e : DmaCh) : Prop := e = d ∨ Waits d ∧ e = { d with st := .running, aged := false }

theorem GrantedFrom.trans {d e f : DmaCh} (hde : GrantedFrom d e) (hef : GrantedFrom e f) : GrantedFrom d f := by
  rcases hde with rfl | ⟨hd, rfl⟩
  · exact hef
  · rcases hef with rfl | ⟨h | h, -⟩
    · exact .inr ⟨hd, rfl⟩
    · cases h
    · cases h

/-- A channel that does not wait stays as it is. -/
theorem GrantedFrom.eq_of_not_waits {d e : DmaCh} (h : GrantedFrom d e) (hd : ¬Waits d) : e = d :=
  h.resolve_right fun hw => hd hw.1

/-- What a grant of free movers keeps: the time, the RAM, and each channel up to its taking a mover. -/
structure Granting (s t : State) : Prop where
  clk : t.clk = s.clk
  ram : t.he.ram = s.he.ram
  dma (k : Fin 16) : GrantedFrom s.he.dma[k] t.he.dma[k]

theorem Granting.trans {s t u : State} (hst : Granting s t) (htu : Granting t u) : Granting s u :=
  ⟨htu.clk.trans hst.clk, htu.ram.trans hst.ram, fun k => (hst.dma k).trans (htu.dma k)⟩

/-- A channel that runs. -/
def channelRuns (s : State) (k : Fin 16) : State := modDma s k (fun d => { d with st := .running, aged := false })

/-- A channel on a mover. -/
def moverGiven (s : State) (m : Fin 4) (k : Fin 16) : State :=
  let t := dmaBillet (channelRuns s k) k .running
  { t with he := { t.he with movers := t.he.movers.set m (some (k, t.clk.now)) } }

theorem dmaBillet_granting (s : State) (k : Fin 16) (st : BilletSt) : Granting s (dmaBillet s k st) := by
  rw [dmaBillet_frame]
  exact ⟨rfl, rfl, fun _ => .inl rfl⟩

theorem channelRuns_granting {s : State} {j : Fin 16} (h : Waits s.he.dma[j]) : Granting s (channelRuns s j) := by
  refine ⟨rfl, rfl, fun k => ?_⟩
  by_cases hk : k = j
  · subst hk
    exact .inr ⟨h, modDma_dma_same ..⟩
  · exact .inl (modDma_dma_ne s _ hk)

theorem moverGiven_granting {s : State} {j : Fin 16} (h : Waits s.he.dma[j]) (m : Fin 4) : Granting s (moverGiven s m j) := by
  obtain ⟨hclk, hram, hdma⟩ := (channelRuns_granting h).trans (dmaBillet_granting _ j .running)
  exact ⟨hclk, hram, hdma⟩

theorem dmaGrant_granting (n : Nat) (s : State) : Granting s (dmaGrant n s) := by
  induction n generalizing s with
  | zero => exact ⟨rfl, rfl, fun _ => .inl rfl⟩
  | succ n ih =>
    unfold dmaGrant
    split
    next m j _ hnext => exact (moverGiven_granting (dmaNext_waits hnext) m).trans (ih (moverGiven s m j))
    next => exact ⟨rfl, rfl, fun _ => .inl rfl⟩

/-! A write of HE_DMA_CTL (R257). -/

/-- The write of HE_DMA_CTL by this master has been taken. -/
def dmaTaken (s : State) (m : Master) (k : Fin 16) : State := modDma s k (fun d => { d with ctlBy := some (s.clk.now, m) })

theorem dmaTake_of_first {s : State} {m : Master} {k : Fin 16} (h : takenNow (s.he.dma[k]).ctlBy s.clk.now m = false)
    (f : State → State) : dmaTake s m k f = f (dmaTaken s m k) := if_neg (by rw [h]; decide)

theorem dmaTake_of_later {s : State} {m : Master} {k : Fin 16} (h : takenNow (s.he.dma[k]).ctlBy s.clk.now m = true)
    (f : State → State) : dmaTake s m k f = dmaReject s k := if_pos h

/-- What the taking shows of its channel is who took it. -/
theorem dmaTaken_channel (s : State) (m : Master) (k : Fin 16) :
    (dmaTaken s m k).he.dma[k] = { s.he.dma[k] with ctlBy := some (s.clk.now, m) } := modDma_dma_same ..

/-- A first command that is refused shows its master and CMD_REJ. -/
theorem dmaReject_dmaTaken (s : State) (m : Master) (k : Fin 16) : dmaReject (dmaTaken s m k) k =
    modDma s k (fun d => { d with ctlBy := some (s.clk.now, m), cmdRej := true }) := modDma_modDma ..

/-! GO (R248). -/

section Commands

variable {s u : State} {k : Fin 16}

theorem dmaGo_of_unowned (h : kvOwner (s.he.dma[k]).owner = none) : dmaGo s k = dmaReject s k := by
  simp only [dmaGo, h]

/-- The job of a channel that has its billet, before a mover is free. -/
def jobQueued (u : State) (k : Fin 16) (id : Nat) : State :=
  modDma u k (fun d => { d with
    st := .waiting, ended := 0, billet := some id, held := none, frame := none, progress := 0, leftAt := u.clk.now
    aged := false })

section Owned

variable {o : Owner} (ho : kvOwner (s.he.dma[k]).owner = some o)
include ho

theorem dmaGo_of_refused (h : (s.he.dma[k]).st ≠ .idle ∨ (s.he.dma[k]).cls = 0) : dmaGo s k = dmaReject s k := by
  simp only [dmaGo, ho]
  exact if_pos h

variable (hst : (s.he.dma[k]).st = .idle) (hcls : (s.he.dma[k]).cls ≠ 0)
include hst hcls

theorem dmaGo_of_not_drawn (hdraw : draw (dmaClass s.he.dma[k]) o none false (.dma k) s = (none, u)) :
    dmaGo s k = modDma u k (fun d => { d with busy := true }) := by
  simp only [dmaGo, ho, hst, hcls, hdraw, ne_eq, not_true_eq_false, or_self, if_false]

theorem dmaGo_of_drawn {id : Nat} (hdraw : draw (dmaClass s.he.dma[k]) o none false (.dma k) s = (some id, u)) :
    dmaGo s k = dmaGrant 4 (dmaBillet (jobQueued u k id) k .waiting) := by
  simp only [dmaGo, ho, hst, hcls, hdraw, ne_eq, not_true_eq_false, or_self, if_false]
  rfl

end Owned

/-- A queued job waits or runs, with its billet and nothing moved yet. -/
theorem jobQueued_granted {t : State} {id : Nat} (h : Granting (jobQueued u k id) t) :
    ((t.he.dma[k]).st = .waiting ∨ (t.he.dma[k]).st = .running) ∧ (t.he.dma[k]).billet = some id ∧ (t.he.dma[k]).ended = 0 ∧
      (t.he.dma[k]).progress = 0 ∧ (t.he.dma[k]).held = none ∧ t.he.ram = u.he.ram := by
  have hjob := h.dma k
  rw [jobQueued, modDma_dma_same] at hjob
  rcases hjob with he | ⟨-, he⟩
  · rw [he]
    exact ⟨.inl rfl, rfl, rfl, rfl, rfl, h.ram⟩
  · rw [he]
    exact ⟨.inr rfl, rfl, rfl, rfl, rfl, h.ram⟩

theorem draw_he {c : BilletClass} {o : Owner} {r : Option Nat} {w : Work} (h : draw c o none false w s = (r, u)) : u.he = s.he := by
  have hu : u = _ := (congrArg Prod.snd h).symm.trans (draw_frame ..)
  rw [hu]

/-! ABORT and RESUME (R255). -/

theorem dmaAbort_of_idle (h : (s.he.dma[k]).st = .idle) : dmaAbort s k = dmaReject s k := if_pos h

/-- An aborted job leaves its channel IDLE, without a billet. -/
theorem dmaAbort_channel (h : (s.he.dma[k]).st ≠ .idle) :
    ((dmaAbort s k).he.dma[k]).st = .idle ∧ ((dmaAbort s k).he.dma[k]).ended = 2 ∧ ((dmaAbort s k).he.dma[k]).billet = none := by
  rw [dmaAbort, if_neg h]
  extract_lets squashed
  have hjob := (dmaGrant_granting 4 (modDma squashed k (fun d => { d with
    st := .idle, ended := 2, billet := none, held := none, frame := none, progress := 0, aged := false }))).dma k
  rw [modDma_dma_same] at hjob
  rw [hjob.eq_of_not_waits (by rintro (h | h) <;> cases h)]
  exact ⟨rfl, rfl, rfl⟩

theorem dmaResume_of_not_faulted (h : (s.he.dma[k]).st ≠ .faulted) : dmaResume s k = dmaReject s k := if_pos h

/-- A resumed job waits or runs, from the progress it has made. -/
theorem dmaResume_channel (h : (s.he.dma[k]).st = .faulted) :
    (((dmaResume s k).he.dma[k]).st = .waiting ∨ ((dmaResume s k).he.dma[k]).st = .running) ∧
    ((dmaResume s k).he.dma[k]).progress = (s.he.dma[k]).progress ∧
    ((dmaResume s k).he.dma[k]).held = (if (s.he.dma[k]).progress = 0 then none else (s.he.dma[k]).held) ∧
    (dmaResume s k).he.ram = s.he.ram := by
  rw [dmaResume, if_neg (not_not_intro h)]
  extract_lets waiting
  have hgrant := dmaGrant_granting 4 waiting
  have hjob := hgrant.dma k
  have hram : (dmaGrant 4 waiting).he.ram = s.he.ram := hgrant.ram
  have hwaiting : waiting.he.dma[k] = _ := modDma_dma_same ..
  rw [hwaiting] at hjob
  rcases hjob with he | ⟨-, he⟩
  · rw [he]
    exact ⟨.inl rfl, rfl, rfl, hram⟩
  · rw [he]
    exact ⟨.inr rfl, rfl, rfl, hram⟩

/-! A beat of a FILL (R251, R253). -/

theorem dmaFetch_of_fill {x : Vector Word 8} (hop : dOp x = 1) (p n : Nat) (bad : Bool) :
    dmaFetch s k x p n bad = (.ok (dmaPattern x[1] p n) s, 0) := by
  simp only [dmaFetch, hop]

/-- A beat that is not its descriptor's last moves PROGRESS, and past a multiple of 512 bytes the job may be pre-empted. -/
theorem dmaMove_of_fill {x : Vector Word 8} (bad : Bool) (hop : dOp x = 1)
    (hleft : (s.he.dma[k]).progress + dmaBeatLen x (s.he.dma[k]).progress < dLen x)
    (hwrite : dmaWrite s k ((x[2].toNat + if dDfix x then 0 else (s.he.dma[k]).progress) % 2 ^ 32) (dDfix x)
      (dmaPattern x[1] (s.he.dma[k]).progress (dmaBeatLen x (s.he.dma[k]).progress)) = (none, u))
    (hon : (u.he.dma[k]).st = .running) :
    let p := (s.he.dma[k]).progress
    let v := modDma u k (fun y => { y with progress := p + dmaBeatLen x p })
    dmaMove s k x bad = if p / 512 < (p + dmaBeatLen x p) / 512 then dmaPreempt v k else v := by
  have hmore : ¬ dLen x ≤ (s.he.dma[k]).progress := by omega
  have hruns : dmaOn u k = true := by rw [dmaOn, hon]; rfl
  simp only [dmaMove, hmore, dmaFetch_of_fill hop, hwrite, hruns, hleft.ne, Bool.not_true, Bool.false_eq_true, if_false]

theorem dmaBeat_of_held {mv : Fin 4} {at_ : Nat} {x : Vector Word 8} (hmv : s.he.movers[mv] = some (k, at_))
    (hheld : (s.he.dma[k]).held = some x) : dmaBeat s mv none = dmaMove s k x false := by
  simp only [dmaBeat, hmv, hheld]
  rfl

/-! Aging (R253). -/

/-- After 1 ms a waiting channel is aged, or has its mover. -/
theorem dmaAge_of_waiting (hst : (s.he.dma[k]).st = .waiting) (haged : (s.he.dma[k]).aged = false) :
    (dmaAge s k).clk.now = max s.clk.now ((s.he.dma[k]).leftAt + 500000) ∧
    (((dmaAge s k).he.dma[k]).aged = true ∨ ((dmaAge s k).he.dma[k]).st = .running) := by
  rw [dmaAge, if_pos ⟨.inl hst, by rw [haged]; rfl⟩]
  have hgrant := dmaGrant_granting 4 (modDma (reachTime s ((s.he.dma[k]).leftAt + msCyc 1)) k (fun d => { d with aged := true }))
  have hjob := hgrant.dma k
  rw [modDma_dma_same] at hjob
  refine ⟨congrArg Clk.now hgrant.clk, ?_⟩
  rcases hjob with he | ⟨-, he⟩
  · exact .inl (by rw [he])
  · exact .inr (by rw [he])

end Commands

/-- Settles O38: each command on the channel as `dmaTaken` shows it, the beat by its move, the waiting channels by `Granting`. -/
theorem jobDmaCommands : Obligations.JobDmaCommands := by
  intro m k s hs d m1 rejected s1
  refine ⟨fun hlater => ?later, fun hfirst => ?first, fun mv at_ x u hmv hheld hop hleft hwrite hon =>
    next_onLive hs ((dmaBeat_of_held hmv hheld).trans (dmaMove_of_fill false hop hleft hwrite hon)),
    fun hst haged => ⟨_, next_onLive hs rfl, dmaAge_of_waiting hst haged⟩⟩
  case later =>
    exact ⟨next_coreWrite hs (dmaTake_of_later hlater _), next_coreWrite hs (congrArg settleAll (dmaTake_of_later hlater _)),
      next_coreWrite hs (dmaTake_of_later hlater _)⟩
  case first =>
    have taken (f : State → State) : dmaTake s (.core m) k f = f s1 := dmaTake_of_first hfirst f
    have refuse : dmaReject s1 k = rejected := dmaReject_dmaTaken s (.core m) k
    have go {t : State} (h : dmaGo s1 k = t) : exec (.dmaGo (.core m) k) s = .next t := next_coreWrite hs ((taken _).trans h)
    have abort {t : State} (h : dmaAbort s1 k = t) : exec (.dmaAbort (.core m) k) s = .next (settleAll t) :=
      next_coreWrite hs (congrArg settleAll ((taken _).trans h))
    have resume {t : State} (h : dmaResume s1 k = t) : exec (.dmaResume (.core m) k) s = .next t :=
      next_coreWrite hs ((taken _).trans h)
    have hd : s1.he.dma[k] = { d with ctlBy := m1 } := dmaTaken_channel s (.core m) k
    have owner : (s1.he.dma[k]).owner = d.owner := by rw [hd]
    have cls : (s1.he.dma[k]).cls = d.cls := by rw [hd]
    have st : (s1.he.dma[k]).st = d.st := by rw [hd]
    have class_ : dmaClass s1.he.dma[k] = dmaClass d := by rw [hd]; rfl
    refine ⟨fun ho => go ((dmaGo_of_unowned (by rw [owner, ho])).trans refuse),
      fun o ho h => go ((dmaGo_of_refused (by rw [owner, ho]) (by rwa [st, cls])).trans refuse),
      fun o u ho hst hcls hdraw => go (dmaGo_of_not_drawn (by rw [owner, ho]) (by rw [st, hst]) (by rwa [cls]) (by rwa [class_])),
      fun o id u ho hst hcls hdraw =>
        ⟨_, go (dmaGo_of_drawn (by rw [owner, ho]) (by rw [st, hst]) (by rwa [cls]) (by rwa [class_])), ?drawn⟩,
      fun h => abort ((dmaAbort_of_idle (by rw [st, h])).trans refuse), fun h => ⟨_, abort rfl, dmaAbort_channel (by rwa [st])⟩,
      fun h => resume ((dmaResume_of_not_faulted (by rwa [st])).trans refuse), fun h => ⟨_, resume rfl, ?resumed⟩⟩
    case drawn =>
      obtain ⟨hwaits, hbillet, hended, hprogress, hheld, hram⟩ :=
        jobQueued_granted ((dmaBillet_granting (jobQueued u k id) k .waiting).trans (dmaGrant_granting 4 _))
      have hdrawn : u.he.ram = s1.he.ram := congrArg He.ram (draw_he hdraw)
      exact ⟨hwaits, hbillet, hended, hprogress, hheld, hram.trans hdrawn⟩
    case resumed =>
      obtain ⟨hwaits, hprogress, hheld, hram⟩ := dmaResume_channel (s := s1) (k := k) (by rw [st, h])
      rw [hd] at hprogress hheld
      exact ⟨hwaits, hprogress, hheld, hram⟩

end Sys2Proof.Machine
end

section
/-! The machine timer (R262), the TAP and the debug module (R334), and the settling of O39. -/

namespace Sys2Proof.Machine

/-! The machine timer (R262). -/

/-- Once the device's clock has come to it, mtime has reached a compare value. -/
theorem timerPending_mtimeMatch (s : State) (c : Core) : timerPending (mtimeMatch s c) c = true := by
  have hreached : s.clk.resetAt + 500 * (s.he.mtimecmp[c]).toNat ≤ (mtimeMatch s c).clk.now := Nat.le_max_right ..
  have hmtime : mtime (mtimeMatch s c) = ((mtimeMatch s c).clk.now - s.clk.resetAt) / 500 := rfl
  refine decide_eq_true ?_
  rw [hmtime]
  change (s.he.mtimecmp[c]).toNat ≤ _
  omega

/-! The TAP and the debug module (R334). -/

/-- With debug and the factory test modes closed, the TAP offers nothing but its standard instructions. -/
theorem tapSelect_of_closed {s : State} {ir : BitVec 5} (hdbg : dbgOpen s = false) (hfactory : factoryOpen s = false)
    (hir : ir ≠ Config.tapSample) : tapSelect s ir = { s with lc := { s.lc with tapIr := 0x1F } } := by
  simp only [tapSelect, hdbg, hfactory, hir, decide_false, Bool.false_and, Bool.or_self, Bool.false_eq_true, if_false]

theorem tapSelect_of_open {s : State} {ir : BitVec 5} (hdbg : dbgOpen s = true)
    (hir : ir = 0x10 ∨ ir = 0x11 ∨ ir = Config.tapExtest ∨ ir = Config.tapSample) :
    tapSelect s ir = { s with lc := { s.lc with tapIr := ir } } := by
  have hoffered : (decide (ir = Config.tapSample) ||
      (dbgOpen s && (decide (ir = Config.tapExtest) || decide (ir = 0x10) || decide (ir = 0x11))) ||
      (factoryOpen s && Config.tapFactory ir)) = true := by
    rcases hir with h | h | h | h <;> simp [h, hdbg]
  simp only [tapSelect, hoffered, if_true]

theorem debugAccess_of_closed {s : State} (h : dbgOpen s = false ∨ s.lc.tapIr ≠ 0x11) (a : DebugOp) : debugAccess s a = s :=
  if_pos (h.imp_left fun hdbg => by rw [hdbg]; rfl)

/-- A read of a register other than sbdata0 has no side effect. -/
theorem debugAccess_dmiRead {s : State} {r : BitVec 7} (hdbg : dbgOpen s = true) (hir : s.lc.tapIr = 0x11) (hr : r ≠ 0x3C) :
    debugAccess s (.dmiRead r) = { s with lc := { s.lc with dmiOut := dmRead s r.toNat } } := by
  simp only [debugAccess, hdbg, hir, hr, Bool.not_true, Bool.false_eq_true, ne_eq, not_true_eq_false, or_self, false_and, if_false]

/-- Settles O39: claim and completion as the interrupt controller takes them, the timer by its due cycle, debug by what is open. -/
theorem interruptsTimerAndDebug : Obligations.InterruptsTimerAndDebug :=
  ⟨fun _ _ _ _ hs => next_coreWrite hs rfl, fun _ _ _ _ hs => next_coreWrite hs rfl,
    fun x _ _ s => ⟨next_extWrite_closed s x 8 _, next_extWrite_closed s x 8 _⟩,
    fun c s hs => ⟨_, next_onLive hs rfl, timerPending_mtimeMatch s c, rfl⟩,
    fun _ _ hdbg hfactory hir => congrArg _ (tapSelect_of_closed hdbg hfactory hir),
    fun _ _ hdbg hir => congrArg _ (tapSelect_of_open hdbg hir),
    fun a _ h => next_onLive_of_fixed (debugAccess_of_closed h a),
    fun _ _ hs hdbg hir hr => next_onLive hs (debugAccess_dmiRead hdbg hir hr)⟩

end Sys2Proof.Machine
end

section
/-! Kindling's SMBus transaction (R505): the grant of ports to waiting transactions (R290) leaves its registers alone. The settling of
O42. -/

namespace Sys2Proof.Machine

/-! The grant of ports. -/

theorem modStep_steps_same (s : State) (i : Fin 128) (f : StepRt → StepRt) : (modStep s i f).sq.steps[i] = f s.sq.steps[i] :=
  Vector.getElem_set_self i.isLt

theorem modStep_steps_ne (s : State) {i j : Fin 128} (f : StepRt → StepRt) (h : j ≠ i) :
    (modStep s i f).sq.steps[j] = s.sq.steps[j] :=
  Vector.getElem_set_ne i.isLt j.isLt (fun e => h (Fin.ext e.symm))

/-- What a step keeps under a change of its record that keeps it there. -/
theorem modStep_keeps {γ : Type} {p : StepRt → γ} {s : State} {i : Fin 128} {f : StepRt → StepRt}
    (h : p (f s.sq.steps[i]) = p s.sq.steps[i]) (j : Fin 128) : p (modStep s i f).sq.steps[j] = p s.sq.steps[j] := by
  by_cases hj : j = i
  · subst hj
    rw [modStep_steps_same, h]
  · rw [modStep_steps_ne s f hj]

/-- From `s` to `t` ports were granted: beside the ports only the steps' records have changed, and no step its state. -/
def PortsGranted (s t : State) : Prop :=
  (∃ steps busy held, t = { s with sq := { s.sq with steps := steps, portBusy := busy, smbHeld := held } }) ∧
    ∀ i : Fin 128, (t.sq.steps[i]).st = (s.sq.steps[i]).st

theorem PortsGranted.refl (s : State) : PortsGranted s s := ⟨⟨_, _, _, rfl⟩, fun _ => rfl⟩

theorem PortsGranted.trans {s t u : State} (hst : PortsGranted s t) (htu : PortsGranted t u) : PortsGranted s u := by
  obtain ⟨⟨_, _, _, rfl⟩, hsteps⟩ := hst
  obtain ⟨⟨steps, busy, held, rfl⟩, hsteps'⟩ := htu
  exact ⟨⟨steps, busy, held, rfl⟩, fun i => (hsteps' i).trans (hsteps i)⟩

theorem takeSmb_granted (s : State) (p : Fin 4) (j : Nat) : PortsGranted s (takeSmb s p j) := ⟨⟨_, _, _, rfl⟩, fun _ => rfl⟩

theorem modStep_granted {s : State} {i : Fin 128} {f : StepRt → StepRt} (h : (f s.sq.steps[i]).st = (s.sq.steps[i]).st) :
    PortsGranted s (modStep s i f) := ⟨⟨_, _, _, rfl⟩, modStep_keeps h⟩

theorem pumpSmb_granted (s : State) : PortsGranted s (pumpSmb s) := by
  unfold pumpSmb
  split
  · exact .refl s
  · refine List.foldlRecOn _ _ (motive := PortsGranted s) (.refl s) fun t ht p _ => ht.trans ?_
    split
    · exact .refl t
    · split
      · exact (takeSmb_granted t p _).trans (modStep_granted rfl)
      · split
        · split
          · exact takeSmb_granted t p 128
          · exact .refl t
        · exact .refl t

theorem pumpSmb_frame (s : State) : ∃ steps busy held, pumpSmb s =
    { s with sq := { s.sq with steps := steps, portBusy := busy, smbHeld := held } } := (pumpSmb_granted s).left

/-! START. -/

/-- START is accepted: kindling's transaction holds both registers as they stand (R505). -/
def smbBegun (s : State) : State :=
  { s with sq := { s.sq with smbBusy := true, smbErr := 0, smbTxn := some (smbCtl s, s.sq.smbData) } }

/-- The port takes no transaction, or its LEN is none (R505). -/
def SmbUnfit (s : State) : Prop :=
  s.sq.cfg.smbSpeed[s.sq.smbPort] = 0 ∨ (s.sq.smbRead = true ∧ s.sq.smbLen = 0) ∨ s.sq.smbLen = 3

theorem smbStart_of_busy {s : State} (h : s.sq.smbBusy = true) : smbStart s = sqInt s 5 := if_pos h

theorem smbStart_of_unfit {s : State} (hidle : s.sq.smbBusy = false) (h : SmbUnfit s) :
    smbStart s = sqInt { s with sq := { s.sq with smbErr := 4 } } 4 := by
  rw [smbStart, if_neg (by rw [hidle]; decide)]
  exact if_pos h

theorem smbStart_of_fit {s : State} (hidle : s.sq.smbBusy = false) (h : ¬ SmbUnfit s) : smbStart s = pumpSmb (smbBegun s) := by
  rw [smbStart, if_neg (by rw [hidle]; decide)]
  exact if_neg h

/-! Writes of the registers while a transaction runs. -/

theorem coreReaches_smbCtl (s : State) (c : Core) : CoreReaches s c 0x090080 := ⟨rfl, Bool.or_true _⟩
theorem coreReaches_smbData (s : State) (c : Core) : CoreReaches s c 0x090084 := ⟨rfl, Bool.or_true _⟩

theorem regWrite_smbCtl (s : State) (m : Core) (v : Word) : regWrite s (.core m) 0x090080 v = smbCtlWrite s v := by
  rw [regWrite_of_windowOf (w := 9) (o := 0x80) rfl rfl (by decide)]
  rfl

theorem regWrite_smbData (s : State) (m : Core) (v : Word) :
    regWrite s (.core m) 0x090084 v = { s with sq := { s.sq with smbData := BitVec.ofNat 16 (bf v 0 16) } } := by
  rw [regWrite_of_windowOf (w := 9) (o := 0x84) rfl rfl (by decide)]
  rfl

/-- A START written with the fields while BUSY is ignored: the transaction runs on as it was copied. -/
theorem smbCtlWrite_of_busy {s : State} (h : s.sq.smbBusy = true) (v : Word) :
    (smbCtlWrite s v).sq.smbTxn = s.sq.smbTxn ∧ (smbCtlWrite s v).sq.smbBusy = true := by
  have ignored {t : State} (ht : t.sq.smbBusy = true) :
      (smbStart t).sq.smbTxn = t.sq.smbTxn ∧ (smbStart t).sq.smbBusy = true := by
    rw [smbStart_of_busy ht]
    exact ⟨rfl, ht⟩
  unfold smbCtlWrite onBit
  split
  · exact ignored h
  · exact ⟨rfl, h⟩

/-- A write of the register space by a core, in reset or out of it: what the register keeps, the command keeps. -/
theorem exec_registerWrite_core_keeps {s : State} {c : Core} {a : BitVec 24} {v : Word} {P : State → Prop}
    (hreach : CoreReaches s c a.toNat) (hs : P s) (hwrite : P (regWrite s (.core c) a.toNat v)) :
    ∃ t, exec (.registerWrite (.core c) a 32 v) s = .next t ∧ P t := by
  cases hreset : s.pd.inReset with
  | true => exact ⟨s, congrArg Host.Outcome.next (onLive_of_inReset hreset _), hs⟩
  | false => exact ⟨_, exec_registerWrite_core hreset hreach v, hwrite⟩

/-! The end of a transaction. -/

/-- What SQ_SMB_DATA shows after a transaction of that control word: the data of a read that was acknowledged. -/
def smbShown (s : State) (w : Word) : SmbResult → BitVec 16
  | .ok d => if w.getLsbD 7 then BitVec.ofNat 16 (smbMask (bf w 18 2) d) else s.sq.smbData
  | _ => s.sq.smbData

/-- The transaction of that control word has left its port with that outcome. -/
def smbEnded (s : State) (w : Word) (p : Fin 4) (r : SmbResult) : State :=
  let t := leaveSmb s p r
  sqInt { t with sq := { t.sq with
    smbBusy := false, smbErr := BitVec.ofNat 3 (smbErrNo r), smbData := smbShown s w r, smbTxn := none } } 4

theorem smbEnd_of_port {s : State} {x : Word × BitVec 16} {p : Fin 4} (htxn : s.sq.smbTxn = some x)
    (hport : s.sq.portBusy[p] = some 128) (r : SmbResult) : ∃ q, smbEnd s r = pumpSmb (smbEnded s x.1 q r) := by
  cases hq : (List.finRange 4).find? (fun p => s.sq.portBusy[p] = some 128) with
  | none => exact absurd (decide_eq_true hport) (List.find?_eq_none.mp hq p (List.mem_finRange p))
  | some q =>
    refine ⟨q, ?_⟩
    unfold smbEnd
    rw [htxn, hq]
    cases r <;> rfl

theorem smbEnd_of_none {s : State} (h : s.sq.smbTxn = none) (r : SmbResult) : smbEnd s r = s := by
  unfold smbEnd
  rw [h]

theorem smbShown_of_read {w : Word} (h : w.getLsbD 7 = true) (s : State) (d : BitVec 16) :
    smbShown s w (.ok d) = BitVec.ofNat 16 (smbMask (bf w 18 2) d) := if_pos h

theorem smbShown_of_no_data {s : State} {w : Word} {r : SmbResult} (h : (∀ d : BitVec 16, r ≠ .ok d) ∨ w.getLsbD 7 = false) :
    smbShown s w r = s.sq.smbData := by
  cases r with
  | ok d =>
    refine if_neg ?_
    rw [h.resolve_left fun hno => hno d rfl]
    decide
  | _ => rfl

/-- Settles O42: START by its three outcomes, the writes by what they leave of the transaction, the end by what `smbEnded` shows. -/
theorem kindlingSmbusTransactions : Obligations.KindlingSmbusTransactions := by
  refine ⟨fun m s hs hidle hspeed hlen hread => ?accepted, fun m v s hbusy => ⟨?ctl, ?data⟩,
    fun m s hs hbusy => next_coreWrite hs (smbStart_of_busy hbusy),
    fun m s hs hidle hunfit => next_coreWrite hs (smbStart_of_unfit hidle hunfit),
    fun r x p s hs htxn hport => ?ended, fun r s htxn => next_onLive_of_fixed (smbEnd_of_none htxn r),
    fun x s => next_extWrite_closed s x 9 _⟩
  case accepted =>
    have hfit : ¬ SmbUnfit s := fun h => h.elim hspeed fun h => h.elim (fun h => hread h.left h.right) hlen
    refine ⟨_, next_coreWrite hs (smbStart_of_fit hidle hfit), ?_⟩
    obtain ⟨_, _, _, hpump⟩ := pumpSmb_frame (smbBegun s)
    rw [hpump]
    exact ⟨rfl, rfl, rfl, rfl, rfl⟩
  case ctl =>
    refine exec_registerWrite_core_keeps (P := fun t => t.sq.smbTxn = s.sq.smbTxn ∧ t.sq.smbBusy = true)
      (coreReaches_smbCtl s m) ⟨rfl, hbusy⟩ ?_
    rw [show (0x090080 : BitVec 24).toNat = 0x090080 from rfl, regWrite_smbCtl]
    exact smbCtlWrite_of_busy hbusy v
  case data =>
    refine exec_registerWrite_core_keeps (P := fun t => t.sq.smbTxn = s.sq.smbTxn ∧ t.sq.smbBusy = true)
      (coreReaches_smbData s m) ⟨rfl, hbusy⟩ ?_
    rw [show (0x090084 : BitVec 24).toNat = 0x090084 from rfl, regWrite_smbData]
    exact ⟨rfl, hbusy⟩
  case ended =>
    obtain ⟨q, hend⟩ := smbEnd_of_port htxn hport r
    refine ⟨_, next_onLive hs hend, ?_⟩
    obtain ⟨_, _, _, hpump⟩ := pumpSmb_frame (smbEnded s x.1 q r)
    rw [hpump]
    refine ⟨rfl, rfl, rfl, rfl, fun d hr hread => ?_, fun h => smbShown_of_no_data h⟩
    subst hr
    exact smbShown_of_read hread s d

end Sys2Proof.Machine
end

section
/-! A failed step that starts the shutdown graph asserts the lines released (R275, R277, R279); a golden clear that waited for the
assertion squashes fills (R154), and a squash grants the AES engines again (R24, R215). The settling of O40. -/

namespace Sys2Proof.Machine

/-- A step of the power-up graph that waits for line 5, and a step of the shutdown graph. -/
def waitStep : Step := ⟨2, false, false, false, 0, [], 5, 0x100, 0, 1000⟩
def downStep : Step := ⟨3, true, false, false, 0, [], 0, 0, 0, 1000⟩

/-- An ember of channel 0's golden bank, and its fill, the first billet of the channel's fill reservation. -/
def goldenEmber : EmberId := { ch := 0, fp := 0, cs := false, fen := 0, vem := 0, bind := 0, bank := .g }
def goldenFill : Billet :=
  { st := .running, cls := .fill, owner := .ch 0, src := .reservation, parent := none, drawn := 0
    work := .fill goldenEmber .demand 0 }

/-- A bank set of channel 0 with a golden bank. -/
def goldenSet : BankSet :=
  { vbase := 0, size := 65536, initB := false, initGold := false, a := ⟨0, 0, false⟩, b := ⟨65536, 0, false⟩
    g := some ⟨131072, 0, false⟩ }

/-- Channel 0 serves the golden bank, and a golden clear waits for its host to be held. -/
def clearWaits : Chan :=
  { cfg := { bsets := [goldenSet] }, bset := (Vector.replicate 15 {}).set 0 { goldSel := true, gclrPend := true } }

/-- The power-up graph runs with the host of channel 0 released and step 0 waiting; a vault operation of the hearth waits for an AES
engine, and engine 0 is free. -/
def stepWaits : State :=
  let s := modCh State.reset 0 (fun _ => clearWaits)
  { s with
    pd := { s.pd with inReset := false }
    st := { s.st with state := .locked }
    bt := { s.bt with units := [(18, goldenFill)] }
    kv := { s.kv with aesArb := { pos := 96, items := [{ id := 1024, q := 96, cost := 1, enq := 0 }] } }
    sq := { s.sq with
      graph := .running, released := 1, hrst := 0xFFFFFFFE#32
      steps := s.sq.steps.set 0 { st := .running }
      cfg := { s.sq.cfg with steps := [waitStep, downStep], hosts := s.sq.cfg.hosts.set 0 { ch := some 0 } } } }

theorem stepWaits_step : stepWaits.sq.steps[(0 : Fin 128)] = { st := .running } := Vector.getElem_set_self _

/-- Nothing runs on the AES engines before; when the time of step 0 is over the waiting operation does. -/
theorem stepTimeout_starts_aes : (stepWaits.kv.aes[(0 : Fin 2)]).isSome = false ∧
    ((stepTimeout stepWaits 0).kv.aes[(0 : Fin 2)]).isSome = true := by
  decide +kernel

/-- Refutes O40: step 0 fails, the shutdown graph asserts the line of channel 0, whose golden clear squashes a fill, and the squash
grants the free AES engine to a vault operation, so that the vault is not as it was. -/
theorem not_sequencerStepsEndAsTheirOperationsSay : ¬ Obligations.SequencerStepsEndAsTheirOperationsSay := by
  intro h
  obtain ⟨-, -, -, -, htimeout, -⟩ := h 0 waitStep stepWaits rfl rfl (congrArg StepRt.st stepWaits_step)
  have hnever (e : Nat) : (stepWaits.sq.steps[(0 : Fin 128)]).heldSince ≠ some e := by
    rw [stepWaits_step]
    exact nofun
  obtain ⟨t, ht, ⟨-, -, -, -, hkv, -⟩, -⟩ := htimeout (.inl ⟨rfl, fun e hheld => absurd hheld (hnever e)⟩)
  have hexec : exec (.stepTimeout 0) stepWaits = .next (stepTimeout stepWaits 0) := next_onLive rfl rfl
  obtain rfl : stepTimeout stepWaits 0 = t := Host.Outcome.next.inj (hexec.symm.trans ht)
  obtain ⟨hbefore, hafter⟩ := stepTimeout_starts_aes
  rw [hkv, hbefore] at hafter
  exact Bool.noConfusion hafter

end Sys2Proof.Machine
end

section
/-! The release gate and the bank-map changes it brings (R20, R153-R155, R279, R280) change none of the sequencer but its lines, and the
run of the graphs (R274, R277) leaves a step DONE that is DONE. -/

namespace Sys2Proof.Machine

/-! What a squash grants and drops (R24). -/

@[simp] theorem setUnitSt_sq (s : State) (id : Nat) (x : BilletSt) : (setUnitSt s id x).sq = s.sq := by rw [setUnitSt_frame]

theorem hashPick_sq {s u : State} {j : HashJob} {i : QItem} (h : hashPick s = some (j, i, u)) : u.sq = s.sq := by
  unfold hashPick at h
  split at h
  case h_1 => cases h; rfl
  case h_2 =>
    dsimp only at h
    split at h
    · cases h
    · split at h
      · cases h
      · cases h
        obtain ⟨_, _, _, hring⟩ := setRing_frame (ageRings s) _ _
        rw [hring]
        rfl

theorem hashGrant_sq (n : Nat) (s : State) : (hashGrant n s).sq = s.sq := by
  induction n generalizing s with
  | zero => rfl
  | succ n ih =>
    unfold hashGrant
    split
    · rfl
    · split
      · rfl
      · next e _ _ j i u hpick =>
        obtain ⟨_, _, _, hstart⟩ := hashStart_frame u (engFor u j e) j
        rw [ih, hstart, ← hashPick_sq hpick]

theorem aesGrant_sq (n : Nat) (s : State) : (aesGrant n s).sq = s.sq := by
  induction n generalizing s with
  | zero => rfl
  | succ n ih =>
    unfold aesGrant
    split
    · rfl
    · dsimp only
      split
      · rfl
      · rw [ih, aesStart, setUnitSt_frame]

@[simp] theorem hashDrop_sq (s : State) (id : Nat) : (hashDrop s id).sq = s.sq := hashGrant_sq ..
@[simp] theorem aesDrop_sq (s : State) (id : Nat) : (aesDrop s id).sq = s.sq := aesGrant_sq ..

@[simp] theorem freeFrame_sq (s : State) (f : Nat) : (freeFrame s f).sq = s.sq := by
  unfold freeFrame
  split <;> rfl

@[simp] theorem bankUndo_sq (s : State) (b : Nat) (bk : BankId) (stage : Bool) : (bankUndo s b bk stage).sq = s.sq := by
  unfold bankUndo
  split <;> rfl

theorem dropUnit_sq (s : State) (id : Nat) : (dropUnit s id).sq = s.sq := by
  rw [dropUnit, aesDrop_sq, hashDrop_sq]
  show State.sq (match unitOf s id with | some _ => _ | none => s) = s.sq
  split
  · split
    · exact freeFrame_sq ..
    · exact freeFrame_sq ..
    · exact bankUndo_sq ..
    · exact bankUndo_sq ..
    · rfl
    · rfl
  · rfl

@[simp] theorem squash_sq (s : State) (ids : List Nat) : (squash s ids).sq = s.sq :=
  foldl_keeps (p := State.sq) dropUnit_sq _ s

theorem closeSlot_sq (s : State) (c : Ch) (x : ProvSlot) (kind resp reason : Nat) :
    (closeSlot s c x kind resp reason).sq = s.sq := by
  unfold closeSlot
  dsimp only
  repeat' split
  all_goals rfl

theorem abandonSlot_sq (s : State) (c : Ch) (x : ProvSlot) : (abandonSlot s c x).sq = s.sq := closeSlot_sq ..

@[simp] theorem squashFills_sq (s : State) (c : Ch) (p : EmberId → Bool) : (squashFills s c p).sq = s.sq := by
  rw [squashFills, squash_sq]
  exact foldl_keeps (p := State.sq) (fun s x => abandonSlot_sq s c x) _ s

/-! The changes of a bank map (R153-R155). -/

theorem stashCheck_sq (s : State) (f : Nat) (data : List Byte) : (stashCheck s f data).sq = s.sq :=
  foldl_keeps (p := State.sq) (fun s id => by dsimp only; split <;> rfl) _ s

@[simp] theorem freeFrames_sq (s : State) (p : Frame → Bool) : (freeFrames s p).sq = s.sq :=
  foldl_keeps (p := State.sq) (fun _ _ => (freeFrame_sq ..).trans (stashCheck_sq ..)) _ s

@[simp] theorem repin_sq (s : State) (c : Ch) : (repin s c).sq = s.sq := rfl
@[simp] theorem clistDrop_sq (s : State) (p : ClinkerEnt → Bool) : (clistDrop s p).sq = s.sq := rfl
@[simp] theorem setBset_sq (s : State) (c : Ch) (i : Fin 15) (f : BsetRt → BsetRt) : (setBset s c i f).sq = s.sq := rfl
@[simp] theorem dropJournal_sq (s : State) (c : Ch) : (dropJournal s c).sq = s.sq := rfl

@[simp] theorem strictPend_sq (s : State) (c : Ch) (p : Fin 64 → Bool) : (strictPend s c p).sq = s.sq :=
  foldl_keeps (p := State.sq) (g := fun s i => setStrict s c i _) (fun _ _ => rfl) _ s

@[simp] theorem ecRecord_sq (s : State) (c : Ch) (kind arg old new : Nat) (essential : Bool) :
    (ecRecord s c kind arg old new essential).sq = s.sq := by
  obtain ⟨_, _, h⟩ := ecRecord_frame s c kind arg old new essential
  rw [h]

theorem anchorBanks_sq (s : State) (bk : BankId) (l : List Nat) :
    (l.foldl (fun s b => setBank s b bk (fun r => { r with st := .anchored })) s).sq = s.sq :=
  foldl_keeps (p := State.sq) (fun s b => setBank_sq s b bk _) l s

theorem applyFlip_sq (s : State) (c : Ch) (i : Fin 15) : (applyFlip s c i).sq = s.sq := by
  unfold applyFlip
  split
  · rfl
  · split
    · simp only [ecRecord_sq, ecInt_sq, setBset_sq]
    · simp only [dropJournal_sq, ecRecord_sq, ecInt_sq, repin_sq, strictPend_sq, setBset_sq, clistDrop_sq, anchorBanks_sq,
        freeFrames_sq, squashFills_sq]

theorem applyGclr_sq (s : State) (c : Ch) (i : Fin 15) : (applyGclr s c i).sq = s.sq := by
  unfold applyGclr
  split
  · rfl
  · split
    · rfl
    · simp only [dropJournal_sq, modCh_sq, ecRecord_sq, ecInt_sq, repin_sq, strictPend_sq, setBset_sq, freeFrames_sq, squashFills_sq]

@[simp] theorem applyPending_sq (s : State) (c : Ch) : (applyPending s c).sq = s.sq :=
  foldl_keeps (p := State.sq) (fun s i => (applyGclr_sq ..).trans (applyFlip_sq s c i)) _ s

/-! The gate. -/

@[simp] theorem endTrace_sq (s : State) (c : Ch) (how : Nat) (discard : Bool) : (endTrace s c how discard).sq = s.sq := by
  unfold endTrace
  split
  · dsimp only
    split <;> rfl
  · rfl

@[simp] theorem sqRecord_steps (s : State) (kind step line mask info : Nat) :
    (sqRecord s kind step line mask info).sq.steps = s.sq.steps := by
  unfold sqRecord
  split <;> rfl

theorem assertLine_steps (s : State) (n : Fin 32) (h : Nat) : (assertLine s n h).sq.steps = s.sq.steps := by
  unfold assertLine
  dsimp only
  split
  · exact sqRecord_steps ..
  · rw [applyPending_sq, modCh_sq, endTrace_sq]
    exact sqRecord_steps ..

theorem releaseLine_steps (s : State) (n : Fin 32) : (releaseLine s n).sq.steps = s.sq.steps := by
  unfold releaseLine
  dsimp only
  split <;> exact sqRecord_steps ..

theorem gateLine_steps (s : State) (n : Fin 32) : (gateLine s n).sq.steps = s.sq.steps := by
  unfold gateLine
  dsimp only
  split
  · split
    · exact releaseLine_steps ..
    · rfl
  · split
    · exact assertLine_steps ..
    · rfl

@[simp] theorem regate_steps (s : State) : (regate s).sq.steps = s.sq.steps :=
  foldl_keeps (p := fun s => s.sq.steps) gateLine_steps _ s

/-! The run of the graphs. -/

/-- A step that is DONE stays so. -/
def DoneStays (s t : State) : Prop := ∀ j : Fin 128, (s.sq.steps[j]).st = .done → (t.sq.steps[j]).st = .done

theorem DoneStays.refl (s : State) : DoneStays s s := fun _ h => h

theorem DoneStays.trans {s t u : State} (hst : DoneStays s t) (htu : DoneStays t u) : DoneStays s u :=
  fun j h => htu j (hst j h)

theorem DoneStays.of_steps {s t : State} (h : t.sq.steps = s.sq.steps) : DoneStays s t := fun j hj => by rw [h]; exact hj

theorem PortsGranted.doneStays {s t : State} (h : PortsGranted s t) : DoneStays s t := fun j hj => (h.right j).trans hj

/-- A step's record changes and, where it was DONE, the step still is. -/
theorem modStep_doneStays {s : State} {i : Fin 128} {f : StepRt → StepRt}
    (h : (s.sq.steps[i]).st = .done → (f s.sq.steps[i]).st = .done) : DoneStays s (modStep s i f) := by
  intro j hj
  by_cases hji : j = i
  · subst hji
    rw [modStep_steps_same]
    exact h hj
  · rw [modStep_steps_ne s f hji]
    exact hj

@[simp] theorem notify_steps (s : State) (n : PairNotice) : (notify s n).sq.steps = s.sq.steps := by
  obtain ⟨_, _, h⟩ := notify_frame s n
  rw [h]

/-- The end of a step changes no other step's record. -/
theorem endStep_steps (s : State) (i : Fin 128) (c : Step) (ok : Bool) : ∃ f : StepRt → StepRt,
    (f s.sq.steps[i]).st = .done ∧ (endStep s i c ok).sq.steps = (modStep s i f).sq.steps := by
  unfold endStep
  dsimp only
  split
  · refine ⟨_, ?_, notify_steps ..⟩
    rfl
  · refine ⟨_, ?_, rfl⟩
    rfl

theorem finishStep_done (s : State) (i : Fin 128) (c : Step) : ((finishStep s i c).sq.steps[i]).st = .done := by
  obtain ⟨f, hdone, hsteps⟩ := endStep_steps s i c true
  rw [finishStep, hsteps, modStep_steps_same]
  exact hdone

theorem finishStep_doneStays (s : State) (i : Fin 128) (c : Step) : DoneStays s (finishStep s i c) := by
  obtain ⟨f, hdone, hsteps⟩ := endStep_steps s i c true
  exact (modStep_doneStays fun _ => hdone).trans (.of_steps hsteps)

theorem driveLine_steps (s : State) (l : Nat) (v : Bool) : (driveLine s l v).sq.steps = s.sq.steps := by
  unfold driveLine
  split <;> rfl

/-- A step that starts was not DONE, and what it does at its start leaves the others as they are. -/
theorem startStep_doneStays {s : State} {i : Fin 128} (hidle : (s.sq.steps[i]).st = .idle) (c : Step) :
    DoneStays s (startStep s i c) := by
  have begun (f : StepRt → StepRt) : DoneStays s (modStep s i f) :=
    modStep_doneStays fun h => absurd (hidle.symm.trans h) (by decide)
  unfold startStep
  dsimp only
  split
  · exact ((begun _).trans (.of_steps (driveLine_steps ..))).trans (finishStep_doneStays _ i c)
  · split
    · split
      · exact (begun _).trans (finishStep_doneStays _ i c)
      · exact (begun _).trans (modStep_doneStays id)
    · exact begun _
  · exact begun _
  · exact ((begun _).trans (finishStep_doneStays _ i c)).trans (.of_steps (regate_steps _))
  · exact (begun _).trans (finishStep_doneStays _ i c)
  · exact (begun _).trans (modStep_doneStays id)

theorem mayStart_idle {s : State} {i : Fin 128} {c : Step} (h : mayStart s i c = true) : (s.sq.steps[i]).st = .idle := by
  unfold mayStart at h
  exact of_decide_eq_true (Bool.and_eq_true_iff.mp (Bool.and_eq_true_iff.mp h).left).left

theorem nextStep_mayStart {s : State} {x : Fin 128 × Step} (h : nextStep s = some x) : mayStart s x.1 x.2 = true := by
  have found : ∀ x, nextStep s = some x → mayStart s x.1 x.2 = true := by
    unfold nextStep
    refine List.foldlRecOn _ _ (motive := fun (b : Option (Fin 128 × Step)) => ∀ x, b = some x → mayStart s x.1 x.2 = true)
      (fun _ hx => nomatch hx) ?_
    intro b hb i _ x hx
    split at hx
    · split at hx
      · next hmay =>
        split at hx
        · split at hx
          · cases hx; exact hmay
          · exact hb _ hx
        · cases hx; exact hmay
      · exact hb _ hx
    · exact hb _ hx
  exact found x h

theorem startSteps_doneStays (n : Nat) (s : State) : DoneStays s (startSteps n s) := by
  induction n generalizing s with
  | zero => exact .refl s
  | succ n ih =>
    unfold startSteps
    split
    · next i c hnext =>
      have hidle : ((reachTime s (readyAt s c)).sq.steps[i]).st = .idle := mayStart_idle (nextStep_mayStart hnext)
      exact ((DoneStays.of_steps rfl).trans (startStep_doneStays hidle c)).trans (ih _)
    · exact .refl s

theorem runGraph_doneStays (s : State) : DoneStays s (runGraph s) := by
  unfold runGraph
  refine (startSteps_doneStays 128 s).trans (.trans ?_ (pumpSmb_granted _).doneStays)
  split
  · exact .of_steps (sqRecord_steps ..)
  · split
    · exact .of_steps (sqRecord_steps ..)
    · exact .refl _

end Sys2Proof.Machine
end

section
/-! What a unit of the pair sends stands on its link (R371, R439), and what sending leaves alone. -/

namespace Sys2Proof.Machine

/-! The pair link. -/

/-- The frames of a link that wait, or stand in the replay buffer. -/
def linkLoad (x : FlueRt) : Nat := x.waiting.length + x.replay.length

theorem drrPick_frame {w : Nat → Nat} {n : Nat} {x y : FlueRt} {f : FabFrame} (h : drrPick w n x = some (f, y)) :
    f ∈ x.waiting ∧ ∃ defs ring, y = { x with defs := defs, ring := ring } := by
  induction n generalizing x with
  | zero => cases h
  | succ n ih =>
    have later {x' : FlueRt} (hx : ∃ defs ring, x' = { x with defs := defs, ring := ring }) (h : drrPick w n x' = some (f, y)) :
        f ∈ x.waiting ∧ ∃ defs ring, y = { x with defs := defs, ring := ring } := by
      obtain ⟨_, _, rfl⟩ := hx
      obtain ⟨hmem, defs, ring, rfl⟩ := ih h
      exact ⟨hmem, defs, ring, rfl⟩
    unfold drrPick at h
    dsimp only at h
    split at h
    · exact later ⟨_, _, rfl⟩ h
    · next hfind =>
      split at h
      · exact later ⟨_, _, rfl⟩ h
      · split at h
        · cases h
          exact ⟨List.mem_of_find?_eq_some hfind, _, _, rfl⟩
        · exact later ⟨_, _, rfl⟩ h

/-- What a link sends next waits on it. -/
theorem nextFrame_frame {w : Nat → Nat} {x y : FlueRt} {f : FabFrame} (h : nextFrame w x = some (f, y)) :
    f ∈ x.waiting ∧ ∃ defs ring, y = { x with defs := defs, ring := ring } := by
  unfold nextFrame at h
  split at h
  · obtain ⟨g, hg, hgf⟩ := Option.map_eq_some_iff.mp h
    cases hgf
    refine ⟨?_, x.defs, x.ring, rfl⟩
    cases hglobal : x.waiting.find? isGlobal with
    | none => rw [hglobal] at hg; exact List.mem_of_find?_eq_some hg
    | some g' => rw [hglobal] at hg; cases hg; exact List.mem_of_find?_eq_some hglobal
  · exact drrPick_frame h

/-- A frame that is sent leaves the queue for the replay buffer. -/
theorem sendLoop_load (now cap : Nat) (w : Nat → Nat) (n : Nat) (x : FlueRt) :
    linkLoad (sendLoop now cap w n x) = linkLoad x ∧ (sendLoop now cap w n x).st = x.st := by
  induction n generalizing x with
  | zero => exact ⟨rfl, rfl⟩
  | succ n ih =>
    unfold sendLoop
    split
    · exact ⟨rfl, rfl⟩
    · split
      · exact ⟨rfl, rfl⟩
      · next hnext =>
        obtain ⟨hmem, _, _, rfl⟩ := nextFrame_frame hnext
        obtain ⟨hload, hst⟩ := ih _
        refine ⟨hload.trans ?_, hst⟩
        have hpos := List.length_pos_of_mem hmem
        simp only [linkLoad, List.length_erase_of_mem hmem, List.length_append, List.length_cons, List.length_nil]
        omega

theorem modLink_pair (s : State) (f : FlueRt → FlueRt) : modLink s 4 f = { s with pr := { s.pr with link := f s.pr.link } } := rfl

/-- Sending on the pair link changes that link alone; a frame sent on a link that carries frames stands there. -/
theorem pairSend_frame (s : State) (typ : Byte) (arg : Word) (payload : List Byte) : ∃ l,
    pairSend s typ arg payload = { s with pr := { s.pr with link := l } } ∧ l.st = s.pr.link.st ∧
      (linkUp s.pr.link = true → linkLoad l = linkLoad s.pr.link + 1) := by
  unfold pairSend sendOn pumpLink
  rw [modLink_pair, modLink_pair]
  refine ⟨_, rfl, ?_, fun hup => ?_⟩
  · cases hup : linkUp s.pr.link with
    | false => simp only [hup, Bool.false_eq_true, if_false]
    | true =>
      simp only [if_true]
      split
      · exact (sendLoop_load ..).right
      · rfl
  · simp only [hup, if_true]
    have hqueued (fr : FabFrame) : linkUp { s.pr.link with waiting := s.pr.link.waiting ++ [fr] } = true := hup
    rw [if_pos (hqueued _), (sendLoop_load ..).left]
    simp only [linkLoad, List.length_append, List.length_cons, List.length_nil]
    omega

/-- What does not look at the link is kept by sending. -/
theorem pairSend_pr (s : State) (typ : Byte) (arg : Word) (payload : List Byte) : ∃ l,
    pairSend s typ arg payload = { s with pr := { s.pr with link := l } } := by
  obtain ⟨l, h, -⟩ := pairSend_frame s typ arg payload
  exact ⟨l, h⟩

/-! Yielding (R445) and the self-diagnosis (R444). -/

/-- A burning unit begins to yield. -/
theorem startYield_of_burning {s : State} (hrole : s.pr.role = 1) (hfree : s.pr.yielding = none) : ∃ l, startYield s =
    { s with pr := { s.pr with
      yielding := some s.clk.now, given := 0, handover := s.pr.handover + 1, cntHand := satInc s.pr.cntHand, link := l } } := by
  obtain ⟨l, h⟩ := pairSend_pr { s with pr := { s.pr with
    yielding := some s.clk.now, given := 0, handover := s.pr.handover + 1, cntHand := satInc s.pr.cntHand } } 0x04
    (s.pr.handover + 1) []
  exact ⟨l, (if_pos ⟨hrole, hfree⟩).trans h⟩

/-- Beside the yield nothing of the pair changes. -/
theorem startYield_pr (s : State) : ∃ y g n k l, startYield s =
    { s with pr := { s.pr with yielding := y, given := g, handover := n, cntHand := k, link := l } } := by
  by_cases h : s.pr.role = 1 ∧ s.pr.yielding = none
  · obtain ⟨l, hstart⟩ := startYield_of_burning h.left h.right
    exact ⟨_, _, _, _, l, hstart⟩
  · exact ⟨_, _, _, _, _, if_neg h⟩

theorem diagFail_pr (s : State) (b : Nat) : ∃ d a f y g n k l, diagFail s b =
    { s with pr := { s.pr with
      diag := d, failAt := a, failed := f, yielding := y, given := g, handover := n, cntHand := k, link := l } } ∧
      (d = s.pr.diag ∨ d = setBit s.pr.diag b) := by
  unfold diagFail
  split
  · dsimp only
    split
    · obtain ⟨y, g, n, k, l, hyield⟩ := startYield_pr
        { s with pr := { s.pr with diag := setBit s.pr.diag b, failAt := s.clk.now, failed := true } }
      exact ⟨_, _, _, y, g, n, k, l, hyield, .inr rfl⟩
    · exact ⟨_, _, _, _, _, _, _, _, rfl, .inr rfl⟩
  · exact ⟨_, _, _, _, _, _, _, _, rfl, .inl rfl⟩

/-! A role taken (R440, R443). -/

/-- The pair's registers of a unit that has taken another role. -/
def roleTaken (s : State) (r : Nat) : Pr :=
  { s.pr with
    intSts := setBit s.pr.intSts 0, role := BitVec.ofNat 2 r, burning := decide (r = 1)
    step := if r = 2 then 1 else match s.pr.partner with | none => 0 | some p => if p.step = 2 then 2 else 1
    stateDone := false, caughtUp := false, announced := [], copies := [], yielding := none, given := 0
    frameAt := s.clk.now, edgeAt := s.clk.now, leaseAt := s.clk.now, partnerLost := false }

theorem takeRole_of_other {s : State} {r : Nat} (h : s.pr.role.toNat ≠ r) : takeRole s r = { s with pr := roleTaken s r } := by
  unfold takeRole
  rw [if_neg h]
  rfl

/-- The new burning unit restarts PMB steps, which the sequencer alone shows (R287). -/
theorem restartPmb_frame (s : State) : ∃ sq, restartPmb s = { s with sq := sq } := by
  have stepped (l : List (Fin 128)) : ∃ sq, l.foldl (fun s i => match stepCfg s i.val with
      | some c => if isPmb c ∧ (s.sq.steps[i]).st = .running then modStep s i (fun r => { r with startAt := s.clk.now, smb := 1 }) else s
      | none => s) s = { s with sq := sq } := by
    refine List.foldlRecOn l _ (motive := fun t => ∃ sq, t = { s with sq := sq }) ⟨s.sq, rfl⟩ ?_
    rintro _ ⟨sq, rfl⟩ i _
    split
    · split <;> exact ⟨_, rfl⟩
    · exact ⟨_, rfl⟩
  obtain ⟨sq, hsteps⟩ := stepped (allSteps s)
  obtain ⟨_, _, _, hpump⟩ := pumpSmb_frame { s with sq := sq }
  exact ⟨_, (congrArg pumpSmb hsteps).trans hpump⟩

/-- Without a lease the unit takes the burning role at its time. -/
theorem roleTimer_of_unled {s : State} (hfit : s.pr.fitted = true) (hrole : s.pr.role = 0) : ∃ sq,
    let u := reachTime s (s.clk.lockAt + msCyc (if preferred s then 1 else 10))
    roleTimer s = { u with pr := roleTaken u 1, sq := sq } := by
  obtain ⟨sq, hpmb⟩ := restartPmb_frame
    (takeRole (reachTime s (s.clk.lockAt + msCyc (if preferred s then 1 else 10))) 1)
  refine ⟨sq, (if_pos ⟨hfit, hrole⟩).trans (hpmb.trans ?_)⟩
  rw [takeRole_of_other (by rw [reachTime_pr, hrole]; decide)]

theorem roleTimer_of_led {s : State} (h : s.pr.fitted = false ∨ s.pr.role ≠ 0) : roleTimer s = s :=
  if_neg fun ⟨hfit, hrole⟩ => h.elim (fun hno => absurd (hno.symm.trans hfit) (by decide)) (· hrole)

/-! A unit gives up its ports (R22, R445). -/

theorem yieldPort_fixed {s₀ s : State} (h : Fixed s₀ s) (c : Ch) : Fixed s₀ (yieldPort s c) := by
  unfold yieldPort modRaw
  exact modCh_fixed (cutPort_fixed h)

theorem yieldPorts_fixed (s : State) (l : List Ch) : Fixed s (l.foldl yieldPort s) :=
  (Fixed.refl s).foldl fun _ c h => yieldPort_fixed h c

/-! Bits of the pair's registers. -/

theorem getLsbD_setBit_of_set {n i : Nat} {w : BitVec n} (h : w.getLsbD i = true) (j : Nat) : (setBit w j).getLsbD i = true := by
  rw [setBit, BitVec.getLsbD_or, h, Bool.true_or]

end Sys2Proof.Machine
end

section
/-! The lease of the pair (R441, R442) and the passing of control (R445, R447). -/

namespace Sys2Proof.Machine

/-! The lease. -/

theorem pathMarked_frame (s : State) (p : Prop) [Decidable p] : ∃ d,
    (if p then { s with pr := { s.pr with diag := setBit s.pr.diag 5 } } else s) = { s with pr := { s.pr with diag := d } } := by
  split <;> exact ⟨_, rfl⟩

/-- A renewal is noted on its path. -/
theorem leaseHeard_frame (s : State) (edge : Bool) : ∃ d, leaseHeard s edge = { s with pr := { s.pr with
    diag := d, frameAt := if edge then s.pr.frameAt else s.clk.now, edgeAt := if edge then s.clk.now else s.pr.edgeAt } } := by
  cases edge with
  | false => exact pathMarked_frame { s with pr := { s.pr with frameAt := s.clk.now } } _
  | true => exact pathMarked_frame { s with pr := { s.pr with edgeAt := s.clk.now } } _

theorem leaseTimer_of_burning {s : State} (h : s.pr.role = 1) : ∃ l, leaseTimer s =
    let u := reachTime s (s.pr.leaseAt + usCyc 100)
    { u with pr := { u.pr with leaseNo := s.pr.leaseNo + 1, leaseOut := !s.pr.leaseOut, leaseAt := u.clk.now, link := l } } := by
  obtain ⟨l, hsend⟩ := pairSend_pr
    (let u := reachTime s (s.pr.leaseAt + usCyc 100)
     { u with pr := { u.pr with leaseNo := s.pr.leaseNo + 1, leaseOut := !s.pr.leaseOut, leaseAt := u.clk.now } }) 0x02
    (s.pr.leaseNo + 1) []
  exact ⟨l, (if_pos h).trans hsend⟩

theorem leaseRx_of_unfitted {s : State} (h : s.pr.fitted = false) (no : Option Word) : leaseRx s no = s :=
  if_pos (by rw [h]; rfl)

/-- A unit without a role that hears a LEASE hears it as a banked one. -/
theorem leaseRx_of_unled {s : State} (hfit : s.pr.fitted = true) (hrole : s.pr.role = 0) (no : Option Word) :
    leaseRx s no = leaseRx { s with pr := roleTaken s 2 } no := by
  have hother : s.pr.role.toNat ≠ 2 := by rw [hrole]; decide
  have hfit' : (roleTaken s 2).fitted = true := hfit
  have hrole' : (roleTaken s 2).role = 2 := rfl
  simp only [leaseRx, hfit, hfit', hrole, hrole', takeRole_of_other hother, Bool.not_true, Bool.false_eq_true, if_false, if_true,
    show ¬ (2 : BitVec 2) = 0 by decide]

theorem leaseRx_of_banked {s : State} (hfit : s.pr.fitted = true) (hrole : s.pr.role = 2) (n : Word) : ∃ d l,
    leaseRx s (some n) = { s with pr := { s.pr with
      diag := d, frameAt := s.clk.now, leaseNo := n, leaseOut := !s.pr.leaseOut, link := l } } := by
  obtain ⟨d, hheard⟩ := leaseHeard_frame s false
  obtain ⟨l, hsend⟩ := pairSend_pr { s with pr := { s.pr with
    diag := d, frameAt := s.clk.now, leaseNo := n, leaseOut := !s.pr.leaseOut } } 0x03 n []
  have hanswer : leaseRx s (some n) = pairSend { leaseHeard s false with pr := { (leaseHeard s false).pr with
      leaseNo := n, leaseOut := !(leaseHeard s false).pr.leaseOut } } 0x03 n [] := by
    simp only [leaseRx, hfit, hrole, Option.isNone_some, Bool.not_true, Bool.false_eq_true, if_false, if_true,
      show ¬ (2 : BitVec 2) = 0 by decide]
  rw [hanswer, hheard]
  exact ⟨d, l, hsend⟩

theorem leaseRx_edge_of_banked {s : State} (hfit : s.pr.fitted = true) (hrole : s.pr.role = 2) : ∃ d,
    leaseRx s none = { s with pr := { s.pr with diag := d, edgeAt := s.clk.now } } := by
  obtain ⟨d, hheard⟩ := leaseHeard_frame s true
  refine ⟨d, ?_⟩
  simp only [leaseRx, hfit, hrole, Option.isNone_none, hheard, Bool.not_true, Bool.false_eq_true, if_false, if_true,
    show ¬ (2 : BitVec 2) = 0 by decide]

/-- The LEASE of another burning unit: the one not preferred gives up its ports and its role. -/
theorem leaseRx_of_burning {s : State} (hfit : s.pr.fitted = true) (hrole : s.pr.role = 1) (n : Word) :
    leaseRx s (some n) =
      if preferred s then prInt s 3 else takeRole (allCh.foldl yieldPort (prInt s 3)) 2 := by
  simp only [leaseRx, hfit, hrole, Bool.not_true, Bool.false_eq_true, if_false, show ¬ (1 : BitVec 2) = 0 by decide,
    show ¬ (1 : BitVec 2) = 2 by decide]
  rfl

/-- Which unit stays burning, and PR_INT_STS of both. -/
theorem leaseRx_of_burning_pr {s : State} (hfit : s.pr.fitted = true) (hrole : s.pr.role = 1) (n : Word) :
    (leaseRx s (some n)).pr.role = (if preferred s then 1 else 2) ∧ (leaseRx s (some n)).pr.intSts.getLsbD 3 = true := by
  rw [leaseRx_of_burning hfit hrole]
  have hraised : (prInt s 3).pr.intSts.getLsbD 3 = true := getLsbD_setBit_self _ (by decide)
  split
  · exact ⟨hrole, hraised⟩
  · have hpr := (yieldPorts_fixed (prInt s 3) allCh).pr
    have hother : (allCh.foldl yieldPort (prInt s 3)).pr.role.toNat ≠ 2 := by
      rw [hpr]
      exact fun h => absurd ((congrArg BitVec.toNat hrole).symm.trans h) (by decide)
    rw [takeRole_of_other hother, roleTaken, hpr]
    exact ⟨rfl, getLsbD_setBit_of_set hraised 0⟩

theorem lackRx_of_burning {s : State} (h : s.pr.role = 1) (edge : Bool) : ∃ d, lackRx s edge = { s with pr := { s.pr with
    diag := d, frameAt := if edge then s.pr.frameAt else s.clk.now, edgeAt := if edge then s.clk.now else s.pr.edgeAt
    partnerLost := false } } := by
  obtain ⟨d, hheard⟩ := leaseHeard_frame s edge
  refine ⟨d, (if_pos h).trans ?_⟩
  rw [hheard]

/-- The lease has been silent to its end. -/
def leaseLapsed (s : State) : State :=
  let u := reachTime s (max s.pr.frameAt s.pr.edgeAt + usCyc 400)
  { u with pr := { u.pr with cntExp := satInc u.pr.cntExp } }

/-- An escalation leaves the pair and the clock alone (R92). -/
theorem escalate_pr_clk (s : State) (c : Ch) (desc : Option (Fin 64)) (opc : Bool) :
    ((escalate s c desc opc).pr, (escalate s c desc opc).clk) = (s.pr, s.clk) := by
  have raised (u : State) : Fixed u (settle (if escMode s.ch[c] = 2 then allBset.foldl (fun s i => selectGolden s c i) u else u) c) :=
    settle_fixed (((Fixed.refl u).foldl fun _ i h => selectGolden_fixed h c i).ite (.refl u)) c
  unfold escalate
  dsimp only
  exact Prod.ext ((raised _).pr.trans rfl) ((raised _).clk.trans rfl)

theorem escalations_pr_clk (l : List Ch) (s : State) : ((l.foldl (fun s c => escalate s c none false) s).pr,
    (l.foldl (fun s c => escalate s c none false) s).clk) = (s.pr, s.clk) :=
  foldl_keeps (p := fun s => (s.pr, s.clk)) (fun s c => escalate_pr_clk s c none false) l s

/-- The transactions under way are cut, with an escalation where PAIR_CUT_REBOOT is set. -/
def transactionsCut (s : State) (busy : BitVec 32) : State :=
  let u := allCh.foldl (fun s p => cutPort s p true) s
  (allCh.filter (fun c => busy.getLsbD c.val && (u.ch[c]).cfg.pairCutReboot)).foldl (fun s c => escalate s c none false) u

theorem transactionsCut_pr_clk (s : State) (busy : BitVec 32) :
    ((transactionsCut s busy).pr, (transactionsCut s busy).clk) = (s.pr, s.clk) := by
  have hcut : Fixed s (allCh.foldl (fun s p => cutPort s p true) s) := (Fixed.refl s).foldl fun _ _ => cutPort_fixed
  rw [transactionsCut, escalations_pr_clk, hcut.pr, hcut.clk]

/-- The banked unit takes the burning role when the lease is over. -/
theorem leaseExpiry_of_banked {s : State} (h : s.pr.role = 2) (busy : BitVec 32) :
    (leaseExpiry s busy).pr = { roleTaken (leaseLapsed s) 1 with cut := busy } ∧ (leaseExpiry s busy).clk = (leaseLapsed s).clk := by
  have hexpiry : leaseExpiry s busy = restartPmb (transactionsCut
      { takeRole (leaseLapsed s) 1 with pr := { (takeRole (leaseLapsed s) 1).pr with cut := busy } } busy) := by
    simp only [leaseExpiry, h, if_true, transactionsCut, leaseLapsed]
  have hother : (leaseLapsed s).pr.role.toNat ≠ 1 := fun h' => absurd ((congrArg BitVec.toNat h).symm.trans h') (by decide)
  rw [hexpiry, takeRole_of_other hother]
  obtain ⟨sq, hpmb⟩ := restartPmb_frame (transactionsCut
    { leaseLapsed s with pr := { roleTaken (leaseLapsed s) 1 with cut := busy } } busy)
  rw [hpmb]
  exact Prod.mk.inj (transactionsCut_pr_clk { leaseLapsed s with pr := { roleTaken (leaseLapsed s) 1 with cut := busy } } busy)

/-! Yielding on command and on a CLAIM (R445, R447). -/

theorem pairYield_of_fit {s : State} {h : PairHello} (hpartner : s.pr.partner = some h) (hstep : h.step = 2) (m : Core) :
    pairYield s (.core m) = startYield s := by
  simp only [pairYield, mayWrite_core, hpartner, hstep, decide_true, and_self, if_true]

theorem pairYield_of_unfit {s : State} (h : ∀ x : PairHello, s.pr.partner = some x → x.step ≠ 2) (m : Master) :
    pairYield s m = s := by
  unfold pairYield
  refine if_neg fun hfit => ?_
  cases hpartner : s.pr.partner with
  | none => rw [hpartner] at hfit; exact Bool.noConfusion hfit.right
  | some x => rw [hpartner] at hfit; exact h x hpartner (of_decide_eq_true hfit.right)

theorem claim_of_unready {s : State} (hrole : s.pr.role = 2)
    (h : s.pr.reclaim = false ∨ preferred s = false ∨ s.pr.step ≠ 2 ∨ cleanTime s < 10) : claim s = s := by
  unfold claim
  rw [if_pos hrole]
  refine if_neg fun ⟨hreclaim, hpref, hstep, hclean⟩ => ?_
  rcases h with h | h | h | h
  · exact Bool.noConfusion (h.symm.trans hreclaim)
  · exact Bool.noConfusion (h.symm.trans hpref)
  · exact h hstep
  · exact absurd hclean (Nat.not_le.mpr h)

theorem claim_of_not_banked {s : State} (h : s.pr.role ≠ 2) : claim s = startYield s := if_neg h

/-! Handover (R445). -/

/-- The channels whose H_CS_N is high are given up. -/
def portsGiven (s : State) (busy : BitVec 32) : State :=
  let u := (allCh.filter (fun c => (~~~busy &&& ~~~s.pr.given).getLsbD c.val)).foldl yieldPort s
  { u with pr := { u.pr with given := u.pr.given ||| ~~~busy } }

theorem portsGiven_pr (s : State) (busy : BitVec 32) : (portsGiven s busy).pr = { s.pr with given := s.pr.given ||| ~~~busy } := by
  rw [portsGiven, (yieldPorts_fixed s _).pr]

theorem portsGiven_clk (s : State) (busy : BitVec 32) : (portsGiven s busy).clk = s.clk := (yieldPorts_fixed s _).clk

/-- One handover more. -/
def handoverCounted (s : State) : State := { s with pr := { s.pr with handover := s.pr.handover + 1 } }

/-- A yielding unit at a boundary: it gives up what is free, and its role with the last connected channel. -/
theorem handover_of_yielding {s : State} {y : Nat} (hrole : s.pr.role = 1) (hyield : s.pr.yielding = some y) (busy : BitVec 32) :
    handover s busy =
      let u := portsGiven (if busy &&& connMask s = 0 then s else reachTime s (y + msCyc s.pr.handoverMs)) busy
      if connMask s &&& ~~~u.pr.given = 0 then
        prInt { takeRole u 2 with pr := { (takeRole u 2).pr with step := 2, stateDone := true, caughtUp := true } } 1
      else u := by
  unfold handover
  dsimp only
  rw [if_pos hrole, hyield]
  rfl

theorem handover_of_banked {s : State} (hrole : s.pr.role = 2) (busy : BitVec 32) :
    handover s busy =
      let u := portsGiven s busy
      if connMask s &&& ~~~u.pr.given = 0 then
        restartPmb (takeRole (handoverCounted u) 1)
      else u := by
  unfold handover
  dsimp only
  rw [if_neg (by rw [hrole]; decide), if_pos hrole]
  rfl

theorem handover_of_no_yield {s : State} (h : s.pr.role = 0 ∨ (s.pr.role = 1 ∧ s.pr.yielding = none)) (busy : BitVec 32) :
    handover s busy = s := by
  unfold handover
  dsimp only
  rcases h with h | ⟨hrole, hno⟩
  · rw [if_neg (by rw [h]; decide), if_neg (by rw [h]; decide)]
  · rw [if_pos hrole, hno]

theorem and_not_or_not (conn given busy : BitVec 32) : conn &&& ~~~(given ||| ~~~busy) = conn &&& busy &&& ~~~given := by
  rw [BitVec.not_or, BitVec.not_not, BitVec.and_assoc, BitVec.and_comm busy]

/-- With every H_CS_N high, no channel is kept. -/
theorem none_kept (conn given : BitVec 32) : conn &&& ~~~(given ||| ~~~(0 : BitVec 32)) = 0 := by
  rw [and_not_or_not]
  simp

/-- The yielding unit gives up control while every H_CS_N is high. -/
theorem handover_yielded {s : State} {y : Nat} (hrole : s.pr.role = 1) (hyield : s.pr.yielding = some y) :
    (handover s 0).pr = { roleTaken (portsGiven s 0) 2 with
        step := 2, stateDone := true, caughtUp := true, intSts := setBit (roleTaken (portsGiven s 0) 2).intSts 1 } ∧
      (handover s 0).clk = s.clk := by
  have hother : (portsGiven s 0).pr.role.toNat ≠ 2 := by
    rw [portsGiven_pr]
    exact fun h => absurd ((congrArg BitVec.toNat hrole).symm.trans h) (by decide)
  rw [handover_of_yielding hrole hyield]
  dsimp only
  rw [if_pos (show 0 &&& connMask s = 0 from BitVec.zero_and), if_pos (by rw [portsGiven_pr]; exact none_kept ..), takeRole_of_other hother]
  exact ⟨rfl, portsGiven_clk s 0⟩

/-- A channel whose transaction runs keeps the yielding unit in control. -/
theorem handover_busy {s : State} {y : Nat} {busy : BitVec 32} (hrole : s.pr.role = 1) (hyield : s.pr.yielding = some y)
    (hbusy : connMask s &&& busy &&& ~~~s.pr.given ≠ 0) :
    (handover s busy).pr = { s.pr with given := s.pr.given ||| ~~~busy } ∧
      (handover s busy).clk = (reachTime s (y + msCyc s.pr.handoverMs)).clk := by
  have hconn : ¬ busy &&& connMask s = 0 := fun h => hbusy (by
    rw [BitVec.and_comm (connMask s), h]
    exact BitVec.zero_and)
  rw [handover_of_yielding hrole hyield]
  dsimp only
  rw [if_neg hconn, if_neg (by rw [portsGiven_pr, reachTime_pr, and_not_or_not]; exact hbusy), portsGiven_pr, portsGiven_clk]
  exact ⟨rfl, rfl⟩

/-- The banked unit takes control while every H_CS_N is high. -/
theorem handover_taken {s : State} (hrole : s.pr.role = 2) :
    (handover s 0).pr = roleTaken (handoverCounted (portsGiven s 0)) 1 := by
  have hother : (handoverCounted (portsGiven s 0)).pr.role.toNat ≠ 1 := by
    rw [handoverCounted, portsGiven_pr]
    exact fun h => absurd ((congrArg BitVec.toNat hrole).symm.trans h) (by decide)
  rw [handover_of_banked hrole]
  dsimp only
  rw [if_pos (by rw [portsGiven_pr]; exact none_kept ..)]
  obtain ⟨sq, hpmb⟩ := restartPmb_frame (takeRole (handoverCounted (portsGiven s 0)) 1)
  rw [hpmb, takeRole_of_other hother]

end Sys2Proof.Machine
end

section
/-! The verdict blocks of the pair (R446), what brings a banked unit IN_STEP (R443, R444, R448), and the pair's messages (R439). -/

namespace Sys2Proof.Machine

/-! Verdict blocks. -/

/-- A block that differs is counted; the streams stay. -/
theorem verdictDiffers_pr (s : State) : (verdictDiffers s).pr.cntMis = satInc s.pr.cntMis ∧
    (verdictDiffers s).pr.streams = s.pr.streams := by
  unfold verdictDiffers
  dsimp only
  split
  · exact ⟨rfl, rfl⟩
  · split
    · split
      · obtain ⟨_, _, _, _, _, hyield⟩ := startYield_pr { s with pr := { s.pr with cntMis := satInc s.pr.cntMis } }
        rw [hyield]
        exact ⟨rfl, rfl⟩
      · exact ⟨rfl, rfl⟩
    · exact ⟨rfl, rfl⟩

/-- The stream in which the partner's block `b` is compared. -/
def streamOf (s : State) (b : VerdictBlock) : VStream :=
  (s.pr.streams.find? (fun v => v.perBind = b.perBind && v.idx = b.idx.toNat)).getD
    { perBind := b.perBind, idx := b.idx.toNat, count := 0, crc := BitVec.allOnes 32, no := 0, mine := [], theirs := [] }

theorem vblockRx_of_unfitted {s : State} (h : s.pr.fitted = false) (b : VerdictBlock) : vblockRx s b = s :=
  if_pos (by rw [h]; rfl)

theorem vblockRx_of_fitted {s : State} (h : s.pr.fitted = true) (b : VerdictBlock) :
    vblockRx s b = compareStream s { streamOf s b with theirs := aput (streamOf s b).theirs b.no b.crc } :=
  if_neg (by rw [h]; decide)

/-- Outside IN_STEP a stream is settled without a comparison. -/
theorem compareStream_of_not_in_step {s : State} (h : s.pr.step ≠ 2) (v : VStream) :
    compareStream s v = putStream s (settleStream v) := if_neg h

theorem compareStream_of_in_step {s : State} (h : s.pr.step = 2) (v : VStream) :
    compareStream s v = verdictRun (differing v) (putStream s (settleStream v)) := if_pos h

/-- One block of each unit, of the same number. -/
theorem bothBlocks_of_one {v : VStream} {no : Nat} {c d : Word} (hmine : v.mine = [(no, c)]) (htheirs : v.theirs = [(no, d)]) :
    bothBlocks v = [(no, c, d)] := by
  simp [bothBlocks, hmine, htheirs, aget]

theorem settleStream_of_one {v : VStream} {no : Nat} {c d : Word} (hmine : v.mine = [(no, c)]) (htheirs : v.theirs = [(no, d)]) :
    ((settleStream v).mine, (settleStream v).theirs) = ([], []) := by
  simp [settleStream, bothBlocks_of_one hmine htheirs, hmine, htheirs]

theorem differing_of_one {v : VStream} {no : Nat} {c d : Word} (hmine : v.mine = [(no, c)]) (htheirs : v.theirs = [(no, d)]) :
    differing v = if c = d then 0 else 1 := by
  rw [differing, bothBlocks_of_one hmine htheirs]
  by_cases hcd : c = d
  · simp [hcd]
  · simp [hcd]

/-- The comparison of one block of each unit. -/
theorem compareStream_of_one {s : State} {v : VStream} {no : Nat} {c d : Word} (hstep : s.pr.step = 2)
    (hmine : v.mine = [(no, c)]) (htheirs : v.theirs = [(no, d)]) :
    (compareStream s v).pr.cntMis = (if c = d then s.pr.cntMis else satInc s.pr.cntMis) ∧
      (compareStream s v).pr.streams.head?.map (fun v => (v.mine, v.theirs)) = some ([], []) := by
  have hsettled : some ((settleStream v).mine, (settleStream v).theirs) = some ([], []) :=
    congrArg some (settleStream_of_one hmine htheirs)
  rw [compareStream_of_in_step hstep, differing_of_one hmine htheirs]
  by_cases hcd : c = d
  · rw [if_pos hcd, if_pos hcd]
    exact ⟨rfl, hsettled⟩
  · rw [if_neg hcd, if_neg hcd]
    obtain ⟨hcnt, hstreams⟩ := verdictDiffers_pr (putStream s (settleStream v))
    have hrun : verdictRun 1 (putStream s (settleStream v)) = verdictDiffers (putStream s (settleStream v)) := rfl
    rw [hrun, hstreams]
    exact ⟨hcnt, hsettled⟩

/-! Notices (R287, R448). -/

theorem noticeRx_of_not_banked {s : State} (h : s.pr.role ≠ 2) (n : PairNotice) : noticeRx s n = s := if_pos h

/-- A sequence number of the partner is noted, and is the one announcement. -/
def pseqNoted (s : State) (n : Fin 32) (q : BitVec 16) (c : Word) : State :=
  { s with pr := { s.pr with pseq := aput s.pr.pseq n.val (q + 1), announced := [(n.val, q, c)] } }

theorem noticeRx_pseq_of_banked {s : State} (h : s.pr.role = 2) (hnone : s.pr.announced = []) (n : Fin 32) (q : BitVec 16)
    (c : Word) : noticeRx s (.pseq n q c) = sendCopies 64 (pseqNoted s n q c) := by
  refine (if_neg (not_not_intro h)).trans ?_
  dsimp only
  rw [hnone, List.nil_append]
  rfl

theorem sendCopies_of_no_announcement {s : State} (h : s.pr.announced = []) (n : Nat) : sendCopies n s = s := by
  cases n with
  | zero => rfl
  | succ n => simp only [sendCopies, h, List.find?_nil]

/-- A copy that agrees with no announcement waits. -/
theorem sendCopies_of_no_copy {s : State} {a : Nat × BitVec 16 × Word} (h : s.pr.announced = [a])
    (hno : s.pr.copies.any (announces a) = false) (n : Nat) : sendCopies n s = s := by
  cases n with
  | zero => rfl
  | succ n => simp only [sendCopies, h, List.find?_cons, hno, List.find?_nil]

theorem modLink_flue_pr (s : State) (f : Flue) (g : FlueRt → FlueRt) : (modLink s (flueLink f) g).pr = s.pr := by
  unfold modLink
  rw [dif_pos (show (flueLink f).val < 4 from f.isLt)]

/-- What goes out on a flue leaves the pair alone. -/
theorem originate_pr (s : State) (fr : FabFrame) : (originate s fr).pr = s.pr := by
  have sent (f : Flue) (g : FabFrame) : (sendOn s (flueLink f) g).pr = s.pr :=
    (modLink_flue_pr ..).trans (modLink_flue_pr ..)
  unfold originate
  split
  · rfl
  · split
    · split
      · rfl
      · exact sent ..
    · rfl

/-- The one copy that waits agrees with the one announcement and goes out under its number. -/
theorem sendCopies_of_one {s : State} {a : Nat × BitVec 16 × Word} {fr : FabFrame} (h : s.pr.announced = [a])
    (hcopy : s.pr.copies = [fr]) (hagree : announces a fr = true) (n : Nat) : sendCopies (n + 1) s =
      originate { s with pr := { s.pr with announced := [], copies := [] } } { fr with pseq := a.2.1 } := by
  simp only [sendCopies, h, hcopy, List.find?_cons, List.any_cons, List.any_nil, hagree, Bool.or_false, List.erase_cons_head]
  refine sendCopies_of_no_announcement ?_ n
  rw [originate_pr]

/-- The burning unit's outcome of a PMB step ends it here. -/
theorem noticeRx_pmbStep_done {s : State} {i : Fin 128} {c : Step} (hrole : s.pr.role = 2) (hcfg : stepCfg s i.val = some c)
    (hpmb : isPmb c = true) (hrun : (s.sq.steps[i]).st = .running) :
    ((noticeRx s (.pmbStep i true)).sq.steps[i]).st = .done := by
  have hnotice : noticeRx s (.pmbStep i true) = runGraph (finishStep s i c) := by
    simp only [noticeRx, hrole, noticeStep, hcfg, hpmb, hrun, ne_eq, not_true_eq_false, and_self, if_true, if_false]
  rw [hnotice]
  exact runGraph_doneStays _ i (finishStep_done s i c)

/-! IN_STEP (R443). -/

/-- A unit enters IN_STEP or stays as it is. -/
theorem tryInStep_pr (s : State) : ∃ x i, tryInStep s = { s with pr := { s.pr with step := x, intSts := i } } := by
  unfold tryInStep
  dsimp only
  split <;> split <;> exact ⟨_, _, rfl⟩

theorem tryInStep_of_not_banked {s : State} (h : s.pr.role ≠ 2) : tryInStep s = s := if_neg fun hready => h hready.left

theorem tryInStep_of_ready {s : State} {p : PairHello} (hrole : s.pr.role = 2) (hstep : s.pr.step = 1)
    (hpartner : s.pr.partner = some p) (hdigest : p.digest = s.st.digest) (hstate : s.pr.stateDone = true)
    (hcaught : s.pr.caughtUp = true) : tryInStep s = prInt { s with pr := { s.pr with step := 2 } } 1 := by
  simp only [tryInStep, hrole, hstep, hpartner, hdigest, hstate, hcaught, decide_true, and_self, if_true]

theorem stateRx_of_not_syncing {s : State} (h : s.pr.role ≠ 2 ∨ s.pr.step ≠ 1) (r : PairState) : stateRx s r = s :=
  if_neg fun ⟨hrole, hstep⟩ => h.elim (· hrole) (· hstep)

/-- A STATE record of a lock. -/
theorem stateRx_lock {s : State} (hrole : s.pr.role = 2) (hstep : s.pr.step = 1) (k : Fin 16) (o : Option Inst) :
    (stateRx s (.lock k o)).mb = { s.mb with locks := s.mb.locks.set k o } ∧ (stateRx s (.lock k o)).pr.stateDone = true := by
  have hgated : Fixed { s with pr := { s.pr with stateDone := true }, mb := { s.mb with locks := s.mb.locks.set k o } }
      (regate (applyState { s with pr := { s.pr with stateDone := true } } (.lock k o))) := regate_fixed (.refl _)
  obtain ⟨_, _, htry⟩ := tryInStep_pr (regate (applyState { s with pr := { s.pr with stateDone := true } } (.lock k o)))
  have hrecord : stateRx s (.lock k o) = _ := (if_pos ⟨hrole, hstep⟩).trans htry
  rw [hrecord]
  exact ⟨hgated.mb, congrArg Pr.stateDone hgated.pr⟩

theorem catchUp_of_unled {s : State} (h : s.pr.role = 0) : catchUp s = s := by
  unfold catchUp
  rw [if_neg (by rw [h]; decide), if_neg (by rw [h]; decide)]

theorem catchUp_of_banked {s : State} (h : s.pr.role = 2) : ∃ x i,
    catchUp s = { s with pr := { s.pr with caughtUp := true, step := x, intSts := i } } := by
  obtain ⟨x, i, htry⟩ := tryInStep_pr { s with pr := { s.pr with caughtUp := true } }
  refine ⟨x, i, ?_⟩
  unfold catchUp
  rw [if_neg (by rw [h]; decide), if_pos h]
  exact htry

/-- The burning unit's pass waits for its billet. -/
theorem catchUp_of_burning {s : State} (h : s.pr.role = 1) : (catchUp s).pr.role = s.pr.role ∧
    (catchUp s).pr.caughtUp = (s.pr.caughtUp || (draw .bg .hearth none false .adapt s).1.isSome) := by
  unfold catchUp
  rw [if_pos h]
  cases hdraw : draw .bg .hearth none false .adapt s with
  | mk r u =>
    have hpr : u.pr = s.pr := (draw_fixed (Fixed.refl s) hdraw).pr
    cases r with
    | none => exact ⟨congrArg Pr.role hpr, (congrArg Pr.caughtUp hpr).trans (Bool.or_false s.pr.caughtUp).symm⟩
    | some uid =>
      have sent (t : State) (r : PairState) : ((pairSend t 0x08 0 (stateBytes r)).pr.role,
          (pairSend t 0x08 0 (stateBytes r)).pr.caughtUp) = (t.pr.role, t.pr.caughtUp) := by
        obtain ⟨l, hsend⟩ := pairSend_pr t 0x08 0 (stateBytes r)
        rw [hsend]
      have hsent := foldl_keeps (p := fun t => (t.pr.role, t.pr.caughtUp)) sent (stateRecords (retire u uid))
        { retire u uid with pr := { (retire u uid).pr with caughtUp := true } }
      obtain ⟨hrole, hcaught⟩ := Prod.mk.inj hsent
      have hretired : (retire u uid).pr.role = s.pr.role := congrArg Pr.role hpr
      exact ⟨hrole.trans hretired, hcaught.trans (Bool.or_true _).symm⟩

/-! HELLO and DIAG (R439, R440, R443-R445). -/

/-- What a HELLO tells of the partner, and the step of the pair that it means to a burning unit. -/
def helloTaken (s : State) (h : PairHello) : State :=
  { s with pr := { s.pr with
    partner := some h, ordConflict := decide (h.ord = s.pr.ord)
    step := if s.pr.role = 1 then (if h.step = 2 then 2 else 1) else s.pr.step } }

/-- A structure digest that differs is the DIGEST input of the self-diagnosis, and a banked unit syncs anew with its hosts held. -/
def digestDiffers (s : State) : State :=
  let u := diagFail { s with pr := { s.pr with diag := setBit s.pr.diag 4 } } 4
  if u.pr.role = 2 then holdHosted { u with pr := { u.pr with step := 1 } } else u

theorem pairHello_of_unfitted {s : State} (h : s.pr.fitted = false) (x : PairHello) : pairHello s x = s :=
  if_pos (by rw [h]; rfl)

theorem pairHello_of_fitted {s : State} (hfit : s.pr.fitted = true) (h : PairHello) :
    pairHello s h = if h.digest = s.st.digest then tryInStep (helloTaken s h) else digestDiffers (helloTaken s h) := by
  have htaken : (if s.pr.role = 1 then
      { s with pr := { s.pr with partner := some h, ordConflict := decide (h.ord = s.pr.ord), step := if h.step = 2 then 2 else 1 } }
      else { s with pr := { s.pr with partner := some h, ordConflict := decide (h.ord = s.pr.ord) } }) = helloTaken s h := by
    unfold helloTaken
    split <;> rfl
  unfold pairHello
  rw [if_neg (by rw [hfit]; decide)]
  dsimp only
  rw [htaken]
  exact ite_not ..

/-- What the difference leaves of the pair's registers. -/
theorem digestDiffers_pr (s : State) : ∃ x d a f y g n k l, (digestDiffers s).pr = { s.pr with
      step := x, diag := setBit d 4, failAt := a, failed := f, yielding := y, given := g, handover := n, cntHand := k, link := l } ∧
    (s.pr.role = 2 → x = 1) := by
  obtain ⟨d, a, f, y, g, n, k, l, hfail, hbit⟩ := diagFail_pr { s with pr := { s.pr with diag := setBit s.pr.diag 4 } } 4
  have hd : ∃ d', d = setBit d' 4 := hbit.elim (fun h => ⟨_, h⟩) (fun h => ⟨_, h⟩)
  obtain ⟨d', rfl⟩ := hd
  unfold digestDiffers
  rw [hfail]
  dsimp only
  split
  · exact ⟨1, d', a, f, y, g, n, k, l, (regate_fixed (Fixed.mk' (Fixed.refl _))).pr, fun _ => rfl⟩
  · next hrole => exact ⟨s.pr.step, d', a, f, y, g, n, k, l, rfl, fun h => absurd h hrole⟩

/-- The HELLO and the DIAG stand on the link. -/
theorem pairTimer_of_up {s : State} (hfit : s.pr.fitted = true) (hup : linkUp s.pr.link = true) : ∃ l,
    pairTimer s = { s with pr := { s.pr with link := l } } ∧ linkLoad l = linkLoad s.pr.link + 2 := by
  unfold pairTimer
  rw [if_neg (by rw [hfit]; decide)]
  obtain ⟨l, hhello, hst, hload⟩ := pairSend_frame s 0x01 0
    (otpSerial s ++ [BitVec.ofNat 8 (b2n s.pr.ord), s.pr.role.setWidth 8, s.pr.step.setWidth 8, 0] ++ digBytes s.st.digest)
  dsimp only
  rw [hhello]
  have hup' : linkUp l = true := by rw [linkUp, hst]; exact hup
  obtain ⟨l', hdiag, -, hload'⟩ := pairSend_frame { s with pr := { s.pr with link := l } } 0x09 0
    [s.pr.diag.setWidth 8, BitVec.ofNat 8 (cleanTime { s with pr := { s.pr with link := l } }), 0, 0]
  exact ⟨l', hdiag, (hload' hup').trans (congrArg (· + 1) (hload hup))⟩

theorem pairTimer_of_unfitted {s : State} (h : s.pr.fitted = false) : pairTimer s = s := if_pos (by rw [h]; rfl)

theorem diagRx_of_unfitted {s : State} (h : s.pr.fitted = false) (d : PairDiag) : diagRx s d = s := if_pos (by rw [h]; rfl)

theorem diagRx_of_fitted {s : State} (h : s.pr.fitted = true) (d : PairDiag) : ∃ i y g n k l, diagRx s d =
    { s with pr := { s.pr with
      partnerDiag := some (d, s.clk.now), intSts := i, yielding := y, given := g, handover := n, cntHand := k, link := l } } := by
  unfold diagRx
  rw [if_neg (by rw [h]; decide)]
  dsimp only
  split
  · exact ⟨_, _, _, _, _, _, rfl⟩
  · split
    · obtain ⟨y, g, n, k, l, hyield⟩ := startYield_pr { s with pr := { s.pr with partnerDiag := some (d, s.clk.now) } }
      exact ⟨_, y, g, n, k, l, hyield⟩
    · exact ⟨_, _, _, _, _, _, rfl⟩

/-! Messages (R439). -/

theorem pairMsgSend_of_unfit {s : State} {m : Master}
    (h : hdrLen s.pr.tx[(0 : Fin 16)] = 0 ∨ 16 < hdrLen s.pr.tx[(0 : Fin 16)] ∨ s.pr.fitted = false) : pairMsgSend s m = s := by
  refine if_pos ?_
  rcases h with h | h | h
  · exact .inr (.inl (Nat.lt_one_iff.mpr h))
  · exact .inr (.inr (.inl h))
  · exact .inr (.inr (.inr (by rw [h]; rfl)))

theorem pairMsgSend_of_fit {s : State} (hlo : 0 < hdrLen s.pr.tx[(0 : Fin 16)]) (hhi : hdrLen s.pr.tx[(0 : Fin 16)] ≤ 16)
    (hfit : s.pr.fitted = true) (hup : linkUp s.pr.link = true) (m : Core) : ∃ l f,
    pairMsgSend s (.core m) = useFree { s with pr := { s.pr with txSeq := s.pr.txSeq + 1, full := f, link := l } } 1 ∧
      linkLoad l = linkLoad s.pr.link + 1 := by
  have hsent : ¬ ((!mayWrite s (.core m) 16 true) = true ∨ hdrLen s.pr.tx[(0 : Fin 16)] < 1 ∨
      16 < hdrLen s.pr.tx[(0 : Fin 16)] ∨ (!s.pr.fitted) = true) := by
    rw [mayWrite_core, hfit]
    simp only [Bool.not_true, Bool.false_eq_true, or_false, false_or]
    omega
  unfold pairMsgSend
  dsimp only
  rw [if_neg hsent]
  obtain ⟨l, hsend, -, hload⟩ := pairSend_frame
    { s with pr := { s.pr with txSeq := s.pr.txSeq + 1, full := (Config.freeByte s.clk.free).getLsbD 0 } } 0x0A 0
    ((stampHdr s.pr.tx[(0 : Fin 16)] 0xFE s.pr.txSeq.toNat ::
      (s.pr.tx.toList.take (hdrLen s.pr.tx[(0 : Fin 16)])).drop 1).flatMap wordBytes)
  rw [hsend]
  exact ⟨l, _, rfl, hload hup⟩

theorem pairMsgRx_of_refused {s : State} (h : s.pr.fitted = false ∨ s.pr.rx ≠ none) (ws : List Word) : pairMsgRx s ws = s :=
  if_neg fun ⟨hfit, hempty⟩ => h.elim (fun hno => Bool.noConfusion (hno.symm.trans hfit)) (· hempty)

theorem pairMsgRx_of_empty {s : State} (hfit : s.pr.fitted = true) (hempty : s.pr.rx = none) (h : Word) (ws : List Word) :
    pairMsgRx s (h :: ws) = prInt { s with pr := { s.pr with rx := some (stampHdr h 0xFE (bf h 16 8) :: ws) } } 4 :=
  if_pos ⟨hfit, hempty⟩

end Sys2Proof.Machine
end

section
/-! The statement of the pair, clause by clause. -/

namespace Sys2Proof.Machine

/-! What is left of the clauses: HELLO, the burning unit's timers, and external masters, who own none of the registers (R320). -/

/-- A unit that hears HELLO keeps its role, and learns of its partner. -/
theorem pairHello_partner {s : State} (hfit : s.pr.fitted = true) (h : PairHello) : (pairHello s h).pr.partner = some h ∧
    (pairHello s h).pr.ordConflict = decide (h.ord = s.pr.ord) ∧ (pairHello s h).pr.role = s.pr.role := by
  rw [pairHello_of_fitted hfit]
  split
  · obtain ⟨_, _, htry⟩ := tryInStep_pr (helloTaken s h)
    rw [htry]
    exact ⟨rfl, rfl, rfl⟩
  · obtain ⟨_, _, _, _, _, _, _, _, _, hdiffers, -⟩ := digestDiffers_pr (helloTaken s h)
    rw [hdiffers]
    exact ⟨rfl, rfl, rfl⟩

theorem pairHello_of_other_digest {s : State} {h : PairHello} (hfit : s.pr.fitted = true) (hdigest : h.digest ≠ s.st.digest)
    (hrole : s.pr.role = 2) : (pairHello s h).pr.step = 1 ∧ (pairHello s h).pr.diag.getLsbD 4 = true := by
  obtain ⟨_, d, _, _, _, _, _, _, _, hdiffers, hstep⟩ := digestDiffers_pr (helloTaken s h)
  rw [pairHello_of_fitted hfit, if_neg hdigest, hdiffers]
  exact ⟨hstep hrole, getLsbD_setBit_self d (by decide)⟩

theorem pairHello_in_step {s : State} {h : PairHello} (hfit : s.pr.fitted = true) (hdigest : h.digest = s.st.digest)
    (hrole : s.pr.role = 2) (hstep : s.pr.step = 1) (hstate : s.pr.stateDone = true) (hcaught : s.pr.caughtUp = true) :
    (pairHello s h).pr.step = 2 ∧ (pairHello s h).pr.intSts = s.pr.intSts ||| 2#32 := by
  have hsync : (helloTaken s h).pr.step = 1 := by
    rw [helloTaken, if_neg (by rw [hrole]; decide), hstep]
  rw [pairHello_of_fitted hfit, if_pos hdigest, tryInStep_of_ready (s := helloTaken s h) (p := h) hrole hsync rfl hdigest hstate hcaught]
  exact ⟨rfl, rfl⟩

theorem pairHello_of_burning {s : State} {h : PairHello} (hfit : s.pr.fitted = true) (hdigest : h.digest = s.st.digest)
    (hrole : s.pr.role = 1) : (pairHello s h).pr.step = if h.step = 2 then 2 else 1 := by
  have hburning : (helloTaken s h).pr.role ≠ 2 := by
    rw [show (helloTaken s h).pr.role = s.pr.role from rfl, hrole]
    decide
  rw [pairHello_of_fitted hfit, if_pos hdigest, tryInStep_of_not_banked hburning]
  exact if_pos hrole

theorem leaseTimer_of_not_burning {s : State} (h : s.pr.role ≠ 1) : leaseTimer s = s := if_neg h
theorem lackRx_of_not_burning {s : State} (h : s.pr.role ≠ 1) (edge : Bool) : lackRx s edge = s := if_neg h
theorem lackLoss_of_not_burning {s : State} (h : s.pr.role ≠ 1) : lackLoss s = s := if_neg h

theorem lackLoss_of_burning {s : State} (h : s.pr.role = 1) : lackLoss s =
    { reachTime s (max s.pr.frameAt s.pr.edgeAt + usCyc 400) with pr := { s.pr with partnerLost := true } } := if_pos h

theorem leaseExpiry_of_not_banked {s : State} (h : s.pr.role ≠ 2) (busy : BitVec 32) : leaseExpiry s busy = s := if_neg h

theorem pairYield_by_ext (s : State) (x : Fin 6) : pairYield s (.ext x) = s := by
  unfold pairYield
  exact if_neg fun ⟨howned, _⟩ => Bool.noConfusion howned

theorem pairMsgSend_by_ext (s : State) (x : Fin 6) : pairMsgSend s (.ext x) = s := by
  unfold pairMsgSend
  exact if_pos (.inl rfl)

theorem pairMsgPop_by_ext (s : State) (x : Fin 6) : pairMsgPop s (.ext x) = s := if_neg Bool.false_ne_true

/-- A partner's block in a stream that holds none of the partner's. -/
theorem vblockRx_of_stream {s : State} {b : VerdictBlock} {v : VStream} (hfit : s.pr.fitted = true)
    (hstream : s.pr.streams.find? (fun v => v.perBind = b.perBind && v.idx = b.idx.toNat) = some v) (hnone : v.theirs = []) :
    vblockRx s b = compareStream s { v with theirs := [(b.no, b.crc)] } := by
  rw [vblockRx_of_fitted hfit, streamOf, hstream, Option.getD_some, hnone]
  rfl

/-- Settles O57: each clause is what its row's operation does, given above under its role or its fit. -/
theorem pairRolesLeaseAndSynchronisation : Obligations.PairRolesLeaseAndSynchronisation := by
  intro s hs
  refine ⟨fun hfit hrole => ?roleTimer, fun hled => next_onLive_of_fixed (roleTimer_of_led hled),
    fun h n b d ws hfit => ⟨next_onLive_of_fixed (pairHello_of_unfitted hfit h), next_onLive_of_fixed (pairTimer_of_unfitted hfit),
      next_onLive_of_fixed (leaseRx_of_unfitted hfit n), next_onLive_of_fixed (vblockRx_of_unfitted hfit b),
      next_onLive_of_fixed (pairMsgRx_of_refused (.inl hfit) ws), next_onLive_of_fixed (diagRx_of_unfitted hfit d)⟩,
    fun h hfit => ?hello, fun hfit hup => ?helloTimer, fun hrole => ?leaseTimer,
    fun e hrole => ⟨next_onLive_of_fixed (leaseTimer_of_not_burning hrole), next_onLive_of_fixed (lackRx_of_not_burning hrole e),
      next_onLive_of_fixed (lackLoss_of_not_burning hrole)⟩,
    fun n hfit hrole => ?lease, fun n hfit hrole => ⟨_, next_onLive hs rfl, leaseRx_of_burning_pr hfit hrole n⟩,
    fun hfit hrole => ?edge, fun e hrole => ?lack, fun hrole => next_onLive hs (lackLoss_of_burning hrole),
    fun b hrole => next_onLive_of_fixed (leaseExpiry_of_not_banked hrole b), fun b hrole => ?takeover,
    fun m h hpartner hstep hrole hfree => ?yields,
    fun m hunfit => next_onLive_of_fixed (pairYield_of_unfit hunfit (.core m)),
    fun x => ⟨next_onLive_of_fixed (pairYield_by_ext s x), next_onLive_of_fixed (pairMsgSend_by_ext s x),
      next_onLive_of_fixed (pairMsgPop_by_ext s x)⟩,
    fun b hno => next_onLive_of_fixed (handover_of_no_yield hno b),
    fun y hrole hyield => ?yielded, fun y b hrole hyield hbusy => ?kept, fun hrole => ?taken,
    fun hrole hunready => next_onLive_of_fixed (claim_of_unready hrole hunready), fun hrole hfree => ?claimed,
    fun b hfit hstep => ?uncompared, fun b v c hfit hstep hstream hnone hmine => ?compared,
    fun n hrole => next_onLive_of_fixed (noticeRx_of_not_banked hrole n), fun n q c hrole hnone => ?announced,
    fun i c hrole hcfg hpmb hrun => ⟨_, next_onLive hs rfl, noticeRx_pmbStep_done hrole hcfg hpmb hrun⟩,
    fun r hno => next_onLive_of_fixed (stateRx_of_not_syncing hno r), fun k o hrole hstep => ?state,
    fun hrole => next_onLive_of_fixed (catchUp_of_unled hrole), fun hrole => ?caughtUp,
    fun hrole => ⟨_, next_onLive hs rfl, catchUp_of_burning hrole⟩,
    fun m hno => next_onLive_of_fixed (pairMsgSend_of_unfit hno), fun m hlo hhi hfit hup => ?send,
    fun m => next_onLive hs (if_pos rfl),
    fun h ws hfit hempty => next_onLive hs (pairMsgRx_of_empty hfit hempty h ws),
    fun ws hfull => next_onLive_of_fixed (pairMsgRx_of_refused (.inr hfull) ws), fun d hfit => ?diag⟩
  case roleTimer =>
    obtain ⟨sq, htimer⟩ := roleTimer_of_unled hfit hrole
    exact ⟨_, next_onLive hs htimer, rfl, rfl, rfl, rfl⟩
  case hello =>
    obtain ⟨hpartner, hord, hkept⟩ := pairHello_partner hfit h
    exact ⟨_, next_onLive hs rfl, hpartner, hord, hkept, pairHello_of_other_digest hfit, pairHello_in_step hfit,
      pairHello_of_burning hfit⟩
  case helloTimer =>
    obtain ⟨l, htimer, hload⟩ := pairTimer_of_up hfit hup
    exact ⟨_, next_onLive hs htimer, hload, rfl, rfl⟩
  case leaseTimer =>
    obtain ⟨l, htimer⟩ := leaseTimer_of_burning hrole
    exact ⟨_, next_onLive hs htimer, rfl, rfl, rfl, rfl⟩
  case lease =>
    rcases hrole with hrole | hrole
    · obtain ⟨d, l, hlease⟩ := leaseRx_of_banked (s := { s with pr := roleTaken s 2 }) hfit rfl n
      exact ⟨_, next_onLive hs ((leaseRx_of_unled hfit hrole _).trans hlease), rfl, rfl, rfl, rfl, fun _ => rfl⟩
    · obtain ⟨d, l, hlease⟩ := leaseRx_of_banked hfit hrole n
      exact ⟨_, next_onLive hs hlease, hrole, rfl, rfl, rfl, fun hunled => absurd (hrole.symm.trans hunled) (by decide)⟩
  case edge =>
    obtain ⟨d, hlease⟩ := leaseRx_edge_of_banked hfit hrole
    exact ⟨_, next_onLive hs hlease, hrole, rfl, rfl, rfl⟩
  case lack =>
    obtain ⟨d, hlack⟩ := lackRx_of_burning hrole e
    refine ⟨_, next_onLive hs hlack, rfl, ?_⟩
    cases e with
    | false => exact rfl
    | true => exact rfl
  case takeover =>
    obtain ⟨hpr, hclk⟩ := leaseExpiry_of_banked hrole b
    refine ⟨_, next_onLive hs rfl, ?_⟩
    rw [hpr, hclk]
    exact ⟨rfl, rfl, rfl, rfl, rfl⟩
  case yields =>
    obtain ⟨l, hstart⟩ := startYield_of_burning hrole hfree
    exact ⟨_, next_onLive hs ((pairYield_of_fit hpartner hstep m).trans hstart), rfl, rfl, hrole, rfl, rfl⟩
  case yielded =>
    obtain ⟨hpr, hclk⟩ := handover_yielded hrole hyield
    refine ⟨_, next_onLive hs rfl, ?_⟩
    rw [hpr, hclk]
    exact ⟨rfl, rfl, rfl, rfl, getLsbD_setBit_self _ (by decide), rfl⟩
  case kept =>
    obtain ⟨hpr, hclk⟩ := handover_busy hrole hyield hbusy
    refine ⟨_, next_onLive hs rfl, ?_⟩
    rw [hpr, hclk]
    exact ⟨hrole, hyield, rfl, rfl⟩
  case taken =>
    refine ⟨_, next_onLive hs rfl, ?_⟩
    rw [handover_taken hrole]
    refine ⟨rfl, rfl, ?_⟩
    rw [roleTaken, handoverCounted, portsGiven_pr]
  case claimed =>
    obtain ⟨l, hstart⟩ := startYield_of_burning hrole hfree
    have hclaim : claim s = startYield s := claim_of_not_banked (by rw [hrole]; decide)
    exact ⟨_, next_onLive hs (hclaim.trans hstart), rfl, hrole⟩
  case uncompared =>
    exact ⟨_, next_onLive hs ((vblockRx_of_fitted hfit b).trans (compareStream_of_not_in_step hstep _)), rfl, rfl, rfl⟩
  case compared =>
    exact ⟨_, next_onLive hs (vblockRx_of_stream hfit hstream hnone), compareStream_of_one hstep hmine rfl⟩
  case announced =>
    have hnotice := noticeRx_pseq_of_banked hrole hnone n q c
    exact ⟨fun hno => next_onLive hs (hnotice.trans (sendCopies_of_no_copy (s := pseqNoted s n q c) rfl hno 64)),
      fun fr hcopy hagree => next_onLive hs
        (hnotice.trans (sendCopies_of_one (s := pseqNoted s n q c) rfl hcopy hagree 63))⟩
  case state =>
    obtain ⟨hmb, hdone⟩ := stateRx_lock hrole hstep k o
    exact ⟨_, next_onLive hs rfl, by rw [hmb], hdone, by rw [hmb]⟩
  case caughtUp =>
    obtain ⟨x, i, hpass⟩ := catchUp_of_banked hrole
    exact ⟨_, next_onLive hs hpass, rfl, rfl⟩
  case send =>
    obtain ⟨l, f, hsend, hload⟩ := pairMsgSend_of_fit hlo hhi hfit hup m
    exact ⟨_, next_onLive hs hsend, rfl, hload, rfl, rfl⟩
  case diag =>
    obtain ⟨i, y, g, n, k, l, hdiag⟩ := diagRx_of_fitted hfit d
    exact ⟨_, next_onLive hs hdiag, rfl, rfl, rfl⟩

end Sys2Proof.Machine
end

section
/-! Squashes (R24), revocations of a binding (R126, R133), and the settling of the channels leave the key vault alone but for its AES
engines (`Undisturbed`), whose jobs a squash ends. -/

namespace Sys2Proof.Machine

/-- From `k` to `k'` the vault has changed at most in what stands at and runs on its AES engines. -/
def Undisturbed (k k' : Kv) : Prop := { k' with aes := k.aes, aesArb := k.aesArb } = k

theorem Undisturbed.refl (k : Kv) : Undisturbed k k := rfl

variable {k : Kv} {s u : State}

theorem Undisturbed.eq {k k' : Kv} (h : Undisturbed k k') : { k' with aes := k.aes, aesArb := k.aesArb } = k := h
theorem Undisturbed.slots {k k' : Kv} (h : Undisturbed k k') : k'.slots = k.slots := (congrArg Kv.slots h.eq :)
theorem Undisturbed.cmd {k k' : Kv} (h : Undisturbed k k') : k'.cmd = k.cmd := (congrArg Kv.cmd h.eq :)
theorem Undisturbed.arb {k k' : Kv} (h : Undisturbed k k') : k'.arb = k.arb := (congrArg Kv.arb h.eq :)
theorem Undisturbed.intSts {k k' : Kv} (h : Undisturbed k k') : k'.intSts = k.intSts := (congrArg Kv.intSts h.eq :)

theorem Undisturbed.foldl {β : Type} {l : List β} {g : State → β → State} (h : Undisturbed k s.kv)
    (hg : ∀ t x, Undisturbed k t.kv → Undisturbed k (g t x).kv) : Undisturbed k (l.foldl g s).kv :=
  List.foldlRecOn l g (motive := fun t => Undisturbed k t.kv) h fun t ht x _ => hg t x ht

theorem Undisturbed.ite {c : Prop} [Decidable c] {a b : State} (ha : Undisturbed k a.kv) (hb : Undisturbed k b.kv) :
    Undisturbed k (if c then a else b).kv := by
  split
  · exact ha
  · exact hb

/-! Changes of one part other than the vault. -/

theorem veInt_undisturbed (h : Undisturbed k s.kv) (i : Nat) : Undisturbed k (veInt s i).kv := h
theorem setBank_undisturbed (h : Undisturbed k s.kv) (b : Nat) (bk : BankId) (f : BankRt → BankRt) :
    Undisturbed k (setBank s b bk f).kv := h
theorem ecInt_undisturbed (h : Undisturbed k s.kv) (i : Nat) : Undisturbed k (ecInt s i).kv := h
theorem modCh_undisturbed (h : Undisturbed k s.kv) (c : Ch) (f : Chan → Chan) : Undisturbed k (modCh s c f).kv := h
theorem setBset_undisturbed (h : Undisturbed k s.kv) (c : Ch) (i : Fin 15) (f : BsetRt → BsetRt) : Undisturbed k (setBset s c i f).kv := h
theorem repin_undisturbed (h : Undisturbed k s.kv) (c : Ch) : Undisturbed k (repin s c).kv := h
theorem nodeDrop_undisturbed (h : Undisturbed k s.kv) (p : NodeEnt → Bool) : Undisturbed k (nodeDrop s p).kv := h
theorem dropJournal_undisturbed (h : Undisturbed k s.kv) (c : Ch) : Undisturbed k (dropJournal s c).kv := h

/-! Logs and billets. -/

theorem veRecord_undisturbed (h : Undisturbed k s.kv) (c kind bind info obj win : Nat) (essential : Bool) :
    Undisturbed k (veRecord s c kind bind info obj win essential).kv :=
  Undisturbed.ite (Undisturbed.ite h h) h

theorem ecRecord_undisturbed (h : Undisturbed k s.kv) (c : Ch) (kind arg old new : Nat) (essential : Bool) :
    Undisturbed k (ecRecord s c kind arg old new essential).kv :=
  Undisturbed.ite (Undisturbed.ite h h) (Undisturbed.ite h h)

theorem sqRecord_undisturbed (h : Undisturbed k s.kv) (kind step line mask info : Nat) :
    Undisturbed k (sqRecord s kind step line mask info).kv :=
  Undisturbed.ite h h

theorem draw_kv {c : BilletClass} {o : Owner} {parent r : Option Nat} {prov : Bool} {w : Work} (h : draw c o parent prov w s = (r, u)) :
    u.kv = s.kv := by
  have hu : u = _ := (congrArg Prod.snd h).symm.trans (draw_frame ..)
  rw [hu]

theorem draw_undisturbed {c : BilletClass} {o : Owner} {parent r : Option Nat} {prov : Bool} {w : Work} (h : Undisturbed k s.kv)
    (hdraw : draw c o parent prov w s = (r, u)) : Undisturbed k u.kv := by
  rwa [draw_kv hdraw]

@[simp] theorem setUnitSt_kv (s : State) (id : Nat) (x : BilletSt) : (setUnitSt s id x).kv = s.kv := by
  rw [setUnitSt_frame]

theorem setUnitSt_undisturbed (h : Undisturbed k s.kv) (id : Nat) (x : BilletSt) : Undisturbed k (setUnitSt s id x).kv := by
  rwa [setUnitSt_kv]

/-! Flash-side ports. -/

theorem cutPort_undisturbed (h : Undisturbed k s.kv) (p : Ch) (byHost : Bool) : Undisturbed k (cutPort s p byHost).kv := by
  rwa [cutPort_frame]

theorem portEnq_undisturbed (h : Undisturbed k s.kv) (p : Ch) (id : Nat) (demand : Bool) :
    Undisturbed k (portEnq s p id demand).kv := by
  have waiting := setUnitSt_undisturbed h id .waiting
  unfold portEnq
  split
  · exact h
  · exact Undisturbed.ite (cutPort_undisturbed (s := modPort _ p _) waiting p false) waiting

/-! Frames. -/

theorem freeFrame_undisturbed (h : Undisturbed k s.kv) (f : Nat) : Undisturbed k (freeFrame s f).kv := by
  unfold freeFrame
  split <;> exact h

theorem freeFrames_undisturbed (h : Undisturbed k s.kv) (p : Frame → Bool) : Undisturbed k (freeFrames s p).kv :=
  h.foldl fun t x ht => freeFrame_undisturbed (ht.foldl fun v id hv => by split <;> exact hv) x.1

/-! The hash bank. -/

theorem hashPick_kv {j : HashJob} {i : QItem} (h : hashPick s = some (j, i, u)) : u.kv = s.kv := by
  unfold hashPick at h
  split at h
  case h_1 => cases h; rfl
  case h_2 =>
    dsimp only at h
    split at h
    · cases h
    · split at h
      · cases h
      · cases h
        obtain ⟨_, _, _, hring⟩ := setRing_frame (ageRings s) _ _
        rw [hring]
        rfl

@[simp] theorem hashGrant_kv (n : Nat) (s : State) : (hashGrant n s).kv = s.kv := by
  induction n generalizing s with
  | zero => rfl
  | succ n ih =>
    unfold hashGrant
    split
    · rfl
    · split
      · rfl
      · next e _ _ j i u hpick =>
        obtain ⟨_, _, _, hstart⟩ := hashStart_frame u (engFor u j e) j
        rw [ih, hstart, ← hashPick_kv hpick]

@[simp] theorem hashDrop_kv (s : State) (id : Nat) : (hashDrop s id).kv = s.kv := hashGrant_kv ..

@[simp] theorem treeRoll_kv (s : State) : (treeRoll s).kv = s.kv := by
  unfold treeRoll
  refine foldl_keeps (p := State.kv) (fun s e => ?_) allEng s
  dsimp only
  split
  · split <;> rfl
  · rfl

@[simp] theorem hashPut_kv (s : State) (tier id cost : Nat) (o : Owner) : (hashPut s tier id cost o).kv = s.kv := by
  obtain ⟨_, _, _, hring⟩ := setRing_frame s tier (arbPush (tierRing s tier) { id := id, q := ownerQ o, cost := cost, enq := s.clk.now })
  unfold hashPut
  split
  · rfl
  · rw [hring]

@[simp] theorem hashJobs_kv (s : State) (tier id : Nat) (costs : List Nat) (o : Owner) : (hashJobs s tier id costs o).kv = s.kv := by
  rw [hashJobs, hashGrant_kv, foldl_keeps (p := State.kv) (fun s c => hashPut_kv s tier id c o), setUnitSt_kv, treeRoll_kv]

@[simp] theorem hashEnq_kv (s : State) (tier id cost : Nat) (o : Owner) : (hashEnq s tier id cost o).kv = s.kv := hashJobs_kv ..

/-! The AES engines. -/

theorem aesGrant_undisturbed (h : Undisturbed k s.kv) (n : Nat) : Undisturbed k (aesGrant n s).kv := by
  induction n generalizing s with
  | zero => exact h
  | succ n ih =>
    unfold aesGrant
    split
    · exact h
    · dsimp only
      split
      · exact h
      · refine ih ?_
        rw [aesStart, setUnitSt_frame]
        exact h

theorem aesDrop_undisturbed (h : Undisturbed k s.kv) (id : Nat) : Undisturbed k (aesDrop s id).kv := by
  refine aesGrant_undisturbed ?_ 2
  exact h

theorem aesEnq_undisturbed (h : Undisturbed k s.kv) (id cost : Nat) (o : Owner) : Undisturbed k (aesEnq s id cost o).kv := by
  refine aesGrant_undisturbed ?_ 2
  exact setUnitSt_undisturbed h id .waiting

/-! Squashes (R24). -/

theorem dropUnit_undisturbed (h : Undisturbed k s.kv) (id : Nat) : Undisturbed k (dropUnit s id).kv := by
  refine aesDrop_undisturbed ?_ id
  rw [hashDrop_kv]
  show Undisturbed k (State.kv (match unitOf s id with | some _ => _ | none => s))
  split
  · split
    · exact freeFrame_undisturbed h _
    · exact freeFrame_undisturbed h _
    · exact Undisturbed.ite h h
    · exact Undisturbed.ite h h
    · exact h
    · exact h
  · exact h

theorem squash_undisturbed (h : Undisturbed k s.kv) (ids : List Nat) : Undisturbed k (squash s ids).kv :=
  h.foldl fun _ id ht => dropUnit_undisturbed ht id

theorem closeSlot_undisturbed (h : Undisturbed k s.kv) (c : Ch) (x : ProvSlot) (kind resp reason : Nat) :
    Undisturbed k (closeSlot s c x kind resp reason).kv := by
  have retired : Undisturbed k (State.kv (match unitOf s x.billet with
      | some b => if b.work = .slot x.id then retire s x.billet else s | none => s)) := by
    split
    · exact Undisturbed.ite h h
    · exact h
  exact Undisturbed.ite retired retired

theorem abandonSlot_undisturbed (h : Undisturbed k s.kv) (c : Ch) (x : ProvSlot) : Undisturbed k (abandonSlot s c x).kv :=
  closeSlot_undisturbed h c x 0x09 3 0

theorem squashFills_undisturbed (h : Undisturbed k s.kv) (c : Ch) (p : EmberId → Bool) : Undisturbed k (squashFills s c p).kv :=
  squash_undisturbed (h.foldl fun _ x ht => abandonSlot_undisturbed ht c x) _

theorem squashChannel_undisturbed (h : Undisturbed k s.kv) (c : Ch) : Undisturbed k (squashChannel s c).kv :=
  squash_undisturbed (h.foldl fun _ x ht => abandonSlot_undisturbed ht c x) _

/-! What a channel's requesters set going (Table 7.3). -/

theorem issueFill_undisturbed (h : Undisturbed k s.kv) (id : EmberId) (why : FillWhy) (maxStep : Nat) :
    Undisturbed k (issueFill s id why maxStep).2.kv := by
  unfold issueFill
  split
  · exact h
  split
  · exact h
  split
  · exact h
  dsimp only
  split
  · exact ecRecord_undisturbed (s := ecInt s 4) h ..
  split
  · exact h
  split
  next hdraw => exact draw_undisturbed h hdraw
  next hdraw =>
    have framed := fun f => freeFrame_undisturbed (draw_undisturbed h hdraw) f
    split
    · exact framed _
    · refine portEnq_undisturbed ?_ ..
      exact framed _

theorem unitRead_undisturbed (h : Undisturbed k s.kv) (up : Nat) (e : EmberId) : Undisturbed k (unitRead s up e).kv := by
  have running := setUnitSt_undisturbed h up .running
  unfold unitRead
  split
  · exact h
  · dsimp only
    split
    next hdraw => exact portEnq_undisturbed (draw_undisturbed running hdraw) ..
    next hdraw =>
      have drawn := draw_undisturbed running hdraw
      exact drawn

theorem startAnchor_undisturbed (h : Undisturbed k s.kv) (b : Binding) (bk : BankId) (re : Bool) :
    Undisturbed k (startAnchor s b bk re).kv := by
  unfold startAnchor
  split
  · exact h
  · split
    next hdraw => exact draw_undisturbed h hdraw
    next hdraw =>
      have drawn := draw_undisturbed h hdraw
      refine unitRead_undisturbed ?_ ..
      exact drawn

theorem pumpAnchor_undisturbed (h : Undisturbed k s.kv) (c : Ch) : Undisturbed k (pumpAnchor s c).kv :=
  Undisturbed.ite (h.foldl fun _ b ht => ht.foldl fun _ _ hv => startAnchor_undisturbed hv b _ _) h

theorem startCheck_undisturbed (h : Undisturbed k s.kv) (f : Option Nat) (id : EmberId) (data : List Byte) :
    Undisturbed k (startCheck s f id data).kv := by
  unfold startCheck
  split
  next hdraw => exact draw_undisturbed h hdraw
  next hdraw =>
    have drawn := draw_undisturbed h hdraw
    rw [hashEnq_kv]
    split <;> exact drawn

theorem pumpChecks_undisturbed (h : Undisturbed k s.kv) (c : Ch) : Undisturbed k (pumpChecks s c).kv :=
  h.foldl fun _ e ht => startCheck_undisturbed ht (some e.1) e.2.id []

theorem pumpStrictRgn_undisturbed (h : Undisturbed k s.kv) (c : Ch) (i : Fin 64) : Undisturbed k (pumpStrictRgn s c i).kv := by
  refine Undisturbed.ite h (Undisturbed.ite (h.foldl fun t p ht => Undisturbed.ite ht ?_) h)
  split
  · exact ht
  · next id _ =>
    have issued := issueFill_undisturbed ht id .strict 5
    split
    next hfill => rw [hfill] at issued; exact issued
    next hfill => rw [hfill] at issued; exact issued

theorem preStep_undisturbed (h : Undisturbed k s.kv) (c : Ch) (v : Nat) : Undisturbed k (preStep s c v).kv := by
  unfold preStep
  dsimp only
  split
  · exact h
  · next id _ =>
    have issued := issueFill_undisturbed h id .pre 3
    refine Undisturbed.ite h ?_
    split
    all_goals next hfill => rw [hfill] at issued; exact issued

theorem preWalk_undisturbed (c : Ch) (n : Nat) (h : Undisturbed k s.kv) : Undisturbed k (preWalk c n s).kv := by
  induction n generalizing s with
  | zero => exact h
  | succ n ih =>
    unfold preWalk
    refine Undisturbed.ite h (Undisturbed.ite h ?_)
    split
    · exact h
    · exact Undisturbed.ite (preStep_undisturbed h c _) (ih (preStep_undisturbed h c _))

theorem pumpFollow_undisturbed (h : Undisturbed k s.kv) (c : Ch) : Undisturbed k (pumpFollow s c).kv := by
  refine Undisturbed.ite (h.foldl fun t v ht => ?_) h
  split
  · exact issueFill_undisturbed ht _ .follow 5
  · exact ht

theorem pumpLeaf_undisturbed (h : Undisturbed k s.kv) (c : Ch) : Undisturbed k (pumpLeaf s c).kv := by
  refine Undisturbed.ite (h.foldl fun t i ht => ?_) h
  dsimp only
  split
  · exact ht
  · refine Undisturbed.ite (ht.foldl fun v j hv => ?_) ht
    split
    · exact hv
    · split
      next hdraw => exact draw_undisturbed hv hdraw
      next hdraw => exact unitRead_undisturbed (draw_undisturbed hv hdraw) ..

theorem pumpCh_undisturbed (h : Undisturbed k s.kv) (c : Ch) : Undisturbed k (pumpCh s c).kv := by
  have checked := pumpChecks_undisturbed (pumpAnchor_undisturbed h c) c
  have passed : Undisturbed k (pumpStrict (pumpChecks (pumpAnchor s c) c) c).kv :=
    checked.foldl fun _ i ht => pumpStrictRgn_undisturbed ht c i
  refine Undisturbed.ite (pumpLeaf_undisturbed (pumpFollow_undisturbed (Undisturbed.ite (preWalk_undisturbed c _ ?closed) ?closed)
    c) c) h
  exact passed.foldl fun _ i ht => Undisturbed.ite ht ht

/-! Changes of a channel's banks (R150-R155). -/

theorem strictPend_undisturbed (h : Undisturbed k s.kv) (c : Ch) (p : Fin 64 → Bool) : Undisturbed k (strictPend s c p).kv :=
  h.foldl fun _ _ ht => ht

/-- The embers of a bank that serves no more leave the channel's fills and the cache (R153-R155). -/
theorem bankLeft_undisturbed (h : Undisturbed k s.kv) (c : Ch) (p : EmberId → Bool) (q : Frame → Bool) :
    Undisturbed k (freeFrames (squashFills s c p) q).kv :=
  freeFrames_undisturbed (squashFills_undisturbed h c p) q

theorem applyFlip_undisturbed (h : Undisturbed k s.kv) (c : Ch) (i : Fin 15) : Undisturbed k (applyFlip s c i).kv := by
  unfold applyFlip
  refine Undisturbed.ite h (Undisturbed.ite (ecRecord_undisturbed ?failed ..) (ecRecord_undisturbed ?flipped ..))
  case failed => exact h
  case flipped =>
    refine strictPend_undisturbed ?_ c _
    exact (bankLeft_undisturbed h c _ _).foldl fun _ _ ht => ht

theorem applyGclr_undisturbed (h : Undisturbed k s.kv) (c : Ch) (i : Fin 15) : Undisturbed k (applyGclr s c i).kv := by
  unfold applyGclr
  refine Undisturbed.ite h (Undisturbed.ite h (ecRecord_undisturbed ?_ ..))
  refine strictPend_undisturbed ?_ c _
  exact bankLeft_undisturbed h c _ _

theorem selectGolden_undisturbed (h : Undisturbed k s.kv) (c : Ch) (i : Fin 15) : Undisturbed k (selectGolden s c i).kv := by
  have flipped := applyGclr_undisturbed (applyFlip_undisturbed h c i) c i
  unfold selectGolden
  split
  · exact Undisturbed.ite (strictPend_undisturbed flipped c _) (dropJournal_undisturbed (ecRecord_undisturbed (ecInt_undisturbed
      (repin_undisturbed (strictPend_undisturbed (setBset_undisturbed (bankLeft_undisturbed flipped c _ _) c i _) c _) c) 2) ..) c)
  · exact h

/-! The gate (R20, R280) and the settling of a channel. -/

theorem endTrace_undisturbed (h : Undisturbed k s.kv) (c : Ch) (how : Nat) (discard : Bool) :
    Undisturbed k (endTrace s c how discard).kv :=
  Undisturbed.ite (Undisturbed.ite h h) h

theorem assertLine_undisturbed (h : Undisturbed k s.kv) (n : Fin 32) (a : Nat) : Undisturbed k (assertLine s n a).kv := by
  have recorded := sqRecord_undisturbed h 0x06 0xFF n.val (2 ^ n.val) (a % 2048)
  unfold assertLine
  dsimp only
  split
  · exact recorded
  · next c _ =>
    refine Undisturbed.foldl ?_ fun _ i ht => applyGclr_undisturbed (applyFlip_undisturbed ht c i) c i
    refine endTrace_undisturbed ?_ c 3 _
    exact recorded

theorem releaseLine_undisturbed (h : Undisturbed k s.kv) (n : Fin 32) : Undisturbed k (releaseLine s n).kv := by
  have recorded := sqRecord_undisturbed h 0x07 0xFF n.val (2 ^ n.val) 0
  unfold releaseLine
  dsimp only
  split <;> exact recorded

theorem regate_undisturbed (h : Undisturbed k s.kv) : Undisturbed k (regate s).kv :=
  h.foldl fun _ n ht => Undisturbed.ite (Undisturbed.ite (releaseLine_undisturbed ht n) ht)
    (Undisturbed.ite (assertLine_undisturbed ht n _) ht)

theorem settle_undisturbed (h : Undisturbed k s.kv) (c : Ch) : Undisturbed k (settle s c).kv :=
  regate_undisturbed (pumpCh_undisturbed h c)

/-! The clinker responses (Table 4.9). -/

theorem setClkHold_undisturbed (h : Undisturbed k s.kv) (c : Ch) : Undisturbed k (setClkHold s c).kv :=
  regate_undisturbed (s := { s with ve := _ }) h

theorem strictFailAt_undisturbed (h : Undisturbed k s.kv) (c : Ch) (vem : Nat) : Undisturbed k (strictFailAt s c vem).kv := by
  unfold strictFailAt
  split
  · exact Undisturbed.ite h h
  · exact h

theorem holdNoWay_undisturbed (h : Undisturbed k s.kv) (id : EmberId) : Undisturbed k (holdNoWay s id).kv :=
  strictFailAt_undisturbed (strictPend_undisturbed (squashChannel_undisturbed (setClkHold_undisturbed h _) _) ..) ..

theorem holdReboot_undisturbed (h : Undisturbed k s.kv) (id : EmberId) (b : Binding) : Undisturbed k (holdReboot s id b).kv := by
  unfold holdReboot
  split
  · exact Undisturbed.ite (strictPend_undisturbed (freeFrames_undisturbed (selectGolden_undisturbed (squashChannel_undisturbed
      (setClkHold_undisturbed h _) _) ..) _) ..) (holdNoWay_undisturbed h id)
  · exact holdNoWay_undisturbed h id

theorem substitute_undisturbed (h : Undisturbed k s.kv) (id : EmberId) (b : Binding) : Undisturbed k (substitute s id b).kv := by
  unfold substitute
  split
  · refine Undisturbed.ite (strictPend_undisturbed ?_ ..) (holdNoWay_undisturbed h id)
    refine freeFrames_undisturbed ?_ _
    exact h
  · exact h

theorem listClinker_undisturbed (h : Undisturbed k s.kv) (id : EmberId) : Undisturbed k (listClinker s id).kv := by
  unfold listClinker
  dsimp only
  split
  · exact Undisturbed.ite (Undisturbed.ite h (Undisturbed.ite h h)) (Undisturbed.ite h (Undisturbed.ite h h))
  · exact Undisturbed.ite h (Undisturbed.ite h h)

theorem clinkerResponse_undisturbed (h : Undisturbed k s.kv) (id : EmberId) : Undisturbed k (clinkerResponse s id).kv := by
  unfold clinkerResponse
  split
  · exact h
  · refine settle_undisturbed ?_ _
    split
    · exact Undisturbed.ite (holdNoWay_undisturbed h id) (holdReboot_undisturbed h ..)
    · exact Undisturbed.ite (holdNoWay_undisturbed h id) (substitute_undisturbed h ..)
    · exact listClinker_undisturbed h id
    · exact h

/-! The revocation of a binding (R133). -/

theorem strictFailBind_undisturbed (h : Undisturbed k s.kv) (b : Binding) : Undisturbed k (strictFailBind s b).kv :=
  h.foldl fun _ _ ht => Undisturbed.ite ht ht

theorem revokeBinding_undisturbed (h : Undisturbed k s.kv) (b : Binding) : Undisturbed k (revokeBinding s b).kv :=
  settle_undisturbed (strictFailBind_undisturbed (Undisturbed.foldl (strictFailBind_undisturbed (freeFrames_undisturbed
    (nodeDrop_undisturbed (squash_undisturbed (Undisturbed.foldl (veInt_undisturbed (veRecord_undisturbed (Undisturbed.foldl h
      fun _ _ ht => Undisturbed.ite (setBank_undisturbed ht ..) ht) ..) 3) fun _ x ht => veInt_undisturbed (modCh_undisturbed
        (closeSlot_undisturbed ht b.ch x ..) ..) 0) _) _) _) b) fun _ x ht => clinkerResponse_undisturbed ht x.id) b) b.ch

theorem revokeAnchors_undisturbed (h : Undisturbed k s.kv) (p : Fin 128 → Bool) : Undisturbed k (revokeAnchors s p).kv :=
  h.foldl fun _ b ht => revokeBinding_undisturbed ht b

end Sys2Proof.Machine
end


section
/-! The operation unit of the vault (R305, R310): GO, the end of an operation, and the settling of O43. -/

namespace Sys2Proof.Machine

/-! Command sets, slots and interrupts. -/

@[simp] theorem modKvc_cmd_same (s : State) (c : Core) (f : KvCore → KvCore) : (modKvc s c f).kv.cmd[c] = f s.kv.cmd[c] :=
  Vector.getElem_set_self c.isLt

theorem modKvc_modKvc (s : State) (c : Core) (f g : KvCore → KvCore) : modKvc (modKvc s c f) c g = modKvc s c (fun k => g (f k)) := by
  have hcmd : (s.kv.cmd.set c (f s.kv.cmd[c])).set c (g (modKvc s c f).kv.cmd[c]) = s.kv.cmd.set c (g (f s.kv.cmd[c])) := by
    rw [modKvc_cmd_same, Vector.set_set]
  exact congrArg (fun l => { s with kv := { s.kv with cmd := l } }) hcmd

theorem aget_adel_self {β : Type} (l : List (Nat × β)) (i : Nat) : aget (adel l i) i = none :=
  aget_none i fun x hx => by simpa [adel] using (List.mem_filter.mp hx).2

/-- The result of an operation is posted in its core's command set, with DONE and the interrupt (R305). -/
theorem kvPost_kv (s : State) (c : Core) (code : Nat) (o0 o1 : Word) : (kvPost s c code o0 o1).kv = { s.kv with
    intSts := s.kv.intSts ||| 1#32
    cmd := s.kv.cmd.set c { s.kv.cmd[c] with code := BitVec.ofNat 4 code, done := true, out0 := o0, out1 := o1, run := none } } :=
  rfl

theorem kvPost_cmd (s : State) (c : Core) (code : Nat) (o0 o1 : Word) : (kvPost s c code o0 o1).kv.cmd[c] =
    { s.kv.cmd[c] with code := BitVec.ofNat 4 code, done := true, out0 := o0, out1 := o1, run := none } := by
  rw [kvPost_kv]
  exact Vector.getElem_set_self c.isLt

@[simp] theorem lmsDrop_kv (s : State) : (lmsDrop s).kv = s.kv := rfl
@[simp] theorem kvInt_slots (s : State) (i : Nat) : (kvInt s i).kv.slots = s.kv.slots := rfl

/-! GO (R305). -/

/-- The row of each operation of Table 10.5 writes its core's KV_CMD with its code and GO. -/
theorem exec_kvRow (op : Fin 15) (c : Core) (s : State) :
    exec (kvRow op c) s = .next (onLive s fun s => settleAll (kvCommand (BitVec.ofNat 5 (op.val + 1)) s c)) := by
  fin_cases op <;> rfl

theorem exec_kvRow_of_live {op : Fin 15} {c : Core} {s u : State} (hs : s.pd.inReset = false)
    (h : kvCommand (BitVec.ofNat 5 (op.val + 1)) s c = u) : exec (kvRow op c) s = .next (settleAll u) :=
  (exec_kvRow op c s).trans (next_onLive hs (congrArg settleAll h))

theorem kvGo_of_outstanding {s : State} {c : Core} (h : (s.kv.cmd[c]).run.isSome = true) :
    kvGo s c = modKvc s c (fun k => { k with rej := true }) := if_pos h

theorem kvGo_of_no_billet {s u : State} {c : Core} {o : Owner} (hrun : (s.kv.cmd[c]).run = none)
    (howner : kvOwner (s.kv.cmd[c]).owner = some o)
    (hdraw : draw (if (s.kv.cmd[c]).bg ∧ (s.kv.cmd[c]).op ≠ 14 then .bg else .ver) o none false (.vault c) s = (none, u)) :
    kvGo s c = kvPost u c 1 0 0 := by
  simp only [kvGo, hrun, howner, hdraw, Option.isSome_none, Bool.false_eq_true, if_false]

/-- Operation code 14 is that of ALIAS, the fourteenth of Table 10.5. -/
theorem kvCode_eq_alias (op : Fin 15) : BitVec.ofNat 5 (op.val + 1) ≠ 14 ↔ op ≠ 13 := by
  decide +revert

/-! The end of an operation (R305, R310). -/

section End

variable {s v : State} {c : Core} {r : KvRun}

theorem kvOpEnd_of_idle (h : (s.kv.cmd[c]).run = none) : kvOpEnd s c = s := by
  simp only [kvOpEnd, h]

theorem kvOpEnd_of_waits (hrun : (s.kv.cmd[c]).run = some r)
    (h : (r.waits = true ∧ r.uses.any (commitAhead s c) = true) ∨ kvWorked s r = none) : kvOpEnd s c = s := by
  simp only [kvOpEnd, hrun]
  rcases h with h | h
  · exact if_pos h
  · rw [h]
    exact ite_self s

/-- Where the operation need not wait, its end is that of a COMMIT or that of any other operation. -/
theorem kvOpEnd_of_worked (hrun : (s.kv.cmd[c]).run = some r) (hwaits : r.waits = false) (hworked : kvWorked s r = some v)
    (hcommit : r.commit = none) : kvOpEnd s c = kvServe 8 (if r.op = 14 ∧ r.code = 0 then
      { kvPost (retire (kvApply v r) r.billet) c r.code r.out0 r.out1 with mb := { (kvApply v r).mb with epoch := r.out1 } }
      else kvPost (retire (kvApply v r) r.billet) c r.code r.out0 r.out1) := by
  simp only [kvOpEnd, hrun, hwaits, hworked, hcommit, Bool.false_eq_true, false_and, if_false]
  rfl

theorem kvOpEnd_of_used {j : Fin 128} (hrun : (s.kv.cmd[c]).run = some r) (hcommit : r.commit = some j.val)
    (hused : usedBy s c j.val = true) : kvOpEnd s c = s := by
  simp only [kvOpEnd, hrun, hcommit, hused, if_true, dite_eq_ite, ite_self]
  split
  · rfl
  · split <;> rfl

/-- A COMMIT in effect in `v`: core `c`'s operation stands no more, the slot's pending half is current and its GEN one higher. -/
def committed (v : State) (c : Core) (j : Fin 128) : State :=
  modSlot (modKvc v c (fun k => { k with run := none })) j
    (fun x => { x with material := x.pend.getD x.material, pend := none, gen := (x.gen + 1) % 65536 })

/-- The slots below a slot whose GEN changed are invalid, and what uses them ends (R301). -/
def descendantsEnded (s : State) : State :=
  lmsDrop (if ((deadSlots s).map (·.val)).isEmpty then s else kvInt (abortOps s ((deadSlots s).map (·.val)).contains 6) 1)

theorem kvOpEnd_of_commit {j : Fin 128} (hrun : (s.kv.cmd[c]).run = some r) (hwaits : r.waits = false)
    (hworked : kvWorked s r = some v) (hcommit : r.commit = some j.val) (hused : usedBy s c j.val = false) :
    kvOpEnd s c = kvServe 8 (kvPost (retire (descendantsEnded (committed v c j)) r.billet) c 0
      (handleOf (descendantsEnded (committed v c j)) j) 0) := by
  simp only [kvOpEnd, hrun, hwaits, hworked, hcommit, hused, Bool.false_eq_true, false_and, if_false, j.isLt, dite_true]
  rfl

end End

/-- From `k` to `k'` the vault has changed at most in the cores' command sets and on its AES engines. -/
def CommandsOnly (k k' : Kv) : Prop := ∃ cmd, Undisturbed { k with cmd := cmd } k'

theorem modKvc_commandsOnly {k : Kv} {s : State} (h : CommandsOnly k s.kv) (c : Core) (f : KvCore → KvCore) :
    CommandsOnly k (modKvc s c f).kv := by
  obtain ⟨cmd, h⟩ := h
  refine ⟨s.kv.cmd.set c (f s.kv.cmd[c]), ?_⟩
  exact (congrArg (fun k : Kv => { k with cmd := s.kv.cmd.set c (f s.kv.cmd[c]) }) h.eq :)

theorem CommandsOnly.slots {k k' : Kv} (h : CommandsOnly k k') : k'.slots = k.slots := by
  obtain ⟨cmd, h⟩ := h
  exact h.slots

theorem CommandsOnly.arb {k k' : Kv} (h : CommandsOnly k k') : k'.arb = k.arb := by
  obtain ⟨cmd, h⟩ := h
  exact h.arb

/-- An abort of operations posts what each comes to, and ends its jobs (R301). -/
theorem abortOps_commandsOnly (s : State) (p : Nat → Bool) (late : Nat) : CommandsOnly s.kv (abortOps s p late).kv := by
  refine List.foldlRecOn allCores _ (motive := fun t : State => CommandsOnly s.kv t.kv) ⟨s.kv.cmd, .refl _⟩ fun t ht c _ => ?_
  split
  · split
    · refine modKvc_commandsOnly ?_ c _
      obtain ⟨cmd, hcmd⟩ := ht
      refine ⟨cmd, aesDrop_undisturbed ?_ _⟩
      rw [hashDrop_kv]
      exact .ite hcmd hcmd
    · exact ht
  · exact ht

@[simp] theorem abortOps_slots (s : State) (p : Nat → Bool) (late : Nat) : (abortOps s p late).kv.slots = s.kv.slots :=
  (abortOps_commandsOnly s p late).slots

@[simp] theorem descendantsEnded_slots (s : State) : (descendantsEnded s).kv.slots = s.kv.slots := by
  rw [descendantsEnded, lmsDrop_kv]
  split
  · rfl
  · rw [kvInt_slots, abortOps_slots]

theorem committed_slots (v : State) (c : Core) (j : Fin 128) : (committed v c j).kv.slots = v.kv.slots.set j { v.kv.slots[j] with
    material := (v.kv.slots[j]).pend.getD (v.kv.slots[j]).material, pend := none, gen := ((v.kv.slots[j]).gen + 1) % 65536 } :=
  rfl

/-! What the end of an operation writes. -/

section Apply

variable {s : State} {r : KvRun}

/-- The write of the destination range leaves the vault alone. -/
theorem kvApply_of_unfilled (h : r.fill = none) : (kvApply s r).kv = s.kv := by
  simp only [kvApply, h]
  split <;> rfl

theorem kvApply_slots_of_filled {i : Fin 128} {x : Slot} (h : r.fill = some (i.val, x)) (hgen : x.gen = (s.kv.slots[i]).gen) :
    (kvApply s r).kv.slots = s.kv.slots.set i x := by
  have hfilled : modSlot s i (fun y => if y.gen = x.gen then x else y) = modSlot s i (fun _ => x) := by
    simp only [modSlot, hgen, if_true]
  simp only [kvApply, h, i.isLt, dite_true]
  split
  · exact congrArg (fun t : State => t.kv.slots) hfilled
  · exact congrArg (fun t : State => t.kv.slots) hfilled

theorem kvApply_ram (s : State) (r : KvRun) :
    (kvApply s r).he.ram = if r.bytes = [] then s.he.ram else (ramWrite s none r.dst r.bytes).he.ram := by
  have filled (i : Nat) (x : Slot) : (if h : i < 128 then modSlot s ⟨i, h⟩ (fun y => if y.gen = x.gen then x else y) else s).he = s.he := by
    split <;> rfl
  unfold kvApply
  dsimp only
  cases r.fill with
  | none => split <;> rfl
  | some x =>
    split
    · exact congrArg He.ram (filled x.1 x.2)
    · exact congrArg (fun he : He => memWrite 0 he.ram r.dst r.bytes) (filled x.1 x.2)

end Apply

/-- Out of reset, the row is the end of the operation, settled. -/
theorem exec_kvOpEnd {s u : State} {c : Core} (hs : s.pd.inReset = false) (h : kvOpEnd s c = u) :
    exec (.kvOpEnd c) s = .next (settleAll u) :=
  next_onLive hs (congrArg settleAll h)

/-- Settles O43, clause by clause: a GO that is turned away, the ends that wait, and what an end writes, posts and commits. -/
theorem vaultTurnsOperationsAwayAndEndsThem : Obligations.VaultTurnsOperationsAwayAndEndsThem := by
  refine ⟨fun op c s hs hrun => ?rejected, fun op c o s u hs hrun howner hdraw => ?busy,
    fun c s hs hrun => exec_kvOpEnd hs (kvOpEnd_of_idle hrun),
    fun c r s hs hrun h => exec_kvOpEnd hs (kvOpEnd_of_waits hrun h),
    fun c r s v hs hrun hwaits hcommit hworked hop => ?ends, fun c r s v hs hrun hwaits hcommit hworked hop hcode => ?aliased,
    fun c code o0 o1 s => kvPost_kv s c code o0 o1, fun r i x s hfill hgen => kvApply_slots_of_filled hfill hgen,
    fun r s hfill => congrArg Kv.slots (kvApply_of_unfilled hfill), fun r s => kvApply_ram s r,
    fun c r j s v hs hrun hwaits hcommit hworked hused => ?commits,
    fun c r j s hs hrun hcommit hused => exec_kvOpEnd hs (kvOpEnd_of_used hrun hcommit hused)⟩
  case rejected =>
    refine exec_kvRow_of_live hs ((kvGo_of_outstanding ?_).trans (modKvc_modKvc ..))
    rw [modKvc_cmd_same]
    exact hrun
  case busy =>
    simp only [← kvCode_eq_alias] at hdraw
    have hgo : kvCommand (BitVec.ofNat 5 (op.val + 1)) s c = kvPost u c 1 0 0 := by
      refine kvGo_of_no_billet (o := o) ?_ ?_ ?_
      · rw [modKvc_cmd_same]
        exact hrun
      · rw [modKvc_cmd_same]
        exact howner
      · rw [modKvc_cmd_same]
        exact hdraw
    have hkv : u.kv = (modKvc s c (fun k => { k with op := BitVec.ofNat 5 (op.val + 1) })).kv := draw_kv hdraw
    have hhe : u.he = s.he := (draw_he hdraw :)
    refine ⟨_, exec_kvRow_of_live hs hgo, ?_⟩
    rw [kvPost_cmd, kvPost_kv, hkv]
    exact ⟨rfl, rfl, rfl, rfl, congrArg He.ram hhe, rfl⟩
  case ends =>
    rw [exec_kvOpEnd hs (kvOpEnd_of_worked hrun hwaits hworked hcommit), if_neg (fun h => hop h.1)]
  case aliased =>
    refine ⟨_, exec_kvOpEnd hs (kvOpEnd_of_worked hrun hwaits hworked hcommit), ?_⟩
    rw [if_pos ⟨hop, hcode⟩, hcode]
    exact ⟨rfl, rfl⟩
  case commits =>
    refine ⟨_, exec_kvOpEnd hs (kvOpEnd_of_commit hrun hwaits hworked hcommit hused), ?_⟩
    have hslots := (descendantsEnded_slots (committed v c j)).trans (committed_slots v c j)
    rw [kvPost_cmd]
    exact ⟨rfl, rfl, rfl, rfl, aget_adel_self .., hslots⟩

end Sys2Proof.Machine
end

section
/-! What the operation unit of the vault makes of an operation it takes (R305, R306): a GO that meets a free unit (`KvStarts`) leads to
what `kvOpFn` says of the operation (`KvStarts.reach`), and where that touches no slot and no RAM, to `KvTakes` (`KvStarts.takes`). -/

namespace Sys2Proof.Machine

/-! The unit's queues (R215, R220). -/

theorem arbPick_of_empty {a : Arb} (hitems : a.items = []) (haged : a.aged = []) (now age r Q : Nat) (w : Nat → Nat) :
    arbPick now age r Q w a = none := by
  have hage : (arbAge now age a).aged = [] := by
    simp only [arbAge, hitems, haged, List.filter_nil, List.map_nil, List.append_nil]
  have hempty : (arbAge now age a).items = [] := hitems
  simp only [arbPick, hage, hempty, List.isEmpty_nil, if_true]

theorem kvServe_of_empty {s : State} (hitems : s.kv.arb.items = []) (haged : s.kv.arb.aged = []) (n : Nat) : kvServe n s = s := by
  cases n with
  | zero => rfl
  | succ n => simp only [kvServe, arbPick_of_empty hitems haged, ite_self]

/-- A core alone in what it satisfies is the one found. -/
theorem find?_allCores {p : Core → Bool} {c : Core} (h : p c = true) (hother : ∀ d, d ≠ c → p d = false) :
    allCores.find? p = some c := by
  have hsome : (allCores.find? p).isSome = true := List.find?_isSome.mpr ⟨c, List.mem_finRange c, h⟩
  obtain ⟨d, hd⟩ := Option.isSome_iff_exists.mp hsome
  have hdc : d = c := by
    by_contra hne
    exact Bool.false_ne_true ((hother d hne).symm.trans (List.find?_some hd))
  rw [hd, hdc]

/-- The unit takes the operation picked where no other core's is untaken. -/
theorem kvServe_of_pick {s : State} {i : QItem} {ag : Bool} {a : Arb} {c : Core} {q : KvRun} (n : Nat) (hroom : kvInFlight s < 8)
    (hmark : zeroMark s = false) (hpick : arbPick s.clk.now (hashAge s) 97 1 (kvWeight s) s.kv.arb = some (i, ag, a))
    (hrun : (s.kv.cmd[c]).run = some q) (hid : q.billet = i.id) (htaken : q.taken = false)
    (hothers : ∀ d : Core, d ≠ c → ∀ r : KvRun, (s.kv.cmd[d]).run = some r → r.taken = true) :
    kvServe (n + 1) s = kvServe n (kvTake { s with kv := { s.kv with arb := a } } c) := by
  have hidle : (decide (8 ≤ kvInFlight s) || zeroMark s) = false := by
    simp only [hmark, Bool.or_false, decide_eq_false_iff_not, Nat.not_le, hroom]
  rw [kvServe, if_neg (Bool.eq_false_iff.mp hidle), hpick]
  dsimp only
  rw [find?_allCores (c := c) ?found fun d hd => ?other]
  case found => simp only [hrun, hid, htaken, decide_true, Bool.not_false, Bool.and_self]
  case other =>
    split
    next r hr => rw [hothers d hd r hr, Bool.not_true, Bool.and_false]
    next => rfl

/-! The taking of an operation (R305). -/

/-- An operation that stands in its owner's queue, untaken. -/
def kvAsked (op id : Nat) (owner : BitVec 8) : KvRun :=
  { op := op, owner := owner, billet := id, uses := [], dst := 0, dstLen := 0, code := 0, out0 := 0, out1 := 0
    commit := none, waits := false, taken := false }

theorem kvGo_of_billet {s u : State} {c : Core} {o : Owner} {id : Nat} (hrun : (s.kv.cmd[c]).run = none)
    (howner : kvOwner (s.kv.cmd[c]).owner = some o)
    (hdraw : draw (if (s.kv.cmd[c]).bg ∧ (s.kv.cmd[c]).op ≠ 14 then .bg else .ver) o none false (.vault c) s = (some id, u)) :
    kvGo s c = kvServe 8 (kvQueue
      (modKvc u c (fun k => { k with run := some (kvAsked (s.kv.cmd[c]).op.toNat id (s.kv.cmd[c]).owner) }))
      { id := id, q := ownerQ o, cost := 1, enq := u.clk.now }) := by
  simp only [kvGo, hrun, howner, hdraw, Option.isSome_none, Bool.false_eq_true, if_false, kvAsked]

/-- The slots an operation names by its handles. -/
def kvNamed (k : KvCore) (op : Nat) : List Nat := kvArg k 0 % 128 :: (if op = 4 then [kvArg k 1 % 128] else [])

/-- An operation as it stands in core `c`'s command set, taken. -/
def kvStood (r : KvRes) (c : Core) (q : KvRun) : State :=
  modKvc r.s c (fun x => { x with
    run := some (kvRan q.op q.billet q.owner r.uses r.code r.out0 r.out1 r.fill r.dst r.dstLen r.bytes r.commit) })

/-- Its engines' work handed on as well. -/
def kvStand (r : KvRes) (c : Core) (q : KvRun) (o : Owner) : State :=
  let t := if r.hash = 0 then kvStood r c q else hashEnq (kvStood r c q) 2 q.billet r.hash o
  if r.aes = 0 then t else aesEnq t q.billet r.aes o

theorem kvTake_of_clear {s : State} {c : Core} {q : KvRun} (hrun : (s.kv.cmd[c]).run = some q)
    (hclear : (kvNamed s.kv.cmd[c] q.op).any (commitAhead s c) = false) :
    ∃ o, kvTake s c = kvStand (kvOpFn q.op q.billet s s.kv.cmd[c]) c q o := by
  rw [kvNamed] at hclear
  rw [kvTake, hrun]
  dsimp only
  rw [hclear]
  exact ⟨_, rfl⟩

theorem kvStand_undisturbed (r : KvRes) (c : Core) (q : KvRun) (o : Owner) : Undisturbed (kvStood r c q).kv (kvStand r c q o).kv := by
  have hashed (t : State) : Undisturbed t.kv (if r.hash = 0 then t else hashEnq t 2 q.billet r.hash o).kv :=
    .ite (.refl _) (by rw [hashEnq_kv]; exact .refl _)
  exact .ite (hashed _) (aesEnq_undisturbed (hashed _) ..)

theorem kvStand_fixed (r : KvRes) (c : Core) (q : KvRun) (o : Owner) : Fixed r.s (kvStand r c q o) := by
  have stood : Fixed r.s (kvStood r c q) := Fixed.mk' (Fixed.refl r.s)
  have hashed := Fixed.ite (c := r.hash = 0) stood (hashEnq_fixed (tier := 2) (id := q.billet) (cost := r.hash) (o := o) stood)
  exact Fixed.ite hashed (aesEnq_fixed hashed ..)

theorem kvStand_run (r : KvRes) (c : Core) (q : KvRun) (o : Owner) : ((kvStand r c q o).kv.cmd[c]).run =
    some (kvRan q.op q.billet q.owner r.uses r.code r.out0 r.out1 r.fill r.dst r.dstLen r.bytes r.commit) := by
  rw [(kvStand_undisturbed r c q o).cmd, kvStood, modKvc_cmd_same]

/-! A GO that meets a free unit. -/

/-- In `v` core `c`'s operation stands in its command set untaken, and its queue was the only one with an entry. -/
theorem KvStarts.command {n : Fin 15} {c : Core} {s v : State} {id : Nat} (h : KvStarts (BitVec.ofNat 5 (n.val + 1)) c s id v) :
    v.kv.cmd[c] = { s.kv.cmd[c] with op := BitVec.ofNat 5 (n.val + 1), run := some (kvAsked (n.val + 1) id (s.kv.cmd[c]).owner) } ∧
    v.kv.arb.items = [] ∧ v.kv.arb.aged = [] ∧
    kvCommand (BitVec.ofNat 5 (n.val + 1)) s c = kvServe 7 (kvTake v c) := by
  obtain ⟨-, hrun, o, u, i, ag, a, howner, hdraw, ⟨hroom, hmark, hpick, hid, hitems, haged, hv⟩, hothers, -⟩ := h
  have hop : (BitVec.ofNat 5 (n.val + 1)).toNat = n.val + 1 := by
    rw [BitVec.toNat_ofNat]
    omega
  rw [hop] at hroom hmark hpick hv
  have hcmd : v.kv.cmd = (s.kv.cmd.set c { s.kv.cmd[c] with op := BitVec.ofNat 5 (n.val + 1) }).set c
      { s.kv.cmd[c] with op := BitVec.ofNat 5 (n.val + 1), run := some (kvAsked (n.val + 1) id (s.kv.cmd[c]).owner) } := by
    have hkv : u.kv = (modKvc s c (fun k => { k with op := BitVec.ofNat 5 (n.val + 1) })).kv := draw_kv hdraw
    have hself : u.kv.cmd[c] = { s.kv.cmd[c] with op := BitVec.ofNat 5 (n.val + 1) } := by rw [hkv, modKvc_cmd_same]
    rw [hv]
    show u.kv.cmd.set c { u.kv.cmd[c] with run := some (kvAsked (n.val + 1) id (s.kv.cmd[c]).owner) } = _
    rw [hself, hkv]
    rfl
  have hself : v.kv.cmd[c] = { s.kv.cmd[c] with
      op := BitVec.ofNat 5 (n.val + 1), run := some (kvAsked (n.val + 1) id (s.kv.cmd[c]).owner) } := by
    rw [hcmd]
    exact Vector.getElem_set_self c.isLt
  have hother (d : Core) (hd : d ≠ c) : v.kv.cmd[d] = s.kv.cmd[d] := by
    have hval : c.val ≠ d.val := fun e => hd (Fin.ext e.symm)
    rw [hcmd]
    exact (Vector.getElem_set_ne c.isLt d.isLt hval).trans (Vector.getElem_set_ne c.isLt d.isLt hval)
  refine ⟨hself, ?_, ?_, ?_⟩
  · rw [hv]
    exact hitems
  · rw [hv]
    exact haged
  have hgo := kvGo_of_billet (s := modKvc s c (fun k => { k with op := BitVec.ofNat 5 (n.val + 1) })) (c := c) (o := o) (id := id) (u := u)
    (by rw [modKvc_cmd_same]; exact hrun) (by rw [modKvc_cmd_same]; exact howner) (by rw [modKvc_cmd_same]; exact hdraw)
  rw [modKvc_cmd_same] at hgo
  dsimp only at hgo
  rw [hop] at hgo
  have hserve := kvServe_of_pick (c := c) 7 hroom hmark hpick (q := kvAsked (n.val + 1) id (s.kv.cmd[c]).owner) ?_ hid.symm rfl ?_
  · rw [hv]
    exact hgo.trans hserve
  · rw [hv] at hself
    exact (congrArg KvCore.run hself :)
  · intro d hd r hr
    rw [hv] at hother
    exact hothers d hd r ((congrArg KvCore.run (hother d hd) :).symm.trans hr)

/-- The owner of the operation is the one its command set names. -/
theorem KvStarts.owner {n : Fin 15} {c : Core} {s v : State} {id : Nat} (h : KvStarts (BitVec.ofNat 5 (n.val + 1)) c s id v) :
    (v.kv.cmd[c]).owner = (s.kv.cmd[c]).owner :=
  (congrArg KvCore.owner h.command.1 :)

/-- The row answers what the operation comes to, standing in flight (R305, R306). -/
theorem KvStarts.reach {n : Fin 15} {c : Core} {s v : State} {id : Nat} {r : KvRes} (h : KvStarts (BitVec.ofNat 5 (n.val + 1)) c s id v)
    (hr : kvOpFn (n.val + 1) id v v.kv.cmd[c] = r) (harb : r.s.kv.arb = v.kv.arb) :
    ∃ t, exec (kvRow n c) s = .next (settleAll t) ∧
      (t.kv.cmd[c]).run = some (kvRan (n.val + 1) id (v.kv.cmd[c]).owner r.uses r.code r.out0 r.out1 r.fill r.dst r.dstLen r.bytes r.commit) ∧
      t.kv.slots = r.s.kv.slots ∧ t.kv.intSts = r.s.kv.intSts ∧ t.he = r.s.he ∧ t.mb = r.s.mb := by
  rw [h.owner]
  obtain ⟨hself, hitems, haged, hcommand⟩ := h.command
  obtain ⟨hs, -, -, -, -, -, -, -, -, -, -, hahead, hahead4⟩ := h
  have hclear : (kvNamed v.kv.cmd[c] (n.val + 1)).any (commitAhead v c) = false := by
    rw [kvNamed, List.any_cons, hahead, Bool.false_or]
    split
    next h4 =>
      rw [List.any_cons, hahead4 (by rw [h4]; rfl), List.any_nil]
      rfl
    next => rfl
  obtain ⟨o, htake⟩ := kvTake_of_clear (q := kvAsked (n.val + 1) id (s.kv.cmd[c]).owner) (congrArg KvCore.run hself :) hclear
  have htake : kvTake v c = kvStand r c (kvAsked (n.val + 1) id (s.kv.cmd[c]).owner) o := hr ▸ htake
  have hstand := kvStand_undisturbed r c (kvAsked (n.val + 1) id (s.kv.cmd[c]).owner) o
  have hfixed := kvStand_fixed r c (kvAsked (n.val + 1) id (s.kv.cmd[c]).owner) o
  have harb' := hstand.arb.trans harb
  refine ⟨_, exec_kvRow_of_live (op := n) hs (hcommand.trans ?_), kvStand_run r c (kvAsked (n.val + 1) id (s.kv.cmd[c]).owner) o,
    hstand.slots, hstand.intSts, hfixed.he, hfixed.mb⟩
  rw [htake]
  exact kvServe_of_empty (by rw [harb', hitems]) (by rw [harb', haged]) 7

theorem KvStarts.takes {n : Fin 15} {c : Core} {s v : State} {id : Nat} {r : KvRes} (h : KvStarts (BitVec.ofNat 5 (n.val + 1)) c s id v)
    (hr : kvOpFn (n.val + 1) id v v.kv.cmd[c] = r) (hkv : r.s.kv = v.kv) (hhe : r.s.he = v.he) :
    KvTakes (kvRow n c) s v c
      (kvRan (n.val + 1) id (v.kv.cmd[c]).owner r.uses r.code r.out0 r.out1 r.fill r.dst r.dstLen r.bytes r.commit) := by
  obtain ⟨t, hexec, hrun, hslots, -, he, -⟩ := h.reach hr (congrArg Kv.arb hkv)
  exact ⟨t, hexec, hrun, hslots.trans (congrArg Kv.slots hkv), congrArg He.ram (he.trans hhe)⟩

end Sys2Proof.Machine
end

section
/-! What each key operation of the vault comes to where nothing refuses it (R302, R303, R306, R307, R309, R310), and the settling of
O44. -/

namespace Sys2Proof.Machine

/-- Drawing entropy changes the count of free values at most (R317). -/
theorem entropyBytes_frame {s u : State} {n : Nat} {b : Option (List Byte)} (h : entropyBytes s n = (b, u)) :
    ∃ clk, u = { s with clk := clk } := by
  rw [entropyBytes] at h
  split at h <;> cases h <;> exact ⟨_, rfl⟩

section Ops

variable {s u : State} {k : KvCore} {p i : Fin 128}

/-- A child's type and usage as R303 wants them. -/
theorem childAllowed {typ usage : Nat} (htyp : typ = 1 ∨ typ = 2) (huse : usageOk s p typ usage = true) :
    ¬((typ ≠ 1 ∧ typ ≠ 2) ∨ (!usageOk s p typ usage) = true) := by
  rw [huse]
  rintro (⟨h1, h2⟩ | h)
  · exact htyp.elim h1 h2
  · cases h

theorem kvDerive_of_allowed {typ usage : Nat} {l ctx : List Byte} (hp : kvHandle s k (kvArg k 0) = .inr p)
    (harg : childArg (kvArg k 1) = some (i, typ, usage)) (hcheck : childCheck s p 0 i.val = 0) (htyp : typ = 1 ∨ typ = 2)
    (huse : usageOk s p typ usage = true) (hlabel : labelCtx s (kvArg k 2) (kvArg k 3 % 128) = .inr (l, ctx)) :
    kvDerive s k = { code := 0, out0 := handleOf s i, uses := [p.val, i.val], hash := deriveCost typ, s := s
                     fill := some (i.val, childOf s p i typ 2 usage k.owner.toNat false (expandB (s.kv.slots[p]).material
                       (deriveCtx l typ ((s.kv.slots[p]).depth + 1) usage k.owner.toNat ctx) (matLen typ))) } := by
  rw [kvDerive, hp, harg]
  dsimp only
  rw [if_neg (not_not.mpr hcheck), if_neg (childAllowed htyp huse), hlabel]

theorem kvGenerate_of_allowed {typ usage : Nat} {m : List Byte} (hp : kvHandle s k (kvArg k 0) = .inr p)
    (harg : childArg (kvArg k 1) = some (i, typ, usage)) (hcheck : childCheck s p 0 i.val = 0) (htyp : typ = 1 ∨ typ = 2)
    (huse : usageOk s p typ usage = true) (hdrawn : entropyBytes s (matLen typ) = (some m, u)) :
    kvGenerate s k = { code := 0, out0 := handleOf s i, uses := [p.val, i.val], hash := 0, s := u
                       fill := some (i.val, childOf s p i typ 3 usage k.owner.toNat false m) } := by
  rw [kvGenerate, hp, harg]
  dsimp only
  rw [if_neg (not_not.mpr hcheck), if_neg (childAllowed htyp huse), hdrawn]
  obtain ⟨clk, rfl⟩ := entropyBytes_frame hdrawn
  rfl

/-- The blob of Table 10.6 is well formed and its tag right under the WRAP key. -/
theorem kvUnwrap_of_allowed {b key : List Byte} (hp : kvHandle s k (kvArg k 0) = .inr p) (hi : i.val = kvArg k 1 % 128)
    (hlow : 10 < i.val) (hcheck : childCheck s p 4 i.val = 0) (hrange : kvRange (kvArg k 2) 96 = true)
    (hb : ramRead s (kvArg k 2) 96 = b) (hkey : (s.kv.slots[p]).material = key) (hmagic : be32 b 0 = 0x545A5742)
    (htyp : be8 b 4 = 1 ∨ be8 b 4 = 2) (hwide : be16 b 6 ≤ 255) (huse : usageOk s p (be8 b 4) (be16 b 6) = true)
    (htag : gcmTag key (slice b 8 12) (b.take 20) (slice b 20 48) = slice b 68 16) :
    kvUnwrap s k = { code := 0, out0 := handleOf s i, uses := [p.val, i.val], aes := 2, s := s
                     fill := some (i.val, childOf s p i (be8 b 4) 4 (be16 b 6) k.owner.toNat false
                       ((gcmCrypt key (slice b 8 12) (slice b 20 48)).take (matLen (be8 b 4)))) } := by
  obtain rfl : i = ⟨kvArg k 1 % 128, Nat.mod_lt _ (by decide)⟩ := Fin.ext hi
  dsimp only at hlow hcheck
  have hfit : ¬((be8 b 4 ≠ 1 ∧ be8 b 4 ≠ 2) ∨ 255 < be16 b 6 ∨ (!usageOk s p (be8 b 4) (be16 b 6)) = true) := by
    rintro (h | h | h)
    · exact childAllowed htyp huse (.inl h)
    · omega
    · exact childAllowed htyp huse (.inr h)
  rw [kvUnwrap, hp]
  dsimp only
  rw [if_neg (Nat.not_le.mpr hlow), if_neg (not_not.mpr hcheck), hrange, if_neg (by decide), hb, hkey,
    if_neg (not_not.mpr hmagic), if_neg (not_not.mpr htag), if_neg hfit]

theorem kvWrap_of_allowed {nonce : List Byte} (hp : kvHandle s k (kvArg k 0) = .inr p) (hi : kvHandle s k (kvArg k 1) = .inr i)
    (htyp : (s.kv.slots[p]).typ = 1) (hwrap : hasUse s p 4 = true) (hwrapped : hasUse s i 5 = true)
    (hrange : kvRange (kvArg k 2) 96 = true) (hdrawn : entropyBytes s 12 = (some nonce, u)) :
    kvWrap s k = { code := 0, uses := [p.val, i.val], dst := kvArg k 2, dstLen := 96, aes := 2, s := u
                   bytes := wrapBlob (s.kv.slots[p]).material nonce s.kv.slots[i] } := by
  rw [kvWrap, hp, hi]
  dsimp only
  rw [htyp, hwrap, hwrapped, if_neg (by decide), hrange, if_neg (by decide), hdrawn]
  obtain ⟨clk, rfl⟩ := entropyBytes_frame hdrawn
  rfl

theorem kvRevoke_of_lock (hi : kvHandle s k (kvArg k 0) = .inr i) (hlock : (s.kv.slots[i]).lock = true) :
    kvRevoke s k = { code := 13, s := s } := by
  rw [kvRevoke, hi]
  exact if_pos hlock

theorem kvRevoke_of_unlocked (hi : kvHandle s k (kvArg k 0) = .inr i) (hlock : (s.kv.slots[i]).lock = false) :
    kvRevoke s k = { code := 0, s := revokeSlot s i } := by
  rw [kvRevoke, hi]
  exact if_neg (Bool.eq_false_iff.mp hlock)

theorem kvReplace_of_allowed {m : List Byte} (hi : kvHandle s k (kvArg k 0) = .inr i) (hlock : (s.kv.slots[i]).lock = false)
    (htyp : (s.kv.slots[i]).typ ≠ 3) (hpend : (s.kv.slots[i]).pend = none) (htaken : slotTaken s i.val = false)
    (hfresh : kvArg k 1 % 2 = 1) (hdrawn : entropyBytes s (matLen (s.kv.slots[i]).typ) = (some m, u)) :
    kvReplace s k = { code := 0, out0 := wordBE (kcvOf m) 0, out1 := wordBE (kcvOf m) 4, uses := [i.val], hash := 4, s := u
                      fill := some (i.val, { s.kv.slots[i] with pend := some m }) } := by
  rw [kvReplace, hi]
  dsimp only
  rw [if_neg (Bool.eq_false_iff.mp hlock), if_neg htyp, hpend, htaken, if_neg (by decide), if_pos hfresh, hdrawn]
  obtain ⟨clk, rfl⟩ := entropyBytes_frame hdrawn
  rfl

theorem kvCommit_of_pending {m : List Byte} (hi : kvHandle s k (kvArg k 0) = .inr i) (hpend : (s.kv.slots[i]).pend = some m) :
    kvCommit s k = if wordBE (kcvOf m) 0 = k.arg[1] ∧ wordBE (kcvOf m) 4 = k.arg[2] then
        { code := 0, uses := [i.val], commit := some i.val, hash := 4, s := s }
      else { code := 10, uses := [i.val], hash := 4, fill := some (i.val, { s.kv.slots[i] with pend := none }), s := s } := by
  rw [kvCommit, hi]
  dsimp only
  rw [hpend]

theorem kvCancel_of_handle (hi : kvHandle s k (kvArg k 0) = .inr i) :
    kvCancel s k = { code := 0, uses := [i.val], s := modSlot s i (fun y => { y with pend := none }) } := by
  rw [kvCancel, hi]

theorem kvKcv_of_handle (hi : kvHandle s k (kvArg k 0) = .inr i) :
    kvKcv s k = { code := 0, out0 := wordBE (kcvOf (s.kv.slots[i]).material) 0, out1 := wordBE (kcvOf (s.kv.slots[i]).material) 4
                  uses := [i.val], hash := 4, s := s } := by
  rw [kvKcv, hi]

end Ops

/-! What REVOKE does at once (R301, R310). -/

theorem cascade_commandsOnly (s : State) (i : Nat) :
    CommandsOnly { s.kv with intSts := (cascade s i).kv.intSts } (cascade s i).kv := by
  obtain ⟨cmd, h⟩ := abortOps_commandsOnly s (fun j => j = i || ((deadSlots s).map (·.val)).contains j) 6
  refine ⟨cmd, ?_⟩
  exact (congrArg (fun k : Kv => { k with intSts := (cascade s i).kv.intSts }) h.eq :)

theorem revokeSlot_undisturbed (s : State) (i : Fin 128) :
    Undisturbed (cascade (emptySlot s i) i.val).kv (revokeSlot s i).kv := by
  have dropped : Undisturbed (cascade (emptySlot s i) i.val).kv (lmsDrop (cascade (emptySlot s i) i.val)).kv := by
    rw [lmsDrop_kv]
    exact .refl _
  unfold revokeSlot
  exact .ite (revokeAnchors_undisturbed dropped _) dropped

theorem revokeSlot_slots (s : State) (i : Fin 128) :
    (revokeSlot s i).kv.slots = s.kv.slots.set i { gen := ((s.kv.slots[i]).gen + 1) % 65536 } := by
  rw [(revokeSlot_undisturbed s i).slots, (cascade_commandsOnly _ _).slots]
  rfl

theorem revokeSlot_arb (s : State) (i : Fin 128) : (revokeSlot s i).kv.arb = s.kv.arb := by
  rw [(revokeSlot_undisturbed s i).arb, (cascade_commandsOnly _ _).arb]
  rfl

theorem revokeSlot_revoked (s : State) (i : Fin 128) : (revokeSlot s i).kv.intSts.getLsbD 1 = true := by
  rw [(revokeSlot_undisturbed s i).intSts]
  exact getLsbD_setBit_self _ (by decide)

/-- Settles O44: each operation of a GO that meets a free unit stands in flight with what it comes to (`KvStarts.takes`). -/
theorem vaultKeyOperationsFillReplaceAndRevoke : Obligations.VaultKeyOperationsFillReplaceAndRevoke := by
  intro c s id v
  dsimp only
  refine ⟨fun p i typ usage l ctx h hp harg hcheck htyp huse hlabel => ?derive,
    fun p i typ usage m w h hp harg hcheck htyp huse hdrawn => ?generate,
    fun p i h hp hi hlow hcheck hrange hmagic htyp hwide huse htag => ?unwrap,
    fun w i nonce x h hw hi htyp hwrap hwrapped hrange hdrawn => ?wrap, fun i h hi hlock => ?revoke, fun i h hi hlock => ?locked,
    fun i m x h hi hlock htyp hpend htaken hfresh hdrawn => ?replace, fun i m h hi hpend => ?commit, fun i h hi => ?cancel,
    fun i h hi => ?kcv⟩
  case derive =>
    rw [← KvStarts.owner (n := 0) h]
    exact KvStarts.takes (n := 0) h (kvDerive_of_allowed hp harg hcheck htyp huse hlabel) rfl rfl
  case generate =>
    rw [← KvStarts.owner (n := 1) h]
    obtain ⟨clk, rfl⟩ := entropyBytes_frame hdrawn
    exact KvStarts.takes (n := 1) h (kvGenerate_of_allowed hp harg hcheck htyp huse hdrawn) rfl rfl
  case unwrap =>
    rw [← KvStarts.owner (n := 2) h]
    exact KvStarts.takes (n := 2) h (kvUnwrap_of_allowed hp hi hlow hcheck hrange rfl rfl hmagic htyp hwide huse htag) rfl rfl
  case wrap =>
    rw [← KvStarts.owner (n := 3) h]
    obtain ⟨clk, rfl⟩ := entropyBytes_frame hdrawn
    exact KvStarts.takes (n := 3) h (kvWrap_of_allowed hw hi htyp hwrap hwrapped hrange hdrawn) rfl rfl
  case revoke =>
    rw [← KvStarts.owner (n := 4) h]
    obtain ⟨t, hexec, hrun, hslots, hint, -⟩ := KvStarts.reach (n := 4) h (kvRevoke_of_unlocked hi hlock) (revokeSlot_arb v i)
    refine ⟨t, hexec, hrun, hslots.trans (revokeSlot_slots v i), ?_⟩
    rw [hint]
    exact revokeSlot_revoked v i
  case locked =>
    rw [← KvStarts.owner (n := 4) h]
    exact KvStarts.takes (n := 4) h (kvRevoke_of_lock hi hlock) rfl rfl
  case replace =>
    rw [← KvStarts.owner (n := 5) h]
    obtain ⟨clk, rfl⟩ := entropyBytes_frame hdrawn
    exact KvStarts.takes (n := 5) h (kvReplace_of_allowed hi hlock htyp hpend htaken hfresh hdrawn) rfl rfl
  case commit =>
    rw [← KvStarts.owner (n := 6) h]
    have hr := kvCommit_of_pending hi hpend
    split
    next hkcv => exact KvStarts.takes (n := 6) h (hr.trans (if_pos hkcv)) rfl rfl
    next hkcv => exact KvStarts.takes (n := 6) h (hr.trans (if_neg hkcv)) rfl rfl
  case cancel =>
    rw [← KvStarts.owner (n := 7) h]
    obtain ⟨t, hexec, hrun, hslots, -⟩ := KvStarts.reach (n := 7) h (kvCancel_of_handle hi) rfl
    exact ⟨t, hexec, hrun, hslots⟩
  case kcv =>
    rw [← KvStarts.owner (n := 8) h]
    exact KvStarts.takes (n := 8) h (kvKcv_of_handle hi) rfl rfl

end Sys2Proof.Machine
end

section
/-! Signing keys (R357-R362): what taking a leaf, asking for trees and writing the journal change, and what data and signing operations
come to where nothing refuses them (R306, R361-R363). -/

namespace Sys2Proof.Machine

/-! Signing keys and their trees (R357, R360). -/

@[simp] theorem modLms_lms_same (s : State) (j : Fin 2) (f : LmsKey → LmsKey) : (modLms s j f).mb.lms[j] = f s.mb.lms[j] :=
  Vector.getElem_set_self j.isLt

theorem modLms_lms_ne (s : State) {j x : Fin 2} (f : LmsKey → LmsKey) (h : x ≠ j) : (modLms s j f).mb.lms[x] = s.mb.lms[x] :=
  Vector.getElem_set_ne j.isLt x.isLt fun e => h (Fin.ext e.symm)

/-- Trees are asked for with a billet and work of the hash bank, not with the vault (R216, R360). -/
@[simp] theorem startTrees_kv (s : State) (j : Fin 2) (parent : Option Nat) : (startTrees s j parent).kv = s.kv := by
  unfold startTrees
  dsimp only
  split
  next hdraw =>
    rw [← draw_kv hdraw]
    split <;> rfl
  next hdraw =>
    have drawn := draw_kv hdraw
    rw [hashEnq_kv]
    exact drawn

@[simp] theorem startTrees_mb (s : State) (j : Fin 2) (parent : Option Nat) : (startTrees s j parent).mb = s.mb :=
  (startTrees_fixed (.refl s) j parent).mb

@[simp] theorem startTrees_he (s : State) (j : Fin 2) (parent : Option Nat) : (startTrees s j parent).he = s.he :=
  (startTrees_fixed (.refl s) j parent).he

@[simp] theorem startTrees_tp (s : State) (j : Fin 2) (parent : Option Nat) : (startTrees s j parent).tp = s.tp :=
  (startTrees_fixed (.refl s) j parent).tp

@[simp] theorem startTrees_otp (s : State) (j : Fin 2) (parent : Option Nat) : (startTrees s j parent).otp = s.otp :=
  (startTrees_fixed (.refl s) j parent).otp

/-- The lower tree of a used-up leaf is one less, the key no less ready than its next tree is (R360). -/
def treeUsed (k : LmsKey) : LmsKey := { k with lower := k.lower - 1, ready := k.ready && decide (2 ≤ k.lower) }

@[simp] theorem nextTree_kv (s : State) (j : Fin 2) : (nextTree s j).kv = s.kv := by
  unfold nextTree
  dsimp only
  split
  · exact startTrees_kv ..
  · rfl

theorem nextTree_fixed (s : State) (j : Fin 2) : Fixed (modLms s j treeUsed) (nextTree s j) := by
  unfold nextTree
  dsimp only
  split
  · exact startTrees_fixed (.refl _) j none
  · exact .refl _

theorem nextTree_mb (s : State) (j : Fin 2) : (nextTree s j).mb = (modLms s j treeUsed).mb := (nextTree_fixed s j).mb

/-- The leaf taken counts, and near the end of the reserved block the next one's reservation begins (R357). -/
def leafTaken (k : LmsKey) : LmsKey := { k with p := k.p + 1, jbusy := k.jbusy || decide (k.n - (k.p + 1) ≤ 256) }

@[simp] theorem takeLeaf_kv (s : State) (j : Fin 2) : (takeLeaf s j).kv = s.kv := by
  unfold takeLeaf
  dsimp only
  split
  · exact nextTree_kv ..
  · rfl

@[simp] theorem takeLeaf_he (s : State) (j : Fin 2) : (takeLeaf s j).he = s.he := by
  unfold takeLeaf
  dsimp only
  split
  · exact (nextTree_fixed ..).he
  · rfl

theorem takeLeaf_mb (s : State) (j : Fin 2) : (takeLeaf s j).mb = (modLms s j leafTaken).mb ∨
    (takeLeaf s j).mb = (modLms (modLms s j leafTaken) j treeUsed).mb := by
  unfold takeLeaf
  dsimp only
  split
  · exact .inr (nextTree_mb _ j)
  · exact .inl rfl

/-- A leaf is one of its own key, and only that key's position rises (R357). -/
theorem takeLeaf_p (s : State) (j : Fin 2) : ((takeLeaf s j).mb.lms[j]).p = (s.mb.lms[j]).p + 1 := by
  rcases takeLeaf_mb s j with h | h
  · rw [h, modLms_lms_same, leafTaken]
  · rw [h, modLms_lms_same, treeUsed, modLms_lms_same, leafTaken]

theorem takeLeaf_lms_ne (s : State) {j x : Fin 2} (hx : x ≠ j) : (takeLeaf s j).mb.lms[x] = s.mb.lms[x] := by
  rcases takeLeaf_mb s j with h | h
  · rw [h, modLms_lms_ne _ _ hx]
  · rw [h, modLms_lms_ne _ _ hx, modLms_lms_ne _ _ hx]

/-- A journal record goes to the own store and to AO (R358). -/
theorem leafWrite_frame (s : State) (j : Fin 2) (epoch next seq : Nat) (kid : BitVec 128) :
    ∃ os wd tp, leafWrite s j epoch next seq kid = { s with os := os, wd := wd, tp := tp } := by
  unfold leafWrite
  split
  · exact ⟨_, _, _, rfl⟩
  next key _ =>
    dsimp only
    generalize beBytes 4 0x545A4C4A ++ beBytes 2 1 ++ [BitVec.ofNat 8 (j.val + 1), 0] ++ beBytes 4 epoch ++ beBytes 4 next ++
      beBytes 4 seq ++ fillBytes 12 0 ++ beBytes 16 kid.toNat = body
    obtain ⟨os, wd, h⟩ := recWrite_frame s (osLeaf j) ((leafInForce s j).map (·.1)) (body ++ sealOf key body 48)
    rw [h]
    exact ⟨_, _, _, rfl⟩

/-! Data operations (R306). -/

section Ops

variable {s : State} {k : KvCore} {i : Fin 128} {j : Fin 2}

/-- A key of type secret with the usage an operation wants. -/
theorem secretUsable {b : Nat} (htyp : (s.kv.slots[i]).typ = 1) (huse : hasUse s i b = true) :
    ¬((s.kv.slots[i]).typ ≠ 1 ∨ (!hasUse s i b) = true) := by
  rw [htyp, huse]
  decide

theorem rangesUsable {a b m n : Nat} (ha : kvRange a m = true) (hb : kvRange b n = true) :
    ¬((!kvRange a m) = true ∨ (!kvRange b n) = true) := by
  rw [ha, hb]
  decide

theorem kvHmac_of_allowed (hi : kvHandle s k (kvArg k 0) = .inr i) (htyp : (s.kv.slots[i]).typ = 1) (huse : hasUse s i 1 = true)
    (hpos : 0 < kvArg k 3) (hlen : kvArg k 3 ≤ 65536) (hdst : kvRange (kvArg k 1) 32 = true)
    (hsrc : kvRange (kvArg k 2) (kvArg k 3) = true) :
    kvHmac s k = { code := 0, uses := [i.val], dst := kvArg k 1, dstLen := 32, hash := hmacCost (kvArg k 3), s := s
                   bytes := digBytes (hmacB (s.kv.slots[i]).material (ramRead s (kvArg k 2) (kvArg k 3))) } := by
  rw [kvHmac, hi]
  dsimp only
  rw [if_neg (secretUsable htyp huse), if_neg (by omega), if_neg (rangesUsable hdst hsrc)]

/-- A word of the parameter block of R306. -/
def gcmWord (s : State) (k : KvCore) (j : Nat) : Nat := leNat (slice (ramRead s (kvArg k 1) 32) (4 * j) 4)

theorem kvGcm_of_allowed {enc : Bool} (hi : kvHandle s k (kvArg k 0) = .inr i) (htyp : (s.kv.slots[i]).typ = 1)
    (hblock : kvRange (kvArg k 1) 32 = true) (haad : gcmWord s k 4 ≤ 4096)
    (haadRange : gcmWord s k 4 = 0 ∨ kvRange (gcmWord s k 3) (gcmWord s k 4) = true) (hpos : 0 < gcmWord s k 7)
    (hlen : gcmWord s k 7 ≤ 65536) (huse : hasUse s i (if enc then 2 else 3) = true)
    (hsrc : kvRange (gcmWord s k 5) (if enc then gcmWord s k 7 else gcmWord s k 7 + 16) = true)
    (hdst : kvRange (gcmWord s k 6) (if enc then gcmWord s k 7 + 16 else gcmWord s k 7) = true) :
    let key := (s.kv.slots[i]).material
    let nonce := (ramRead s (kvArg k 1) 32).take 12
    let aad := ramRead s (gcmWord s k 3) (gcmWord s k 4)
    let src := ramRead s (gcmWord s k 5) (gcmWord s k 7)
    let out := gcmCrypt key nonce src
    let cost := cdiv (gcmWord s k 4) 64 + cdiv (gcmWord s k 7) 64
    kvGcm enc s k =
      if enc then { code := 0, uses := [i.val], dst := gcmWord s k 6, dstLen := gcmWord s k 7 + 16, aes := cost, s := s
                    bytes := out ++ gcmTag key nonce aad out }
      else if gcmTag key nonce aad src = ramRead s (gcmWord s k 5 + gcmWord s k 7) 16 then
        { code := 0, uses := [i.val], dst := gcmWord s k 6, dstLen := gcmWord s k 7, aes := cost, bytes := out, s := s }
      else { code := 11, uses := [i.val], dst := gcmWord s k 6, dstLen := gcmWord s k 7, aes := cost, s := s
             bytes := fillBytes (gcmWord s k 7) 0 } := by
  have hread : ¬(!kvRange (kvArg k 1) 32) = true := by
    rw [hblock]
    decide
  have hsize : ¬(4096 < gcmWord s k 4 ∨ gcmWord s k 7 = 0 ∨ 65536 < gcmWord s k 7) := by omega
  have hranges : ¬((gcmWord s k 4 ≠ 0 ∧ (!kvRange (gcmWord s k 3) (gcmWord s k 4)) = true) ∨
      (!kvRange (gcmWord s k 5) (if enc then gcmWord s k 7 else gcmWord s k 7 + 16)) = true ∨
      (!kvRange (gcmWord s k 6) (if enc then gcmWord s k 7 + 16 else gcmWord s k 7)) = true) := by
    rintro (⟨hsome, hbad⟩ | hbad)
    · rw [haadRange.resolve_left hsome] at hbad
      exact absurd hbad (by decide)
    · exact rangesUsable hsrc hdst hbad
  dsimp only
  rw [kvGcm, hi]
  exact (if_neg (secretUsable htyp huse)).trans ((if_neg hread).trans ((if_neg hsize).trans (if_neg hranges)))

/-! Signing operations (R361-R363). -/

theorem kvSign_of_allowed (hi : kvHandle s k (kvArg k 0) = .inr i) (hkey : lmsKeyOf s i = some j) (hmay : maySign s k.owner = true)
    (hpos : 0 < kvArg k 3) (hlen : kvArg k 3 ≤ 4096) (hdst : kvRange (kvArg k 1) sigLen = true)
    (hsrc : kvRange (kvArg k 2) (kvArg k 3) = true) :
    kvSign s k = if lmsBusy s j then kvRefuse s 1 else
      { code := 0, out0 := BitVec.ofNat 32 (s.mb.lms[j]).p, out1 := 5396, uses := [i.val], dst := kvArg k 1, dstLen := sigLen
        hash := signCost (kvArg k 3), s := takeLeaf s j
        bytes := (List.range sigLen).map (Config.sigByte (s.kv.slots[(s.mb.lms[j]).slot]).material (s.mb.lms[j]).p
          (ramRead s (kvArg k 2) (kvArg k 3))) } := by
  rw [kvSign, hi]
  dsimp only
  rw [hkey]
  dsimp only
  rw [hmay, if_neg (by decide), if_neg (by omega), if_neg (rangesUsable hdst hsrc)]
  dsimp only [signWith]

theorem kvPubkey_of_allowed (hi : kvHandle s k (kvArg k 0) = .inr i) (hkey : lmsKeyOf s i = some j) (hmay : maySign s k.owner = true)
    (hdst : kvRange (kvArg k 1) 60 = true) (hready : lmsBusy s j = false) :
    kvPubkey s k = { code := 0, uses := [i.val], dst := kvArg k 1, dstLen := 60, bytes := pubKeyOf (s.mb.lms[j]).keyId, s := s } := by
  rw [kvPubkey, hi]
  dsimp only
  rw [hkey]
  dsimp only
  rw [hmay, if_neg (by decide), hdst, if_neg (by decide), hready, if_neg (by decide)]

theorem signWith_snd (s : State) (j : Fin 2) (msg : List Byte) : (signWith s j msg).2 = takeLeaf s j := rfl

/-! ALIAS (R362). -/

/-- The key of ALIAS with identifier `kid` in slot `a`, filled with material `m`: it is journalled with sequence number `q`, and its trees are
asked for as dependents of the operation. -/
def aliasGrown (s : State) (billet : Nat) (a : Fin 128) (m : List Byte) (kid : BitVec 128) (q : Nat) : State :=
  let journalled := leafWrite (childSlot s 0 a 2 2 0x40 0xFF false m) 1 (aliasEpoch s + 1) 0 q kid
  startTrees (modLms journalled 1 (fun _ => { valid := true, slot := a, keyId := kid, seq := q, jbusy := true })) 1 (some billet)

/-- The key of ALIAS made: one leaf of the identity key is taken for its record. -/
def aliasMade (s : State) (billet : Nat) (a : Fin 128) (m : List Byte) (kid : BitVec 128) (q : Nat) : State :=
  let signed := takeLeaf (aliasGrown s billet a m kid q) 0
  { signed with mb := { signed.mb with aliased := true } }

theorem kvAlias_of_allowed {a : Fin 128} (billet : Nat) (hi : kvHandle s k (kvArg k 0) = .inr i) (hkey : lmsKeyOf s i = some 0)
    (hmay : maySign s k.owner = true) (hfirst : s.mb.aliased = false) (ha : a.val = kvArg k 1 % 128) (hgeneral : 16 ≤ a.val)
    (hfree : (s.kv.slots[a]).typ = 0) (hdst : kvRange (kvArg k 2) 5588 = true) (hready : lmsBusy s 0 = false) :
    ∃ m kid q bs, kvAlias billet s k =
      { code := 0, out0 := handleOf (aliasMade s billet a m kid q) a, out1 := BitVec.ofNat 32 (aliasEpoch s + 1)
        uses := [i.val, a.val, 0], dst := kvArg k 2, dstLen := 5588, bytes := bs, hash := deriveCost 2 + signCost 192
        s := aliasMade s billet a m kid q } := by
  rw [kvAlias, hi]
  extract_lets slot epoch ctx mat filled kid seq journalled keyed grown body
  dsimp only
  obtain rfl : a = slot := Fin.ext ha
  split_ifs with hsigns hslot hbad hbusy
  · rw [hkey, hmay, hfirst] at hsigns
    exact absurd hsigns (by decide)
  · rcases hslot with hlow | hfull
    · exact absurd hgeneral (Nat.not_le.mpr hlow)
    · exact absurd hfree hfull
  · rw [hdst] at hbad
    exact absurd hbad (by decide)
  · rw [hready] at hbusy
    exact absurd hbusy (by decide)
  · have hgrown : aliasGrown s billet slot mat kid seq = grown := rfl
    refine ⟨mat, kid, seq, body ++ (signWith grown 0 body).1, ?_⟩
    rw [aliasMade, hgrown, ← signWith_snd grown 0 body]

end Ops

section Alias

variable (s : State) (billet : Nat) (a : Fin 128) (m : List Byte) (kid : BitVec 128) (q : Nat)

theorem aliasGrown_kv : (aliasGrown s billet a m kid q).kv = (childSlot s 0 a 2 2 0x40 0xFF false m).kv := by
  obtain ⟨os, wd, tp, h⟩ := leafWrite_frame (childSlot s 0 a 2 2 0x40 0xFF false m) 1 (aliasEpoch s + 1) 0 q kid
  rw [aliasGrown, h, startTrees_kv, modLms_kv]

theorem aliasGrown_he : (aliasGrown s billet a m kid q).he = s.he := by
  obtain ⟨os, wd, tp, h⟩ := leafWrite_frame (childSlot s 0 a 2 2 0x40 0xFF false m) 1 (aliasEpoch s + 1) 0 q kid
  rw [aliasGrown, h, startTrees_he, modLms_he]
  rfl

/-- The new key stands in its slot, to be journalled anew; the identity key is as it was. -/
theorem aliasGrown_mb : (aliasGrown s billet a m kid q).mb =
    (modLms s 1 (fun _ => { valid := true, slot := a, keyId := kid, seq := q, jbusy := true })).mb := by
  obtain ⟨os, wd, tp, h⟩ := leafWrite_frame (childSlot s 0 a 2 2 0x40 0xFF false m) 1 (aliasEpoch s + 1) 0 q kid
  rw [aliasGrown, h, startTrees_mb]
  rfl

theorem aliasMade_kv : (aliasMade s billet a m kid q).kv = (childSlot s 0 a 2 2 0x40 0xFF false m).kv := by
  simp only [aliasMade, takeLeaf_kv, aliasGrown_kv]

theorem aliasMade_he : (aliasMade s billet a m kid q).he = s.he := by
  simp only [aliasMade, takeLeaf_he, aliasGrown_he]

theorem aliasMade_alias : (aliasMade s billet a m kid q).mb.lms[(1 : Fin 2)] =
    { valid := true, slot := a, keyId := kid, seq := q, jbusy := true } := by
  rw [aliasMade]
  dsimp only
  rw [takeLeaf_lms_ne _ (by decide), aliasGrown_mb, modLms_lms_same]

theorem aliasMade_identity : ((aliasMade s billet a m kid q).mb.lms[(0 : Fin 2)]).p = (s.mb.lms[(0 : Fin 2)]).p + 1 := by
  rw [aliasMade]
  dsimp only
  rw [takeLeaf_p, aliasGrown_mb, modLms_lms_ne _ _ (by decide)]

theorem aliasMade_slot_same : (aliasMade s billet a m kid q).kv.slots[a] = childOf s 0 a 2 2 0x40 0xFF false m := by
  rw [aliasMade_kv]
  exact Vector.getElem_set_self a.isLt

theorem aliasMade_slot_ne {x : Fin 128} (hx : x ≠ a) : (aliasMade s billet a m kid q).kv.slots[x] = s.kv.slots[x] := by
  rw [aliasMade_kv]
  exact Vector.getElem_set_ne a.isLt x.isLt fun e => hx (Fin.ext e.symm)

/-- Filling a slot leaves its GEN, and so its handle, as it is (R299). -/
theorem handleOf_aliasMade : handleOf (aliasMade s billet a m kid q) a = handleOf s a := by
  rw [handleOf, aliasMade_slot_same]
  rfl

end Alias

end Sys2Proof.Machine
end

section
/-! The leaf-index journal and the trees of a signing key (R357, R358, R360), and the settling of O45. -/

namespace Sys2Proof.Machine

/-! LEAF_JOURNAL_WRITE (R357). -/

section Journal

variable {s : State} {j : Fin 2}

theorem leafJournal_of_none {f : Bool} (h : (s.mb.lms[j]).valid = false ∨ (s.mb.lms[j]).jbusy = false ∨ osErasing s = true) :
    leafJournal s j f = s := by
  refine if_pos ?_
  rcases h with h | h | h
  · exact .inl (by rw [h]; rfl)
  · exact .inr (.inl (by rw [h]; rfl))
  · exact .inr (.inr h)

/-- A reservation's record can be written: a present key has asked for it, and no own-store erase runs. -/
theorem leafJournal_open (hvalid : (s.mb.lms[j]).valid = true) (hbusy : (s.mb.lms[j]).jbusy = true) (herase : osErasing s = false) :
    ¬((!(s.mb.lms[j]).valid) = true ∨ (!(s.mb.lms[j]).jbusy) = true ∨ osErasing s = true) := by
  rw [hvalid, hbusy, herase]
  decide

theorem leafJournal_failed (hvalid : (s.mb.lms[j]).valid = true) (hbusy : (s.mb.lms[j]).jbusy = true) (herase : osErasing s = false) :
    leafJournal s j true = mbInt (modLms s j (fun k => { k with jfail := true })) 1 :=
  if_neg (leafJournal_open hvalid hbusy herase)

theorem leafJournal_written (hvalid : (s.mb.lms[j]).valid = true) (hbusy : (s.mb.lms[j]).jbusy = true) (herase : osErasing s = false) :
    ∃ os wd tp, leafJournal s j false = modLms { s with os := os, wd := wd, tp := tp } j (fun k => { k with
      n := k.n + 1024, seq := k.seq + 1, jbusy := false, jfail := false }) := by
  obtain ⟨os, wd, tp, h⟩ := leafWrite_frame s j (if j = 1 then aliasEpoch s else 0) ((s.mb.lms[j]).n + 1024) ((s.mb.lms[j]).seq + 1)
    (s.mb.lms[j]).keyId
  refine ⟨os, wd, tp, (if_neg (leafJournal_open hvalid hbusy herase)).trans ?_⟩
  rw [← h]
  rfl

end Journal

/-! LMS_TREE_GENERATED (R360). -/

/-- A key whose trees stand: ready, with one lower tree more, or its first two. -/
def treeGrown (k : LmsKey) : LmsKey := { k with ready := true, top := true, lower := if k.top then min 2 (k.lower + 1) else 2 }

/-- The key ready, with the interrupt where it was not. -/
def treeShown (s : State) (j : Fin 2) : State :=
  if (s.mb.lms[j]).ready then modLms s j treeGrown else mbInt (modLms s j treeGrown) 2

theorem treeShown_lms (s : State) (j : Fin 2) : (treeShown s j).mb.lms[j] = treeGrown s.mb.lms[j] := by
  unfold treeShown
  split
  · exact modLms_lms_same ..
  · exact modLms_lms_same s j treeGrown

theorem treeShown_intSts (s : State) (j : Fin 2) :
    (treeShown s j).mb.intSts = if (s.mb.lms[j]).ready then s.mb.intSts else s.mb.intSts ||| 4#32 := by
  unfold treeShown
  split <;> rfl

theorem treeShown_bt (s : State) (j : Fin 2) : (treeShown s j).bt = s.bt := by
  unfold treeShown
  split <;> rfl

theorem treesStand_eq (s : State) (j : Fin 2) : treesStand s j =
    if ((treeShown s j).mb.lms[j]).lower < 2 ∧ ((treeShown s j).mb.lms[j]).p + 32768 < 2 ^ 30 then startTrees (treeShown s j) j none
    else treeShown s j := rfl

theorem treesStand_mb (s : State) (j : Fin 2) : (treesStand s j).mb = (treeShown s j).mb := by
  rw [treesStand_eq]
  split
  · exact startTrees_mb ..
  · rfl

/-- With two lower trees, no further one is asked for. -/
theorem treesStand_bt {s : State} {j : Fin 2} (h : (s.mb.lms[j]).top = false ∨ 1 ≤ (s.mb.lms[j]).lower) :
    (treesStand s j).bt = s.bt := by
  have hlower : 2 ≤ ((treeShown s j).mb.lms[j]).lower := by
    rw [treeShown_lms, treeGrown]
    rcases h with h | h
    · rw [h]
      exact Nat.le_refl 2
    · dsimp only
      split <;> omega
  rw [treesStand_eq, if_neg fun hmore => absurd hlower (Nat.not_le.mpr hmore.1), treeShown_bt]

/-- A job of these trees has an engine. -/
def treeRuns (s : State) (id : Nat) : Bool := allEng.any (fun e => match engJob s e with | some x => x.billet = id | none => false)

theorem treeDone_of_run {s : State} {j : Fin 2} {id : Nat} {l : List Nat} (hunits : unitsWhere s (fun u => u.work = .tree j) = id :: l)
    (hruns : treeRuns s id = true) (hvalid : (s.mb.lms[j]).valid = true) :
    treeDone s j = treesStand (retire (hashDrop s id) id) j := by
  have hmb : (retire (hashDrop s id) id).mb = s.mb := (retire_fixed (hashDrop_fixed (.refl s))).mb
  rw [treeDone, hunits]
  refine (if_pos hruns).trans (if_pos ?_)
  rw [hmb]
  exact hvalid

theorem treeDone_of_no_run {s : State} {j : Fin 2} {id : Nat} {l : List Nat}
    (hunits : unitsWhere s (fun u => u.work = .tree j) = id :: l) (hruns : treeRuns s id = false) : treeDone s j = s := by
  rw [treeDone, hunits]
  exact if_neg (Bool.eq_false_iff.mp hruns)

/-- Settles O45: the operations as they are taken, then the journal's writes and the trees. -/
theorem vaultDataAndSigningOperations : Obligations.VaultDataAndSigningOperations := by
  refine ⟨fun c s id v i => ?ops, fun j f s h => next_onLive_of_fixed (leafJournal_of_none h),
    fun j s hs hvalid hbusy herase => ⟨?failed, ?written⟩, fun j id l s hs hunits hruns hvalid => ?trees,
    fun j id l s hs hunits hruns => next_onLive hs (congrArg settleAll (treeDone_of_no_run hunits hruns))⟩
  case ops =>
    intro k ow hi
    dsimp only [k, ow] at hi ⊢
    refine ⟨fun h htyp huse hpos hlen hdst hsrc => ?hmac, fun htyp hblock haad haadRange hpos hlen =>
      ⟨fun h huse hsrc hdst => ?enc, fun h huse hsrc hdst => ?dec⟩, fun j h hkey hmay hpos hlen hdst hsrc hready => ?sign,
      fun j h hkey hmay hpos hlen hdst hsrc hbusy => ?busy,
      fun a h hkey hmay hfirst ha hgeneral hfree hdst hready => ?makesAlias, fun j h hkey hmay hdst hready => ?pubkey⟩
    case hmac =>
      rw [← KvStarts.owner (n := 9) h]
      exact KvStarts.takes (n := 9) h (kvHmac_of_allowed hi htyp huse hpos hlen hdst hsrc) rfl rfl
    case enc =>
      rw [← KvStarts.owner (n := 10) h]
      exact KvStarts.takes (n := 10) h (kvGcm_of_allowed (enc := true) hi htyp hblock haad haadRange hpos hlen huse hsrc hdst) rfl rfl
    case dec =>
      rw [← KvStarts.owner (n := 11) h]
      have hr := kvGcm_of_allowed (enc := false) hi htyp hblock haad haadRange hpos hlen huse hsrc hdst
      split
      next htag => exact KvStarts.takes (n := 11) h (hr.trans (if_pos htag)) rfl rfl
      next htag => exact KvStarts.takes (n := 11) h (hr.trans (if_neg htag)) rfl rfl
    case sign =>
      rw [← KvStarts.owner (n := 12) h] at hmay ⊢
      have hr := (kvSign_of_allowed hi hkey hmay hpos hlen hdst hsrc).trans (if_neg (Bool.eq_false_iff.mp hready))
      obtain ⟨t, hexec, hrun, hslots, -, hhe, hmb⟩ := KvStarts.reach (n := 12) h hr (congrArg Kv.arb (takeLeaf_kv v j))
      dsimp only at hrun
      refine ⟨t, hexec, hrun, ?_, fun x hx => ?_, hslots.trans (congrArg Kv.slots (takeLeaf_kv v j)), ?_⟩
      · rw [hmb]
        exact takeLeaf_p v j
      · rw [hmb]
        exact takeLeaf_lms_ne v hx
      · rw [hhe]
        exact congrArg He.ram (takeLeaf_he v j)
    case busy =>
      rw [← KvStarts.owner (n := 12) h] at hmay ⊢
      exact KvStarts.takes (n := 12) h ((kvSign_of_allowed hi hkey hmay hpos hlen hdst hsrc).trans (if_pos hbusy)) rfl rfl
    case makesAlias =>
      rw [← KvStarts.owner (n := 13) h] at hmay ⊢
      obtain ⟨m, kid, q, bs, hr⟩ := kvAlias_of_allowed id hi hkey hmay hfirst ha hgeneral hfree hdst hready
      have hkv := aliasMade_kv v id a m kid q
      obtain ⟨t, hexec, hrun, hslots, -, hhe, hmb⟩ := KvStarts.reach (n := 13) h hr (congrArg Kv.arb hkv :)
      have halias := aliasMade_alias v id a m kid q
      have hslot := aliasMade_slot_same v id a m kid q
      rw [handleOf_aliasMade] at hrun
      refine ⟨t, bs, hexec, ?_⟩
      dsimp only at hmb hslots hhe
      rw [hmb, hslots, hhe, aliasMade_he, halias, hslot, aliasMade_identity]
      exact ⟨rfl, rfl, rfl, rfl, rfl, rfl, rfl, fun x hx => aliasMade_slot_ne v id a m kid q hx, rfl, hrun⟩
    case pubkey =>
      rw [← KvStarts.owner (n := 14) h] at hmay ⊢
      exact KvStarts.takes (n := 14) h (kvPubkey_of_allowed hi hkey hmay hdst hready) rfl rfl
  case failed =>
    refine ⟨_, next_onLive hs (leafJournal_failed hvalid hbusy herase), ?_⟩
    have hkey := modLms_lms_same s j (fun k => { k with jfail := true })
    exact ⟨(congrArg LmsKey.jfail hkey :), (congrArg LmsKey.n hkey :), (congrArg LmsKey.p hkey :), rfl, rfl⟩
  case written =>
    obtain ⟨os, wd, tp, h⟩ := leafJournal_written hvalid hbusy herase
    refine ⟨_, next_onLive hs h, ?_⟩
    rw [modLms_lms_same]
    exact ⟨rfl, rfl, rfl, rfl, rfl, fun x hx => modLms_lms_ne _ _ hx, rfl⟩
  case trees =>
    dsimp only
    have hmb : (retire (hashDrop s id) id).mb = s.mb := (retire_fixed (hashDrop_fixed (.refl s))).mb
    refine ⟨_, next_onLive hs (congrArg settleAll (treeDone_of_run hunits hruns hvalid)), ?_⟩
    rw [treesStand_mb, treeShown_lms, treeShown_intSts, hmb]
    refine ⟨rfl, rfl, rfl, rfl, rfl, fun htwo => ?_⟩
    rw [← hmb] at htwo
    rw [treesStand_bt htwo]
    exact aget_adel_self ..

end Sys2Proof.Machine
end

section
/-! Roots, zeroisation and rekindling of the vault (R297, R301, R311-R314): what each changes besides the slots it names. -/

namespace Sys2Proof.Machine

/-! What the OTP alone decides (R322, R323). -/

theorem curGen_of_otp {s t : State} (h : t.otp = s.otp) : curGen t = curGen s := by
  have moved : curGen t = curGen { s with otp := t.otp } := rfl
  rw [moved, h]

/-! Slots that are filled (R297, R302). -/

theorem modSlot_slots_same (s : State) (i : Fin 128) (f : Slot → Slot) : (modSlot s i f).kv.slots[i] = f s.kv.slots[i] :=
  Vector.getElem_set_self i.isLt

theorem modSlot_slots_ne (s : State) {i x : Fin 128} (f : Slot → Slot) (h : x ≠ i) : (modSlot s i f).kv.slots[x] = s.kv.slots[x] :=
  Vector.getElem_set_ne i.isLt x.isLt fun e => h (Fin.ext e.symm)

/-- From `s` to `t` keys come into being in slots of the vault, none in the roots 0 to 2. -/
structure KeysMade (s t : State) : Prop where
  otp : t.otp = s.otp
  tp : t.tp = s.tp
  kv : t.kv = { s.kv with slots := t.kv.slots }
  roots : ∀ x : Fin 128, x.val < 3 → t.kv.slots[x] = s.kv.slots[x]

theorem KeysMade.refl (s : State) : KeysMade s s := ⟨rfl, rfl, rfl, fun _ _ => rfl⟩

theorem KeysMade.trans {s t u : State} (h : KeysMade s t) (h' : KeysMade t u) : KeysMade s u where
  otp := h'.otp.trans h.otp
  tp := h'.tp.trans h.tp
  kv := by rw [h'.kv, h.kv]
  roots := fun x hx => (h'.roots x hx).trans (h.roots x hx)

theorem modSlot_keysMade (s : State) {i : Fin 128} (hi : 3 ≤ i.val) (f : Slot → Slot) : KeysMade s (modSlot s i f) :=
  ⟨rfl, rfl, rfl, fun _ hx => modSlot_slots_ne s f fun e => absurd hx (Nat.not_lt.mpr (e ▸ hi))⟩

/-- The fixed keys of Table 10.4 stand in slots 4 to 10. -/
theorem fixedKeys_keysMade (s : State) : KeysMade s (fixedKeys.foldl fixedKey s) := by
  have hlow : ∀ k ∈ fixedKeys, 3 ≤ k.1.val := by decide
  refine List.foldlRecOn fixedKeys fixedKey (motive := KeysMade s) (.refl s) fun t ht k hk => ht.trans ?_
  unfold fixedKey
  dsimp only
  split
  · exact .refl t
  · exact modSlot_keysMade t (hlow k hk) _

theorem lmsStart_keysMade (s : State) (j : Fin 2) (i : Fin 128) : KeysMade s (lmsStart s j i) := by
  have hkv : (lmsStart s j i).kv = s.kv := startTrees_kv ..
  refine ⟨startTrees_otp .., startTrees_tp .., ?_, fun x _ => ?_⟩
  · rw [hkv]
  · rw [hkv]

/-! The load of the roots (R297). -/

/-- The roots 0 and 1 of generation `g`, and root 2 where there is an AWK. -/
def rootsOf (s : State) (uds : List Byte) (g : Nat) : State :=
  let orr := extractB (genSeed s g) uds
  let s := rootSlot (rootSlot s 0 orr) 1 (extractB (ascii "TZVAULT-FLEET") (genSeed s g))
  match s.tp.ao.awk with
  | some awk => rootSlot s 2 (extractB (digBytes awk) orr)
  | none => s

theorem rootsOf_frame (s : State) (uds : List Byte) (g : Nat) :
    ∃ slots, rootsOf s uds g = { s with kv := { s.kv with slots := slots } } := by
  unfold rootsOf
  dsimp only
  split <;> exact ⟨_, rfl⟩

/-- What root slot 0 holds (R297). -/
def rootKey (s : State) (mat : List Byte) : Slot :=
  { s.kv.slots[(0 : Fin 128)] with
    typ := 1, origin := 0, lock := true, usage := 1, owner := 0xFF, parent := 0, isRoot := true, depth := 1, pgen := 0
    material := mat, pend := none }

theorem rootsOf_zero (s : State) (uds : List Byte) (g : Nat) :
    (rootsOf s uds g).kv.slots[(0 : Fin 128)] = rootKey s (extractB (genSeed s g) uds) := by
  have filled : (rootSlot (rootSlot s 0 (extractB (genSeed s g) uds)) 1 (extractB (ascii "TZVAULT-FLEET") (genSeed s g))).kv.slots[
      (0 : Fin 128)] = rootKey s (extractB (genSeed s g) uds) :=
    (modSlot_slots_ne _ _ (by decide)).trans (modSlot_slots_same ..)
  unfold rootsOf
  dsimp only
  split
  · exact (modSlot_slots_ne _ _ (by decide)).trans filled
  · exact filled

theorem rootsOf_two {s : State} {uds : List Byte} {g : Nat} {awk : Digest} (h : s.tp.ao.awk = some awk) :
    ((rootsOf s uds g).kv.slots[(2 : Fin 128)]).material = extractB (digBytes awk) (extractB (genSeed s g) uds) := by
  have hawk : (rootSlot (rootSlot s 0 (extractB (genSeed s g) uds)) 1 (extractB (ascii "TZVAULT-FLEET") (genSeed s g))).tp.ao.awk =
      some awk := h
  rw [rootsOf, hawk]
  exact congrArg Slot.material (modSlot_slots_same ..)

/-- The test root, while the stage may be none but TEST. -/
def testRooted (s : State) (uds : List Byte) : State :=
  if testState s then rootSlot s 3 (extractB (ascii "TZVAULT-TEST") uds) else s

theorem testRooted_keysMade (s : State) (uds : List Byte) : KeysMade s (testRooted s uds) := by
  unfold testRooted
  split
  · exact modSlot_keysMade s (by decide) _
  · exact .refl s

/-- The identity key's position, where the key is present. -/
def identityMade (s : State) : State := if (s.kv.slots[4]).typ = 2 then lmsStart s 0 4 else s

theorem identityMade_keysMade (s : State) : KeysMade s (identityMade s) := by
  unfold identityMade
  split
  · exact lmsStart_keysMade s 0 4
  · exact .refl s

/-- The keys made from the roots. -/
def keysOf (s : State) (uds : List Byte) : State := identityMade (fixedKeys.foldl fixedKey (testRooted s uds))

theorem keysOf_keysMade (s : State) (uds : List Byte) : KeysMade s (keysOf s uds) :=
  (testRooted_keysMade s uds).trans ((fixedKeys_keysMade (testRooted s uds)).trans (identityMade_keysMade _))

/-- The state of the vault once its keys are made: SERVICE with a generation, else none's owner. -/
def loadServed (s : State) : State :=
  { s with kv := { s.kv with
      state := if (curGen s).isSome then 1 else 2, ownerGen := (curGen s).getD 0, testRoot := testState s } }

theorem loadRoots_eq {s : State} {uds : List Byte} {g : Nat} (huds : otpUds s = some uds) (hgen : curGen s = some g) :
    loadRoots s = loadServed (keysOf (rootsOf s uds g) uds) := by
  unfold loadRoots
  split
  case h_1 h => exact absurd (h.symm.trans huds) (by simp)
  case h_2 secret h =>
    obtain rfl : secret = uds := Option.some_inj.mp (h.symm.trans huds)
    extract_lets roots tested fixed made
    have hroots : roots = rootsOf s secret g := by
      simp only [roots, hgen]
      rfl
    have htested : tested = testRooted roots secret := rfl
    have hfixed : fixed = fixedKeys.foldl fixedKey tested := rfl
    have hmade : made = identityMade fixed := rfl
    rw [keysOf, ← hroots, ← htested, ← hfixed, ← hmade, loadServed]

/-- With a unique secret and a generation, the vault is in SERVICE and its keys made. -/
theorem loadRoots_of_gen {s : State} {uds : List Byte} {g : Nat} (huds : otpUds s = some uds) (hgen : curGen s = some g) :
    ∃ t testRoot, KeysMade (rootsOf s uds g) t ∧
      loadRoots s = { t with kv := { t.kv with state := 1, ownerGen := g, testRoot := testRoot } } := by
  have hload := loadRoots_eq huds hgen
  have made := keysOf_keysMade (rootsOf s uds g) uds
  obtain ⟨slots, hroots⟩ := rootsOf_frame s uds g
  have hcur : curGen (keysOf (rootsOf s uds g) uds) = some g := by
    rw [← hgen]
    refine curGen_of_otp (made.otp.trans ?_)
    rw [hroots]
  rw [loadServed, hcur] at hload
  exact ⟨_, _, made, hload⟩

section Load

variable {s : State}

/-- The first load of the roots since the reset begins. -/
def loadBegun (s : State) : State := { s with kv := { s.kv with loaded := true, awkNew := false } }

theorem rootLoad_of_loaded (h : s.kv.loaded = true) : rootLoad s = s := if_pos h

/-- Outside BLANK the load's first test is whether the vault is in ash (R297, R313). -/
theorem rootLoad_of_first (hload : s.kv.loaded = false) (hblank : lcState s ≠ .blank) : rootLoad s =
    if lcDead s = true ∨ s.tp.ao.ashed = true then { loadBegun s with kv := { (loadBegun s).kv with state := 3 } }
    else if s.tp.ao.awk.isSome = true then loadRoots (loadBegun s)
    else if optAolossAsh s = true then enterAsh (loadBegun s)
    else match entropyBytes (loadBegun s) 32 with
      | (none, s) => loadRoots s
      | (some b, s) => loadRoots (kvInt { s with kv := { s.kv with awkNew := true }
                                                 tp := { s.tp with ao := { s.tp.ao with awk := some (digOf b) } } } 4) := by
  have hbegun : lcState (loadBegun s) ≠ .blank := hblank
  exact (if_neg (Bool.eq_false_iff.mp hload)).trans (if_neg hbegun)

end Load

/-! The fresh AWK of a REKINDLE (R314). -/

theorem entropyBytes_of_healthy {s : State} (h : s.kv.esFail = false) (n : Nat) :
    ∃ b, entropyBytes s n = (some b, useFree s (cdiv n 32)) :=
  ⟨_, if_neg (Bool.eq_false_iff.mp h)⟩

/-- The conditions of R314. -/
def MayRekindle (s : State) : Prop :=
  s.kv.state = 3 ∧ (lcState s = .test ∨ lcState s = .production) ∧ (curGen s).isSome = true ∧ (!tamperActive s) = true

theorem rekindle_of_refused {s : State} (h : ¬MayRekindle s) : rekindle s = { s with kv := { s.kv with rej := true } } :=
  if_neg h

/-- The ash left with a fresh AWK (R314). -/
def rekindled (s : State) (awk : Digest) : State :=
  { useFree s 1 with kv := { s.kv with awkNew := true }
                     tp := { s.tp with ao := { s.tp.ao with awk := some awk, ashed := false } } }

theorem rekindle_of_allowed {s : State} (h : MayRekindle s) (hhealthy : s.kv.esFail = false) :
    ∃ awk, rekindle s = kvInt (loadRoots (rekindled s awk)) 4 := by
  obtain ⟨b, hb⟩ := entropyBytes_of_healthy hhealthy 32
  refine ⟨digOf b, (if_pos h).trans ?_⟩
  rw [hb]
  rfl

/-! Slots that are emptied (R299, R301). -/

/-- An EMPTY slot whose GEN has risen. -/
def emptied (k : Slot) : Slot := { gen := (k.gen + 1) % 65536 }

theorem foldl_emptySlot_slots (l : List (Fin 128)) (hl : l.Nodup) (s : State) (i : Fin 128) :
    (l.foldl emptySlot s).kv.slots[i] = if i ∈ l then emptied s.kv.slots[i] else s.kv.slots[i] := by
  induction l generalizing s with
  | nil => rfl
  | cons x l ih =>
    obtain ⟨hx, hl⟩ := List.nodup_cons.mp hl
    rw [List.foldl_cons, ih hl]
    by_cases hix : i = x
    · subst hix
      rw [if_neg hx, if_pos (List.mem_cons_self ..)]
      exact modSlot_slots_same ..
    · have kept : (emptySlot s x).kv.slots[i] = s.kv.slots[i] := modSlot_slots_ne s _ hix
      rw [kept]
      exact if_congr (by rw [List.mem_cons, or_iff_right hix]) rfl rfl

theorem foldl_emptySlot_frame (l : List (Fin 128)) (s : State) :
    ∃ slots, l.foldl emptySlot s = { s with kv := { s.kv with slots := slots } } := by
  refine List.foldlRecOn l emptySlot (motive := fun t => ∃ slots, t = { s with kv := { s.kv with slots := slots } })
    ⟨s.kv.slots, rfl⟩ fun t ht x _ => ?_
  obtain ⟨slots, rfl⟩ := ht
  exact ⟨_, rfl⟩

/-! The zeroise line (R311-R313, R316). -/

/-- A load's rejection drops work of the hash bank (R191). -/
theorem loadReject_kv (s : State) (code sec ofs : Nat) : (loadReject s code sec ofs).kv = s.kv :=
  foldl_keeps (p := State.kv) (fun s id => hashDrop_kv (retire s id) id) _ s

theorem ashHeld_commandsOnly (s : State) : CommandsOnly s.kv (ashHeld s).kv := by
  refine List.foldlRecOn allCores _ (motive := fun t : State => CommandsOnly s.kv t.kv) ⟨s.kv.cmd, .refl _⟩ fun t ht c _ => ?_
  split
  · split
    · exact ht
    · exact modKvc_commandsOnly ht c _
  · exact ht

/-- The slots to clear that hold something. -/
def slotsToClear (s : State) (p : Fin 128 → Bool) : List (Fin 128) := allSlots.filter (fun i => p i && decide ((s.kv.slots[i]).typ ≠ 0))

theorem mem_slotsToClear (s : State) (p : Fin 128 → Bool) (i : Fin 128) :
    i ∈ slotsToClear s p ↔ p i = true ∧ (s.kv.slots[i]).typ ≠ 0 := by
  simp [slotsToClear, allSlots]

theorem slotsToClear_nodup (s : State) (p : Fin 128 → Bool) : (slotsToClear s p).Nodup := (List.nodup_finRange 128).filter _

/-- Zeroised slots are emptied one by one; what ends with them fills none. -/
theorem zeroSlots_undisturbed (s : State) (p : Fin 128 → Bool) : ∃ q : Nat → Bool,
    Undisturbed (abortOps ((slotsToClear s p).foldl emptySlot s) q 7).kv (zeroSlots s p).kv := by
  have dropped (t : State) : Undisturbed t.kv (lmsDrop t).kv := by
    rw [lmsDrop_kv]
    exact .refl _
  refine ⟨fun j => (slotsToClear s p).any (fun i => i.val = j), ?_⟩
  unfold zeroSlots
  exact .ite (dropped _) (revokeAnchors_undisturbed (dropped _) _)

theorem zeroSlots_slots (s : State) (p : Fin 128 → Bool) (i : Fin 128) : (zeroSlots s p).kv.slots[i] =
    if p i = true ∧ (s.kv.slots[i]).typ ≠ 0 then emptied s.kv.slots[i] else s.kv.slots[i] := by
  obtain ⟨q, h⟩ := zeroSlots_undisturbed s p
  rw [h.slots, abortOps_slots, foldl_emptySlot_slots _ (slotsToClear_nodup s p)]
  exact if_congr (mem_slotsToClear s p i) rfl rfl

/-- What stands when the zeroise line clears the slots: a load rejected, what was held and in flight ended. -/
def zeroiseEnded (s : State) : State :=
  abortOps (ashHeld (if s.st.state = .loading then loadReject s 0x1C 0 0 else s)) (fun _ => true) 7

theorem zeroiseVault_eq (s : State) : zeroiseVault s = kvInt (enterAsh (zeroSlots (zeroiseEnded s) (fun _ => true))) 2 := rfl

theorem zeroiseEnded_slots (s : State) : (zeroiseEnded s).kv.slots = s.kv.slots := by
  have rejected : (if s.st.state = .loading then loadReject s 0x1C 0 0 else s).kv = s.kv := by
    split
    · exact loadReject_kv ..
    · rfl
  rw [zeroiseEnded, abortOps_slots, (ashHeld_commandsOnly _).slots, rejected]

theorem enterAsh_slots (s : State) : (enterAsh s).kv.slots = s.kv.slots := rfl

theorem zeroiseVault_slots (s : State) (i : Fin 128) : (zeroiseVault s).kv.slots[i] =
    if (s.kv.slots[i]).typ ≠ 0 then emptied s.kv.slots[i] else s.kv.slots[i] := by
  rw [zeroiseVault_eq, kvInt_slots, enterAsh_slots, zeroSlots_slots, zeroiseEnded_slots]
  exact if_congr (and_iff_right rfl) rfl rfl

/-! The sweep (R301). -/

theorem mem_deadSlots (s : State) (i : Fin 128) : i ∈ deadSlots s ↔ (s.kv.slots[i]).typ ≠ 0 ∧ slotOk s i = false := by
  simp [deadSlots, allSlots]

theorem sweep_slots (s : State) (i : Fin 128) : (sweep s).kv.slots[i] =
    if (s.kv.slots[i]).typ ≠ 0 ∧ slotOk s i = false then emptied s.kv.slots[i] else s.kv.slots[i] := by
  have hnodup : (deadSlots s).Nodup := (List.nodup_finRange 128).filter _
  rw [sweep, lmsDrop_kv, foldl_emptySlot_slots _ hnodup]
  exact if_congr (mem_deadSlots s i) rfl rfl

theorem sweep_frame (s : State) : sweep s =
    { s with kv := { s.kv with slots := (sweep s).kv.slots }, mb := { s.mb with lms := (sweep s).mb.lms } } := by
  obtain ⟨slots, h⟩ := foldl_emptySlot_frame (deadSlots s) s
  rw [sweep, h]
  rfl

/-! The entropy source (R317). -/

theorem healthFail_of_failed {s : State} (h : s.kv.esFail = true) :
    healthFail s = { s with kv := { s.kv with esAt := s.clk.now, intSts := s.kv.intSts ||| 8#32 } } := by
  simp only [healthFail, kvInt, h]
  rfl

theorem entropyRetest_of_failed {s : State} (h : s.kv.esFail = true) (pass : Bool) : entropyRetest s pass =
    if pass = true then { reachTime s (s.kv.esAt + 500000) with kv := { s.kv with esFail := false } }
    else healthFail (reachTime s (s.kv.esAt + 500000)) :=
  if_pos h

/-! Settling O46. -/

/-- Settles O46: the load of the roots, ZEROISE and REKINDLE, then the sweep and the entropy source. -/
theorem vaultRootsAshAndEntropy : Obligations.VaultRootsAshAndEntropy := by
  refine ⟨fun m s h => next_onLive_of_fixed (rootLoad_of_loaded h),
    fun m s hs hload hblank => next_onLive hs (rootLoad_of_blank hload hblank),
    fun m s hs hload hblank hash => next_onLive hs ((rootLoad_of_first hload hblank).trans (if_pos hash)),
    fun m uds g awk s hs hload hblank hdead hash hawk huds hgen => ?service,
    fun m s hs hload hblank hdead hash hawk hloss => ?lost, fun m s hs => ?zeroise, fun m s hs h => ?refused,
    fun m uds s hs hstate hlc hgen htamper hhealthy huds => ?rekindle,
    fun s hs => ⟨_, next_onLive hs rfl, sweep_frame s, sweep_slots s⟩, fun s hs => next_onLive hs rfl,
    fun p s h => next_onLive_of_fixed (if_neg (Bool.eq_false_iff.mp h)), fun s hs h => ?retest,
    fun x s => ⟨next_onLive_of_fixed rfl, next_onLive_of_fixed rfl, next_onLive_of_fixed rfl⟩⟩
  case service =>
    have halive : ¬(lcDead s = true ∨ s.tp.ao.ashed = true) := by
      rw [hdead, hash]
      decide
    have hsome : s.tp.ao.awk.isSome = true := by rw [hawk]; rfl
    obtain ⟨t, testRoot, made, hroots⟩ := loadRoots_of_gen (s := loadBegun s) (uds := uds) (g := g) huds hgen
    refine ⟨_, next_onLive hs ((rootLoad_of_first hload hblank).trans ((if_neg halive).trans ((if_pos hsome).trans hroots))), ?_⟩
    obtain ⟨slots, hframe⟩ := rootsOf_frame (loadBegun s) uds g
    have hzero := (made.roots 0 (by decide)).trans (rootsOf_zero ..)
    have htwo := (congrArg Slot.material (made.roots 2 (by decide))).trans (rootsOf_two (s := loadBegun s) hawk)
    have hloaded : t.kv.loaded = true := by rw [made.kv, hframe]; rfl
    have htp : t.tp.ao.awk = some awk := by rw [made.tp, hframe]; exact hawk
    have hotp : t.otp = s.otp := by rw [made.otp, hframe]; rfl
    exact ⟨hloaded, rfl, rfl, congrArg Slot.typ hzero, congrArg Slot.isRoot hzero, congrArg Slot.lock hzero,
      congrArg Slot.material hzero, htwo, htp, hotp⟩
  case lost =>
    have halive : ¬(lcDead s = true ∨ s.tp.ao.ashed = true) := by
      rw [hdead, hash]
      decide
    have hnone : ¬s.tp.ao.awk.isSome = true := by
      rw [hawk]
      decide
    exact ⟨_, next_onLive hs ((rootLoad_of_first hload hblank).trans ((if_neg halive).trans ((if_neg hnone).trans (if_pos hloss)))),
      rfl, rfl, rfl⟩
  case zeroise =>
    refine ⟨zeroiseVault s, next_onLive hs rfl, rfl, rfl, rfl, getLsbD_setBit_self _ (by decide), fun i h => ?_, fun i h => ?_⟩
    · rw [zeroiseVault_slots, if_pos h]
      rfl
    · rw [zeroiseVault_slots, if_neg (not_not.mpr h)]
  case refused =>
    refine next_onLive hs (rekindle_of_refused ?_)
    rintro ⟨hstate, hlc, hgen, htamper⟩
    rcases h with h | ⟨htest, hprod⟩ | h | h
    · exact h hstate
    · exact hlc.elim htest hprod
    · rw [h] at hgen
      exact absurd hgen (by decide)
    · rw [h] at htamper
      exact absurd htamper (by decide)
  case rekindle =>
    have hmay : MayRekindle s := ⟨hstate, hlc, hgen, by rw [htamper]; rfl⟩
    obtain ⟨g, hg⟩ := Option.isSome_iff_exists.mp hgen
    obtain ⟨awk, h⟩ := rekindle_of_allowed hmay hhealthy
    obtain ⟨t, testRoot, made, hroots⟩ := loadRoots_of_gen (s := rekindled s awk) (uds := uds) (g := g) huds hg
    refine ⟨_, next_onLive hs (h.trans (congrArg (kvInt · 4) hroots)), ?_⟩
    obtain ⟨slots, hframe⟩ := rootsOf_frame (rekindled s awk) uds g
    have hzero := (made.roots 0 (by decide)).trans (rootsOf_zero ..)
    have hnew : t.kv.awkNew = true := by rw [made.kv, hframe]; rfl
    have htp : t.tp = (rekindled s awk).tp := by rw [made.tp, hframe]
    have hlit : t.tp.ao.ashed = false := by rw [htp]; rfl
    have hawk : t.tp.ao.awk.isSome = true := by rw [htp]; rfl
    exact ⟨rfl, hnew, hlit, hawk, congrArg Slot.typ hzero⟩
  case retest =>
    have hfailed : (reachTime s (s.kv.esAt + 500000)).kv.esFail = true := h
    exact ⟨next_onLive hs (entropyRetest_of_failed h true),
      next_onLive hs ((entropyRetest_of_failed h false).trans (healthFail_of_failed hfailed))⟩

end Sys2Proof.Machine
end

section
/-! The life-cycle engine (R311, R327, R330, R332): what its steps change, its commands, tokens and nonces, and the settling of O48. -/

namespace Sys2Proof.Machine

/-! Zeroisation touches neither the engine nor the OTP (R311, R312). -/

/-- The parts a transition's zeroisation leaves alone. -/
def lifeParts (s : State) := (s.lc, s.otp)

theorem Fixed.lifeParts {s t : State} (h : Fixed s t) : lifeParts t = lifeParts s := by
  simp only [Machine.lifeParts, h.lc, h.otp]

@[simp] theorem kvInt_lifeParts (s : State) (i : Nat) : lifeParts (kvInt s i) = lifeParts s := rfl
@[simp] theorem emptySlot_lifeParts (s : State) (i : Fin 128) : lifeParts (emptySlot s i) = lifeParts s := rfl
@[simp] theorem enterAsh_lifeParts (s : State) : lifeParts (enterAsh s) = lifeParts s := rfl
@[simp] theorem lmsDrop_lifeParts (s : State) : lifeParts (lmsDrop s) = lifeParts s := rfl
@[simp] theorem ramWrite_lifeParts (s : State) (by_ : Option Core) (a : Nat) (bs : List Byte) :
    lifeParts (ramWrite s by_ a bs) = lifeParts s := rfl
@[simp] theorem modKvc_lifeParts (s : State) (c : Core) (f : KvCore → KvCore) : lifeParts (modKvc s c f) = lifeParts s := rfl

@[simp] theorem loadReject_lifeParts (s : State) (code sec ofs : Nat) : lifeParts (loadReject s code sec ofs) = lifeParts s :=
  foldl_keeps (p := lifeParts) (fun s _ => (hashDrop_fixed (retire_fixed (.refl s))).lifeParts) _ s

@[simp] theorem ashHeld_lifeParts (s : State) : lifeParts (ashHeld s) = lifeParts s := by
  refine foldl_keeps (p := lifeParts) (fun s c => ?_) allCores s
  split
  · split <;> rfl
  · rfl

@[simp] theorem abortOps_lifeParts (s : State) (p : Nat → Bool) (late : Nat) : lifeParts (abortOps s p late) = lifeParts s := by
  have dropped (t : State) (id : Nat) : lifeParts (aesDrop (hashDrop t id) id) = lifeParts t :=
    (aesDrop_fixed (hashDrop_fixed (Fixed.refl t))).lifeParts
  refine foldl_keeps (p := lifeParts) (fun s c => ?_) allCores s
  split
  · simp only [apply_ite lifeParts, modKvc_lifeParts, dropped, ramWrite_lifeParts, ite_self]
  · rfl

@[simp] theorem zeroSlots_lifeParts (s : State) (p : Fin 128 → Bool) : lifeParts (zeroSlots s p) = lifeParts s := by
  have emptiedAll (l : List (Fin 128)) : lifeParts (l.foldl emptySlot s) = lifeParts s := foldl_keeps emptySlot_lifeParts l s
  have anchors (t : State) (q : Fin 128 → Bool) : lifeParts (revokeAnchors t q) = lifeParts t :=
    (revokeAnchors_fixed (Fixed.refl t) q).lifeParts
  simp only [zeroSlots, apply_ite lifeParts, anchors, lmsDrop_lifeParts, abortOps_lifeParts, emptiedAll, ite_self]

@[simp] theorem zeroiseVault_lifeParts (s : State) : lifeParts (zeroiseVault s) = lifeParts s := by
  simp only [zeroiseVault, kvInt_lifeParts, enterAsh_lifeParts, zeroSlots_lifeParts, abortOps_lifeParts, ashHeld_lifeParts,
    apply_ite lifeParts, loadReject_lifeParts, ite_self]

@[simp] theorem zeroiseTest_lifeParts (s : State) : lifeParts (zeroiseTest s) = lifeParts s := by
  have shown (t : State) (kv : Kv) : lifeParts { t with kv := kv } = lifeParts t := rfl
  simp only [zeroiseTest, kvInt_lifeParts, shown, zeroSlots_lifeParts, ashHeld_lifeParts]

theorem zeroised_lifeParts (s : State) (test : Bool) :
    lifeParts (if test then zeroiseTest s else zeroiseVault s) = lifeParts s := by
  split
  · exact zeroiseTest_lifeParts s
  · exact zeroiseVault_lifeParts s

/-! The steps of a transition (R327). -/

/-- Steps change nothing of the engine. -/
theorem lcRun_lc (n : Nat) (l : List LcAct) (s : State) : (lcRun n l s).lc = s.lc := by
  induction n, l, s using lcRun.induct with
  | case1 n s => rw [lcRun]
  | case2 l s h => rw [lcRun]; exact h
  | case3 n test l s hn ih =>
    rw [lcRun, ih]
    · exact congrArg Prod.fst (zeroised_lifeParts s test)
    · exact hn
  | case4 n a bs l s hn k hk ih =>
    rw [lcRun, if_pos hk, ih]
    · rfl
    · exact hn
  | case5 n a bs l s hn k hk =>
    rw [lcRun, if_neg hk]
    · rfl
    · exact hn

/-- What steps leave in the OTP follows from the OTP alone. -/
theorem lcRun_otp_congr (n : Nat) (l : List LcAct) (s : State) : ∀ t, t.otp = s.otp → (lcRun n l t).otp = (lcRun n l s).otp := by
  induction n, l, s using lcRun.induct with
  | case1 n s =>
    intro t h
    rw [lcRun, lcRun]
    exact h
  | case2 l s hl =>
    intro t h
    rw [lcRun, lcRun] <;> assumption
  | case3 n test l s hn ih =>
    intro t h
    rw [lcRun, lcRun]
    · exact ih _ ((congrArg Prod.snd (zeroised_lifeParts t test)).trans (h.trans (congrArg Prod.snd (zeroised_lifeParts s test)).symm))
    · exact hn
    · exact hn
  | case4 n a bs l s hn k hk ih =>
    intro t h
    rw [lcRun, if_pos hk, lcRun, if_pos hk]
    · exact ih _ (congrArg (memOr · a bs) h)
    · exact hn
    · exact hn
  | case5 n a bs l s hn k hk =>
    intro t h
    rw [lcRun, if_neg hk, lcRun, if_neg hk]
    · exact congrArg (memOr · a (firstBits n bs)) h
    · exact hn
    · exact hn

/-! The end of a transition (R327). -/

/-- The engine's transition `r` stands no more; LC_PROV is zeroed with a PROVISION. -/
def lcDone (s : State) (r : LcRun) : State :=
  { s with lc := { s.lc with run := none, prov := if r.op = 0x66 then Vector.replicate 24 0 else s.lc.prov } }

theorem lcEnd_eq {s : State} {r : LcRun} (h : s.lc.run = some r) (otpFail : Bool) : lcEnd s otpFail =
    if otpFail = true then lcInt (lcFinish (lcCut (lcDone s r) r) 10) 1
    else lcFinish (otpProg (lcRun (lcUnits r.acts) r.acts (lcDone s r)) (markAt r.slot + 4) flagBytes) 0 := by
  have hdone : { (if r.op = 0x66 then provClear s else s) with lc := { (if r.op = 0x66 then provClear s else s).lc with run := none } } =
      lcDone s r := by
    unfold lcDone
    split <;> rfl
  rw [lcEnd, h]
  dsimp only
  rw [hdone]

/-- A cut transition has done its first units, as many as the specification does not say (log entry 43). -/
theorem lcCut_eq (s : State) (r : LcRun) :
    ∃ n, n ≤ lcUnits r.acts ∧ (lcCut s r).otp = (lcRun n r.acts s).otp ∧ (lcCut s r).lc = s.lc :=
  ⟨(Config.freeWord s.clk.free).toNat % (lcUnits r.acts + 1), Nat.le_of_lt_succ (Nat.mod_lt _ (Nat.succ_pos _)),
    lcRun_otp_congr _ _ _ _ rfl, lcRun_lc ..⟩

/-! Commands (R335). -/

theorem lcCommand_of_busy {s : State} (h : s.lc.run.isSome = true ∨ s.lc.token.isSome = true) (m : Core) (op : Nat) (f : State → State) :
    lcCommand s (.core m) op f = if op = 3 then provClear (lcResult s op 2) else lcResult s op 2 := by
  have hbusy : lcBusy { s with lc := { s.lc with cmdOp := BitVec.ofNat 4 op } } = true := by
    rw [lcBusy]
    exact Bool.or_eq_true_iff.mpr h
  refine (if_pos (mayWrite_core ..)).trans ((if_pos hbusy).trans ?_)
  split <;> rfl

theorem lcCommand_of_free {s : State} (h : LcFree s) (m : Core) (op : Nat) (f : State → State) :
    lcCommand s (.core m) op f = f { s with lc := { s.lc with cmdOp := BitVec.ofNat 4 op } } := by
  obtain ⟨-, hrun, htoken⟩ := h
  have hfree : lcBusy { s with lc := { s.lc with cmdOp := BitVec.ofNat 4 op } } = false := by
    simp only [lcBusy, hrun, htoken]
    rfl
  exact (if_pos (mayWrite_core ..)).trans (if_neg (Bool.eq_false_iff.mp hfree))

/-! Nonces (R330). -/

/-- The entropy source is no part of the engine. -/
theorem entropyBytes_of_lc (s : State) (lc : Lc) (n : Nat) :
    entropyBytes { s with lc := lc } n = ((entropyBytes s n).1, { (entropyBytes s n).2 with lc := lc }) := by
  unfold entropyBytes
  dsimp only
  split <;> rfl

theorem lcNonce_of_failed {s : State} (h : s.kv.esFail = true) :
    lcNonce s = lcFinish { s with lc := { s.lc with nonce := none } } 9 := by
  have hnone : entropyBytes s 32 = (none, s) := if_pos h
  rw [lcNonce, hnone]

theorem lcNonce_of_bytes {s v : State} {b : List Byte} (h : entropyBytes s 32 = (some b, v)) :
    lcNonce s = lcFinish { v with lc := { v.lc with nonce := some (digOf b) } } 0 := by
  rw [lcNonce, h]

/-! Tokens (R332). -/

theorem tokenStart_fixed (s : State) : Fixed s (tokenStart s) := by
  unfold tokenStart
  split
  · split
    · split
      next hdraw => exact draw_fixed (.refl s) hdraw
      next hdraw => exact hashJobs_fixed (draw_fixed (.refl s) hdraw)
    · exact .refl s
  · exact .refl s

theorem tokenStart_kv (s : State) : (tokenStart s).kv = s.kv := by
  unfold tokenStart
  split
  · split
    · split
      next hdraw => exact draw_kv hdraw
      next hdraw => exact (hashJobs_kv ..).trans (draw_kv hdraw)
    · rfl
  · rfl

theorem lcRedeem_of_failing {s : State}
    (h : tokenCheck s s.lc.nonce s.lc.tokenAddr.toNat s.lc.tokenLen.toNat ≠ 0) : lcRedeem s =
    lcFinish { s with lc := { s.lc with nonce := none } } (tokenCheck s s.lc.nonce s.lc.tokenAddr.toNat s.lc.tokenLen.toNat) :=
  if_pos h

/-- The token captured for the check of its signature. -/
def tokenHeld (s : State) : State :=
  let w := ramRead s s.lc.tokenAddr.toNat s.lc.tokenLen.toNat
  { s with lc := { s.lc with nonce := none, token := some (slice w 64 60, w.drop 128, w.take 128, be8 w 6, be8 w 7) } }

theorem lcRedeem_of_passing {s : State}
    (h : tokenCheck s s.lc.nonce s.lc.tokenAddr.toNat s.lc.tokenLen.toNat = 0) : lcRedeem s = tokenStart (tokenHeld s) :=
  if_neg (not_not.mpr h)

section End

variable {s : State} {key sig msg : List Byte} {p g : Nat}

theorem tokenEnd_of_none (h : s.lc.token = none) : tokenEnd s = s := by
  rw [tokenEnd, h]

theorem tokenEnd_of_waiting (h : s.lc.token = some (key, sig, msg, p, g))
    (hunits : unitsWhere (tokenStart s) (fun u => u.work = .token) = []) : tokenEnd s = tokenStart s := by
  rw [tokenEnd, h]
  dsimp only
  rw [hunits]

theorem tokenEnd_of_undone {id : Nat} {l : List Nat} (h : s.lc.token = some (key, sig, msg, p, g))
    (hunits : unitsWhere (tokenStart s) (fun u => u.work = .token) = id :: l) (hdone : unitDone id 12 (tokenStart s) = none) :
    tokenEnd s = tokenStart s := by
  rw [tokenEnd, h]
  dsimp only
  rw [hunits]
  dsimp only
  rw [hdone]

theorem tokenEnd_of_done {id : Nat} {l : List Nat} {v : State} (h : s.lc.token = some (key, sig, msg, p, g))
    (hunits : unitsWhere (tokenStart s) (fun u => u.work = .token) = id :: l) (hdone : unitDone id 12 (tokenStart s) = some v) :
    tokenEnd s = tokenVerdict (retire v id) key sig msg p g := by
  rw [tokenEnd, h]
  dsimp only
  rw [hunits]
  dsimp only
  rw [hdone]

/-- The engine without the token it has judged. -/
def tokenGone (s : State) : State := { s with lc := { s.lc with token := none } }

theorem tokenVerdict_of_failing (h : hssVerify false key sig msg ≠ .pass) :
    tokenVerdict s key sig msg p g = lcFinish (tokenGone s) 8 := if_pos h

theorem tokenVerdict_of_passing (h : hssVerify false key sig msg = .pass) (hstate : lcState s = .production)
    (hgen : curGen s = some g) : tokenVerdict s key sig msg p g =
      if p = 1 then lcStart (tokenGone s) 0x44 g else if p = 2 then lcStart (tokenGone s) 0x55 g else lcStart (tokenGone s) 0x33 0 := by
  have hstill : ¬(lcState (tokenGone s) ≠ .production ∨ curGen (tokenGone s) ≠ some g) := by
    rintro (hbad | hbad)
    · exact hbad hstate
    · exact hbad hgen
  exact (if_neg (not_not.mpr h)).trans (if_neg hstill)

/-- A transition other than TO_TEST has its steps from Table 11.5 alone. -/
theorem lcStart_runs {op i : Nat} {l : List LcAct} (hslot : lcSlot s op = some i)
    (hacts : ∀ t, lcActs t op g false = (l, t)) :
    (lcStart s op g).lc.token = s.lc.token ∧ LcRuns s (lcStart s op g) op g i l := by
  rw [lcStart, hslot]
  dsimp only
  rw [hacts]
  exact ⟨rfl, rfl, rfl, rfl, rfl, rfl, rfl⟩

end End

/-- Settles O48: the ends of transitions, BUSY, who may command, then nonces and tokens. -/
theorem transitionEndsTokensAndNonces : Obligations.TransitionEndsTokensAndNonces := by
  refine ⟨fun r s hs hrun => ?ends, fun code s => rfl, fun m s hs hbusy => ?busy,
    fun x s => ⟨next_extWrite_closed .., next_extWrite_closed .., next_extWrite_closed .., next_extWrite_closed ..,
      next_extWrite_closed .., next_extWrite_closed ..⟩, fun m s hfree => ⟨fun hfail => ?failed, fun b v hb => ?nonce, ?redeem⟩,
    fun s h => next_onLive_of_fixed (tokenEnd_of_none h),
    fun key sig msg p g s hs htoken => ⟨fun hunits => next_onLive hs (tokenEnd_of_waiting htoken hunits),
      fun id l hunits => ⟨fun hdone => next_onLive hs (tokenEnd_of_undone htoken hunits hdone),
        fun v hdone => next_onLive hs (tokenEnd_of_done htoken hunits hdone)⟩⟩,
    fun key sig msg p g s => ⟨fun hbad => tokenVerdict_of_failing hbad, fun hpass hstate hgen => ?passes⟩⟩
  case ends =>
    dsimp only
    refine ⟨next_onLive hs (lcEnd_eq hrun false), ?_⟩
    obtain ⟨n, hn, hotp, hlc⟩ := lcCut_eq (lcDone s r) r
    refine ⟨n, hn, _, next_onLive hs (lcEnd_eq hrun true), ?_, rfl, rfl, getLsbD_setBit_self _ (by decide), hotp⟩
    exact (congrArg Lc.run hlc :)
  case busy =>
    have busy (op : Nat) (f : State → State) := lcCommand_of_busy hbusy m op f
    exact ⟨next_coreWrite hs (busy 1 _), next_coreWrite hs (busy 2 _), next_coreWrite hs (busy 3 _), next_coreWrite hs (busy 4 _),
      next_coreWrite hs (busy 5 _), next_coreWrite hs (busy 6 _)⟩
  case failed =>
    exact next_coreWrite hfree.1 ((lcCommand_of_free hfree m 6 lcNonce).trans (lcNonce_of_failed hfail))
  case nonce =>
    have hdrawn := entropyBytes_of_lc s { s.lc with cmdOp := BitVec.ofNat 4 6 } 32
    rw [hb] at hdrawn
    obtain ⟨clk, rfl⟩ := entropyBytes_frame hb
    exact ⟨_, next_coreWrite hfree.1 ((lcCommand_of_free hfree m 6 lcNonce).trans (lcNonce_of_bytes hdrawn)), rfl, rfl, rfl, rfl, rfl⟩
  case redeem =>
    dsimp only
    have hcommand := lcCommand_of_free hfree m 4 lcRedeem
    obtain ⟨hs, -, htoken⟩ := hfree
    split
    next hpass =>
      refine ⟨_, next_coreWrite hs (hcommand.trans (lcRedeem_of_passing hpass)), ?_⟩
      rw [(tokenStart_fixed _).lc, (tokenStart_fixed _).otp, tokenStart_kv]
      exact ⟨rfl, rfl, rfl, rfl, rfl⟩
    next hfail =>
      exact ⟨_, next_coreWrite hs (hcommand.trans (lcRedeem_of_failing hfail)), rfl, rfl, rfl, htoken, rfl, rfl⟩
  case passes =>
    have hverdict := tokenVerdict_of_passing (p := p) hpass hstate hgen
    rw [hverdict]
    refine ⟨fun i hslot hp => ?_, fun i hslot hp => ?_, fun i hslot hp => ?_⟩
    all_goals
      rw [hp]
      exact lcStart_runs (s := tokenGone s) hslot fun t => rfl

end Sys2Proof.Machine
end
